-- ==== Sys2Proof/Word.lean ====
section
/-! DEFINITION. The word types of the OF-6412 and their plainest arithmetic (R4: bit 0 is the least significant bit, multi-byte values are little-endian). -/

namespace Sys2Proof

/-- A byte. -/
abbrev Byte := BitVec 8
/-- A 64-bit register or operation word. -/
abbrev Word := BitVec 64
/-- A 64 B cell: byte `i` is bits `[8i+7:8i]` (R4, R195). -/
abbrev Cell := BitVec 512
/-- An address register or a device physical address, 41 bits (R71, R243). -/
abbrev Addr := BitVec 41

/-- A tile ID (R192). -/
abbrev TileId := BitVec 9
/-- An engine number within a tile: MXE 0, VXE 1, MVE 2, BKE 3 (R24). -/
abbrev EngId := Fin 4
/-- A channel index, stack × 32 + channel (Table 1-13). -/
abbrev Chan := Fin 384
/-- A stack number (R17). -/
abbrev Stack := Fin 12
/-- A ring number (R381). -/
abbrev RingId := Fin 64
/-- A PCIe function: 0 is PF0, `k` is VF `k` (R363). -/
abbrev FnId := Fin 9

/-- An operation word with its extension word, when it carries one (R236, R242). -/
structure OpWord where
  op  : Word
  ext : Option Word
  deriving DecidableEq, Repr, Inhabited

end Sys2Proof
end

