-- ==== Sys2Proof/Config.lean ====
section
/-! DEFINITION. What the manual leaves open or to each implementation: constants without a body, so that no proof can see a value of one. -/

namespace Sys2Proof

/-- The data bits beneath a poison marker where they leave the card or reach a latch (R63); applied to the counter `State.free` (log 7). -/
opaque Config.poisonBits : Nat → BitVec 256

/-- From which operand on the VXE's EXP2 reaches a result code, by that code: any monotonic function within 2 ulp is one such choice (R67, Table 2-5; log 9). -/
opaque Config.exp2From : Nat → Nat
/-- Where within its 1 ulp bound RCP falls, by operand bits (Table 2-5; log 9). -/
opaque Config.rcpSlip : Nat → Nat
/-- Where within its 2 ulp bound RSQRT falls, by operand bits (Table 2-5; log 9). -/
opaque Config.rsqrtSlip : Nat → Nat

/-- How a column whose errors lie outside the classes of R96 is seen: 0 clean, 1 corrected, otherwise uncorrectable (log 10). -/
opaque Config.eccBeyond : Nat → Nat
/-- What data a column whose errors lie outside the classes of R96 delivers (log 10). -/
opaque Config.eccBeyondData : Nat → BitVec 256
/-- Whether a poison-code column with two or more wrong bits is still read as the poison code (R99; log 10). -/
opaque Config.poisonCodeHolds : Nat → Bool

/-- How many of the latest completion records transmitted were not acknowledged at the data link layer when the link went down, by draw (R400; log 61). -/
opaque Config.unacked : Nat → Nat

/-- The read-cache set of a line, and the way replaced in a full set, by draw: replacement is not visible to software except in counters (R204; log 15). -/
opaque Config.cacheSet : Nat → Nat
opaque Config.cacheVictim : Nat → Nat

/-- The address field of event 0x068E where the manual gives the memory no address (Table 15-9; log 16). -/
opaque Config.sramAddress : Nat → Nat

/-- The requester tile in event 0x0107 of a ring's refused access, which has none (Table 13-9; log 71). -/
opaque Config.refusedTile : Nat → Nat

/-- SHA3-256 (R489, R495; log 13). -/
opaque Config.sha3 : List Byte → BitVec 256
/-- ML-DSA-44 verification of a signature over a digest by a public key (R489, R503; log 13). -/
opaque Config.mldsaVerify : List Byte → BitVec 256 → List Byte → Bool
/-- The signature over a digest, 2,420 B, by the identity key that FIPS 204 derives from a seed (R487, R497; log 13). -/
opaque Config.identitySign : BitVec 256 → BitVec 256 → List Byte
/-- A fresh ML-KEM-768 encapsulation key, 1,184 B, by draw (R499; log 13). -/
opaque Config.kemPublic : Nat → List Byte
/-- ML-KEM-768 decapsulation under the key pair of a draw (R499; log 13). -/
opaque Config.kemDecaps : Nat → List Byte → BitVec 256
/-- AES-256-GCM opening of a sealed message under a key and an IV; none when it does not authenticate (R499; log 13). -/
opaque Config.aesOpen : BitVec 256 → Nat → List Byte → Option (List Byte)
/-- AES-256-GCM sealing (R499; log 13). -/
opaque Config.aesSeal : BitVec 256 → Nat → List Byte → List Byte
/-- A fresh token nonce, by draw (R503; log 13). -/
opaque Config.nonce : Nat → BitVec 256
/-- What an IDE_KM message asks for, as the PCIe standard defines it: kind (0 QUERY, 1 KEY_PROG, 2 K_SET_GO, 3 K_SET_STOP, otherwise malformed), stream, key set (R499; log 13). -/
opaque Config.ideKmParse : List Byte → Nat × Nat × Nat
/-- The plain response to an IDE_KM message (R499; log 13). -/
opaque Config.ideKmAnswer : List Byte → List Byte

/-- What the header of a Spawn image, whose layout is not given, says by the image's bytes: its length, its digest, and the instruction-memory pages that it fills (R472; log 72). -/
opaque Config.spawnLen : List Byte → Nat
opaque Config.spawnDigest : List Byte → BitVec 256
opaque Config.spawnPages : List Byte → List (Nat × List Byte)

/-- Whether the flash write of a boot-configuration save fails, and whether the record is then damaged, by draw (Table 17-7; log 79). -/
opaque Config.saveFails : Nat → Bool
opaque Config.saveDamages : Nat → Bool
/-- The text of the Felvik log, and what the Felvik console answers, by draw (R526, R528; log 49). -/
opaque Config.felvikLog : Nat → List Byte
opaque Config.consoleText : Nat → List Byte

/-- Why an image that an abandoned or failed update left invalid fails its next verification (R492, R493; log 5). -/
opaque Config.badImageReason : Nat → Nat
/-- The reading that THERM_TRIP records for an undervoltage shutdown, which has no sensor (Table 16-6). -/
opaque Config.tripReading : Nat → Nat
/-- The nonce bytes of GET_MEAS, whose request carries none (Table 18-5). -/
opaque Config.measNonce : Nat → BitVec 256
/-- How far the Felvik controller trims the TSC rate at an edge, within R525's bound (log 42). -/
opaque Config.tsTrim : Nat → Nat

end Sys2Proof
end

