-- ==== Sys2Proof/Machine/Store.lean ====
section
/-! DEFINITION. Sparse stores in one canonical form, and the bit-field and byte helpers that the rest of the model uses (R4). -/

namespace Sys2Proof.Machine

/-- A sparse store: keys strictly rising, no entry equal to what an unlisted key reads as. -/
abbrev SMap (α : Type) := List (Nat × α)

/-- What `m` holds at `k`; an unlisted key reads as `d k`. -/
def look {α : Type} (d : Nat → α) : SMap α → Nat → α
  | [], k => d k
  | (a, v) :: r, k => if a = k then v else look d r k

/-- Put one entry before the first greater key. -/
def ins {α : Type} (k : Nat) (v : α) : SMap α → SMap α
  | [] => [(k, v)]
  | (a, x) :: r => if k < a then (k, v) :: (a, x) :: r else (a, x) :: ins k v r

/-- Remove every entry of key `k`. -/
def del {α : Type} (k : Nat) : SMap α → SMap α
  | [] => []
  | (a, x) :: r => if a = k then del k r else (a, x) :: del k r

/-- Write `v` at `k`; writing what an unlisted key reads as removes the entry. -/
def put {α : Type} [DecidableEq α] (d : Nat → α) (m : SMap α) (k : Nat) (v : α) : SMap α :=
  if v = d k then del k m else ins k v (del k m)

/-- Keys strictly rising, every key above `lo` when `lo` is given. -/
def risingFrom {α : Type} : Option Nat → SMap α → Bool
  | _, [] => true
  | lo, (a, _) :: r => (match lo with | none => true | some b => decide (b < a)) && risingFrom (some a) r

/-- The canonical form of a sparse store. -/
def canonical {α : Type} [DecidableEq α] (d : Nat → α) (m : SMap α) : Bool :=
  risingFrom none m && m.all (fun p => decide (p.2 ≠ d p.1))

/-- Apply `f` to the values `0 … n - 1` in rising order. -/
def upto {α : Type} (n : Nat) (f : Nat → α → α) (x : α) : α :=
  (List.range n).foldl (fun a i => f i a) x

/-- Bits `[lo + w - 1 : lo]` of `n`. -/
def bitsOf (n lo w : Nat) : Nat := n / 2 ^ lo % 2 ^ w

/-- `n` with bits `[lo + w - 1 : lo]` replaced by the low `w` bits of `v`. -/
def setBits (n lo w v : Nat) : Nat :=
  n - bitsOf n lo w * 2 ^ lo + (v % 2 ^ w) * 2 ^ lo

/-- Bit `i` of `n`. -/
def bit (n i : Nat) : Bool := decide (n / 2 ^ i % 2 = 1)

/-- `n` read as a signed number of `w` bits. -/
def signed (w n : Nat) : Int := if n < 2 ^ (w - 1) then (n : Int) else (n : Int) - 2 ^ w

/-- An integer narrowed to `w` bits, modulo `2 ^ w`. -/
def wrapTo (w : Nat) (i : Int) : Nat := (i % (2 ^ w : Int)).toNat

/-- The exclusive-or of all bits of the low `w` bits of `n` (R72, `parity`). -/
def parity (w n : Nat) : Bool :=
  (List.range w).foldl (fun a i => xor a (bit n i)) false

/-- The number of set bits among the low `w` bits of `n`. -/
def popcount (w n : Nat) : Nat :=
  (List.range w).foldl (fun a i => if bit n i then a + 1 else a) 0

/-- Byte `i` of a little-endian number (R4). -/
def byteOf (n i : Nat) : BitVec 8 := BitVec.ofNat 8 (n / 2 ^ (8 * i))

/-- The little-endian number held by bytes (R4). -/
def leNat : List (BitVec 8) → Nat
  | [] => 0
  | b :: r => b.toNat + 256 * leNat r

/-- `n` as `k` little-endian bytes (R4). -/
def leBytes : Nat → Nat → List (BitVec 8)
  | 0, _ => []
  | k + 1, n => BitVec.ofNat 8 n :: leBytes k (n / 256)

/-- A saturating add below `2 ^ w`. -/
def satAdd (w a b : Nat) : Nat := min (2 ^ w - 1) (a + b)

end Sys2Proof.Machine
end

