-- ==== Sys2Proof/Machine/Numeric.lean ====
section
/-! DEFINITION. Element formats, rounding, conversion, MX scales and the approximate functions (Element Formats and Arithmetic, R38-R68): every value is formed exactly on integers and rounded once. -/

namespace Sys2Proof.Machine

/-- A floating-point value: NaN, an infinity, or ± `m` × 2^`e` (`m = 0` is a signed zero, R42). -/
inductive FV where
  | nan
  | inf (neg : Bool)
  | fin (neg : Bool) (m : Nat) (e : Int)
  deriving DecidableEq, Repr, Inhabited

/-- How a format spends its highest exponent code (Table 2-2). -/
inductive Special where
  | ieee   -- infinity and NaN at exponent all ones
  | e4m3   -- one NaN magnitude, no infinity
  | none   -- neither
  deriving DecidableEq, Repr

/-- A floating-point format of Table 2-2. -/
structure Fmt where
  ebits  : Nat
  mbits  : Nat
  bias   : Int
  kind   : Special
  maxMag : Nat      -- magnitude bits of the largest finite value
  nanBits : Nat     -- canonical NaN written
  deriving DecidableEq, Repr

def fp32 : Fmt := ⟨8, 23, 127, .ieee, 0x7F7FFFFF, 0x7FC00000⟩
def bf16 : Fmt := ⟨8, 7, 127, .ieee, 0x7F7F, 0x7FC0⟩
def fp16 : Fmt := ⟨5, 10, 15, .ieee, 0x7BFF, 0x7E00⟩
def e4m3 : Fmt := ⟨4, 3, 7, .e4m3, 0x7E, 0x7F⟩
def e5m2 : Fmt := ⟨5, 2, 15, .ieee, 0x7B, 0x7E⟩
def e3m2 : Fmt := ⟨3, 2, 3, .none, 0x1F, 0⟩
def e2m3 : Fmt := ⟨2, 3, 1, .none, 0x1F, 0⟩
def e2m1 : Fmt := ⟨2, 1, 1, .none, 0x7, 0⟩

/-- The bits of a format's sign. -/
def Fmt.signAt (f : Fmt) : Nat := f.ebits + f.mbits

/-- The value that a format's bits encode (R39). -/
def decodeF (f : Fmt) (bits : Nat) : FV :=
  let s := bit bits f.signAt
  let E := bitsOf bits f.mbits f.ebits
  let M := bitsOf bits 0 f.mbits
  if f.kind = .ieee ∧ E = 2 ^ f.ebits - 1 then
    if M = 0 then .inf s else .nan
  else if f.kind = .e4m3 ∧ E = 2 ^ f.ebits - 1 ∧ M = 2 ^ f.mbits - 1 then .nan
  else if E = 0 then .fin s M (1 - f.bias - f.mbits)
  else .fin s (2 ^ f.mbits + M) ((E : Int) - f.bias - f.mbits)

/-- `m` × 2^`e` rounded to nearest, ties to even, at the lowest exponent `t`: the integer part at `t` (R53). -/
def rneAt (m : Nat) (e t : Int) : Nat :=
  if t ≤ e then m * 2 ^ (e - t).toNat
  else
    let d := (t - e).toNat
    let q := m / 2 ^ d
    let r := m % 2 ^ d
    if 2 * r > 2 ^ d ∨ (2 * r = 2 ^ d ∧ q % 2 = 1) then q + 1 else q

/-- The magnitude bits of `m` × 2^`e` rounded to the format with an unbounded exponent range (R56, first half): larger than `maxMag` when the value overflows. -/
def roundMag (f : Fmt) (m : Nat) (e : Int) : Nat :=
  if m = 0 then 0
  else
    let low : Int := 1 - f.bias - f.mbits
    let top : Int := e + (Nat.log2 m : Int) - f.mbits
    let t := max top low
    let q := rneAt m e t
    -- `q` may have carried into the next binade; magnitude codes are consecutive, so the sum below is the code
    if q < 2 ^ f.mbits then q
    else ((t - low).toNat + 1) * 2 ^ f.mbits + (q - 2 ^ f.mbits)

/-- The sign bit of a format, as a number. -/
def signPart (f : Fmt) (neg : Bool) : Nat := if neg then 2 ^ f.signAt else 0

/-- A converted element and the sticky flags that the conversion sets (R55, R56). -/
structure Conv where
  bits : Nat
  inv  : Bool := false
  ovf  : Bool := false
  deriving DecidableEq, Repr

/-- Conversion to a floating-point format with saturation control `sat` (Table 2-4). -/
def toFmt (f : Fmt) (sat : Bool) : FV → Conv
  | .nan => { bits := f.nanBits }
  | .inf n =>
    match f.kind with
    | .ieee => { bits := signPart f n + (2 ^ f.ebits - 1) * 2 ^ f.mbits }
    | _ => if sat then { bits := signPart f n + f.maxMag, ovf := true } else { bits := f.nanBits, inv := true }
  | .fin n m e =>
    let g := roundMag f m e
    if g ≤ f.maxMag then { bits := signPart f n + g }
    else if sat then { bits := signPart f n + f.maxMag, ovf := true }
    else
      match f.kind with
      | .ieee => { bits := signPart f n + (2 ^ f.ebits - 1) * 2 ^ f.mbits, ovf := true }
      | .e4m3 => { bits := f.nanBits, inv := true }
      | .none => { bits := signPart f n + f.maxMag, ovf := true }

/-- One rounding to FP32; an overflow gives infinity (R53, R54). -/
def rnd32 (x : FV) : FV := decodeF fp32 (toFmt fp32 false x).bits
/-- One rounding to BF16 (R117). -/
def rndB16 (x : FV) : Nat := (toFmt bf16 false x).bits
/-- The FP32 bits of a value. -/
def bits32 (x : FV) : Nat := (toFmt fp32 false x).bits

/-- +0, the reset and identity value of accumulators. -/
def pzero : FV := .fin false 0 0
/-- −0, the identity of exact sums (R42). -/
def nzero : FV := .fin true 0 0
/-- 1. -/
def one : FV := .fin false 1 0

/-- A signed integer as a value; zero is +0. -/
def ofInt (i : Int) (e : Int := 0) : FV := .fin (decide (i < 0)) i.natAbs e

def FV.isNan : FV → Bool | .nan => true | _ => false
def FV.isInf : FV → Bool | .inf _ => true | _ => false
def FV.isFin : FV → Bool | .fin .. => true | _ => false
def FV.neg : FV → FV | .nan => .nan | .inf n => .inf (!n) | .fin n m e => .fin (!n) m e
def FV.abs : FV → FV | .nan => .nan | .inf _ => .inf false | .fin _ m e => .fin false m e

/-- The signed significand of a finite value. -/
def sgn (neg : Bool) (m : Nat) : Int := if neg then - (m : Int) else m

/-- The exact sum (R42, R59). -/
def addX : FV → FV → FV
  | .nan, _ => .nan
  | _, .nan => .nan
  | .inf a, .inf b => if a = b then .inf a else .nan
  | .inf a, .fin .. => .inf a
  | .fin .., .inf b => .inf b
  | .fin a m e, .fin b k g =>
    if m = 0 ∧ k = 0 then .fin (a && b) 0 0
    else
      let t := min e g
      let v := sgn a (m * 2 ^ (e - t).toNat) + sgn b (k * 2 ^ (g - t).toNat)
      if v = 0 then pzero else .fin (decide (v < 0)) v.natAbs t

/-- The exact product (R42, R59). -/
def mulX : FV → FV → FV
  | .nan, _ => .nan
  | _, .nan => .nan
  | .inf a, .inf b => .inf (xor a b)
  | .inf a, .fin b k _ => if k = 0 then .nan else .inf (xor a b)
  | .fin a m _, .inf b => if m = 0 then .nan else .inf (xor a b)
  | .fin a m e, .fin b k g => .fin (xor a b) (m * k) (e + g)

/-- Multiplication by a power of two, which is exact and keeps the sign (R51). -/
def scale2 (x : FV) (k : Int) : FV :=
  match x with
  | .fin n m e => .fin n m (e + k)
  | y => y

/-- The exact sum of several terms: −0 only when every term is −0 (R42). -/
def sumX (l : List FV) : FV := l.foldl addX nzero

def add32 (a b : FV) : FV := rnd32 (addX a b)
def sub32 (a b : FV) : FV := rnd32 (addX a b.neg)
def mul32 (a b : FV) : FV := rnd32 (mulX a b)
def fma32 (a b c : FV) : FV := rnd32 (addX (mulX a b) c)

/-- `a < b` for values that are no NaN, with −0 below +0 (R60). -/
def ltF : FV → FV → Bool
  | .nan, _ => false
  | _, .nan => false
  | .inf a, .inf b => a && !b
  | .inf a, .fin .. => a
  | .fin .., .inf b => !b
  | .fin a m e, .fin b k g =>
    let t := min e g
    let x := sgn a (m * 2 ^ (e - t).toNat)
    let y := sgn b (k * 2 ^ (g - t).toNat)
    decide (x < y) || (decide (x = y) && a && !b)

/-- Maximum, NaN when any operand is NaN (R60). -/
def maxF (a b : FV) : FV := if a.isNan || b.isNan then .nan else if ltF a b then b else a
/-- Minimum, NaN when any operand is NaN (R60). -/
def minF (a b : FV) : FV := if a.isNan || b.isNan then .nan else if ltF b a then b else a

/-- The invalid flag of an operation: a NaN that arises from operands none of which is NaN (R55). -/
def newNan (ins : List FV) (r : FV) : Bool := r.isNan && ins.all (fun x => !x.isNan)
/-- The overflow flag of an operation: an infinity that arises from finite operands (R55). -/
def newInf (ins : List FV) (r : FV) : Bool := r.isInf && ins.all FV.isFin

/-! ### Integer conversion (R56) -/

/-- A value rounded to the nearest integer, ties to even; NaN and infinities have none. -/
def toInt : FV → Option Int
  | .fin n m e => some (sgn n (rneAt m e 0))
  | _ => none

/-- Conversion of a value to an integer range: saturating; NaN gives 0 and sets invalid (Table 2-4). -/
def toIntRange (lo hi : Int) (w : Nat) : FV → Conv
  | .nan => { bits := 0, inv := true }
  | .inf n => { bits := wrapTo w (if n then lo else hi), ovf := true }
  | x =>
    let i := (toInt x).getD 0
    if i < lo then { bits := wrapTo w lo, ovf := true }
    else if i > hi then { bits := wrapTo w hi, ovf := true }
    else { bits := wrapTo w i }

/-! ### Element types (Table 2-1) -/

/-- The bits of one stored element of a type (R43, R44); 0 for a code that Table 2-1 does not list. -/
def elemBits (ty : Nat) : Nat :=
  match ty with
  | 0x00 | 0x01 | 0x0B | 0x0C | 0x10 | 0x11 | 0x12 | 0x13 | 0x15 | 0x18 => 8
  | 0x02 | 0x08 => 32
  | 0x03 | 0x04 | 0x14 => 4
  | 0x09 | 0x0A => 16
  | _ => 0

/-- Table 2-1 lists the code. -/
def listedType (ty : Nat) : Bool := decide (elemBits ty ≠ 0)
/-- The code is an MX type. -/
def isMx (ty : Nat) : Bool := decide (0x10 ≤ ty ∧ ty ≤ 0x15)
/-- The signed value of an integer element (R45 for MX INT8 before scaling is separate). -/
def intElem (ty bits : Nat) : Int :=
  match ty with
  | 0x00 => signed 8 (bits % 256)
  | 0x01 => bits % 256
  | 0x02 => signed 32 (bits % 2 ^ 32)
  | 0x03 => signed 4 (bits % 16)
  | 0x04 => bits % 16
  | _ => 0

/-- The value of an element before any block scale (R39, R44, R45). -/
def elemValue (ty bits : Nat) : FV :=
  match ty with
  | 0x08 => decodeF fp32 bits
  | 0x09 => decodeF bf16 bits
  | 0x0A => decodeF fp16 bits
  | 0x0B | 0x10 => decodeF e4m3 bits
  | 0x0C | 0x11 => decodeF e5m2 bits
  | 0x12 => decodeF e3m2 (bits % 64)
  | 0x13 => decodeF e2m3 (bits % 64)
  | 0x14 => decodeF e2m1 (bits % 16)
  | 0x15 => ofInt (signed 8 (bits % 256)) (-6)
  | 0x18 => if bits % 256 = 255 then .nan else .fin false 1 ((bits % 256 : Nat) - 127 : Int)
  | _ => ofInt (intElem ty bits)

/-- The value of an element of a block with scale byte `E` (R46, R47). -/
def scaled (E : Nat) (x : FV) : FV := if E = 255 then .nan else scale2 x ((E : Int) - 127)

/-- Conversion of a value to a stored element that is no MX element (R56). -/
def toElem (ty : Nat) (sat : Bool) (x : FV) : Conv :=
  match ty with
  | 0x00 => toIntRange (-128) 127 8 x
  | 0x01 => toIntRange 0 255 8 x
  | 0x02 => toIntRange (-(2 ^ 31)) (2 ^ 31 - 1) 32 x
  | 0x03 => toIntRange (-8) 7 4 x
  | 0x04 => toIntRange 0 15 4 x
  | 0x08 => toFmt fp32 sat x
  | 0x09 => toFmt bf16 sat x
  | 0x0A => toFmt fp16 sat x
  | 0x0B => toFmt e4m3 sat x
  | 0x0C => toFmt e5m2 sat x
  | _ => { bits := 0 }

/-! ### MX scale generation (R57, R58) -/

/-- `emax` of Table 2-6. -/
def emaxOf (ty : Nat) : Int :=
  match ty with
  | 0x10 => 8
  | 0x11 => 15
  | 0x12 => 4
  | 0x13 => 2
  | 0x14 => 2
  | _ => 0

/-- The largest finite value of an MX element type, as `m` × 2^`e`. -/
def maxFin (ty : Nat) : Nat × Int :=
  match ty with
  | 0x10 => (7, 6)
  | 0x11 => (7, 13)
  | 0x12 => (7, 2)
  | 0x13 => (15, -1)
  | 0x14 => (3, 1)
  | _ => (127, -6)

/-- An element of an MX type: saturating at ± the largest finite value, MX INT8 within ± 127 (R45, Table 2-4). -/
def toMxElem (ty : Nat) (x : FV) : Conv :=
  match ty with
  | 0x10 => toFmt e4m3 true x
  | 0x11 => toFmt e5m2 true x
  | 0x12 => toFmt e3m2 true x
  | 0x13 => toFmt e2m3 true x
  | 0x14 => toFmt e2m1 true x
  | _ => toIntRange (-127) 127 8 (scale2 x 6)

/-- floor(log2) of a positive finite value. -/
def floorLog2 (m : Nat) (e : Int) : Int := (Nat.log2 m : Int) + e

/-- `m` × 2^`e` ≤ `k` × 2^`g`. -/
def leMag (m : Nat) (e : Int) (k : Nat) (g : Int) : Bool :=
  let t := min e g
  decide (m * 2 ^ (e - t).toNat ≤ k * 2 ^ (g - t).toNat)

/-- The largest magnitude of the finite inputs of a block, as a value; +0 when there is none (R57). -/
def amaxOf (l : List FV) : FV :=
  l.foldl (fun a x => match x with | .fin _ m e => maxF a (.fin false m e) | _ => a) pzero

/-- The scale exponent X of a block (R57): mode 0 is the OCP method, mode 1 the no-clip method. -/
def scaleExp (ty : Nat) (mode : Bool) (l : List FV) : Int :=
  match amaxOf l with
  | .fin _ m e =>
    if m = 0 then -127
    else
      let base := floorLog2 m e - emaxOf ty
      let x := if mode then
          -- the smallest integer with amax / 2^X at most the largest finite value
          (if leMag m (e - (base - 1)) (maxFin ty).1 (maxFin ty).2 then base - 1
           else if leMag m (e - base) (maxFin ty).1 (maxFin ty).2 then base else base + 1)
        else base
      max (-127) (min 127 x)
  | _ => -127

/-- An encoded MX block: the scale byte, the elements and the flags (R57, R58). -/
structure MxBlock where
  scale : Nat
  elems : List Nat
  inv   : Bool
  ovf   : Bool
  deriving DecidableEq, Repr

/-- Encode one block of 32 values (R57); a NaN or an infinity gives scale 0xFF and zero elements (R58). -/
def mxEncode (ty : Nat) (mode : Bool) (l : List FV) : MxBlock :=
  if l.any FV.isNan || l.any FV.isInf then
    { scale := 255, elems := l.map (fun _ => 0), inv := l.any FV.isNan, ovf := l.any FV.isInf }
  else
    let x := scaleExp ty mode l
    let c := l.map (fun v => toMxElem ty (scale2 v (-x)))
    { scale := (x + 127).toNat, elems := c.map (·.bits), inv := c.any (·.inv), ovf := c.any (·.ovf) }

/-! ### Approximate functions (Table 2-5) -/

/-- 2^(j/64) × 2^23 rounded to an integer, j 0-64: the FP32 table of EXP2T. -/
def exp2Table : List Nat :=
   [8388608, 8479954, 8572295, 8665641, 8760003, 8855394, 8951823, 9049301, 9147842, 9247455, 9348154] ++
   [9449948, 9552851, 9656875, 9762032, 9868333, 9975792, 10084422, 10194234, 10305242, 10417458, 10530897] ++
   [10645571, 10761494, 10878679, 10997140, 11116891, 11237946, 11360319, 11484025, 11609078, 11735492, 11863283] ++
   [11992466, 12123055, 12255067, 12388516, 12523418, 12659789, 12797645, 12937002, 13077877, 13220286, 13364245] ++
   [13509772, 13656884, 13805598, 13955931, 14107901, 14261526, 14416824, 14573813, 14732511, 14892937, 15055111] ++
   [15219050, 15384775, 15552304, 15721658, 15892855, 16065917, 16240863, 16417715, 16596492, 16777216]

/-- EXP2T (Table 2-5): f kept to 16 fraction bits, linear interpolation formed exactly and rounded once (DEDUCED from R53, log 8). -/
def exp2T : FV → FV
  | .nan => .nan
  | .inf n => if n then pzero else .inf false
  | .fin n m e =>
    let x := FV.fin n m e
    if ltF x (.fin true 126 0) then pzero
    else if ltF (.fin false 127 0) x then .inf false
    else
      -- x in units of 2^-16, rounded down
      let u : Int := if 0 ≤ e + 16 then sgn n (m * 2 ^ (e + 16).toNat)
                     else (sgn n m) / (2 ^ (-(e + 16)).toNat : Int)
      let i := u / 65536
      let f := (u % 65536).toNat
      let j := f / 1024
      let r := f % 1024
      let a := exp2Table.getD j 0
      let b := exp2Table.getD (j + 1) 0
      rnd32 (.fin false (a * 1024 + (b - a) * r) (i - 33))

/-- 2^(2^-k) × 2^128, k 1-90. -/
def exp2Roots : List Nat :=
   [481231938336009023090067544955250113854, 404666211852346594250993303657235475948, 371080552416919877990254144423618836768] ++
   [355347954397881497469693820312941593444, 347733580493780928808815525413232318462, 343987798952690256687074238090730651113] ++
   [342130066523749645191881555545647086144, 341204966012395051463589306197117539652, 340743354212339922144397487283364652956] ++
   [340512782555889898808859563671008026640, 340397555242326998647385072673097901536, 340339956208435708755752659506489956134] ++
   [340311160346490911934870813363085081662, 340296763329178528376528243588334151603, 340289565048926066557319684044576333862] ++
   [340285965965899358974465315064323671036, 340284166438660709872813645066166128556, 340283266678610039476911010529773336521] ++
   [340282816799476865065514053322893021549, 340282591860133317712432962519222523747, 340282479390517303956044167089727739432] ++
   [340282423155723237052512385577070742060, 340282395038329688593740233918090740389, 340282380979633785612518603506803612671] ++
   [340282373950286051933938400987007267568, 340282370435612239547654640565033792378, 340282368678275346967764181521839267590] ++
   [340282367799606904081131786786979136761, 340282367360272683488643795553082001443, 340282367140605573405106851149122747984] ++
   [340282367030772018416515141710341210063, 340282366975855240935513477676743808340, 340282366948396852198336193330767679917] ++
   [340282366934667657830578438075407037644, 340282366927803060646907282177123794346, 340282366924370762055123634660330219951] ++
   [340282366922654612759244793510020291791, 340282366921796538111308618586887023373, 340282366921367500787341342538325810693] ++
   [340282366921152982125357907367296559436, 340282366921045722794366240495094772542, 340282366920992093128870419737322088773] ++
   [340282366920965278296122512528017799308, 340282366920951870879748559715761167680, 340282366920945167171561583507731730142] ++
   [340282366920941815317468095453241730943, 340282366920940139390421351438377911235, 340282366920939301426897979434041296354] ++
   [340282366920938882445136293432646812657, 340282366920938672954255450432143026744, 340282366920938568208815028931939497772] ++
   [340282366920938515836094818181849824282, 340282366920938489649734712806808010286, 340282366920938476556554660119287858975] ++
   [340282366920938470009964633775527972241, 340282366920938466736669620603648076105, 340282366920938465100022114017708139844] ++
   [340282366920938464281698360724738174666, 340282366920938463872536484078253192815, 340282366920938463667955545755010702074] ++
   [340282366920938463565665076593389456749, 340282366920938463514519842012578834098, 340282366920938463488947224722173522776] ++
   [340282366920938463476160916076970867116, 340282366920938463469767761754369539285, 340282366920938463466571184593068875370] ++
   [340282366920938463464972896012418543413, 340282366920938463464173751722093377434, 340282366920938463463774179576930794445] ++
   [340282366920938463463574393504349502950, 340282366920938463463474500468058857203, 340282366920938463463424553949913534329] ++
   [340282366920938463463399580690840872892, 340282366920938463463387094061304542174, 340282366920938463463380850746536376815] ++
   [340282366920938463463377729089152294135, 340282366920938463463376168260460252795, 340282366920938463463375387846114232125] ++
   [340282366920938463463374997638941221790, 340282366920938463463374802535354716623, 340282366920938463463374704983561464039] ++
   [340282366920938463463374656207664837747, 340282366920938463463374631819716524601, 340282366920938463463374619625742368028] ++
   [340282366920938463463374613528755289742, 340282366920938463463374610480261750599, 340282366920938463463374608956014981027] ++
   [340282366920938463463374608193891596241, 340282366920938463463374607812829903848, 340282366920938463463374607622299057652]

/-- 2^f × 2^128 for `f` in units of 2^-90, by the bits of `f`. -/
def exp2Frac (f : Nat) : Nat :=
  (List.range 90).foldl
    (fun a k => if bit f (89 - k) then a * exp2Roots.getD k 0 / 2 ^ 128 else a) (2 ^ 128)

/-- FP32 bits `δ` codes away from `b`, the slip taken from a free number within ± `n`. -/
def slip (n free b : Nat) : Nat := b + free % (2 * n + 1) - n

/-- The place of an FP32 operand in rising order, by its bits. -/
def fpOrd (b : Nat) : Nat := if b < 2 ^ 31 then 2 ^ 31 + b else 2 ^ 32 - b

/-- A result code within 2 codes of `b`: the greatest that the free thresholds let the operand of order `o` reach, so that no greater operand falls below it (R67). -/
def exp2Code (o b : Nat) : Nat :=
  (List.range 5).foldl (fun v i => if Config.exp2From (b + i - 2) ≤ o then b + i - 2 else v) (b - 2)

/-- EXP2 of the VXE: within 2 ulp of the correctly rounded result, monotonic and 1.0 at 0, the value within these bounds free (R66, R67; log 9). -/
def exp2V : FV → FV
  | .nan => .nan
  | .inf n => if n then pzero else .inf false
  | .fin n m e =>
    let x := FV.fin n m e
    if m = 0 then one
    else if ltF x (.fin true 126 0) then pzero
    else if !ltF x (.fin false 128 0) then .inf false
    else
      let u : Int := if 0 ≤ e + 90 then sgn n (m * 2 ^ (e + 90).toNat)
                     else (sgn n m) / (2 ^ (-(e + 90)).toNat : Int)
      let i := u / (2 ^ 90 : Int)
      let f := (u % (2 ^ 90 : Int)).toNat
      let b := roundMag fp32 (exp2Frac f) (i - 128)
      let c := exp2Code (fpOrd (bits32 x)) b
      -- nothing below 0 gives more than 1.0, nothing above 0 less, and the greatest code is that of infinity
      decodeF fp32 (if n then min c 0x3F800000 else min (max c 0x3F800000) 0x7F800000)

/-- RCP of the VXE: within 1 ulp, exact at powers of two (R66, R67; log 9). -/
def rcpV : FV → FV
  | .nan => .nan
  | .inf n => .fin n 0 0
  | .fin n m e =>
    if m = 0 then .inf n
    else if !leMag m e 1 126 then .fin n 0 0
    else if !leMag 1 (-126) m e then .inf n
    else
      -- 1 / (m 2^e) with 64 further bits and a sticky bit
      let k := 64 + Nat.log2 m
      let q := 2 ^ k / m
      let q' := 2 * q + (if q * m = 2 ^ k then 0 else 1)
      let b := roundMag fp32 q' (-(k : Int) - 1 - e)
      let b' := if m = 2 ^ Nat.log2 m then b else slip 1 (Config.rcpSlip (bits32 (.fin n m e))) b
      decodeF fp32 (signPart fp32 n + b')

/-- The integer square root, one bit at a time from `k`. -/
def isqrt : Nat → Nat → Nat → Nat
  | 0, _, r => r
  | k + 1, n, r => let c := r + 2 ^ k; isqrt k n (if c * c ≤ n then c else r)

/-- RSQRT of the VXE: within 2 ulp, exact at powers of two (R66, R67; log 9). -/
def rsqrtV : FV → FV
  | .nan => .nan
  | .inf n => if n then .nan else pzero
  | .fin n m e =>
    if m = 0 then .inf n
    else if n then .nan
    else
      -- make the exponent even, then take sqrt(2^(2K) / m)
      let m' := if e % 2 = 0 then m else 2 * m
      let e' := if e % 2 = 0 then e else e - 1
      let K : Nat := 80
      let q := 2 ^ (2 * K) / m'
      let r := isqrt 90 q 0
      let exact := decide (r * r * m' = 2 ^ (2 * K))
      let b := roundMag fp32 (2 * r + (if exact then 0 else 1)) (-(K : Int) - 1 - e' / (2 : Int))
      decodeF fp32 (if exact then b else slip 2 (Config.rsqrtSlip (bits32 (.fin n m e))) b)

/-! ### Values with poison (R61-R65) -/

/-- A 32-bit value with its poison marker. A poisoned value carries no bits: they are undefined (R63). -/
inductive PV where
  | val (bits : BitVec 32)
  | pois
  deriving DecidableEq, Repr, Inhabited

def PV.isPois : PV → Bool | .pois => true | _ => false
/-- The FP32 value of unpoisoned bits. -/
def PV.f : PV → FV | .val b => decodeF fp32 b.toNat | .pois => .nan
/-- A value as FP32 bits without poison. -/
def pvF (x : FV) : PV := .val (BitVec.ofNat 32 (bits32 x))
/-- +0 without poison. -/
def pv0 : PV := .val 0
/-- −Infinity without poison. -/
def pvNegInf : PV := .val 0xFF800000

end Sys2Proof.Machine
end

