-- ==== Sys2Proof/Machine/StateCc.lean ====
section
/-! DEFINITION. State of the memory side: device storage, channel controllers, bank engines and merge units (R70-R169). -/

namespace Sys2Proof.Machine

/-- One poison unit of 32 B: its bytes as a little-endian number, or `none` where it is poisoned and its bits are undefined (R63, R405). -/
abbrev Half := Option (BitVec 256)

/-- A 64 B cell or request as its two poison units. -/
structure Cell64 where
  lo : Half
  hi : Half
  deriving DecidableEq, Repr, Inhabited

/-- A cell of zero bytes without poison. -/
def Cell64.zero : Cell64 := ⟨some 0, some 0⟩
/-- A cell with both units poisoned. -/
def Cell64.bad : Cell64 := ⟨none, none⟩

/-- Device storage (Table 3-1), keyed by bank-direct DPA[39:0]. -/
structure Mem where
  bytes  : List (Nat × BitVec 8)   -- canonical; a poisoned column lists no byte
  poison : SMap Bool               -- by column number DPA[39:5]: the poison code (R99)
  errs   : SMap Nat                -- by column: wrong bits standing (R96): 1 single, 2 detectable, 3 outside the classes
  deriving DecidableEq, Repr

/-- The two normal ports of a CC (Table 3-4). -/
inductive Port where
  | host | tile
  deriving DecidableEq, Repr

/-- Who sent a request: a function for the host port, a tile for the tile port. -/
structure Requester where
  port : Port
  id   : Nat
  deriving DecidableEq, Repr

/-- A write of a request: a byte enable bit for each of 64 bytes, and the data. -/
structure WriteData where
  mask : BitVec 64
  data : Cell64
  deriving DecidableEq, Repr

/-- Who of the card asked for a read or a line and waits for it. -/
inductive ReadUser where
  | move (t : Nat)
  | copy (n count : Nat)
  | prefetch (t : Nat)
  | request (t : Nat)           -- a tile's REQUEST_ACCEPT that the ownership directory holds (R371)
  | dropped                     -- its requester was reset and the answer is discarded (R416)
  deriving DecidableEq, Repr

/-- How the data of a pooled read reaches its requester. -/
inductive Answer where
  | plain                      -- to a requester of REQUEST_ACCEPT
  | mem                        -- a CXL.mem read (R367)
  | bar (fn : Nat)             -- a BAR4 read (R366)
  | card (u : ReadUser)        -- a move, a COPY or a prefetch of the card
  deriving DecidableEq, Repr

/-- An accepted 64 B request (R70, R77). -/
structure Req where
  who   : Requester
  key   : Nat                  -- bank-direct DPA[39:0] of its first byte
  write : Option WriteData
  since : Nat                  -- TSC at acceptance (R86)
  ans   : Answer
  deriving DecidableEq, Repr

/-- One entry of a row-disturbance table (R91); `queued` is the number of its queued neighbour refresh. -/
structure RdEntry where
  row    : Nat
  count  : Nat
  queued : Option Nat
  deriving DecidableEq, Repr

/-- An item of the maintenance port (R93, R97). -/
inductive Maint where
  | neighbour (id bank row since : Nat) (escalated : Bool)   -- refresh of the rows beside `row`, queued at TSC `since`
  | writeBack (col since : Nat) (data : BitVec 256)    -- corrected column, queued at TSC `since`
  deriving DecidableEq, Repr

/-- A pass instruction with the tile that sent it (R138). -/
structure PassReq where
  tile : Nat
  pkt  : BitVec 512
  deriving DecidableEq, Repr

/-- One command of the command buffer (R151, R155). -/
inductive PCmd where
  | cfg | clr
  | opb (rec unit : Nat)              -- unit of operand record `rec`
  | acta (row : Nat)
  | scl (c0 n i0 k : Nat)             -- a burst of n operations, of which k from the i0-th on (R153)
  | cmp (c0 n h x0 i0 k : Nat) (dl : Bool)
  | sld (c0 n i0 k : Nat)
  | blw (c0 n i0 k : Nat)
  | rcr (c0 n i0 k : Nat)
  | rcw (c0 n i0 k : Nat)
  | prea
  | drn
  | exit
  deriving DecidableEq, Repr

/-- The active pass: its instruction, the commands still to issue in order, the operand units present, and what it has reported. -/
structure Active where
  req       : PassReq
  todo      : List PCmd
  operands  : SMap Cell64     -- fetched cells by record × 32 + unit
  fetched   : SMap Bool       -- which of them have arrived
  fetchErr  : Bool            -- event 0x0544 reported (R167)
  seqErr    : Bool            -- event 0x0501 reported (R123)
  faulted   : Bool            -- an engine entered FAULT (R166)
  unlocked  : Bool            -- the channel is in PIM mode for it
  gapServed : Nat             -- requests served in the current gap (R83)
  gap       : Bool            -- a row period of the pass has ended and the next has not begun (R83)
  held      : Bool            -- the next ACTA waits for the refresh slot (R153)
  asked     : Nat             -- GEMV operand records asked of the tile so far (R139)
  deriving DecidableEq, Repr

/-- A channel controller. -/
structure CcSt where
  pool    : List Req          -- oldest first
  landed  : List (ReadUser × Nat × Option Cell64)   -- reads of the card that were performed: requester, key and data, none where a prefetch discards it
  rows    : SMap (Option Nat) -- row open in each bank by normal traffic
  ptr     : Nat               -- rotating pointer (R81)
  hits    : SMap Nat          -- row hits that passed the oldest request, by bank
  pim     : Bool              -- channel in PIM mode (R146)
  queue   : List PassReq      -- accepted pass instructions
  ingress : List PassReq      -- held at the NoC ingress
  active  : Option Active
  retried : Bool              -- the unlock sequence failed once (R148)
  claimAt : Option Nat        -- TSC since which its next claim waits for an active-stack slot (R441)
  dist    : SMap (List RdEntry)
  maint   : List Maint        -- maintenance queue, at most 16
  waiting : List Maint        -- neighbour refreshes that wait for a free entry
  nextId  : Nat               -- number of the next neighbour refresh
  slot    : Nat               -- refresh slots done since the epoch
  epoch   : Nat               -- refresh epoch E of the stack
  refresh : Bool              -- refresh runs
  scrub   : Nat               -- next column of the patrol scrub
  scrubAt : Option Nat        -- TSC since which its read waits (R86)
  replays : SMap Nat          -- replays of a burst that is not performed yet (R103), by key / 32, plus 1 for a write
  lost    : SMap Bool         -- the bursts, numbered alike, that failed after their last replay and are not performed yet
  preaAt  : SMap (Option Nat) -- TSC of the latest PREA of each pass group (R435)
  panic   : Bool
  panicAt : Nat               -- TSC at which panic rose
  yields  : Nat               -- bank commands since the last exemption (R87)
  trip    : Bool              -- TRIP of the channel bucket (R407)
  deriving DecidableEq, Repr

/-- States of a bank engine that is not OFF (Table 4-5). -/
inductive EngMode where
  | idle | ready | opened | fault
  deriving DecidableEq, Repr

/-- A bank engine (Table 4-1). Unlisted items hold their cleared values. -/
structure EngSt where
  st     : EngMode
  isOpen : Bool                       -- PIM row recorded as open
  row    : Nat
  ob     : SMap Half                  -- 32 B granules 0-63
  ss     : SMap (Option (BitVec 16))  -- 2 B granules 0-127; none is poison
  acc    : SMap PV                    -- 8 j + l
  m      : SMap PV
  l      : SMap PV
  s      : SMap PV
  p      : SMap (Option (BitVec 16))  -- BF16 value weights; none is poison
  mode   : Nat
  wt     : Nat
  aty    : Nat
  masked : Bool
  inv    : Bool
  ovf    : Bool
  poi    : Bool
  deriving DecidableEq, Repr

/-- An engine that holds no state. -/
def EngSt.blank : EngSt :=
  { st := .idle, isOpen := false, row := 0, ob := [], ss := [], acc := [], m := [], l := [], s := [], p := [],
    mode := 0, wt := 0, aty := 0, masked := false, inv := false, ovf := false, poi := false }

/-- A drain unit (R157): 512 values in GEMV and VALUE, 16 in SCORE. -/
structure DrainUnit where
  absent : Bool
  fault  : Bool
  inv    : Bool
  ovf    : Bool
  vals   : SMap PV         -- unlisted values are +0
  allBad : Bool            -- every value is poisoned
  deriving DecidableEq, Repr

/-- Merge fields of a contribution (R163). -/
structure MergeKey where
  mop     : Nat
  mdest   : Nat
  mcount  : Nat
  resTile : Nat
  resAddr : Nat
  deriving DecidableEq, Repr

/-- A drain contribution of one channel (R160); `standIn` is the all-poisoned contribution of R140. -/
structure Contribution where
  chan    : Nat            -- channel 0-31 of the stack
  key     : MergeKey
  tag     : Nat
  src     : Nat            -- issuing tile
  standIn : Bool
  units   : List DrainUnit -- by bank index; empty when `standIn`
  deriving DecidableEq, Repr

/-- States of a merge destination (R160). -/
inductive DestState where
  | free | collecting | returning | holding
  deriving DecidableEq, Repr

/-- One (M, L) pair set of an ML table (R160). -/
structure MlEntry where
  m : SMap PV
  l : SMap PV
  deriving DecidableEq, Repr

/-- A contribution taken into a destination; `bad` marks a mismatch (R163). -/
structure Taken where
  con : Contribution
  bad : Bool
  deriving DecidableEq, Repr

/-- A merge destination (R160). -/
structure Dest where
  st      : DestState
  key     : MergeKey             -- of the current use
  taken   : List Taken
  since   : Nat                  -- TSC at which collecting began
  limit   : Nat                  -- timeout in force for the use, µs
  ml      : SMap (Option MlEntry)  -- by channel × 64 + bank index
  uses    : Nat
  timeout : Bool                 -- completed by R164
  poisons : Nat                  -- poisoned values of the result
  inv     : Bool
  ovf     : Bool
  spoiled : SMap Bool            -- accumulator values lost to an SRAM error in this use (R404), numbered as in the result
  cells   : List Cell64          -- the data cells of the result being returned
  sent    : Bool                 -- its data cells were delivered
  dropAt  : Option Nat           -- channel whose bus carried the first refused unit (R167)
  doneAt  : Nat                  -- completion time
  deriving DecidableEq, Repr

/-- A B-die's merge unit. -/
structure BdieSt where
  arrived : List Contribution     -- in drain buffers, oldest first
  dests   : SMap Dest
  activeAt : Option Nat           -- TSC since which the stack is active (R441)
  deriving DecidableEq, Repr

end Sys2Proof.Machine
end

