-- ==== Sys2Proof/Syntax.lean ====
section
/-! DEFINITION. The commands of the block: one constructor for each row of the opcode table, with the row's operands. What the outside world decides (host answers, pin readings, error strikes, factory facts) is an operand. -/

namespace Sys2Proof

open Sys2Proof.Machine (Cell64 Half Requester WriteData)

/-- Errors that strike a column before it is read: `cls` 1 a single further bit, 2 wrong bits that with those standing amount to an error that R96 detects, 3 to one outside its classes. `col` is DPA[39:5]. -/
structure Strike where
  col : Nat
  cls : Nat
  deriving DecidableEq, Repr

/-- A value of a bank engine's state (Table 4-1). -/
inductive EngItem where
  | ob (granule : Nat)        -- 32 B, the scale stage included
  | ss (granule : Nat)        -- 2 B
  | acc (value : Nat)
  | m (lane : Nat)
  | l (lane : Nat)
  | s (lane : Nat)
  | p (lane : Nat)
  deriving DecidableEq, Repr

/-- On-die SRAM that Table 15-1 protects by SECDED or parity. -/
inductive SramPlace where
  | scratchpad (t : TileId) (half : Nat)               -- 32 B unit
  | imem (t : TileId) (word : Nat)                     -- 64-bit word
  | streamLine (t : TileId)                            -- the next line of the stream buffer
  | queue (t : TileId) (e : EngId)                     -- the oldest entry of an engine queue
  | accumulator (t : TileId) (bank row lane : Nat)     -- an MXE accumulator value
  | bankState (b : Nat) (item : EngItem)               -- a value of bank engine `b`
  | mergeMl (s : Stack) (d : Nat) (unit lane : Nat) (l : Bool)  -- an M or L value of an ML table
  | mergeAcc (s : Stack) (d : Nat) (value : Nat)       -- a value of a merge accumulator, numbered as in its result
  | readCache (t : TileId) (line : Nat)                -- parity only
  | prefetchLine (t : TileId) (n : Nat)                -- the `n`-th line of the MVE prefetch buffer, parity only
  deriving DecidableEq, Repr

/-- One on-die SRAM error (R404). -/
structure SramErr where
  place : SramPlace
  fixed : Bool          -- corrected
  deriving DecidableEq, Repr

/-- What a NoC packet asks of a tile's scratchpad. -/
inductive PacketBody where
  | read (off : Nat)
  | write (off : Nat) (w : WriteData)
  deriving DecidableEq, Repr

/-- A NoC packet to a tile (R199, R217-R222); `src` is the sender's source number, `eng` its engine number (4 for a Tadpole). -/
structure Packet where
  src   : Nat
  eng   : Nat
  dest  : TileId
  plane : Nat
  body  : PacketBody
  deriving DecidableEq, Repr

/-- The sample of one rail over a control period: voltage in mV, power in 0.1 W, and the set point of its regulator in mV (R433, Table 16-5); rails 0, 1 and 44 have none. -/
structure RailSample where
  mv  : Nat
  dw  : Nat
  set : Nat
  deriving DecidableEq, Repr

/-- Items fixed when the card is made or recorded in its eFuses and SPI flash (R456, R462, R486, R487; log 5). -/
structure FactoryParts where
  stepping  : Nat
  serial    : Nat
  lc        : Nat                 -- lifecycle state 0-3
  idSeed    : BitVec 256          -- IDSEED; 0 when it is not programmed
  idKill    : BitVec 8            -- IDKILL
  idPub     : List Byte           -- the identity public key and its certificate in SPI flash
  idCert    : List Byte
  revoked   : Nat                 -- 4 bits
  counter   : Nat                 -- anti-rollback count
  keyHash   : List (BitVec 256)   -- KEYHASH0-3
  tiles     : List Nat            -- fused floor plan: enabled tile IDs
  engines   : List Nat            -- bank engines that the factory table lists as disabled
  rth       : List Nat            -- RTH_s, 0.001 °C/W
  tau       : List Nat            -- TAU_s, ms
  avs       : List Nat            -- fused AVS set points of the two C-dies, mV
  vmin      : List Nat            -- fused VMIN of the two C-dies, mV
  vmax      : List Nat            -- fused VMAX of the two C-dies, mV
  config    : Option (Bool × Bool × List Nat)  -- boot configuration record: ILV_MODE, MASKS, masks; none when absent or damaged
  retired   : List Nat            -- retirement record: channel indices
  deriving DecidableEq, Repr

/-- A firmware image as its reader finds it (R488): the 4,096 B header and the body. -/
structure Image where
  readable : Bool          -- no read error
  bytes    : List Byte
  deriving DecidableEq, Repr

/-- What bring-up finds (R458-R479). -/
structure BringUpFacts where
  image        : Image         -- the firmware image in flash
  in48Ok       : Bool          -- IN48 qualifies at step 2
  prsnt        : Bool          -- PB_PRSNT_N is closed (R522)
  tileFail     : List Nat      -- tiles that fail the step 3 self-test
  seamFull     : Bool          -- the seam link trains at full width
  seamHalf     : Bool          -- it trains at half width
  absent       : List Nat      -- stacks whose B-die does not answer
  cleared      : Bool          -- the retirement record was asked to be cleared since the last bring-up (R481)
  loopback     : List (Nat × Nat × Nat)  -- channels with errors in the step 6 loopback: bit errors and CRC errors
  engineFail   : List Nat      -- bank engines that fail the step 7 test
  spawnRuns    : List (List (Nat × List Byte × List Byte))  -- by run of Spawn, tiles that receive the image damaged: the first copy and the unicast copy
  deriving DecidableEq, Repr

/-- What the host has programmed in a function's configuration space: PF0's Device Control and tag enables, its Device Control 2, the BAR4 sizes in GiB (0 when disabled), the function's MSI-X Enable with Function Mask 0, and PF0's IDE streams (R359, R364, R374, R376, R397; log 70). -/
structure FnConfig where
  mps    : Nat           -- Max_Payload_Size, B
  mrrs   : Nat
  extTag : Bool
  tag10  : Bool
  tag14  : Bool
  cplTo  : Nat           -- completion-timeout range A-D as 0-3
  cplOff : Bool          -- Completion Timeout Disable
  bar4   : Nat
  vfBar4 : Nat
  msixOn : Bool
  ide    : List Nat      -- stream IDs of PF0's link IDE stream and selective IDE stream
  cxlIde : Option (Nat × Bool)  -- stream ID of CXL.cachemem IDE, and whether it runs in skid mode
  deriving DecidableEq, Repr

/-- A function whose Bus Master Enable the host sets, with what it has programmed there. -/
structure Enabling where
  fn  : FnId
  cfg : FnConfig
  deriving DecidableEq, Repr

/-- Which line request the host answers, and how: 0 data, 1 UR, 2 CA, 3 timeout (R374, R375). -/
structure LineAnswer where
  tag    : Nat
  status : Nat
  deriving DecidableEq, Repr

/-- A place in the doorbell pages of BAR2: the page and the offset in it (R388). -/
structure BellPlace where
  page : Nat
  off  : Nat
  deriving DecidableEq, Repr

/-- Cycles by which a droop detector has stretched a clock, and the ns that they took (R446). -/
structure Stretch where
  cycles : Nat
  ns     : Nat
  deriving DecidableEq, Repr

/-- What one round of a firmware update meets (R492, R493): it ends with the update, or after `pages` pages with pages left. -/
structure UpdateFacts where
  host        : List Byte -- host memory from SEC_FW_ADDR on
  fail1       : Nat       -- how the host read ends in step 1: 0 data, 1 UR, 2 CA, 3 timeout, 4 EP
  pages       : Nat       -- pages of 4 KiB that this round programs at most
  fail2       : Nat       -- how the read of the page after them ends
  readBackBad : Bool      -- the programmed image cannot be read back
  deriving DecidableEq, Repr

/-- The bytes of a signed command (Table 18-8). -/
structure SignedCmd where
  bytes : List Byte
  deriving DecidableEq, Repr

/-- A DOE data object: vendor ID, data object type, and its bytes after the two header words (R496). -/
structure DoeObject where
  vendor : Nat
  type   : Nat
  body   : List Byte
  deriving DecidableEq, Repr

/-- A read within TILE_DBG_SPDATA0: byte offset in the register and length (R511, R516). -/
structure SpDataRead where
  tile : TileId
  off  : Nat
  len  : Nat
  deriving DecidableEq, Repr

/-- The bytes of an SMBus write after the command code, with the PEC when it carries one (R526). -/
structure SmbusWrite where
  data : List Byte
  pec  : Option Byte
  deriving DecidableEq, Repr

/-- A CONSOLE transfer: a block write, or a block read (Table 20-5). -/
inductive ConsoleXfer where
  | write (x : SmbusWrite)
  | read
  deriving DecidableEq, Repr

/-- Who starts a loopback run (Table 17-4): a function through BAR0, the Felvik controller, or the host as PCIe defines. -/
inductive LoopStart where
  | bar0 (f : FnId)
  | felvik
  | host
  deriving DecidableEq, Repr

/-- One update of the TAP chain (R482, R483): TRST_N, the instructions shifted to C0 and C1, the levels at each die's package pins, and the levels shifted into its boundary register. -/
structure TapScan where
  trst  : Bool            -- TRST_N is high
  ir0   : BitVec 8
  ir1   : BitVec 8
  pins0 : List Bool
  pins1 : List Bool
  data0 : List Bool
  data1 : List Bool
  deriving DecidableEq, Repr

/-- What IN48 shows when it fails (R455, R522): its voltage in mV, and whether PB_PRSNT_N opens. -/
structure In48Loss where
  mv    : Nat
  opens : Bool
  deriving DecidableEq, Repr

/-- The commands, one constructor for each row of the opcode table, in its order. -/
inductive Instr where
  /-- REGISTER_WRITE: a BAR0 write of `size` bytes (4 or 8) by function `f` (R511, R13). -/
  | registerWrite (f : FnId) (off size : Nat) (data : Word)
  /-- BAD_ACCESS: a BAR0 access that R512 calls bad. -/
  | badAccess (f : FnId) (off len : Nat) (write : Bool)
  /-- DEBUG_SPDATA_READ: a read of TILE_DBG_SPDATA0 or of half of it (R511, R516). -/
  | debugSpdataRead (f : FnId) (r : SpDataRead)
  /-- DEBUG_SPDATA_WRITE: a write of TILE_DBG_SPDATA7 (R516). -/
  | debugSpdataWrite (f : FnId) (t : TileId) (data : Word)
  /-- REQUEST_ACCEPT: a CC takes a 64 B request (R77). -/
  | requestAccept (who : Requester) (dpa : Addr) (write : Option WriteData)
  /-- REQUEST_ISSUE: one command slot of the CC for normal requests (R81). -/
  | requestIssue (c : Chan) (strikes : List Strike) (sram : List SramErr)
  /-- NEIGHBOUR_REFRESH: the next queued neighbour refresh issues (R93). -/
  | neighbourRefresh (c : Chan)
  /-- REF: the next refresh slot (R89). -/
  | ref (c : Chan)
  /-- PDE: a SID enters power-down (R95). -/
  | pde (c : Chan) (sid : Fin 4)
  /-- ECC_WRITE_BACK: the oldest queued write-back issues (R97). -/
  | eccWriteBack (c : Chan) (strikes : List Strike)
  /-- PATROL_SCRUB: the patrol scrub reads its next column (R100). -/
  | patrolScrub (c : Chan) (strikes : List Strike)
  /-- CRC_REPLAY: a burst fails its CRC and is replayed (R103). -/
  | crcReplay (c : Chan) (col : Nat) (write : Bool) (sram : List SramErr)
  /-- PASS_INSTRUCTION: a pass-instruction packet reaches a CC (R138). -/
  | passInstruction (c : Chan) (t : TileId) (pkt : BitVec 512)
  /-- PASS_GROUP_CLAIM: the sequencer claims the group of its next pass (R82). -/
  | passGroupClaim (c : Chan)
  /-- GEMV_PASS: the rest of a GEMV pass (R151). -/
  | gemvPass (c : Chan) (unlockOk : Bool) (strikes : List Strike)
  /-- SCORE_PASS: the rest of a SCORE pass (R151). -/
  | scorePass (c : Chan) (unlockOk : Bool) (strikes : List Strike)
  /-- VALUE_PASS: the rest of a VALUE pass (R151). -/
  | valuePass (c : Chan) (unlockOk : Bool) (strikes : List Strike)
  /-- COPY_PASS: the rest of a COPY pass (R119, R151). -/
  | copyPass (c : Chan) (unlockOk : Bool) (strikes : List Strike)
  /-- EXIT_PASS: a pass of KIND EXIT (R151). -/
  | exitPass (c : Chan)
  /-- UNLOCK_RETRY: the unlock sequence is repeated once (R148). -/
  | unlockRetry (c : Chan) (ok : Bool)
  /-- OPERAND_FETCH_RESPONSE: the next operand fetch is answered (R139). -/
  | operandFetchResponse (c : Chan)
  /-- ROW_PERIOD_START: the next row period of the active pass runs; `split` gives how many operations fit before the refresh slot when not all do (R152, R153). -/
  | rowPeriodStart (c : Chan) (split : Option Nat) (strikes : List Strike)
  /-- RESERVED_COMMAND_WORD: a command word reaches the B-die by error (R141, R142). -/
  | reservedCommandWord (c : Chan) (column : Bool) (word : BitVec 40)
  /-- MERGE_CONTRIBUTION: the merge unit takes a channel's oldest contribution (R160). -/
  | mergeContribution (s : Stack) (chan : Fin 32)
  /-- MERGE_TIMEOUT: a destination has collected for TIMEOUT µs (R164). -/
  | mergeTimeout (s : Stack) (d : Fin 16)
  /-- STATUS_CELL_WRITE: the status cell of a result is written (R165). -/
  | statusCellWrite (s : Stack) (d : Fin 16)
  /-- RESULT_RETURN_DROPPED: a return met an error response (R167). -/
  | resultReturnDropped (s : Stack) (d : Fin 16)
  /-- NOC_PACKET_DELIVERY: a packet is delivered to a tile port (R220). -/
  | nocPacketDelivery (p : Packet)
  /-- FE_WATCH_GRANT: waiters on a full cell are granted (R348). -/
  | feWatchGrant (t : TileId) (cell : BitVec 16)
  /-- PREFETCH_ISSUE: the MVE prefetcher predicts a line (R207). -/
  | prefetchIssue (t : TileId) (line : Nat)
  /-- PREFETCH_ARRIVE: the oldest prefetch in flight arrives (R208). -/
  | prefetchArrive (t : TileId)
  /-- STREAM_RECORD: the stream fetcher takes the next record (R230). -/
  | streamRecord (t : TileId)
  /-- STREAM_FETCH_REQUEST: the stream fetcher requests its next line (R233). -/
  | streamFetchRequest (t : TileId)
  /-- STREAM_LINE_RETURN: the line request with this tag is answered: status 0 data, 1 UR, 2 CA, 3 timeout (R232, R234, R375). -/
  | streamLineReturn (t : TileId) (answer : LineAnswer) (data : Cell64)
  /-- BUNDLE_SPLIT: the Tadpole splits the next bundle (R239). -/
  | bundleSplit (t : TileId) (sram : List SramErr)
  /-- IMLD: a waiting instruction-memory load is copied (R255). -/
  | imld (t : TileId)
  /-- IMLD_HOLD_LIMIT: a load has waited HOLD_LIMIT µs (R256). -/
  | imldHoldLimit (t : TileId)
  /-- QUEUE_BARRIER: a barrier completes at every queue (R257). -/
  | queueBarrier (t : TileId)
  /-- STREAM_COMPLETE: the oldest stream record completes (R235). -/
  | streamComplete (t : TileId)
  /-- NOP: engine `e` issues the NOP operation `w` (Table 8-3). -/
  | nop (t : TileId) (e : EngId) (w : OpWord)
  /-- SETA: engine `e` issues the SETA operation `w` (Table 8-3). -/
  | seta (t : TileId) (e : EngId) (w : OpWord)
  /-- SETAX: engine `e` issues the SETAX operation `w` (Table 8-3). -/
  | setax (t : TileId) (e : EngId) (w : OpWord)
  /-- ADDA: engine `e` issues the ADDA operation `w` (Table 8-3). -/
  | adda (t : TileId) (e : EngId) (w : OpWord)
  /-- SUBA: engine `e` issues the SUBA operation `w` (Table 8-3). -/
  | suba (t : TileId) (e : EngId) (w : OpWord)
  /-- ADDI: engine `e` issues the ADDI operation `w` (Table 8-3). -/
  | addi (t : TileId) (e : EngId) (w : OpWord)
  /-- SHLA: engine `e` issues the SHLA operation `w` (Table 8-3). -/
  | shla (t : TileId) (e : EngId) (w : OpWord)
  /-- SHRA: engine `e` issues the SHRA operation `w` (Table 8-3). -/
  | shra (t : TileId) (e : EngId) (w : OpWord)
  /-- MULA: engine `e` issues the MULA operation `w` (Table 8-3). -/
  | mula (t : TileId) (e : EngId) (w : OpWord)
  /-- LDA: engine `e` issues the LDA operation `w` (Table 8-3). -/
  | lda (t : TileId) (e : EngId) (w : OpWord)
  /-- LOOP: engine `e` issues the LOOP operation `w` (Table 8-3). -/
  | loop (t : TileId) (e : EngId) (w : OpWord)
  /-- CALL: engine `e` issues the CALL operation `w` (Table 8-3). -/
  | call (t : TileId) (e : EngId) (w : OpWord)
  /-- RET: engine `e` issues the RET operation `w` (Table 8-3). -/
  | ret (t : TileId) (e : EngId) (w : OpWord)
  /-- FENCE: engine `e` issues the FENCE operation `w` (Table 8-3). -/
  | fence (t : TileId) (e : EngId) (w : OpWord)
  /-- PASS: the BKE issues PASS (R258). -/
  | pass (t : TileId) (w : OpWord)
  /-- MMA: the MXE issues MMA (R275). -/
  | mma (t : TileId) (w : OpWord)
  /-- MMA_ARRAY_START: the oldest queued MMA runs in the array (R272). -/
  | mmaArrayStart (t : TileId)
  /-- FST: the MXE issues FST (R277). -/
  | fst (t : TileId) (w : OpWord)
  /-- FST_BANK_READ: the oldest queued FST reads its bank and stores (R281). -/
  | fstBankRead (t : TileId)
  /-- VOP: the VXE issues VOP (R292). -/
  | vop (t : TileId) (w : OpWord)
  /-- VOP_START: the oldest queued VOP runs (R298). -/
  | vopStart (t : TileId)
  /-- DSET: the MVE issues DSET (R312). -/
  | dset (t : TileId) (w : OpWord)
  /-- MOVE: the MVE issues MOVE (R314). -/
  | move (t : TileId) (w : OpWord)
  /-- MOVE_BEGIN: the oldest queued move runs (R317). -/
  | moveBegin (t : TileId)
  /-- SEMSIG: engine `e` issues SEMSIG (R341). -/
  | semsig (t : TileId) (e : EngId) (w : OpWord)
  /-- SEMAPHORE_UPDATE: the oldest signal in flight reaches its semaphore (R341, R342). -/
  | semaphoreUpdate (t : TileId)
  /-- SEMWAIT: engine `e` issues SEMWAIT (R342). -/
  | semwait (t : TileId) (e : EngId) (w : OpWord)
  /-- SEMAPHORE_GRANT: semaphore `k` grants a waiter (R342). -/
  | semaphoreGrant (t : TileId) (k : Fin 32)
  /-- SCUPD: engine `e` issues SCUPD (R345). -/
  | scupd (t : TileId) (e : EngId) (w : OpWord)
  /-- SCWAIT: engine `e` issues SCWAIT (R346). -/
  | scwait (t : TileId) (e : EngId) (w : OpWord)
  /-- STREAM_COUNTER_SATISFY: satisfied stream-counter waits end (R346). -/
  | streamCounterSatisfy (t : TileId)
  /-- FEWAIT: engine `e` issues FEWAIT (R347). -/
  | fewait (t : TileId) (e : EngId) (w : OpWord)
  /-- CHORUS_ARRIVE: engine `e` issues CHORUS with MODE 1 (R351). -/
  | chorusArrive (t : TileId) (e : EngId) (w : OpWord)
  /-- CHORUS_WAIT: engine `e` issues CHORUS with MODE 2 (R351). -/
  | chorusWait (t : TileId) (e : EngId) (w : OpWord)
  /-- CHORUS_ARRIVE_WAIT: engine `e` issues CHORUS with MODE 3 (R351). -/
  | chorusArriveWait (t : TileId) (e : EngId) (w : OpWord)
  /-- CHORUS_PHASE_COMPLETE: a group whose participants have all arrived completes (R350). -/
  | chorusPhaseComplete (g : Fin 8)
  /-- DEADLOCK_DETECTOR_FIRE: the detector's timer reaches its limit (R355). -/
  | deadlockDetectorFire (t : TileId)
  /-- LINK_UP: the host link trains (R359, R361). -/
  | linkUp (width speed : Nat) (flit cxl : Bool)
  /-- LINK_DOWN: a link-down event (R377). -/
  | linkDown (cause : Fin 8)
  /-- FLR: function-level reset (R377). -/
  | flr (f : FnId)
  /-- BUS_MASTER_ENABLE_CLEAR: the host clears Bus Master Enable (R364). -/
  | busMasterEnableClear (f : FnId)
  /-- CXL_MEM_READ: a host MemRd (R367, R371). -/
  | cxlMemRead (hpa : Nat) (shared : Bool)
  /-- CXL_MEM_WRITE: a host MemWr or MemWrPtl (R367, R371). -/
  | cxlMemWrite (hpa : Nat) (w : WriteData) (keeps : Bool)
  /-- BAR4_READ: a 64 B BAR4 read (R366). -/
  | bar4Read (f : FnId) (off : Nat)
  /-- BAR4_WRITE: a BAR4 write within 64 B (R366, R369). -/
  | bar4Write (f : FnId) (off : Nat) (w : WriteData)
  /-- H2D_SNOOP: a host snoop of a cache line (R360). -/
  | h2dSnoop (line : Nat)
  /-- BISNP_RESPONSE: the host answers a back-invalidation (R371). -/
  | bisnpResponse (line : Nat) (writeBack : Option Cell64)
  /-- HOST_COMPLETION: the host answers a read request (R375). -/
  | hostCompletion (tag status : Nat) (data : List Half)
  /-- COMPLETION_TIMEOUT: a read request times out (R375). -/
  | completionTimeout (tag : Nat)
  /-- IDE_INTEGRITY_FAILURE: an IDE stream fails its integrity check (R376). -/
  | ideIntegrityFailure (stream : Nat)
  /-- BIAS_CHANGE: a bias change is commanded (R373). -/
  | biasChange (f : FnId) (region : Nat) (shared : Bool)
  /-- BIAS_CHANGE_COMPLETE: the running bias change completes (R373). -/
  | biasChangeComplete
  /-- SUBMISSION_DOORBELL: a BAR2 write at an offset of a doorbell page (R388). -/
  | submissionDoorbell (f : FnId) (place : BellPlace) (size : Nat) (data : Word)
  /-- EVENT_HEAD_DOORBELL: a BAR2 event-head doorbell (R398). -/
  | eventHeadDoorbell (f : FnId) (page size : Nat) (data : Word)
  /-- DESCRIPTOR_FETCH: a read of descriptors is made and returns: status 0 data, 1 UR, 2 CA, 3 timeout, 4 EP (R375, R391). -/
  | descriptorFetch (n : RingId) (status : Nat) (data : List (BitVec 512))
  /-- DESCRIPTOR_REREAD: a re-read is made and returns, with a status as DESCRIPTOR_FETCH (R391). -/
  | descriptorReread (n : RingId) (status : Nat) (data : List (BitVec 512))
  /-- DESCRIPTOR_NOP: ring `n` starts its next descriptor of type NOP (R384). -/
  | descriptorNop (n : RingId)
  /-- DESCRIPTOR_STREAM: ring `n` starts its next descriptor of type STREAM (R384). -/
  | descriptorStream (n : RingId)
  /-- DESCRIPTOR_COPY: ring `n` starts its next descriptor of type COPY (R384). -/
  | descriptorCopy (n : RingId)
  /-- DESCRIPTOR_FILL: ring `n` starts its next descriptor of type FILL (R384). -/
  | descriptorFill (n : RingId)
  /-- DESCRIPTOR_SIGNAL: ring `n` starts its next descriptor of type SIGNAL (R384). -/
  | descriptorSignal (n : RingId)
  /-- SIGNAL_VALUE_WRITE: the value of a started SIGNAL is sent (R395). -/
  | signalValueWrite (n : RingId)
  /-- DESCRIPTOR_FENCE: ring `n` starts its next descriptor of type FENCE (R384). -/
  | descriptorFence (n : RingId)
  /-- FENCE_COMPLETE: the oldest started FENCE completes (R396). -/
  | fenceComplete (n : RingId)
  /-- COMPLETION_RECORD: the next completion record is sent (R393). -/
  | completionRecord (n : RingId)
  /-- RING_START: a write of RING_CMDn.START (R401). -/
  | ringStart (f : FnId) (n : RingId)
  /-- RING_RESUME: a write of RING_CMDn.RESUME (R401). -/
  | ringResume (f : FnId) (n : RingId)
  /-- RING_RESET: a write of RING_CMDn.RESET (R401). -/
  | ringReset (f : FnId) (n : RingId)
  /-- RING_HALT: a write of RING_CMDn.HALT (R401). -/
  | ringHalt (f : FnId) (n : RingId)
  /-- EVENT_RING_ENABLE: a write of EVT_CFGf.ENABLE = 1 (R398, R461). -/
  | eventRingEnable (f : FnId) (r : Fin 9)
  /-- EVENT_REPORT: the ring engine takes the oldest report (R424). -/
  | eventReport
  /-- COALESCE_WINDOW_END: a coalescing window ends (R427). -/
  | coalesceWindowEnd (r : Fin 9) (source code : Nat)
  /-- LEAK_TICK: a leak tick of the buckets (R407). -/
  | leakTick
  /-- SEAM_REPLAY: a seam flit is replayed (R404). -/
  | seamReplay (replay : Nat) (fails : Bool) (sram : List SramErr)
  /-- HOST_LINK_REPLAY: a host-link replay or FEC correction (R408). -/
  | hostLinkReplay (fec : Bool) (sram : List SramErr)
  /-- MOLT_CMD: a write of FLT_MOLT_CMD with GO (R410). -/
  | moltCmd (f : FnId) (chan : Nat)
  /-- MOLT: the next waiting Molt runs (R411). -/
  | molt
  /-- MOLT_COMMIT: the oldest uncommitted retirement is written to flash (R411). -/
  | moltCommit
  /-- TILE_RESET: a write of FLT_RST_CMD with TILE_GO (R416). -/
  | tileReset (f : FnId) (t : TileId)
  /-- PARTITION_RESET: a write of FLT_RST_CMD with PART_GO (R416). -/
  | partitionReset (f : FnId) (k : Nat)
  /-- CONSISTENT_CUT: the oldest waiting cut runs once its rings are quiet (R419). -/
  | consistentCut
  /-- CUT_WAIT_EXPIRE: the oldest waiting cut has waited CUT_WAIT (R419). -/
  | cutWaitExpire
  /-- HOST_BUCKET_REARM: a write of 1 to FLT_BKT_HOST.PERM (R431). -/
  | hostBucketRearm (f : FnId)
  /-- CONTROL_PERIOD: a control period ends (R433, R438). -/
  | controlPeriod (rails : List RailSample)
  /-- FAST_TRIP: the fast comparator trips (R443). -/
  | fastTrip (watts : Nat)
  /-- POWER_BRAKE_ASSERT: PWRBRK_N or PWR_BRAKE.SW asserts the brake (R444). -/
  | powerBrakeAssert (pin : Bool)
  /-- POWER_BRAKE_RELEASE: the brake source releases (R444). -/
  | powerBrakeRelease (pin : Bool)
  /-- AVS_UPDATE: the AVS loop of an island of a C-die ends a round: move 0 hold, 1 up a step, 2 down a step, 3 a value beyond VMAX is needed (R445). -/
  | avsUpdate (die : Fin 2) (island move : Nat)
  /-- DROOP_DETECT: a droop detector stretches an island's clock (R446). -/
  | droopDetect (island : TileId) (by_ : Stretch)
  /-- THERMAL_SAMPLE: a 100 µs thermal sample (R447, R448). -/
  | thermalSample (diodes : List Int) (power : List Nat)
  /-- THERMAL_FLOOR_STEP: the thermal floors step (R450). -/
  | thermalFloorStep
  /-- THERMAL_SHUTDOWN: a sensor reaches its trip threshold (R451). -/
  | thermalShutdown (sensor : Fin 14)
  /-- THERMAL_RESTART: the restart conditions hold (R452). -/
  | thermalRestart
  /-- SUPPLY_SAG_LOCKOUT: a rail whose sample meets a lockout condition (R453). -/
  | supplySagLockout (rail : Nat) (x : RailSample)
  /-- SUPPLY_SAG_RECOVER: every rail has recovered (R453). -/
  | supplySagRecover
  /-- UNDERVOLTAGE_SHUTDOWN: IN48 falls below its shutdown level, or its contacts open (R455, R522). -/
  | undervoltageShutdown (x : In48Loss)
  /-- POWER_ON: power-on of the management island (R458). -/
  | powerOn (parts : FactoryParts)
  /-- BRING_UP: bring-up from its step to READY or to failure (R458). -/
  | bringUp (facts : BringUpFacts)
  /-- CARD_RESET: a write of BRUP_CMD with CARD_RESET (R463). -/
  | cardReset (f : FnId) (key : Nat)
  /-- CFG_SAVE: a write of BRUP_CMD with CFG_SAVE (R462). -/
  | cfgSave (f : FnId) (key : Nat)
  /-- LOOPBACK_RUN: a write of TEST_LPBK_CTRL with GO, or a run that the Felvik controller or the host starts (R480, R481). -/
  | loopbackRun (by_ : LoopStart) (ctrl : Word)
  /-- LOOPBACK_END: the loopback run ends (R480). -/
  | loopbackEnd (errors : Nat)
  /-- TIME_STAMP_PULSE: a rising edge of TS_IN and the ns for which it stays high (R524, R525). -/
  | timeStampPulse (high : Nat)
  /-- TIME_STAMP_HOLDOVER: expected edges are missing (R525). -/
  | timeStampHoldover
  /-- FIRMWARE_UPDATE: a write of SEC_FW_CMD with OP 1 and GO and the update's first round, or its next round (R492, R493). -/
  | firmwareUpdate (f : FnId) (x : UpdateFacts)
  /-- ROLL_FORWARD: a write of SEC_FW_CMD with OP 3 and GO (R491). -/
  | rollForward (f : FnId)
  /-- DOE_DISCOVERY: a DOE Discovery request, or any other data object as it arrives (R496). -/
  | doeDiscovery (x : DoeObject)
  /-- GET_IDENTITY: DOE GET_IDENTITY (R496). -/
  | getIdentity
  /-- GET_MEAS: DOE GET_MEAS (R496). -/
  | getMeas
  /-- QUOTE: DOE QUOTE (R497). -/
  | quote (nonce : BitVec 256) (session : Bool)
  /-- KEY_EXCH: DOE KEY_EXCH (R499). -/
  | keyExch (ct : List Byte)
  /-- IDE_KM: DOE IDE_KM (R499). -/
  | ideKm (iv : Nat) (msg : List Byte)
  /-- GET_NONCE: DOE GET_NONCE (R503). -/
  | getNonce
  /-- SIGNED_CMD: DOE SIGNED_CMD (R503). -/
  | signedCmd (cmd : SignedCmd)
  /-- EXTEND: DOE EXTEND (R495). -/
  | extend (i : Nat) (digest : BitVec 256)
  /-- DEBUG_LEVEL_REQUEST: a write of SEC_DBG_CTRL.REQ (R502). -/
  | debugLevelRequest (f : FnId) (req : Nat)
  /-- TILE_HALT: a write of SEC_DBG_HALT with HALT (R505). -/
  | tileHalt (f : FnId) (t : TileId)
  /-- TILE_RESUME: a write of SEC_DBG_HALT with RESUME (R505). -/
  | tileResume (f : FnId) (t : TileId)
  /-- D3HOT_ENTRY: PF0 enters D3hot (R506). -/
  | d3hotEntry
  /-- STATUS: SMBus read of STATUS (R526). -/
  | status
  /-- TRIP: SMBus read of TRIP (R526). -/
  | trip
  /-- TS_STAT: SMBus read of TS_STAT (R526). -/
  | tsStat
  /-- TS_CFG: SMBus write of TS_CFG (R526). -/
  | tsCfg (x : SmbusWrite)
  /-- RESTART: SMBus restart command (R527). -/
  | restart (x : SmbusWrite)
  /-- COUNTERS: SMBus write of the page and read of COUNTERS (R526). -/
  | counters (x : SmbusWrite)
  /-- CONSOLE: SMBus console traffic (R526). -/
  | console (x : ConsoleXfer)
  /-- BUS_MASTER_ENABLE_SET: the host, which has programmed the rest of the function's configuration space, sets Bus Master Enable (R364). -/
  | busMasterEnableSet (x : Enabling)
  /-- PERST_N_ASSERTION: PERST_N asserts (R463). -/
  | perstNAssertion
  /-- PERST_N_DEASSERTION: PERST_N deasserts (R459). -/
  | perstNDeassertion
  /-- IN48_QUALIFIED: IN48 has held for 100 ms (R523). -/
  | in48Qualified
  /-- IN12_REMOVAL: the 12 V supplies are removed (R523). -/
  | in12Removal
  /-- D3HOT_EXIT: PF0 leaves D3hot (R506). -/
  | d3hotExit
  /-- HDM_DECODER_COMMIT: the host commits the HDM decoder (R367). -/
  | hdmDecoderCommit (base size : Nat) (lock : Bool)
  /-- LINK_RATE_CHANGE: the trained width or rate changes (R361). -/
  | linkRateChange (width speed : Nat)
  /-- UNSUPPORTED_REQUEST: an unsupported request arrives (R359). -/
  | unsupportedRequest (posted : Bool)
  /-- SEAM_RETRAIN_COMPLETE: the half-width retrain ends (R409). -/
  | seamRetrainComplete (ok : Bool)
  /-- DROOP_RECOVER: a droop ends (R446). -/
  | droopRecover (island : TileId)
  /-- TAP_INSTRUCTION: the TAP chain updates its instruction registers (R482, R483). -/
  | tapInstruction (x : TapScan)
  /-- UART_CONSOLE_COMMAND: characters on RXD (R528). -/
  | uartConsoleCommand (chars : List Byte)
  deriving DecidableEq, Repr

end Sys2Proof
end

