-- ==== Sys2Proof/Decode.lean ====
section
/-! DEFINITION. The command that a word spells. The opcode table gives no row any bits: commands are events of the card, not encoded words. -/

namespace Sys2Proof

/-- The command of a word numbered as the opcode table numbers its bits: no row has bits, so no word spells a command. -/
def decodeTableWord (_nbits _w : Nat) : Option Instr := none

end Sys2Proof
end

