-- ==== Sys2Proof/Machine/Regs.lean ====
section
/-! DEFINITION. The register tables of the manual as data: every field with its bits, access code, reset value, change class and legal values (R9-R14, R510 and the tables named). Written out by a script from the tables of the spec. -/

namespace Sys2Proof.Machine

/-- Access codes (Table 0-3). -/
inductive Acc where
  | RW | RO | W1C | W1S | RWS
  deriving DecidableEq, Repr

/-- Boundaries of class D fields (R12, Table 0-4). -/
inductive Boundary where
  | endOfPass | endOfRowPeriod | refreshWindow | endOfSweep | mveDescriptor | streamRecord
  | destLeavesFree | leakTick | controlPeriod | step9
  deriving DecidableEq, Repr

/-- Units whose activity governs class S fields (R12, Table 0-4). -/
inductive Governor where
  | cc | trace | tile | group | partition | bias | ring | ev | reset | loopback | card | bdie | sec | thermal | halt
  deriving DecidableEq, Repr

/-- Change classes (Table 0-4). -/
inductive Cls where
  | L
  | D (b : Boundary)
  | S (g : Governor)
  deriving DecidableEq, Repr

/-- Which values of a field are not reserved (R6). -/
inductive Legal where
  | any
  | range (lo hi : Nat)
  | cell            -- bits [5:0] are 0
  | tile            -- an enabled tile ID
  | tiles           -- bits of enabled tile IDs only, and of tiles that the group's owner has or no other partition names
  | stacks          -- bits of stacks that no other partition names
  | hwm             -- 1-64 and above PANIC_LWM of the same register
  | depth           -- a depth of Table 17-4 for the interface of the same register
  | op13            -- 1 or 3
  | part            -- a partition that the writing function may name
  deriving DecidableEq, Repr

/-- One field of a register table. -/
structure RegField where
  lo    : Nat
  w     : Nat
  acc   : Acc
  reset : Nat
  cls   : Cls
  legal : Legal
  deriving DecidableEq, Repr

/-- Blocks and windows of BAR0 (Table 19-1). -/
inductive Blk where
  | card | host | pwr | sec | seam | chorus | msix | tile | cc | bdie
  deriving DecidableEq, Repr

/-- One row of a register table; `dims` are (stride, count) of its array dimensions. -/
structure RegRow where
  off    : Nat
  dims   : List (Nat × Nat)
  fields : List RegField
  deriving DecidableEq, Repr

/-- A field by its register's offset in its block, its lowest bit and its width. -/
structure Fld where
  off : Nat
  lo  : Nat
  w   : Nat
  deriving DecidableEq, Repr

/-- The same field of an array element `d` bytes further on. -/
def Fld.at (f : Fld) (d : Nat) : Fld := { f with off := f.off + d }

/-! ### Field names -/

/-! CC_ID (Table 3-7, R101) -/
def CC_ID_SOURCE : Fld := ⟨0x0000, 0, 10⟩
def CC_ID_STACK : Fld := ⟨0x0000, 16, 4⟩
def CC_ID_CHANNEL : Fld := ⟨0x0000, 24, 5⟩
def CC_ID_DIE : Fld := ⟨0x0000, 32, 1⟩
/-! CC_STATUS (Table 3-7, R101) -/
def CC_STATUS_PIM : Fld := ⟨0x0008, 0, 1⟩
def CC_STATUS_PASS_GROUP : Fld := ⟨0x0008, 1, 2⟩
def CC_STATUS_PANIC : Fld := ⟨0x0008, 3, 1⟩
def CC_STATUS_RETIRED : Fld := ⟨0x0008, 4, 1⟩
def CC_STATUS_SID_PD : Fld := ⟨0x0008, 5, 4⟩
def CC_STATUS_QUEUED : Fld := ⟨0x0008, 16, 9⟩
/-! CC_SCHED_CTRL (Table 3-7, R101) -/
def CC_SCHED_CTRL_MODE : Fld := ⟨0x0010, 0, 1⟩
def CC_SCHED_CTRL_PANIC_LWM : Fld := ⟨0x0010, 8, 6⟩
def CC_SCHED_CTRL_PANIC_HWM : Fld := ⟨0x0010, 16, 7⟩
def CC_SCHED_CTRL_GAP_REQS : Fld := ⟨0x0010, 24, 4⟩
def CC_SCHED_CTRL_ROWHIT_CAP : Fld := ⟨0x0010, 28, 4⟩
def CC_SCHED_CTRL_PANIC_YIELD : Fld := ⟨0x0010, 32, 8⟩
/-! CC_DEADLINE (Table 3-7, R101) -/
def CC_DEADLINE_HOST_T : Fld := ⟨0x0018, 0, 16⟩
def CC_DEADLINE_TILE_T : Fld := ⟨0x0018, 16, 16⟩
def CC_DEADLINE_MAINT_T : Fld := ⟨0x0018, 32, 16⟩
def CC_DEADLINE_BANK_T : Fld := ⟨0x0018, 48, 16⟩
/-! CC_ILV_CTRL (Table 3-7, R101) -/
def CC_ILV_CTRL_ENABLE : Fld := ⟨0x0020, 0, 1⟩
def CC_ILV_CTRL_MODE : Fld := ⟨0x0020, 1, 1⟩
def CC_ILV_CTRL_MASK_BAD : Fld := ⟨0x0020, 2, 1⟩
/-! CC_BANK_MASK (Table 3-7, R101) -/
def CC_BANK_MASK_MASK : Fld := ⟨0x0028, 0, 40⟩
/-! CC_RD_CTRL (Table 3-7, R101) -/
def CC_RD_CTRL_THRESHOLD : Fld := ⟨0x0050, 0, 16⟩
def CC_RD_CTRL_ESCALATE : Fld := ⟨0x0050, 16, 16⟩
/-! CC_PD_CTRL (Table 3-7, R101) -/
def CC_PD_CTRL_PD_TIMER : Fld := ⟨0x0058, 0, 16⟩
/-! CC_SCRUB_CTRL (Table 3-7, R101) -/
def CC_SCRUB_CTRL_ENABLE : Fld := ⟨0x0060, 0, 1⟩
def CC_SCRUB_CTRL_PERIOD_H : Fld := ⟨0x0060, 8, 16⟩
/-! CC_ECC_CNT (Table 3-7, R101) -/
def CC_ECC_CNT_CORRECTED : Fld := ⟨0x0068, 0, 32⟩
def CC_ECC_CNT_UNCORRECTED : Fld := ⟨0x0068, 32, 32⟩
/-! CC_ECC_LOG (Table 3-7, R101) -/
def CC_ECC_LOG_DPA : Fld := ⟨0x0070, 0, 41⟩
def CC_ECC_LOG_VALID : Fld := ⟨0x0070, 63, 1⟩
/-! CC_ERR_FLAGS (Table 3-7, R101) -/
def CC_ERR_FLAGS_CHG_REJ : Fld := ⟨0x0078, 0, 1⟩
def CC_ERR_FLAGS_RD_ESC : Fld := ⟨0x0078, 1, 1⟩
def CC_ERR_FLAGS_UNMAPPED : Fld := ⟨0x0078, 2, 1⟩
/-! B_NEWT_STAT (Table 4-9, R136) -/
def B_NEWT_STAT_INVALID : Fld := ⟨0x2000, 0, 1⟩
def B_NEWT_STAT_OVERFLOW : Fld := ⟨0x2000, 1, 1⟩
def B_NEWT_STAT_POISON : Fld := ⟨0x2000, 2, 1⟩
def B_NEWT_STAT_SEQ_ERR : Fld := ⟨0x2000, 3, 1⟩
def B_NEWT_STAT_MASK_HIT : Fld := ⟨0x2000, 4, 1⟩
def B_NEWT_STAT_POISON_COLS : Fld := ⟨0x2000, 16, 32⟩
/-! B_NEWT_ROWS (Table 4-9, R136) -/
def B_NEWT_ROWS_COUNT : Fld := ⟨0x2100, 0, 48⟩
/-! B_NEWT_COLS (Table 4-9, R136) -/
def B_NEWT_COLS_COUNT : Fld := ⟨0x2108, 0, 48⟩
/-! B_NEWT_ENGCOLS (Table 4-9, R136) -/
def B_NEWT_ENGCOLS_COUNT : Fld := ⟨0x2110, 0, 48⟩
/-! CC_BSEQ_CTRL (Table 5-11, R168) -/
def CC_BSEQ_CTRL_SPLIT_MIN : Fld := ⟨0x0100, 0, 6⟩
def CC_BSEQ_CTRL_OPND_AHEAD : Fld := ⟨0x0100, 8, 2⟩
def CC_BSEQ_CTRL_PANIC_EV : Fld := ⟨0x0100, 16, 16⟩
/-! CC_BSEQ_STATUS (Table 5-11, R168) -/
def CC_BSEQ_STATUS_STATE : Fld := ⟨0x0108, 0, 3⟩
def CC_BSEQ_STATUS_CMDBUF : Fld := ⟨0x0108, 8, 7⟩
def CC_BSEQ_STATUS_PQUEUE : Fld := ⟨0x0108, 16, 4⟩
def CC_BSEQ_STATUS_TAG : Fld := ⟨0x0108, 32, 16⟩
/-! CC_BSEQ_REFSLOT (Table 5-11, R168) -/
def CC_BSEQ_REFSLOT_TSC : Fld := ⟨0x0110, 0, 64⟩
/-! CC_BSEQ_PASSES (Table 5-11, R168) -/
def CC_BSEQ_PASSES_COUNT : Fld := ⟨0x0118, 0, 48⟩
/-! CC_BSEQ_BUBBLE (Table 5-11, R168) -/
def CC_BSEQ_BUBBLE_COUNT : Fld := ⟨0x0120, 0, 48⟩
/-! CC_BSEQ_PANIC (Table 5-11, R168) -/
def CC_BSEQ_PANIC_NS : Fld := ⟨0x0128, 0, 48⟩
/-! CC_BSEQ_SPLITS (Table 5-11, R168) -/
def CC_BSEQ_SPLITS_COUNT : Fld := ⟨0x0130, 0, 48⟩
/-! CC_BSEQ_REJ (Table 5-11, R168) -/
def CC_BSEQ_REJ_TAG : Fld := ⟨0x0138, 0, 16⟩
def CC_BSEQ_REJ_REASON : Fld := ⟨0x0138, 16, 4⟩
def CC_BSEQ_REJ_VALID : Fld := ⟨0x0138, 63, 1⟩
/-! B_MERGE_CTRL (Table 5-12, R168) -/
def B_MERGE_CTRL_TIMEOUT : Fld := ⟨0x3000, 0, 16⟩
/-! B_MERGE_STAT (Table 5-12, R168) -/
def B_MERGE_STAT_BUSY : Fld := ⟨0x3008, 0, 16⟩
def B_MERGE_STAT_DRAINBUF : Fld := ⟨0x3008, 16, 32⟩
/-! B_MERGE_DEST (Table 5-12, R168) -/
def B_MERGE_DEST_STATE : Fld := ⟨0x3010, 0, 2⟩
def B_MERGE_DEST_MOP : Fld := ⟨0x3010, 2, 2⟩
def B_MERGE_DEST_ARRIVED : Fld := ⟨0x3010, 4, 6⟩
def B_MERGE_DEST_EXPECTED : Fld := ⟨0x3010, 10, 6⟩
def B_MERGE_DEST_TAG : Fld := ⟨0x3010, 16, 16⟩
def B_MERGE_DEST_USES : Fld := ⟨0x3010, 32, 2⟩
/-! B_MERGE_RESULTS (Table 5-12, R168) -/
def B_MERGE_RESULTS_COUNT : Fld := ⟨0x3090, 0, 48⟩
/-! TILE_ID (Table 7-8, R228) -/
def TILE_ID_ID : Fld := ⟨0x0000, 0, 9⟩
def TILE_ID_ENABLED : Fld := ⟨0x0000, 16, 1⟩
/-! TILE_STATUS (Table 7-8, R228) -/
def TILE_STATUS_IN_RESET : Fld := ⟨0x0008, 0, 1⟩
def TILE_STATUS_BUSY : Fld := ⟨0x0008, 1, 5⟩
def TILE_STATUS_CLKDIV : Fld := ⟨0x0008, 8, 4⟩
/-! TILE_FE_STAT (Table 7-8, R228) -/
def TILE_FE_STAT_OVERRUN : Fld := ⟨0x0010, 0, 1⟩
def TILE_FE_STAT_OVR_CELL : Fld := ⟨0x0010, 16, 16⟩
def TILE_FE_STAT_FULL_CNT : Fld := ⟨0x0010, 32, 16⟩
/-! TILE_RC_CTRL (Table 7-8, R228) -/
def TILE_RC_CTRL_ENABLE : Fld := ⟨0x0018, 0, 1⟩
/-! TILE_PF_CTRL (Table 7-8, R228) -/
def TILE_PF_CTRL_ENABLE : Fld := ⟨0x0020, 0, 1⟩
def TILE_PF_CTRL_DEPTH : Fld := ⟨0x0020, 8, 7⟩
/-! TILE_ERR_FLAGS (Table 7-8, R228) -/
def TILE_ERR_FLAGS_CHG_REJ : Fld := ⟨0x0028, 0, 1⟩
def TILE_ERR_FLAGS_NOC_ERR : Fld := ⟨0x0028, 1, 1⟩
/-! TILE_NOC_ERRLOG (Table 7-8, R228) -/
def TILE_NOC_ERRLOG_DEST : Fld := ⟨0x0030, 0, 9⟩
def TILE_NOC_ERRLOG_PLANE : Fld := ⟨0x0030, 9, 3⟩
def TILE_NOC_ERRLOG_ENGINE : Fld := ⟨0x0030, 12, 4⟩
def TILE_NOC_ERRLOG_VALID : Fld := ⟨0x0030, 63, 1⟩
/-! TILE_STALL (Table 7-8, R228) -/
def TILE_STALL_COUNT : Fld := ⟨0x0100, 0, 48⟩
/-! TILE_PFM (Table 7-8, R228) -/
def TILE_PFM_COUNT : Fld := ⟨0x0400, 0, 48⟩
/-! TILE_PFS (Table 7-8, R228) -/
def TILE_PFS_COUNT : Fld := ⟨0x0440, 0, 48⟩
/-! TILE_RC_HITS (Table 7-8, R228) -/
def TILE_RC_HITS_COUNT : Fld := ⟨0x0480, 0, 48⟩
/-! TILE_RC_MISSES (Table 7-8, R228) -/
def TILE_RC_MISSES_COUNT : Fld := ⟨0x0488, 0, 48⟩
/-! TILE_ACQUIRES (Table 7-8, R228) -/
def TILE_ACQUIRES_COUNT : Fld := ⟨0x0490, 0, 48⟩
/-! CC_TRACE_CTRL (Table 7-9, R228) -/
def CC_TRACE_CTRL_ENABLE : Fld := ⟨0x0200, 0, 1⟩
def CC_TRACE_CTRL_WRAP : Fld := ⟨0x0200, 1, 1⟩
def CC_TRACE_CTRL_TAGMATCH : Fld := ⟨0x0200, 2, 1⟩
def CC_TRACE_CTRL_TILE : Fld := ⟨0x0200, 8, 9⟩
def CC_TRACE_CTRL_TAG : Fld := ⟨0x0200, 32, 16⟩
/-! CC_TRACE_BASE (Table 7-9, R228) -/
def CC_TRACE_BASE_OFFSET : Fld := ⟨0x0208, 0, 22⟩
def CC_TRACE_BASE_SIZE : Fld := ⟨0x0208, 32, 16⟩
/-! CC_TRACE_STATUS (Table 7-9, R228) -/
def CC_TRACE_STATUS_NEXT : Fld := ⟨0x0210, 0, 16⟩
def CC_TRACE_STATUS_SUB : Fld := ⟨0x0210, 16, 2⟩
def CC_TRACE_STATUS_FULL : Fld := ⟨0x0210, 63, 1⟩
/-! CC_TRACE_DROP (Table 7-9, R228) -/
def CC_TRACE_DROP_COUNT : Fld := ⟨0x0218, 0, 48⟩
/-! TILE_SF_CTRL (Table 8-10, R265) -/
def TILE_SF_CTRL_ENABLE : Fld := ⟨0x0800, 0, 1⟩
def TILE_SF_CTRL_SPEC : Fld := ⟨0x0800, 1, 1⟩
def TILE_SF_CTRL_DEPTH : Fld := ⟨0x0800, 8, 7⟩
/-! TILE_SF_STATUS (Table 8-10, R265) -/
def TILE_SF_STATUS_LINES : Fld := ⟨0x0808, 0, 11⟩
def TILE_SF_STATUS_RECORDS : Fld := ⟨0x0808, 16, 4⟩
def TILE_SF_STATUS_OFFSET : Fld := ⟨0x0808, 32, 32⟩
/-! TILE_QSTATUS (Table 8-10, R265) -/
def TILE_QSTATUS_Q0 : Fld := ⟨0x0810, 0, 10⟩
def TILE_QSTATUS_Q1 : Fld := ⟨0x0810, 16, 10⟩
def TILE_QSTATUS_Q2 : Fld := ⟨0x0810, 32, 10⟩
def TILE_QSTATUS_Q3 : Fld := ⟨0x0810, 48, 10⟩
/-! TILE_HAZ_CTRL (Table 8-10, R265) -/
def TILE_HAZ_CTRL_ENABLE : Fld := ⟨0x0818, 0, 4⟩
/-! TILE_IMEM_CTRL (Table 8-10, R265) -/
def TILE_IMEM_CTRL_HOLD_LIMIT : Fld := ⟨0x0820, 0, 16⟩
/-! TILE_IMEM_USE (Table 8-10, R265) -/
def TILE_IMEM_USE_INUSE : Fld := ⟨0x0828, 0, 64⟩
/-! TILE_IMEM_HOLD (Table 8-10, R265) -/
def TILE_IMEM_HOLD_PAGE : Fld := ⟨0x0830, 0, 6⟩
def TILE_IMEM_HOLD_HELD : Fld := ⟨0x0830, 8, 1⟩
def TILE_IMEM_HOLD_COUNT : Fld := ⟨0x0830, 16, 16⟩
def TILE_IMEM_HOLD_US : Fld := ⟨0x0830, 32, 32⟩
/-! TILE_FAULT (Table 8-10, R265) -/
def TILE_FAULT_CAUSE : Fld := ⟨0x0838, 0, 8⟩
def TILE_FAULT_ENGINE : Fld := ⟨0x0838, 8, 3⟩
def TILE_FAULT_DEPTH : Fld := ⟨0x0838, 11, 2⟩
def TILE_FAULT_VALID : Fld := ⟨0x0838, 63, 1⟩
/-! TILE_FAULT_LOC (Table 8-10, R265) -/
def TILE_FAULT_LOC_STREAM_OFF : Fld := ⟨0x0840, 0, 32⟩
def TILE_FAULT_LOC_PC : Fld := ⟨0x0840, 32, 18⟩
/-! TILE_FAULT_STREAM (Table 8-10, R265) -/
def TILE_FAULT_STREAM_ID : Fld := ⟨0x0848, 0, 64⟩
/-! TILE_BUNDLES (Table 8-10, R265) -/
def TILE_BUNDLES_COUNT : Fld := ⟨0x0850, 0, 48⟩
/-! TILE_OPS (Table 8-10, R265) -/
def TILE_OPS_COUNT : Fld := ⟨0x0858, 0, 48⟩
/-! TILE_PC (Table 8-10, R265) -/
def TILE_PC_ADDR : Fld := ⟨0x0878, 0, 18⟩
def TILE_PC_DEPTH : Fld := ⟨0x0878, 20, 2⟩
def TILE_PC_LOOPS : Fld := ⟨0x0878, 24, 4⟩
/-! MXE_STATUS (Table 9-10, R288) -/
def MXE_STATUS_INVALID : Fld := ⟨0x0900, 0, 1⟩
def MXE_STATUS_OVERFLOW : Fld := ⟨0x0900, 1, 1⟩
def MXE_STATUS_POISON : Fld := ⟨0x0900, 2, 1⟩
def MXE_STATUS_ARRAY_BUSY : Fld := ⟨0x0900, 3, 1⟩
def MXE_STATUS_STORE_BUSY : Fld := ⟨0x0900, 4, 1⟩
def MXE_STATUS_AQ : Fld := ⟨0x0900, 8, 4⟩
def MXE_STATUS_SQ : Fld := ⟨0x0900, 12, 2⟩
/-! MXE_DUTY (Table 9-10, R288) -/
def MXE_DUTY_DUTY : Fld := ⟨0x0908, 0, 5⟩
/-! MXE_ARRAY_CYC (Table 9-10, R288) -/
def MXE_ARRAY_CYC_COUNT : Fld := ⟨0x0910, 0, 48⟩
/-! MXE_MACS (Table 9-10, R288) -/
def MXE_MACS_COUNT : Fld := ⟨0x0918, 0, 48⟩
/-! MXE_STORE_CELLS (Table 9-10, R288) -/
def MXE_STORE_CELLS_COUNT : Fld := ⟨0x0920, 0, 48⟩
/-! VXE_STATUS (Table 10-6, R306) -/
def VXE_STATUS_INVALID : Fld := ⟨0x0A00, 0, 1⟩
def VXE_STATUS_OVERFLOW : Fld := ⟨0x0A00, 1, 1⟩
def VXE_STATUS_POISON : Fld := ⟨0x0A00, 2, 1⟩
def VXE_STATUS_BUSY : Fld := ⟨0x0A00, 3, 1⟩
def VXE_STATUS_WQ : Fld := ⟨0x0A00, 8, 3⟩
/-! VXE_POSITIONS (Table 10-6, R306) -/
def VXE_POSITIONS_COUNT : Fld := ⟨0x0A08, 0, 48⟩
/-! VXE_TREES (Table 10-6, R306) -/
def VXE_TREES_COUNT : Fld := ⟨0x0A10, 0, 48⟩
/-! MVE_STATUS (Table 11-5, R336) -/
def MVE_STATUS_POISON : Fld := ⟨0x0B00, 0, 1⟩
def MVE_STATUS_RDERR : Fld := ⟨0x0B00, 1, 1⟩
def MVE_STATUS_WRERR : Fld := ⟨0x0B00, 2, 1⟩
def MVE_STATUS_OOBW : Fld := ⟨0x0B00, 3, 1⟩
def MVE_STATUS_BUSY : Fld := ⟨0x0B00, 4, 1⟩
def MVE_STATUS_MQ : Fld := ⟨0x0B00, 8, 3⟩
/-! MVE_DVALID (Table 11-5, R336) -/
def MVE_DVALID_VALID : Fld := ⟨0x0B08, 0, 32⟩
/-! MVE_DSTAT (Table 11-5, R336) -/
def MVE_DSTAT_ENTRY : Fld := ⟨0x0B10, 0, 5⟩
def MVE_DSTAT_REASON : Fld := ⟨0x0B10, 8, 4⟩
def MVE_DSTAT_VALID : Fld := ⟨0x0B10, 63, 1⟩
/-! MVE_RD_CELLS (Table 11-5, R336) -/
def MVE_RD_CELLS_COUNT : Fld := ⟨0x0B18, 0, 48⟩
/-! MVE_WR_CELLS (Table 11-5, R336) -/
def MVE_WR_CELLS_COUNT : Fld := ⟨0x0B20, 0, 48⟩
/-! MVE_FILLS (Table 11-5, R336) -/
def MVE_FILLS_COUNT : Fld := ⟨0x0B28, 0, 48⟩
/-! MVE_DROPS (Table 11-5, R336) -/
def MVE_DROPS_COUNT : Fld := ⟨0x0B30, 0, 48⟩
/-! MVE_ERR_CELLS (Table 11-5, R336) -/
def MVE_ERR_CELLS_COUNT : Fld := ⟨0x0B38, 0, 48⟩
/-! MVE_MISALIGNED (Table 11-5, R336) -/
def MVE_MISALIGNED_COUNT : Fld := ⟨0x0B40, 0, 48⟩
/-! MVE_MOVES (Table 11-5, R336) -/
def MVE_MOVES_COUNT : Fld := ⟨0x0B48, 0, 48⟩
/-! TILE_SEM (Table 12-5, R357) -/
def TILE_SEM_COUNT : Fld := ⟨0x0C00, 0, 8⟩
/-! TILE_SEM_OVF (Table 12-5, R357) -/
def TILE_SEM_OVF_OVF : Fld := ⟨0x0D00, 0, 32⟩
/-! TILE_SC_PC (Table 12-5, R357) -/
def TILE_SC_PC_P : Fld := ⟨0x0E00, 0, 32⟩
def TILE_SC_PC_C : Fld := ⟨0x0E00, 32, 32⟩
/-! TILE_SC_N (Table 12-5, R357) -/
def TILE_SC_N_N : Fld := ⟨0x0E08, 0, 32⟩
/-! TILE_CHORUS_ENG (Table 12-5, R357) -/
def TILE_CHORUS_ENG_ENG : Fld := ⟨0x0F00, 0, 32⟩
/-! TILE_CHORUS_STAT (Table 12-5, R357) -/
def TILE_CHORUS_STAT_PEND : Fld := ⟨0x0F08, 0, 8⟩
/-! TILE_DLD_CTRL (Table 12-5, R357) -/
def TILE_DLD_CTRL_ENABLE : Fld := ⟨0x0F10, 0, 1⟩
def TILE_DLD_CTRL_ACTION : Fld := ⟨0x0F10, 1, 1⟩
def TILE_DLD_CTRL_LOG2 : Fld := ⟨0x0F10, 8, 5⟩
/-! TILE_DLD_STAT (Table 12-5, R357) -/
def TILE_DLD_STAT_FIRED : Fld := ⟨0x0F18, 0, 1⟩
def TILE_DLD_STAT_COUNT : Fld := ⟨0x0F18, 16, 48⟩
/-! TILE_DLD_SNAP (Table 12-5, R357) -/
def TILE_DLD_SNAP_CAUSE : Fld := ⟨0x0F20, 0, 4⟩
def TILE_DLD_SNAP_OBJ : Fld := ⟨0x0F20, 16, 16⟩
def TILE_DLD_SNAP_ARG : Fld := ⟨0x0F20, 32, 32⟩
/-! TILE_DLD_TSC (Table 12-5, R357) -/
def TILE_DLD_TSC_TSC : Fld := ⟨0x0F40, 0, 64⟩
/-! TILE_DLD_SEM (Table 12-5, R357) -/
def TILE_DLD_SEM_COUNTS : Fld := ⟨0x0F48, 0, 64⟩
/-! CHORUS_PART (Table 12-6, R357) -/
def CHORUS_PART_TILES : Fld := ⟨0x0000, 0, 64⟩
/-! CHORUS_CTRL (Table 12-6, R357) -/
def CHORUS_CTRL_OWNER : Fld := ⟨0x0200, 0, 4⟩
def CHORUS_CTRL_GEN : Fld := ⟨0x0200, 8, 1⟩
def CHORUS_CTRL_BROKEN : Fld := ⟨0x0200, 9, 1⟩
def CHORUS_CTRL_PHASES : Fld := ⟨0x0200, 16, 48⟩
/-! HOST_LINK_STAT (Table 13-8, R379) -/
def HOST_LINK_STAT_WIDTH : Fld := ⟨0x0000, 0, 5⟩
def HOST_LINK_STAT_SPEED : Fld := ⟨0x0000, 8, 3⟩
def HOST_LINK_STAT_FLIT : Fld := ⟨0x0000, 12, 1⟩
def HOST_LINK_STAT_CXL : Fld := ⟨0x0000, 13, 1⟩
def HOST_LINK_STAT_DEGRADED : Fld := ⟨0x0000, 14, 1⟩
def HOST_LINK_STAT_DL_UP : Fld := ⟨0x0000, 15, 1⟩
/-! HOST_LINK_DOWNS (Table 13-8, R379) -/
def HOST_LINK_DOWNS_COUNT : Fld := ⟨0x0008, 0, 32⟩
/-! HOST_TAG_STAT (Table 13-8, R379) -/
def HOST_TAG_STAT_TAGS : Fld := ⟨0x0010, 0, 14⟩
def HOST_TAG_STAT_UNITS : Fld := ⟨0x0010, 16, 14⟩
/-! HOST_ERR_FLAGS (Table 13-8, R379) -/
def HOST_ERR_FLAGS_CHG_REJ : Fld := ⟨0x0018, 0, 1⟩
def HOST_ERR_FLAGS_CPL_ERR : Fld := ⟨0x0018, 1, 1⟩
def HOST_ERR_FLAGS_IDE_FAIL : Fld := ⟨0x0018, 2, 1⟩
/-! HOST_BAR4_MAP (Table 13-8, R379) -/
def HOST_BAR4_MAP_BASE : Fld := ⟨0x0020, 30, 10⟩
/-! HOST_PART_STACKS (Table 13-8, R379) -/
def HOST_PART_STACKS_STACKS : Fld := ⟨0x0070, 0, 12⟩
/-! HOST_PART_TILES (Table 13-8, R379) -/
def HOST_PART_TILES_TILES : Fld := ⟨0x0100, 0, 64⟩
/-! HOST_BIAS_CMD (Table 13-8, R379) -/
def HOST_BIAS_CMD_REGION : Fld := ⟨0x0300, 0, 16⟩
def HOST_BIAS_CMD_TARGET : Fld := ⟨0x0300, 16, 1⟩
def HOST_BIAS_CMD_GO : Fld := ⟨0x0300, 63, 1⟩
/-! HOST_BIAS_STAT (Table 13-8, R379) -/
def HOST_BIAS_STAT_BUSY : Fld := ⟨0x0308, 0, 1⟩
def HOST_BIAS_STAT_DONE : Fld := ⟨0x0308, 1, 1⟩
def HOST_BIAS_STAT_REFUSED : Fld := ⟨0x0308, 2, 1⟩
def HOST_BIAS_STAT_SHARED : Fld := ⟨0x0308, 16, 16⟩
/-! HOST_DIR_STAT (Table 13-8, R379) -/
def HOST_DIR_STAT_ENTRIES : Fld := ⟨0x0310, 0, 20⟩
def HOST_DIR_STAT_BISNP : Fld := ⟨0x0310, 20, 9⟩
/-! HOST_BISNP_CNT (Table 13-8, R379) -/
def HOST_BISNP_CNT_COUNT : Fld := ⟨0x0318, 0, 48⟩
/-! HOST_BIAS_MAP (Table 13-8, R379) -/
def HOST_BIAS_MAP_SHARED : Fld := ⟨0x1000, 0, 64⟩
/-! RING_SQ_BASE (Table 14-7, R402) -/
def RING_SQ_BASE_ADDR : Fld := ⟨0x4000, 12, 52⟩
/-! RING_CQ_BASE (Table 14-7, R402) -/
def RING_CQ_BASE_ADDR : Fld := ⟨0x4008, 12, 52⟩
/-! RING_CFG (Table 14-7, R402) -/
def RING_CFG_LOG2SIZE : Fld := ⟨0x4010, 0, 4⟩
def RING_CFG_OWNER : Fld := ⟨0x4010, 8, 4⟩
def RING_CFG_STOP_ON_ERR : Fld := ⟨0x4010, 12, 1⟩
def RING_CFG_IRQ_ALL : Fld := ⟨0x4010, 13, 1⟩
/-! RING_SEQ0 (Table 14-7, R402) -/
def RING_SEQ0_SEQ0 : Fld := ⟨0x4018, 0, 32⟩
/-! RING_CMD (Table 14-7, R402) -/
def RING_CMD_START : Fld := ⟨0x4020, 0, 1⟩
def RING_CMD_RESUME : Fld := ⟨0x4020, 1, 1⟩
def RING_CMD_RESET : Fld := ⟨0x4020, 2, 1⟩
def RING_CMD_HALT : Fld := ⟨0x4020, 3, 1⟩
/-! RING_STAT (Table 14-7, R402) -/
def RING_STAT_STATE : Fld := ⟨0x4028, 0, 2⟩
def RING_STAT_CAUSE : Fld := ⟨0x4028, 4, 3⟩
def RING_STAT_HEAD : Fld := ⟨0x4028, 8, 16⟩
def RING_STAT_TAIL : Fld := ⟨0x4028, 24, 16⟩
def RING_STAT_INFLIGHT : Fld := ⟨0x4028, 40, 7⟩
def RING_STAT_LOST : Fld := ⟨0x4028, 48, 1⟩
/-! RING_SEQ (Table 14-7, R402) -/
def RING_SEQ_NEXT : Fld := ⟨0x4030, 0, 32⟩
def RING_SEQ_DONE : Fld := ⟨0x4030, 32, 32⟩
/-! RING_CNT (Table 14-7, R402) -/
def RING_CNT_COUNT : Fld := ⟨0x4038, 0, 48⟩
/-! RING_DB_IGN (Table 14-7, R402) -/
def RING_DB_IGN_COUNT : Fld := ⟨0x5000, 0, 48⟩
/-! RING_REREADS (Table 14-7, R402) -/
def RING_REREADS_COUNT : Fld := ⟨0x5008, 0, 48⟩
/-! RING_ENG_STAT (Table 14-7, R402) -/
def RING_ENG_STAT_INFLIGHT : Fld := ⟨0x5010, 0, 11⟩
/-! RING_ERR_FLAGS (Table 14-7, R402) -/
def RING_ERR_FLAGS_CHG_REJ : Fld := ⟨0x5018, 0, 1⟩
def RING_ERR_FLAGS_DB_BAD : Fld := ⟨0x5018, 1, 1⟩
/-! EVT_BASE (Table 14-7, R402) -/
def EVT_BASE_ADDR : Fld := ⟨0x5100, 12, 52⟩
/-! EVT_CFG (Table 14-7, R402) -/
def EVT_CFG_LOG2SIZE : Fld := ⟨0x5108, 0, 5⟩
def EVT_CFG_ENABLE : Fld := ⟨0x5108, 8, 1⟩
/-! EVT_STAT (Table 14-7, R402) -/
def EVT_STAT_HEAD : Fld := ⟨0x5110, 0, 16⟩
def EVT_STAT_TAIL : Fld := ⟨0x5110, 16, 16⟩
def EVT_STAT_FULL : Fld := ⟨0x5110, 32, 1⟩
/-! FLT_CTRL (Table 15-8, R431) -/
def FLT_CTRL_CUT_WAIT : Fld := ⟨0x6000, 0, 16⟩
def FLT_CTRL_COAL_WIN : Fld := ⟨0x6000, 16, 16⟩
/-! FLT_BKT_CTRL (Table 15-8, R431) -/
def FLT_BKT_CTRL_TH : Fld := ⟨0x6008, 0, 16⟩
def FLT_BKT_CTRL_LEAK_US : Fld := ⟨0x6008, 16, 16⟩
def FLT_BKT_CTRL_W_CE : Fld := ⟨0x6008, 32, 8⟩
def FLT_BKT_CTRL_W_RP : Fld := ⟨0x6008, 40, 8⟩
def FLT_BKT_CTRL_W_UE : Fld := ⟨0x6008, 48, 16⟩
/-! FLT_BKT_SEAM (Table 15-8, R431) -/
def FLT_BKT_SEAM_LEVEL : Fld := ⟨0x6010, 0, 16⟩
def FLT_BKT_SEAM_PERM : Fld := ⟨0x6010, 16, 1⟩
def FLT_BKT_SEAM_HALF : Fld := ⟨0x6010, 17, 1⟩
/-! FLT_BKT_HOST (Table 15-8, R431) -/
def FLT_BKT_HOST_LEVEL : Fld := ⟨0x6018, 0, 16⟩
def FLT_BKT_HOST_PERM : Fld := ⟨0x6018, 16, 1⟩
/-! FLT_MOLT_CMD (Table 15-8, R431) -/
def FLT_MOLT_CMD_CHANNEL : Fld := ⟨0x6020, 0, 9⟩
def FLT_MOLT_CMD_GO : Fld := ⟨0x6020, 63, 1⟩
/-! FLT_MOLT_STAT (Table 15-8, R431) -/
def FLT_MOLT_STAT_ACTIVE : Fld := ⟨0x6028, 0, 9⟩
def FLT_MOLT_STAT_BUSY : Fld := ⟨0x6028, 12, 1⟩
def FLT_MOLT_STAT_REFUSED : Fld := ⟨0x6028, 13, 1⟩
def FLT_MOLT_STAT_HELD : Fld := ⟨0x6028, 14, 1⟩
def FLT_MOLT_STAT_QUEUED : Fld := ⟨0x6028, 16, 9⟩
def FLT_MOLT_STAT_RETIRED : Fld := ⟨0x6028, 32, 10⟩
/-! FLT_RST_CMD (Table 15-8, R431) -/
def FLT_RST_CMD_TILE : Fld := ⟨0x6030, 0, 9⟩
def FLT_RST_CMD_PART : Fld := ⟨0x6030, 16, 4⟩
def FLT_RST_CMD_TILE_GO : Fld := ⟨0x6030, 32, 1⟩
def FLT_RST_CMD_PART_GO : Fld := ⟨0x6030, 33, 1⟩
/-! FLT_RST_STAT (Table 15-8, R431) -/
def FLT_RST_STAT_BUSY : Fld := ⟨0x6038, 0, 1⟩
def FLT_RST_STAT_DONE : Fld := ⟨0x6038, 1, 1⟩
/-! FLT_CUT_STAT (Table 15-8, R431) -/
def FLT_CUT_STAT_LAST : Fld := ⟨0x6040, 0, 32⟩
def FLT_CUT_STAT_PENDING : Fld := ⟨0x6040, 32, 1⟩
/-! FLT_CARD (Table 15-8, R431) -/
def FLT_CARD_CARD_FAULT : Fld := ⟨0x6048, 0, 1⟩
/-! FLT_RET_ACC (Table 15-8, R431) -/
def FLT_RET_ACC_COUNT : Fld := ⟨0x6050, 0, 48⟩
/-! FLT_SRAM_CNT (Table 15-8, R431) -/
def FLT_SRAM_CNT_CORRECTED : Fld := ⟨0x6058, 0, 32⟩
def FLT_SRAM_CNT_UNCORRECTED : Fld := ⟨0x6058, 32, 32⟩
/-! CC_BKT (Table 15-8, R431) -/
def CC_BKT_LEVEL : Fld := ⟨0x0300, 0, 16⟩
def CC_BKT_PERM : Fld := ⟨0x0300, 16, 1⟩
/-! PWR_CTRL (Table 16-6, R456) -/
def PWR_CTRL_LIMIT_W : Fld := ⟨0x0000, 0, 16⟩
def PWR_CTRL_GUARD_W : Fld := ⟨0x0000, 16, 8⟩
def PWR_CTRL_PRIO : Fld := ⟨0x0000, 24, 2⟩
def PWR_CTRL_CMAX : Fld := ⟨0x0000, 28, 3⟩
def PWR_CTRL_SMAX : Fld := ⟨0x0000, 32, 3⟩
def PWR_CTRL_UP_MARGIN_W : Fld := ⟨0x0000, 40, 8⟩
def PWR_CTRL_UP_PERIODS : Fld := ⟨0x0000, 48, 8⟩
/-! PWR_BRAKE (Table 16-6, R456) -/
def PWR_BRAKE_LIMIT_W : Fld := ⟨0x0008, 0, 16⟩
def PWR_BRAKE_CLV : Fld := ⟨0x0008, 16, 3⟩
def PWR_BRAKE_SLV : Fld := ⟨0x0008, 20, 3⟩
def PWR_BRAKE_SW : Fld := ⟨0x0008, 32, 1⟩
def PWR_BRAKE_PIN : Fld := ⟨0x0008, 33, 1⟩
def PWR_BRAKE_ACTIVE : Fld := ⟨0x0008, 34, 1⟩
/-! PWR_STATUS (Table 16-6, R456) -/
def PWR_STATUS_CBUD : Fld := ⟨0x0010, 0, 3⟩
def PWR_STATUS_SBUD : Fld := ⟨0x0010, 4, 3⟩
def PWR_STATUS_CEFF0 : Fld := ⟨0x0010, 8, 3⟩
def PWR_STATUS_CEFF1 : Fld := ⟨0x0010, 12, 3⟩
def PWR_STATUS_ACTIVE_LIM : Fld := ⟨0x0010, 16, 4⟩
def PWR_STATUS_ACTIVE : Fld := ⟨0x0010, 20, 4⟩
def PWR_STATUS_THROTTLE : Fld := ⟨0x0010, 24, 1⟩
def PWR_STATUS_AVS_LIM : Fld := ⟨0x0010, 25, 1⟩
/-! PWR_SLEVEL (Table 16-6, R456) -/
def PWR_SLEVEL_LEVEL : Fld := ⟨0x0018, 0, 36⟩
/-! PWR_MEAS (Table 16-6, R456) -/
def PWR_MEAS_BOARD_W : Fld := ⟨0x0020, 0, 16⟩
def PWR_MEAS_CDIE_W : Fld := ⟨0x0020, 16, 16⟩
def PWR_MEAS_STACK_W : Fld := ⟨0x0020, 32, 16⟩
def PWR_MEAS_PEAK_W : Fld := ⟨0x0020, 48, 16⟩
/-! PWR_RAIL (Table 16-6, R456) -/
def PWR_RAIL_MV : Fld := ⟨0x0100, 0, 16⟩
def PWR_RAIL_DW : Fld := ⟨0x0100, 16, 16⟩
def PWR_RAIL_SAG : Fld := ⟨0x0100, 32, 1⟩
/-! PWR_FAST (Table 16-6, R456) -/
def PWR_FAST_COUNT : Fld := ⟨0x0300, 0, 48⟩
/-! PWR_TIME_C (Table 16-6, R456) -/
def PWR_TIME_C_US : Fld := ⟨0x0308, 0, 48⟩
/-! PWR_TIME_S (Table 16-6, R456) -/
def PWR_TIME_S_US : Fld := ⟨0x0310, 0, 48⟩
/-! THERM_TEMP_C (Table 16-6, R456) -/
def THERM_TEMP_C_T : Fld := ⟨0x0400, 0, 12⟩
/-! THERM_TEMP_B (Table 16-6, R456) -/
def THERM_TEMP_B_T : Fld := ⟨0x0410, 0, 12⟩
/-! THERM_MODEL (Table 16-6, R456) -/
def THERM_MODEL_T : Fld := ⟨0x0480, 0, 12⟩
def THERM_MODEL_RTH : Fld := ⟨0x0480, 32, 16⟩
def THERM_MODEL_TAU_MS : Fld := ⟨0x0480, 48, 16⟩
/-! THERM_STAT (Table 16-6, R456) -/
def THERM_STAT_STATE : Fld := ⟨0x0500, 0, 28⟩
def THERM_STAT_ALERT : Fld := ⟨0x0500, 28, 1⟩
/-! THERM_CTRL (Table 16-6, R456) -/
def THERM_CTRL_STEP_MS : Fld := ⟨0x0508, 0, 8⟩
def THERM_CTRL_AUTO_RESTART : Fld := ⟨0x0508, 8, 1⟩
def THERM_CTRL_TRIP_MAX : Fld := ⟨0x0508, 16, 4⟩
/-! THERM_TRIP (Table 16-6, R456) -/
def THERM_TRIP_SENSOR : Fld := ⟨0x0510, 0, 4⟩
def THERM_TRIP_T : Fld := ⟨0x0510, 4, 12⟩
def THERM_TRIP_COUNT : Fld := ⟨0x0510, 16, 16⟩
def THERM_TRIP_TSC_US : Fld := ⟨0x0510, 32, 31⟩
def THERM_TRIP_VALID : Fld := ⟨0x0510, 63, 1⟩
/-! SUPPLY_STAT (Table 16-6, R456) -/
def SUPPLY_STAT_LOCKOUT : Fld := ⟨0x0518, 0, 1⟩
def SUPPLY_STAT_RAIL : Fld := ⟨0x0518, 8, 6⟩
def SUPPLY_STAT_COUNT : Fld := ⟨0x0518, 16, 32⟩
/-! TILE_DROOP_CYC (Table 16-6, R456) -/
def TILE_DROOP_CYC_COUNT : Fld := ⟨0x0498, 0, 48⟩
/-! ID_CARD (Table 17-6, R484) -/
def ID_CARD_VENDOR : Fld := ⟨0x0000, 0, 16⟩
def ID_CARD_DEVICE : Fld := ⟨0x0000, 16, 16⟩
def ID_CARD_STEPPING : Fld := ⟨0x0000, 32, 8⟩
/-! ID_SERIAL (Table 17-6, R484) -/
def ID_SERIAL_SERIAL : Fld := ⟨0x0008, 0, 64⟩
/-! BRUP_STAT (Table 17-6, R484) -/
def BRUP_STAT_STEP : Fld := ⟨0x0010, 0, 4⟩
def BRUP_STAT_READY : Fld := ⟨0x0010, 4, 1⟩
def BRUP_STAT_FAILED : Fld := ⟨0x0010, 5, 1⟩
def BRUP_STAT_REASON : Fld := ⟨0x0010, 8, 4⟩
def BRUP_STAT_BOOT_TILE : Fld := ⟨0x0010, 16, 9⟩
def BRUP_STAT_DUR_US : Fld := ⟨0x0010, 32, 32⟩
/-! BRUP_CMD (Table 17-6, R484) -/
def BRUP_CMD_CARD_RESET : Fld := ⟨0x0018, 0, 1⟩
def BRUP_CMD_CFG_SAVE : Fld := ⟨0x0018, 1, 1⟩
def BRUP_CMD_KEY : Fld := ⟨0x0018, 48, 16⟩
/-! FP_GEN (Table 17-6, R484) -/
def FP_GEN_GEN : Fld := ⟨0x0020, 0, 32⟩
/-! FP_COUNTS (Table 17-6, R484) -/
def FP_COUNTS_TILES_C0 : Fld := ⟨0x0028, 0, 8⟩
def FP_COUNTS_TILES_C1 : Fld := ⟨0x0028, 8, 8⟩
def FP_COUNTS_ENG_OFF : Fld := ⟨0x0028, 16, 16⟩
def FP_COUNTS_CHAN_RET : Fld := ⟨0x0028, 32, 9⟩
/-! FP_STACKS (Table 17-6, R484) -/
def FP_STACKS_PRESENT : Fld := ⟨0x0030, 0, 12⟩
/-! FP_SEAM (Table 17-6, R484) -/
def FP_SEAM_HALF : Fld := ⟨0x0038, 0, 1⟩
/-! BRUP_LOG_STAT (Table 17-6, R484) -/
def BRUP_LOG_STAT_RECORDS : Fld := ⟨0x0040, 0, 9⟩
def BRUP_LOG_STAT_COAL : Fld := ⟨0x0040, 9, 1⟩
def BRUP_LOG_STAT_WRITTEN : Fld := ⟨0x0040, 10, 1⟩
/-! BRUP_CFG (Table 17-6, R484) -/
def BRUP_CFG_ILV_MODE : Fld := ⟨0x0048, 0, 1⟩
def BRUP_CFG_MASKS : Fld := ⟨0x0048, 1, 1⟩
def BRUP_CFG_SAVE_BUSY : Fld := ⟨0x0048, 62, 1⟩
def BRUP_CFG_SAVED : Fld := ⟨0x0048, 63, 1⟩
/-! BRUP_MASK (Table 17-6, R484) -/
def BRUP_MASK_MASK : Fld := ⟨0x0050, 0, 40⟩
/-! TEST_LPBK_CTRL (Table 17-6, R484) -/
def TEST_LPBK_CTRL_IF : Fld := ⟨0x0080, 0, 2⟩
def TEST_LPBK_CTRL_DEPTH : Fld := ⟨0x0080, 2, 2⟩
def TEST_LPBK_CTRL_CHANNEL : Fld := ⟨0x0080, 4, 9⟩
def TEST_LPBK_CTRL_CORE : Fld := ⟨0x0080, 16, 4⟩
def TEST_LPBK_CTRL_PATTERN : Fld := ⟨0x0080, 20, 2⟩
def TEST_LPBK_CTRL_BURSTS : Fld := ⟨0x0080, 24, 24⟩
def TEST_LPBK_CTRL_GO : Fld := ⟨0x0080, 63, 1⟩
/-! TEST_LPBK_STAT (Table 17-6, R484) -/
def TEST_LPBK_STAT_BUSY : Fld := ⟨0x0088, 0, 1⟩
def TEST_LPBK_STAT_DONE : Fld := ⟨0x0088, 1, 1⟩
def TEST_LPBK_STAT_REFUSED : Fld := ⟨0x0088, 2, 1⟩
def TEST_LPBK_STAT_ERRORS : Fld := ⟨0x0088, 16, 32⟩
/-! FP_TILES (Table 17-6, R484) -/
def FP_TILES_TILES : Fld := ⟨0x0100, 0, 64⟩
/-! FP_CHAN (Table 17-6, R484) -/
def FP_CHAN_RETIRED : Fld := ⟨0x0200, 0, 64⟩
/-! FP_ENGOFF (Table 17-6, R484) -/
def FP_ENGOFF_OFF : Fld := ⟨0x1000, 0, 64⟩
/-! SEC_LC (Table 18-12, R508) -/
def SEC_LC_STATE : Fld := ⟨0x0000, 0, 2⟩
def SEC_LC_IDKEY : Fld := ⟨0x0000, 2, 1⟩
/-! SEC_DBG (Table 18-12, R508) -/
def SEC_DBG_LEVEL : Fld := ⟨0x0008, 0, 2⟩
def SEC_DBG_TAINT : Fld := ⟨0x0008, 2, 1⟩
/-! SEC_DBG_CTRL (Table 18-12, R508) -/
def SEC_DBG_CTRL_REQ : Fld := ⟨0x0010, 0, 2⟩
/-! SEC_KEYS (Table 18-12, R508) -/
def SEC_KEYS_REVOKED : Fld := ⟨0x0018, 0, 4⟩
def SEC_KEYS_BOOT_SLOT : Fld := ⟨0x0018, 4, 2⟩
def SEC_KEYS_SVN : Fld := ⟨0x0018, 8, 8⟩
def SEC_KEYS_COUNTER : Fld := ⟨0x0018, 16, 8⟩
/-! SEC_FW_ADDR (Table 18-12, R508) -/
def SEC_FW_ADDR_ADDR : Fld := ⟨0x0020, 6, 58⟩
/-! SEC_FW_LEN (Table 18-12, R508) -/
def SEC_FW_LEN_LEN : Fld := ⟨0x0028, 0, 24⟩
/-! SEC_FW_CMD (Table 18-12, R508) -/
def SEC_FW_CMD_OP : Fld := ⟨0x0030, 0, 2⟩
def SEC_FW_CMD_GO : Fld := ⟨0x0030, 63, 1⟩
/-! SEC_FW_STAT (Table 18-12, R508) -/
def SEC_FW_STAT_BUSY : Fld := ⟨0x0038, 0, 1⟩
def SEC_FW_STAT_DONE : Fld := ⟨0x0038, 1, 1⟩
def SEC_FW_STAT_HELD : Fld := ⟨0x0038, 2, 1⟩
def SEC_FW_STAT_CHG_REJ : Fld := ⟨0x0038, 3, 1⟩
def SEC_FW_STAT_STATUS : Fld := ⟨0x0038, 8, 8⟩
def SEC_FW_STAT_PAGES : Fld := ⟨0x0038, 16, 20⟩
/-! SEC_RECOV (Table 18-12, R508) -/
def SEC_RECOV_ACTIVE : Fld := ⟨0x0040, 0, 1⟩
def SEC_RECOV_REASON : Fld := ⟨0x0040, 1, 3⟩
/-! SEC_DBG_HALT (Table 18-12, R508) -/
def SEC_DBG_HALT_TILE : Fld := ⟨0x0048, 0, 9⟩
def SEC_DBG_HALT_HALT : Fld := ⟨0x0048, 16, 1⟩
def SEC_DBG_HALT_RESUME : Fld := ⟨0x0048, 17, 1⟩
/-! SEC_HALTED (Table 18-12, R508) -/
def SEC_HALTED_TILES : Fld := ⟨0x0050, 0, 64⟩
/-! SEC_MEAS (Table 18-12, R508) -/
def SEC_MEAS_M : Fld := ⟨0x0100, 0, 64⟩
/-! HOST_BAR0_LOG (Table 19-3, R515) -/
def HOST_BAR0_LOG_OFFSET : Fld := ⟨0x0320, 0, 26⟩
def HOST_BAR0_LOG_KIND : Fld := ⟨0x0320, 26, 3⟩
def HOST_BAR0_LOG_FUNC : Fld := ⟨0x0320, 32, 4⟩
def HOST_BAR0_LOG_WRITE : Fld := ⟨0x0320, 36, 1⟩
def HOST_BAR0_LOG_VALID : Fld := ⟨0x0320, 63, 1⟩
/-! PWR_ERR_FLAGS (Table 19-3, R515) -/
def PWR_ERR_FLAGS_CHG_REJ : Fld := ⟨0x0318, 0, 1⟩
/-! SEAM_STAT (Table 19-3, R515) -/
def SEAM_STAT_UP : Fld := ⟨0x0000, 0, 1⟩
def SEAM_STAT_HALF : Fld := ⟨0x0000, 1, 1⟩
def SEAM_STAT_HOLD : Fld := ⟨0x0000, 2, 1⟩
/-! SEAM_ERR_CNT (Table 19-3, R515) -/
def SEAM_ERR_CNT_REPLAYS : Fld := ⟨0x0008, 0, 32⟩
def SEAM_ERR_CNT_RETRAINS : Fld := ⟨0x0008, 32, 32⟩
/-! SEAM_TRAIN_TSC (Table 19-3, R515) -/
def SEAM_TRAIN_TSC_TSC : Fld := ⟨0x0010, 0, 64⟩
/-! CHORUS_ERR_FLAGS (Table 19-3, R515) -/
def CHORUS_ERR_FLAGS_CHG_REJ : Fld := ⟨0x0300, 0, 1⟩
/-! B_ID (Table 19-3, R515) -/
def B_ID_STACK : Fld := ⟨0x0000, 0, 4⟩
def B_ID_PRESENT : Fld := ⟨0x0000, 4, 1⟩
def B_ID_DIE : Fld := ⟨0x0000, 8, 1⟩
/-! B_ERR_FLAGS (Table 19-3, R515) -/
def B_ERR_FLAGS_CHG_REJ : Fld := ⟨0x0008, 0, 1⟩
/-! TILE_DBG_SPADDR (Table 19-4, R516) -/
def TILE_DBG_SPADDR_OFFSET : Fld := ⟨0x7000, 0, 22⟩
/-! TILE_DBG_SPDATA (Table 19-4, R516) -/
def TILE_DBG_SPDATA_DATA : Fld := ⟨0x7008, 0, 64⟩
/-! TILE_DBG_SPPOIS (Table 19-4, R516) -/
def TILE_DBG_SPPOIS_POISON : Fld := ⟨0x7048, 0, 2⟩
def TILE_DBG_SPPOIS_FULL : Fld := ⟨0x7048, 2, 1⟩
/-! TILE_DBG_A (Table 19-4, R516) -/
def TILE_DBG_A_A : Fld := ⟨0x7100, 0, 41⟩

/-! ### Rows by block -/

/-- Register rows of the card block or window. -/
def cardRows : List RegRow :=
  [
   -- ID_CARD (Table 17-6)
   ⟨0x0000, [], [⟨0, 16, .RO, 0x1f5e, .S .card, .any⟩, ⟨16, 16, .RO, 0x6412, .S .card, .any⟩, ⟨32, 8, .RO, 0, .S .card, .any⟩]⟩,
   -- ID_SERIAL (Table 17-6)
   ⟨0x0008, [], [⟨0, 64, .RO, 0, .S .card, .any⟩]⟩,
   -- BRUP_STAT (Table 17-6)
   ⟨0x0010, [], [⟨0, 4, .RO, 0, .L, .any⟩, ⟨4, 1, .RO, 0, .L, .any⟩, ⟨5, 1, .RO, 0, .L, .any⟩, ⟨8, 4, .RO, 0, .L, .any⟩, ⟨16, 9, .RO, 0, .L, .any⟩, ⟨32, 32, .RO, 0, .L, .any⟩]⟩,
   -- BRUP_CMD (Table 17-6)
   ⟨0x0018, [], [⟨0, 1, .W1S, 0, .L, .any⟩, ⟨1, 1, .W1S, 0, .L, .any⟩, ⟨48, 16, .RW, 0, .L, .any⟩]⟩,
   -- FP_GEN (Table 17-6)
   ⟨0x0020, [], [⟨0, 32, .RO, 0, .L, .any⟩]⟩,
   -- FP_COUNTS (Table 17-6)
   ⟨0x0028, [], [⟨0, 8, .RO, 0, .L, .any⟩, ⟨8, 8, .RO, 0, .L, .any⟩, ⟨16, 16, .RO, 0, .L, .any⟩, ⟨32, 9, .RO, 0, .L, .any⟩]⟩,
   -- FP_STACKS (Table 17-6)
   ⟨0x0030, [], [⟨0, 12, .RO, 0, .L, .any⟩]⟩,
   -- FP_SEAM (Table 17-6)
   ⟨0x0038, [], [⟨0, 1, .RO, 0, .L, .any⟩]⟩] ++
  [
   -- BRUP_LOG_STAT (Table 17-6)
   ⟨0x0040, [], [⟨0, 9, .RO, 0, .L, .any⟩, ⟨9, 1, .RO, 0, .L, .any⟩, ⟨10, 1, .RO, 0, .L, .any⟩]⟩,
   -- BRUP_CFG (Table 17-6)
   ⟨0x0048, [], [⟨0, 1, .RW, 0, .D .step9, .any⟩, ⟨1, 1, .RW, 0, .D .step9, .any⟩, ⟨62, 1, .RO, 0, .L, .any⟩, ⟨63, 1, .RO, 0, .L, .any⟩]⟩,
   -- BRUP_MASK (Table 17-6)
   ⟨0x0050, [(0x8, 5)], [⟨0, 40, .RW, 0, .D .step9, .any⟩]⟩,
   -- TEST_LPBK_CTRL (Table 17-6)
   ⟨0x0080, [], [⟨0, 2, .RW, 0, .S .loopback, .range 0 2⟩, ⟨2, 2, .RW, 0, .S .loopback, .depth⟩, ⟨4, 9, .RW, 0, .S .loopback, .any⟩, ⟨16, 4, .RW, 0, .S .loopback, .any⟩, ⟨20, 2, .RW, 1, .S .loopback, .range 0 2⟩, ⟨24, 24, .RW, 0x10000, .S .loopback, .range 1 16777215⟩, ⟨63, 1, .W1S, 0, .S .loopback, .any⟩]⟩,
   -- TEST_LPBK_STAT (Table 17-6)
   ⟨0x0088, [], [⟨0, 1, .RO, 0, .L, .any⟩, ⟨1, 1, .W1C, 0, .L, .any⟩, ⟨2, 1, .W1C, 0, .L, .any⟩, ⟨16, 32, .RO, 0, .L, .any⟩]⟩,
   -- FP_TILES (Table 17-6)
   ⟨0x0100, [(0x8, 8)], [⟨0, 64, .RO, 0, .L, .any⟩]⟩,
   -- FP_CHAN (Table 17-6)
   ⟨0x0200, [(0x8, 6)], [⟨0, 64, .RO, 0, .L, .any⟩]⟩,
   -- FP_ENGOFF (Table 17-6)
   ⟨0x1000, [(0x8, 768)], [⟨0, 64, .RO, 0, .L, .any⟩]⟩]

/-- Register rows of the host block or window. -/
def hostRows : List RegRow :=
  [
   -- HOST_LINK_STAT (Table 13-8)
   ⟨0x0000, [], [⟨0, 5, .RO, 0, .L, .any⟩, ⟨8, 3, .RO, 0, .L, .any⟩, ⟨12, 1, .RO, 0, .L, .any⟩, ⟨13, 1, .RO, 0, .L, .any⟩, ⟨14, 1, .RO, 0, .L, .any⟩, ⟨15, 1, .RO, 0, .L, .any⟩]⟩,
   -- HOST_LINK_DOWNS (Table 13-8)
   ⟨0x0008, [], [⟨0, 32, .RO, 0, .L, .any⟩]⟩,
   -- HOST_TAG_STAT (Table 13-8)
   ⟨0x0010, [], [⟨0, 14, .RO, 0, .L, .any⟩, ⟨16, 14, .RO, 0, .L, .any⟩]⟩,
   -- HOST_ERR_FLAGS (Table 13-8)
   ⟨0x0018, [], [⟨0, 1, .W1C, 0, .L, .any⟩, ⟨1, 1, .W1C, 0, .L, .any⟩, ⟨2, 1, .W1C, 0, .L, .any⟩]⟩,
   -- HOST_BAR4_MAP (Table 13-8)
   ⟨0x0020, [(0x8, 9)], [⟨30, 10, .RW, 0, .L, .any⟩]⟩,
   -- HOST_PART_STACKS (Table 13-8)
   ⟨0x0070, [(0x8, 8)], [⟨0, 12, .RW, 0, .S .partition, .stacks⟩]⟩,
   -- HOST_PART_TILES (Table 13-8)
   ⟨0x0100, [(0x40, 8), (0x8, 8)], [⟨0, 64, .RW, 0, .S .partition, .tiles⟩]⟩,
   -- HOST_BIAS_CMD (Table 13-8)
   ⟨0x0300, [], [⟨0, 16, .RW, 0, .S .bias, .any⟩, ⟨16, 1, .RW, 0, .S .bias, .any⟩, ⟨63, 1, .W1S, 0, .S .bias, .any⟩]⟩] ++
  [
   -- HOST_BIAS_STAT (Table 13-8)
   ⟨0x0308, [], [⟨0, 1, .RO, 0, .L, .any⟩, ⟨1, 1, .W1C, 0, .L, .any⟩, ⟨2, 1, .W1C, 0, .L, .any⟩, ⟨16, 16, .RO, 0, .L, .any⟩]⟩,
   -- HOST_DIR_STAT (Table 13-8)
   ⟨0x0310, [], [⟨0, 20, .RO, 0, .L, .any⟩, ⟨20, 9, .RO, 0, .L, .any⟩]⟩,
   -- HOST_BISNP_CNT (Table 13-8)
   ⟨0x0318, [], [⟨0, 48, .RO, 0, .L, .any⟩]⟩,
   -- HOST_BIAS_MAP (Table 13-8)
   ⟨0x1000, [(0x8, 768)], [⟨0, 64, .RO, 0, .L, .any⟩]⟩,
   -- RING_SQ_BASE (Table 14-7)
   ⟨0x4000, [(0x40, 64)], [⟨12, 52, .RWS, 0, .S .ring, .any⟩]⟩,
   -- RING_CQ_BASE (Table 14-7)
   ⟨0x4008, [(0x40, 64)], [⟨12, 52, .RWS, 0, .S .ring, .any⟩]⟩,
   -- RING_CFG (Table 14-7)
   ⟨0x4010, [(0x40, 64)], [⟨0, 4, .RWS, 4, .S .ring, .range 4 15⟩, ⟨8, 4, .RWS, 0, .S .ring, .range 0 8⟩, ⟨12, 1, .RWS, 1, .S .ring, .any⟩, ⟨13, 1, .RW, 0, .L, .any⟩]⟩,
   -- RING_SEQ0 (Table 14-7)
   ⟨0x4018, [(0x40, 64)], [⟨0, 32, .RWS, 0, .S .ring, .any⟩]⟩] ++
  [
   -- RING_CMD (Table 14-7)
   ⟨0x4020, [(0x40, 64)], [⟨0, 1, .W1S, 0, .S .ring, .any⟩, ⟨1, 1, .W1S, 0, .S .ring, .any⟩, ⟨2, 1, .W1S, 0, .S .ring, .any⟩, ⟨3, 1, .W1S, 0, .L, .any⟩]⟩,
   -- RING_STAT (Table 14-7)
   ⟨0x4028, [(0x40, 64)], [⟨0, 2, .RO, 0, .L, .any⟩, ⟨4, 3, .RO, 0, .L, .any⟩, ⟨8, 16, .RO, 0, .L, .any⟩, ⟨24, 16, .RO, 0, .L, .any⟩, ⟨40, 7, .RO, 0, .L, .any⟩, ⟨48, 1, .RO, 0, .L, .any⟩]⟩,
   -- RING_SEQ (Table 14-7)
   ⟨0x4030, [(0x40, 64)], [⟨0, 32, .RO, 0, .L, .any⟩, ⟨32, 32, .RO, 0, .L, .any⟩]⟩,
   -- RING_CNT (Table 14-7)
   ⟨0x4038, [(0x40, 64)], [⟨0, 48, .RO, 0, .L, .any⟩]⟩,
   -- RING_DB_IGN (Table 14-7)
   ⟨0x5000, [], [⟨0, 48, .RO, 0, .L, .any⟩]⟩,
   -- RING_REREADS (Table 14-7)
   ⟨0x5008, [], [⟨0, 48, .RO, 0, .L, .any⟩]⟩,
   -- RING_ENG_STAT (Table 14-7)
   ⟨0x5010, [], [⟨0, 11, .RO, 0, .L, .any⟩]⟩,
   -- RING_ERR_FLAGS (Table 14-7)
   ⟨0x5018, [], [⟨0, 1, .W1C, 0, .L, .any⟩, ⟨1, 1, .W1C, 0, .L, .any⟩]⟩] ++
  [
   -- EVT_BASE (Table 14-7)
   ⟨0x5100, [(0x20, 9)], [⟨12, 52, .RWS, 0, .S .ev, .any⟩]⟩,
   -- EVT_CFG (Table 14-7)
   ⟨0x5108, [(0x20, 9)], [⟨0, 5, .RWS, 6, .S .ev, .range 6 16⟩, ⟨8, 1, .RW, 0, .L, .any⟩]⟩,
   -- EVT_STAT (Table 14-7)
   ⟨0x5110, [(0x20, 9)], [⟨0, 16, .RO, 0, .L, .any⟩, ⟨16, 16, .RO, 0, .L, .any⟩, ⟨32, 1, .RO, 0, .L, .any⟩]⟩,
   -- FLT_CTRL (Table 15-8)
   ⟨0x6000, [], [⟨0, 16, .RW, 1000, .L, .range 1 65535⟩, ⟨16, 16, .RW, 1000, .L, .any⟩]⟩,
   -- FLT_BKT_CTRL (Table 15-8)
   ⟨0x6008, [], [⟨0, 16, .RW, 1024, .D .leakTick, .range 1 65535⟩, ⟨16, 16, .RW, 1000, .D .leakTick, .range 1 65535⟩, ⟨32, 8, .RW, 0, .D .leakTick, .any⟩, ⟨40, 8, .RW, 16, .D .leakTick, .any⟩, ⟨48, 16, .RW, 256, .D .leakTick, .any⟩]⟩,
   -- FLT_BKT_SEAM (Table 15-8)
   ⟨0x6010, [], [⟨0, 16, .RO, 0, .L, .any⟩, ⟨16, 1, .RO, 0, .L, .any⟩, ⟨17, 1, .RO, 0, .L, .any⟩]⟩,
   -- FLT_BKT_HOST (Table 15-8)
   ⟨0x6018, [], [⟨0, 16, .RO, 0, .L, .any⟩, ⟨16, 1, .W1C, 0, .L, .any⟩]⟩,
   -- FLT_MOLT_CMD (Table 15-8)
   ⟨0x6020, [], [⟨0, 9, .RW, 0, .L, .range 0 383⟩, ⟨63, 1, .W1S, 0, .L, .any⟩]⟩] ++
  [
   -- FLT_MOLT_STAT (Table 15-8)
   ⟨0x6028, [], [⟨0, 9, .RO, 0, .L, .any⟩, ⟨12, 1, .RO, 0, .L, .any⟩, ⟨13, 1, .W1C, 0, .L, .any⟩, ⟨14, 1, .RO, 0, .L, .any⟩, ⟨16, 9, .RO, 0, .L, .any⟩, ⟨32, 10, .RO, 0, .L, .any⟩]⟩,
   -- FLT_RST_CMD (Table 15-8)
   ⟨0x6030, [], [⟨0, 9, .RW, 0, .S .reset, .tile⟩, ⟨16, 4, .RW, 0, .S .reset, .part⟩, ⟨32, 1, .W1S, 0, .S .reset, .any⟩, ⟨33, 1, .W1S, 0, .S .reset, .any⟩]⟩,
   -- FLT_RST_STAT (Table 15-8)
   ⟨0x6038, [], [⟨0, 1, .RO, 0, .L, .any⟩, ⟨1, 1, .W1C, 0, .L, .any⟩]⟩,
   -- FLT_CUT_STAT (Table 15-8)
   ⟨0x6040, [], [⟨0, 32, .RO, 0, .L, .any⟩, ⟨32, 1, .RO, 0, .L, .any⟩]⟩,
   -- FLT_CARD (Table 15-8)
   ⟨0x6048, [], [⟨0, 1, .RO, 0, .L, .any⟩]⟩,
   -- FLT_RET_ACC (Table 15-8)
   ⟨0x6050, [], [⟨0, 48, .RO, 0, .L, .any⟩]⟩,
   -- FLT_SRAM_CNT (Table 15-8)
   ⟨0x6058, [], [⟨0, 32, .RO, 0, .L, .any⟩, ⟨32, 32, .RO, 0, .L, .any⟩]⟩,
   -- HOST_BAR0_LOG (Table 19-3)
   ⟨0x0320, [], [⟨0, 26, .RO, 0, .L, .any⟩, ⟨26, 3, .RO, 0, .L, .any⟩, ⟨32, 4, .RO, 0, .L, .any⟩, ⟨36, 1, .RO, 0, .L, .any⟩, ⟨63, 1, .W1C, 0, .L, .any⟩]⟩]

/-- Register rows of the pwr block or window. -/
def pwrRows : List RegRow :=
  [
   -- PWR_CTRL (Table 16-6)
   ⟨0x0000, [], [⟨0, 16, .RW, 1400, .D .controlPeriod, .range 400 1400⟩, ⟨16, 8, .RW, 50, .D .controlPeriod, .any⟩, ⟨24, 2, .RW, 0, .D .controlPeriod, .range 0 2⟩, ⟨28, 3, .RW, 7, .D .controlPeriod, .any⟩, ⟨32, 3, .RW, 7, .D .controlPeriod, .any⟩, ⟨40, 8, .RW, 150, .D .controlPeriod, .any⟩, ⟨48, 8, .RW, 10, .D .controlPeriod, .range 1 255⟩]⟩,
   -- PWR_BRAKE (Table 16-6)
   ⟨0x0008, [], [⟨0, 16, .RW, 600, .L, .range 450 1400⟩, ⟨16, 3, .RW, 5, .L, .any⟩, ⟨20, 3, .RW, 5, .L, .any⟩, ⟨32, 1, .RW, 0, .L, .any⟩, ⟨33, 1, .RO, 0, .L, .any⟩, ⟨34, 1, .RO, 0, .L, .any⟩]⟩,
   -- PWR_STATUS (Table 16-6)
   ⟨0x0010, [], [⟨0, 3, .RO, 0, .L, .any⟩, ⟨4, 3, .RO, 0, .L, .any⟩, ⟨8, 3, .RO, 0, .L, .any⟩, ⟨12, 3, .RO, 0, .L, .any⟩, ⟨16, 4, .RO, 12, .L, .any⟩, ⟨20, 4, .RO, 0, .L, .any⟩, ⟨24, 1, .RO, 0, .L, .any⟩, ⟨25, 1, .W1C, 0, .L, .any⟩]⟩,
   -- PWR_SLEVEL (Table 16-6)
   ⟨0x0018, [], [⟨0, 36, .RO, 0, .L, .any⟩]⟩,
   -- PWR_MEAS (Table 16-6)
   ⟨0x0020, [], [⟨0, 16, .RO, 0, .L, .any⟩, ⟨16, 16, .RO, 0, .L, .any⟩, ⟨32, 16, .RO, 0, .L, .any⟩, ⟨48, 16, .RW, 0, .L, .any⟩]⟩,
   -- PWR_RAIL (Table 16-6)
   ⟨0x0100, [(0x8, 45)], [⟨0, 16, .RO, 0, .L, .any⟩, ⟨16, 16, .RO, 0, .L, .any⟩, ⟨32, 1, .RO, 0, .L, .any⟩]⟩,
   -- PWR_FAST (Table 16-6)
   ⟨0x0300, [], [⟨0, 48, .RO, 0, .L, .any⟩]⟩,
   -- PWR_TIME_C (Table 16-6)
   ⟨0x0308, [], [⟨0, 48, .RO, 0, .L, .any⟩]⟩] ++
  [
   -- PWR_TIME_S (Table 16-6)
   ⟨0x0310, [], [⟨0, 48, .RO, 0, .L, .any⟩]⟩,
   -- THERM_TEMP_C (Table 16-6)
   ⟨0x0400, [(0x8, 2)], [⟨0, 12, .RO, 0, .L, .any⟩]⟩,
   -- THERM_TEMP_B (Table 16-6)
   ⟨0x0410, [(0x8, 12)], [⟨0, 12, .RO, 0, .L, .any⟩]⟩,
   -- THERM_MODEL (Table 16-6)
   ⟨0x0480, [(0x8, 12)], [⟨0, 12, .RO, 0, .L, .any⟩, ⟨32, 16, .RO, 0, .S .thermal, .any⟩, ⟨48, 16, .RO, 0, .S .thermal, .any⟩]⟩,
   -- THERM_STAT (Table 16-6)
   ⟨0x0500, [], [⟨0, 28, .RO, 0, .L, .any⟩, ⟨28, 1, .RO, 0, .L, .any⟩]⟩,
   -- THERM_CTRL (Table 16-6)
   ⟨0x0508, [], [⟨0, 8, .RW, 1, .L, .range 1 255⟩, ⟨8, 1, .RWS, 1, .L, .any⟩, ⟨16, 4, .RWS, 3, .L, .range 1 15⟩]⟩,
   -- THERM_TRIP (Table 16-6)
   ⟨0x0510, [], [⟨0, 4, .RO, 0, .L, .any⟩, ⟨4, 12, .RO, 0, .L, .any⟩, ⟨16, 16, .RO, 0, .L, .any⟩, ⟨32, 31, .RO, 0, .L, .any⟩, ⟨63, 1, .W1C, 0, .L, .any⟩]⟩,
   -- SUPPLY_STAT (Table 16-6)
   ⟨0x0518, [], [⟨0, 1, .RO, 0, .L, .any⟩, ⟨8, 6, .RO, 0, .L, .any⟩, ⟨16, 32, .RO, 0, .L, .any⟩]⟩] ++
  [
   -- PWR_ERR_FLAGS (Table 19-3)
   ⟨0x0318, [], [⟨0, 1, .W1C, 0, .L, .any⟩]⟩]

/-- Register rows of the sec block or window. -/
def secRows : List RegRow :=
  [
   -- SEC_LC (Table 18-12)
   ⟨0x0000, [], [⟨0, 2, .RO, 0, .S .sec, .any⟩, ⟨2, 1, .RO, 0, .S .sec, .any⟩]⟩,
   -- SEC_DBG (Table 18-12)
   ⟨0x0008, [], [⟨0, 2, .RO, 0, .L, .any⟩, ⟨2, 1, .RO, 0, .L, .any⟩]⟩,
   -- SEC_DBG_CTRL (Table 18-12)
   ⟨0x0010, [], [⟨0, 2, .RW, 0, .L, .any⟩]⟩,
   -- SEC_KEYS (Table 18-12)
   ⟨0x0018, [], [⟨0, 4, .RO, 0, .L, .any⟩, ⟨4, 2, .RO, 0, .L, .any⟩, ⟨8, 8, .RO, 0, .L, .any⟩, ⟨16, 8, .RO, 0, .L, .any⟩]⟩,
   -- SEC_FW_ADDR (Table 18-12)
   ⟨0x0020, [], [⟨6, 58, .RW, 0, .S .sec, .any⟩]⟩,
   -- SEC_FW_LEN (Table 18-12)
   ⟨0x0028, [], [⟨0, 24, .RW, 0, .S .sec, .range 4096 8392704⟩]⟩,
   -- SEC_FW_CMD (Table 18-12)
   ⟨0x0030, [], [⟨0, 2, .RW, 0, .S .sec, .op13⟩, ⟨63, 1, .W1S, 0, .S .sec, .any⟩]⟩,
   -- SEC_FW_STAT (Table 18-12)
   ⟨0x0038, [], [⟨0, 1, .RO, 0, .L, .any⟩, ⟨1, 1, .W1C, 0, .L, .any⟩, ⟨2, 1, .RO, 0, .L, .any⟩, ⟨3, 1, .W1C, 0, .L, .any⟩, ⟨8, 8, .RO, 0, .L, .any⟩, ⟨16, 20, .RO, 0, .L, .any⟩]⟩] ++
  [
   -- SEC_RECOV (Table 18-12)
   ⟨0x0040, [], [⟨0, 1, .RO, 0, .L, .any⟩, ⟨1, 3, .RO, 0, .L, .any⟩]⟩,
   -- SEC_DBG_HALT (Table 18-12)
   ⟨0x0048, [], [⟨0, 9, .RW, 0, .L, .tile⟩, ⟨16, 1, .W1S, 0, .L, .any⟩, ⟨17, 1, .W1S, 0, .L, .any⟩]⟩,
   -- SEC_HALTED (Table 18-12)
   ⟨0x0050, [], [⟨0, 64, .RO, 0, .L, .any⟩]⟩,
   -- SEC_MEAS (Table 18-12)
   ⟨0x0100, [(0x20, 8), (0x8, 4)], [⟨0, 64, .RO, 0, .L, .any⟩]⟩]

/-- Register rows of the seam block or window. -/
def seamRows : List RegRow :=
  [
   -- SEAM_STAT (Table 19-3)
   ⟨0x0000, [], [⟨0, 1, .RO, 0, .L, .any⟩, ⟨1, 1, .RO, 0, .L, .any⟩, ⟨2, 1, .RO, 0, .L, .any⟩]⟩,
   -- SEAM_ERR_CNT (Table 19-3)
   ⟨0x0008, [], [⟨0, 32, .RO, 0, .L, .any⟩, ⟨32, 32, .RO, 0, .L, .any⟩]⟩,
   -- SEAM_TRAIN_TSC (Table 19-3)
   ⟨0x0010, [], [⟨0, 64, .RO, 0, .L, .any⟩]⟩]

/-- Register rows of the chorus block or window. -/
def chorusRows : List RegRow :=
  [
   -- CHORUS_PART (Table 12-6)
   ⟨0x0000, [(0x40, 8), (0x8, 8)], [⟨0, 64, .RW, 0, .S .group, .tiles⟩]⟩,
   -- CHORUS_CTRL (Table 12-6)
   ⟨0x0200, [(0x8, 8)], [⟨0, 4, .RW, 0, .S .group, .range 0 8⟩, ⟨8, 1, .RO, 0, .L, .any⟩, ⟨9, 1, .RO, 0, .L, .any⟩, ⟨16, 48, .RO, 0, .L, .any⟩]⟩,
   -- CHORUS_ERR_FLAGS (Table 19-3)
   ⟨0x0300, [], [⟨0, 1, .W1C, 0, .L, .any⟩]⟩]

/-- Register rows of the tile block or window. -/
def tileRows : List RegRow :=
  [
   -- TILE_ID (Table 7-8)
   ⟨0x0000, [], [⟨0, 9, .RO, 0, .S .tile, .any⟩, ⟨16, 1, .RO, 0, .S .tile, .any⟩]⟩,
   -- TILE_STATUS (Table 7-8)
   ⟨0x0008, [], [⟨0, 1, .RO, 1, .L, .any⟩, ⟨1, 5, .RO, 0, .L, .any⟩, ⟨8, 4, .RO, 0, .L, .any⟩]⟩,
   -- TILE_FE_STAT (Table 7-8)
   ⟨0x0010, [], [⟨0, 1, .W1C, 0, .L, .any⟩, ⟨16, 16, .RO, 0, .L, .any⟩, ⟨32, 16, .RO, 0, .L, .any⟩]⟩,
   -- TILE_RC_CTRL (Table 7-8)
   ⟨0x0018, [], [⟨0, 1, .RW, 1, .S .tile, .any⟩]⟩,
   -- TILE_PF_CTRL (Table 7-8)
   ⟨0x0020, [], [⟨0, 1, .RW, 1, .D .mveDescriptor, .any⟩, ⟨8, 7, .RW, 16, .D .mveDescriptor, .range 1 64⟩]⟩,
   -- TILE_ERR_FLAGS (Table 7-8)
   ⟨0x0028, [], [⟨0, 1, .W1C, 0, .L, .any⟩, ⟨1, 1, .W1C, 0, .L, .any⟩]⟩,
   -- TILE_NOC_ERRLOG (Table 7-8)
   ⟨0x0030, [], [⟨0, 9, .RO, 0, .L, .any⟩, ⟨9, 3, .RO, 0, .L, .any⟩, ⟨12, 4, .RO, 0, .L, .any⟩, ⟨63, 1, .W1C, 0, .L, .any⟩]⟩,
   -- TILE_STALL (Table 7-8)
   ⟨0x0100, [(0x80, 5), (0x8, 16)], [⟨0, 48, .RO, 0, .L, .any⟩]⟩] ++
  [
   -- TILE_PFM (Table 7-8)
   ⟨0x0400, [(0x8, 5)], [⟨0, 48, .RO, 0, .L, .any⟩]⟩,
   -- TILE_PFS (Table 7-8)
   ⟨0x0440, [(0x8, 5)], [⟨0, 48, .RO, 0, .L, .any⟩]⟩,
   -- TILE_RC_HITS (Table 7-8)
   ⟨0x0480, [], [⟨0, 48, .RO, 0, .L, .any⟩]⟩,
   -- TILE_RC_MISSES (Table 7-8)
   ⟨0x0488, [], [⟨0, 48, .RO, 0, .L, .any⟩]⟩,
   -- TILE_ACQUIRES (Table 7-8)
   ⟨0x0490, [], [⟨0, 48, .RO, 0, .L, .any⟩]⟩,
   -- TILE_SF_CTRL (Table 8-10)
   ⟨0x0800, [], [⟨0, 1, .RW, 1, .D .streamRecord, .any⟩, ⟨1, 1, .RW, 1, .D .streamRecord, .any⟩, ⟨8, 7, .RW, 32, .D .streamRecord, .range 1 64⟩]⟩,
   -- TILE_SF_STATUS (Table 8-10)
   ⟨0x0808, [], [⟨0, 11, .RO, 0, .L, .any⟩, ⟨16, 4, .RO, 0, .L, .any⟩, ⟨32, 32, .RO, 0, .L, .any⟩]⟩,
   -- TILE_QSTATUS (Table 8-10)
   ⟨0x0810, [], [⟨0, 10, .RO, 0, .L, .any⟩, ⟨16, 10, .RO, 0, .L, .any⟩, ⟨32, 10, .RO, 0, .L, .any⟩, ⟨48, 10, .RO, 0, .L, .any⟩]⟩] ++
  [
   -- TILE_HAZ_CTRL (Table 8-10)
   ⟨0x0818, [], [⟨0, 4, .RW, 0, .S .tile, .any⟩]⟩,
   -- TILE_IMEM_CTRL (Table 8-10)
   ⟨0x0820, [], [⟨0, 16, .RW, 1000, .L, .any⟩]⟩,
   -- TILE_IMEM_USE (Table 8-10)
   ⟨0x0828, [], [⟨0, 64, .RO, 0, .L, .any⟩]⟩,
   -- TILE_IMEM_HOLD (Table 8-10)
   ⟨0x0830, [], [⟨0, 6, .RO, 0, .L, .any⟩, ⟨8, 1, .RO, 0, .L, .any⟩, ⟨16, 16, .RO, 0, .L, .any⟩, ⟨32, 32, .RO, 0, .L, .any⟩]⟩,
   -- TILE_FAULT (Table 8-10)
   ⟨0x0838, [], [⟨0, 8, .RO, 0, .L, .any⟩, ⟨8, 3, .RO, 0, .L, .any⟩, ⟨11, 2, .RO, 0, .L, .any⟩, ⟨63, 1, .RO, 0, .L, .any⟩]⟩,
   -- TILE_FAULT_LOC (Table 8-10)
   ⟨0x0840, [], [⟨0, 32, .RO, 0, .L, .any⟩, ⟨32, 18, .RO, 0, .L, .any⟩]⟩,
   -- TILE_FAULT_STREAM (Table 8-10)
   ⟨0x0848, [], [⟨0, 64, .RO, 0, .L, .any⟩]⟩,
   -- TILE_BUNDLES (Table 8-10)
   ⟨0x0850, [], [⟨0, 48, .RO, 0, .L, .any⟩]⟩] ++
  [
   -- TILE_OPS (Table 8-10)
   ⟨0x0858, [(0x8, 4)], [⟨0, 48, .RO, 0, .L, .any⟩]⟩,
   -- TILE_PC (Table 8-10)
   ⟨0x0878, [(0x8, 4)], [⟨0, 18, .RO, 0, .L, .any⟩, ⟨20, 2, .RO, 0, .L, .any⟩, ⟨24, 4, .RO, 0, .L, .any⟩]⟩,
   -- MXE_STATUS (Table 9-10)
   ⟨0x0900, [], [⟨0, 1, .W1C, 0, .L, .any⟩, ⟨1, 1, .W1C, 0, .L, .any⟩, ⟨2, 1, .W1C, 0, .L, .any⟩, ⟨3, 1, .RO, 0, .L, .any⟩, ⟨4, 1, .RO, 0, .L, .any⟩, ⟨8, 4, .RO, 0, .L, .any⟩, ⟨12, 2, .RO, 0, .L, .any⟩]⟩,
   -- MXE_DUTY (Table 9-10)
   ⟨0x0908, [], [⟨0, 5, .RO, 16, .L, .any⟩]⟩,
   -- MXE_ARRAY_CYC (Table 9-10)
   ⟨0x0910, [], [⟨0, 48, .RO, 0, .L, .any⟩]⟩,
   -- MXE_MACS (Table 9-10)
   ⟨0x0918, [], [⟨0, 48, .RO, 0, .L, .any⟩]⟩,
   -- MXE_STORE_CELLS (Table 9-10)
   ⟨0x0920, [], [⟨0, 48, .RO, 0, .L, .any⟩]⟩,
   -- VXE_STATUS (Table 10-6)
   ⟨0x0A00, [], [⟨0, 1, .W1C, 0, .L, .any⟩, ⟨1, 1, .W1C, 0, .L, .any⟩, ⟨2, 1, .W1C, 0, .L, .any⟩, ⟨3, 1, .RO, 0, .L, .any⟩, ⟨8, 3, .RO, 0, .L, .any⟩]⟩] ++
  [
   -- VXE_POSITIONS (Table 10-6)
   ⟨0x0A08, [], [⟨0, 48, .RO, 0, .L, .any⟩]⟩,
   -- VXE_TREES (Table 10-6)
   ⟨0x0A10, [], [⟨0, 48, .RO, 0, .L, .any⟩]⟩,
   -- MVE_STATUS (Table 11-5)
   ⟨0x0B00, [], [⟨0, 1, .W1C, 0, .L, .any⟩, ⟨1, 1, .W1C, 0, .L, .any⟩, ⟨2, 1, .W1C, 0, .L, .any⟩, ⟨3, 1, .W1C, 0, .L, .any⟩, ⟨4, 1, .RO, 0, .L, .any⟩, ⟨8, 3, .RO, 0, .L, .any⟩]⟩,
   -- MVE_DVALID (Table 11-5)
   ⟨0x0B08, [], [⟨0, 32, .RO, 0, .L, .any⟩]⟩,
   -- MVE_DSTAT (Table 11-5)
   ⟨0x0B10, [], [⟨0, 5, .RO, 0, .L, .any⟩, ⟨8, 4, .RO, 0, .L, .any⟩, ⟨63, 1, .W1C, 0, .L, .any⟩]⟩,
   -- MVE_RD_CELLS (Table 11-5)
   ⟨0x0B18, [], [⟨0, 48, .RO, 0, .L, .any⟩]⟩,
   -- MVE_WR_CELLS (Table 11-5)
   ⟨0x0B20, [], [⟨0, 48, .RO, 0, .L, .any⟩]⟩,
   -- MVE_FILLS (Table 11-5)
   ⟨0x0B28, [], [⟨0, 48, .RO, 0, .L, .any⟩]⟩] ++
  [
   -- MVE_DROPS (Table 11-5)
   ⟨0x0B30, [], [⟨0, 48, .RO, 0, .L, .any⟩]⟩,
   -- MVE_ERR_CELLS (Table 11-5)
   ⟨0x0B38, [], [⟨0, 48, .RO, 0, .L, .any⟩]⟩,
   -- MVE_MISALIGNED (Table 11-5)
   ⟨0x0B40, [], [⟨0, 48, .RO, 0, .L, .any⟩]⟩,
   -- MVE_MOVES (Table 11-5)
   ⟨0x0B48, [], [⟨0, 48, .RO, 0, .L, .any⟩]⟩,
   -- TILE_SEM (Table 12-5)
   ⟨0x0C00, [(0x8, 32)], [⟨0, 8, .RW, 0, .S .tile, .any⟩]⟩,
   -- TILE_SEM_OVF (Table 12-5)
   ⟨0x0D00, [], [⟨0, 32, .W1C, 0, .L, .any⟩]⟩,
   -- TILE_SC_PC (Table 12-5)
   ⟨0x0E00, [(0x10, 16)], [⟨0, 32, .RW, 0, .S .tile, .any⟩, ⟨32, 32, .RW, 0, .S .tile, .any⟩]⟩,
   -- TILE_SC_N (Table 12-5)
   ⟨0x0E08, [(0x10, 16)], [⟨0, 32, .RW, 256, .S .tile, .range 1 0x80000000⟩]⟩] ++
  [
   -- TILE_CHORUS_ENG (Table 12-5)
   ⟨0x0F00, [], [⟨0, 32, .RW, 0, .S .tile, .any⟩]⟩,
   -- TILE_CHORUS_STAT (Table 12-5)
   ⟨0x0F08, [], [⟨0, 8, .RO, 0, .L, .any⟩]⟩,
   -- TILE_DLD_CTRL (Table 12-5)
   ⟨0x0F10, [], [⟨0, 1, .RW, 1, .L, .any⟩, ⟨1, 1, .RW, 0, .L, .any⟩, ⟨8, 5, .RW, 20, .L, .range 10 31⟩]⟩,
   -- TILE_DLD_STAT (Table 12-5)
   ⟨0x0F18, [], [⟨0, 1, .W1C, 0, .L, .any⟩, ⟨16, 48, .RO, 0, .L, .any⟩]⟩,
   -- TILE_DLD_SNAP (Table 12-5)
   ⟨0x0F20, [(0x8, 4)], [⟨0, 4, .RO, 0, .L, .any⟩, ⟨16, 16, .RO, 0, .L, .any⟩, ⟨32, 32, .RO, 0, .L, .any⟩]⟩,
   -- TILE_DLD_TSC (Table 12-5)
   ⟨0x0F40, [], [⟨0, 64, .RO, 0, .L, .any⟩]⟩,
   -- TILE_DLD_SEM (Table 12-5)
   ⟨0x0F48, [(0x8, 4)], [⟨0, 64, .RO, 0, .L, .any⟩]⟩,
   -- TILE_DROOP_CYC (Table 16-6)
   ⟨0x0498, [], [⟨0, 48, .RO, 0, .L, .any⟩]⟩] ++
  [
   -- TILE_DBG_SPADDR (Table 19-4)
   ⟨0x7000, [], [⟨0, 22, .RW, 0, .L, .cell⟩]⟩,
   -- TILE_DBG_SPDATA (Table 19-4)
   ⟨0x7008, [(0x8, 8)], [⟨0, 64, .RW, 0, .L, .any⟩]⟩,
   -- TILE_DBG_SPPOIS (Table 19-4)
   ⟨0x7048, [], [⟨0, 2, .RW, 0, .L, .any⟩, ⟨2, 1, .RO, 0, .L, .any⟩]⟩,
   -- TILE_DBG_A (Table 19-4)
   ⟨0x7100, [(0x80, 4), (0x8, 16)], [⟨0, 41, .RW, 0, .S .halt, .any⟩]⟩]

/-- Register rows of the cc block or window. A CC_TRACE_BASE.OFFSET with [5:0] ≠ 0 is a reserved value (DESIGN CHOICE, log 87). -/
def ccRows : List RegRow :=
  [
   -- CC_ID (Table 3-7)
   ⟨0x0000, [], [⟨0, 10, .RO, 0, .S .cc, .any⟩, ⟨16, 4, .RO, 0, .S .cc, .any⟩, ⟨24, 5, .RO, 0, .S .cc, .any⟩, ⟨32, 1, .RO, 0, .S .cc, .any⟩]⟩,
   -- CC_STATUS (Table 3-7)
   ⟨0x0008, [], [⟨0, 1, .RO, 0, .L, .any⟩, ⟨1, 2, .RO, 0, .L, .any⟩, ⟨3, 1, .RO, 0, .L, .any⟩, ⟨4, 1, .RO, 0, .L, .any⟩, ⟨5, 4, .RO, 0, .L, .any⟩, ⟨16, 9, .RO, 0, .L, .any⟩]⟩,
   -- CC_SCHED_CTRL (Table 3-7)
   ⟨0x0010, [], [⟨0, 1, .RW, 0, .S .cc, .any⟩, ⟨8, 6, .RW, 16, .D .endOfPass, .range 1 63⟩, ⟨16, 7, .RW, 48, .D .endOfPass, .hwm⟩, ⟨24, 4, .RW, 4, .D .endOfRowPeriod, .any⟩, ⟨28, 4, .RW, 4, .L, .any⟩, ⟨32, 8, .RW, 32, .L, .range 1 255⟩]⟩,
   -- CC_DEADLINE (Table 3-7)
   ⟨0x0018, [], [⟨0, 16, .RW, 64, .L, .any⟩, ⟨16, 16, .RW, 32, .L, .any⟩, ⟨32, 16, .RW, 1024, .L, .any⟩, ⟨48, 16, .RW, 0, .L, .any⟩]⟩,
   -- CC_ILV_CTRL (Table 3-7)
   ⟨0x0020, [], [⟨0, 1, .RO, 0, .S .cc, .any⟩, ⟨1, 1, .RO, 0, .S .cc, .any⟩, ⟨2, 1, .RO, 0, .S .cc, .any⟩]⟩,
   -- CC_BANK_MASK (Table 3-7)
   ⟨0x0028, [(0x8, 5)], [⟨0, 40, .RO, 0, .S .cc, .any⟩]⟩,
   -- CC_RD_CTRL (Table 3-7)
   ⟨0x0050, [], [⟨0, 16, .RW, 2048, .D .refreshWindow, .range 256 32768⟩, ⟨16, 16, .RW, 512, .D .refreshWindow, .range 1 65535⟩]⟩,
   -- CC_PD_CTRL (Table 3-7)
   ⟨0x0058, [], [⟨0, 16, .RW, 1000, .L, .any⟩]⟩] ++
  [
   -- CC_SCRUB_CTRL (Table 3-7)
   ⟨0x0060, [], [⟨0, 1, .RW, 1, .L, .any⟩, ⟨8, 16, .RW, 24, .D .endOfSweep, .range 1 65535⟩]⟩,
   -- CC_ECC_CNT (Table 3-7)
   ⟨0x0068, [], [⟨0, 32, .RO, 0, .L, .any⟩, ⟨32, 32, .RO, 0, .L, .any⟩]⟩,
   -- CC_ECC_LOG (Table 3-7)
   ⟨0x0070, [], [⟨0, 41, .RO, 0, .L, .any⟩, ⟨63, 1, .W1C, 0, .L, .any⟩]⟩,
   -- CC_ERR_FLAGS (Table 3-7)
   ⟨0x0078, [], [⟨0, 1, .W1C, 0, .L, .any⟩, ⟨1, 1, .W1C, 0, .L, .any⟩, ⟨2, 1, .W1C, 0, .L, .any⟩]⟩,
   -- CC_BSEQ_CTRL (Table 5-11)
   ⟨0x0100, [], [⟨0, 6, .RW, 8, .D .endOfPass, .range 1 63⟩, ⟨8, 2, .RW, 2, .D .endOfPass, .range 1 3⟩, ⟨16, 16, .RW, 256, .L, .any⟩]⟩,
   -- CC_BSEQ_STATUS (Table 5-11)
   ⟨0x0108, [], [⟨0, 3, .RO, 0, .L, .any⟩, ⟨8, 7, .RO, 0, .L, .any⟩, ⟨16, 4, .RO, 0, .L, .any⟩, ⟨32, 16, .RO, 0, .L, .any⟩]⟩,
   -- CC_BSEQ_REFSLOT (Table 5-11)
   ⟨0x0110, [], [⟨0, 64, .RO, 0, .L, .any⟩]⟩,
   -- CC_BSEQ_PASSES (Table 5-11)
   ⟨0x0118, [], [⟨0, 48, .RO, 0, .L, .any⟩]⟩] ++
  [
   -- CC_BSEQ_BUBBLE (Table 5-11)
   ⟨0x0120, [], [⟨0, 48, .RO, 0, .L, .any⟩]⟩,
   -- CC_BSEQ_PANIC (Table 5-11)
   ⟨0x0128, [], [⟨0, 48, .RO, 0, .L, .any⟩]⟩,
   -- CC_BSEQ_SPLITS (Table 5-11)
   ⟨0x0130, [], [⟨0, 48, .RO, 0, .L, .any⟩]⟩,
   -- CC_BSEQ_REJ (Table 5-11)
   ⟨0x0138, [], [⟨0, 16, .RO, 0, .L, .any⟩, ⟨16, 4, .RO, 0, .L, .any⟩, ⟨63, 1, .W1C, 0, .L, .any⟩]⟩,
   -- CC_TRACE_CTRL (Table 7-9)
   ⟨0x0200, [], [⟨0, 1, .RW, 0, .L, .any⟩, ⟨1, 1, .RW, 0, .S .trace, .any⟩, ⟨2, 1, .RW, 0, .S .trace, .any⟩, ⟨8, 9, .RW, 0, .S .trace, .tile⟩, ⟨32, 16, .RW, 0, .S .trace, .any⟩]⟩,
   -- CC_TRACE_BASE (Table 7-9)
   ⟨0x0208, [], [⟨0, 22, .RW, 0, .S .trace, .cell⟩, ⟨32, 16, .RW, 1, .S .trace, .range 1 65535⟩]⟩,
   -- CC_TRACE_STATUS (Table 7-9)
   ⟨0x0210, [], [⟨0, 16, .RO, 0, .L, .any⟩, ⟨16, 2, .RO, 0, .L, .any⟩, ⟨63, 1, .RO, 0, .L, .any⟩]⟩,
   -- CC_TRACE_DROP (Table 7-9)
   ⟨0x0218, [], [⟨0, 48, .RO, 0, .L, .any⟩]⟩] ++
  [
   -- CC_BKT (Table 15-8)
   ⟨0x0300, [], [⟨0, 16, .RO, 0, .L, .any⟩, ⟨16, 1, .RO, 0, .L, .any⟩]⟩]

/-- Register rows of the bdie block or window. -/
def bdieRows : List RegRow :=
  [
   -- B_NEWT_STAT (Table 4-9)
   ⟨0x2000, [(0x8, 32)], [⟨0, 1, .W1C, 0, .L, .any⟩, ⟨1, 1, .W1C, 0, .L, .any⟩, ⟨2, 1, .W1C, 0, .L, .any⟩, ⟨3, 1, .W1C, 0, .L, .any⟩, ⟨4, 1, .W1C, 0, .L, .any⟩, ⟨16, 32, .RO, 0, .L, .any⟩]⟩,
   -- B_NEWT_ROWS (Table 4-9)
   ⟨0x2100, [], [⟨0, 48, .RO, 0, .L, .any⟩]⟩,
   -- B_NEWT_COLS (Table 4-9)
   ⟨0x2108, [], [⟨0, 48, .RO, 0, .L, .any⟩]⟩,
   -- B_NEWT_ENGCOLS (Table 4-9)
   ⟨0x2110, [], [⟨0, 48, .RO, 0, .L, .any⟩]⟩,
   -- B_MERGE_CTRL (Table 5-12)
   ⟨0x3000, [], [⟨0, 16, .RW, 100, .D .destLeavesFree, .range 1 65535⟩]⟩,
   -- B_MERGE_STAT (Table 5-12)
   ⟨0x3008, [], [⟨0, 16, .RO, 0, .L, .any⟩, ⟨16, 32, .RO, 0, .L, .any⟩]⟩,
   -- B_MERGE_DEST (Table 5-12)
   ⟨0x3010, [(0x8, 16)], [⟨0, 2, .RO, 0, .L, .any⟩, ⟨2, 2, .RO, 0, .L, .any⟩, ⟨4, 6, .RO, 0, .L, .any⟩, ⟨10, 6, .RO, 0, .L, .any⟩, ⟨16, 16, .RO, 0, .L, .any⟩, ⟨32, 2, .RO, 0, .L, .any⟩]⟩,
   -- B_MERGE_RESULTS (Table 5-12)
   ⟨0x3090, [], [⟨0, 48, .RO, 0, .L, .any⟩]⟩] ++
  [
   -- B_ID (Table 19-3)
   ⟨0x0000, [], [⟨0, 4, .RO, 0, .S .bdie, .any⟩, ⟨4, 1, .RO, 0, .S .bdie, .any⟩, ⟨8, 1, .RO, 0, .S .bdie, .any⟩]⟩,
   -- B_ERR_FLAGS (Table 19-3)
   ⟨0x0008, [], [⟨0, 1, .W1C, 0, .L, .any⟩]⟩]

/-- The register rows of a block or window. -/
def rowsOf : Blk → List RegRow
  | .card => cardRows
  | .host => hostRows
  | .pwr => pwrRows
  | .sec => secRows
  | .seam => seamRows
  | .chorus => chorusRows
  | .tile => tileRows
  | .cc => ccRows
  | .bdie => bdieRows
  | .msix => []

end Sys2Proof.Machine
end

