-- ==== Sys2Proof/Machine/StateTile.lean ====
section
/-! DEFINITION. State of a tile site: memories, streams, engine queues and the engines' own state (R192-R357). -/

namespace Sys2Proof.Machine

/-- Where an operation stands (Table 8-6): its stream record, the offset of its bundle, its call depth and its address in instruction memory. -/
structure Loc where
  stream   : Nat
  off   : Nat
  depth : Nat
  pc    : Nat
  deriving DecidableEq, Repr

/-- An engine queue entry (R239): an operation or a barrier token. -/
inductive QEntry where
  | op (w : OpWord) (stream off : Nat) (bad : Bool)   -- `bad`: an uncorrectable SRAM error (R404)
  | token (id mask stream off : Nat)
  deriving DecidableEq, Repr

/-- An operation of a stream-mode body in the loop buffer (R249). -/
structure BodyOp where
  w   : OpWord
  stream : Nat
  off : Nat
  bad : Bool
  deriving DecidableEq, Repr

/-- An open hardware loop (R247): positions are loop-buffer indices at depth 0 and byte addresses deeper. -/
structure LoopRec where
  k     : Nat
  left  : Nat      -- iterations not finished, this one included
  depth : Nat
  start : Nat
  fin   : Nat
  deriving DecidableEq, Repr

/-- A call frame: its page and the address of its next operation (R252). -/
structure Frame where
  page : Nat
  pc   : Nat
  deriving DecidableEq, Repr

/-- What an engine waits on at issue (R340). -/
inductive WaitFor where
  | sem (k nw : Nat)
  | sc (i : Nat) (space : Bool) (k : Nat)
  | fe (cell : Nat) (consume : Bool)
  | chorus (g mode : Nat)                  -- a WAIT
  | arrive (g : Nat) (thenWait : Bool)     -- an ARRIVE that waits for the next phase (R351)
  deriving DecidableEq, Repr

structure Waiting where
  what : WaitFor
  loc  : Loc
  deriving DecidableEq, Repr

/-- The most recent ARRIVE of an engine on a group (R351). -/
inductive Arrival where
  | absent | registered | completed | broken
  deriving DecidableEq, Repr

/-- One engine's issue state. -/
structure Engine where
  a      : SMap (BitVec 41)      -- A0-A15
  queue  : List QEntry
  buf    : List BodyOp           -- loop buffer
  ip     : Nat                   -- next operation in the loop buffer
  skip   : Nat                   -- operations still to be skipped by a count of 0
  bodyOf : Nat × Nat             -- record and offset of the LOOP whose body is being taken
  loops  : List LoopRec          -- innermost first
  frames : List Frame            -- innermost first
  root   : Nat × Nat             -- record and offset of the root CALL
  slot   : Nat                   -- issue slots so far (R260)
  wait   : Option Waiting
  arr    : SMap Arrival          -- by group
  deriving DecidableEq, Repr

def Engine.init : Engine :=
  { a := [], queue := [], buf := [], ip := 0, skip := 0, bodyOf := (0, 0), loops := [], frames := [], root := (0, 0),
    slot := 0, wait := none, arr := [] }

/-- A stream record held in a slot (R230, R385). -/
structure SRec where
  serial : Nat
  haddr  : Nat
  len    : Nat
  ring   : Nat
  count  : Nat         -- count of its descriptor
  ident  : Nat         -- SEQ + ring × 2^32
  split  : Bool        -- its last bundle was split
  deriving DecidableEq, Repr

/-- A line of the stream buffer; `data` is none until it returns, `some none` when it is unreadable. -/
structure SLine where
  stream  : Nat
  idx  : Nat
  data : Option (Option Cell64)
  late : Bool          -- the Tadpole waited for it
  deriving DecidableEq, Repr

/-- A predicted line (R233); a prediction that failed holds no buffer line (R234). -/
structure PLine where
  addr : Nat
  data : Option Cell64
  lost : Bool
  deriving DecidableEq, Repr

/-- What a line request is for; a discarded one was a prediction, or named a line of a record. -/
inductive SReq where
  | line (stream idx : Nat)
  | pred (addr : Nat)
  | dead (predicted : Bool)
  deriving DecidableEq, Repr

/-- An outstanding line request with its read tag and the function that sent it (R232, R374, R382). -/
structure SRead where
  tag  : Nat
  fn   : Nat
  what : SReq
  deriving DecidableEq, Repr

/-- The request is discarded: its answer is dropped on arrival (R233, R264). -/
def SReq.drop : SReq → SReq
  | .line _ _ => .dead false
  | .pred _ => .dead true
  | .dead p => .dead p
def SRead.drop (r : SRead) : SRead := { r with what := r.what.drop }

/-- An instruction-memory load that the Tadpole performs (R255). -/
structure Load where
  page  : Nat
  first : Nat
  lines : Nat          -- lines minus 1
  fromPos : Nat        -- offset of the payload
  since : Nat          -- TSC
  told  : Bool         -- event 0x0321 was emitted
  deriving DecidableEq, Repr

/-- A signal on its way to its semaphore (R341). -/
structure Signal where
  eng   : Nat
  k     : Nat
  delta : Int
  loc   : Loc
  deriving DecidableEq, Repr

/-- A copy of the scratchpad's bytes and poison. -/
structure Spad where
  sp   : List (Nat × BitVec 8)
  pois : SMap Bool
  deriving DecidableEq, Repr

/-- An issued MMA (R275). -/
structure MmaJob where
  a    : Nat
  b    : Nat
  sa   : Nat
  sb   : Nat
  ta   : Nat
  tb   : Nat
  bank : Nat
  zero : Bool
  kb   : Nat              -- blocks
  slot : Nat
  loc  : Loc
  snap : Option Spad      -- what it reads, when a later FST has overwritten it (R285)
  deriving DecidableEq, Repr

/-- An accumulator bank before the MMA of an issue slot joined its sum (R261, R284). -/
structure BankPast where
  slot : Nat
  vals : SMap PV
  deriving DecidableEq, Repr
def noPast (_ : Nat) : List BankPast := []

/-- A digit of a store descriptor (Table 9-5). -/
structure Digit where
  ofN    : Bool
  shift  : Nat
  width  : Nat
  stride : Int
  sstride : Int
  deriving DecidableEq, Repr

/-- An issued FST (R277). -/
structure FstJob where
  bank  : Nat
  ot    : Nat
  sat   : Bool
  smode : Bool
  fill  : Bool
  iacc  : Bool
  d     : Nat
  s     : Nat
  dims  : List Digit
  slot  : Nat
  loc   : Loc
  deriving DecidableEq, Repr

/-- An operand of a VOP (Table 10-2). -/
structure VOperand where
  kind    : Nat
  ty      : Nat
  sync    : Nat
  vreg    : Nat
  base    : Nat           -- bytes
  rstride : Int           -- cells
  deriving DecidableEq, Repr

/-- An issued VOP (R292). -/
structure VopJob where
  fn    : Nat
  sat   : Bool
  smode : Bool
  fill  : Bool
  imm   : Nat
  len   : Nat
  rows  : Nat
  i0    : VOperand
  i1    : VOperand
  i2    : VOperand
  o     : VOperand
  slot  : Nat
  loc   : Loc
  deriving DecidableEq, Repr

/-- A watch of an operation in progress (R303, R348). -/
structure Watch where
  cell    : Nat
  consume : Bool
  deriving DecidableEq, Repr

/-- A VOP that has started: its next position, the waits granted for it with the cells they read, and the reduction in progress. -/
structure VRun where
  job    : VopJob
  pos    : Nat
  granted : Nat
  got    : List (Nat × Cell64)
  acc    : List PV
  lanes  : List (Nat × PV)        -- lanes of a stream-register output
  watch  : Option Watch
  acquired : Bool
  pois   : Bool                   -- it has consumed poison
  deriving DecidableEq, Repr

/-- A write of a stream register (R261): the lanes after it. -/
structure VWrite where
  slot  : Nat
  lanes : List PV
  deriving DecidableEq, Repr

/-- A dimension of a tensor descriptor (Table 11-1). -/
structure TDim where
  ext    : Nat
  cnt    : Nat
  lo     : Int
  stride : Int
  deriving DecidableEq, Repr

/-- A tensor descriptor (Table 11-1). -/
structure Tensor where
  space : Nat
  ty    : Nat
  c32   : Bool
  tile  : Nat
  base  : Nat
  len   : Nat
  org   : Nat
  sbase : Nat
  fill  : Nat
  dims  : List TDim
  deriving DecidableEq, Repr

/-- An issued MOVE (R314), with its copies of the entries. -/
structure MoveJob where
  src    : Tensor
  dst    : Tensor
  de     : Nat
  perm   : List Nat
  gs     : Nat
  gdim   : Nat
  aix    : Nat
  sync   : Nat
  fill   : Bool
  rel    : Bool
  soff   : Int
  doff   : Int
  loc    : Loc
  deriving DecidableEq, Repr

/-- A cell of the source as the move received it: its data, or the cause of an error delivery (R334). -/
inductive GotCell where
  | data (c : Cell64)
  | err (cause : Nat)
  deriving DecidableEq, Repr

/-- A move that has begun: its chunk, the waits granted in it, the source cells received and the lines snooped for it (R330). -/
structure MRun where
  job     : MoveJob
  chunk   : Nat
  granted : Nat
  got     : List (Nat × GotCell)     -- by source cell index
  idx     : List (Nat × Cell64)      -- index cells read in the chunk (R321, R330)
  outs    : Option (List (Nat × WriteData))  -- the writes of the chunk that remain, once its elements are moved
  asked   : Bool                     -- its host reads were sent
  wants   : List Nat                 -- host cells not yet answered
  snooped : List Nat
  watch   : Option Watch
  acquired : Bool
  deriving DecidableEq, Repr

/-- A line of the prefetch buffer, or of a prefetch in flight (R207). -/
structure PfLine where
  space : Nat
  tile  : Nat
  addr  : Nat            -- 64 B line: bank-direct key, scratchpad offset or host address
  data  : Half × Half
  stale : Bool
  deriving DecidableEq, Repr

/-- A tile (Table 7-1 and the engines' chapters). -/
structure Tile where
  inReset : Bool
  halted  : Bool                    -- debug halt (R505)
  sp      : List (Nat × BitVec 8)   -- scratchpad bytes; canonical
  spPois  : SMap Bool               -- poison by 32 B unit
  full    : SMap Bool               -- full/empty bit by cell
  imem    : SMap Word               -- by 64-bit word
  imemBad : SMap Bool               -- words with an uncorrectable error
  rc      : List (Nat × Cell64)     -- read cache, most recently used first, by bank-direct line
  rcKeep  : Bool                    -- no invalidation since the demand read that waits at a CC was made: it may allocate (R206)
  pf      : List PfLine
  pfFlight : List PfLine
  recs    : List SRec               -- oldest first
  serial  : Nat                     -- records received
  lines   : List SLine              -- stream order
  preds   : List PLine
  reqs    : List SRead              -- outstanding, oldest first
  pos     : Nat                     -- offset of the next header in the current stream
  load    : Option Load
  tokens  : Nat                     -- barriers split
  engs    : SMap Engine
  inUse   : SMap Nat                -- by page
  signals : List Signal             -- oldest first
  lastGrant : SMap Nat              -- by semaphore
  bankGrant : SMap Nat              -- by scratchpad bank (R196)
  acc0    : SMap PV                 -- accumulator banks: 128 m + n
  acc1    : SMap PV
  mmas    : List MmaJob
  fsts    : List FstJob
  mmaLast : SMap (Option Nat)       -- slot of the last MMA issued into a bank
  past    : SMap (List BankPast)    -- by bank, newest first: what the last four MMAs that ran found
  vregs   : SMap (List VWrite)      -- newest first
  vLast   : SMap (Option Nat)       -- slot of the last writer issued of a stream register
  vops    : List VopJob
  vrun    : Option VRun
  tensors : SMap (Option Tensor)    -- descriptor entries
  moves   : List MoveJob
  mrun    : Option MRun
  dldDone : Bool                    -- the detector fired in this episode
  faultRec : Option (Nat × Nat)     -- ring and count of the stream that carried the faulting operation
  deriving DecidableEq, Repr

/-- A tile held in reset after power-on. -/
def Tile.init : Tile :=
  { inReset := true, halted := false, sp := [], spPois := [], full := [], imem := [], imemBad := [], rc := [], rcKeep := true, pf := [],
    pfFlight := [], recs := [], serial := 0, lines := [], preds := [], reqs := [], pos := 0, load := none, tokens := 0,
    engs := [], inUse := [], signals := [], lastGrant := [], bankGrant := [], acc0 := [], acc1 := [], mmas := [],
    fsts := [], mmaLast := [], past := [], vregs := [], vLast := [], vops := [], vrun := none, tensors := [], moves := [], mrun := none, dldDone := false, faultRec := none }

end Sys2Proof.Machine
end

