-- ==== Sys2Proof/Machine/StateHost.lean ====
section
/-! DEFINITION. State of the host side: descriptor rings, event rings, the consistent cut, the host interface and its coherence state (R359-R432). -/

namespace Sys2Proof.Machine

/-- An event report that has been raised (R424); the data fields stand with their widths in bytes once it is packed. -/
structure Report where
  src  : Nat
  code : Nat
  data : List Nat
  tsc  : Nat
  deriving DecidableEq, Repr

/-- How a descriptor ended (Table 14-5). -/
structure Completion where
  status : Nat
  detail : Nat
  tsc    : Nat
  deriving DecidableEq, Repr

/-- A COPY or FILL in progress (R386): its next 64 B unit, what it met, and the units received from the host. -/
structure CopyRun where
  unit     : Nat
  poisoned : Nat
  data     : List Cell64
  asked    : Nat              -- units asked of the host so far
  snooped  : List Nat
  deriving DecidableEq, Repr

/-- A started descriptor whose record has not been transmitted (R392, R393). -/
structure Live where
  count : Nat
  desc  : BitVec 512
  done  : Option Completion
  copy  : Option CopyRun
  lost  : Bool                -- link-lost (R400)
  deriving DecidableEq, Repr

inductive RingMode where
  | disabled | running | halted
  deriving DecidableEq, Repr

/-- The consistent cut that a halted ring waits for (R422): none, one that is not published, or a run of a number that is not written. -/
inductive CutDue where
  | no
  | unpublished
  | run (num : Nat)
  deriving DecidableEq, Repr

/-- A submission ring with its completion ring (R381-R401). -/
structure RingSt where
  st      : RingMode
  cause   : Nat                       -- Table 14-6
  acc     : Nat                       -- A: SEQ of the last accepted descriptor
  tail    : Nat                       -- T
  fetched : List (Nat × BitVec 512)   -- accepted descriptors not yet started
  fetchAt : Nat                       -- count of the next descriptor to fetch
  startAt : Nat                       -- count of the first descriptor not started
  sentAt  : Nat                       -- count of the next record to transmit
  live    : List Live                 -- ascending count
  short   : Nat                       -- descriptors of the last read that did not match, from `fetchAt` on (R391)
  rereads : Nat
  cutDue  : CutDue
  flush   : Bool                      -- RESUME has let the link-lost records go (R401)
  deriving DecidableEq, Repr

def RingSt.init : RingSt :=
  { st := .disabled, cause := 0, acc := 0, tail := 0, fetched := [], fetchAt := 0, startAt := 0, sentAt := 0, live := [],
    short := 0, rereads := 0, cutDue := .no, flush := false }

/-- A record of an event ring (Table 15-6), its data already packed. -/
structure EvRec where
  tsc   : Nat
  src   : Nat
  code  : Nat
  count : Nat
  data  : Nat
  coal  : Bool
  mixed : Bool
  deriving DecidableEq, Repr

/-- An entry of a coalescing store (R427). -/
structure CoalEntry where
  src   : Nat
  code  : Nat
  count : Nat
  first : Nat
  last  : Nat
  data  : Nat
  mixed : Bool
  window : Bool            -- held only by COAL_WIN
  deriving DecidableEq, Repr

/-- A consistent cut that waits for room in an event ring (R423): its number, the order of its trigger, the rings it names and its records. -/
structure CutRun where
  num   : Nat
  ord   : Nat
  rings : List Nat
  recs  : List EvRec
  deriving DecidableEq, Repr

/-- An event ring (R398, R424-R428). -/
structure EvSt where
  count   : Nat                  -- records written since ENABLE was set
  head    : Nat                  -- last event-head doorbell
  coal    : List CoalEntry
  cuts    : List CutRun          -- cut runs that wait for room
  irqSent : Bool
  roomOut : Option Nat           -- TSC at which room ran out
  told    : Bool                 -- event 0x0206 was written, and the cut runs that follow it are not all written (R423, R428)
  recent  : List (Nat × Nat × Nat)   -- key and TSC of the last record written of a coalesced code
  deriving DecidableEq, Repr

def EvSt.init : EvSt :=
  { count := 0, head := 0, coal := [], cuts := [], irqSent := false, roomOut := none, told := false, recent := [] }

/-- A consistent cut that waits for its rings (R419). -/
structure Cut where
  trigger : Nat
  source  : Nat
  owner   : Nat
  rings   : List Nat
  since   : Nat
  ord     : Nat            -- orders the triggers of the cuts that wait (R428)
  deriving DecidableEq, Repr

/-- A host read request (R374). -/
structure HostRead where
  tag   : Nat
  user  : ReadUser
  fn    : Nat
  addr  : Nat
  bytes : Nat
  deriving DecidableEq, Repr

/-- The committed HDM decoder (R367). -/
structure Hdm where
  base : Nat
  lock : Bool
  deriving DecidableEq, Repr

/-- A back-invalidation that waits for its response (R371); `line` is the bank-direct line number. -/
structure Snoop where
  line    : Nat
  inv     : Bool
  waiters : List ReadUser
  deriving DecidableEq, Repr

/-- A bias change that runs (R373). -/
structure BiasJob where
  region : Nat
  shared : Bool
  deriving DecidableEq, Repr

/-- State of an IDE stream (R376). -/
inductive Ide where
  | clear | secure | insecure
  deriving DecidableEq, Repr

structure IdeStream where
  st   : Ide
  keys : Nat              -- key sets programmed, one bit each
  deriving DecidableEq, Repr

/-- The host interface. -/
structure HostSt where
  bme      : SMap Bool            -- Bus Master Enable by function
  bar4     : Nat                  -- BAR4 size of PF0, GiB; 0 when disabled
  vfBar4   : Nat                  -- BAR4 size of the VFs, GiB
  mps      : Nat                  -- Max_Payload_Size, B
  mrrs     : Nat
  extTag   : Bool
  tag10    : Bool
  tag14    : Bool
  cplTo    : Nat                  -- completion-timeout range A-D as 0-3 (R359)
  cplOff   : Bool                 -- Completion Timeout Disable
  aer      : SMap Word            -- AER uncorrectable error status by function (R359)
  ideIds   : List Nat             -- stream IDs of PF0's link IDE stream and selective IDE stream (R376)
  cxlIde   : Option (Nat × Bool)  -- stream ID of CXL.cachemem IDE, and whether it runs in skid mode (R376)
  hdm      : Option Hdm
  reads    : List HostRead        -- outstanding, oldest first
  waiting  : List HostRead        -- beyond the limits of R374
  stalled  : List ReadUser        -- requesters whose next access is not taken yet (R18, R29, R77, R371, R373)
  dir      : List Nat             -- ownership directory, oldest entry first
  snoops   : List Snoop
  owed     : List Nat             -- evicted lines whose BISnpInv has not been sent
  answered : List (Nat × Nat)     -- tiles with the lines that the host has answered for their request (R371)
  bias     : SMap Bool            -- shared regions
  biasJob  : Option BiasJob
  ide      : SMap IdeStream
  msix     : SMap Word            -- function × 0x2000 + offset in the MSI-X block
  msixOn   : SMap Bool            -- by function: MSI-X Enable is 1 and Function Mask 0
  sent     : List (Nat × Live)    -- completion records transmitted since the link came up, with their rings, latest first (R400)
  cxlHost  : Bool                 -- the host supports CXL
  resetting : List Nat            -- partitions whose reset waits for active passes (R416)
  d3hot    : Bool
  hostTrip : Bool                 -- TRIP of the host bucket
  seamTrip : Bool                 -- TRIP of the seam bucket
  deriving DecidableEq, Repr

/-- A requested Molt (R410): channel, cause of event 0x0684, and the TSC of the request. -/
structure MoltReq where
  chan  : Nat
  cause : Nat
  at_   : Nat
  deriving DecidableEq, Repr

/-- The Molt engine (R410-R414). -/
structure MoltSt where
  queue : List MoltReq             -- waiting, in the order in which they run
  deriving DecidableEq, Repr

end Sys2Proof.Machine
end

