-- ==== Sys2Proof/Machine/StateCard.lean ====
section
/-! DEFINITION. State of the management island: power and thermal control, supplies, bring-up, security and the card's slow interfaces (R433-R528). -/

namespace Sys2Proof.Machine

/-- IN48 (Table 20-4): below 42.0 V, at 42.0 V or more without the condition of Table 16-5, or qualified under it. -/
inductive In48 where
  | absent | present | qualified
  deriving DecidableEq, Repr

/-- The power manager and the supplies. -/
structure PwrSt where
  quiet    : Nat             -- periods in a row of R437 step 2
  beyond   : Bool            -- CMAX and SMAX are ignored (R438)
  since    : Option Nat      -- TSC at which a budget level last left 0
  fastAt   : Option (Nat × Bool)  -- TSC of the latest fast trip and whether it raised the C-die ladder
  cOn      : Option Nat      -- TSC from which PWR_TIME_C has still to count, while CEFF0 or CEFF1 is above 0
  sOn      : Option Nat      -- the same for PWR_TIME_S and the stack levels
  cRest    : Nat             -- ns that PWR_TIME_C and PWR_TIME_S have not counted yet
  sRest    : Nat
  in12     : Bool
  in48     : In48
  prsnt    : Bool            -- PB_PRSNT_N is closed (R522)
  switch   : Bool            -- the IN48 hot-swap switch is on
  rails    : Bool            -- rails 2-43 are on
  c0Only   : Bool            -- of them only C0's: recovery mode (R479)
  perst    : Bool            -- PERST_N is asserted
  lockAt   : Option Nat      -- TSC at which the supply-sag lockout began
  set      : SMap (Option Nat)   -- AVS set points, mV, by die + 2 × island; none: the fused one of the die
  stretch  : SMap (Nat × Nat)    -- stretched cycles of the current droop and the ns they took, by tile
  deriving DecidableEq, Repr

/-- The thermal unit. -/
structure ThermSt where
  floor   : SMap Nat         -- by sensor 0-13
  pf      : SMap Int         -- by stack, in units of 0.1 W / 2^20
  trips   : List Nat         -- TSC of the thermal trips, newest first
  off     : Bool             -- a thermal or undervoltage shutdown keeps the rails off (R452, R455)
  note    : Option Report    -- event to be emitted after the restart
  deriving DecidableEq, Repr

/-- A non-volatile operation that waits (R493). -/
inductive NvOp where
  | commit (chan : Nat) (told : Bool)  -- `told`: event 0x0686 has been emitted for it
  | save
  | roll (svn : Nat) (cmd : Bool)    -- `cmd`: asked for by SEC_FW_CMD
  | update                           -- started by SEC_FW_CMD; it runs at FIRMWARE_UPDATE
  | lifecycle (lc : Nat) (told : Bool)   -- the fuses of a lifecycle state; `told`: event 0x0804 has been emitted for it
  | revoke (slot : Nat) (told : Bool)    -- the fuse of a revoked key slot
  deriving DecidableEq, Repr

/-- Step 2 of an update (R492): the bytes programmed so far. -/
structure UpdateRun where
  bytes : List Byte
  deriving DecidableEq, Repr

/-- Bring-up, fuses and flash. -/
structure BrupSt where
  parts   : FactoryParts     -- fuses, factory table and flash records as they stand
  made    : Bool             -- `parts` are the card's own: it has been powered on once
  flash   : Option Image     -- the firmware image in flash, when the card itself wrote one
  flashBad : Bool            -- an update left the image in flash invalid
  running : Option Image     -- the image that runs
  dies    : Nat              -- C-dies out of reset: 0 none, 1 C0, 2 both
  began   : Nat              -- TSC at which this bring-up began
  logging : Bool             -- EV0 has not been enabled since the last card reset
  log     : List Report      -- bring-up log (R461)
  logCoal : List CoalEntry
  nv      : List NvOp
  update  : Option UpdateRun -- an update in step 2
  extest  : Bool             -- EXTEST is in effect, whatever the TAP holds
  deriving DecidableEq, Repr

/-- An IDE session (R499). -/
structure Session where
  num   : Nat                -- draw of its ML-KEM key pair
  quote : BitVec 256         -- SHA3-256 of the quote
  key   : Option (BitVec 256)
  ivIn  : Nat
  ivOut : Nat
  deriving DecidableEq, Repr

/-- The security engine. -/
structure SecSt where
  idSeed  : Option (BitVec 256)  -- seed of the identity key that the engine holds (R487)
  nonce   : Option (BitVec 256)
  session : Option Session
  unlock  : Bool             -- an invasive grant waits for its card reset (R502)
  deriving DecidableEq, Repr

/-- Time-stamp alignment (R525): state 0 disabled, 1 acquiring, 2 aligned, 3 holdover. -/
structure TsSt where
  period : Nat               -- µs
  offset : Nat               -- ns
  st     : Nat
  err    : Int
  good   : Nat               -- consecutive edges within 100 ns
  last   : Option Nat        -- TSC of the last accepted edge
  trim   : Int               -- trim of the TSC master, ppm
  deriving DecidableEq, Repr

/-- The slow interfaces (R482, R525-R528). -/
structure CardSt where
  ts      : TsSt
  trst    : Bool             -- TRST_N is high at the TAP
  tapIr0  : BitVec 8         -- instruction of C0 and of C1 (R482)
  tapIr1  : BitVec 8
  bound0  : List Bool        -- boundary register of C0 and of C1: the levels that EXTEST drives
  bound1  : List Bool
  page    : Nat              -- page of COUNTERS
  console : List Byte        -- characters accepted by the Felvik console
  deriving DecidableEq, Repr

end Sys2Proof.Machine
end

