-- ==== Sys2Proof/Machine/State.lean ====
section
/-! DEFINITION. The state of the block as plain data, the reasons a step can stop, and the state right after reset. -/

namespace Sys2Proof.Machine

/-- Why the block stops. -/
inductive Fault where
  /-- A supply voltage beyond the absolute ratings of R529, for which the manual defines no behaviour; raised by CONTROL_PERIOD. Safe: nothing is claimed past it. -/
  | beyondRatings
  deriving DecidableEq, Repr

/-- Why a command has no meaning in the model. -/
inductive Refusal where
  /-- The command of that mnemonic is not modelled; raised only by an arm of `exec`. Safe. -/
  | notModelled (mnemonic : String)
  deriving DecidableEq, Repr

/-- What leaves the card, in order. -/
inductive Out where
  | readData (who : Requester) (key : Nat) (data : Cell64)   -- answer to a 64 B read at a CC
  | writeDone (who : Requester) (key : Nat)                  -- a write is complete at its CC (R79)
  | unmapped (who : Requester) (dpa : Nat)                   -- unmapped-address error (R76)
  | nocRead (src : Nat) (data : Cell64)                      -- answer to a NoC read, to the requester's source number
  | nocAck (src : Nat)                                       -- acknowledgement of a NoC write
  | nocError (src : Nat) (write : Bool)                      -- error response or error acknowledgement (R222)
  | hostRead (fn tag addr bytes : Nat)                       -- read request to host memory
  | hostWrite (fn addr : Nat) (mask : Nat) (data : Nat) (ep : Bool)  -- posted write: one mask bit a byte, EP when poisoned
  | msix (fn entry : Nat) (addr data : Nat)                  -- MSI-X message
  | memData (data : Cell64)                                  -- CXL.mem read answer; a poisoned half has Poison set
  | memCmp                                                   -- CXL.mem write completion
  | barData (fn : Nat) (data : Cell64)                       -- BAR4 read completion
  | ur                                                       -- Unsupported Request status
  | regData (fn : Nat) (data : Nat)                          -- BAR0 read completion
  | bisnp (line : Nat) (inv : Bool)                          -- BISnpInv or BISnpCur
  | rspIHitI (line : Nat)                                    -- answer to an H2D snoop
  | doe (bytes : List Byte)                                  -- DOE response
  | smbus (bytes : List Byte) (pec : Byte)                   -- SMBus read data with its PEC
  | nack                                                     -- the final byte of an SMBus command is NACKed
  | tdo (die : Nat) (bits : List Bool)                       -- what a die of the TAP chain shifts out
  | txd (chars : List Byte)                                  -- characters on the UART's TXD
  deriving DecidableEq, Repr

/-- The state of the card. `pending` holds the commands that wait, first in, first out; `free` numbers the free values drawn so far (log 7). -/
structure State where
  pending  : List Instr
  tsc      : Nat                       -- TSC in ns (R7, R26)
  free     : Nat
  regs     : SMap Word                 -- effective register words by BAR0 offset
  pend     : SMap Word                 -- pending class D values
  pendMask : SMap Word                 -- which bits are pending
  mem      : Mem
  ccs      : SMap CcSt
  engs     : SMap EngSt
  bdies    : SMap BdieSt
  tiles    : SMap Tile
  flight   : List (Nat × PassReq)      -- pass-instruction packets on the NoC, by target channel index (R258)
  recsOut  : List (Nat × SRec)         -- stream records on the NoC, by tile
  molt     : MoltSt
  rings    : SMap RingSt
  evs      : SMap EvSt
  cuts     : List Cut                  -- oldest first
  cutNo    : Nat                       -- cuts published so far
  host     : HostSt
  pwr      : PwrSt
  therm    : ThermSt
  brup     : BrupSt
  sec      : SecSt
  card     : CardSt
  reports  : List Report
  out      : List Out
  deriving DecidableEq, Repr

/-- The factory items of a card with nothing fused or recorded: a Production-Locked part (DESIGN CHOICE, log 5). -/
def FactoryParts.blank : FactoryParts :=
  { stepping := 0, serial := 0, lc := 1, idSeed := 0, idKill := 0, idPub := [], idCert := [], revoked := 0, counter := 0, keyHash := [], tiles := [],
    engines := [], rth := [], tau := [], avs := [], vmin := [], vmax := [], config := none, retired := [] }

/-- The host interface after reset: MRRS 512 B, 8-bit tags (R374), Bus Master Enable 0, payloads of 128 B and the default completion timeout (PRESUMED, logs 21 and 70), BAR4 at its largest (DESIGN CHOICE, log 22). -/
def HostSt.init : HostSt :=
  { bme := [], bar4 := 1024, vfBar4 := 1024, mps := 128, mrrs := 512, extTag := true, tag10 := false, tag14 := false, cplTo := 0, cplOff := false,
    aer := [], ideIds := [], cxlIde := none, hdm := none, reads := [],
    waiting := [], stalled := [], dir := [], snoops := [], owed := [], answered := [], bias := [], biasJob := none, ide := [], msix := [], msixOn := [], sent := [], cxlHost := false, resetting := [], d3hot := false,
    hostTrip := false, seamTrip := false }

/-- Power and supplies at power-on of the management island: IN12 has arrived, IN48 and its presence contact have not been seen, rails are off and PERST_N is asserted (log 3). -/
def PwrSt.init : PwrSt :=
  { quiet := 0, beyond := false, since := none, fastAt := none, cOn := none, sOn := none, cRest := 0, sRest := 0, in12 := true,
    in48 := .absent, prsnt := false, switch := false, rails := false, c0Only := false, perst := true, lockAt := none, set := [], stretch := [] }

def ThermSt.init : ThermSt := { floor := [], pf := [], trips := [], off := false, note := none }

def BrupSt.init : BrupSt :=
  { parts := FactoryParts.blank, made := false, flash := none, flashBad := false, running := none, dies := 0, began := 0, logging := true, log := [], logCoal := [], nv := [],
    update := none, extest := false }

def SecSt.init : SecSt := { idSeed := none, nonce := none, session := none, unlock := false }

/-- Alignment is disabled at reset; the TAP is in reset and holds IDCODE (PRESUMED from IEEE 1149.1, log 21; its code is a DESIGN CHOICE). -/
def CardSt.init : CardSt :=
  { ts := { period := 0, offset := 0, st := 0, err := 0, good := 0, last := none, trim := 0 }, trst := false, tapIr0 := 1, tapIr1 := 1,
    bound0 := [], bound1 := [], page := 0,
    console := [] }

/-- The state right after power-on reset of the management island, before bring-up (R14, R26, R458; log 3). -/
def State.reset : State :=
  { pending := [], tsc := 0, free := 0, regs := [], pend := [], pendMask := [],
    mem := { bytes := [], poison := [], errs := [] }, ccs := [], engs := [], bdies := [], tiles := [], flight := [],
    recsOut := [], molt := { queue := [] }, rings := [], evs := [], cuts := [], cutNo := 0, host := HostSt.init,
    pwr := PwrSt.init, therm := ThermSt.init, brup := BrupSt.init, sec := SecSt.init, card := CardSt.init, reports := [],
    out := [] }

end Sys2Proof.Machine
end

