-- ==== Sys2Proof/Machine/Ops.lean ====
section
/-! DEFINITION. The named operations over registers, events, buckets and storage that every command's meaning is written with. -/

namespace Sys2Proof.Machine

/-- The outcome of a command that always has a next state. -/
abbrev Res := Host.Outcome State Fault Refusal

/-- A number with bit `i` set for each `i` below `n` that `p` holds of. -/
def bitsWhere (n : Nat) (p : Nat → Bool) : Nat := (List.range n).foldl (fun a i => if p i then a + 2 ^ i else a) 0

/-! ### Bases of blocks and windows (R510) -/

def cardB : Nat := 0x0000000
def hostB : Nat := 0x0100000
def pwrB : Nat := 0x0200000
def secB : Nat := 0x0300000
def seamB : Nat := 0x0400000
def chorusB : Nat := 0x0800000
def msixB : Nat := 0x0F00000
/-- Window of tile ID `t`. -/
def tileB (t : Nat) : Nat := 0x1000000 + t * 0x8000
/-- Window of the CC of channel index `c` (source 0x200 + c). -/
def ccB (c : Nat) : Nat := 0x2000000 + c * 0x8000
/-- Window of the B-die of stack `s`. -/
def bdB (s : Nat) : Nat := 0x2C00000 + s * 0x10000

/-! ### Sites, channels and sources (R17, R37, R192) -/

/-- The ID names a site (R192). -/
def isSite (t : Nat) : Bool := decide (t < 512 ∧ t / 16 % 16 < 10 ∧ t % 16 < 10)
/-- Every site, in rising ID order. -/
def sites : List Nat := (List.range 512).filter isSite
def ccSrc (c : Nat) : Nat := 0x200 + c
def bdSrc (s : Nat) : Nat := 0x380 + s
def seamSrc : Nat := 0x390
def hostSrc : Nat := 0x3A0
def ringSrc : Nat := 0x3A1
def pwrSrc : Nat := 0x3B0
def thermSrc : Nat := 0x3B1
def felvikSrc : Nat := 0x3C0
def secSrc : Nat := 0x3D0

/-! ### Locating a register (R510) -/

/-- A place in BAR0: block, unit number in it and offset relative to the block or window. -/
structure Place where
  blk  : Blk
  unit : Nat
  rel  : Nat
  deriving DecidableEq, Repr

/-- The block or window that an absolute offset lies in (Table 19-1). -/
def placeOf (off : Nat) : Option Place :=
  if off < 0x100000 then some ⟨.card, 0, off⟩
  else if off < 0x200000 then some ⟨.host, 0, off - 0x100000⟩
  else if off < 0x300000 then some ⟨.pwr, 0, off - 0x200000⟩
  else if off < 0x400000 then some ⟨.sec, 0, off - 0x300000⟩
  else if off < 0x500000 then some ⟨.seam, 0, off - 0x400000⟩
  else if off < 0x800000 then none
  else if off < 0x900000 then some ⟨.chorus, 0, off - 0x800000⟩
  else if off < 0xF00000 then none
  else if off < 0xF02000 then some ⟨.msix, 0, off - 0xF00000⟩
  else if off < 0x1000000 then none
  else if off < 0x2000000 then
    if isSite ((off - 0x1000000) / 0x8000) then some ⟨.tile, (off - 0x1000000) / 0x8000, off % 0x8000⟩ else none
  else if off < 0x2C00000 then some ⟨.cc, (off - 0x2000000) / 0x8000, off % 0x8000⟩
  else if off < 0x2CC0000 then some ⟨.bdie, (off - 0x2C00000) / 0x10000, off % 0x10000⟩
  else none

/-- A relative offset lies on an element of the row. -/
def rowHit (r : RegRow) (rel : Nat) : Bool :=
  match r.dims with
  | [] => decide (rel = r.off)
  | [(s, n)] => decide (r.off ≤ rel ∧ (rel - r.off) % s = 0 ∧ (rel - r.off) / s < n)
  | (s, n) :: (s2, n2) :: _ =>
    decide (r.off ≤ rel ∧ (rel - r.off) / s < n ∧ (rel - r.off) % s % s2 = 0 ∧ (rel - r.off) % s / s2 < n2)

/-- The row of a relative offset in a block. -/
def findRow (b : Blk) (rel : Nat) : Option RegRow := (rowsOf b).find? (rowHit · rel)

/-- Die-local default bank masks (Table 3-3). -/
def localMasks : List Nat := [0x0008420000, 0x0010840000, 0x0021080000, 0x0042100000, 0x0084200000]
/-- Card-wide default bank masks (Table 3-3). -/
def wideMasks : List Nat := [0x0010840000, 0x0021080000, 0x0042100000, 0x0084200000, 0x0108400000]

/-- The word of a row at its table's reset values. -/
def rowReset (r : RegRow) : Nat := r.fields.foldl (fun a f => a + f.reset * 2 ^ f.lo) 0

/-- The identity fields that depend on the unit, and the bank masks (R17, Tables 3-3, 3-7, 7-8, 19-3). -/
def unitReset (p : Place) : Nat :=
  match p.blk with
  | .cc =>
    if p.rel = 0 then (0x200 + p.unit) + p.unit / 32 * 2 ^ 16 + p.unit % 32 * 2 ^ 24 + (if p.unit < 192 then 0 else 1) * 2 ^ 32
    else if 0x28 ≤ p.rel ∧ p.rel ≤ 0x48 then localMasks.getD ((p.rel - 0x28) / 8) 0
    else 0
  | .tile => if p.rel = 0 then p.unit else 0
  | .sec => if p.rel = 0 then 1 else 0   -- Production-Locked (log 5)
  | .card => if 0x50 ≤ p.rel ∧ p.rel ≤ 0x70 then localMasks.getD ((p.rel - 0x50) / 8) 0 else 0   -- no boot configuration record (log 5)
  | .bdie => if p.rel = 0 then p.unit + (if p.unit < 6 then 0 else 1) * 2 ^ 8 else 0
  | _ => 0

/-- What a register holds that nothing has written: the value after power-on reset of its island (R14). -/
def regReset (off : Nat) : Word :=
  match placeOf off with
  | some p =>
    match findRow p.blk p.rel with
    | some r => BitVec.ofNat 64 (rowReset r + unitReset p)
    | none => 0
  | none => 0

/-! ### Registers -/

/-- The effective word of a register. -/
def State.word (s : State) (off : Nat) : Nat := (look regReset s.regs off).toNat

/-- Replace the effective word of a register. -/
def State.setWord (s : State) (off v : Nat) : State :=
  { s with regs := put regReset s.regs off (BitVec.ofNat 64 v) }

/-- The effective value of a field. -/
def State.rd (s : State) (base : Nat) (f : Fld) : Nat := bitsOf (s.word (base + f.off)) f.lo f.w

/-- Set the effective value of a field. -/
def State.wr (s : State) (base : Nat) (f : Fld) (v : Nat) : State :=
  s.setWord (base + f.off) (setBits (s.word (base + f.off)) f.lo f.w v)

/-- A field of one bit as a truth value. -/
def State.flag (s : State) (base : Nat) (f : Fld) : Bool := decide (s.rd base f = 1)

/-- Set a bit field. -/
def State.raise (s : State) (base : Nat) (f : Fld) : State := s.wr base f 1
/-- Clear a bit field. -/
def State.clear (s : State) (base : Nat) (f : Fld) : State := s.wr base f 0

/-- No value is pending for an unlisted register. -/
def noPend (_ : Nat) : Word := 0

/-- The mask of a field within its word. -/
def Fld.mask (f : Fld) : Nat := (2 ^ f.w - 1) * 2 ^ f.lo

/-- The word a read returns: pending class D values where there are any (Table 0-4). -/
def State.latest (s : State) (off : Nat) : Nat :=
  let m := (look noPend s.pendMask off).toNat
  (s.word off &&& (2 ^ 64 - 1 - m)) ||| ((look noPend s.pend off).toNat &&& m)

/-- A class D field's boundary comes: its pending value, if any, becomes effective (R12). -/
def State.effect (s : State) (base : Nat) (f : Fld) : State :=
  let off := base + f.off
  let m := (look noPend s.pendMask off).toNat
  if m &&& f.mask = 0 then s
  else
    let v := bitsOf (look noPend s.pend off).toNat f.lo f.w
    let s := s.wr base f v
    { s with pendMask := put noPend s.pendMask off (BitVec.ofNat 64 (m &&& (2 ^ 64 - 1 - f.mask))) }

/-- Several boundaries at once. -/
def State.effects (s : State) (base : Nat) (l : List Fld) : State := l.foldl (fun a f => a.effect base f) s

/-! ### Events (R424) and counters (R225) -/

/-- Raise an event report. -/
def State.emit (s : State) (src code : Nat) (data : List Nat) : State :=
  { s with reports := s.reports ++ [⟨src, code, data, s.tsc⟩] }

/-- Send something out of the card. -/
def State.send (s : State) (o : Out) : State := { s with out := s.out ++ [o] }

/-- Add to a saturating counter field. -/
def State.sat (s : State) (base : Nat) (f : Fld) (n : Nat) : State := s.wr base f (satAdd f.w (s.rd base f) n)

/-- Add to a wrapping counter; on wrapping it emits its wrap event with the register's offset in its window. -/
def State.count (s : State) (base : Nat) (f : Fld) (n src code : Nat) : State :=
  let v := s.rd base f + n
  let s := s.wr base f v
  if v < 2 ^ f.w then s else s.emit src code [f.off]

/-- A counter of a tile window (R225). -/
def State.countT (s : State) (t : Nat) (f : Fld) (n : Nat) : State := s.count (tileB t) f n t 0x0303
/-- A counter of a CC window (R168, R225). -/
def State.countC (s : State) (c : Nat) (f : Fld) (n : Nat) : State := s.count (ccB c) f n (ccSrc c) 0x0548
/-- A counter of a B-die window (R168). -/
def State.countB (s : State) (k : Nat) (f : Fld) (n : Nat) : State := s.count (bdB k) f n (bdSrc k) 0x0508
/-- A ring-engine counter of the host block (Table 14-7: 0x0209; Table 15-8: 0x068F). -/
def State.countR (s : State) (f : Fld) (n code : Nat) : State := s.count hostB f n ringSrc code

/-- A fresh free value's number; each is used once (log 7). -/
def State.fresh (s : State) : Nat × State := (s.free, { s with free := s.free + 1 })

/-! ### Units -/

/-- A CC that has done nothing. -/
def CcSt.init : CcSt :=
  { pool := [], landed := [], rows := [], ptr := 0, hits := [], pim := false, queue := [], ingress := [], active := none,
    retried := false, claimAt := none, dist := [], maint := [], waiting := [], nextId := 0, slot := 0, epoch := 0,
    refresh := false, scrub := 0, scrubAt := none, replays := [], lost := [], preaAt := [], panic := false, panicAt := 0, yields := 0, trip := false }

/-- A merge destination that is FREE. -/
def Dest.init : Dest :=
  { st := .free, key := ⟨0, 0, 0, 0, 0⟩, taken := [], since := 0, limit := 0, ml := [], uses := 0, timeout := false,
    poisons := 0, inv := false, ovf := false, spoiled := [], cells := [], sent := false, dropAt := none, doneAt := 0 }

def BdieSt.init : BdieSt := { arrived := [], dests := [], activeAt := none }

def State.cc (s : State) (c : Nat) : CcSt := look (fun _ => CcSt.init) s.ccs c
def State.setCc (s : State) (c : Nat) (v : CcSt) : State := { s with ccs := put (fun _ => CcSt.init) s.ccs c v }
def State.eng (s : State) (b : Nat) : EngSt := look (fun _ => EngSt.blank) s.engs b
def State.setEng (s : State) (b : Nat) (v : EngSt) : State := { s with engs := put (fun _ => EngSt.blank) s.engs b v }
def State.bd (s : State) (k : Nat) : BdieSt := look (fun _ => BdieSt.init) s.bdies k
def State.setBd (s : State) (k : Nat) (v : BdieSt) : State := { s with bdies := put (fun _ => BdieSt.init) s.bdies k v }
def BdieSt.dest (b : BdieSt) (d : Nat) : Dest := look (fun _ => Dest.init) b.dests d
def BdieSt.setDest (b : BdieSt) (d : Nat) (v : Dest) : BdieSt := { b with dests := put (fun _ => Dest.init) b.dests d v }
def State.tile (s : State) (t : Nat) : Tile := look (fun _ => Tile.init) s.tiles t
def State.setTile (s : State) (t : Nat) (v : Tile) : State := { s with tiles := put (fun _ => Tile.init) s.tiles t v }

/-! ### Floor plan and debug level -/

/-- The floor plan lists the tile (R193). -/
def State.enabled (s : State) (t : Nat) : Bool := isSite t && bit (s.rd cardB (FP_TILES_TILES.at (8 * (t / 64)))) (t % 64)
/-- The channel is retired (R412). -/
def State.retired (s : State) (c : Nat) : Bool := s.flag (ccB c) CC_STATUS_RETIRED
/-- The bank engine is OFF: disabled by the floor plan or on a retired channel (Table 4-5). -/
def State.engOff (s : State) (c g p : Nat) : Bool :=
  s.retired c || bit (s.rd cardB (FP_ENGOFF_OFF.at (8 * (2 * c + g)))) p
/-- The tile answers packets: enabled and out of reset (R222). -/
def State.tileUp (s : State) (t : Nat) : Bool := s.enabled t && !(s.tile t).inReset
/-- The die is out of reset (R464). -/
def State.dieUp (s : State) (d : Nat) : Bool := decide (d < s.brup.dies)
/-- Debug level: 0 none, 1 non-invasive, 2 invasive (R502). -/
def State.debugLevel (s : State) : Nat := s.rd secB SEC_DBG_LEVEL

/-! ### Partitions (R365, R415) -/

/-- HOST_PART1_TILES to HOST_PART8_TILES, here numbered from 0, name a tile; HOST_PARTk_STACKS a stack (R363). -/
def State.partHasTile (s : State) (k t : Nat) : Bool := bit (s.rd hostB (HOST_PART_TILES_TILES.at (0x40 * k + 8 * (t / 64)))) (t % 64)
def State.partHasStack (s : State) (k i : Nat) : Bool := bit (s.rd hostB (HOST_PART_STACKS_STACKS.at (8 * k))) i
/-- The partition that owns a tile: 0 for PF0. -/
def State.tileOwner (s : State) (t : Nat) : Nat := ((List.range 8).find? (fun k => s.partHasTile k t)).elim 0 (· + 1)
/-- The partition that owns a stack: 0 for PF0. -/
def State.stackOwner (s : State) (k : Nat) : Nat := ((List.range 8).find? (fun i => s.partHasStack i k)).elim 0 (· + 1)
/-- A partition owns all twelve stacks. -/
def State.ownsAll (s : State) (k : Nat) : Bool :=
  decide (1 ≤ k) && decide (s.rd hostB (HOST_PART_STACKS_STACKS.at (8 * (k - 1))) = 0xFFF)

/-! ### Bytes with poison units (R405, R406) -/

/-- An unlisted byte reads 0 (log 6). -/
def zeroByte (_ : Nat) : BitVec 8 := 0
def noMark (_ : Nat) : Bool := false

/-- A store of bytes with one poison mark for each 32 B unit. -/
structure Bytes where
  bytes  : List (Nat × BitVec 8)
  poison : SMap Bool
  deriving DecidableEq, Repr

/-- The bytes of unit `u` from byte `32 u`, as a little-endian number. -/
def Bytes.raw (b : Bytes) (u : Nat) : Nat := leNat ((List.range 32).map (fun i => look zeroByte b.bytes (32 * u + i)))

/-- Read one unit. -/
def Bytes.half (b : Bytes) (u : Nat) : Half :=
  if look noMark b.poison u then none else some (BitVec.ofNat 256 (b.raw u))

/-- Write the bytes of unit `u` that `mask` selects. -/
def Bytes.store (b : Bytes) (u mask v : Nat) : Bytes :=
  { b with bytes := upto 32 (fun i m => if bit mask i then put zeroByte m (32 * u + i) (byteOf v i) else m) b.bytes }

/-- Poison a unit; the bytes beneath are undefined and none is kept (R63). -/
def Bytes.spoil (b : Bytes) (u : Nat) : Bytes :=
  let b := b.store u (2 ^ 32 - 1) 0
  { b with poison := put noMark b.poison u true }

/-- A write of one unit under a byte mask (R406). -/
def Bytes.write (b : Bytes) (u mask : Nat) (v : Half) : Bytes :=
  if mask % 2 ^ 32 = 0 then b
  else
    match v with
    | none => b.spoil u
    | some x =>
      if mask % 2 ^ 32 = 2 ^ 32 - 1 then
        let b := b.store u (2 ^ 32 - 1) x.toNat
        { b with poison := put noMark b.poison u false }
      else if look noMark b.poison u then b
      else b.store u mask x.toNat

/-- Read a 64 B cell at cell index `i`. -/
def Bytes.cell (b : Bytes) (i : Nat) : Cell64 := ⟨b.half (2 * i), b.half (2 * i + 1)⟩

/-- Write a 64 B cell under a byte mask. -/
def Bytes.writeCell (b : Bytes) (i : Nat) (w : WriteData) : Bytes :=
  (b.write (2 * i) (w.mask.toNat % 2 ^ 32) w.data.lo).write (2 * i + 1) (w.mask.toNat / 2 ^ 32) w.data.hi

/-- A write of all 64 bytes. -/
def WriteData.whole (c : Cell64) : WriteData := ⟨BitVec.ofNat 64 (2 ^ 64 - 1), c⟩

/-! ### Scratchpad (R195-R201) -/

def Tile.spad (t : Tile) : Bytes := ⟨t.sp, t.spPois⟩
def Tile.setSpad (t : Tile) (b : Bytes) : Tile := { t with sp := b.bytes, spPois := b.poison }

/-- A scratchpad bank that has granted nothing: the rotation starts at the MXE (DESIGN CHOICE, log 19). -/
def bankGrantInit (_ : Nat) : Nat := 4
/-- The scratchpad bank of a cell (R195). -/
def bankOfCell (cell : Nat) : Nat := cell % 32
/-- The banks grant accesses of requester `e` to cells, in order: each bank's rotation goes on after it (R196). Requesters are the engines by their numbers, and 4 the Tadpole. -/
def Tile.bankUse (x : Tile) (e : Nat) (cells : List Nat) : Tile :=
  { x with bankGrant := cells.foldl (fun (m : SMap Nat) c => put bankGrantInit m (bankOfCell c) e) x.bankGrant }
def State.bankUse (s : State) (t e : Nat) (cells : List Nat) : State := s.setTile t ((s.tile t).bankUse e cells)
/-- Cells of an inclusive byte span, as far as they name different banks. -/
def spanCells (lo hi : Nat) : List Nat := (List.range (min 32 (hi / 64 + 1 - lo / 64))).map (· + lo / 64)

/-- A plain read of cell `i`. -/
def State.spCell (s : State) (t i : Nat) : Cell64 := (s.tile t).spad.cell i

/-- A write of cell `i` that leaves the full/empty bit unchanged. -/
def State.spWrite (s : State) (t i : Nat) (w : WriteData) : State :=
  s.setTile t ((s.tile t).setSpad ((s.tile t).spad.writeCell i w))

/-- The cell is full. -/
def State.isFull (s : State) (t i : Nat) : Bool := look noMark (s.tile t).full i

/-- Set or clear a full/empty bit. -/
def State.setFull (s : State) (t i : Nat) (v : Bool) : State :=
  s.setTile t { s.tile t with full := put noMark (s.tile t).full i v }

/-- A cell fills: an overrun is recorded when it was full already (R201); `writer` is the writer's source number. -/
def State.fill (s : State) (t i writer : Nat) : State :=
  let s := if s.isFull t i then
      ((s.raise (tileB t) TILE_FE_STAT_OVERRUN).wr (tileB t) TILE_FE_STAT_OVR_CELL i).emit t 0x0302 [i, writer]
    else s
  s.setFull t i true

/-- A filling write (R199, R200). -/
def State.spFill (s : State) (t i writer : Nat) (w : WriteData) : State := (s.spWrite t i w).fill t i writer

/-- The tile that a packet names cannot take it: why, 0 when it can (R222). -/
def State.nocCause (s : State) (t : Nat) : Nat :=
  if !isSite t then 3 else if !s.enabled t then 1 else if (s.tile t).inReset then 2 else 0

/-- Event 0x0301 for a packet that R222 answers; `src` is the requester's source number and `entry` that of the unit through whose port it entered. -/
def State.nocError (s : State) (t src entry plane : Nat) (write : Bool) : State :=
  let c := s.nocCause t
  s.emit (if c = 3 then entry else t) 0x0301 [src, t, plane, if write then 1 else 0, c]

/-- A tile request met an error response (Table 7-8). -/
def State.tileNocErr (s : State) (t eng dest plane : Nat) : State :=
  let b := tileB t
  (((((s.raise b TILE_ERR_FLAGS_NOC_ERR).wr b TILE_NOC_ERRLOG_DEST dest).wr b TILE_NOC_ERRLOG_PLANE plane).wr b
    TILE_NOC_ERRLOG_ENGINE eng).raise b TILE_NOC_ERRLOG_VALID)

/-! ### The host link (R364, R377) -/

def State.bme (s : State) (f : Nat) : Bool := look noMark s.host.bme f
def State.dlUp (s : State) : Bool := s.flag hostB HOST_LINK_STAT_DL_UP
/-- The card may make requests for function `f` (R364, R377). -/
def State.hostLive (s : State) (f : Nat) : Bool := s.bme f && s.dlUp

/-! ### Device addresses (R71-R76) -/

/-- Channel index of a bank-direct key. -/
def keyChan (key : Nat) : Nat := bitsOf key 36 4 * 32 + bitsOf key 31 5
/-- Bank number SID × 32 + bank of a key. -/
def keyBank (key : Nat) : Nat := bitsOf key 29 2 * 32 + bitsOf key 24 5
/-- Row of a key. -/
def keyRow (key : Nat) : Nat := bitsOf key 11 13
/-- The key of a byte from its place (Table 3-2). -/
def mkKey (chan bank row byte : Nat) : Nat := chan * 2 ^ 31 + bank * 2 ^ 24 + row * 2 ^ 11 + byte

/-- The decode of the interleaved window (R72): stack, channel, SID × 32 + bank, row, byte. -/
def interleaved (masks : List Nat) (wide : Bool) (a : Nat) : Option Nat :=
  if 0xC000000000 ≤ a then none
  else
    let bank := (List.range 5).foldl (fun n i => n + (if parity 40 (a &&& masks.getD i 0) then 2 ^ i else 0)) 0
    if wide then
      let u := bitsOf a 23 17
      let stack := u % 3 * 4 + bitsOf a 13 2
      let q := u / 3
      some (mkKey (stack * 32 + bitsOf a 8 5) (q / 2 ^ 13 % 4 * 32 + bank) (q % 2 ^ 13) (bitsOf a 15 3 * 256 + a % 256))
    else
      let die := if a < 0x6000000000 then 0 else 1
      let b := a - die * 0x6000000000
      let u := bitsOf b 22 18
      let stack := die * 6 + u % 3 * 2 + bitsOf b 13 1
      let q := u / 3
      some (mkKey (stack * 32 + bitsOf b 8 5) (q / 2 ^ 13 % 4 * 32 + bank) (q % 2 ^ 13) (bitsOf b 14 3 * 256 + a % 256))

/-- What a DPA names. -/
inductive Dpa where
  | at (key : Nat)            -- a location, by bank-direct DPA[39:0]
  | noCc                      -- unmapped, and no CC is named (R76)
  | refused (chan : Nat)      -- unmapped because that CC's interleaved window is closed (R74)
  deriving DecidableEq, Repr

/-- The bank masks of a CC. -/
def State.masks (s : State) (c : Nat) : List Nat := (List.range 5).map (fun i => s.rd (ccB c) (CC_BANK_MASK_MASK.at (8 * i)))

/-- Decode a 41-bit DPA (R71, R72, R75). The masks and the mode read alike in every CC (R74). While the interleaved window is not open, an address in it is unmapped and counts as refused (DESIGN CHOICE, log 66). -/
def State.decodeDpa (s : State) (a : Nat) : Dpa :=
  if bit a 40 then
    if bitsOf a 36 4 < 12 then .at (a % 2 ^ 40) else .noCc
  else
    match interleaved (s.masks 0) (s.flag (ccB 0) CC_ILV_CTRL_MODE) (a % 2 ^ 40) with
    | none => .noCc
    | some k =>
      let c := keyChan k
      if s.flag (ccB c) CC_ILV_CTRL_ENABLE && !s.flag (ccB c) CC_ILV_CTRL_MASK_BAD then .at k else .refused c

/-! ### Leaky buckets (R407-R409) -/

/-- The channel is being molted and accepts no further request (R411). -/
def State.molting (s : State) (c : Nat) : Bool :=
  s.flag hostB FLT_MOLT_STAT_BUSY && decide (s.rd hostB FLT_MOLT_STAT_ACTIVE = c)

/-- A request takes its place: equal TSC in ascending source number (R410). -/
def insertMolt (m : MoltReq) : List MoltReq → List MoltReq
  | [] => [m]
  | q :: r => if q.at_ = m.at_ ∧ m.chan < q.chan then m :: q :: r else q :: insertMolt m r

/-- A Molt is requested (R410): cause 1 bucket, 2 command. A channel already retired or queued is refused. -/
def State.requestMolt (s : State) (c cause : Nat) : State :=
  if s.retired c || s.molt.queue.any (fun q => decide (q.chan = c)) || s.molting c then
    s.raise hostB FLT_MOLT_STAT_REFUSED
  else { s with molt := { s.molt with queue := insertMolt ⟨c, cause, s.tsc⟩ s.molt.queue } }

/-- An error adds weight to a channel's bucket; a crossing of TH is a permanent fault (R407, R409). -/
def State.chanError (s : State) (c weight : Nat) : State :=
  let l := satAdd 16 (s.rd (ccB c) CC_BKT_LEVEL) weight
  let s := s.wr (ccB c) CC_BKT_LEVEL l
  if s.rd hostB FLT_BKT_CTRL_TH ≤ l ∧ !(s.cc c).trip then
    let s := s.setCc c { s.cc c with trip := true }
    let s := (s.raise (ccB c) CC_BKT_PERM).emit (ccSrc c) 0x0683 [l, weight]
    s.requestMolt c 1
  else s

/-! ### Column ECC (R96-R99) -/

def Mem.store (m : Mem) : Bytes := ⟨m.bytes, m.poison⟩
def Mem.setStore (m : Mem) (b : Bytes) : Mem := { m with bytes := b.bytes, poison := b.poison }
def noErr (_ : Nat) : Nat := 0
/-- Wrong bits standing in a column. -/
def Mem.err (m : Mem) (col : Nat) : Nat := look noErr m.errs col
def Mem.setErr (m : Mem) (col n : Nat) : Mem := { m with errs := put noErr m.errs col n }

/-- A further error in a column: a single-bit error adds one wrong bit, so that two make a double (R97) and three lie outside the classes of R96; class 2 or 3 says what all wrong bits of the column then amount to. -/
def Mem.strike (m : Mem) (k : Strike) : Mem :=
  let old := m.err k.col
  m.setErr k.col (min 3 (max old (if 2 ≤ k.cls then k.cls else old + k.cls)))

/-- Errors strike columns of channel `c` only. -/
def State.strike (s : State) (c : Nat) (l : List Strike) : State :=
  { s with mem := l.foldl (fun m k => if keyChan (32 * k.col) = c then m.strike k else m) s.mem }

/-- How the check of R96 sees a column. -/
inductive Seen where
  | clean (d : BitVec 256)
  | corrected (d : BitVec 256)
  | uncorrectable
  | code                     -- the poison code
  deriving DecidableEq, Repr

/-- The check of a column; errors outside the classes of R96 are seen as the free values of log 10 say. -/
def State.check (s : State) (col : Nat) : Seen × State :=
  let e := s.mem.err col
  match s.mem.store.half col with
  | none =>
    if e ≤ 1 then (.code, s)
    else
      let (n, s) := s.fresh
      (if Config.poisonCodeHolds n then .code else .uncorrectable, s)
  | some d =>
    if e = 0 then (.clean d, s)
    else if e = 1 then (.corrected d, s)
    else if e = 2 then (.uncorrectable, s)
    else
      let (n, s) := s.fresh
      if Config.eccBeyond n = 0 then (.clean (Config.eccBeyondData n), s)
      else if Config.eccBeyond n = 1 then (.corrected (Config.eccBeyondData n), s)
      else (.uncorrectable, s)

/-- The bank-direct DPA of a column. -/
def colDpa (col : Nat) : Nat := 2 ^ 40 + 32 * col

/-- The reader of a prefetch, which Table 3-9 does not list: its column errors count as those of any read, and no event is raised (R208, R408). -/
def quietReader : Nat := 0

/-- The event of a column error, with its reader. -/
def State.colEvent (s : State) (c code col reader : Nat) : State :=
  if reader = quietReader then s else s.emit (ccSrc c) code [colDpa col, reader]

/-- An uncorrectable error is recorded, reported and counted (R98). -/
def State.uncorrectable (s : State) (c col reader : Nat) : State :=
  let b := ccB c
  let s := ((s.wr b CC_ECC_LOG_DPA (colDpa col)).raise b CC_ECC_LOG_VALID).colEvent c 0x0602 col reader
  let s := s.sat b CC_ECC_CNT_UNCORRECTED 1
  s.chanError c (s.rd hostB FLT_BKT_CTRL_W_UE)

/-- A corrected error is reported and counted (R97). -/
def State.correctedErr (s : State) (c col reader : Nat) : State :=
  let s := (s.colEvent c 0x0601 col reader).sat (ccB c) CC_ECC_CNT_CORRECTED 1
  s.chanError c (s.rd hostB FLT_BKT_CTRL_W_CE)

/-- Read one column of channel `c` with its check (R96-R99): the data delivered, whether it was corrected, and the state. Reader codes are those of Table 3-9. -/
def State.readCol (s : State) (c col reader : Nat) : Half × Bool × State :=
  match s.check col with
  | (.clean d, s) => (some d, false, s)
  | (.corrected d, s) => (some d, true, s.correctedErr c col reader)
  | (.uncorrectable, s) => (none, false, s.uncorrectable c col reader)
  | (.code, s) => (none, false, s)

/-- A full-column write with valid check bits, or the poison code (R99). -/
def Mem.writeCol (m : Mem) (col : Nat) (v : Half) : Mem :=
  (m.setStore (m.store.write col (2 ^ 32 - 1) v)).setErr col 0

/-- A write of part of a column by read-modify-write: it stores the poison code when the read finds poison or an uncorrectable error (R99, R406). -/
def State.writePart (s : State) (c col mask : Nat) (v : Half) : State :=
  if mask % 2 ^ 32 = 0 then s
  else if mask % 2 ^ 32 = 2 ^ 32 - 1 then { s with mem := s.mem.writeCol col v }
  else
    let (old, _, s) := s.readCol c col 4
    match old, v with
    | some d, some x =>
      let n := upto 32 (fun i a => if bit mask i then setBits a (8 * i) 8 (bitsOf x.toNat (8 * i) 8) else a) d.toNat
      { s with mem := s.mem.writeCol col (some (BitVec.ofNat 256 n)) }
    | _, _ => { s with mem := s.mem.writeCol col none }

/-! ### Row-disturbance protection (R91-R94) -/

def noRow (_ : Nat) : Option Nat := none

/-- The die of a tile, and of a channel (R16, R192). -/
def tileDie (t : Nat) : Nat := t / 256
def chanDie (c : Nat) : Nat := if c < 192 then 0 else 1

/-- Traffic between the dies waits: the seam link is down, or holds it for a retrain (R18, R409). -/
def State.seamHeld (s : State) (a b : Nat) : Bool :=
  decide (a ≠ b) && (!s.flag seamB SEAM_STAT_UP || s.flag seamB SEAM_STAT_HOLD)

/-- A packet for a tile ID waits for the seam link; one to an ID that names no site never enters the mesh (R222). -/
def State.nocHeld (s : State) (die t : Nat) : Bool := isSite t && s.seamHeld die (tileDie t)

/-- Queue a neighbour refresh, or let it wait for a free entry of the maintenance queue (R93). -/
def CcSt.queueNeighbour (k : CcSt) (bank row now : Nat) : CcSt :=
  let m := Maint.neighbour k.nextId bank row now false
  let k := { k with nextId := k.nextId + 1 }
  if k.maint.length < 16 then { k with maint := k.maint ++ [m] } else { k with waiting := k.waiting ++ [m] }

/-- Mark a queued neighbour refresh as escalated. -/
def Maint.escalate (id : Nat) : Maint → Maint
  | .neighbour i b r t e => .neighbour i b r t (e || decide (i = id))
  | m => m

/-- The refresh `id` is already escalated. -/
def CcSt.isEscalated (k : CcSt) (id : Nat) : Bool :=
  (k.maint ++ k.waiting).any (fun m => match m with | .neighbour i _ _ _ e => decide (i = id) && e | _ => false)

/-- The index of the lowest count, the lowest index among equals (R91). -/
def lowestEntry : List RdEntry → Nat
  | [] => 0
  | e :: r => if r.all (fun x => decide (e.count ≤ x.count)) then 0 else lowestEntry r + 1

/-- The table after a counted activate of `row`, and the index of its entry (R91). -/
def countActivate (l : List RdEntry) (row : Nat) : List RdEntry × Nat :=
  match l.findIdx? (fun e => decide (e.row = row)) with
  | some i => (l.modify i (fun e => { e with count := e.count + 1 }), i)
  | none =>
    if l.length < 16 then (l ++ [⟨row, 1, none⟩], l.length)
    else
      let i := lowestEntry l
      (l.modify i (fun e => ⟨row, e.count + 1, none⟩), i)

/-- A counted activate of a row in one bank of channel `c` (R91-R94). -/
def State.activate (s : State) (c bank row : Nat) : State :=
  let k := s.cc c
  let (l, i) := countActivate (look (fun _ => []) k.dist bank) row
  let e := l.getD i ⟨row, 0, none⟩
  match e.queued with
  | none =>
    if s.rd (ccB c) CC_RD_CTRL_THRESHOLD ≤ e.count then
      let l := l.modify i (fun e => { e with count := 0, queued := some k.nextId })
      s.setCc c (CcSt.queueNeighbour { k with dist := put (fun _ => []) k.dist bank l } bank row s.tsc)
    else s.setCc c { k with dist := put (fun _ => []) k.dist bank l }
  | some id =>
    let k := { k with dist := put (fun _ => []) k.dist bank l }
    if s.rd (ccB c) CC_RD_CTRL_ESCALATE ≤ e.count ∧ !k.isEscalated id then
      let k := { k with maint := k.maint.map (Maint.escalate id), waiting := k.waiting.map (Maint.escalate id) }
      ((s.setCc c k).raise (ccB c) CC_ERR_FLAGS_RD_ESC).emit (ccSrc c) 0x0604 [2 ^ 40 + mkKey c bank row 0]
    else s.setCc c k

end Sys2Proof.Machine
end

