-- ==== Sys2Proof/Machine/Cc.lean ====
section
/-! DEFINITION. The channel controller: requests, scheduling, refresh, row-disturbance protection, power-down, ECC write-back, scrub and CRC replay (R70-R103). -/

namespace Sys2Proof.Machine

/-! ### Command words and the trace (R141, R142, R226) -/

def rowAct (bank row : Nat) : Nat := 0x100000 + bank / 32 * 2 ^ 18 + bank % 32 * 2 ^ 13 + row
def rowPre (bank : Nat) : Nat := 0x200000 + bank / 32 * 2 ^ 18 + bank % 32 * 2 ^ 13
def rowPreab : Nat := 0x300000
def rowRef : Nat := 0x400000
def rowPde (sid : Nat) : Nat := 0x500000 + sid * 2 ^ 18
def rowPdx (sid : Nat) : Nat := 0x600000 + sid * 2 ^ 18
def rowMrw (addr v : Nat) : Nat := 0x700000 + addr * 2 ^ 12 + v
def rowActa (g row : Nat) : Nat := 0x800000 + g * 2 ^ 19 + row
def rowPrea (g : Nat) : Nat := 0x900000 + g * 2 ^ 19
def rowEnter : Nat := 0xA00000
def rowExit : Nat := 0xB00000
/-- RD or WR of a 64 B column pair (Table 5-5). -/
def colRw (write : Bool) (bank pair : Nat) : Nat :=
  (if write then 2 else 1) * 2 ^ 35 + bank / 32 * 2 ^ 33 + bank % 32 * 2 ^ 28 + pair * 2 ^ 23

/-- One slot's trace record, when tracing is on and the tag matches (R226, R227). Plane 4 has no credit for it while the seam link holds the traffic to its tile (DESIGN CHOICE, log 63). -/
def State.trace (s : State) (c : Nat) (tag : Option Nat) (row col : Nat) : State :=
  let b := ccB c
  if !s.flag b CC_TRACE_CTRL_ENABLE || s.flag b CC_TRACE_STATUS_FULL then s
  else if s.flag b CC_TRACE_CTRL_TAGMATCH && decide (tag ≠ some (s.rd b CC_TRACE_CTRL_TAG)) then s
  else if s.nocHeld (chanDie c) (s.rd b CC_TRACE_CTRL_TILE) then s.countC c CC_TRACE_DROP_COUNT 1
  else
    let t := s.rd b CC_TRACE_CTRL_TILE
    let next := s.rd b CC_TRACE_STATUS_NEXT
    let sub := s.rd b CC_TRACE_STATUS_SUB
    let cell := (s.rd b CC_TRACE_BASE_OFFSET / 64 + next) % 65536
    let rec16 := s.tsc % 2 ^ 64 + (row % 2 ^ 24) * 2 ^ 64 + (col % 2 ^ 40) * 2 ^ 88
    let s := if s.nocCause t = 0 then
        let v : Half := some (BitVec.ofNat 256 (rec16 * 2 ^ (128 * (sub % 2))))
        let m := BitVec.ofNat 64 ((2 ^ 16 - 1) * 2 ^ (16 * sub))
        s.spWrite t cell ⟨m, if sub < 2 then ⟨v, some 0⟩ else ⟨some 0, v⟩⟩
      else s.nocError t (ccSrc c) (ccSrc c) 4 true
    if sub < 3 then s.wr b CC_TRACE_STATUS_SUB (sub + 1)
    else
      let s := s.wr b CC_TRACE_STATUS_SUB 0
      if next + 1 < s.rd b CC_TRACE_BASE_SIZE then s.wr b CC_TRACE_STATUS_NEXT (next + 1)
      else
        let s := s.wr b CC_TRACE_STATUS_NEXT 0
        if s.flag b CC_TRACE_CTRL_WRAP then s else s.raise b CC_TRACE_STATUS_FULL

/-- A bank-port command takes its slot: its trace record, and its count toward PANIC_YIELD while panic is raised (R87, R226). -/
def State.bankCmd (s : State) (c : Nat) (tag : Option Nat) (row col : Nat) : State :=
  let s := s.trace c tag row col
  if (s.cc c).panic then s.setCc c { s.cc c with yields := (s.cc c).yields + 1 } else s

/-! ### Rows opened by normal traffic -/

/-- The row that normal traffic holds open in a bank. -/
def CcSt.openRow (k : CcSt) (bank : Nat) : Option Nat := look noRow k.rows bank

/-- Close a bank's row when one is open (PRE). -/
def State.closeRow (s : State) (c bank : Nat) : State :=
  match (s.cc c).openRow bank with
  | none => s
  | some _ => (s.setCc c { s.cc c with rows := put noRow (s.cc c).rows bank none }).trace c none (rowPre bank) 0

/-- Bring a row into the open state by a normal activate, which is counted (R92). -/
def State.openFor (s : State) (c bank row : Nat) : State :=
  if (s.cc c).openRow bank = some row then s
  else
    let s := s.closeRow c bank
    let s := s.setCc c { s.cc c with rows := put noRow (s.cc c).rows bank (some row) }
    (s.activate c bank row).trace c none (rowAct bank row) 0

/-- Leave power-down in every SID that a mask names (PDX, R95). -/
def State.pdx (s : State) (c mask : Nat) : State :=
  upto 4 (fun sid s =>
    if bit mask sid && bit (s.rd (ccB c) CC_STATUS_SID_PD) sid then
      (s.wr (ccB c) CC_STATUS_SID_PD (s.rd (ccB c) CC_STATUS_SID_PD - 2 ^ sid)).trace c none (rowPdx sid) 0
    else s) s

/-! ### Requests (R70, R75-R79) -/

/-- The port code of Table 3-9. -/
def Port.code : Port → Nat | .host => 1 | .tile => 2

/-- An access to retired storage is counted and reported (R412). -/
def State.retiredAccess (s : State) (c port : Nat) (write : Bool) : State :=
  (s.countR FLT_RET_ACC_COUNT 1 0x068F).emit (ccSrc c) 0x0688 [port, if write then 1 else 0]

/-- A tile of a partition may not reach this DPA (R365). -/
def State.dpaRefused (s : State) (t a : Nat) : Bool :=
  let k := s.tileOwner t
  if k = 0 then false
  else if bit a 40 then decide (s.stackOwner (bitsOf a 36 4) ≠ k)
  else !s.ownsAll k

/-- Event 0x0603 for an unmapped or refused DPA (R76): `src` is the unit that decoded it. -/
def State.unmappedEvent (s : State) (src a port : Nat) : State := s.emit src 0x0603 [a, port]

/-- The unit of a requester that decodes DPAs (R76). -/
def Requester.source (r : Requester) : Nat := match r.port with | .host => ringSrc | .tile => r.id

/-- Where an access goes, after the unmapped and partition rules; events of a refusal are emitted, but none by a CC whose die is in reset (R27). -/
def State.resolve (s : State) (who : Requester) (a : Nat) : Option Nat × State :=
  match s.decodeDpa a with
  | .noCc => (none, s.unmappedEvent who.source a who.port.code)
  | .refused c => (none, if !s.dieUp (chanDie c) then s else (s.raise (ccB c) CC_ERR_FLAGS_UNMAPPED).unmappedEvent (ccSrc c) a who.port.code)
  | .at key =>
    if who.port = .tile ∧ s.dpaRefused who.id a then
      let c := keyChan key
      (none, if !s.dieUp (chanDie c) then s else ((s.raise (ccB c) CC_ERR_FLAGS_UNMAPPED).unmappedEvent (ccSrc c) a 2).emit (ccSrc c) 0x0107 [who.id, 1])
    else (some key, s)

/-- The byte enables of column `h` of a write's pair. -/
def WriteData.part (w : WriteData) (h : Nat) : Nat := w.mask.toNat / 2 ^ (32 * h) % 2 ^ 32
/-- A write's byte enables touch column `h` of its pair. -/
def WriteData.touches (w : WriteData) (h : Nat) : Bool := decide (w.part h ≠ 0)
/-- A write covers column `h` in part, so that it is performed by read-modify-write (R99). -/
def WriteData.mixes (w : WriteData) (h : Nat) : Bool := decide (w.part h ≠ 0 ∧ w.part h ≠ 2 ^ 32 - 1)
/-- The write needs a read-modify-write. -/
def WriteData.rmw (w : WriteData) : Bool := w.mixes 0 || w.mixes 1

/-- In card fault the host does not reach C1's stacks (R418). -/
def State.hostCut (s : State) (key : Nat) : Bool := s.flag hostB FLT_CARD_CARD_FAULT && decide (192 ≤ keyChan key)

/-- The die that a requester's traffic comes from: the host ports lie on C0 (R18). -/
def Requester.die (r : Requester) : Nat := match r.port with | .host => 0 | .tile => tileDie r.id

/-- The pool and the bank queue have room for a request of this port (R77). -/
def CcSt.room (k : CcSt) (p : Port) (bank : Nat) : Bool :=
  let nh := (k.pool.filter (fun r => decide (r.who.port = .host))).length
  let nt := k.pool.length - nh
  let mine := if p = .host then nh else nt
  decide ((mine < 32 ∨ (nh - 32) + (nt - 32) < 192) ∧ (k.pool.filter (fun r => decide (keyBank r.key = bank))).length < 64)

/-! ### Bias regions (R370, R373) -/

/-- The interleaved window is open (R74). -/
def State.windowOpen (s : State) : Bool := s.flag (ccB 0) CC_ILV_CTRL_ENABLE && !s.flag (ccB 0) CC_ILV_CTRL_MASK_BAD

/-- The bias region of a bank-direct key: DPA[39:24] of its interleaved DPA, by inversion of R72. -/
def State.regionOf (s : State) (key : Nat) : Nat :=
  let stack := keyChan key / 32
  let q := keyBank key / 32 * 2 ^ 13 + keyRow key
  if s.flag (ccB 0) CC_ILV_CTRL_MODE then (3 * q + stack / 4) / 2
  else stack / 6 * 0x6000 + (3 * q + stack % 6 / 2) / 4

/-- Tile requests to the location are held by a bias change to shared (R373). -/
def State.biasHeld (s : State) (key : Nat) : Bool :=
  match s.host.biasJob with
  | some j => j.shared && decide (s.regionOf key = j.region)
  | none => false

/-- While panic is raised a pass-instruction packet on its way to the CC enters ahead of tile-port and host-port packets (R85, R87). -/
def State.passFirst (s : State) (c : Nat) : Bool :=
  (s.cc c).panic && s.flight.any (fun q => decide (q.1 = c) && !s.seamHeld (tileDie q.2.tile) (chanDie c))

/-- The CC can take a request of this requester now: it has room, is not being molted, lets no pass packet in first, and the seam link carries the traffic (R18, R77, R85, R411). -/
def State.mayTake (s : State) (who : Requester) (key : Nat) : Bool :=
  let c := keyChan key
  (s.cc c).room who.port (keyBank key) && !s.molting c && !s.passFirst c && !s.seamHeld who.die (chanDie c)

/-- A request that is mapped and not retired enters the pool, or its requester stalls (R77). -/
def State.accept (s : State) (who : Requester) (key : Nat) (w : Option WriteData) (ans : Answer) : State :=
  let c := keyChan key
  if s.mayTake who key then
    let s := s.setCc c { s.cc c with pool := (s.cc c).pool ++ [⟨who, key, w, s.tsc, ans⟩] }
    s.pdx c (2 ^ (keyBank key / 32))
  else s

/-- A request that storage does not serve is answered at once: a write is acknowledged and discarded, a read returns poison (R412, R418). -/
def State.answerBad (s : State) (who : Requester) (key : Nat) (write : Bool) : State :=
  if write then s.send (.writeDone who key) else s.send (.readData who key .bad)

/-! ### Performing an accepted request -/

/-- Queue a write-back of a corrected column, unless a write to it is accepted or the queue is full (R97). -/
def State.queueWriteBack (s : State) (c col : Nat) (d : BitVec 256) : State :=
  let k := s.cc c
  if k.pool.any (fun r => decide (r.key = col / 2 * 64) && (match r.write with | some w => w.touches (col % 2) | none => false)) ||
      decide (16 ≤ k.maint.length) then s
  else s.setCc c { k with maint := k.maint ++ [.writeBack col s.tsc d] }

/-- A normal read of one column: a corrected one queues its write-back (R97). The reader is 1, or a prefetch. -/
def State.normalRead (s : State) (c col reader : Nat) : Half × State :=
  match s.readCol c col reader with
  | (some d, true, s) => (some d, s.queueWriteBack c col d)
  | (h, _, s) => (h, s)

/-- The 64 B read of a key. -/
def State.read64 (s : State) (key reader : Nat) : Cell64 × State :=
  let c := keyChan key
  let (a, s) := s.normalRead c (key / 32) reader
  let (b, s) := s.normalRead c (key / 32 + 1) reader
  (⟨a, b⟩, s)

/-- Move waiting neighbour refreshes into free entries (R93). -/
def CcSt.refill (k : CcSt) : CcSt :=
  let n := 16 - k.maint.length
  { k with maint := k.maint ++ k.waiting.take n, waiting := k.waiting.drop n }

/-- A write to a column supersedes its queued write-back, and the entry is free again. -/
def CcSt.dropWriteBack (k : CcSt) (col : Nat) : CcSt :=
  CcSt.refill { k with maint := k.maint.filter (fun m => match m with | .writeBack x _ _ => decide (x ≠ col) | _ => true) }

/-- A write of a column pair supersedes the queued write-backs of the columns that it touches. -/
def State.supersede (s : State) (key : Nat) (w : WriteData) : State :=
  let c := keyChan key
  let drop := fun (k : CcSt) (h : Nat) => if w.touches h then k.dropWriteBack (key / 32 + h) else k
  s.setCc c (drop (drop (s.cc c) 0) 1)

/-- The 64 B write of a key. -/
def State.write64 (s : State) (key : Nat) (w : WriteData) : State :=
  let c := keyChan key
  let s := (s.supersede key w).writePart c (key / 32) (w.part 0) w.data.lo
  s.writePart c (key / 32 + 1) (w.part 1) w.data.hi

/-! ### Bursts that fail their CRC (R103) -/

/-- The number of a burst: its column pair and its direction. -/
def burstNo (key : Nat) (write : Bool) : Nat := key / 64 * 2 + (if write then 1 else 0)
def noReplay (_ : Nat) : Nat := 0
/-- The burst failed after its last replay. -/
def State.burstLost (s : State) (key : Nat) (write : Bool) : Bool := look noMark (s.cc (keyChan key)).lost (burstNo key write)
/-- A burst ends: what was recorded of its replays and of its failure is used up. -/
def State.burstEnd (s : State) (key : Nat) (write : Bool) : State :=
  let k := s.cc (keyChan key)
  s.setCc (keyChan key) { k with replays := put noReplay k.replays (burstNo key write) 0, lost := put noMark k.lost (burstNo key write) false }

/-- A burst that is not a pooled request's fails when it is performed. -/
def State.markLost (s : State) (c key : Nat) (write : Bool) : State :=
  s.setCc c { s.cc c with lost := put noMark (s.cc c).lost (burstNo key write) true }

/-- A write burst that failed leaves the poison code in every column that it touches. -/
def State.loseWrite (s : State) (key : Nat) (w : WriteData) : State :=
  let s := s.supersede key w
  let spoil := fun (m : Mem) (h : Nat) => if w.touches h then m.writeCol (key / 32 + h) none else m
  { s with mem := spoil (spoil s.mem 0) 1 }

/-- A write whose read-modify-write read failed: the columns that it covers in part take the poison code (R99, R103). -/
def State.spoilMixed (s : State) (key : Nat) (w : WriteData) : State :=
  let spoil := fun (m : Mem) (h : Nat) => if w.mixes h then m.writeCol (key / 32 + h) none else m
  let whole := fun (m : Mem) (h : Nat) (v : Half) => if w.touches h && !w.mixes h then m.writeCol (key / 32 + h) v else m
  let s := s.supersede key w
  { s with mem := whole (whole (spoil (spoil s.mem 0) 1) 0 w.data.lo) 1 w.data.hi }

/-- A read burst: one that failed delivers poison. -/
def State.readBurst (s : State) (key reader : Nat) : Cell64 × State :=
  let r := s.read64 key reader
  (if s.burstLost key false then .bad else r.1, r.2.burstEnd key false)

/-- A write burst: one that failed loses its data, and one whose read failed poisons what it covers in part. -/
def State.writeBurst (s : State) (key : Nat) (w : WriteData) : State :=
  if s.burstLost key true then (s.loseWrite key w).burstEnd key true
  else if w.rmw && s.burstLost key false then ((s.spoilMixed key w).burstEnd key false).burstEnd key true
  else (s.write64 key w).burstEnd key true

/-- A read for a requester of the card is performed: its data wait until it takes them. Nothing waits for a dropped one (R416). -/
def State.land (s : State) (u : ReadUser) (key : Nat) (d : Option Cell64) : State :=
  let k := s.cc (keyChan key)
  if u = .dropped then s else s.setCc (keyChan key) { k with landed := k.landed ++ [(u, key, d)] }

/-- A prefetch keeps no line with an uncorrectable column: the demand read meets it itself (DESIGN CHOICE, log 67). -/
def State.keepsLine (s : State) (key : Nat) : Bool :=
  decide (s.mem.err (key / 32) ≤ 1 ∧ s.mem.err (key / 32 + 1) ≤ 1) && !s.burstLost key false

/-- The reader code of a pooled read: 1, but a prefetch reports nothing (R208, Table 3-9). -/
def Answer.reader : Answer → Nat
  | .card (.prefetch _) => quietReader
  | _ => 1

/-- The data of a pooled read reach its requester in the form that it expects. -/
def State.answerReq (s : State) (r : Req) (d : Cell64) : State :=
  match r.ans with
  | .plain => s.send (.readData r.who r.key d)
  | .mem => s.send (.memData d)
  | .bar f => s.send (.barData f d)
  | .card u => s.land u r.key (some d)

/-- The data of a read burst reach its requester; a prefetch that cannot keep its line receives none. -/
def State.answerRead64 (s : State) (r : Req) : State :=
  let keep := s.keepsLine r.key
  let (d, s) := s.readBurst r.key r.ans.reader
  match r.ans with
  | .card (.prefetch t) => s.land (.prefetch t) r.key (if keep then some d else none)
  | _ => s.answerReq r d

/-- Take a request out of the pool; a younger row hit that passes the oldest request of its bank is counted (R81). -/
def CcSt.remove (k : CcSt) (r : Req) : CcSt :=
  let bank := keyBank r.key
  let n := look (fun _ => 0) k.hits bank
  let n := if (k.pool.find? (fun q => decide (keyBank q.key = bank))) = some r then 0
    else if k.openRow bank = some (keyRow r.key) then n + 1 else n
  { k with pool := k.pool.erase r, hits := put (fun _ => 0) k.hits bank n }

/-- Perform one pooled request: its row opens if need be, its column commands run, a read-modify-write's read first (R99, R226), and a read is answered. In card fault the host's requests to C1 reach no storage (R418). -/
def State.serve (s : State) (c : Nat) (r : Req) : State :=
  let bank := keyBank r.key
  let s := s.setCc c ((s.cc c).remove r)
  if r.who.port = .host ∧ s.hostCut r.key then (if r.write.isSome then s else s.answerReq r .bad)
  else
    let s := s.openFor c bank (keyRow r.key)
    let s := if (match r.write with | some w => w.rmw | none => false) then s.trace c none 0 (colRw false bank (r.key / 64 % 32)) else s
    let s := s.trace c none 0 (colRw r.write.isSome bank (r.key / 64 % 32))
    match r.write with
    | some w => s.writeBurst r.key w
    | none => s.answerRead64 r

/-! ### The rotating pick (R80-R87) -/

/-- The pass group that computes, while a pass holds its claim: 0 or 1. -/
def CcSt.group (k : CcSt) : Option Nat :=
  match k.active with
  | some a => some (bitsOf a.req.pkt.toNat 4 1)
  | none => none

/-- The bank belongs to the computing group. -/
def CcSt.computing (k : CcSt) (bank : Nat) : Bool := decide (k.group = some (bank / 64))

/-- Urgency by age against a target in 8 ns units (R86). -/
def urgencyOf (target age : Nat) : Nat :=
  let t := 8 * target
  if t = 0 then 0
  else if 2 * age < t then 0
  else if 4 * age < 3 * t then 1
  else if age < t then 2
  else 3

/-- Urgency of a request in deadline mode (R86). -/
def State.urgency (s : State) (c : Nat) (r : Req) : Nat :=
  urgencyOf (if r.who.port = .host then s.rd (ccB c) CC_DEADLINE_HOST_T else s.rd (ccB c) CC_DEADLINE_TILE_T) (s.tsc - r.since)

/-- Urgency of a request of the maintenance port that waits since `since` (R86). -/
def State.maintUrgency (s : State) (c since : Nat) : Nat := urgencyOf (s.rd (ccB c) CC_DEADLINE_MAINT_T) (s.tsc - since)

/-- An activate command. -/
def PCmd.isActa : PCmd → Bool
  | .acta _ => true
  | _ => false

/-- The pass is between the precharge that ends one row period and the activate of the next (R83). -/
def Active.inGap (a : Active) : Bool := a.gap && a.todo.any PCmd.isActa

/-- A bank of the computing group is reached in gaps alone; any other bank at any time (R83). -/
def CcSt.reachable (k : CcSt) (bank : Nat) : Bool :=
  !k.computing bank || (match k.active with | some a => a.inGap | none => true)

/-- The gap has a slot left (R83). -/
def State.gapLeft (s : State) (c : Nat) : Bool :=
  match (s.cc c).active with
  | some a => decide (a.gapServed < s.rd (ccB c) CC_SCHED_CTRL_GAP_REQS)
  | none => true

/-- An urgency-3 request may pass panic in deadline mode once per PANIC_YIELD bank-port commands (R87). -/
def State.exempt (s : State) (c urgency : Nat) : Bool :=
  s.flag (ccB c) CC_SCHED_CTRL_MODE && decide (urgency = 3) && decide (s.rd (ccB c) CC_SCHED_CTRL_PANIC_YIELD ≤ (s.cc c).yields)

/-- Panic does not hold a request of this urgency (R85, R87). -/
def State.passesPanic (s : State) (c urgency : Nat) : Bool := !(s.cc c).panic || s.exempt c urgency

/-- A neighbour refresh of the computing group that panic does not hold: it goes before gap requests (R93, R154). -/
def State.groupRefresh (s : State) (c : Nat) : Option Maint :=
  let k := s.cc c
  k.maint.find? (fun m => match m with
    | .neighbour _ bank _ since _ => k.computing bank && s.passesPanic c (s.maintUrgency c since)
    | _ => false)
/-- Such a refresh waits. -/
def State.refreshDue (s : State) (c : Nat) : Bool := (s.groupRefresh c).isSome

/-- An access of the host, tile or maintenance port may run now: row hits outside the computing group at any time, activates outside panic, and the group's own banks in gap slots (R83, R85, R87). -/
def State.mayRun (s : State) (c bank row urgency : Nat) : Bool :=
  let k := s.cc c
  let free := s.passesPanic c urgency
  if k.computing bank then k.reachable bank && s.gapLeft c && !s.refreshDue c && free
  else free || decide (k.openRow bank = some row)

/-- No older write-back to the group's banks waits for its place in the gap (R83). -/
def CcSt.olderWriteBack (k : CcSt) (since : Nat) : Bool :=
  k.maint.any (fun m => match m with | .writeBack col t _ => k.computing (keyBank (32 * col)) && decide (t < since) | _ => false)

/-- A pooled request may be served now. -/
def State.mayServe (s : State) (c : Nat) (r : Req) : Bool :=
  let k := s.cc c
  let bank := keyBank r.key
  s.mayRun c bank (keyRow r.key) (s.urgency c r) && !(k.computing bank && k.olderWriteBack r.since)

/-- No older request to the same 64 B is in the pool (R78, R81). -/
def CcSt.first (k : CcSt) (r : Req) : Bool :=
  decide (k.pool.find? (fun q => decide (q.key = r.key)) = some r)

/-- The request that the slot serves within one bank (R81). -/
def State.pickIn (s : State) (c bank : Nat) (l : List Req) : Option Req :=
  let k := s.cc c
  let mine := l.filter (fun r => decide (keyBank r.key = bank))
  let hit := mine.find? (fun r => decide (k.openRow bank = some (keyRow r.key)))
  if look (fun _ => 0) k.hits bank < s.rd (ccB c) CC_SCHED_CTRL_ROWHIT_CAP then
    match hit with
    | some r => some r
    | none => mine.head?
  else mine.head?

/-- The write-backs that may run now. -/
def State.writeBacks (s : State) (c : Nat) : List Maint :=
  let k := s.cc c
  k.maint.filter (fun m => match m with
    | .writeBack col since _ =>
      let bank := keyBank (32 * col)
      -- a held maintenance request has no row hit that panic spares (R85)
      s.mayRun c bank (keyRow (32 * col)) (s.maintUrgency c since) && s.passesPanic c (s.maintUrgency c since) &&
        !(k.computing bank && k.pool.any (fun r => k.computing (keyBank r.key) && decide (r.since < since)))
    | _ => false)

/-- The pooled requests that may run now. -/
def State.servable (s : State) (c : Nat) : List Req := (s.cc c).pool.filter (fun r => s.mayServe c r && (s.cc c).first r)

/-- The neighbour refreshes outside the computing group that may run now (R85, R87). -/
def State.freeRefreshes (s : State) (c : Nat) : List Maint :=
  let k := s.cc c
  k.maint.filter (fun m => match m with
    | .neighbour _ bank _ since _ => !k.computing bank && s.passesPanic c (s.maintUrgency c since)
    | _ => false)

/-- The column that the patrol scrub reads next. -/
def State.scrubCol (s : State) (c : Nat) : Nat := c * 2 ^ 26 + (s.cc c).scrub
/-- TSC since which the scrub's read waits. -/
def State.scrubSince (s : State) (c : Nat) : Nat := (s.cc c).scrubAt.getD s.tsc

/-- The patrol scrub may read its next column now: the maintenance queue has room, panic does not hold it, and a bank of the computing group is reached in a gap, behind the write-backs and requests that came first (R83, R85, R87, R93). -/
def State.scrubMay (s : State) (c : Nat) : Bool :=
  let k := s.cc c
  let key := 32 * s.scrubCol c
  let u := s.maintUrgency c (s.scrubSince c)
  decide (k.maint.length < 16) && s.mayRun c (keyBank key) (keyRow key) u && s.passesPanic c u &&
    !(k.computing (keyBank key) && (k.olderWriteBack (s.scrubSince c) || k.pool.any (fun r => k.computing (keyBank r.key) && decide (r.since < s.scrubSince c))))

/-- TSC since which an item of the maintenance port waits. -/
def Maint.since : Maint → Nat
  | .neighbour _ _ _ t _ => t
  | .writeBack _ t _ => t

/-- The highest urgency present among the requests of all normal ports that may run (R81, R86). -/
def State.topUrgency (s : State) (c : Nat) : Nat :=
  let u := (s.servable c).foldl (fun a r => max a (s.urgency c r)) 0
  let u := (s.writeBacks c ++ s.freeRefreshes c).foldl (fun a m => max a (s.maintUrgency c m.since)) u
  if (s.cc c).scrubAt.isSome && s.scrubMay c then max u (s.maintUrgency c (s.scrubSince c)) else u

/-- In deadline mode a request of the maintenance port takes the slot at the highest urgency present (R81). -/
def State.atTop (s : State) (c since : Nat) : Bool :=
  !s.flag (ccB c) CC_SCHED_CTRL_MODE || decide (s.maintUrgency c since = s.topUrgency c)

/-- The requests the slot chooses from: in deadline mode those of the highest urgency present (R81). -/
def State.candidates (s : State) (c : Nat) : List Req :=
  if s.flag (ccB c) CC_SCHED_CTRL_MODE then (s.servable c).filter (fun r => decide (s.urgency c r = s.topUrgency c)) else s.servable c

/-- The escalated neighbour refresh that runs ahead of every bank-port command and request (R80, R94). -/
def CcSt.nextEscalated (k : CcSt) : Option Maint :=
  (k.maint ++ k.waiting).find? (fun m => match m with | .neighbour _ bank _ _ e => e && k.reachable bank | _ => false)
/-- Such a refresh waits. -/
def CcSt.escalated (k : CcSt) : Bool := k.nextEscalated.isSome

/-- The request of the slot: the gap's oldest first (R83), else the rotating pick over the other banks (R81). -/
def State.pick (s : State) (c : Nat) : Option Req :=
  let k := s.cc c
  let l := s.candidates c
  match l.find? (fun r => k.computing (keyBank r.key)) with
  | some r => some r
  | none => ((List.range 128).map (fun i => (k.ptr + i) % 128)).findSome? (fun b => s.pickIn c b l)

/-- An access to this bank uses up a gap slot, or a yield of panic (R83, R87). -/
def CcSt.charge (k : CcSt) (bank row : Nat) : CcSt :=
  let k := if k.panic && (k.computing bank || decide (k.openRow bank ≠ some row)) then { k with yields := 0 } else k
  if k.computing bank then { k with active := k.active.map (fun a => { a with gapServed := a.gapServed + 1 }) } else k

/-- The slot's request is charged, and the rotating pointer moves past its bank. -/
def State.charge (s : State) (c : Nat) (r : Req) : State :=
  let bank := keyBank r.key
  let k := (s.cc c).charge bank (keyRow r.key)
  s.setCc c (if k.computing bank then k else { k with ptr := (bank + 1) % 128 })

/-- Serve one request with its charge. -/
def State.slot (s : State) (c : Nat) (r : Req) : State := (s.charge c r).serve c r

/-- Issue every pooled request that `p` selects, oldest first. -/
def State.flushPool (s : State) (c : Nat) (p : Req → Bool) : State :=
  ((s.cc c).pool.filter p).foldl (fun s r => s.serve c r) s

/-! ### Accesses of the ports (R77-R87) -/

/-- A request arrives: the CC takes it into its pool, and the slot serves it at once when the rotating pick falls on it. False while the CC does not take it, so that its requester stalls (R77, R80, R81). -/
def State.arrive (s : State) (who : Requester) (key : Nat) (w : Option WriteData) (ans : Answer) : Bool × State :=
  let c := keyChan key
  if s.mayTake who key then
    let r : Req := ⟨who, key, w, s.tsc, ans⟩
    let s := s.accept who key w ans
    (true, if !(s.cc c).escalated && decide (s.pick c = some r) then s.slot c r else s)
  else (false, s)

/-- The requester's read of this line stands in the pool, or its data wait for it. -/
def CcSt.reading (k : CcSt) (u : ReadUser) (key : Nat) : Bool :=
  k.pool.any (fun r => decide (r.key = key ∧ r.ans = .card u)) || k.landed.any (fun x => decide (x.1 = u ∧ x.2.1 = key))

/-- The requester takes the data of its read, when it was performed. -/
def State.takeRead (s : State) (u : ReadUser) (key : Nat) : Option (Option Cell64) × State :=
  let k := s.cc (keyChan key)
  match k.landed.find? (fun x => decide (x.1 = u ∧ x.2.1 = key)) with
  | some x => (some x.2.2, s.setCc (keyChan key) { k with landed := k.landed.erase x })
  | none => (none, s)

/-- A 64 B read of a requester of the card: none while it waits, in the pool or for room in it. Retired storage returns poison (R412). -/
def State.portRead (s : State) (u : ReadUser) (who : Requester) (key : Nat) : Option (Option Cell64) × State :=
  let k := key / 64 * 64
  if s.retired (keyChan key) then (some (some .bad), s.retiredAccess (keyChan key) who.port.code false)
  else if (s.cc (keyChan k)).reading u k then s.takeRead u k
  else (s.arrive who k none (.card u)).2.takeRead u k

/-- A 64 B write through a port: accepted into the pool (R79); false while the CC does not take it. Retired storage discards it (R412). -/
def State.portWrite (s : State) (who : Requester) (key : Nat) (w : WriteData) : Bool × State :=
  if s.retired (keyChan key) then (true, s.retiredAccess (keyChan key) who.port.code true)
  else s.arrive who (key / 64 * 64) (some w) .plain

/-- The reads of a requester that was reset still run, and their data are discarded (R416). -/
def CcSt.orphan (k : CcSt) (p : ReadUser → Bool) : CcSt :=
  { k with pool := k.pool.map (fun r => match r.ans with | .card u => if p u then { r with ans := .card .dropped } else r | _ => r),
           landed := k.landed.filter (fun x => !p x.1) }
def State.orphanReads (s : State) (p : ReadUser → Bool) : State :=
  (s.ccs.map (·.1)).foldl (fun (s : State) c => s.setCc c ((s.cc c).orphan p)) s

/-! ### Maintenance (R89-R100) -/

/-- The neighbour refresh that issues next: an escalated one first, then one of the computing group in a gap, else the oldest that panic and the urgencies allow (R80, R81, R85, R87, R93, R94). -/
def State.nextNeighbour (s : State) (c : Nat) : Option Maint :=
  let k := s.cc c
  match k.nextEscalated with
  | some m => some m
  | none =>
    match s.groupRefresh c with
    | some m => if (match k.active with | some a => a.inGap | none => true) then some m else (s.freeRefreshes c).find? (fun m => s.atTop c m.since)
    | none => (s.freeRefreshes c).find? (fun m => s.atTop c m.since)

/-- After its refresh issues, an entry keeps its count and queues again at once when the count has reached THRESHOLD (R93). -/
def CcSt.rearm (k : CcSt) (bank id th now : Nat) : CcSt :=
  let l := look (fun _ => []) k.dist bank
  match l.findIdx? (fun e => decide (e.queued = some id)) with
  | none => k
  | some i =>
    let e := l.getD i ⟨0, 0, none⟩
    if th ≤ e.count then
      let l := l.modify i (fun e => { e with count := 0, queued := some k.nextId })
      CcSt.queueNeighbour { k with dist := put (fun _ => []) k.dist bank l } bank e.row now
    else { k with dist := put (fun _ => []) k.dist bank (l.modify i (fun e => { e with queued := none })) }

/-- The rows that a neighbour refresh names (R93). -/
def neighbours (row : Nat) : List Nat :=
  (if 2 ≤ row then [row - 2] else []) ++ (if 1 ≤ row then [row - 1] else []) ++
  (if row + 1 < 8192 then [row + 1] else []) ++ (if row + 2 < 8192 then [row + 2] else [])

/-- A neighbour refresh issues (R93): the rows beside the aggressor are refreshed; refresh changes no data. One that passes panic unescalated uses up the yield (R87). -/
def State.issueRefresh (s : State) (c : Nat) : Maint → State
  | .neighbour id bank row since e =>
    let m := Maint.neighbour id bank row since e
    let s := (s.pdx c (2 ^ (bank / 32))).closeRow c bank
    let k := s.cc c
    let k := { k with maint := k.maint.erase m, waiting := k.waiting.erase m, yields := if k.panic && !e then 0 else k.yields }
    let k := (k.refill).rearm bank id (s.rd (ccB c) CC_RD_CTRL_THRESHOLD) s.tsc
    let s := s.setCc c k
    (neighbours row).foldl (fun s r => (s.trace c none (rowAct bank r) 0).trace c none (rowPre bank) 0) s
  | _ => s

/-- NEIGHBOUR_REFRESH (R93). -/
def neighbourRefresh (c : Nat) (s : State) : State :=
  match s.nextNeighbour c with
  | some m => s.issueRefresh c m
  | none => s

/-- REQUEST_ISSUE (R81): an escalated neighbour refresh takes the slot before any request (R80). -/
def requestIssue (c : Nat) (strikes : List Strike) (s : State) : State :=
  let s := s.strike c strikes
  if (s.cc c).escalated then neighbourRefresh c s
  else
    match s.pick c with
    | none => s
    | some r => s.slot c r

/-- TSC of a channel's slot `k` (R89). -/
def slotTime (epoch c k : Nat) : Nat := epoch + k * 3900 + c % 4 * 975

/-- REF (R89): ACTAs held for the slot may follow (R153); the channel is precharged and refreshed, and a new window clears the row-disturbance tables and takes pending limits (R91). -/
def refresh (c : Nat) (s : State) : State :=
  let k := s.cc c
  if !k.refresh || s.retired c then s
  else
    let s := s.pdx c 15
    let s := if (s.cc c).rows.isEmpty then s else (s.setCc c { s.cc c with rows := [] }).trace c none rowPreab 0
    let s := s.trace c none rowRef 0
    let k := s.cc c
    let k := { k with active := k.active.map (fun (a : Active) => { a with held := false }) }
    let s := if k.slot % 8192 = 0 then
        (s.setCc c { k with dist := [], slot := k.slot + 1 }).effects (ccB c) [CC_RD_CTRL_THRESHOLD, CC_RD_CTRL_ESCALATE]
      else s.setCc c { k with slot := k.slot + 1 }
    s.wr (ccB c) CC_BSEQ_REFSLOT_TSC (slotTime k.epoch c (k.slot + 1))

/-- PDE (R95): the SID has no open row, no queued request and no part in a computing group. -/
def powerDown (c sid : Nat) (s : State) : State :=
  let k := s.cc c
  let busy := (List.range 32).any (fun b => (k.openRow (32 * sid + b)).isSome)
    || k.pool.any (fun r => decide (keyBank r.key / 32 = sid))
    || (k.maint ++ k.waiting).any (fun m => match m with | .neighbour _ bank _ _ _ => decide (bank / 32 = sid) | .writeBack col _ _ => decide (keyBank (32 * col) / 32 = sid))
    || decide (k.group = some (sid / 2))
  if s.rd (ccB c) CC_PD_CTRL_PD_TIMER = 0 ∨ busy ∨ s.retired c ∨ bit (s.rd (ccB c) CC_STATUS_SID_PD) sid then s
  else (s.wr (ccB c) CC_STATUS_SID_PD (s.rd (ccB c) CC_STATUS_SID_PD + 2 ^ sid)).trace c none (rowPde sid) 0

/-- A write-back runs: it stores its corrected column, or the poison code when its burst failed (R97, R103). -/
def State.storeBack (s : State) (c : Nat) : Maint → State
  | .writeBack col since d =>
    let bank := keyBank (32 * col)
    let row := keyRow (32 * col)
    let s := s.pdx c (2 ^ (bank / 32))
    let k := (s.cc c).charge bank row
    let s := (s.setCc c (CcSt.refill { k with maint := k.maint.erase (.writeBack col since d) })).openFor c bank row
    let s := s.trace c none 0 (colRw true bank (col / 2 % 32))
    let v : Half := if s.burstLost (col / 2 * 64) true then none else some d
    ({ s with mem := s.mem.writeCol col v } : State).burstEnd (col / 2 * 64) true
  | _ => s

/-- ECC_WRITE_BACK (R97): the oldest write-back that may run, at the highest urgency present in deadline mode. -/
def eccWriteBack (c : Nat) (strikes : List Strike) (s : State) : State :=
  let s := s.strike c strikes
  match (if (s.cc c).escalated then none else (s.writeBacks c).find? (fun m => s.atTop c m.since)) with
  | some m => s.storeBack c m
  | none => s

/-- What a gap serves next: a request or a write-back of the computing group, by age (R83). -/
def State.gapServe : Nat → State → Nat → State
  | 0, s, _ => s
  | n + 1, s, c =>
    match (s.servable c).find? (fun r => (s.cc c).computing (keyBank r.key)) with
    | some r => State.gapServe n (s.slot c r) c
    | none =>
      match (s.writeBacks c).find? (fun m => match m with | .writeBack col _ _ => (s.cc c).computing (keyBank (32 * col)) | _ => false) with
      | some m => State.gapServe n (s.storeBack c m) c
      | none => s

/-- The scrub stores a column again (R100); a write burst that failed leaves the poison code (R103). -/
def State.scrubWrite (s : State) (c col : Nat) (v : Half) : State :=
  let s := s.trace c none 0 (colRw true (keyBank (32 * col)) (col / 2 % 32))
  let v := if s.burstLost (col / 2 * 64) true then none else v
  ({ s with mem := s.mem.writeCol col v } : State).burstEnd (col / 2 * 64) true

/-- The scrub reads a column and corrects it (R100). -/
def State.scrubRead (s : State) (c col : Nat) : State :=
  let bank := keyBank (32 * col)
  let row := keyRow (32 * col)
  let s := s.pdx c (2 ^ (bank / 32))
  let s := (s.setCc c ((s.cc c).charge bank row)).openFor c bank row
  let s := s.trace c none 0 (colRw false bank (col / 2 % 32))
  let key := col / 2 * 64
  let s := if s.burstLost key false then s.scrubWrite c col none
    else match s.check col with
      | (.clean _, s) => s
      | (.corrected d, s) => (s.correctedErr c col 3).scrubWrite c col (some d)
      | (.uncorrectable, s) => (s.uncorrectable c col 3).scrubWrite c col none
      | (.code, s) => s.scrubWrite c col none
  s.burstEnd key false

/-- PATROL_SCRUB (R100): the next column of the sweep, once the channel's storage is cleared (R470). A read that may not run waits, and its age counts (R86); an escalated neighbour refresh goes first (R94). -/
def patrolScrub (c : Nat) (strikes : List Strike) (s : State) : State :=
  let s := s.strike c strikes
  if !s.flag (ccB c) CC_SCRUB_CTRL_ENABLE || !(s.cc c).refresh || s.retired c then s
  else if (s.cc c).escalated || !s.scrubMay c || !s.atTop c (s.scrubSince c) then s.setCc c { s.cc c with scrubAt := some (s.scrubSince c) }
  else
    let pos := (s.cc c).scrub
    let s := s.scrubRead c (s.scrubCol c)
    let s := s.setCc c { s.cc c with scrub := (pos + 1) % 2 ^ 26, scrubAt := none }
    if pos + 1 = 2 ^ 26 then s.effect (ccB c) CC_SCRUB_CTRL_PERIOD_H else s

/-! ### Bursts that fail for good (R103) -/

/-- The oldest accepted request to a line: it is the one whose burst runs next (R78). -/
def CcSt.lineHead (k : CcSt) (key : Nat) : Option Req := k.pool.find? (fun r => decide (r.key = key))

/-- The failed burst delivers poison, or leaves the poison code in each column it touches (R103). The oldest accepted request to the line is performed so; any other burst is one that the scrub or a write-back performs next. -/
def State.burstFail (s : State) (c key : Nat) (write : Bool) : State :=
  match (s.cc c).lineHead key with
  | some r =>
    match r.write, write with
    | some w, true => (s.setCc c ((s.cc c).remove r)).loseWrite key w
    | some w, false => if w.rmw then (s.setCc c ((s.cc c).remove r)).spoilMixed key w else s.markLost c key write
    | none, false => (s.setCc c ((s.cc c).remove r)).answerReq r .bad
    | none, true => s.markLost c key write
  | none => s.markLost c key write

/-- The reader of Table 3-9 whose burst failed: the oldest accepted request to the line, or the scrub when its next column lies there. -/
def State.burstReader (s : State) (c key : Nat) (write : Bool) : Nat :=
  if write then 5
  else
    match (s.cc c).lineHead key with
    | some r => if r.write.isSome then 4 else r.ans.reader
    | none => if s.scrubCol c / 2 * 64 = key then 3 else 1

/-- The column that the report of a failed burst names: the first that it touches. -/
def State.burstCol (s : State) (c col : Nat) (write : Bool) : Nat :=
  let pair := col / 2 * 2
  match (s.cc c).lineHead (32 * pair) with
  | some r =>
    match r.write with
    | some w => if (if write then w.touches 0 else w.mixes 0) then pair else pair + 1
    | none => pair
  | none => if s.scrubCol c / 2 * 2 = pair then s.scrubCol c else if write then col else pair

/-- The four replays failed: one uncorrectable error (R103). -/
def crcFail (c col : Nat) (write : Bool) (s : State) : State :=
  (s.uncorrectable c (s.burstCol c col write) (s.burstReader c (col / 2 * 64) write)).burstFail c (col / 2 * 64) write

/-- CRC_REPLAY (R103): a burst on the column pair of `col` fails its check and takes another column slot; the fifth failure in a row is an uncorrectable error. A channel whose die is in reset has no burst (R27). -/
def crcReplay (c col : Nat) (write : Bool) (s : State) : State :=
  if keyChan (32 * col) ≠ c ∨ s.retired c ∨ !s.dieUp (chanDie c) then s
  else
    let b := burstNo (col / 2 * 64) write
    let n := look noReplay (s.cc c).replays b
    if n < 4 then
      let s := s.setCc c { s.cc c with replays := put noReplay (s.cc c).replays b (n + 1) }
      let s := s.trace c none 0 (colRw write (keyBank (32 * col)) (col / 2 % 32))
      let s := s.emit (ccSrc c) 0x0606 [c % 32, n + 1]
      s.chanError c (s.rd hostB FLT_BKT_CTRL_W_RP)
    else crcFail c col write (s.setCc c { s.cc c with replays := put noReplay (s.cc c).replays b 0 })

end Sys2Proof.Machine
end

