-- ==== Sys2Proof/Machine/Tiles.lean ====
section
/-! DEFINITION. Shared operations of tiles and rings: ring halts, consistent cuts, tile faults, Chorus breaks, releases, acquires, and the issue of one engine operation (R211, R242-R263, R352, R399, R419). -/

namespace Sys2Proof.Machine

/-! ### Counters of the MVE prefetcher (Table 7-8, R224) -/

def pfmUseful : Fld := TILE_PFM_COUNT.at 0x08
def pfmLate : Fld := TILE_PFM_COUNT.at 0x10
def pfmUnused : Fld := TILE_PFM_COUNT.at 0x18
def pfmDropped : Fld := TILE_PFM_COUNT.at 0x20

/-! ### Rings (R381-R401) -/

def State.ring (s : State) (n : Nat) : RingSt := look (fun _ => RingSt.init) s.rings n
def State.setRing (s : State) (n : Nat) (v : RingSt) : State := { s with rings := put (fun _ => RingSt.init) s.rings n v }
/-- A field of ring `n`'s registers. -/
def State.ringRd (s : State) (n : Nat) (f : Fld) : Nat := s.rd hostB (f.at (0x40 * n))
def State.ringSize (s : State) (n : Nat) : Nat := 2 ^ s.ringRd n RING_CFG_LOG2SIZE
def State.ringOwner (s : State) (n : Nat) : Nat := s.ringRd n RING_CFG_OWNER
/-- SEQ of count `c` (R383). -/
def State.seqOf (s : State) (n c : Nat) : Nat := (s.ringRd n RING_SEQ0_SEQ0 + c) % 2 ^ 32
/-- PHASE of count `c` (R383). -/
def State.phaseOf (s : State) (n c : Nat) : Nat := 1 - c / s.ringSize n % 2
/-- Started descriptors that are not complete. -/
def RingSt.inflight (r : RingSt) : Nat := (r.live.filter (fun l => l.done.isNone)).length

/-- SEQ of the first descriptor not started; on a ring that halted with cause STALE, that of the unmatched descriptor (R391). -/
def State.ringNext (s : State) (n : Nat) : Nat :=
  let r := s.ring n
  s.seqOf n (if r.st = .halted ∧ r.cause = 2 then r.fetchAt else r.startAt)

/-- A running ring halts (R399): fetching and starting stop, except that descriptors read before a stale one still start (R391). -/
def State.haltRing (s : State) (n cause : Nat) : State :=
  let r := s.ring n
  match r.st with
  | .running =>
    let r := { r with st := .halted, cause := cause, short := 0, rereads := 0 }
    let r := if cause = 2 then r else { r with fetched := [], fetchAt := r.startAt }
    let s := s.setRing n r
    s.emit ringSrc 0x0201 [n, cause, r.fetchAt % s.ringSize n, s.ringNext n]
  | _ => s

def State.isRunning (s : State) (n : Nat) : Bool := decide ((s.ring n).st = .running)

/-- A number above those of the triggers whose cuts wait. -/
def State.nextOrd (s : State) : Nat :=
  (s.cuts.map (·.ord) ++ s.evs.flatMap (fun (p : Nat × EvSt) => p.2.cuts.map (·.ord))).foldl max 0 + 1

/-- Halt the running rings among `l`, and queue one consistent cut for each owner of them (R419). -/
def State.haltAndCut (s : State) (trigger source cause : Nat) (l : List Nat) : State :=
  let l := (List.range 64).filter (fun n => l.contains n && s.isRunning n)
  let s := l.foldl (fun (a : State) n =>
    let a := a.haltRing n cause
    a.setRing n { a.ring n with cutDue := .unpublished }) s
  let ord := s.nextOrd
  let new := (List.range 9).filterMap (fun o =>
    let q := l.filter (fun n => decide (s.ringOwner n = o))
    if q.isEmpty then none else some ({ trigger := trigger, source := source, owner := o, rings := q, since := s.tsc, ord := ord } : Cut))
  { s with cuts := s.cuts ++ new }

/-- A started descriptor becomes complete (R394); a status other than OK emits 0x0204. -/
def State.completeDesc (s : State) (n c status detail : Nat) : State :=
  let r := s.ring n
  if r.live.any (fun l => decide (l.count = c) && l.done.isNone) then
    let live := r.live.map (fun l => if l.count = c then { l with done := some ⟨status, detail, s.tsc⟩ } else l)
    let s := s.setRing n { r with live := live }
    if status = 0 then s else s.emit ringSrc 0x0204 [n, s.seqOf n c, status, detail]
  else s

/-! ### Tiles and engines -/

def State.modTile (s : State) (t : Nat) (f : Tile → Tile) : State := s.setTile t (f (s.tile t))
def Tile.eng (x : Tile) (e : Nat) : Engine := look (fun _ => Engine.init) x.engs e
def Tile.setEngine (x : Tile) (e : Nat) (v : Engine) : Tile := { x with engs := put (fun _ => Engine.init) x.engs e v }
def State.engine (s : State) (t e : Nat) : Engine := (s.tile t).eng e
def State.setEngine (s : State) (t e : Nat) (v : Engine) : State := s.modTile t (fun x => x.setEngine e v)

def zeroAddr (_ : Nat) : BitVec 41 := 0
/-- Address register `r` (R243). -/
def Engine.areg (g : Engine) (r : Nat) : Nat := (look zeroAddr g.a r).toNat
/-- Set an address register, modulo 2^41. -/
def Engine.setA (g : Engine) (r v : Nat) : Engine := { g with a := put zeroAddr g.a r (BitVec.ofNat 41 v) }
def State.setA (s : State) (t e r v : Nat) : State := s.setEngine t e ((s.engine t e).setA r v)

/-- The tile has recorded a fault (R263). -/
def State.faulted (s : State) (t : Nat) : Bool := s.flag (tileB t) TILE_FAULT_VALID

/-- Every issued operation of the tile has completed (R419). -/
def Tile.quiet (x : Tile) : Bool :=
  x.mmas.isEmpty && x.fsts.isEmpty && x.vops.isEmpty && x.vrun.isNone && x.moves.isEmpty && x.mrun.isNone

/-- The stream that carried a faulting operation completes with TILE_FAULT once its tile is quiescent (R394, R419). -/
def State.faultSettle (s : State) (t : Nat) : State :=
  match (s.tile t).faultRec with
  | some (n, c) =>
    if s.faulted t && (s.tile t).quiet then
      let s := s.completeDesc n c 5 (s.rd (tileB t) TILE_FAULT_CAUSE + 256 * s.rd (tileB t) TILE_FAULT_ENGINE)
      s.modTile t (fun x => { x with faultRec := none })
    else s
  | none => s

/-! ### Chorus groups (R350-R352) -/

/-- Tile `t` participates in group `g`. -/
def State.inGroup (s : State) (g t : Nat) : Bool := bit (s.rd chorusB (CHORUS_PART_TILES.at (0x40 * g + 8 * (t / 64)))) (t % 64)
def State.broken (s : State) (g : Nat) : Bool := s.flag chorusB (CHORUS_CTRL_BROKEN.at (8 * g))
def noArrival (_ : Nat) : Arrival := .absent
def Engine.arrival (g : Engine) (k : Nat) : Arrival := look noArrival g.arr k
def Engine.setArrival (g : Engine) (k : Nat) (v : Arrival) : Engine := { g with arr := put noArrival g.arr k v }

/-- A registered arrival of group `k` becomes `v`. -/
def Engine.moveArrival (g : Engine) (k : Nat) (v : Arrival) : Engine :=
  if g.arrival k = .registered then g.setArrival k v else g

/-- The engine waits on group `k`. -/
def Engine.waitsOn (g : Engine) (k : Nat) : Bool :=
  match g.wait with
  | some ⟨.chorus j _, _⟩ => decide (j = k)
  | some ⟨.arrive j _, _⟩ => decide (j = k)
  | _ => false

/-- Apply `f` to every engine of a tile. -/
def Tile.mapEngines (x : Tile) (f : Engine → Engine) : Tile := upto 4 (fun e y => y.setEngine e (f (y.eng e))) x

/-- The lowest engine of a tile that waits on group `g`, and the place of its operation. -/
def State.brokenWait (s : State) (g t : Nat) : Option (Nat × Loc) :=
  (List.range 4).findSome? (fun k => if (s.engine t k).waitsOn g then (s.engine t k).wait.map (fun w => (k, w.loc)) else none)

/-- The waits of a tile on a group that breaks end with the fault that they meet (R352). -/
def State.dropWaits (s : State) (g t : Nat) : State :=
  s.modTile t (fun x => x.mapEngines (fun e => if e.waitsOn g then { e with wait := none } else e))

/-- The tile keys that hold state. -/
def State.tileKeys (s : State) : List Nat := s.tiles.map Prod.fst

/-- Rings with a STREAM queued or running on the tile. -/
def State.tileRings (s : State) (t : Nat) : List Nat :=
  (s.tile t).recs.map (·.ring) ++ (s.recsOut.filter (fun r => decide (r.1 = t))).map (·.2.ring)

/-- Record a tile fault (R263): its registers, event 0x0320 and the halt of the rings that feed the tile (R419). -/
def State.recordFault (s : State) (t e cause : Nat) (loc : Loc) : State :=
  let b := tileB t
  let r := (s.tile t).recs.find? (fun r => decide (r.serial = loc.stream))
  let s := s.wr b TILE_FAULT_CAUSE cause
  let s := ((s.wr b TILE_FAULT_ENGINE e).wr b TILE_FAULT_DEPTH loc.depth).raise b TILE_FAULT_VALID
  let s := (s.wr b TILE_FAULT_LOC_STREAM_OFF loc.off).wr b TILE_FAULT_LOC_PC (if loc.depth = 0 then 0 else loc.pc)
  let s := s.wr b TILE_FAULT_STREAM_ID (match r with | some r => r.ident | none => 0)
  let s := s.modTile t (fun x => { x with faultRec := r.map (fun r => (r.ring, r.count)) })
  let s := s.emit t 0x0320 [cause, e, loc.depth, loc.off, if loc.depth = 0 then 0 else loc.pc]
  s.haltAndCut 1 t 7 (s.tileRings t)

/-- A tile fault, with the groups that it breaks and the waiting engines that those breaks fault (R263, R352); each group breaks at most once, so `fuel` 9 reaches every one. -/
def State.faultWith : Nat → State → Nat → Nat → Nat → Loc → State
  | 0, s, _, _, _, _ => s
  | fuel + 1, s, t, e, cause, loc =>
    if s.faulted t || !s.tileUp t then s
    else
      let s := s.recordFault t e cause loc
      let s := (List.range 8).foldl (fun (a : State) g =>
        if a.inGroup g t && !a.broken g then
          let a := (a.raise chorusB (CHORUS_CTRL_BROKEN.at (8 * g))).emit t 0x0352 [g, 3]
          let a := { a with tiles := a.tiles.map (fun (p : Nat × Tile) => (p.1, p.2.mapEngines (fun x => x.moveArrival g .broken))) }
          a.tileKeys.foldl (fun (a : State) u =>
            match a.brokenWait g u with
            | some (k, loc) => State.faultWith fuel (a.dropWaits g u) u k 30 loc
            | none => a) a
        else a) s
      s.faultSettle t

/-- A tile fault (R263). A fault of a tile that has one, or that is in reset, is not recorded. -/
def State.tileFault (s : State) (t e cause : Nat) (loc : Loc) : State := State.faultWith 10 s t e cause loc

/-- The groups of a tile that enters reset break (R352): reason 1 tile reset, 2 partition reset. -/
def State.breakGroups (s : State) (t reason : Nat) : State :=
  (List.range 8).foldl (fun (a : State) g =>
    if a.inGroup g t && !a.broken g then
      let a := (a.raise chorusB (CHORUS_CTRL_BROKEN.at (8 * g))).emit t 0x0352 [g, reason]
      let a := { a with tiles := a.tiles.map (fun (p : Nat × Tile) => (p.1, p.2.mapEngines (fun x => x.moveArrival g .broken))) }
      a.tileKeys.foldl (fun (a : State) u =>
        match a.brokenWait g u with
        | some (k, loc) => (a.dropWaits g u).tileFault u k 30 loc
        | none => a) a
    else a) s

/-! ### Release and acquire (R211) -/

/-- Every write that precedes a release of the engine is complete (R210, R211). -/
def State.released (s : State) (t e : Nat) : Bool :=
  let x := s.tile t
  match e with
  | 0 => x.fsts.isEmpty
  | 1 => x.vops.isEmpty && x.vrun.isNone
  | 2 => x.moves.isEmpty && x.mrun.isNone
  | _ => true

/-- Every earlier operation of the engine is complete (R257). -/
def State.allDone (s : State) (t e : Nat) : Bool :=
  s.released t e && (e != 0 || (s.tile t).mmas.isEmpty)

/-! ### Acquires (R206, R209, R211) -/

/-- Invalidate the read cache and empty the prefetch buffer (R206, R209). -/
def State.invalidate (s : State) (t : Nat) : State :=
  let n := (s.tile t).pf.length
  let s := s.modTile t (fun x => { x with rc := [], rcKeep := false, pf := [], pfFlight := x.pfFlight.map (fun p => { p with stale := true }) })
  if n = 0 then s else s.countT t (TILE_PFM_COUNT.at 0x18) n

/-- An acquire by an engine of the tile (R206, R209, R211). -/
def State.acquire (s : State) (t : Nat) : State := (s.invalidate t).countT t TILE_ACQUIRES_COUNT 1

/-! ### Fetching the next operation of an engine (R246-R254) -/

/-- The record that the Tadpole reads: the oldest that is not split. -/
def Tile.current (x : Tile) : Option SRec := x.recs.find? (fun r => !r.split)

/-- Whether an opcode of engine `e` takes an extension word; none when it is reserved (R242, Tables 8-2, 8-4, 9-3, 9-4, 10-1, 11-3, 12-1). -/
def needsExt (e opcode : Nat) : Option Bool :=
  if opcode ≤ 0x0D then some (decide (opcode = 2))
  else if 0x20 ≤ opcode ∧ opcode ≤ 0x25 then some false
  else if e = 0 ∧ (opcode = 0x30 ∨ opcode = 0x31) then some true
  else if e = 1 ∧ opcode = 0x30 then some true
  else if e = 2 ∧ opcode = 0x31 then some true
  else if e = 2 ∧ opcode = 0x32 then some false
  else if e = 3 ∧ opcode = 0x30 then some false
  else none

def opcodeOf (w : OpWord) : Nat := w.op.toNat % 256
/-- The page that a CALL names (Table 8-2). -/
def callPage (w : OpWord) : Nat := bitsOf w.op.toNat 44 6
def isCall (w : OpWord) : Bool := decide (opcodeOf w = 0x0B)

def zeroWord (_ : Nat) : Word := 0
/-- An instruction-memory word by byte address. -/
def Tile.imemWord (x : Tile) (pc : Nat) : Word := look zeroWord x.imem (pc / 8)

/-- Bytes that the operation at `pc` takes in instruction memory (R251). -/
def Tile.opSize (x : Tile) (e pc : Nat) : Nat :=
  if needsExt e ((x.imemWord pc).toNat % 256) = some true then 16 else 8

/-- What stands next for an engine. -/
inductive Fetched where
  | op (w : OpWord) (loc : Loc) (bad : Bool)
  | nothing
  | fault (cause : Nat) (loc : Loc)
  deriving DecidableEq, Repr

/-- The next operation of an engine: from instruction memory, the loop buffer or the queue. A barrier token that meets an open stream-mode body is LOOP_LEN, also when it belongs to a later record (R249; DESIGN CHOICE, log 75). -/
def Tile.next (x : Tile) (e : Nat) : Fetched :=
  let g := x.eng e
  match g.frames with
  | f :: _ =>
    let loc : Loc := ⟨g.root.1, g.root.2, g.frames.length, f.pc⟩
    if f.pc / 4096 ≠ f.page then .fault 11 loc
    else
      let w := x.imemWord f.pc
      let bad := look noMark x.imemBad (f.pc / 8)
      if x.opSize e f.pc = 16 then
        if (f.pc + 8) / 4096 ≠ f.page then .fault 11 loc
        else .op ⟨w, some (x.imemWord (f.pc + 8))⟩ loc (bad || look noMark x.imemBad (f.pc / 8 + 1))
      else .op ⟨w, none⟩ loc bad
  | [] =>
    match (if g.loops.isEmpty then none else g.buf[g.ip]?) with
    | some b => .op b.w ⟨b.stream, b.off, 0, 0⟩ b.bad
    | none =>
      match g.queue with
      | [] => .nothing
      | .token _ _ st off :: _ => if g.loops.isEmpty then .nothing else .fault 6 ⟨st, off, 0, 0⟩
      | .op w st off bad :: _ =>
        if !g.loops.isEmpty && decide (st ≠ g.bodyOf.1) then .fault 3 ⟨g.bodyOf.1, g.bodyOf.2, 0, 0⟩
        else .op w ⟨st, off, 0, 0⟩ bad

/-- Close loops whose body has ended at position `p` of depth `d` (R247): the loops that stay open, and where the engine goes on. -/
def landing : List LoopRec → Nat → Nat → List LoopRec × Nat
  | [], _, p => ([], p)
  | l :: r, d, p =>
    if l.depth = d ∧ l.fin = p then
      if 1 < l.left then ({ l with left := l.left - 1 } :: r, l.start) else landing r d p
    else (l :: r, p)

/-- The pages of the CALLs in a loop buffer. -/
def callPages (l : List BodyOp) : List Nat := (l.filter (fun b => isCall b.w)).map (fun b => callPage b.w)

/-- After an operation: bodies that end are repeated or closed, and the CALLs of an outermost stream-mode body retire at its close (R254). -/
def Engine.close (g : Engine) : Engine × List Nat :=
  match g.frames with
  | f :: r =>
    let (ls, p) := landing g.loops g.frames.length f.pc
    ({ g with loops := ls, frames := { f with pc := p } :: r }, [])
  | [] =>
    if g.loops.isEmpty then (g, [])
    else
      let (ls, p) := landing g.loops 0 g.ip
      if ls.isEmpty then ({ g with loops := [], buf := [], ip := 0 }, callPages g.buf)
      else ({ g with loops := ls, ip := p }, [])

def noCount (_ : Nat) : Nat := 0
/-- CALLs retire: the in-use counts of their pages fall (R254). -/
def Tile.retireCalls (x : Tile) (pages : List Nat) : Tile :=
  pages.foldl (fun y p => { y with inUse := put noCount y.inUse p (look noCount y.inUse p - 1) }) x

/-- Take operations that a count of 0 skips: from the loop buffer, or from the queue as they arrive (R247, R249). A fault is the cause and location. -/
def Tile.skipOps : Nat → Tile → Nat → Tile × Option (Nat × Loc)
  | 0, x, _ => (x, none)
  | n + 1, x, e =>
    let g := x.eng e
    if g.skip = 0 then (x, none)
    else
      let step := fun (x : Tile) (g : Engine) (pages : List Nat) =>
        let g := { g with skip := g.skip - 1 }
        let (g, more) := if g.skip = 0 then g.close else (g, [])
        (x.setEngine e g).retireCalls (pages ++ more)
      if !g.loops.isEmpty && decide (g.ip < g.buf.length) then
        Tile.skipOps n (step x { g with ip := g.ip + 1 } []) e
      else
        match g.queue with
        | [] => (x, none)
        | .token _ _ st off :: _ => (x, some (6, ⟨st, off, 0, 0⟩))
        | .op w st off bad :: r =>
          if st ≠ g.bodyOf.1 then (x, some (3, ⟨g.bodyOf.1, g.bodyOf.2, 0, 0⟩))
          else if g.loops.isEmpty then
            Tile.skipOps n (step x { g with queue := r } (if isCall w then [callPage w] else [])) e
          else
            Tile.skipOps n (step x { g with queue := r, buf := g.buf ++ [⟨w, st, off, bad⟩], ip := g.ip + 1 } []) e

/-- Consume the next operation of an engine; it takes one issue slot. -/
def Tile.consume (x : Tile) (e : Nat) : Tile :=
  let g := x.eng e
  let g := { g with slot := g.slot + 1 }
  match g.frames with
  | f :: r => x.setEngine e { g with frames := { f with pc := f.pc + x.opSize e f.pc } :: r }
  | [] =>
    if !g.loops.isEmpty && decide (g.ip < g.buf.length) then x.setEngine e { g with ip := g.ip + 1 }
    else
      match g.queue with
      | .op w st off bad :: r =>
        if g.loops.isEmpty then x.setEngine e { g with queue := r }
        else x.setEngine e { g with queue := r, buf := g.buf ++ [⟨w, st, off, bad⟩], ip := g.ip + 1 }
      | _ => x.setEngine e g

/-- The engine takes its next operation from its queue. -/
def Engine.usesQueue (g : Engine) : Bool :=
  g.frames.isEmpty && (g.loops.isEmpty || decide (g.buf.length ≤ g.ip))

/-- A word presented to an engine that would take it from an empty queue stands in that queue (log 4): record and offset are those of the stream that the tile runs. -/
def Tile.present (x : Tile) (e : Nat) (w : OpWord) : Tile :=
  let g := x.eng e
  if g.usesQueue && g.queue.isEmpty then
    let st := if g.loops.isEmpty && decide (g.skip = 0) then (match x.recs with | r :: _ => r.serial | [] => 0) else g.bodyOf.1
    let x := x.setEngine e { g with queue := [.op w st x.pos false] }
    if isCall w then { x with inUse := put noCount x.inUse (callPage w) (look noCount x.inUse (callPage w) + 1) } else x
  else x

/-- An operation at issue: its tile, engine, word, place and issue slot. -/
structure OpCtx where
  t    : Nat
  e    : Nat
  w    : OpWord
  loc  : Loc
  slot : Nat
  deriving DecidableEq, Repr

/-- The operation word as a number. -/
def OpCtx.op (c : OpCtx) : Nat := c.w.op.toNat
/-- The extension word as a number. -/
def OpCtx.ext (c : OpCtx) : Nat := (c.w.ext.getD 0).toNat

/-- What issuing an operation gives. -/
inductive Issued where
  | fault (cause : Nat)
  | hold
  | done (s : State)

/-- The engine may issue: its tile runs without a fault or a debug halt, and it waits on nothing (R263, R340, R505). -/
def State.canIssue (s : State) (t e : Nat) : Bool :=
  s.tileUp t && !s.faulted t && !(s.tile t).halted && (s.engine t e).wait.isNone

/-- After an operation has issued: loops close. -/
def State.afterOp (s : State) (t e : Nat) : State :=
  let (g, pages) := (s.engine t e).close
  s.modTile t (fun x => (x.setEngine e g).retireCalls pages)

/-- Issue the word `w` on engine `e` of tile `t` when it is that engine's next operation (R242, R246): `mine` says that it is this command's operation, `legal` that no reserved field is set, and `run` gives its effect on the state in which the operation is consumed. -/
def State.issueOp (s : State) (t e : Nat) (w : OpWord) (mine : Nat → Bool) (legal : Nat → Nat → Bool)
    (run : OpCtx → State → Issued) : State :=
  if !s.canIssue t e then s
  else
    let x := (s.tile t).present e w
    match x.skipOps (x.eng e).skip e with
    | (x, some (cause, loc)) => (s.setTile t x).tileFault t e cause loc
    | (x, none) =>
      match x.next e with
      | .nothing => s.setTile t x
      | .fault cause loc => (s.setTile t x).tileFault t e cause loc
      | .op v loc bad =>
        if v ≠ w then s
        else
          match needsExt e (opcodeOf w) with
          | none => (s.setTile t x).tileFault t e 5 loc
          | some need =>
            if bad then (s.setTile t x).tileFault t e 5 loc
            else if !mine w.op.toNat then s
            else if w.ext.isSome != need || !legal w.op.toNat (w.ext.getD 0).toNat then (s.setTile t x).tileFault t e 5 loc
            else
              let ctx : OpCtx := ⟨t, e, w, loc, (x.eng e).slot⟩
              let ready := ((s.setTile t { x.consume e with dldDone := false }).countT t (TILE_OPS_COUNT.at (8 * e)) 1)
              match run ctx ready with
              | .fault cause => (s.setTile t x).tileFault t e cause loc
              | .hold => s
              | .done s' => s'.afterOp t e

/-! ### Ranges that an engine may still write (R197) -/

/-- Two byte ranges meet. -/
def meets (a la b lb : Nat) : Bool := decide (a < b + lb ∧ b < a + la)

/-- The lowest and highest element offset of a store descriptor's digits, in elements. -/
def digitSpan (l : List Digit) (f : Digit → Int) : Int × Int :=
  l.foldl (fun a d =>
    let v := ((2 ^ d.width : Nat) - 1 : Int) * f d
    if d.width = 0 then a else (a.1 + min 0 v, a.2 + max 0 v)) (0, 0)

/-- Bytes from `lo` to `hi` inclusive of an FST's elements (R279). -/
def FstJob.span (j : FstJob) : Int × Int :=
  let (lo, hi) := digitSpan j.dims (·.stride)
  (((j.d : Int) * 8 + lo * elemBits j.ot) / 8, ((j.d : Int) * 8 + hi * elemBits j.ot + elemBits j.ot - 1) / 8)
/-- Bytes of an FST's scales (R279). -/
def FstJob.scaleSpan (j : FstJob) : Int × Int :=
  let (lo, hi) := digitSpan (j.dims.drop 1) (·.sstride)
  ((j.s : Int) + lo, (j.s : Int) + hi)

/-- Bytes that one operand of a VOP covers (R293): `bits` is the length of a row in bits. -/
def VOperand.span (o : VOperand) (rows bits : Nat) : Int × Int :=
  let v := ((rows : Int) - 1) * 64 * o.rstride
  ((o.base : Int) + min 0 v, (o.base : Int) + max 0 v + ((bits : Int) + 7) / 8 - 1)

/-- A span meets `len` bytes from `lo`. -/
def spanMeets (p : Int × Int) (lo len : Nat) : Bool := decide (p.1 < (lo : Int) + len ∧ (lo : Int) ≤ p.2)

/-- The bits of a VOP's output row (R294, R299-R302). -/
def VopJob.outBits (j : VopJob) : Nat :=
  if 0x30 ≤ j.fn ∧ j.fn ≤ 0x39 then elemBits j.o.ty
  else if j.fn = 0x3E then 2112 * 8
  else if j.fn = 0x3F then 512 * elemBits j.o.ty
  else j.len * elemBits j.o.ty

/-- A VOP may write the range. -/
def VopJob.mayWrite (j : VopJob) (lo len : Nat) : Bool :=
  (decide (j.o.kind = 1) && spanMeets (j.o.span j.rows j.outBits) lo len) ||
  (decide (j.fn = 0x3D) && spanMeets (j.i1.span j.rows (j.len / 32 * 8)) lo len)

/-- Bytes of an MX type's block (R311). -/
def mxBlock (ty : Nat) : Nat := if ty = 0x14 then 16 else 32

/-- A move may write the range of its own scratchpad. -/
def MoveJob.mayWrite (j : MoveJob) (lo len : Nat) : Bool :=
  decide (j.dst.space = 0) &&
    (meets j.dst.base j.dst.len lo len || (isMx j.dst.ty && meets j.dst.sbase (j.dst.len / mxBlock j.dst.ty) lo len))

/-- An issued operation of the engine that is not complete may write `len` bytes from `lo`: a read of them waits (R197). -/
def State.mayWrite (s : State) (t e lo len : Nat) : Bool :=
  let x := s.tile t
  match e with
  | 0 => x.fsts.any (fun j => spanMeets j.span lo len || (isMx j.ot && spanMeets j.scaleSpan lo len))
  | 1 => x.vops.any (fun j => j.mayWrite lo len) || (match x.vrun with | some r => r.job.mayWrite lo len | none => false)
  | 2 => x.moves.any (fun j => j.mayWrite lo len) || (match x.mrun with | some r => r.job.mayWrite lo len | none => false)
  | _ => false

end Sys2Proof.Machine
end

