-- ==== Sys2Proof/Machine/Operands.lean ====
section
/-! DEFINITION. Operand fields of operation words and how an operation reaches scratchpad bytes (R242-R244, R276, R293, R313, R347). -/

namespace Sys2Proof.Machine

/-- No bit outside the listed fields (low bit, width) is set: unlisted bits of an operation word are reserved (R242). -/
def onlyBits (v : Nat) (l : List (Nat × Nat)) : Bool :=
  decide (l.foldl (fun a f => setBits a f.1 f.2 0) v = 0)

/-- Address registers named by Table 8-2: d, s and t. -/
def OpCtx.d (c : OpCtx) : Nat := bitsOf c.op 8 4
def OpCtx.s (c : OpCtx) : Nat := bitsOf c.op 12 4
def OpCtx.t3 (c : OpCtx) : Nat := bitsOf c.op 16 4
/-- The sign-extended 32-bit immediate of bits [63:32]. -/
def OpCtx.imm32 (c : OpCtx) : Int := signed 32 (bitsOf c.op 32 32)

/-- The value of address register `r` of the operation's engine. -/
def State.areg (s : State) (c : OpCtx) (r : Nat) : Nat := (s.engine c.t c.e).areg r

/-- A register plus an offset, modulo 2^41 (R243). -/
def addA (a : Nat) (i : Int) : Nat := wrapTo 41 ((a : Int) + i)

/-- A scratchpad address of a 64 B cell: bits [5:0] and [40:22] are 0. -/
def cellAligned (a : Nat) : Bool := decide (a % 64 = 0 ∧ a < 2 ^ 22)

/-- The 41-bit value of 8 B at a scratchpad offset that is a multiple of 8; none when its unit is poisoned. -/
def State.spWord (s : State) (t off : Nat) : Option Nat :=
  match (s.tile t).spad.half (off / 32) with
  | some v => some (bitsOf v.toNat (8 * (off % 32)) 64)
  | none => none

/-- The 64 B of a cell as a number; none when either unit is poisoned (R534). -/
def Cell64.clean (c : Cell64) : Option Nat :=
  match c.lo, c.hi with
  | some a, some b => some (a.toNat + b.toNat * 2 ^ 256)
  | _, _ => none

/-! ### Elements in bytes (R4, R43, R44) -/

/-- Byte `a` of a store; none when its unit is poisoned. -/
def Bytes.byteAt (b : Bytes) (a : Nat) : Option Nat :=
  if look noMark b.poison (a / 32) then none else some (look zeroByte b.bytes a).toNat

/-- The stored element of `size` bits at bit address `i`: none when any of its bytes is poisoned. A 4-bit element is a nibble. -/
def Bytes.elem (b : Bytes) (i size : Nat) : Option Nat :=
  if size = 4 then (b.byteAt (i / 8)).map (fun v => bitsOf v (i % 8) 4)
  else
    (List.range (size / 8)).foldl (fun r k =>
      match r, b.byteAt (i / 8 + k) with
      | some n, some v => some (n + v * 2 ^ (8 * k))
      | _, _ => none) (some 0)

/-- A byte that an operation is to write, with a poison mark for each nibble. -/
structure PByte where
  v  : Nat
  pl : Bool
  ph : Bool
  deriving DecidableEq, Repr

/-- Bytes that an operation is to write, by address; unlisted bytes are not written. -/
abbrev Patch := SMap (Option PByte)
def noPByte (_ : Nat) : Option PByte := none

/-- Put one byte; none is poison. -/
def Patch.byte (p : Patch) (a : Nat) (v : Option Nat) : Patch :=
  put noPByte p a (some (match v with | some n => ⟨n % 256, false, false⟩ | none => ⟨0, true, true⟩))

/-- Put an element of `size` bits at bit address `i`; none is poison, and a later element replaces an earlier one. -/
def Patch.elem (p : Patch) (i size : Nat) (v : Option Nat) : Patch :=
  if size = 4 then
    let old := (look noPByte p (i / 8)).getD ⟨0, false, false⟩
    let n := v.getD 0 % 16
    put noPByte p (i / 8) (some (if i % 8 = 0 then ⟨setBits old.v 0 4 n, v.isNone, old.ph⟩ else ⟨setBits old.v 4 4 n, old.pl, v.isNone⟩))
  else upto (size / 8) (fun k p => p.byte (i / 8 + k) (v.map (fun n => bitsOf n (8 * k) 8))) p

/-- The writes of one unit of a cell: mask and data. -/
def Patch.unit (l : Patch) (base : Nat) : Nat × Half :=
  let get := fun (i : Nat) => look noPByte l (base + i)
  let mask := (List.range 32).foldl (fun n i => if (get i).isSome then n + 2 ^ i else n) 0
  let bad := (List.range 32).any (fun i => match get i with | some b => b.pl || b.ph | none => false)
  (mask, if bad then none else some (BitVec.ofNat 256 ((List.range 32).foldl (fun n i => n + ((get i).map (·.v)).getD 0 * 2 ^ (8 * i)) 0)))

/-- The distinct 64 B cells that a patch writes, ascending, each with its byte mask (R282, R330). -/
def Patch.cells (p : Patch) : List (Nat × WriteData) :=
  ((p.map (fun (e : Nat × Option PByte) => e.1 / 64)).eraseDups).map (fun c =>
    let l := p.filter (fun (e : Nat × Option PByte) => decide (e.1 / 64 = c))
    let (ml, lo) := Patch.unit l (64 * c)
    let (mh, hi) := Patch.unit l (64 * c + 32)
    (c, ⟨BitVec.ofNat 64 (ml + mh * 2 ^ 32), ⟨lo, hi⟩⟩))

/-- Write a patch to a tile's own scratchpad; with `fill` each cell becomes full (R200, R201). -/
def State.spPatch (s : State) (t : Nat) (fill : Bool) (p : Patch) : State :=
  p.cells.foldl (fun (a : State) (c : Nat × WriteData) => if fill then a.spFill t c.1 t c.2 else a.spWrite t c.1 c.2) s

/-- Raise the same report `n` times. -/
def State.emitN (s : State) (n src code : Nat) (data : List Nat) : State :=
  { s with reports := s.reports ++ List.replicate n ⟨src, code, data, s.tsc⟩ }

end Sys2Proof.Machine
end

