-- ==== Sys2Proof/Machine/Common.lean ====
section
/-! DEFINITION. The operations common to every engine (Table 8-2, R242-R254). -/

namespace Sys2Proof.Machine

/-- The operation word has this opcode. -/
def opIs (code op : Nat) : Bool := decide (op % 256 = code)

/-- An address operation: `f` gives the new value of Ad, taken modulo 2^41 (R243). -/
def addressOp (code : Nat) (fields : List (Nat × Nat)) (f : OpCtx → State → Int) (t e : Nat) (w : OpWord) (s : State) : State :=
  s.issueOp t e w (opIs code) (fun op _ => onlyBits op ((0, 8) :: fields))
    (fun c s => .done (s.setA c.t c.e c.d (wrapTo 41 (f c s))))

def execNop (t : TileId) (e : EngId) (w : OpWord) (s : State) : Res :=
  .next (s.issueOp t.toNat e.val w (opIs 0x00) (fun op _ => onlyBits op [(0, 8)]) (fun _ s => .done s))

def execSeta (t : TileId) (e : EngId) (w : OpWord) (s : State) : Res :=
  .next (addressOp 0x01 [(8, 4), (32, 32)] (fun c _ => c.imm32) t.toNat e.val w s)

/-- SETAX: bits [63:41] of the extension word must be 0. -/
def execSetax (t : TileId) (e : EngId) (w : OpWord) (s : State) : Res :=
  .next (s.issueOp t.toNat e.val w (opIs 0x02) (fun op ext => onlyBits op [(0, 8), (8, 4)] && decide (ext < 2 ^ 41))
    (fun c s => .done (s.setA c.t c.e c.d c.ext)))

def execAdda (t : TileId) (e : EngId) (w : OpWord) (s : State) : Res :=
  .next (addressOp 0x03 [(8, 4), (12, 4), (16, 4)] (fun c s => (s.areg c c.s : Int) + s.areg c c.t3) t.toNat e.val w s)

def execSuba (t : TileId) (e : EngId) (w : OpWord) (s : State) : Res :=
  .next (addressOp 0x04 [(8, 4), (12, 4), (16, 4)] (fun c s => (s.areg c c.s : Int) - s.areg c c.t3) t.toNat e.val w s)

def execAddi (t : TileId) (e : EngId) (w : OpWord) (s : State) : Res :=
  .next (addressOp 0x05 [(8, 4), (12, 4), (32, 32)] (fun c s => (s.areg c c.s : Int) + c.imm32) t.toNat e.val w s)

/-- The shift amount of SHLA and SHRA is 0-40. -/
def shiftLegal (op : Nat) : Bool := onlyBits op [(0, 8), (8, 4), (12, 4), (20, 6)] && decide (bitsOf op 20 6 ≤ 40)

def execShla (t : TileId) (e : EngId) (w : OpWord) (s : State) : Res :=
  .next (s.issueOp t.toNat e.val w (opIs 0x06) (fun op _ => shiftLegal op)
    (fun c s => .done (s.setA c.t c.e c.d (s.areg c c.s * 2 ^ bitsOf c.op 20 6))))

def execShra (t : TileId) (e : EngId) (w : OpWord) (s : State) : Res :=
  .next (s.issueOp t.toNat e.val w (opIs 0x07) (fun op _ => shiftLegal op)
    (fun c s => .done (s.setA c.t c.e c.d (s.areg c c.s / 2 ^ bitsOf c.op 20 6))))

def execMula (t : TileId) (e : EngId) (w : OpWord) (s : State) : Res :=
  .next (addressOp 0x08 [(8, 4), (12, 4), (32, 16)] (fun c s => (s.areg c c.s : Int) * bitsOf c.op 32 16) t.toNat e.val w s)

/-- LDA (R244): ADDR on a bad offset, CTL_POISON on a poisoned unit; it reads after the engine's own writes (R197). -/
def execLda (t : TileId) (e : EngId) (w : OpWord) (s : State) : Res :=
  .next (s.issueOp t.toNat e.val w (opIs 0x09) (fun op _ => onlyBits op [(0, 8), (8, 4), (12, 4), (32, 32)])
    (fun c s =>
      let a := addA (s.areg c c.s) c.imm32
      if a % 8 ≠ 0 ∨ 0x3FFFF8 < a then .fault 12
      else if s.mayWrite c.t c.e a 8 then .hold
      else
        match s.spWord c.t a with
        | none => .fault 32
        | some v => .done ((s.bankUse c.t c.e [a / 64]).setA c.t c.e c.d v)))

/-- The address after `n` operations from `pc` (R250): past the page when the body leaves it. -/
def Tile.scan (x : Tile) (e : Nat) : Nat → Nat → Nat
  | 0, pc => pc
  | n + 1, pc => Tile.scan x e n (pc + x.opSize e pc)

/-- Skipped operations are taken as they arrive; a body that cannot be taken faults the tile. -/
def State.settleSkip (s : State) (t e : Nat) : State :=
  if s.faulted t then s
  else
    let x := s.tile t
    match x.skipOps (x.eng e).skip e with
    | (y, some (cause, loc)) => (s.setTile t y).tileFault t e cause loc
    | (y, none) => s.setTile t y

/-- LOOP (R247-R250) at issue; the LOOP itself is consumed. -/
def runLoop (c : OpCtx) (s : State) : Issued :=
  let x := s.tile c.t
  let g := x.eng c.e
  let k := bitsOf c.op 8 2
  let n := bitsOf c.op 16 12
  let count := if bit c.op 10 then s.areg c c.s % 2 ^ 32 else bitsOf c.op 32 32
  let depth := g.frames.length
  if g.loops.any (fun l => decide (l.k = k)) then .fault 7
  else
    let start := match g.frames with | f :: _ => f.pc | [] => g.ip
    let fin := match g.frames with | _ :: _ => x.scan c.e n start | [] => start + n
    let tooLong :=
      match g.frames with
      | f :: _ => decide ((f.page + 1) * 4096 < fin)
      | [] => g.loops.isEmpty && decide (64 < n)
    let crosses := match g.loops with | l :: _ => decide (l.depth = depth ∧ l.fin < fin) | [] => false
    if tooLong || crosses then .fault 6
    else
      let g := if g.frames.isEmpty && g.loops.isEmpty then { g with bodyOf := (c.loc.stream, c.loc.off), buf := [], ip := 0 } else g
      let (start, fin) := if g.frames.isEmpty && g.loops.isEmpty then (0, n) else (start, fin)
      if count = 0 then
        match g.frames with
        | f :: r => .done (s.setEngine c.t c.e { g with frames := { f with pc := fin } :: r })
        | [] => .done (s.setEngine c.t c.e { g with skip := n })
      else .done (s.setEngine c.t c.e { g with loops := ⟨k, count, depth, start, fin⟩ :: g.loops })

/-- LOOP; n = 0 is reserved. -/
def execLoop (t : TileId) (e : EngId) (w : OpWord) (s : State) : Res :=
  .next ((s.issueOp t.toNat e.val w (opIs 0x0A)
    (fun op _ => onlyBits op [(0, 8), (8, 2), (10, 1), (12, 4), (16, 12), (32, 32)] && decide (bitsOf op 16 12 ≠ 0))
    runLoop).settleSkip t.toNat e.val)

/-- CALL (R252, R253). -/
def execCall (t : TileId) (e : EngId) (w : OpWord) (s : State) : Res :=
  .next (s.issueOp t.toNat e.val w (opIs 0x0B) (fun op _ => onlyBits op [(0, 8), (35, 15)])
    (fun c s =>
      let g := s.engine c.t c.e
      let target := bitsOf c.op 32 18
      match g.frames with
      | [] => .done (s.setEngine c.t c.e { g with frames := [⟨target / 4096, target⟩], root := (c.loc.stream, c.loc.off) })
      | [f] =>
        if target / 4096 ≠ f.page then .fault 9
        else .done (s.setEngine c.t c.e { g with frames := [⟨f.page, target⟩, f] })
      | _ => .fault 8))

/-- RET (R252); a CALL in no loop body retires when its execution has returned (R254). -/
def execRet (t : TileId) (e : EngId) (w : OpWord) (s : State) : Res :=
  .next (s.issueOp t.toNat e.val w (opIs 0x0C) (fun op _ => onlyBits op [(0, 8)])
    (fun c s =>
      let x := s.tile c.t
      let g := x.eng c.e
      match g.frames with
      | [] => .fault 10
      | f :: r =>
        if g.loops.any (fun l => decide (l.depth = g.frames.length)) then .fault 10
        else
          let x := x.setEngine c.e { g with frames := r }
          .done (s.setTile c.t (if r.isEmpty && g.loops.isEmpty then x.retireCalls [f.page] else x))))

/-- FENCE (R245): a release completes before the acquire takes effect. -/
def execFence (t : TileId) (e : EngId) (w : OpWord) (s : State) : Res :=
  .next (s.issueOp t.toNat e.val w (opIs 0x0D) (fun op _ => onlyBits op [(0, 8), (8, 2)] && decide (bitsOf op 8 2 ≠ 0))
    (fun c s =>
      if bit c.op 8 && !s.released c.t c.e then .hold
      else .done (if bit c.op 9 then s.acquire c.t else s)))

end Sys2Proof.Machine
end

