-- ==== Sys2Proof/Machine/Bke.lean ====
section
/-! DEFINITION. The BKE's pass operation (R258, R259). -/

namespace Sys2Proof.Machine

/-- Replace a field of a pass instruction when its patch flag is set. -/
def patch (on : Bool) (lo w v : Nat) (pkt : Nat) : Nat := if on then setBits pkt lo w v else pkt

/-- The CC has no place for one more pass instruction, those on their way to it included, so that the BKE stalls (R138, R258). -/
def State.passFull (s : State) (target : Nat) : Bool :=
  let k := s.cc target
  decide (8 ≤ k.queue.length + k.ingress.length + (s.flight.filter (fun q => decide (q.1 = target))).length)

/-- PASS (R258): the template is read, patched and sent towards its CC on plane 5. -/
def execPass (t : TileId) (w : OpWord) (s : State) : Res :=
  .next (s.issueOp t.toNat 3 w (opIs 0x30) (fun op _ => onlyBits op [(0, 8), (8, 33)])
    (fun c s =>
      let off := s.areg c (bitsOf c.op 8 4) % 2 ^ 22
      let target := if bit c.op 27 then s.areg c (bitsOf c.op 28 4) % 2 ^ 9 else bitsOf c.op 32 9
      if off % 64 ≠ 0 then .fault 12
      else if 383 < target then .fault 13
      else
        if s.passFull target then .hold
        else
        match (s.spCell c.t (off / 64)).clean with
        | none => .fault 32
        | some v =>
          let v := patch (bit c.op 24) 128 13 (s.areg c (bitsOf c.op 12 4)) v
          let v := patch (bit c.op 25) 192 22 (s.areg c (bitsOf c.op 16 4)) v
          let v := patch (bit c.op 26) 276 22 (s.areg c (bitsOf c.op 20 4)) v
          .done { s.bankUse c.t 3 [off / 64] with flight := s.flight ++ [(target, ⟨c.t, BitVec.ofNat 512 v⟩)] }))

end Sys2Proof.Machine
end

