-- ==== Sys2Proof/Machine/Flags.lean ====
section
/-! DEFINITION. The sticky flags that arithmetic raises: invalid, overflow and poison consumed (R55, R56, R132). -/

namespace Sys2Proof.Machine

/-- What an operation consumed or raised in one engine (R55, R132). -/
structure Note where
  causes : List Nat := []     -- causes of event 0x0503
  inv    : Bool := false
  ovf    : Bool := false
  deriving DecidableEq, Repr

/-- Two notes of one operation: a cause counts once, so that an operation raises one event 0x0503 for each distinct cause in an engine however many lanes or granules it met (DESIGN CHOICE, log 64). -/
def Note.and (a b : Note) : Note :=
  { causes := a.causes ++ b.causes.filter (fun c => !a.causes.contains c), inv := a.inv || b.inv, ovf := a.ovf || b.ovf }

/-- One rounded result: the flags of R55 for its inputs. -/
def rounded (ins : List FV) (r : FV) : PV × Note := (pvF r, { inv := newNan ins r, ovf := newInf ins r })

/-- A result with the flags of its roundings. -/
def rd32 (ins : List FV) (r : FV) : FV × Note := (r, { inv := newNan ins r, ovf := newInf ins r })

/-- Raise sticky flags of a status register (R55). -/
def State.flags (s : State) (base : Nat) (inv ovf pois : Fld) (i o p : Bool) : State :=
  let s := if i then s.raise base inv else s
  let s := if o then s.raise base ovf else s
  if p then s.raise base pois else s

def State.mxeFlags (s : State) (t : Nat) (i o p : Bool) : State :=
  s.flags (tileB t) MXE_STATUS_INVALID MXE_STATUS_OVERFLOW MXE_STATUS_POISON i o p

/-- Engine number of bank index `p` of group `g` of channel `c`. -/
def engIdx (c g p : Nat) : Nat := 128 * c + 64 * g + p

/-- The flags and events of one engine's operation (R55, R132). -/
def State.note (s : State) (c g p : Nat) (n : Note) : State :=
  let b := bdB (c / 32)
  let d := 8 * (c % 32)
  let e := s.eng (engIdx c g p)
  let s := s.setEng (engIdx c g p) { e with inv := e.inv || n.inv, ovf := e.ovf || n.ovf, poi := e.poi || !n.causes.isEmpty }
  let s := if n.inv then s.raise b (B_NEWT_STAT_INVALID.at d) else s
  let s := if n.ovf then s.raise b (B_NEWT_STAT_OVERFLOW.at d) else s
  n.causes.foldl (fun s x => (s.raise b (B_NEWT_STAT_POISON.at d)).emit (bdSrc (c / 32)) 0x0503 [c % 32, p, x]) s

end Sys2Proof.Machine
end

