-- ==== Sys2Proof/Machine/Newt.lean ====
section
/-! DEFINITION. The bank engine: its operations, their arithmetic, poison and states (Bank Engines (Newt), R104-R137). -/

namespace Sys2Proof.Machine

/-! ### Items of engine state -/

def someZero (_ : Nat) : Half := some 0
def ssZero (_ : Nat) : Option (BitVec 16) := some 0
def pvZero (_ : Nat) : PV := pv0
def pvMinus (_ : Nat) : PV := pvNegInf

def EngSt.obAt (e : EngSt) (granule : Nat) : Half := look someZero e.ob granule
def EngSt.ssAt (e : EngSt) (granule : Nat) : Option (BitVec 16) := look ssZero e.ss granule
def EngSt.accAt (e : EngSt) (j l : Nat) : PV := look pvZero e.acc (8 * j + l)
def EngSt.setAcc (e : EngSt) (j l : Nat) (v : PV) : EngSt := { e with acc := put pvZero e.acc (8 * j + l) v }
def EngSt.mAt (e : EngSt) (l : Nat) : PV := look pvMinus e.m l
def EngSt.lAt (e : EngSt) (l : Nat) : PV := look pvZero e.l l
def EngSt.sAt (e : EngSt) (l : Nat) : PV := look pvZero e.s l
def EngSt.pAt (e : EngSt) (l : Nat) : Option (BitVec 16) := look ssZero e.p l

/-- A byte of the operand buffer; none where its granule is poisoned. -/
def EngSt.obByte (e : EngSt) (i : Nat) : Option Nat := (e.obAt (i / 32)).map (fun v => bitsOf v.toNat (8 * (i % 32)) 8)
/-- A byte of SS. -/
def EngSt.ssByte (e : EngSt) (i : Nat) : Option Nat := (e.ssAt (i / 2)).map (fun v => bitsOf v.toNat (8 * (i % 2)) 8)

/-- Apply a second step to a result. -/
def after (a : FV × Note) (f : FV → FV × Note) : FV × Note := let b := f a.1; (b.1, a.2.and b.2)

/-! ### GEMV (R111-R115) -/

/-- Elements of one block of a weight column: type, first bit of element `e` of block `b` (Table 4-4). -/
def weightAt (wt : Nat) (col : Nat) (b e : Nat) : FV :=
  if wt = 0x14 then elemValue wt (bitsOf col (128 * b + 4 * e) 4)
  else if wt = 0x09 then elemValue wt (bitsOf col (16 * e) 16)
  else elemValue wt (bitsOf col (8 * e) 8)

/-- Byte of the operand buffer that scale-stage byte `a` lies in (R113). -/
def stageByte (a : Nat) : Nat := if a < 512 then 512 + a else 1536 + (a - 512)

/-- The weight type carries MX scales. -/
def mxWeight (wt : Nat) : Bool := decide (0x10 ≤ wt ∧ wt ≤ 0x14)

/-- The stage scale of row `i`, slot `j`, block `b`: 127 for a weight without scales, none when poisoned (R113). -/
def EngSt.weightScale (e : EngSt) (i j b : Nat) : Option Nat :=
  if !mxWeight e.wt then some 127
  else if e.wt = 0x14 then e.obByte (stageByte ((128 * i + 2 * j + b) % 1024))
  else e.obByte (stageByte ((64 * i + j) % 1024))

/-- An element of the broadcast operand (R111). -/
def EngSt.operand (e : EngSt) (h l b k : Nat) : Option FV :=
  if e.aty = 0x09 then
    match e.obByte (1024 * h + 64 * l + 2 * k), e.obByte (1024 * h + 64 * l + 2 * k + 1) with
    | some x, some y => some (elemValue 0x09 (x + 256 * y))
    | _, _ => none
  else (e.obByte (1024 * h + 64 * l + 32 * b + k)).map (elemValue e.aty)

/-- Add one MX block to an accumulator: exact block sum, scaled, one rounding (R51). -/
def addBlock (acc : FV) (ws as : List FV) (ew ea : Nat) : PV × Note :=
  let prods := (ws.zip as).map (fun p => mulX p.1 p.2)
  let t := if ew = 255 ∨ ea = 255 then .nan else scale2 (sumX prods) ((ew + ea : Nat) - 254 : Int)
  let ins := acc :: (if ew = 255 ∨ ea = 255 then [.nan] else ws ++ as)
  rounded ins (add32 acc t)

/-- The causes that a lane's other inputs add where the weight column is poisoned (R132). -/
def EngSt.inputCauses (e : EngSt) (j h i l : Nat) : List Nat :=
  if e.wt = 0x09 then (if (List.range 16).any (fun k => (e.operand h l 0 k).isNone) then [3] else [])
  else
    let bs := List.range (if e.wt = 0x14 then 2 else 1)
    (if bs.any (fun b => (e.weightScale i j b).isNone || (e.ssByte (64 * h + 2 * l + b)).isNone) then [2] else []) ++
    (if bs.any (fun b => (List.range 32).any (fun k => (e.operand h l b k).isNone)) then [3] else [])

/-- The GEMV accumulation of one lane, block by block or element by element (R114); a poisoned input poisons it. -/
def EngSt.gemvLane (e : EngSt) (col : Half) (j h i l : Nat) : PV × Note :=
  let old := e.accAt j l
  match col with
  | none => (.pois, { causes := 1 :: e.inputCauses j h i l })
  | some w =>
    if e.wt = 0x09 then
      (List.range 16).foldl (fun r k =>
        match r.1, e.operand h l 0 k with
        | .val b, some a =>
          let x := weightAt 0x09 w.toNat 0 k
          let (v, n) := rounded [decodeF fp32 b.toNat, x, a] (fma32 x a (decodeF fp32 b.toNat))
          (v, r.2.and n)
        | _, none => (.pois, r.2.and { causes := [3] })
        | .pois, _ => (.pois, r.2)) (old, {})
    else
      (List.range (if e.wt = 0x14 then 2 else 1)).foldl (fun r b =>
        let ew := e.weightScale i j b
        let ea := e.ssByte (64 * h + 2 * l + b)
        let as := (List.range 32).map (fun k => e.operand h l b k)
        let bad : Note := { causes := (if ew.isNone || ea.isNone then [2] else []) ++ (if as.any (·.isNone) then [3] else []) }
        match r.1, ew, ea with
        | .val v, some x, some y =>
          if as.any (·.isNone) then (.pois, r.2.and bad)
          else
            let (q, n) := addBlock (decodeF fp32 v.toNat) ((List.range 32).map (weightAt e.wt w.toNat b)) (as.map (·.getD pzero)) x y
            (q, r.2.and n)
        | _, _, _ => (.pois, r.2.and bad)) (old, {})

/-- CMP in GEMV mode (R114). -/
def EngSt.cmpGemv (e : EngSt) (col : Half) (j h i : Nat) : EngSt × Note :=
  (List.range 8).foldl (fun r l =>
    let (v, n) := e.gemvLane col j h i l
    (r.1.setAcc j l v, r.2.and n)) (e, {})

/-! ### SCORE (R116) -/

/-- FP16 bits of a conversion with SAT = 1. -/
def toFp16 (x : FV) : Conv := toFmt fp16 true x

/-- `L` after a score `s` with the old and new maxima (R116). -/
def renorm (lv m mn s : FV) : FV := add32 (mul32 lv (exp2T (addX m mn.neg))) (exp2T (addX s mn.neg))

/-- The end of a key in one lane: the score goes to SS and M, L follow (R116). -/
def EngSt.endKey (e : EngSt) (n l : Nat) : EngSt × Note :=
  let e' := { e with s := put pvZero e.s l pv0 }
  match e.sAt l with
  | .pois =>
    ({ e' with ss := put ssZero e.ss (8 * n + l) none, m := put pvMinus e.m l .pois, l := put pvZero e.l l .pois }, {})
  | .val b =>
    let c := toFp16 (decodeF fp32 b.toNat)
    let sc := decodeF fp16 c.bits
    let e' := { e' with ss := put ssZero e.ss (8 * n + l) (some (BitVec.ofNat 16 c.bits)) }
    let note : Note := { inv := c.inv, ovf := c.ovf }
    match e.mAt l, e.lAt l with
    | .val mb, .val lb =>
      let m := decodeF fp32 mb.toNat
      let lv := decodeF fp32 lb.toNat
      let mn := maxF m sc
      let ln := if mn = .inf true then lv else renorm lv m mn sc
      ({ e' with m := put pvMinus e.m l (pvF mn), l := put pvZero e.l l (pvF ln) },
       note.and { inv := newNan [m, sc, lv] ln, ovf := newInf [m, sc, lv] ln })
    | .val mb, .pois => ({ e' with m := put pvMinus e.m l (pvF (maxF (decodeF fp32 mb.toNat) sc)) }, note)
    | .pois, _ => ({ e' with m := put pvMinus e.m l .pois, l := put pvZero e.l l .pois }, note)

/-- CMP in SCORE mode (R116): key block `d`, slot `n`. -/
def EngSt.cmpScore (e : EngSt) (col : Half) (d n : Nat) (last : Bool) : EngSt × Note :=
  (List.range 8).foldl (fun r l =>
    let e := r.1
    let q := (List.range 32).map (fun k => (e.obByte (128 * l + 32 * d + k)).map (elemValue e.aty))
    let eq := e.obByte (1024 + 4 * l + d)
    let bad : List Nat := (if col.isNone then [4] else []) ++ (if eq.isNone then [2] else []) ++ (if q.any (·.isNone) then [3] else [])
    let (v, note) : PV × Note :=
      match e.sAt l, col, eq with
      | .val b, some w, some x =>
        if q.any (·.isNone) then (.pois, { causes := bad })
        else addBlock (decodeF fp32 b.toNat) ((List.range 32).map (weightAt e.wt w.toNat 0)) (q.map (·.getD pzero)) 127 x
      | _, _, _ => (.pois, { causes := bad })
    let e := { e with s := put pvZero e.s l v }
    if last then
      let (e, n2) := e.endKey n l
      (e, (r.2.and note).and n2)
    else (e, r.2.and note)) (e, {})

/-! ### VALUE (R117) -/

/-- The weight of a new key in one lane: where M is -Infinity the score is not read (R64, R117). -/
def EngSt.newKey (e : EngSt) (n l : Nat) : EngSt × Note :=
  match e.mAt l with
  | .pois => ({ e with p := put ssZero e.p l none }, { causes := if (e.ssAt (8 * n + l)).isNone then [6] else [] })
  | .val mb =>
    let m := decodeF fp32 mb.toNat
    if m = .inf true then ({ e with p := put ssZero e.p l (some 0) }, {})
    else
      match e.ssAt (8 * n + l) with
      | none => ({ e with p := put ssZero e.p l none }, { causes := [6] })
      | some sc =>
        let x := decodeF fp16 sc.toNat
        let w := exp2T (addX x m.neg)
        ({ e with p := put ssZero e.p l (some (BitVec.ofNat 16 (rndB16 w))) }, { inv := newNan [x, m] w, ovf := newInf [x, m] w })

/-- CMP in VALUE mode (R117): 32-dimension block `x`, slot `n`. A weight poisoned by M alone is no cause of Table 4-7. -/
def EngSt.cmpValue (e : EngSt) (col : Half) (x n : Nat) (first : Bool) : EngSt × Note :=
  let r := if first then (List.range 8).foldl (fun r l => let (e, m) := r.1.newKey n l; (e, r.2.and m)) (e, ({} : Note)) else (e, {})
  (List.range 256).foldl (fun r i =>
    let (k, l) := (i / 8, i % 8)
    let e := r.1
    match e.accAt (32 * x + k) l, col, e.pAt l with
    | .val b, some w, some p =>
      let a := decodeF fp32 b.toNat
      let v := weightAt e.wt w.toNat 0 k
      let pf := decodeF bf16 p.toNat
      let (q, m) := rounded [a, v, pf] (fma32 pf v a)
      (e.setAcc (32 * x + k) l q, r.2.and m)
    | _, c, p => (e.setAcc (32 * x + k) l .pois,
        r.2.and { causes := (if c.isNone then [5] else []) ++ (if p.isNone && (e.ssAt (8 * n + l)).isNone then [6] else []) })) r

/-! ### Clearing and faulting (R107, R123) -/

/-- CLR: scope 0 clears ACC, S and P, scope 1 also M and L (Table 4-2). -/
def EngSt.clr (e : EngSt) (scope : Bool) : EngSt :=
  let e := { e with acc := [], s := [], p := [] }
  if scope then { e with m := [], l := [] } else e

/-- ENTER at the end of a complete unlock sequence (R145). -/
def EngSt.enter (e : EngSt) : EngSt :=
  { (e.clr true) with st := .ready, isOpen := false, ob := [], ss := [], mode := 0, masked := false }

/-- Every value poisoned: `n` entries. -/
def allPois (n : Nat) : SMap PV := (List.range n).map (fun i => (i, .pois))

/-- Entering FAULT poisons ACC, M and L (R123). -/
def EngSt.toFault (e : EngSt) : EngSt := { e with st := .fault, acc := allPois 512, m := allPois 8, l := allPois 8 }

/-- ABT (Table 4-2). -/
def EngSt.abt (e : EngSt) : EngSt :=
  { (e.clr true) with mode := 0, masked := false, st := if e.st = .idle then .idle else if e.isOpen then .opened else .ready }

/-- Apply a change to every engine of a group that is not OFF. -/
def State.eachEng (s : State) (c g : Nat) (f : Nat → EngSt → EngSt) : State :=
  upto 64 (fun p s => if s.engOff c g p then s else s.setEng (engIdx c g p) (f p (s.eng (engIdx c g p)))) s

/-- The state code of Table 4-13. -/
def EngMode.code : EngMode → Nat | .idle => 1 | .ready => 2 | .opened => 3 | .fault => 0

/-- The engines of a group that take a sequence error enter FAULT; the event is sent once per pass (R123), and at each operation while no pass is active (DESIGN CHOICE, log 64). `op` is the code of Table 4-13. -/
def State.seqError (s : State) (c g op : Nat) (hit : EngSt → Bool) : State :=
  let ps := (List.range 64).filter (fun p => !s.engOff c g p && (s.eng (engIdx c g p)).st ≠ .fault && hit (s.eng (engIdx c g p)))
  match ps with
  | [] => s
  | p0 :: _ =>
    let before := (s.eng (engIdx c g p0)).st.code
    let s' := ps.foldl (fun s p => s.setEng (engIdx c g p) (s.eng (engIdx c g p)).toFault) s
    let s' := s'.raise (bdB (c / 32)) (B_NEWT_STAT_SEQ_ERR.at (8 * (c % 32)))
    let k := s'.cc c
    match k.active with
    | some a =>
      let s' := s'.setCc c { k with active := some { a with seqErr := true, faulted := true } }
      if a.seqErr then s' else s'.emit (bdSrc (c / 32)) 0x0501 [c % 32, p0, ps.length, op, before]
    | none => s'.emit (bdSrc (c / 32)) 0x0501 [c % 32, p0, ps.length, op, before]

/-- An engine accepts column operations on the array (Table 4-6). -/
def EngSt.works (e : EngSt) : Bool := decide (e.st = .opened) && !e.masked

/-- A bank-engine read of one column of the open row: the check, and the poison count of R132. -/
def State.engRead (s : State) (c g p row col : Nat) : Half × State :=
  let n := mkKey c (64 * g + p) row (32 * col) / 32
  let (h, _, s) := s.readCol c n 2
  (h, if h.isNone then s.sat (bdB (c / 32)) (B_NEWT_STAT_POISON_COLS.at (8 * (c % 32))) 1 else s)

/-- One column operation in every working engine of a group, with the column it reads. -/
def State.eachRead (s : State) (c g col : Nat) (f : EngSt → Half → EngSt × Note) : State :=
  upto 64 (fun p s =>
    let e := s.eng (engIdx c g p)
    if s.engOff c g p || !e.works then s
    else
      let (h, s) := s.engRead c g p e.row col
      let (e, n) := f (s.eng (engIdx c g p)) h
      (s.setEng (engIdx c g p) e).note c g p n) s

/-- One column write in every working engine of a group; it supersedes a queued write-back of the column (R97, R118, R119). -/
def State.eachWrite (s : State) (c g col : Nat) (f : EngSt → Half) : State :=
  upto 64 (fun p s =>
    let e := s.eng (engIdx c g p)
    if s.engOff c g p || !e.works then s
    else
      let n := mkKey c (64 * g + p) e.row (32 * col) / 32
      let s := s.setCc c ((s.cc c).dropWriteBack n)
      { s with mem := s.mem.writeCol n (f e) }) s

/-- The number of engines that perform a column operation. -/
def State.working (s : State) (c g : Nat) : Nat :=
  ((List.range 64).filter (fun p => !s.engOff c g p && (s.eng (engIdx c g p)).works)).length

/-- The 32 B of SS from byte `32 o`; poisoned when one of its granules is (R118). -/
def EngSt.ssColumn (e : EngSt) (o : Nat) : Half :=
  let g := (List.range 16).map (fun i => e.ssAt (16 * o + i))
  if g.any (·.isNone) then none
  else some (BitVec.ofNat 256 (g.reverse.foldl (fun a x => a * 65536 + (x.map (·.toNat)).getD 0) 0))

/-- Put 32 B into SS from byte `32 o` (SLD, OPB). -/
def EngSt.setSs (e : EngSt) (o : Nat) (h : Half) : EngSt :=
  { e with ss := upto 16 (fun i m => put ssZero m (16 * o + i) (h.map (fun v => BitVec.ofNat 16 (bitsOf v.toNat (16 * i) 16)))) e.ss }

/-- OPB: 64 B into OB or SS at an offset in 64 B units (Table 4-2). -/
def EngSt.opb (e : EngSt) (toSs : Bool) (off : Nat) (d : Cell64) : EngSt :=
  if toSs then (e.setSs (2 * off) d.lo).setSs (2 * off + 1) d.hi
  else { e with ob := put someZero (put someZero e.ob (2 * off) d.lo) (2 * off + 1) d.hi }

/-! ### Operations of a group (Tables 4-2, 4-6) -/

/-- A set-up operation: performed in READY and OPEN, ignored in IDLE and FAULT. -/
def State.setUp (s : State) (c g : Nat) (f : Nat → EngSt → EngSt) : State :=
  s.eachEng c g (fun p e => if e.st = .ready ∨ e.st = .opened then f p e else e)

def State.opCfg (s : State) (c g mode wt aty mask : Nat) : State :=
  s.setUp c g (fun p e => { e with mode := mode, wt := wt, aty := aty, masked := !bit mask p })

def State.opClr (s : State) (c g : Nat) (scope : Bool) : State := s.setUp c g (fun _ e => e.clr scope)

def State.opOpb (s : State) (c g : Nat) (toSs : Bool) (off : Nat) (d : Cell64) : State :=
  s.setUp c g (fun _ e => e.opb toSs off d)

/-- The engine holds a row open, so that the B-die blocks an activate of its bank (Table 4-6). -/
def State.engOpen (s : State) (c g p : Nat) : Bool := !s.engOff c g p && decide ((s.eng (engIdx c g p)).st = .opened)

/-- ACTA: counted in each bank of the group in which it activates (R92), the rows counter once per channel. An engine in OPEN enters FAULT and its row stays open; one that was in FAULT records the row (Table 4-6). -/
def State.opActa (s : State) (c g row : Nat) : State :=
  let was := fun (p : Nat) => (s.eng (engIdx c g p)).st
  let stays := s.engOpen c g
  let s := upto 64 (fun p s => if stays p then s else s.activate c (64 * g + p) row) s
  let s := s.countB (c / 32) B_NEWT_ROWS_COUNT 1
  let s := s.seqError c g 3 (fun e => decide (e.st = .opened))
  s.eachEng c g (fun p e => match was p with
    | .ready => { e with st := .opened, isOpen := true, row := row }
    | .fault => { e with isOpen := true, row := row }
    | _ => e)

def State.opPrea (s : State) (c g : Nat) : State :=
  s.eachEng c g (fun _ e => match e.st with
    | .opened => { e with st := .ready, isOpen := false }
    | .fault => { e with isOpen := false }
    | _ => e)

/-- A column operation is a sequence error in READY, and in OPEN with MODE = NONE for those that need a mode (R122). -/
def State.colError (s : State) (c g op : Nat) (needsMode : Bool) : State :=
  s.seqError c g op (fun e => decide (e.st = .ready) || (decide (e.st = .opened) && needsMode && decide (e.mode = 0)))

/-- One CMP of a burst: `i`-th operation, or a sequence error (R143). -/
structure CmpBurst where
  c0 : Nat
  n  : Nat
  h  : Nat
  x0 : Nat
  n0 : Nat
  w  : Nat
  p  : Nat
  deriving DecidableEq, Repr

/-- Column of the `i`-th operation (R143). -/
def CmpBurst.col (b : CmpBurst) (i : Nat) : Nat := b.c0 + i / b.w * b.p + i % b.w

/-- Perform one CMP in every working engine by its mode. -/
def State.opCmp (s : State) (c g : Nat) (b : CmpBurst) (i : Nat) : State :=
  let s := s.colError c g 9 true
  let s := (s.countB (c / 32) B_NEWT_COLS_COUNT 1).countB (c / 32) B_NEWT_ENGCOLS_COUNT (s.working c g)
  let k := i / b.w
  let r := i % b.w
  s.eachRead c g (b.col i) (fun e h =>
    match e.mode with
    | 1 => e.cmpGemv h (b.col i) b.h b.x0
    | 2 => e.cmpScore h r ((b.n0 + k) % 16) (decide (r = 3))
    | 3 => e.cmpValue h r ((b.n0 + k) % 16) (decide (r = 0))
    | _ => (e, {}))

/-- Operations `i0 … i0 + k - 1` of a CMP burst; one that leaves the columns 0-63 is a sequence error as a whole (R143). -/
def State.burstCmp (s : State) (c g : Nat) (b : CmpBurst) (i0 k : Nat) : State :=
  if (List.range b.n).all (fun i => decide (b.col i < 64)) then upto k (fun i s => s.opCmp c g b (i0 + i)) s
  else s.seqError c g 9 (fun e => decide (e.st ≠ .idle))

/-- SCL: columns into the scale stage (R113). -/
def State.burstScl (s : State) (c g c0 n o0 i0 k : Nat) : State :=
  if c0 + n ≤ 64 ∧ o0 + n ≤ 32 then
    upto k (fun i s => (s.colError c g 8 true).eachRead c g (c0 + i0 + i)
      (fun e h => ({ e with ob := put someZero e.ob (stageByte (32 * (o0 + i0 + i)) / 32) h }, {}))) s
  else s.seqError c g 8 (fun e => decide (e.st ≠ .idle))

/-- SLD: columns into SS. -/
def State.burstSld (s : State) (c g c0 n o0 i0 k : Nat) : State :=
  if c0 + n ≤ 64 ∧ o0 + n ≤ 8 then
    upto k (fun i s => (s.colError c g 10 true).eachRead c g (c0 + i0 + i) (fun e h => (e.setSs (o0 + i0 + i) h, {}))) s
  else s.seqError c g 10 (fun e => decide (e.st ≠ .idle))

/-- BLW: SS bytes into columns (R118). -/
def State.burstBlw (s : State) (c g c0 n o0 i0 k : Nat) : State :=
  if c0 + n ≤ 64 ∧ o0 + n ≤ 8 then
    upto k (fun i s => (s.colError c g 11 true).eachWrite c g (c0 + i0 + i) (fun e => e.ssColumn (o0 + i0 + i))) s
  else s.seqError c g 11 (fun e => decide (e.st ≠ .idle))

/-- RCR: columns into OB; a poisoned column is consumed (R119, R132). -/
def State.burstRcr (s : State) (c g c0 n i0 k : Nat) : State :=
  if c0 + n ≤ 64 then
    upto k (fun i s => (s.colError c g 12 false).eachRead c g (c0 + i0 + i)
      (fun e h => ({ e with ob := put someZero e.ob (c0 + i0 + i) h }, { causes := if h.isNone then [7] else [] }))) s
  else s.seqError c g 12 (fun e => decide (e.st ≠ .idle))

/-- RCW: OB granules into columns (R119). -/
def State.burstRcw (s : State) (c g c0 n i0 k : Nat) : State :=
  if c0 + n ≤ 64 then
    upto k (fun i s => (s.colError c g 13 false).eachWrite c g (c0 + i0 + i) (fun e => e.obAt (c0 + i0 + i))) s
  else s.seqError c g 13 (fun e => decide (e.st ≠ .idle))

/-- EXIT: every engine of the channel enters IDLE and holds no state (R147). -/
def State.opExit (s : State) (c : Nat) : State :=
  let s := upto 128 (fun i s => if s.engOff c (i / 64) (i % 64) then s else s.setEng (128 * c + i) EngSt.blank) s
  s.setCc c { s.cc c with pim := false }

/-- ENTER: every engine of the channel in IDLE becomes READY (R145), its flags kept; one in READY or OPEN enters FAULT, and one in FAULT stays (Table 4-6). -/
def State.opEnter (s : State) (c : Nat) : State :=
  let hit := fun (e : EngSt) => decide (e.st = .ready ∨ e.st = .opened)
  let s := (s.seqError c 0 1 hit).seqError c 1 1 hit
  let s := upto 128 (fun i s =>
    if s.engOff c (i / 64) (i % 64) || decide ((s.eng (128 * c + i)).st ≠ .idle) then s
    else s.setEng (128 * c + i) ((s.eng (128 * c + i)).enter)) s
  s.setCc c { s.cc c with pim := true }

def State.opAbt (s : State) (c g : Nat) : State := s.eachEng c g (fun _ e => if e.st = .idle then e else e.abt)

/-! ### Drain units (R129, R133, R157) -/

/-- The values that an engine drains. -/
def EngSt.drainVals (e : EngSt) : SMap PV :=
  if e.mode = 2 then (List.range 8).map (fun l => (l, e.mAt l)) ++ (List.range 8).map (fun l => (8 + l, e.lAt l)) else e.acc

/-- The drain unit of bank index `p`; an OFF engine is answered for by the B-die. -/
def State.drainUnit (s : State) (c g p mask : Nat) : DrainUnit :=
  if s.engOff c g p then
    { absent := !bit mask p, fault := false, inv := false, ovf := false, vals := [], allBad := bit mask p }
  else
    let e := s.eng (engIdx c g p)
    if e.st = .fault then { absent := false, fault := true, inv := e.inv, ovf := e.ovf, vals := [], allBad := true }
    else if e.masked then { absent := true, fault := false, inv := false, ovf := false, vals := [], allBad := false }
    else { absent := false, fault := false, inv := e.inv, ovf := e.ovf, vals := e.drainVals, allBad := false }

/-- OFF engines inside the mask are reported (R133). -/
def State.maskHits (s : State) (c g mask : Nat) : State :=
  upto 64 (fun p s =>
    if s.engOff c g p && bit mask p then
      (s.raise (bdB (c / 32)) (B_NEWT_STAT_MASK_HIT.at (8 * (c % 32)))).emit (bdSrc (c / 32)) 0x0502 [c % 32, p]
    else s) s

end Sys2Proof.Machine
end

