-- ==== Sys2Proof/Machine/Passes.lean ====
section
/-! DEFINITION. Pass instructions, their checks and expansion, PIM mode, operand fetch, panic, drains and the end of a pass (Bank Pass Command Sequences, R138-R159, R166-R167). -/

namespace Sys2Proof.Machine

/-! ### Fields of a pass instruction (Table 5-1) -/

abbrev Pkt := BitVec 512
def Pkt.f (p : Pkt) (lo w : Nat) : Nat := bitsOf p.toNat lo w
def pKind (p : Pkt) : Nat := Pkt.f p 0 4
def pG (p : Pkt) : Nat := Pkt.f p 4 1
def pWt (p : Pkt) : Nat := Pkt.f p 5 5
def pAt (p : Pkt) : Nat := Pkt.f p 10 5
def pClr (p : Pkt) : Bool := decide (Pkt.f p 15 1 = 1)
def pScope (p : Pkt) : Bool := decide (Pkt.f p 16 1 = 1)
def pExit (p : Pkt) : Bool := decide (Pkt.f p 17 1 = 1)
def pDrain (p : Pkt) : Bool := decide (Pkt.f p 18 1 = 1)
def pTag (p : Pkt) : Nat := Pkt.f p 32 16
def pMask (p : Pkt) : Nat := Pkt.f p 64 64
def pRow0 (p : Pkt) : Nat := Pkt.f p 128 13
def pStride (p : Pkt) : Nat := Pkt.f p 141 8
/-- Number of rows. -/
def pRows (p : Pkt) : Nat := Pkt.f p 149 6 + 1
def pC0 (p : Pkt) : Nat := Pkt.f p 155 6
/-- Burst length. -/
def pCols (p : Pkt) : Nat := Pkt.f p 161 6 + 1
/-- Key pitch in columns. -/
def pPitch (p : Pkt) : Nat := Pkt.f p 167 3 + 1
/-- Columns per key. -/
def pW (p : Pkt) : Nat := Pkt.f p 170 2 + 1
def pScr (p : Pkt) : Nat := Pkt.f p 172 6
def pDst (p : Pkt) : Nat := Pkt.f p 178 13
def pOpnd (p : Pkt) : Nat := Pkt.f p 192 22
def pRec (p : Pkt) : Nat := Pkt.f p 214 16
def pMop (p : Pkt) : Nat := Pkt.f p 256 2
def pMdest (p : Pkt) : Nat := Pkt.f p 258 4
def pMcount (p : Pkt) : Nat := Pkt.f p 262 5
def pResTile (p : Pkt) : Nat := Pkt.f p 267 9
def pResAddr (p : Pkt) : Nat := Pkt.f p 276 22
def pSegRow (p : Pkt) (s : Nat) : Nat := Pkt.f p (320 + 24 * s) 13
def pSegCol (p : Pkt) (s : Nat) : Nat := Pkt.f p (333 + 24 * s) 6

/-- Every bit that Table 5-1 gives no field is 0. -/
def pReservedClear (p : Pkt) : Bool :=
  decide (Pkt.f p 19 13 = 0 ∧ Pkt.f p 48 16 = 0 ∧ Pkt.f p 191 1 = 0 ∧ Pkt.f p 230 26 = 0 ∧ Pkt.f p 298 22 = 0) &&
  (List.range 8).all (fun s => decide (Pkt.f p (339 + 24 * s) 5 = 0))

/-- Rows that one scale segment serves (R128, check 9). -/
def segRows (wt : Nat) : Nat := if wt = 0x14 then 8 else 16
/-- Length of the SCL burst of segment `s` (R151). -/
def segLen (p : Pkt) (s : Nat) : Nat := min (segRows (pWt p)) (pRows p - s * segRows (pWt p)) * (if pWt p = 0x14 then 4 else 2)
/-- Segments that the pass loads. -/
def segCount (p : Pkt) : Nat := (pRows p + segRows (pWt p) - 1) / segRows (pWt p)

/-- The format combinations of Table 4-3 (check 2). -/
def comboOk (p : Pkt) : Bool :=
  let mx8 := decide (pAt p = 0x10 ∨ pAt p = 0x11)
  let fp8 := decide (pWt p = 0x0B ∨ pWt p = 0x0C)
  match pKind p with
  | 1 => (mx8 && (decide (0x10 ≤ pWt p ∧ pWt p ≤ 0x14) || fp8)) || decide (pWt p = 0x09 ∧ pAt p = 0x09)
  | 2 => fp8 && mx8
  | 3 => fp8
  | 4 => listedType (pWt p)
  | _ => true

/-- Keys of one row. -/
def pKeys (p : Pkt) : Nat := pCols p / pW p

/-- Every column lies in the row (check 4). -/
def columnsOk (p : Pkt) : Bool :=
  if pKind p = 1 ∨ pKind p = 4 then decide (pC0 p + pCols p ≤ 64)
  else decide (pCols p % pW p = 0 ∧ pW p ≤ pPitch p ∧ pC0 p + (pKeys p - 1) * pPitch p + pW p ≤ 64 ∧ pScr p + (pKeys p + 1) / 2 ≤ 64)

/-- Bytes of a merge result with its status cell (Table 5-9). -/
def resultBytes (mop : Nat) : Nat := match mop with | 0 => 2049 * 64 | 1 => 64 | 2 => 34 * 64 | _ => 0

/-- Operand records and result fit the scratchpad at 64 B alignment (check 6); OPND_PITCH is judged in GEMV alone (DESIGN CHOICE, log 29). -/
def addressesOk (p : Pkt) : Bool :=
  decide (pOpnd p % 64 = 0 ∧ pResAddr p % 64 = 0 ∧ pResAddr p + resultBytes (pMop p) ≤ 2 ^ 22) &&
  (match pKind p with
   | 1 => decide (pRec p % 64 = 0 ∧ pOpnd p + (pRows p - 1) * pRec p + (if pAt p = 0x09 then 512 else 576) ≤ 2 ^ 22)
   | 2 => decide (pOpnd p + 1088 ≤ 2 ^ 22)
   | _ => true)

/-- MOP matches KIND and DRAIN (check 7). -/
def mergeOk (p : Pkt) : Bool := decide (pMop p = 3) || (decide (pKind p = pMop p + 1) && pDrain p)

/-- The checks of Table 5-3 that need no command: the lowest failing reason, 0 when all hold. -/
def passCheck (p : Pkt) : Nat :=
  if !pReservedClear p || decide (pKind p = 0) || decide (5 < pKind p) then 1
  else if pKind p = 5 then 0
  else if pStride p = 0 ∨ pW p ≠ (match pKind p with | 2 => 4 | 3 => 2 | _ => 1) then 1
  else if !comboOk p then 2
  else if 8191 < pRow0 p + (pRows p - 1) * pStride p ∨ (pKind p = 4 ∧ 8191 < pDst p + (pRows p - 1) * pStride p) then 3
  else if !columnsOk p then 4
  else if pMask p = 0 then 5
  else if !addressesOk p then 6
  else if !mergeOk p then 7
  else if pKind p = 1 ∧ mxWeight (pWt p) ∧ (List.range (segCount p)).any (fun s => decide (64 < pSegCol p s + segLen p s)) then 9
  else 0

/-! ### Expansion (R151) -/

/-- OPBs of operand record `k` (Table 5-2). -/
def opbs (p : Pkt) (k : Nat) : List PCmd :=
  (List.range (if pKind p = 2 then 17 else if pAt p = 0x09 then 8 else 9)).map (fun u => .opb k u)

/-- The commands of one row of the pass (R151, R152). -/
def rowCmds (p : Pkt) (k : Nat) : List PCmd :=
  let row := pRow0 p + k * pStride p
  let n := pCols p
  match pKind p with
  | 1 =>
    let sr := segRows (pWt p)
    (if mxWeight (pWt p) ∧ k % sr = 0 then
      let s := k / sr
      [.acta (pSegRow p s), .scl (pSegCol p s) (segLen p s) 0 (segLen p s), .prea] else []) ++
    [.acta row, .cmp (pC0 p) n (k % 2) (k % sr) 0 n (pDrain p && decide (k + 1 = pRows p))] ++
    (if k + 1 < pRows p then opbs p (k + 1) else []) ++ [.prea]
  | 2 => [.acta row, .cmp (pC0 p) n 0 0 0 n false, .blw (pScr p) ((pKeys p + 1) / 2) 0 ((pKeys p + 1) / 2), .prea]
  | 3 => [.acta row, .sld (pScr p) ((pKeys p + 1) / 2) 0 ((pKeys p + 1) / 2), .cmp (pC0 p) n 0 0 0 n false, .prea]
  | 4 => [.acta row, .rcr (pC0 p) n 0 n, .prea, .acta (pDst p + k * pStride p), .rcw (pC0 p) n 0 n, .prea]
  | _ => []

/-- Every command of a pass that runs, in order. -/
def passPlan (p : Pkt) : List PCmd :=
  if pKind p = 5 then [.exit]
  else
    [.cfg] ++ (if pClr p then [.clr] else []) ++
    (if pKind p = 1 ∨ pKind p = 2 then opbs p 0 else []) ++
    (List.range (pRows p)).flatMap (rowCmds p) ++
    (if pDrain p && (decide (pKind p = 2) || decide (pKind p = 3)) then [.drn] else []) ++
    (if pExit p then [.exit] else [])

/-! ### Contributions (R140, R157-R160) -/

def mergeKey (p : Pkt) : MergeKey := ⟨pMop p, pMdest p, pMcount p, pResTile p, pResAddr p⟩

/-- Hand a contribution to the stack's merge unit. -/
def State.contribute (s : State) (c : Nat) (x : Contribution) : State :=
  s.setBd (c / 32) { s.bd (c / 32) with arrived := (s.bd (c / 32)).arrived ++ [x] }

/-- The all-poisoned contribution of an instruction, when one is due (R140). -/
def State.standIn (s : State) (c : Nat) (r : PassReq) : State :=
  if pMop r.pkt ≠ 3 ∧ mergeOk r.pkt then
    s.contribute c ⟨c % 32, mergeKey r.pkt, pTag r.pkt, r.tile, true, []⟩
  else s

/-- The channel's drain buffer is free (R158); a stand-in holds no drained data and occupies none (DESIGN CHOICE, log 65). -/
def State.bufferFree (s : State) (c : Nat) : Bool :=
  !(s.bd (c / 32)).arrived.any (fun x => decide (x.chan = c % 32) && !x.standIn)

/-- A drain of the computing group: each engine's unit goes to the buffer, or is discarded when MOP is 3 (R157, R159). -/
def State.drain (s : State) (c : Nat) (r : PassReq) : State :=
  let g := pG r.pkt
  let s := s.maskHits c g (pMask r.pkt)
  if pMop r.pkt = 3 then s
  else s.contribute c ⟨c % 32, mergeKey r.pkt, pTag r.pkt, r.tile, false,
    (List.range 64).map (fun p => s.drainUnit c g p (pMask r.pkt))⟩

/-! ### Panic (R84, R156) -/

/-- The operand unit has arrived. -/
def Active.has (a : Active) (rec unit : Nat) : Bool := look noMark a.fetched (32 * rec + unit)

/-- Commands that the buffer holds: up to 64, until the first OPB whose data has not arrived (R155). -/
def Active.buffered (a : Active) : Nat :=
  ((a.todo.take 64).takeWhile (fun m => match m with | .opb r u => a.has r u | _ => true)).length

/-- Panic falls: its time is counted and a long period reported (R156). -/
def State.panicEnd (s : State) (c tag : Nat) : State :=
  let k := s.cc c
  let d := s.tsc - k.panicAt
  let s := s.setCc c { k with panic := false }
  let s := s.countC c CC_BSEQ_PANIC_NS d
  let ev := s.rd (ccB c) CC_BSEQ_CTRL_PANIC_EV
  if ev ≠ 0 ∧ 8 * ev < d then s.emit (ccSrc c) 0x0545 [tag, d] else s

/-- Panic rises or falls with the command buffer (R84). -/
def State.panicCheck (s : State) (c : Nat) : State :=
  let k := s.cc c
  match k.active with
  | none => s
  | some a =>
    if !k.panic && decide (a.buffered < s.rd (ccB c) CC_SCHED_CTRL_PANIC_LWM) then
      s.setCc c { k with panic := true, panicAt := s.tsc, yields := 0 }
    else if k.panic && decide (s.rd (ccB c) CC_SCHED_CTRL_PANIC_HWM ≤ a.buffered) then s.panicEnd c (pTag a.req.pkt)
    else s

/-! ### Words of pass commands in the trace (Tables 5-4, 5-5) -/

def colHead (op g : Nat) : Nat := op * 2 ^ 35 + g * 2 ^ 34
def colBurst (op g c0 k : Nat) : Nat := colHead op g + c0 * 2 ^ 28 + (k - 1) * 2 ^ 22

/-- The row and column words of a command. -/
def cmdWords (p : Pkt) : PCmd → Nat × Nat
  | .cfg => (0, colHead 0x10 (pG p) + (pKind p % 8) * 2 ^ 31 + pWt p * 2 ^ 26 + pAt p * 2 ^ 21)
  | .clr => (0, colHead 0x11 (pG p) + (if pScope p then 2 ^ 33 else 0))
  | .opb r u =>
    if pKind p = 2 then (0, colHead 0x12 (pG p) + u * 2 ^ 28)
    else if u < 8 then (0, colHead 0x12 (pG p) + (16 * (r % 2) + u) * 2 ^ 28)
    else (0, colHead 0x12 (pG p) + 2 ^ 33 + (r % 2) * 2 ^ 28)
  | .acta row => (rowActa (pG p) row, 0)
  | .prea => (rowPrea (pG p), 0)
  | .scl c0 _ i k => (0, colBurst 0x13 (pG p) (c0 + i) k + i * 2 ^ 17)
  | .cmp c0 _ h x i k dl =>
    let key := i / pW p
    (0, colBurst 0x14 (pG p) (c0 + key * pPitch p + i % pW p) k + x % 16 * 2 ^ 18 + h * 2 ^ 17 + (if pKind p = 1 then 0 else key % 16) * 2 ^ 13
        + (if dl then 2 ^ 12 else 0) + (pW p - 1) * 2 ^ 10 + (if pKind p = 1 then 0 else pPitch p - 1) * 2 ^ 7)
  | .sld c0 _ i k => (0, colBurst 0x15 (pG p) (c0 + i) k + i * 2 ^ 19)
  | .blw c0 _ i k => (0, colBurst 0x16 (pG p) (c0 + i) k + i * 2 ^ 19)
  | .rcr c0 _ i k => (0, colBurst 0x17 (pG p) (c0 + i) k)
  | .rcw c0 _ i k => (0, colBurst 0x18 (pG p) (c0 + i) k)
  | .drn => (0, colHead 0x19 (pG p))
  | .exit => (rowExit, 0)

/-! ### Running commands -/

/-- The CMP burst of a pass (R143): W and P are 1 in GEMV. -/
def cmpBurst (p : Pkt) (c0 n h x : Nat) : CmpBurst :=
  { c0 := c0, n := n, h := h, x0 := x, n0 := 0, w := if pKind p = 1 then 1 else pW p, p := if pKind p = 1 then 1 else pPitch p }

/-- The effect of one command on the engines, the rows and the drain path. -/
def State.perform (s : State) (c : Nat) (a : Active) (m : PCmd) : State :=
  let p := a.req.pkt
  let g := pG p
  match m with
  | .cfg => s.opCfg c g (pKind p) (pWt p) (pAt p) (pMask p)
  | .clr => s.opClr c g (pScope p)
  | .opb r u =>
    let d := look (fun _ => Cell64.zero) a.operands (32 * r + u)
    if pKind p = 2 then s.opOpb c g false u d
    else if u < 8 then s.opOpb c g false (16 * (r % 2) + u) d
    else s.opOpb c g true (r % 2) d
  | .acta row =>
    let s := s.opActa c g row
    s.setCc c { s.cc c with active := (s.cc c).active.map (fun a => { a with gap := false }) }
  | .prea =>
    let s := s.opPrea c g
    let s := s.effect (ccB c) CC_SCHED_CTRL_GAP_REQS
    let k := s.cc c
    s.setCc c { k with preaAt := put noRow k.preaAt g (some s.tsc),
                       active := k.active.map (fun a => { a with gapServed := 0, gap := true }) }
  | .scl c0 n i k => s.burstScl c g c0 n 0 i k
  | .cmp c0 n h x i k dl =>
    let s := s.burstCmp c g (cmpBurst p c0 n h x) i k
    if dl && decide (i + k = n) then s.drain c a.req else s
  | .sld c0 n i k => s.burstSld c g c0 n 0 i k
  | .blw c0 n i k => s.burstBlw c g c0 n 0 i k
  | .rcr c0 n i k => s.burstRcr c g c0 n i k
  | .rcw c0 n i k => s.burstRcw c g c0 n i k
  | .drn =>
    let s := s.seqError c g 14 (fun e => decide ((e.st = .ready ∨ e.st = .opened) ∧ e.mode = 0))
    s.drain c a.req
  | .exit => s.opExit c

/-- The commands from the front through the PREA that closes the next row period, and the rest. -/
def nextPeriod : List PCmd → List PCmd × List PCmd
  | [] => ([], [])
  | .prea :: r => ([.prea], r)
  | m :: r => let (a, b) := nextPeriod r; (m :: a, b)

/-- Spacing of a stack level, in SCLK (Table 16-2). -/
def spacingOf (l : Nat) : Nat := [0, 212, 426, 852, 1704, 1704, 1704, 3408].getD l 3408

/-- The ns that a level adds between a group's PREA and its next ACTA: the spacing on top of tRPP, 56 SCLK, at 4 SCLK a ns; no throttle holds at level 0 (R435). -/
def spacingNs (l : Nat) : Nat := if spacingOf l = 0 then 0 else (56 + spacingOf l + 3) / 4

/-- The spacing in force has passed since the group's last PREA (R435, R439). -/
def State.spaced (s : State) (c g : Nat) : Bool :=
  match look noRow (s.cc c).preaAt g with
  | some t => decide (t + spacingNs (bitsOf (s.rd pwrB PWR_SLEVEL_LEVEL) (3 * (c / 32)) 3) ≤ s.tsc)
  | none => true

/-- The next row period's ACTA is held neither for the refresh slot nor for spacing, and a burst of it that drains finds the drain buffer free (R153, R154, R158). -/
def State.rowReady (s : State) (c : Nat) (a : Active) : Bool :=
  !a.held && s.spaced c (pG a.req.pkt) &&
    (nextPeriod a.todo).1.all (fun m => match m with | .cmp _ _ _ _ _ _ dl => !dl || s.bufferFree c | _ => true)

/-- A command may issue: an OPB needs its data, an ACTA all that its row period needs, DRN a free drain buffer (R152, R158). -/
def State.mayIssue (s : State) (c : Nat) (a : Active) : PCmd → Bool
  | .opb r u => a.has r u
  | .acta _ => s.rowReady c a && (nextPeriod a.todo).1.all (fun m => match m with | .opb r u => a.has r u | _ => true)
  | .drn => s.bufferFree c
  | _ => true

/-- The neighbour refreshes that run ahead of bank-port commands: escalated ones, and in a gap those of the computing group (R80, R93, R94, R154). -/
def State.gapRefresh : Nat → State → Nat → State
  | 0, s, _ => s
  | n + 1, s, c =>
    match (s.cc c).nextEscalated with
    | some m => State.gapRefresh n (s.issueRefresh c m) c
    | none =>
      match (if (match (s.cc c).active with | some a => a.inGap | none => false) then s.groupRefresh c else none) with
      | some m => State.gapRefresh n (s.issueRefresh c m) c
      | none => s

/-- Every one of them. -/
def State.refreshFirst (s : State) (c : Nat) : State :=
  State.gapRefresh (2 * ((s.cc c).maint.length + (s.cc c).waiting.length)) s c

/-- What is left of the gap before an ACTA: neighbour refreshes that are due, the requests and write-backs of the group that GAP_REQS still allows, and the precharge of every row opened in it (R83, R93, R154). -/
def State.endGap (s : State) (c g : Nat) : State :=
  let s := State.gapServe 16 (s.refreshFirst c) c
  upto 64 (fun i (s : State) => s.closeRow c (64 * g + i)) (s.refreshFirst c)

/-- Issue one command of the active pass, an ACTA at the end of its gap: its slot and its effect. -/
def State.issue (s : State) (c : Nat) (a : Active) (m : PCmd) : State :=
  let w := cmdWords a.req.pkt m
  let s := match m with
    | .acta _ => s.endGap c (pG a.req.pkt)
    | _ => s
  (s.bankCmd c (some (pTag a.req.pkt)) w.1 w.2).perform c a m

/-- Put the commands that remain into the active pass. -/
def State.setTodo (s : State) (c : Nat) (l : List PCmd) : State :=
  s.setCc c { s.cc c with active := (s.cc c).active.map (fun a => { a with todo := l }) }

/-- Issue commands from the front while they may issue, at most `n` of them. -/
def State.issueAll : Nat → State → Nat → State
  | 0, s, _ => s
  | n + 1, s, c =>
    match (s.cc c).active with
    | none => s
    | some a =>
      match a.todo with
      | [] => s
      | m :: rest => if s.mayIssue c a m then State.issueAll n ((s.issue c a m).setTodo c rest) c else s

/-! ### Operand fetch (R139, R167) -/

/-- The first operand unit of a list of commands that has not arrived; `asked` GEMV records are asked of the tile. -/
def Active.firstUnit (a : Active) (asked : Option Nat) (l : List PCmd) : Option (Nat × Nat) :=
  l.findSome? (fun m => match m with
    | .opb r u => if a.has r u || (match asked with | some n => decide (pKind a.req.pkt = 1 ∧ n ≤ r) | none => false) then none else some (r, u)
    | _ => none)

/-- The first operand unit that was asked of the tile and has not arrived: the units of the records that lie OPND_AHEAD rows ahead, and all for which the 64 entries of the command buffer have room, so that the buffer fills while an ACTA is held (R139, R155, R440; DESIGN CHOICE, log 29). -/
def Active.nextFetch (a : Active) : Option (Nat × Nat) :=
  match a.firstUnit none (a.todo.take 64) with
  | some x => some x
  | none => a.firstUnit (some a.asked) a.todo

/-- One operand fetch is answered: a plain read of a cell of the issuing tile; an error response gives poison and event 0x0544 once (R139, R167). It waits while the seam link holds it. -/
def State.fetchOne (s : State) (c : Nat) : State :=
  match (s.cc c).active with
  | none => s
  | some a =>
    match a.nextFetch with
    | none => s
    | some (r, u) =>
      let t := a.req.tile
      if s.seamHeld (chanDie c) (tileDie t) then s
      else
      let addr := pOpnd a.req.pkt + r * pRec a.req.pkt + 64 * u
      let key := 32 * r + u
      let up := decide (s.nocCause t = 0)
      let d := if up then s.spCell t (addr / 64) else Cell64.bad
      let s := if up then s else s.nocError t (ccSrc c) (ccSrc c) 5 false
      let s := if up || a.fetchErr then s else s.emit (ccSrc c) 0x0544 [pTag a.req.pkt, t, addr]
      let a := { a with operands := put (fun _ => Cell64.zero) a.operands key d }
      let a := { a with fetched := put noMark a.fetched key true, fetchErr := a.fetchErr || !up }
      s.setCc c { s.cc c with active := some a }

/-! ### Claim, unlock and end of a pass -/

/-- Stacks that are active (R441). -/
def State.activeStacks (s : State) : Nat := ((List.range 12).filter (fun k => (s.bd k).activeAt.isSome)).length

/-- Some other inactive stack has waited longer for its first claim (R441). -/
def State.olderWaiter (s : State) (c : Nat) : Bool :=
  let mine := ((s.cc c).claimAt).getD s.tsc
  (List.range 384).any (fun d =>
    decide (d / 32 ≠ c / 32) && (s.bd (d / 32)).activeAt.isNone &&
    match (s.cc d).claimAt with
    | none => false
    | some x => decide (x < mine ∨ (x = mine ∧ d / 32 < c / 32)))

/-- Some stack waits for a claim. -/
def State.someWaiter (s : State) (k : Nat) : Bool :=
  (List.range 384).any (fun d => decide (d / 32 ≠ k) && (s.bd (d / 32)).activeAt.isNone && (s.cc d).claimAt.isSome)

/-- The active-stack limit lets the channel claim (R441). -/
def State.mayClaim (s : State) (c : Nat) : Bool :=
  match (s.bd (c / 32)).activeAt with
  | some t => !(s.someWaiter (c / 32) && decide (t + 100000 ≤ s.tsc))
  | none => decide (s.activeStacks < s.rd pwrB PWR_STATUS_ACTIVE_LIM) && !s.olderWaiter c

/-- A rejected instruction: event 0x0541, the record and the all-poisoned contribution (R140). -/
def State.reject (s : State) (c : Nat) (r : PassReq) (reason : Nat) : State :=
  let b := ccB c
  let s := s.emit (ccSrc c) 0x0541 [pTag r.pkt, reason]
  let s := ((s.wr b CC_BSEQ_REJ_TAG (pTag r.pkt)).wr b CC_BSEQ_REJ_REASON reason).raise b CC_BSEQ_REJ_VALID
  s.standIn c r

/-- The queue moves up: a held packet enters a free place (R138). -/
def CcSt.pull (k : CcSt) : CcSt :=
  match k.ingress with
  | r :: rest => if k.queue.length < 8 then { k with queue := k.queue ++ [r], ingress := rest } else k
  | [] => k

/-- A pass just claimed; `ahead` GEMV records are asked of the tile beyond the first (R139). -/
def Active.start (r : PassReq) (ahead : Nat) : Active :=
  { req := r, todo := passPlan r.pkt, operands := [], fetched := [], fetchErr := false, seqErr := false,
    faulted := false, unlocked := false, gapServed := 0, gap := false, held := false, asked := 1 + ahead }

/-- Grant the claim of the group of the next pass (R82): an escalated neighbour refresh goes first (R80), accepted writes to the group's banks are performed and open rows closed. -/
def State.claim (s : State) (c : Nat) : State :=
  let k := s.cc c
  match k.queue with
  | [] => s
  | r :: rest =>
    if k.active.isSome then s
    else if !s.mayClaim c then s.setCc c { k with claimAt := some (k.claimAt.getD s.tsc) }
    else
      let g := pG r.pkt
      let s := s.refreshFirst c
      let s := s.setBd (c / 32) { s.bd (c / 32) with activeAt := some ((s.bd (c / 32)).activeAt.getD s.tsc) }
      let s := s.setCc c { s.cc c with claimAt := none }
      let s := s.pdx c (3 * 4 ^ g)
      let s := s.flushPool c (fun r => decide (keyBank r.key / 64 = g) &&
        (r.write.isSome || k.pool.any (fun q => q.write.isSome && decide (q.key = r.key))))
      let s := upto 64 (fun i s => s.closeRow c (64 * g + i)) s
      s.setCc c (CcSt.pull { s.cc c with queue := rest, retried := false, active := some (Active.start r (s.rd (ccB c) CC_BSEQ_CTRL_OPND_AHEAD)) })

/-- The stack becomes inactive when no channel of it holds a claim (R441). -/
def State.release (s : State) (c : Nat) : State :=
  let s := s.setCc c { s.cc c with active := none, retried := false }
  if (List.range 32).any (fun i => (s.cc (c / 32 * 32 + i)).active.isSome) then s
  else s.setBd (c / 32) { s.bd (c / 32) with activeAt := none }

/-- The unlock sequence (R144): an escalated neighbour refresh goes first (R80), rows are closed, the keys written, and ENTER takes effect or is reported as a failure. -/
def State.unlock (s : State) (c : Nat) (ok : Bool) : State :=
  let s := s.refreshFirst c
  let tag := ((s.cc c).active.map (fun a => pTag a.req.pkt))
  let s := if (s.cc c).rows.isEmpty then s else (s.setCc c { s.cc c with rows := [] }).bankCmd c tag rowPreab 0
  let s := ((s.bankCmd c tag (rowMrw 0x3C 0x6A5) 0).bankCmd c tag (rowMrw 0x3D 0x95A) 0).bankCmd c tag rowEnter 0
  if ok then s.opEnter c else s

/-- The pass ends, and it counts in CC_BSEQ_PASSES whatever its KIND, EXIT included (DESIGN CHOICE, log 29): faulted engines are cleared by ABT, after the EXIT of a pass that has the EXIT flag (DESIGN CHOICE, log 73), pending class D values take effect and the group is released (R166). -/
def State.passEnd (s : State) (c : Nat) : State :=
  match (s.cc c).active with
  | none => s
  | some a =>
    let g := pG a.req.pkt
    let s := if a.faulted then
        ((s.bankCmd c (some (pTag a.req.pkt)) 0 (colHead 0x1A g)).opAbt c g).emit (ccSrc c) 0x0543 [pTag a.req.pkt, g]
      else s
    let s := if (s.cc c).panic then s.panicEnd c (pTag a.req.pkt) else s
    let s := s.countC c CC_BSEQ_PASSES_COUNT 1
    let s := s.effects (ccB c) [CC_SCHED_CTRL_PANIC_LWM, CC_SCHED_CTRL_PANIC_HWM, CC_BSEQ_CTRL_SPLIT_MIN, CC_BSEQ_CTRL_OPND_AHEAD]
    s.release c

/-- End the active pass when nothing of it remains. -/
def State.endIfDone (s : State) (c : Nat) : State :=
  match (s.cc c).active with
  | some a => if a.todo.isEmpty then s.passEnd c else s
  | none => s

/-- Commands that all remaining fetches may need: one for each operand unit of the plan. -/
def State.fetchAll (s : State) (c : Nat) : State :=
  match (s.cc c).active with
  | none => s
  | some a => upto a.todo.length (fun _ s => s.fetchOne c) s

/-- Bring the channel into PIM mode for the active pass; a reported failure waits for its retry (R144, R148). -/
def State.enterPim (s : State) (c : Nat) (ok : Bool) : State :=
  match (s.cc c).active with
  | none => s
  | some a =>
    if a.unlocked || (s.cc c).retried then s
    else if (s.cc c).pim then s.setCc c { s.cc c with active := some { a with unlocked := true } }
    else
      let s := s.unlock c ok
      if ok then s.setCc c { s.cc c with active := (s.cc c).active.map (fun a => { a with unlocked := true }) }
      else s.setCc c { s.cc c with retried := true }

/-- The rest of the active pass: fetches, commands, and its end when the drain path lets it finish. -/
def State.runRest (s : State) (c : Nat) : State :=
  match (s.cc c).active with
  | none => s
  | some a =>
    if a.unlocked then
      let s := s.setCc c { s.cc c with active := some { a with asked := max a.asked (pRows a.req.pkt) } }
      let s := (s.refreshFirst c).fetchAll c
      let s := State.issueAll a.todo.length s c
      (s.endIfDone c).panicCheck c
    else s.panicCheck c

/-- The next queued instruction is rejected: it failed a check of Table 5-3. -/
def State.rejectHead (s : State) (c : Nat) : State :=
  match (s.cc c).queue with
  | [] => s
  | r :: rest => (s.setCc c (CcSt.pull { s.cc c with queue := rest })).reject c r (passCheck r.pkt)

/-- The instruction that a pass command concerns: the active one, else the head of the queue. -/
def CcSt.next (k : CcSt) : Option PassReq :=
  match k.active with
  | some a => some a.req
  | none => k.queue.head?

/-- A pass row of the table: the pass of this KIND is checked, claimed, unlocked and run (R140, R151). A head of reserved KIND is rejected by any of them. -/
def passRow (kind : Nat) (c : Nat) (unlockOk : Bool) (strikes : List Strike) (s : State) : State :=
  match (s.cc c).next with
  | none => s
  | some r =>
    if pKind r.pkt = kind ∨ pKind r.pkt = 0 ∨ 5 < pKind r.pkt then
      if (s.cc c).active.isNone ∧ passCheck r.pkt ≠ 0 then s.rejectHead c
      else
        let s := s.strike c strikes
        let s := if (s.cc c).active.isNone then s.claim c else s
        (s.enterPim c unlockOk).runRest c
    else s

/-- EXIT_PASS (R151): EXIT is issued when the channel is in PIM mode, and the group is released. -/
def exitPass (c : Nat) (s : State) : State :=
  match (s.cc c).next with
  | none => s
  | some r =>
    if pKind r.pkt = 5 then
      if (s.cc c).active.isNone ∧ passCheck r.pkt ≠ 0 then s.rejectHead c
      else
        let s := if (s.cc c).active.isNone then s.claim c else s
        match (s.cc c).active with
        | none => s
        | some a => ((if (s.cc c).pim then (s.refreshFirst c).issue c a .exit else s).setTodo c []).passEnd c
    else s

/-- PASS_GROUP_CLAIM (R82): the next pass, when it passes its checks, claims its group. -/
def passGroupClaim (c : Nat) (s : State) : State :=
  match (s.cc c).queue with
  | [] => s
  | r :: _ => if (s.cc c).active.isSome ∨ passCheck r.pkt ≠ 0 then s else (s.claim c).panicCheck c

/-- A pass instruction at its CC (R138, R140, R365). -/
def State.passArrive (s : State) (c : Nat) (r : PassReq) : State :=
  let k := s.tileOwner r.tile
  if k ≠ 0 ∧ s.stackOwner (c / 32) ≠ k then (s.emit (ccSrc c) 0x0107 [r.tile, 2]).standIn c r
  else if s.retired c || s.molting c then (s.emit (ccSrc c) 0x0546 [pTag r.pkt]).standIn c r
  else
    let q := s.cc c
    s.setCc c (if q.queue.length < 8 ∧ q.ingress = [] then { q with queue := q.queue ++ [r] } else { q with ingress := q.ingress ++ [r] })

/-- PASS_INSTRUCTION (R138): the oldest packet in flight from the tile to the CC, or one presented by a tile out of reset when none is (log 4). The seam link may hold it (R18, R19), and a die in reset takes none (R27). -/
def passInstruction (c t : Nat) (pkt : Pkt) (s : State) : State :=
  if s.seamHeld (tileDie t) (chanDie c) || !s.dieUp (chanDie c) then s
  else
  match s.flight.find? (fun q => decide (q.1 = c ∧ q.2.tile = t)) with
  | some q =>
    if q.2.pkt = pkt then State.passArrive { s with flight := s.flight.erase q } c q.2 else s
  | none => if s.tileUp t then s.passArrive c ⟨t, pkt⟩ else s

/-- UNLOCK_RETRY (R148): the one repeat; a second failure emits 0x0542 and rejects the pass with reason 8. -/
def unlockRetry (c : Nat) (ok : Bool) (s : State) : State :=
  match (s.cc c).active with
  | none => s
  | some a =>
    if !(s.cc c).retried then s
    else
      let s := s.unlock c ok
      if ok then (s.setCc c { s.cc c with retried := false, active := some { a with unlocked := true } }).panicCheck c
      else
        let s := s.emit (ccSrc c) 0x0542 [pTag a.req.pkt]
        let s := if (s.cc c).panic then s.panicEnd c (pTag a.req.pkt) else s
        (s.release c).reject c a.req 8

/-- OPERAND_FETCH_RESPONSE (R139): the next fetch is answered and panic follows the buffer (R84). -/
def operandFetchResponse (c : Nat) (s : State) : State := (s.fetchOne c).panicCheck c

/-! ### One row period (R152, R153) -/

/-- The number of column operations of a command. -/
def PCmd.ops : PCmd → Nat
  | .scl _ _ _ k | .cmp _ _ _ _ _ k _ | .sld _ _ _ k | .blw _ _ _ k | .rcr _ _ _ k | .rcw _ _ _ k => k
  | _ => 0

/-- The first `n` operations of a burst, and the rest of it. -/
def PCmd.cut (n : Nat) : PCmd → PCmd × PCmd
  | .scl c0 m i k => (.scl c0 m i n, .scl c0 m (i + n) (k - n))
  | .cmp c0 m h x i k dl => (.cmp c0 m h x i n dl, .cmp c0 m h x (i + n) (k - n) dl)
  | .sld c0 m i k => (.sld c0 m i n, .sld c0 m (i + n) (k - n))
  | .blw c0 m i k => (.blw c0 m i n, .blw c0 m (i + n) (k - n))
  | .rcr c0 m i k => (.rcr c0 m i n, .rcr c0 m (i + n) (k - n))
  | .rcw c0 m i k => (.rcw c0 m i n, .rcw c0 m (i + n) (k - n))
  | m => (m, m)

/-- Split the commands of a row period after its `n`-th column operation. -/
def cutOps : Nat → List PCmd → List PCmd × List PCmd
  | _, [] => ([], [])
  | n, m :: r =>
    if m.ops ≤ n then let (a, b) := cutOps (n - m.ops) r; (m :: a, b)
    else if n = 0 then ([], m :: r)
    else ([(m.cut n).1], (m.cut n).2 :: r)

/-- The row that a row period opens. -/
def periodRow (l : List PCmd) : Option Nat := l.findSome? (fun m => match m with | .acta r => some r | _ => none)

/-- OPBs for the following row wait for the gap when their data has not arrived. -/
def Active.deferred (a : Active) : PCmd → Bool
  | .opb r u => !a.has r u
  | _ => false

/-- The two parts of a row period of which `n` operations fit before the slot (R153). -/
def splitPeriod (n : Nat) (l : List PCmd) : List PCmd × List PCmd :=
  let pre := l.takeWhile (fun m => !m.isActa)
  let body := l.drop pre.length
  match periodRow body with
  | none => (l, [])
  | some row =>
    let (a, b) := cutOps n (body.drop 1)
    (pre ++ [.acta row] ++ a ++ [.prea], .acta row :: b)

/-- The ACTA is held until the refresh slot has passed (R153). -/
def State.hold (s : State) (c : Nat) : State :=
  s.setCc c { s.cc c with active := (s.cc c).active.map (fun a => { a with held := true }) }

/-- The records that a row's operands lie ahead of are asked of the tile (R139): `l` broadcasts the record of the next row. -/
def State.askAhead (s : State) (c : Nat) (l : List PCmd) : State :=
  match l.findSome? (fun m => match m with | .opb r _ => some r | _ => none) with
  | none => s
  | some r =>
    s.setCc c { s.cc c with active := (s.cc c).active.map (fun a => { a with asked := max a.asked (r + s.rd (ccB c) CC_BSEQ_CTRL_OPND_AHEAD) }) }

/-- ROW_PERIOD_START (R152, R153): the row period runs once its commands are buffered and the OPBs before it have their data. `split` gives the operations that fit before the refresh slot when not all of them do: at least SPLIT_MIN run as the first part, fewer hold the ACTA; what remains waits for the slot. -/
def rowPeriodStart (c : Nat) (split : Option Nat) (strikes : List Strike) (s : State) : State :=
  if (match (s.cc c).active with | some a => !a.todo.contains .prea | none => true) then s
  else
    let s := (s.enterPim c true).refreshFirst c
    match (s.cc c).active with
    | none => s
    | some a =>
      let (l, rest) := nextPeriod a.todo
      let before := l.takeWhile (fun m => !m.isActa)
      let total := l.foldl (fun n m => n + m.ops) 0
      if !a.unlocked || before.any a.deferred || !s.rowReady c a then s
      else
        let late := l.filter a.deferred
        let now := l.filter (fun m => !a.deferred m)
        let s := s.askAhead c l
        match split.filter (fun n => decide (n < total)) with
        | none => ((State.issueAll now.length ((s.strike c strikes).setTodo c (now ++ late ++ rest)) c)).panicCheck c
        | some n =>
          if n < s.rd (ccB c) CC_BSEQ_CTRL_SPLIT_MIN then s.hold c
          else
            let (first, second) := splitPeriod n now
            let s := ((s.strike c strikes).setTodo c (first ++ second ++ late ++ rest)).countC c CC_BSEQ_SPLITS_COUNT 1
            ((State.issueAll first.length s c).hold c).panicCheck c

/-! ### Reserved command words (R141, R142) -/

/-- RESERVED_COMMAND_WORD: a reserved row or column word is ignored by the B-die and flagged as a sequence error of the engines in READY or OPEN; out of PIM mode there are none and nothing is flagged (DESIGN CHOICE, log 29). -/
def reservedCommandWord (c : Nat) (column : Bool) (word : Nat) (s : State) : State :=
  let op := bitsOf word 35 5
  let reserved := if column then !(decide (op ≤ 2) || decide (0x10 ≤ op ∧ op ≤ 0x1A)) else decide (0xC ≤ bitsOf word 20 4)
  let g := match (s.cc c).active with
    | some a => pG a.req.pkt
    | none => if column then bitsOf word 34 1 else bitsOf word 19 1
  if reserved then s.seqError c g 0 (fun e => decide (e.st = .ready ∨ e.st = .opened)) else s

end Sys2Proof.Machine
end

