-- ==== Sys2Proof/Machine/Merge.lean ====
section
/-! DEFINITION. The merge unit: collecting, merging, timeouts and the return of results (R160-R167). -/

namespace Sys2Proof.Machine

/-! ### Values of contributions -/

/-- Unit `p` of a contribution as it is merged: a stand-in or a mismatch has every value poisoned (R140, R163). -/
def Taken.unit (t : Taken) (p : Nat) : DrainUnit :=
  if t.con.standIn then { absent := false, fault := false, inv := false, ovf := false, vals := [], allBad := true }
  else
    let u := t.con.units.getD p { absent := true, fault := false, inv := false, ovf := false, vals := [], allBad := false }
    if t.bad && !u.absent then { u with allBad := true } else u

/-- Value `i` of a drain unit. -/
def DrainUnit.at (u : DrainUnit) (i : Nat) : PV := if u.allBad then .pois else look pvZero u.vals i

/-- Contributions in the order of R161: ascending channel, earlier arrivals first within a channel. -/
def insertTaken (t : Taken) : List Taken → List Taken
  | [] => [t]
  | x :: r => if t.con.chan < x.con.chan then t :: x :: r else x :: insertTaken t r
def inOrder (l : List Taken) : List Taken := l.foldl (fun a t => insertTaken t a) []

/-- A value being merged, with the flags it raised. -/
structure MV where
  v   : PV
  inv : Bool
  ovf : Bool
  deriving DecidableEq, Repr

/-! ### SUM (R161) -/

/-- R[l][p][j]: +0, then the contributors' values in order, each sum rounded once; a missing contribution poisons it (R164). -/
def sumValue (l : List Taken) (missing : Bool) (lane p j : Nat) : MV :=
  let r := l.foldl (fun (a : MV) t =>
    let u := t.unit p
    if u.absent then a
    else
      match a.v, u.at (8 * j + lane) with
      | .val x, .val y =>
        let fx := decodeF fp32 x.toNat
        let fy := decodeF fp32 y.toNat
        let s := add32 fx fy
        { v := pvF s, inv := a.inv || newNan [fx, fy] s, ovf := a.ovf || newInf [fx, fy] s }
      | _, _ => { a with v := .pois }) { v := pv0, inv := false, ovf := false }
  if missing then { r with v := .pois } else r

/-! ### SMERGE (R161, R162) -/

/-- One lane of a softmax merge under way. -/
structure Lane where
  m   : PV
  s   : PV
  o   : List PV        -- 64 dimensions
  inv : Bool
  ovf : Bool
  deriving DecidableEq, Repr

def Lane.start : Lane := { m := pvNegInf, s := pv0, o := List.replicate 64 pv0, inv := false, ovf := false }

/-- A poisoned lane. -/
def Lane.spoil (a : Lane) : Lane := { a with m := .pois, s := .pois, o := List.replicate 64 .pois }

/-- Merge one contribution into a lane against its (M, L) pair, with `ex` as the exponential. -/
def Lane.mergeWith (ex : FV → FV) (a : Lane) (ml : PV × PV) (vals : List PV) : Lane :=
  match ml with
  | (.val mb, .val lb) =>
    let mx := decodeF fp32 mb.toNat
    if mx = .inf true then a
    else
      match a.m with
      | .val m0 =>
        let m := decodeF fp32 m0.toNat
        let mn := maxF m mx
        let fa := ex (addX m mn.neg)
        let fb := ex (addX mx mn.neg)
        let scale := fun (x y : FV) =>
          let p := rd32 [x, fa] (mul32 x fa)
          let q := rd32 [y, fb] (mul32 y fb)
          after (p.1, p.2.and q.2) (fun u => rd32 [u, q.1] (add32 u q.1))
        let step := fun (q : PV × PV) =>
          match q with
          | (.val x, .val y) => let r := scale (decodeF fp32 x.toNat) (decodeF fp32 y.toNat); (pvF r.1, r.2)
          | _ => (.pois, {})
        let sn := step (a.s, .val lb)
        let o := (a.o.zip vals).map step
        let n := (o.foldl (fun (n : Note) r => n.and r.2) sn.2).and ((rd32 [m, mn] fa).2.and (rd32 [mx, mn] fb).2)
        { m := pvF mn, s := sn.1, o := o.map (·.1), inv := a.inv || n.inv, ovf := a.ovf || n.ovf }
      | .pois => a.spoil
  | _ => a.spoil

/-- Merge one unit into a lane (R161). -/
def Lane.merge (a : Lane) (ml : PV × PV) (vals : List PV) : Lane := a.mergeWith exp2T ml vals

/-- One lane of an SMERGE result. -/
def smergeLane (ml : SMap (Option MlEntry)) (l : List Taken) (missing : Bool) (lane : Nat) : Lane :=
  let r := l.foldl (fun (a : Lane) t =>
    (List.range 64).foldl (fun (a : Lane) p =>
      let u := t.unit p
      if u.absent then a
      else
        match look (fun _ => none) ml (64 * t.con.chan + p) with
        | none => a.spoil
        | some e => a.merge (look pvMinus e.m lane, look pvZero e.l lane)
            ((List.range 64).map (fun d => u.at (8 * d + lane)))) a) Lane.start
  if missing then r.spoil else r

/-! ### MLSTORE (R161) -/

/-- The ML entry that one unit stores. -/
def mlOf (u : DrainUnit) : MlEntry :=
  if u.absent then ⟨[], []⟩
  else if u.allBad then ⟨allPois 8, allPois 8⟩
  else ⟨(List.range 8).map (fun l => (l, look pvMinus u.vals l)), (List.range 8).map (fun l => (l, look pvZero u.vals (8 + l)))⟩

/-- The table after an MLSTORE use. -/
def mlStore (l : List Taken) : SMap (Option MlEntry) :=
  l.foldl (fun m t => upto 64 (fun p m => put (fun _ => none) m (64 * t.con.chan + p) (some (mlOf (t.unit p)))) m) []

def poisCount (l : List PV) : Nat := (l.filter PV.isPois).length

/-- Poisoned M and L values of a table. -/
def mlPoisons (m : SMap (Option MlEntry)) : Nat :=
  m.foldl (fun n q => match q.2 with
    | some e => n + poisCount (e.m.map (·.2)) + poisCount (e.l.map (·.2))
    | none => n) 0

/-! ### Results in scratchpad (R165) -/

/-- Sixteen values as a cell; a half with a poisoned value is poisoned. -/
def packHalf (l : List PV) : Half :=
  if l.any PV.isPois then none
  else some (BitVec.ofNat 256 (l.reverse.foldl (fun a v => a * 2 ^ 32 + (match v with | .val b => b.toNat | .pois => 0)) 0))
def packCell (l : List PV) : Cell64 := ⟨packHalf (l.take 8), packHalf (l.drop 8)⟩

/-- Cut a list of values into cells of sixteen. -/
def cellsOf : Nat → List PV → List Cell64
  | 0, _ => []
  | n + 1, l => packCell (l.take 16) :: cellsOf n (l.drop 16)

/-- Channels that contributed, ascending and without repeats. -/
def chansOf (l : List Taken) : List Nat := ((inOrder l).map (·.con.chan)).eraseDups

/-- The channel whose data bus carries unit `i` of a result: round-robin over the contributing channels, from the lowest on (R165; the start is a DESIGN CHOICE, log 65). -/
def Dest.carrier (x : Dest) (i : Nat) : Nat := let l := chansOf x.taken; l.getD (i % l.length) 0

/-- Send the data cells of a result to its tile, in order; the first refused unit stops the return (R165, R167). The seam link may hold it (R18). -/
def State.sendResult (s : State) (k d : Nat) : State :=
  let x := (s.bd k).dest d
  let t := x.key.resTile
  if x.cells.isEmpty then s.setBd k ((s.bd k).setDest d { x with sent := true })
  else if s.nocHeld (chanDie (32 * k)) t then s
  else if s.nocCause t = 0 then
    let r := x.cells.foldl (fun (q : Nat × State) c => (q.1 + 1, q.2.spFill t ((x.key.resAddr / 64 + q.1) % 65536) (bdSrc k) (WriteData.whole c))) (0, s)
    let s := r.2
    s.setBd k ((s.bd k).setDest d { (s.bd k).dest d with sent := true, cells := [] })
  else
    let c0 := x.carrier 0
    let s := s.nocError t (bdSrc k) (ccSrc (32 * k + c0)) 0 true
    s.setBd k ((s.bd k).setDest d { (s.bd k).dest d with dropAt := some c0, cells := [] })

/-- The values of a result, those of spoiled accumulators poisoned (R404). -/
def Dest.spoil (x : Dest) (l : List PV) : List PV :=
  if x.spoiled.isEmpty then l else l.mapIdx (fun i v => if look noMark x.spoiled i then .pois else v)

/-- All contributions of a use are there, or it timed out: merge and return (R161, R164, R165). The completion time that the status cell gives is that of the merge (DESIGN CHOICE, log 65). -/
def State.mergeDone (s : State) (k d : Nat) (missing : Bool) : State :=
  let b := s.bd k
  let x := b.dest d
  let l := inOrder x.taken
  let uflag (f : DrainUnit → Bool) : Bool := l.any (fun t => (List.range 64).any (fun p => f (t.unit p)))
  let base := { x with st := .returning, doneAt := s.tsc, timeout := missing, sent := false, dropAt := none,
                       inv := uflag (·.inv), ovf := uflag (·.ovf) }
  match x.key.mop with
  | 1 =>
    let ml := mlStore l
    let n := mlPoisons ml
    let s := s.setBd k (b.setDest d { base with ml := ml, poisons := n, uses := 0, cells := [] })
    let s := if n = 0 then s else s.emit (bdSrc k) 0x0553 [d, (l.head?.map (·.con.tag)).getD 0, n]
    s.sendResult k d
  | 2 =>
    let lanes := (List.range 8).map (smergeLane x.ml l missing)
    let vals := x.spoil (lanes.map (·.m) ++ lanes.map (·.s) ++ lanes.flatMap (·.o))
    let n := poisCount vals
    let s := s.setBd k (b.setDest d { base with poisons := n, cells := cellsOf 33 vals, inv := base.inv || lanes.any (·.inv), ovf := base.ovf || lanes.any (·.ovf) })
    let s := if n = 0 then s else s.emit (bdSrc k) 0x0553 [d, (l.head?.map (·.con.tag)).getD 0, n]
    s.sendResult k d
  | _ =>
    let mvs := (List.range 32768).map (fun i => sumValue l missing (i / 4096) (i / 64 % 64) (i % 64))
    let vals := x.spoil (mvs.map (·.v))
    let n := poisCount vals
    let s := s.setBd k (b.setDest d { base with poisons := n, cells := cellsOf 2048 vals, inv := base.inv || mvs.any (·.inv), ovf := base.ovf || mvs.any (·.ovf) })
    let s := if n = 0 then s else s.emit (bdSrc k) 0x0553 [d, (l.head?.map (·.con.tag)).getD 0, n]
    s.sendResult k d

/-! ### The commands -/

/-- The fields in which a contribution differs from its use (R163). -/
def mismatch (a b : MergeKey) : Nat :=
  (if a.mop = b.mop then 0 else 1) + (if a.mcount = b.mcount then 0 else 2) +
  (if a.resTile = b.resTile then 0 else 4) + (if a.resAddr = b.resAddr then 0 else 8)

/-- A destination that takes the first contribution of a use (R160). -/
def Dest.begin (x : Dest) (c : Contribution) (now limit : Nat) : Dest :=
  { x with st := .collecting, key := c.key, taken := [], since := now, limit := limit, timeout := false, poisons := 0,
           ml := if c.key.mop = 2 then x.ml else [], uses := if c.key.mop = 2 then x.uses else 0,
           inv := false, ovf := false, spoiled := [], cells := [], sent := false, dropAt := none }

/-- Bank indices of an SMERGE contribution without an ML entry are reported (R162). -/
def State.missingMl (s : State) (k d : Nat) (c : Contribution) : State :=
  if c.key.mop = 2 then
    upto 64 (fun p s =>
      let t : Taken := ⟨c, false⟩
      if (t.unit p).absent || (look (fun _ => none) ((s.bd k).dest d).ml (64 * c.chan + p)).isSome then s
      else s.emit (bdSrc k) 0x0551 [d, c.chan, p]) s
  else s

/-- Take a contribution into its destination (R160, R163); a pending TIMEOUT takes effect as the destination leaves FREE. -/
def State.takeIn (s : State) (k : Nat) (c : Contribution) : State :=
  let d := c.key.mdest
  let b := s.bd k
  let b := { b with arrived := b.arrived.erase c }
  let s := s.setBd k b
  let s := if (b.dest d).st = .collecting then s
    else
      let s := if (b.dest d).st = .free then s.effect (bdB k) B_MERGE_CTRL_TIMEOUT else s
      s.setBd k ((s.bd k).setDest d ((b.dest d).begin c s.tsc (s.rd (bdB k) B_MERGE_CTRL_TIMEOUT)))
  let x := (s.bd k).dest d
  let m := mismatch x.key c.key
  let s := if m = 0 then s else s.emit (bdSrc k) 0x0550 [d, c.chan, m]
  let s := s.missingMl k d { c with key := { c.key with mop := x.key.mop } }
  s.setBd k ((s.bd k).setDest d { x with taken := x.taken ++ [⟨c, decide (m ≠ 0)⟩] })

/-- MERGE_CONTRIBUTION (R160): the channel's oldest contribution, unless its destination is RETURNING. -/
def mergeContribution (k chan : Nat) (s : State) : State :=
  match (s.bd k).arrived.find? (fun x => decide (x.chan = chan)) with
  | none => s
  | some c =>
    if ((s.bd k).dest c.key.mdest).st = .returning then s
    else
      let s := s.takeIn k c
      let x := (s.bd k).dest c.key.mdest
      if x.key.mcount + 1 ≤ x.taken.length then s.mergeDone k c.key.mdest false else s

/-- The power manager holds a claim or an ACTA of the channel (R442). -/
def State.throttled (s : State) (c : Nat) : Bool :=
  (s.cc c).claimAt.isSome ||
    (match (s.cc c).active with
     | some a => !s.spaced c (pG a.req.pkt) && (nextPeriod a.todo).1.any PCmd.isActa
     | none => false)

/-- MERGE_TIMEOUT (R164): it does not advance while a claim or an ACTA of the stack is held (R442). -/
def mergeTimeout (k d : Nat) (s : State) : State :=
  let x := (s.bd k).dest d
  if x.st = .collecting ∧ !(List.range 32).any (fun i => s.throttled (32 * k + i)) then
    (s.emit (bdSrc k) 0x0552 [d, x.taken.length, x.key.mcount + 1]).mergeDone k d true
  else s

/-- The status cell of a result (Table 5-10). -/
def statusCell (k d : Nat) (x : Dest) : Cell64 :=
  let l := inOrder x.taken
  let absent := l.foldl (fun n t => n + ((List.range 64).filter (fun p => (t.unit p).absent)).length) 0
  let flags := (if x.poisons = 0 then 0 else 1) + (if l.any (fun t => (List.range 64).any (fun p => (t.unit p).fault)) then 2 else 0) +
    (if x.inv then 4 else 0) + (if x.ovf then 8 else 0) + (if x.timeout then 16 else 0) +
    (if l.any (fun t => t.bad || t.con.standIn) then 32 else 0)
  let n := (l.head?.map (·.con.tag)).getD 0 + x.key.mop * 2 ^ 16 + d * 2 ^ 24 + k * 2 ^ 32 + (l.length % 256) * 2 ^ 40 +
    (x.key.mcount + 1) * 2 ^ 48 + flags * 2 ^ 56 + absent * 2 ^ 64 + x.poisons * 2 ^ 96 + (x.doneAt % 2 ^ 64) * 2 ^ 128
  ⟨some (BitVec.ofNat 256 n), some 0⟩

/-- Where a result's status cell lies relative to RES_ADDR, in cells (Table 5-9). -/
def statusIndex (mop : Nat) : Nat := match mop with | 0 => 2048 | 2 => 33 | _ => 0

/-- The destination's next state when RETURNING ends (R160). -/
def Dest.next (x : Dest) : Dest :=
  match x.key.mop with
  | 1 => { x with st := .holding, uses := 0, taken := [] }
  | 2 => if x.uses + 1 = 2 then { Dest.init with st := .free } else { x with st := .holding, uses := x.uses + 1, taken := [] }
  | _ => Dest.init

/-- STATUS_CELL_WRITE (R165): once every data cell is acknowledged; a return that the seam link held goes on first. -/
def statusCellWrite (k d : Nat) (s : State) : State :=
  let x := (s.bd k).dest d
  if x.st ≠ .returning ∨ x.dropAt ≠ none then s
  else if !x.sent then s.sendResult k d
  else
    let t := x.key.resTile
    if s.nocHeld (chanDie (32 * k)) t then s
    else if s.nocCause t = 0 then
      let s := s.spFill t ((x.key.resAddr / 64 + statusIndex x.key.mop) % 65536) (bdSrc k) (WriteData.whole (statusCell k d x))
      let s := s.setBd k ((s.bd k).setDest d x.next)
      s.countB k B_MERGE_RESULTS_COUNT 1
    else
      let c0 := x.carrier (statusIndex x.key.mop)
      let s := s.nocError t (bdSrc k) (ccSrc (32 * k + c0)) (statusIndex x.key.mop % 4) true
      s.setBd k ((s.bd k).setDest d { x with dropAt := some c0 })

/-- RESULT_RETURN_DROPPED (R167): the return stops and the destination is freed. -/
def resultReturnDropped (k d : Nat) (s : State) : State :=
  let x := (s.bd k).dest d
  match x.st, x.dropAt with
  | .returning, some c =>
    let s := s.setBd k ((s.bd k).setDest d Dest.init)
    s.emit (ccSrc (32 * k + c)) 0x0555 [x.key.resTile, ((inOrder x.taken).head?.map (·.con.tag)).getD 0]
  | _, _ => s

end Sys2Proof.Machine
end

