-- ==== Sys2Proof/Machine/Sram.lean ====
section
/-! DEFINITION. Errors of on-die SRAM (R404, Table 15-1). -/

namespace Sys2Proof.Machine

/-- Source, memory code and address of an error (events 0x068D, 0x068E); the manual gives no address for a stream line, a queue entry, an accumulator or a merge value, and these are free (log 16). -/
def State.sramWhere (s : State) : SramPlace → Option (Nat × Nat × Nat) × State
  | .scratchpad t h => (some (t.toNat, 1, 32 * (h % 131072)), s)
  | .imem t w => (some (t.toNat, 2, 8 * (w % 32768)), s)
  | .streamLine t => let (n, s) := s.fresh; (some (t.toNat, 3, Config.sramAddress n % 2 ^ 32), s)
  | .queue t _ => let (n, s) := s.fresh; (some (t.toNat, 4, Config.sramAddress n % 2 ^ 32), s)
  | .accumulator t _ _ _ => let (n, s) := s.fresh; (some (t.toNat, 5, Config.sramAddress n % 2 ^ 32), s)
  | .bankState b _ => let (n, s) := s.fresh; (some (ccSrc (b / 128 % 384), 5, Config.sramAddress n % 2 ^ 32), s)
  | .mergeMl k _ _ _ _ | .mergeAcc k _ _ => let (n, s) := s.fresh; (some (bdSrc k.val, 6, Config.sramAddress n % 2 ^ 32), s)
  | .readCache _ _ | .prefetchLine _ _ => (none, s)

/-- The island that holds the memory is out of reset, so that the memory is accessed (R27). -/
def State.sramLive (s : State) : SramPlace → Bool
  | .scratchpad t _ | .imem t _ | .streamLine t | .queue t _ | .accumulator t _ _ _ | .readCache t _ | .prefetchLine t _ => s.tileUp t.toNat
  | .bankState b _ => s.dieUp (chanDie (b / 128))
  | .mergeMl k _ _ _ _ | .mergeAcc k _ _ => s.dieUp (chanDie (32 * k.val))

/-- The oldest entry of a queue becomes one that OP_ILLEGAL stops. -/
def spoilEntry : List QEntry → List QEntry
  | [] => []
  | .op w st off _ :: r => .op w st off true :: r
  | .token _ _ st off :: r => .op ⟨0, none⟩ st off true :: r

/-- The oldest line that holds data becomes unreadable (STREAM_DATA, R234). -/
def spoilLine : List SLine → List SLine
  | [] => []
  | l :: r => if l.data.isSome then { l with data := some none } :: r else l :: spoilLine r

/-- A poisoned M or L value of an ML table (R160). -/
def MlEntry.spoil (e : MlEntry) (lane : Nat) (l : Bool) : MlEntry :=
  if l then { e with l := put pvZero e.l lane .pois } else { e with m := put pvMinus e.m lane .pois }

/-- A poisoned value of a bank engine. -/
def EngSt.spoil (e : EngSt) : EngItem → EngSt
  | .ob g => { e with ob := put someZero e.ob (g % 64) none }
  | .ss g => { e with ss := put ssZero e.ss (g % 128) none }
  | .acc v => { e with acc := put pvZero e.acc (v % 512) .pois }
  | .m l => { e with m := put pvMinus e.m (l % 8) .pois }
  | .l l => { e with l := put pvZero e.l (l % 8) .pois }
  | .s l => { e with s := put pvZero e.s (l % 8) .pois }
  | .p l => { e with p := put ssZero e.p (l % 8) none }

/-- What an uncorrectable error does to its storage (Table 15-1). -/
def State.sramSpoil (s : State) : SramPlace → State
  | .scratchpad t h => s.modTile t.toNat (fun x => x.setSpad (x.spad.spoil (h % 131072)))
  | .imem t w => s.modTile t.toNat (fun x => { x with imemBad := put noMark x.imemBad (w % 32768) true })
  | .streamLine t => s.modTile t.toNat (fun x => { x with lines := spoilLine x.lines })
  | .queue t e => s.modTile t.toNat (fun x => x.setEngine e.val { x.eng e.val with queue := spoilEntry (x.eng e.val).queue })
  | .accumulator t b row lane =>
    s.modTile t.toNat (fun x =>
      let i := 128 * (row % 128) + lane % 128
      let old := (look noPast x.past (b % 2)).map (fun (p : BankPast) => { p with vals := put pvZero p.vals i .pois })
      let x := { x with past := put noPast x.past (b % 2) old }
      if b % 2 = 0 then { x with acc0 := put pvZero x.acc0 i .pois } else { x with acc1 := put pvZero x.acc1 i .pois })
  | .bankState b i => s.setEng b ((s.eng b).spoil i)
  | .mergeAcc k d v =>
    let x := (s.bd k.val).dest d
    if x.st = .collecting then s.setBd k.val ((s.bd k.val).setDest d { x with spoiled := put noMark x.spoiled v true }) else s
  | .mergeMl k d u lane l =>
    let x := (s.bd k.val).dest d
    let ml := match look (fun _ => none) x.ml u with
      | some e => put (fun _ => none) x.ml u (some (e.spoil (lane % 8) l))
      | none => x.ml
    s.setBd k.val ((s.bd k.val).setDest d { x with ml := ml })
  | .readCache t line => s.modTile t.toNat (fun x => { x with rc := x.rc.filter (fun (p : Nat × Cell64) => decide (p.1 ≠ line)) })
  | .prefetchLine t n =>
    let x := s.tile t.toNat
    let lost := (x.pf.drop n).take 1
    let s := s.setTile t.toNat { x with pf := x.pf.eraseIdx n }
    if lost.isEmpty then s else s.countT t.toNat pfmUnused 1

/-- One error: corrected and counted, or its storage is spoiled and the error is reported; a parity error only discards its line. -/
def State.sramErr (s : State) (x : SramErr) : State :=
  if !s.sramLive x.place then s
  else
  match s.sramWhere x.place with
  | (none, s) => s.sramSpoil x.place
  | (some (src, mem, addr), s) =>
    if x.fixed then (s.sat hostB FLT_SRAM_CNT_CORRECTED 1).emit src 0x068D [mem]
    else ((s.sramSpoil x.place).sat hostB FLT_SRAM_CNT_UNCORRECTED 1).emit src 0x068E [mem, addr]

def State.sramErrs (s : State) (l : List SramErr) : State := l.foldl State.sramErr s

end Sys2Proof.Machine
end

