-- ==== Sys2Proof/Machine/Sync.lean ====
section
/-! DEFINITION. Synchronization: semaphores, stream counter pairs, FEWAIT, Chorus and the deadlock detector (R339-R358). -/

namespace Sys2Proof.Machine

/-- The engine's wait ends. -/
def State.endWait (s : State) (t e : Nat) : State :=
  (s.setEngine t e { s.engine t e with wait := none }).modTile t (fun x => { x with dldDone := false })

/-- The engine's wait ends with an acquire (Table 7-4). -/
def State.grant (s : State) (t e : Nat) : State := (s.endWait t e).acquire t

/-- The engine begins to wait. -/
def State.startWait (s : State) (c : OpCtx) (w : WaitFor) : State :=
  s.setEngine c.t c.e { s.engine c.t c.e with wait := some ⟨w, c.loc⟩ }

/-! ### Semaphores (R341-R343) -/

def State.sem (s : State) (t k : Nat) : Nat := s.rd (tileB t) (TILE_SEM_COUNT.at (8 * k))
def State.setSem (s : State) (t k v : Nat) : State := s.wr (tileB t) (TILE_SEM_COUNT.at (8 * k)) v

/-- SEMSIG: a DELTA of 0 or −256 is reserved. -/
def execSemsig (t : TileId) (e : EngId) (w : OpWord) (s : State) : Res :=
  .next (s.issueOp t.toNat e.val w (opIs 0x20)
    (fun op _ => onlyBits op [(0, 8), (8, 5), (16, 9)] && decide (bitsOf op 16 9 ≠ 0 ∧ bitsOf op 16 9 ≠ 256))
    (fun c s =>
      if !s.released c.t c.e then .hold
      else
        let g : Signal := ⟨c.e, bitsOf c.op 8 5, signed 9 (bitsOf c.op 16 9), c.loc⟩
        .done (s.modTile c.t (fun x => { x with signals := x.signals ++ [g] }))))

/-- SEMAPHORE_UPDATE (R342): the oldest signal is applied, saturated, or faults with SEM_UNDER. -/
def semaphoreUpdate (t : Nat) (s : State) : State :=
  match (s.tile t).signals with
  | [] => s
  | g :: r =>
    if !s.tileUp t then s
    else
      let s := s.modTile t (fun x => { x with signals := r })
      let v := (s.sem t g.k : Int) + g.delta
      if v < 0 then s.tileFault t g.eng 27 g.loc
      else if 255 < v then
        let b := tileB t
        let s := s.wr b TILE_SEM_OVF_OVF (s.rd b TILE_SEM_OVF_OVF ||| 2 ^ g.k)
        (s.setSem t g.k 255).emit t 0x0350 [g.k, g.eng, g.loc.off]
      else s.setSem t g.k v.toNat

/-- SEMWAIT: an NW of 0 is reserved. -/
def execSemwait (t : TileId) (e : EngId) (w : OpWord) (s : State) : Res :=
  .next (s.issueOp t.toNat e.val w (opIs 0x21) (fun op _ => onlyBits op [(0, 8), (8, 5), (16, 8)] && decide (bitsOf op 16 8 ≠ 0))
    (fun c s => .done (s.startWait c (.sem (bitsOf c.op 8 5) (bitsOf c.op 16 8)))))

/-- The NW of an engine that waits on semaphore `k`. -/
def Engine.semNeed (g : Engine) (k : Nat) : Option Nat :=
  match g.wait with
  | some ⟨.sem j nw, _⟩ => if j = k then some nw else none
  | _ => none

/-- No engine has been granted yet: the rotation starts at engine 0 (DESIGN CHOICE, log 19). -/
def lastGrantInit (_ : Nat) : Nat := 3

/-- SEMAPHORE_GRANT (R342): the first candidate after the last one granted. -/
def semaphoreGrant (t k : Nat) (s : State) : State :=
  if !s.tileUp t then s
  else
    let last := look lastGrantInit (s.tile t).lastGrant k
    match ((List.range 4).map (fun i => (last + 1 + i) % 4)).find? (fun e =>
        match (s.engine t e).semNeed k with
        | some nw => decide (nw ≤ s.sem t k)
        | none => false) with
    | none => s
    | some e =>
      let s := s.setSem t k (s.sem t k - ((s.engine t e).semNeed k).getD 0)
      let s := s.modTile t (fun x => { x with lastGrant := put lastGrantInit x.lastGrant k e })
      s.grant t e

/-! ### Stream counter pairs (R344-R346) -/

/-- Buffer count N of pair `i`. -/
def State.scN (s : State) (t i : Nat) : Nat := s.rd (tileB t) (TILE_SC_N_N.at (16 * i))
/-- Occupancy of pair `i` with counts `p` and `c`. -/
def occupancy (p c : Nat) : Nat := (p + 2 ^ 32 - c) % 2 ^ 32
def State.scP (s : State) (t i : Nat) : Nat := s.rd (tileB t) (TILE_SC_PC_P.at (16 * i))
def State.scC (s : State) (t i : Nat) : Nat := s.rd (tileB t) (TILE_SC_PC_C.at (16 * i))

/-- SCUPD (R345): an update that leaves the pair inconsistent is not applied, and faults after issue. -/
def execScupd (t : TileId) (e : EngId) (w : OpWord) (s : State) : Res :=
  .next (s.issueOp t.toNat e.val w (opIs 0x22) (fun op _ => onlyBits op [(0, 8), (8, 4), (12, 1), (32, 16)] && decide (bitsOf op 32 16 ≠ 0))
    (fun c s =>
      if !s.released c.t c.e then .hold
      else
        let i := bitsOf c.op 8 4
        let k := bitsOf c.op 32 16
        let b := tileB c.t
        let p := if bit c.op 12 then s.scP c.t i else (s.scP c.t i + k) % 2 ^ 32
        let n := if bit c.op 12 then (s.scC c.t i + k) % 2 ^ 32 else s.scC c.t i
        if occupancy p n ≤ s.scN c.t i then
          .done ((s.wr b (TILE_SC_PC_P.at (16 * i)) p).wr b (TILE_SC_PC_C.at (16 * i)) n)
        else .done (s.tileFault c.t c.e 28 c.loc)))

/-- SCWAIT (R346): SYNC_ARG when K exceeds N. -/
def execScwait (t : TileId) (e : EngId) (w : OpWord) (s : State) : Res :=
  .next (s.issueOp t.toNat e.val w (opIs 0x23) (fun op _ => onlyBits op [(0, 8), (8, 4), (12, 1), (32, 16)] && decide (bitsOf op 32 16 ≠ 0))
    (fun c s =>
      let i := bitsOf c.op 8 4
      let k := bitsOf c.op 32 16
      if s.scN c.t i < k then .fault 29 else .done (s.startWait c (.sc i (bit c.op 12) k))))

/-- The stream-counter wait of an engine is satisfied. -/
def State.scMet (s : State) (t e : Nat) : Bool :=
  match (s.engine t e).wait with
  | some ⟨.sc i space k, _⟩ =>
    let d := occupancy (s.scP t i) (s.scC t i)
    if space then decide (k + d ≤ s.scN t i) else decide (k ≤ d)
  | _ => false

/-- STREAM_COUNTER_SATISFY (R346): every waiter whose condition holds is granted. -/
def streamCounterSatisfy (t : Nat) (s : State) : State :=
  if !s.tileUp t then s
  else (List.range 4).foldl (fun (a : State) e => if a.scMet t e then a.grant t e else a) s

/-! ### Full/empty cells (R347, R348) -/

/-- FEWAIT: it places a watch on its cell. -/
def execFewait (t : TileId) (e : EngId) (w : OpWord) (s : State) : Res :=
  .next (s.issueOp t.toNat e.val w (opIs 0x24) (fun op _ => onlyBits op [(0, 8), (8, 4), (12, 1), (32, 32)])
    (fun c s =>
      let a := addA (s.areg c (bitsOf c.op 8 4)) c.imm32
      if cellAligned a then .done (s.startWait c (.fe (a / 64) (bit c.op 12))) else .fault 29))

/-! ### Chorus (R350-R353) -/

/-- Engine `e` of tile `t` must arrive in group `g`. -/
def State.mustArrive (s : State) (g t e : Nat) : Bool := bit (s.rd (tileB t) TILE_CHORUS_ENG_ENG) (4 * g + e)

/-- An arrival registers in the current phase. -/
def State.register (s : State) (t e g : Nat) : State := s.setEngine t e ((s.engine t e).setArrival g .registered)

/-- CHORUS with MODE `m` (R351); MODE 0 is reserved, and whichever CHORUS command meets it faults. -/
def chorusOp (m t e : Nat) (w : OpWord) (s : State) : State :=
  s.issueOp t e w (fun op => opIs 0x25 op && decide (bitsOf op 11 2 = m ∨ bitsOf op 11 2 = 0))
    (fun op _ => onlyBits op [(0, 8), (8, 3), (11, 2)] && decide (bitsOf op 11 2 ≠ 0))
    (fun c s =>
      let g := bitsOf c.op 8 3
      let a := (s.engine c.t c.e).arrival g
      if !s.inGroup g c.t || !s.mustArrive g c.t c.e || (decide (m = 2) && decide (a = .absent)) then .fault 29
      else if s.broken g then .fault 30
      else if m = 2 then
        match a with
        | .broken => .fault 30
        | .completed => .done (s.acquire c.t)
        | _ => .done (s.startWait c (.chorus g 2))
      else if !s.released c.t c.e then .hold
      else if a = .registered then .done (s.startWait c (.arrive g (decide (m = 3))))
      else
        let s := s.register c.t c.e g
        .done (if m = 3 then s.startWait c (.chorus g 3) else s))

def execChorusArrive (t : TileId) (e : EngId) (w : OpWord) (s : State) : Res := .next (chorusOp 1 t.toNat e.val w s)
def execChorusWait (t : TileId) (e : EngId) (w : OpWord) (s : State) : Res := .next (chorusOp 2 t.toNat e.val w s)
def execChorusArriveWait (t : TileId) (e : EngId) (w : OpWord) (s : State) : Res := .next (chorusOp 3 t.toNat e.val w s)

/-- Every wire of group `g` is asserted, that of a site with no engine to wait for included; wires that cross the seam wait for its hold to end (R350, R409). -/
def State.phaseMet (s : State) (g : Nat) : Bool :=
  let parts := sites.filter (fun t => s.inGroup g t)
  let arrived := fun (t e : Nat) => decide ((s.engine t e).arrival g = .registered)
  let both := parts.any (fun t => decide (t < 256)) && parts.any (fun t => decide (256 ≤ t))
  !s.broken g && parts.all (fun t => (List.range 4).all (fun e => !s.mustArrive g t e || arrived t e)) &&
    !(both && s.flag seamB SEAM_STAT_HOLD)

/-- What a completion does to an engine: waits end, and an arrival that waited registers in the next phase. -/
def State.phaseEngine (s : State) (g t e : Nat) : State :=
  let x := s.engine t e
  let s := s.setEngine t e (x.moveArrival g .completed)
  match x.wait with
  | some ⟨.chorus j _, _⟩ => if j = g then s.grant t e else s
  | some ⟨.arrive j more, loc⟩ =>
    if j = g then
      let s := (s.endWait t e).register t e g
      if more then s.setEngine t e { s.engine t e with wait := some ⟨.chorus g 3, loc⟩ } else s
    else s
  | _ => s

/-- CHORUS_PHASE_COMPLETE (R350). -/
def chorusPhaseComplete (g : Nat) (s : State) : State :=
  if !s.phaseMet g then s
  else
    let gen := CHORUS_CTRL_GEN.at (8 * g)
    let ph := CHORUS_CTRL_PHASES.at (8 * g)
    let s := (s.wr chorusB gen (1 - s.rd chorusB gen)).wr chorusB ph (s.rd chorusB ph + 1)
    s.tileKeys.foldl (fun (a : State) t => (List.range 4).foldl (fun (a : State) e => a.phaseEngine g t e) a) s

/-! ### Deadlock detector (R355) -/

/-- What an operation that waits for a release at issue counts (R245, R340): QBAR for SEMSIG, SCUPD and FENCE, CHORUS with its group and mode for an ARRIVE. -/
def releaseCause (w : OpWord) : Option (Nat × Nat × Nat) :=
  let op := w.op.toNat
  if opIs 0x20 op || opIs 0x22 op || (opIs 0x0D op && bit op 8) then some (6, 0, 0)
  else if opIs 0x25 op && bit op 11 then some (5, bitsOf op 8 3, bitsOf op 11 2)
  else none

/-- What engine `e` waits on: the cause of Table 7-7, the object, the argument and the place of the operation. -/
def State.stuckOn (s : State) (t e : Nat) : Option (Nat × Nat × Nat × Loc) :=
  let x := s.tile t
  let g := x.eng e
  let fe := fun (w : Option Watch) (loc : Loc) => w.map (fun v => (4, v.cell, (if v.consume then 1 else 0), loc))
  let inner : Option (Nat × Nat × Nat × Loc) :=
    match e with
    | 1 => (match x.vrun with | some r => fe r.watch r.job.loc | none => none)
    | 2 => (match x.mrun with | some r => fe r.watch r.job.loc | none => none)
    | _ => none
  match g.wait with
  | some ⟨.sem k nw, loc⟩ => some (2, k, nw, loc)
  | some ⟨.sc i _ k, loc⟩ => some (3, i, k, loc)
  | some ⟨.fe c con, loc⟩ => some (4, c, if con then 1 else 0, loc)
  | some ⟨.chorus j m, loc⟩ => some (inner.getD (5, j, m, loc))
  | some ⟨.arrive j more, loc⟩ => some (inner.getD (5, j, if more then 3 else 1, loc))
  | none =>
    match inner with
    | some v => some v
    | none =>
      match x.next e with
      | .op w loc _ => if s.released t e then none else (releaseCause w).map (fun c => (c.1, c.2.1, c.2.2, loc))
      | .fault _ _ => none
      | .nothing =>
        match g.queue with
        | .token _ _ st off :: _ => some (6, 0, 0, ⟨st, off, 0, 0⟩)
        | _ => none

/-- An operation that the engine has taken from its queue advances: a routine, a loop body, or what its unit runs. -/
def Tile.advances (x : Tile) (e : Nat) : Bool :=
  !(x.eng e).frames.isEmpty || !(x.eng e).loops.isEmpty ||
    (match e with
     | 0 => !x.mmas.isEmpty || !x.fsts.isEmpty
     | 1 => x.vrun.isSome || !x.vops.isEmpty
     | 2 => x.mrun.isSome || !x.moves.isEmpty
     | _ => false)

/-- The cause that engine `e` counts: its wait, EMPTY, or ISSUE (Table 7-7). -/
def State.stuckCause (s : State) (t e : Nat) : Nat :=
  match s.stuckOn t e with
  | some (c, _) => c
  | none => if (s.engine t e).queue.isEmpty && !(s.tile t).advances e then 1 else 0

/-- Engine `e` is stuck: it waits, or its queue is empty (R355). -/
def State.stuck (s : State) (t e : Nat) : Bool := decide (2 ≤ s.stuckCause t e) || (s.engine t e).queue.isEmpty

/-- The tile has no memory request outstanding: stream lines, prefetches, reads of the host, and accesses that a CC, a back-invalidation, a bias change or the seam link holds. -/
def State.noMemRequests (s : State) (t : Nat) : Bool :=
  let x := s.tile t
  x.reqs.isEmpty && x.pfFlight.isEmpty &&
    !(s.host.reads ++ s.host.waiting).any (fun r => decide (r.user = .move t)) &&
    !s.host.snoops.any (fun q => q.waiters.contains (.move t)) && !s.host.stalled.contains (.move t) &&
    !s.ccs.any (fun (p : Nat × CcSt) => p.2.pool.any (fun q => decide (q.who.port = .tile ∧ q.who.id = t)))

/-- The tile has no memory request, pass instruction or stream-fetch request outstanding (R355). -/
def State.noRequests (s : State) (t : Nat) : Bool := s.noMemRequests t && !s.flight.any (fun f => decide (f.2.tile = t))

/-- DEADLOCK_DETECTOR_FIRE (R355), once an episode. -/
def deadlockDetectorFire (t : Nat) (s : State) : State :=
  let b := tileB t
  let x := s.tile t
  if !s.tileUp t || x.halted || x.dldDone || !s.flag b TILE_DLD_CTRL_ENABLE || !s.noRequests t ||
      !(List.range 4).all (s.stuck t) || (List.range 4).all (fun e => decide (s.stuckCause t e < 2)) then s
  else
    let first := (List.range 4).find? (fun e => decide (2 ≤ s.stuckCause t e))
    let causes := (List.range 4).map (s.stuckCause t)
    let hit := first.bind (fun e => (s.stuckOn t e).map (fun v => (e, v.2.2.2)))
    let s :=
      if s.flag b TILE_DLD_STAT_FIRED then s
      else
        let s := (List.range 4).foldl (fun (a : State) e =>
          let v := (s.stuckOn t e).getD (s.stuckCause t e, 0, 0, ⟨0, 0, 0, 0⟩)
          ((a.wr b (TILE_DLD_SNAP_CAUSE.at (8 * e)) v.1).wr b (TILE_DLD_SNAP_OBJ.at (8 * e)) v.2.1).wr b (TILE_DLD_SNAP_ARG.at (8 * e)) v.2.2.1) s
        let s := s.wr b TILE_DLD_TSC_TSC s.tsc
        (List.range 4).foldl (fun (a : State) w =>
          a.wr b (TILE_DLD_SEM_COUNTS.at (8 * w)) ((List.range 8).foldl (fun n i => n + a.sem t (8 * w + i) * 2 ^ (8 * i)) 0)) s
    let s := (s.raise b TILE_DLD_STAT_FIRED).countT t TILE_DLD_STAT_COUNT 1
    let act := s.rd b TILE_DLD_CTRL_ACTION
    let s := (s.modTile t (fun x => { x with dldDone := true })).emit t 0x0351 (causes ++ [act])
    match hit with
    | some (e, loc) => if act = 1 then s.tileFault t e 31 loc else s
    | none => s

end Sys2Proof.Machine
end

