-- ==== Sys2Proof/Machine/HostReq.lean ====
section
/-! DEFINITION. Requests to host memory and coherence with host caches: read tags, posted writes, bias regions, the ownership directory and back-invalidations (R364, R370-R375, R405). -/

namespace Sys2Proof.Machine

/-! ### Posted writes and MSI-X messages (R364, R395) -/

/-- The 64 bytes of a cell where it leaves the card: the bits of a poisoned half are free (R63, log 7). -/
def State.exportHalf (s : State) (h : Half) : Nat × State :=
  match h with
  | some v => (v.toNat, s)
  | none => let (n, s) := s.fresh; ((Config.poisonBits n).toNat, s)

/-- The little-endian number of two halves (R4). -/
def joinHalves (a b : Nat) : Nat := a + 2 ^ 256 * b

def State.exportCell (s : State) (c : Cell64) : Nat × State :=
  let a := s.exportHalf c.lo
  let b := a.2.exportHalf c.hi
  (joinHalves a.1 b.1, b.2)

/-- A posted write of a masked cell; it takes EP when a poisoned unit is written (Table 15-2). -/
def State.hostPut (s : State) (f addr : Nat) (w : WriteData) : State :=
  let (v, s) := s.exportCell w.data
  let bad := (w.data.lo.isNone && decide (w.mask.toNat % 2 ^ 32 ≠ 0)) || (w.data.hi.isNone && decide (w.mask.toNat / 2 ^ 32 ≠ 0))
  s.send (.hostWrite f addr w.mask.toNat v bad)

/-- A posted write of plain bytes. -/
def State.hostBytes (s : State) (f addr len v : Nat) : State := s.send (.hostWrite f addr (2 ^ len - 1) v false)

/-! ### Read tags (R374) -/

/-- Requests that the enabled tag width allows; without extended tags it is 5 bits (PRESUMED, log 70). -/
def HostSt.maxTags (h : HostSt) : Nat := if h.tag14 then 8192 else if h.tag10 then 768 else if h.extTag then 256 else 32
/-- Read units of a request. -/
def HostRead.units (r : HostRead) : Nat := (r.bytes + 63) / 64
def HostSt.units (h : HostSt) : Nat := h.reads.foldl (fun n r => n + r.units) 0
/-- Stream lines that the tiles have asked of the host: each holds a tag and a read unit (R233, R374). -/
def State.lineReads (s : State) : Nat := s.tiles.foldl (fun (n : Nat) (p : Nat × Tile) => n + p.2.reqs.length) 0
/-- `k` requests of `n` read units together may be sent (R374). -/
def State.mayReads (s : State) (k n : Nat) : Bool :=
  decide (s.host.reads.length + s.lineReads + k ≤ s.host.maxTags ∧ s.host.units + s.lineReads + n ≤ 8192)
/-- A request of `n` read units may be sent (R374). -/
def State.mayRead (s : State) (n : Nat) : Bool := s.mayReads 1 n

/-- The tags that requests hold. -/
def State.tagsHeld (s : State) : List Nat :=
  s.host.reads.map (·.tag) ++ s.tiles.flatMap (fun (p : Nat × Tile) => p.2.reqs.map (·.tag))
/-- The lowest tag that no request holds. -/
def State.freeTag (s : State) : Nat :=
  let l := s.tagsHeld
  ((List.range (l.length + 1)).find? (fun t => !l.contains t)).getD 0

/-- A request is sent, or waits while a limit of R374 holds it. -/
def State.askHost (s : State) (u : ReadUser) (f addr bytes : Nat) : State :=
  let h := s.host
  let r : HostRead := ⟨s.freeTag, u, f, addr, bytes⟩
  if h.waiting.isEmpty && s.mayRead r.units then
    ({ s with host := { h with reads := h.reads ++ [r] } } : State).send (.hostRead f r.tag addr bytes)
  else { s with host := { h with waiting := h.waiting ++ [r] } }

/-- Requests that wait are sent while there is room. -/
def State.sendWaiting : Nat → State → State
  | 0, s => s
  | n + 1, s =>
    let h := s.host
    match h.waiting with
    | [] => s
    | r :: l =>
      if s.mayRead r.units then
        let r := { r with tag := s.freeTag }
        State.sendWaiting n (({ s with host := { h with reads := h.reads ++ [r], waiting := l } } : State).send (.hostRead r.fn r.tag r.addr r.bytes))
      else s

/-- Split `bytes` from `addr` into requests of at most `mrrs` bytes within 4 KiB pages. -/
def splitReads (mrrs : Nat) : Nat → Nat → Nat → List (Nat × Nat)
  | 0, _, _ => []
  | n + 1, addr, bytes =>
    if bytes = 0 then []
    else
      let k := min bytes (min mrrs (4096 - addr % 4096))
      (addr, k) :: splitReads mrrs n (addr + k) (bytes - k)

/-! ### Bias regions (R370) -/

/-- The location is in a shared bias region. -/
def State.sharedKey (s : State) (key : Nat) : Bool := s.windowOpen && look noMark s.host.bias (s.regionOf key)

/-- A host access to the location is served as shared: not from the start of a change to device-owned on (R373). -/
def State.hostShared (s : State) (key : Nat) : Bool :=
  s.sharedKey key &&
    (match s.host.biasJob with
    | some j => decide (s.regionOf key ≠ j.region)
    | none => true)

/-! ### The host port (R418) -/

/-- The host port on behalf of function `f`: none, or false, while the request waits or is not taken. -/
def State.hostPortRead (s : State) (u : ReadUser) (f key : Nat) : Option Cell64 × State :=
  if s.hostCut key then (some .bad, s)
  else
    match s.portRead u ⟨.host, f⟩ key with
    | (some d, s) => (some (d.getD .bad), s)
    | (none, s) => (none, s)
def State.hostPortWrite (s : State) (f key : Nat) (w : WriteData) : Bool × State :=
  if s.hostCut key then (true, s) else s.portWrite ⟨.host, f⟩ key w

/-- A read from the host link: accepted into the pool and answered when it is served; false while it is not taken, so that the host presents it again (R77; log 69). -/
def State.hostLinkRead (s : State) (f key : Nat) (ans : Answer) : Bool × State :=
  let who : Requester := ⟨.host, f⟩
  let k := key / 64 * 64
  let now := fun (s : State) => (true, s.answerReq ⟨who, k, none, s.tsc, ans⟩ .bad)
  if s.hostCut key then now s
  else if s.retired (keyChan key) then now (s.retiredAccess (keyChan key) who.port.code false)
  else s.arrive who k none ans

/-- A requester waits until its next access is taken. -/
def State.stall (s : State) (u : ReadUser) : State :=
  if s.host.stalled.contains u then s else { s with host := { s.host with stalled := s.host.stalled ++ [u] } }

/-! ### Ownership directory and back-invalidation (R371) -/

/-- The host can be asked: the link is up and carries CXL. -/
def State.canSnoop (s : State) : Bool := s.dlUp && s.flag hostB HOST_LINK_STAT_CXL

/-- Ask the host about a line, or join a question that stands; at most 256 stand, and while they do the requesters wait. A line that was evicted is asked for with BISnpInv. -/
def State.askSnoop (s : State) (line : Nat) (inv : Bool) (w : List ReadUser) : State :=
  let h := s.host
  if h.snoops.any (fun q => decide (q.line = line)) then
    { s with host := { h with snoops := h.snoops.map (fun q => if q.line = line then { q with waiters := q.waiters ++ w.filter (fun u => !q.waiters.contains u) } else q) } }
  else if 256 ≤ h.snoops.length then w.foldl State.stall s
  else
    let inv := inv || h.owed.contains line
    let s := ({ s with host := { h with snoops := h.snoops ++ [(⟨line, inv, w⟩ : Snoop)], owed := h.owed.filter (fun n => decide (n ≠ line)) } } : State).send (.bisnp line inv)
    s.count hostB HOST_BISNP_CNT_COUNT 1 hostSrc 0x010A

/-- A tile or ring-engine access to a line needs the host's answer first (R371): the line has an entry, left it by eviction without an answer yet, or is asked for. `done` lists the lines already answered for the access. -/
def State.needsSnoop (s : State) (key : Nat) (done : List Nat) : Bool :=
  s.sharedKey key && (s.host.dir.contains (key / 64) || s.host.owed.contains (key / 64) || s.host.snoops.any (fun q => decide (q.line = key / 64))) &&
    !done.contains (key / 64)

/-- Lines that left the directory by eviction are asked of the host with BISnpInv, as far as questions may stand. -/
def State.askOwed (s : State) : State :=
  let free := 256 - s.host.snoops.length
  let now := (s.host.owed.filter (fun n => !s.host.snoops.any (fun q => decide (q.line = n)))).take free
  now.foldl (fun (a : State) n => a.askSnoop n true []) s

/-- The host takes a line: a new entry that finds the directory full evicts the least recently entered line, which the host is asked to give up (R371). -/
def State.enterDir (s : State) (line : Nat) : State :=
  let h := s.host
  if h.dir.contains line then s
  else if 524288 ≤ h.dir.length then
    State.askOwed { s with host := { h with dir := h.dir.drop 1 ++ [line], owed := h.owed ++ h.dir.take 1 } }
  else { s with host := { h with dir := h.dir ++ [line] } }

def State.leaveDir (s : State) (line : Nat) : State :=
  { s with host := { s.host with dir := s.host.dir.filter (fun l => decide (l ≠ line)) } }

/-! ### REQUEST_ACCEPT -/

/-- The host has answered for a tile's request to a line. -/
def State.answeredFor (s : State) (t line : Nat) : Bool := s.host.answered.contains (t, line)

/-- A tile's request to a shared line that the host may hold: the host is asked, and the request is presented again with its answer; without a link that carries CXL it is answered as one that cannot be served (R371). -/
def State.requestSnoop (s : State) (who : Requester) (key : Nat) (write : Bool) : State :=
  if s.canSnoop then s.askSnoop (key / 64) write [.request who.id] else s.answerBad who key write

/-- A request of a tile ends an episode of its deadlock detector (R355), and uses up the host's answer for its line (R371). -/
def State.requestMade (s : State) (who : Requester) (line : Nat) : State :=
  if who.port = .tile then
    ({ s with host := { s.host with answered := s.host.answered.erase (who.id, line) } } : State).setTile who.id { s.tile who.id with dldDone := false }
  else s

/-- REQUEST_ACCEPT (R77): an unmapped request is answered with an error, retired storage answers poison or acknowledges and discards, a bias change holds it (R373), and the host may have to be asked (R371). A tile that is not up and a host port in reset make no request (R27). -/
def requestAccept (who : Requester) (dpa : Nat) (w : Option WriteData) (s : State) : State :=
  let a := dpa / 64 * 64
  if (if who.port = .tile then !s.tileUp who.id else !s.dieUp 0) then s
  else
    match s.resolve who a with
    | (none, s) => s.send (.unmapped who a)
    | (some key, s) =>
      if who.port = .tile ∧ s.biasHeld key then s
      else if who.port = .host ∧ s.hostCut key then s.answerBad who key w.isSome
      else if s.retired (keyChan key) then (s.retiredAccess (keyChan key) who.port.code w.isSome).answerBad who key w.isSome
      else if who.port = .tile ∧ s.needsSnoop key [] ∧ !s.answeredFor who.id (key / 64) then s.requestSnoop who key w.isSome
      else
        let n := (s.cc (keyChan key)).pool.length
        let s := s.accept who key w .plain
        if n < (s.cc (keyChan key)).pool.length then
          let s := s.requestMade who (key / 64)
          if w.isSome then s.send (.writeDone who key) else s
        else s

end Sys2Proof.Machine
end

