-- ==== Sys2Proof/Machine/Noc.lean ====
section
/-! DEFINITION. Packets to tile ports and the NoC's error answers (R199, R217-R222, R365). -/

namespace Sys2Proof.Machine

/-- The unit through whose port a packet of source `src` enters the mesh (R222): the tile or CC itself, 0x3A0 for the units of the host ports. -/
def entrySrc (src : Nat) : Nat := if isSite src then src else if 0x200 ≤ src ∧ src < 0x380 then src else hostSrc

/-- Tiles of different partitions, neither of them PF0's (R365). -/
def State.crossPartition (s : State) (src dest : Nat) : Bool :=
  isSite src && isSite dest && s.tileOwner src != 0 && s.tileOwner dest != 0 && s.tileOwner src != s.tileOwner dest

/-- Whether a packet to tile `dest` is taken; a packet that is not is answered with an error, reported and noted by a requesting tile (R222, R365, Table 7-8). -/
def State.nocAccess (s : State) (src eng dest plane : Nat) (write : Bool) : Bool × State :=
  let failed := fun (s : State) => if isSite src then s.tileNocErr src eng dest plane else s
  if s.nocCause dest ≠ 0 then (false, failed (s.nocError dest src (entrySrc src) plane write))
  else if s.crossPartition src dest then
    let s := s.emit dest 0x0301 [src, dest, plane, if write then 1 else 0, 2]
    (false, failed (s.emit dest 0x0107 [src, 3]))
  else (true, s)

/-- The die on which a source's packets enter the mesh (R18, R37). -/
def srcDie (src : Nat) : Nat :=
  if src < 0x200 then tileDie src else if src < 0x380 then chanDie (src - 0x200) else if src < 0x38C then chanDie (32 * (src - 0x380)) else 0

/-- NOC_PACKET_DELIVERY (R220): one 64 B cell read, or a write of one cell under a byte mask that fills it (R199, R200). The seam link may hold the packet (R18), but not one to an ID that names no site, which its entry router answers (R222). -/
def nocPacketDelivery (p : Packet) (s : State) : State :=
  let d := p.dest.toNat
  if s.nocHeld (srcDie p.src) d then s
  else
  match p.body with
  | .read off =>
    match s.nocAccess p.src p.eng d p.plane false with
    | (true, s) => s.send (.nocRead p.src (s.spCell d (off / 64 % 65536)))
    | (false, s) => s.send (.nocError p.src false)
  | .write off w =>
    match s.nocAccess p.src p.eng d p.plane true with
    | (true, s) => (s.spFill d (off / 64 % 65536) p.src w).send (.nocAck p.src)
    | (false, s) => s.send (.nocError p.src true)

end Sys2Proof.Machine
end

