-- ==== Sys2Proof/Machine/Mxe.lean ====
section
/-! DEFINITION. The matrix engine: MMA and the fused store (R267-R290). -/

namespace Sys2Proof.Machine

/-! ### Operand pairs and addresses (Tables 9-1, 9-2) -/

/-- A type that the one-K-step row of Table 9-2 lists. -/
def narrowType (ty : Nat) : Bool := [0x14, 0x12, 0x13, 0x10, 0x11, 0x0B, 0x0C, 0x15].contains ty

/-- Table 9-2 lists the pair. -/
def pairOk (ta tb : Nat) : Bool := (narrowType ta && narrowType tb) || decide (ta = 9 ∧ tb = 9) || decide (ta = 0 ∧ tb = 0)

/-- TCLK that `k` elements of K take in the array: K / s (R272). MXE_ARRAY_CYC counts all of them, for BF16 too, whose K-step takes two (DESIGN CHOICE, log 78). -/
def arrayCycles (ta tb k : Nat) : Nat := if ta = 0x14 ∧ tb = 0x14 then k / 2 else if ta = 9 then 2 * k else k

/-- A register plus a signed immediate in 64 B units (R275). -/
def State.cellBase (s : State) (c : OpCtx) (r imm w : Nat) : Nat := addA (s.areg c r) (64 * signed w imm)

/-- An operand of `len` bytes from an aligned base lies in the scratchpad (R276). -/
def inSpad (base len : Nat) : Bool := cellAligned base && decide (base + len ≤ 2 ^ 22)

/-- Bytes of one K block: `rows` vectors of 32 elements. -/
def blockBytes (rows ty : Nat) : Nat := rows * 4 * elemBits ty

/-- The job that an MMA's words name. -/
def mmaJob (c : OpCtx) (s : State) : MmaJob :=
  { a := s.cellBase c (bitsOf c.op 8 4) (bitsOf c.ext 0 16) 16
    b := s.cellBase c (bitsOf c.op 12 4) (bitsOf c.ext 16 16) 16
    sa := s.cellBase c (bitsOf c.op 16 4) (bitsOf c.ext 32 16) 16
    sb := s.cellBase c (bitsOf c.op 20 4) (bitsOf c.ext 48 16) 16
    ta := bitsOf c.op 24 5, tb := bitsOf c.op 29 5, bank := bitsOf c.op 34 1, zero := bit c.op 35
    kb := bitsOf c.op 36 5 + 1, slot := c.slot, loc := c.loc, snap := none }

/-- The byte ranges that an MMA reads. -/
def MmaJob.reads (j : MmaJob) : List (Nat × Nat) :=
  [(j.a, j.kb * blockBytes 64 j.ta), (j.b, j.kb * blockBytes 128 j.tb)] ++
    (if isMx j.ta then [(j.sa, 64 * j.kb)] else []) ++ (if isMx j.tb then [(j.sb, 128 * j.kb)] else [])

def noSlot (_ : Nat) : Option Nat := none

/-- MMA (R275, R276): held while 8 wait (R273). -/
def execMma (t : TileId) (w : OpWord) (s : State) : Res :=
  .next (s.issueOp t.toNat 0 w (opIs 0x30) (fun op _ => onlyBits op [(0, 41)])
    (fun c s =>
      let j := mmaJob c s
      if !pairOk j.ta j.tb then .fault 16
      else if !j.reads.all (fun r => inSpad r.1 r.2) then .fault 17
      else if 8 ≤ (s.tile c.t).mmas.length then .hold
      else .done (s.modTile c.t (fun x => { x with mmas := x.mmas ++ [j], mmaLast := put noSlot x.mmaLast j.bank (some c.slot) }))))

/-! ### Multiplication (R271, R51, R52) -/

/-- An accumulator and what its additions raised. -/
structure MSum where
  v    : PV
  inv  : Bool := false
  ovf  : Bool := false
  pois : Bool := false
  sat  : Nat := 0
  deriving DecidableEq, Repr

def MSum.add (a : MSum) (r : PV × Note) : MSum := { a with v := r.1, inv := a.inv || r.2.inv, ovf := a.ovf || r.2.ovf }
/-- A poisoned input is consumed (R61). -/
def MSum.spoil (a : MSum) : MSum := { a with v := .pois, pois := true }

/-- A saturating INT32 addition of an exact product (R54). -/
def MSum.addInt (a : MSum) (p : Int) : MSum :=
  match a.v with
  | .pois => a
  | .val b =>
    let x := signed 32 b.toNat + p
    if x < -(2 ^ 31) then { a with v := .val (BitVec.ofNat 32 (2 ^ 31)), ovf := true, sat := a.sat + 1 }
    else if 2 ^ 31 ≤ x then { a with v := .val (BitVec.ofNat 32 (2 ^ 31 - 1)), ovf := true, sat := a.sat + 1 }
    else { a with v := .val (BitVec.ofNat 32 (wrapTo 32 x)) }

/-- One vector of 32 elements with its scale, none where poisoned. -/
structure KVec where
  elems : List (Option Nat)
  scale : Option Nat
  deriving DecidableEq, Repr

/-- Vector `r` of block `kb` (Table 9-1): `rows` is 64 for A and 128 for B. -/
def kvec (b : Bytes) (base sbase ty rows r kb : Nat) : KVec :=
  let bits := elemBits ty
  { elems := (List.range 32).map (fun k => b.elem (8 * base + ((kb * rows + r) * 32 + k) * bits) bits)
    scale := if isMx ty then b.byteAt (sbase + kb * rows + r) else some 127 }

/-- One block of one accumulator (R271). Clean operands added to an accumulator that is poisoned already consume no poison (DESIGN CHOICE, log 78). -/
def MSum.block (ta tb : Nat) (acc : MSum) (x y : KVec) : MSum :=
  if ta = 9 ∨ ta = 0 then
    (x.elems.zip y.elems).foldl (fun a p =>
      match p.1, p.2 with
      | some u, some v =>
        if ta = 0 then a.addInt (intElem 0 u * intElem 0 v)
        else
          match a.v with
          | .val b => a.add (rounded [decodeF fp32 b.toNat, elemValue 9 u, elemValue 9 v] (fma32 (elemValue 9 u) (elemValue 9 v) (decodeF fp32 b.toNat)))
          | .pois => a
      | _, _ => a.spoil) acc
  else
    match x.scale, y.scale with
    | some ea, some eb =>
      if (x.elems ++ y.elems).any (·.isNone) then acc.spoil
      else
        match acc.v with
        | .val b => acc.add (addBlock (decodeF fp32 b.toNat) (x.elems.map (fun v => elemValue ta (v.getD 0))) (y.elems.map (fun v => elemValue tb (v.getD 0))) ea eb)
        | .pois => acc
    | _, _ => acc.spoil

def Tile.bank (x : Tile) (b : Nat) : SMap PV := if b = 0 then x.acc0 else x.acc1
def Tile.setBank (x : Tile) (b : Nat) (v : SMap PV) : Tile := if b = 0 then { x with acc0 := v } else { x with acc1 := v }

/-- All accumulators of a bank after an MMA, in ascending m then n. -/
def MmaJob.sums (j : MmaJob) (b : Bytes) (bank : SMap PV) : List MSum :=
  let as := (List.range 64).map (fun m => (List.range j.kb).map (fun kb => kvec b j.a j.sa j.ta 64 m kb))
  let bs := (List.range 128).map (fun n => (List.range j.kb).map (fun kb => kvec b j.b j.sb j.tb 128 n kb))
  (List.range 8192).map (fun i =>
    let start : MSum := { v := if j.zero then pv0 else look pvZero bank i }
    ((as.getD (i / 128) []).zip (bs.getD (i % 128) [])).foldl (fun a p => a.block j.ta j.tb p.1 p.2) start)

/-- The bank that holds these accumulators. -/
def bankOf (l : List PV) : SMap PV := ((List.range l.length).zip l).filter (fun p => decide (p.2 ≠ pv0))

/-- What an FST at `slot` sees of a bank: its sum before the MMAs at distance 1 to 4 that have already run (R261, R284). -/
def Tile.bankAt (x : Tile) (b slot : Nat) : SMap PV :=
  (((look noPast x.past b).filter (fun p => decide (slot < p.slot + 5))).getLast?).elim (x.bank b) (·.vals)
/-- The sum that a bank holds before the MMA of `slot` joins it; an FST can be that close to four of them at most. -/
def Tile.keepBank (x : Tile) (b slot : Nat) : Tile :=
  { x with past := put noPast x.past b ((⟨slot, x.bank b⟩ :: look noPast x.past b).take 4) }

/-- MMA `j` may begin: no FST of its bank goes first, and no earlier FST has still to write what it reads (R284, R285). -/
def Tile.mmaReady (x : Tile) (j : MmaJob) : Bool :=
  x.fsts.all (fun f =>
    (decide (f.bank ≠ j.bank) || decide (j.slot + 5 ≤ f.slot)) &&
    (decide (j.slot < f.slot) || j.reads.all (fun r => !spanMeets f.span r.1 r.2 && !(isMx f.ot && spanMeets f.scaleSpan r.1 r.2))))

/-- Cells of the scratchpad that an MMA reads, as far as they name different banks. -/
def MmaJob.readCells (j : MmaJob) : List Nat := j.reads.flatMap (fun r => spanCells r.1 r.2)

/-- MMA_ARRAY_START (R272): the oldest queued MMA accumulates into its bank. -/
def mmaArrayStart (t : Nat) (s : State) : State :=
  let x := s.tile t
  match x.mmas with
  | [] => s
  | j :: r =>
    if !s.tileUp t || !x.mmaReady j then s
    else
      let b : Bytes := match j.snap with | some p => ⟨p.sp, p.pois⟩ | none => x.spad
      let l := j.sums b (x.bank j.bank)
      let pois := l.any (·.pois)
      let s := s.setTile t (({ x with mmas := r }.keepBank j.bank j.slot).setBank j.bank (bankOf (l.map (fun (a : MSum) => a.v))) |>.bankUse 0 j.readCells)
      let s := s.mxeFlags t (l.any (·.inv)) (l.any (·.ovf)) pois
      let s := s.emitN (l.foldl (fun n a => n + a.sat) 0) t 0x0331 [j.bank, j.loc.off]
      let s := if pois then s.emit t 0x0332 [0x30, j.bank, j.loc.off] else s
      let s := s.countT t MXE_ARRAY_CYC_COUNT (arrayCycles j.ta j.tb (32 * j.kb))
      (s.countT t MXE_MACS_COUNT (64 * j.kb)).faultSettle t

/-! ### The fused store (R277-R283) -/

/-- Dimension word `w` of a store descriptor (Table 9-5). -/
def digitOf (w : Nat) : Digit :=
  { ofN := bit w 0, shift := bitsOf w 1 3, width := bitsOf w 4 3, stride := signed 24 (bitsOf w 8 24), sstride := signed 24 (bitsOf w 32 24) }

/-- The bits of a digit within its index. -/
def Digit.bits (d : Digit) : List Nat := (List.range d.width).map (· + d.shift)

/-- The digits of an axis cover its `n` bits exactly once. -/
def covers (l : List Digit) (axis : Bool) (n : Nat) : Bool :=
  let b := (l.filter (fun d => d.ofN == axis)).flatMap Digit.bits
  decide (b.length = n) && (List.range n).all (fun i => b.contains i)

/-- A store descriptor is valid (R278): `v` is its 64 B as a number. -/
def sdescOk (ot v : Nat) (l : List Digit) : Bool :=
  let words := (List.range 5).map (fun i => bitsOf v (64 * i) 64)
  let d0 := l.getD 0 ⟨false, 0, 0, 0, 0⟩
  decide (v < 2 ^ 320) && words.all (fun w => !bit w 7 && decide (w < 2 ^ 56)) &&
    l.all (fun d => decide (d.shift ≤ 6)) && decide (d0.sstride = 0) && covers l false 6 && covers l true 7 &&
    (!isMx ot || decide (d0.shift = 0 ∧ d0.width = 5 ∧ d0.stride = 1)) &&
    (decide (ot ≠ 0x14) || (l.drop 1).all (fun d => decide (d.stride % 2 = 0)))

/-- R280 allows the output type. -/
def fstTypeOk (iacc : Bool) (ot : Nat) : Bool :=
  if iacc then [2, 0, 8].contains ot else [0, 2, 8, 9, 0xA, 0xB, 0xC].contains ot || isMx ot

/-- Every byte of an inclusive span lies in the scratchpad. -/
def spanIn (p : Int × Int) : Bool := decide (0 ≤ p.1 ∧ p.2 < 2 ^ 22)

/-- Hazard-check mode for engine `e`: the last writer stands closer than `d` slots (R262). -/
def State.hazard (s : State) (c : OpCtx) (last : Option Nat) (d : Nat) : Bool :=
  bit (s.rd (tileB c.t) TILE_HAZ_CTRL_ENABLE) c.e && (match last with | some w => decide (c.slot < w + d) | none => false)

/-- FST (R277): its descriptor is read and checked at issue; held while 2 wait (R283). -/
def execFst (t : TileId) (w : OpWord) (s : State) : Res :=
  .next (s.issueOp t.toNat 0 w (opIs 0x31) (fun op _ => onlyBits op [(0, 30)])
    (fun c s =>
      let ot := bitsOf c.op 21 5
      let desc := s.cellBase c (bitsOf c.op 16 4) (bitsOf c.ext 44 20) 20
      if !fstTypeOk (bit c.op 29) ot then .fault 16
      else if !cellAligned desc then .fault 17
      else if s.mayWrite c.t 0 desc 64 then .hold
      else
        match (s.spCell c.t (desc / 64)).clean with
        | none => .fault 32
        | some v =>
          let dims := (List.range 5).map (fun i => digitOf (bitsOf v (64 * i) 64))
          let j : FstJob :=
            { bank := bitsOf c.op 20 1, ot := ot, sat := bit c.op 26, smode := bit c.op 27, fill := bit c.op 28, iacc := bit c.op 29
              d := addA (s.areg c (bitsOf c.op 8 4)) (signed 22 (bitsOf c.ext 0 22))
              s := addA (s.areg c (bitsOf c.op 12 4)) (signed 22 (bitsOf c.ext 22 22))
              dims := dims, slot := c.slot, loc := c.loc }
          if !sdescOk ot v dims then .fault 18
          else if !spanIn j.span || (isMx ot && !spanIn j.scaleSpan) then .fault 17
          else if s.hazard c (look noSlot (s.tile c.t).mmaLast j.bank) 5 then .fault 14
          else if 2 ≤ (s.tile c.t).fsts.length then .hold
          else .done (s.modTile c.t (fun x => { x.bankUse 0 [desc / 64] with fsts := x.fsts ++ [j] }))))

/-- Offsets of element (m, n): its bit address and its scale byte (R277). -/
def FstJob.place (j : FstJob) (m n : Nat) : Nat × Nat :=
  let digit := fun (d : Digit) => (bitsOf (if d.ofN then n else m) d.shift d.width : Int)
  let e := j.dims.foldl (fun a d => a + digit d * d.stride) 0
  let sc := (j.dims.drop 1).foldl (fun a d => a + digit d * d.sstride) 0
  (((j.d : Int) * 8 + e * elemBits j.ot).toNat, ((j.s : Int) + sc).toNat)

/-- The conversion of one accumulator (R280). -/
def FstJob.conv (j : FstJob) (b : BitVec 32) : Conv :=
  if j.iacc then
    if j.ot = 2 then { bits := b.toNat } else toElem j.ot j.sat (ofInt (signed 32 b.toNat))
  else toElem j.ot j.sat (decodeF fp32 b.toNat)

/-- What an FST has formed so far. -/
structure Store where
  patch : Patch := []
  encs  : List (Nat × Option MxBlock) := []     -- encoded blocks by the index 128 m + n of their first element; none is poisoned
  inv   : Bool := false
  ovf   : Bool := false
  pois  : Bool := false
  deriving DecidableEq, Repr

/-- The 32 accumulators of the block that holds element (m, n), from its first. -/
def FstJob.blockAt (j : FstJob) (m n : Nat) : Nat × List Nat :=
  if (j.dims.getD 0 ⟨false, 0, 0, 0, 0⟩).ofN then
    let n0 := n / 32 * 32
    (128 * m + n0, (List.range 32).map (fun i => 128 * m + n0 + i))
  else
    let m0 := m / 32 * 32
    (128 * m0 + n, (List.range 32).map (fun i => 128 * (m0 + i) + n))

/-- Encode a block when its first element is reached; its scale is placed then (R57, R58, R62, R281). -/
def FstJob.encode (j : FstJob) (bank : SMap PV) (first scaleAt : Nat) (idx : List Nat) (x : Store) : Store :=
  let l := idx.map (look pvZero bank)
  if l.any PV.isPois then
    { x with encs := (first, none) :: x.encs, patch := x.patch.byte scaleAt none, pois := true }
  else
    let b := mxEncode j.ot j.smode (l.map PV.f)
    { x with encs := (first, some b) :: x.encs, patch := x.patch.byte scaleAt (some b.scale), inv := x.inv || b.inv, ovf := x.ovf || b.ovf }

/-- Store element (m, n). -/
def FstJob.store (j : FstJob) (bank : SMap PV) (i : Nat) (x : Store) : Store :=
  let m := i / 128
  let n := i % 128
  let (e, sc) := j.place m n
  if isMx j.ot then
    let (first, idx) := j.blockAt m n
    let x := if first = i then j.encode bank first sc idx x else x
    let k := idx.findIdx (fun v => decide (v = i))
    let v := (x.encs.find? (fun p => decide (p.1 = first))).bind (fun p => p.2.map (fun b => b.elems.getD k 0))
    { x with patch := x.patch.elem e (elemBits j.ot) v }
  else
    match look pvZero bank i with
    | .pois => { x with patch := x.patch.elem e (elemBits j.ot) none, pois := true }
    | .val b =>
      let r := j.conv b
      { x with patch := x.patch.elem e (elemBits j.ot) (some r.bits), inv := x.inv || r.inv, ovf := x.ovf || r.ovf }

/-- FST `j` may read its bank: every MMA at distance ≥ 5 has run (R284). -/
def Tile.fstReady (x : Tile) (j : FstJob) : Bool := x.mmas.all (fun m => decide (m.bank ≠ j.bank) || decide (j.slot < m.slot + 5))

/-- Earlier MMAs that have not run keep what they are to read (R285). -/
def Tile.keepReads (x : Tile) (j : FstJob) : Tile :=
  { x with mmas := x.mmas.map (fun m => if m.slot < j.slot ∧ m.snap.isNone then { m with snap := some ⟨x.sp, x.spPois⟩ } else m) }

/-- FST_BANK_READ (R281): the oldest queued FST reads its bank and writes its cells. -/
def fstBankRead (t : Nat) (s : State) : State :=
  let x := s.tile t
  match x.fsts with
  | [] => s
  | j :: r =>
    if !s.tileUp t || !x.fstReady j then s
    else
      let o := upto 8192 (j.store (x.bankAt j.bank j.slot)) {}
      let s := s.setTile t { x.keepReads j with fsts := r }
      let s := s.mxeFlags t o.inv o.ovf o.pois
      let s := if o.pois then s.emit t 0x0332 [0x31, j.bank, j.loc.off] else s
      (((s.spPatch t j.fill o.patch).bankUse t 0 (o.patch.cells.map (·.1))).countT t MXE_STORE_CELLS_COUNT o.patch.cells.length).faultSettle t

end Sys2Proof.Machine
end

