-- ==== Sys2Proof/Machine/Vxe.lean ====
section
/-! DEFINITION. The vector engine: VOP, its functions, reductions, stream registers and waits (R291-R308). -/

namespace Sys2Proof.Machine

/-! ### Functions and types (Table 10-3, R296) -/

/-- How many of the inputs a, b, c the function takes; none for a reserved code. -/
def arity (fn : Nat) : Option Nat :=
  if [0x08, 0x09, 0x0A, 0x10, 0x11, 0x12, 0x14, 0x30, 0x31, 0x34, 0x38, 0x39, 0x3D, 0x3F].contains fn then some 1
  else if [0x01, 0x02, 0x03, 0x06, 0x07, 0x13, 0x32, 0x33, 0x3C, 0x3E].contains fn || decide (0x20 ≤ fn ∧ fn ≤ 0x2A) then some 2
  else if fn = 0x04 ∨ fn = 0x05 then some 3
  else none

/-- The INT class. -/
def intFn (fn : Nat) : Bool := decide ((0x20 ≤ fn ∧ fn ≤ 0x2A) ∨ fn = 0x38 ∨ fn = 0x39)
/-- A reduction (R299). -/
def reduces (fn : Nat) : Bool := decide (0x30 ≤ fn ∧ fn ≤ 0x39)
/-- The function takes an optional scaling c. -/
def scales (fn : Nat) : Bool := decide (0x30 ≤ fn ∧ fn ≤ 0x33)

/-- Types of KIND 1 inputs and outputs of the FP class, and of the INT class. E8M0 is no output type: Table 2-4 converts nothing to it (DESIGN CHOICE, log 76). -/
def fpTypes : List Nat := [0, 1, 2, 3, 4, 8, 9, 0xA, 0xB, 0xC]
def intTypes : List Nat := [0, 1, 2, 3, 4]

/-- An input of the class has an allowed type. -/
def VOperand.inputOk (o : VOperand) (int : Bool) : Bool :=
  if o.kind = 1 then (if int then intTypes else fpTypes).contains o.ty
  else decide (o.kind ≠ 0 ∧ o.ty = (if int then 2 else 8))

/-- A record of SMERGE or SMFIN (R301). -/
def VOperand.isRecord (o : VOperand) : Bool := decide (o.kind = 1 ∧ o.ty = 8)

/-- Inputs that the operation uses, with their places 0-2. -/
def VopJob.inputs (j : VopJob) : List (Nat × VOperand) :=
  let n := (arity j.fn).getD 0
  [(0, j.i0)] ++ (if 2 ≤ n then [(1, j.i1)] else []) ++ (if n = 3 ∨ (scales j.fn ∧ j.i2.kind ≠ 0) then [(2, j.i2)] else [])

/-- An I1 that a one-input function does not read still carries an accepted type when it names an operand; I2 is ignored (R38, R297). -/
def VopJob.spareOk (j : VopJob) : Bool := decide (arity j.fn ≠ some 1 ∨ j.i1.kind = 0) || j.i1.inputOk (intFn j.fn)

/-- Types and required inputs (R296, R300-R302): a break is VXE_FMT, and so is L ≠ 1 for SMERGE and SMFIN (DESIGN CHOICE, log 76). -/
def VopJob.fmtOk (j : VopJob) : Bool :=
  let outTypes := if intFn j.fn then intTypes else fpTypes
  let outOk := decide (j.o.kind = 2 ∧ j.o.ty = (if intFn j.fn then 2 else 8)) || (decide (j.o.kind = 1) && outTypes.contains j.o.ty)
  match j.fn with
  | 0x3C => decide (j.i0.kind = 1) && isMx j.i0.ty && decide (j.i1.kind = 1 ∧ j.i1.ty = 0x18 ∧ j.len % 32 = 0) && outOk
  | 0x3D => j.i0.inputOk false && decide (j.o.kind = 1) && isMx j.o.ty && decide (j.i1.kind = 1 ∧ j.i1.ty = 0x18 ∧ j.len % 32 = 0)
  | 0x3E => j.i0.isRecord && j.i1.isRecord && decide (j.o.ty = 8 ∧ j.len = 1)
  | 0x3F => j.i0.isRecord && decide (j.len = 1) && outOk && j.spareOk
  | _ => j.inputs.all (fun p => p.2.inputOk (intFn j.fn)) && outOk && j.spareOk

/-- KIND 2 outputs are allowed for reductions, and for elementwise functions with L = 1 (R299). -/
def VopJob.outKindOk (j : VopJob) : Bool :=
  decide (j.o.kind ≠ 2) || reduces j.fn || (decide (j.len = 1) && !decide (0x3C ≤ j.fn))

/-! ### Which bytes a position reads (R294, R300) -/

/-- Positions of a row. -/
def VopJob.perRow (j : VopJob) : Nat := (j.len + 63) / 64
/-- Positions of the operation. -/
def VopJob.total (j : VopJob) : Nat := j.rows * j.perRow

/-- First byte of row `k` of an operand. -/
def VOperand.row (o : VOperand) (k : Nat) : Nat := ((o.base : Int) + 64 * (k : Int) * o.rstride).toNat

/-- Bits of input `p` that one row reads. -/
def VopJob.rowBits (j : VopJob) (p : Nat) (o : VOperand) : Nat :=
  if 0x3E ≤ j.fn then 2112 * 8
  else if j.fn = 0x3C ∧ p = 1 then j.len / 32 * 8
  else if reduces j.fn ∧ p = 2 then elemBits o.ty
  else j.len * elemBits o.ty

/-- Bytes, inclusive, that input `p` reads at position `i` of row `k`; none when it reads none there. -/
def VopJob.readAt (j : VopJob) (p : Nat) (o : VOperand) (k i : Nat) : Option (Nat × Nat) :=
  let r := o.row k
  let last := (j.rowBits p o + 7) / 8 - 1
  if o.kind ≠ 1 then none
  else if 0x3E ≤ j.fn then some (r, r + last)
  else if reduces j.fn ∧ p = 2 then (if i + 1 = j.perRow then some (r, r + last) else none)
  else
    let step := if j.fn = 0x3C ∧ p = 1 then 2 else 8 * elemBits o.ty
    some (r + step * i, r + min last (step * (i + 1) - 1))

/-- Some later position of the operand reads the cell (R303). -/
def VopJob.readLater (j : VopJob) (p : Nat) (o : VOperand) (k i cell : Nat) : Bool :=
  (match (if i + 1 < j.perRow then j.readAt p o k (i + 1) else none) with
    | some (a, _) => decide (a / 64 ≤ cell)
    | none => false) ||
  (List.range j.rows).any (fun q =>
    decide (k < q) && decide (o.row q / 64 ≤ cell ∧ cell ≤ (o.row q + (j.rowBits p o + 7) / 8 - 1) / 64))

/-- Cells of the scratchpad that position `i` of row `k` reads. -/
def VopJob.cellsAt (j : VopJob) (k i : Nat) : List Nat :=
  j.inputs.flatMap (fun (q : Nat × VOperand) => match j.readAt q.1 q.2 k i with | some (a, b) => spanCells a b | none => [])

/-- The waits of position `i` of row `k`, in order: cell, and whether its read consumes (R303). Within a position I0 waits first, then I1, then I2 (DESIGN CHOICE, log 77). -/
def VopJob.waitsAt (j : VopJob) (k i : Nat) : List (Nat × Bool) :=
  j.inputs.flatMap (fun (q : Nat × VOperand) =>
    if q.2.sync = 0 then []
    else
      match j.readAt q.1 q.2 k i with
      | some (a, b) => (List.range (b / 64 + 1 - a / 64)).map (fun n =>
          (a / 64 + n, decide (q.2.sync = 2) && !j.readLater q.1 q.2 k i (a / 64 + n)))
      | none => [])

/-- Two inputs read a common cell. -/
def VopJob.share (j : VopJob) (p q : Nat × VOperand) : Bool :=
  decide (p.2.kind = 1 ∧ q.2.kind = 1) && (List.range j.rows).any (fun k => (List.range j.rows).any (fun l =>
    let a := p.2.row k
    let b := q.2.row l
    decide (a / 64 ≤ (b + (j.rowBits q.1 q.2 + 7) / 8 - 1) / 64 ∧ b / 64 ≤ (a + (j.rowBits p.1 p.2 + 7) / 8 - 1) / 64)))

/-- The rules on SYNC (R300, R303). -/
def VopJob.syncOk (j : VopJob) : Bool :=
  (decide (j.fn ≠ 0x3D) || decide (j.i1.sync = 0)) &&
    j.inputs.all (fun p => decide (p.2.kind ≠ 1 ∨ p.2.sync ≠ 2) || j.inputs.all (fun q => decide (p.1 = q.1) || !j.share p q))

/-! ### The operand descriptor (Table 10-2) -/

/-- An operand word; `reg` is its base register's value. -/
def operandOf (w reg : Nat) : VOperand :=
  { kind := bitsOf w 0 2, ty := bitsOf w 2 5, sync := bitsOf w 7 2, vreg := bitsOf w 9 3
    base := addA reg (signed 22 (bitsOf w 16 22)), rstride := signed 17 (bitsOf w 38 17) }

/-- Reserved and unused fields of an operand word; an output of KIND 0 is VXE_DESC too (DESIGN CHOICE, log 76). -/
def operandClear (w : Nat) (out : Bool) : Bool :=
  let k := bitsOf w 0 2
  decide (bitsOf w 12 4 = 0 ∧ bitsOf w 55 9 = 0 ∧ bitsOf w 16 6 = 0) && (decide (k = 1) || decide (bitsOf w 16 39 = 0)) &&
    (decide (k = 2) || decide (bitsOf w 9 3 = 0)) && (decide (k ≠ 0) || decide (w = 0)) && decide (bitsOf w 7 2 ≠ 3) &&
    (!out || decide (k ≠ 3 ∧ k ≠ 0 ∧ bitsOf w 7 2 = 0))

/-- No reserved field or value of the descriptor is set; `v` is its 64 B as a number. -/
def vdescClear (v : Nat) : Bool :=
  decide (v < 2 ^ 320 ∧ bitsOf v 0 20 ≠ 0 ∧ bitsOf v 26 38 = 0) &&
    (List.range 3).all (fun i => operandClear (bitsOf v (64 * (i + 1)) 64) false) && operandClear (bitsOf v 256 64) true

/-- A KIND 1 operand is aligned and inside the scratchpad (R293). -/
def VOperand.placed (o : VOperand) (rows bits : Nat) : Bool :=
  decide (o.kind ≠ 1) || (cellAligned o.base && spanIn (o.span rows bits))

/-- Every byte that the operation reads or writes lies in the scratchpad (R293). -/
def VopJob.placed (j : VopJob) : Bool :=
  j.inputs.all (fun p => p.2.placed j.rows (j.rowBits p.1 p.2)) && j.o.placed j.rows j.outBits &&
    (decide (j.fn ≠ 0x3D) || j.i1.placed j.rows (j.len / 32 * 8))

/-- VOP (R292, R293): checked at issue; held while 4 wait (R298). -/
def execVop (t : TileId) (w : OpWord) (s : State) : Res :=
  .next (s.issueOp t.toNat 1 w (opIs 0x30) (fun op ext => onlyBits op [(0, 39)] && decide (ext < 2 ^ 48))
    (fun c s =>
      let fn := bitsOf c.op 28 8
      let desc := s.cellBase c (bitsOf c.op 24 4) (bitsOf c.ext 32 16) 16
      if (arity fn).isNone then .fault 19
      else if !cellAligned desc then .fault 20
      else if s.mayWrite c.t 1 desc 64 then .hold
      else
        match (s.spCell c.t (desc / 64)).clean with
        | none => .fault 32
        | some v =>
          let word := fun i => bitsOf v (64 * i) 64
          let reg := fun lo => s.areg c (bitsOf c.op lo 4)
          let j : VopJob :=
            { fn := fn, sat := bit c.op 36, smode := bit c.op 37, fill := bit c.op 38, imm := bitsOf c.ext 0 32
              len := bitsOf v 0 20, rows := bitsOf v 20 6 + 1
              i0 := operandOf (word 1) (reg 8), i1 := operandOf (word 2) (reg 12), i2 := operandOf (word 3) (reg 16)
              o := operandOf (word 4) (reg 20), slot := c.slot, loc := c.loc }
          if !vdescClear v then .fault 21
          else if !j.fmtOk then .fault 19
          else if !j.outKindOk || !j.syncOk then .fault 21
          else if !j.placed then .fault 20
          else if j.inputs.any (fun p => decide (p.2.kind = 2) && s.hazard c (look noSlot (s.tile c.t).vLast p.2.vreg) 3) then .fault 14
          else if 4 ≤ (s.tile c.t).vops.length then .hold
          else .done (s.modTile c.t (fun x =>
            { x.bankUse 1 [desc / 64] with vops := x.vops ++ [j], vLast := if j.o.kind = 2 then put noSlot x.vLast j.o.vreg (some c.slot) else x.vLast }))))

/-! ### Arithmetic (R296, R297) -/

/-- Elementwise functions of the FP class. -/
def fpFn (fn : Nat) (a b c : FV) : FV × Note :=
  match fn with
  | 0x01 => rd32 [a, b] (add32 a b)
  | 0x02 => rd32 [a, b] (sub32 a b)
  | 0x03 => rd32 [a, b] (mul32 a b)
  | 0x04 => rd32 [a, b, c] (fma32 a b c)
  | 0x05 => after (rd32 [a, b] (sub32 a b)) (fun d => rd32 [d, c] (mul32 d c))
  | 0x06 => (maxF a b, {})
  | 0x07 => (minF a b, {})
  | 0x08 => (a.abs, {})
  | 0x09 => (a.neg, {})
  | 0x10 => rd32 [a] (exp2V a)
  | 0x11 => rd32 [a] (rcpV a)
  | 0x12 => rd32 [a] (rsqrtV a)
  | 0x13 => after (rd32 [a, b] (add32 a b)) (fun d => rd32 [d] (rsqrtV d))
  | 0x14 => after (after (rd32 [a] (exp2V a.neg)) (fun e => rd32 [one, e] (add32 one e))) (fun d => rd32 [d] (rcpV d))
  | _ => (a, {})

/-- Elementwise functions of the INT class on 32-bit patterns; the flag says that IADDS saturated. -/
def intFnOp (fn a b : Nat) : Nat × Bool :=
  let x := signed 32 a
  let y := signed 32 b
  match fn with
  | 0x20 => ((a + b) % 2 ^ 32, false)
  | 0x21 => ((a + 2 ^ 32 - b) % 2 ^ 32, false)
  | 0x22 => (a * b % 2 ^ 32, false)
  | 0x23 =>
    if x + y < -(2 ^ 31) then (2 ^ 31, true)
    else if 2 ^ 31 ≤ x + y then (2 ^ 31 - 1, true)
    else (wrapTo 32 (x + y), false)
  | 0x24 => (if x < y then b else a, false)
  | 0x25 => (if y < x then b else a, false)
  | 0x26 => (a &&& b, false)
  | 0x27 => (a ||| b, false)
  | 0x28 => (a ^^^ b, false)
  | 0x29 => (a * 2 ^ (b % 32) % 2 ^ 32, false)
  | _ => (wrapTo 32 (x / (2 ^ (b % 32) : Nat)), false)

/-- Where an operation reads its inputs: bytes, stream registers and the immediate. -/
structure VSrc where
  bytes : Bytes
  regs  : Nat → List PV
  imm   : Nat

/-- The stored bits of element `e` of row `k` of an input; none is poison. -/
def VSrc.bits (x : VSrc) (o : VOperand) (k e : Nat) : Option Nat :=
  match o.kind with
  | 1 => x.bytes.elem (8 * o.row k + e * elemBits o.ty) (elemBits o.ty)
  | 2 => (match (x.regs o.vreg).getD k pv0 with | .val b => some b.toNat | .pois => none)
  | _ => some x.imm

/-- An input of the FP class as FP32 (R296). -/
def VSrc.fp (x : VSrc) (o : VOperand) (k e : Nat) : Option FV :=
  (x.bits o k e).map (fun v => if o.kind = 1 then rnd32 (elemValue o.ty v) else decodeF fp32 v)

/-- An input of the INT class as a 32-bit pattern. -/
def VSrc.int (x : VSrc) (o : VOperand) (k e : Nat) : Option Nat :=
  (x.bits o k e).map (fun v => wrapTo 32 (intElem (if o.kind = 1 then o.ty else 2) v))

/-- What a position gives: the bytes it writes, a lane of its output register, and what it raised. -/
structure VOut where
  patch : Patch := []
  scales : Patch := []      -- the scale bytes of MXENC, written after the elements (R300)
  lanes : List (Nat × PV) := []
  acc   : List PV := []
  inv   : Bool := false
  ovf   : Bool := false
  pois  : Bool := false
  sats  : Nat := 0
  deriving DecidableEq, Repr

def VOut.note (x : VOut) (n : Note) : VOut := { x with inv := x.inv || n.inv, ovf := x.ovf || n.ovf }

/-- Put element `e` of row `k` of the output: a converted value, or poison. -/
def VOut.put (x : VOut) (o : VOperand) (k e : Nat) (v : Option Conv) : VOut :=
  let x := match v with | some c => { x with inv := x.inv || c.inv, ovf := x.ovf || c.ovf } | none => { x with pois := true }
  if o.kind = 2 then
    { x with lanes := x.lanes ++ [(k, match v with | some c => PV.val (BitVec.ofNat 32 c.bits) | none => PV.pois)] }
  else { x with patch := x.patch.elem (8 * o.row k + e * elemBits o.ty) (elemBits o.ty) (v.map (·.bits)) }

/-- Convert an FP32 result to the output type (R296). -/
def VopJob.convF (j : VopJob) (v : FV) : Conv := toElem j.o.ty j.sat v

/-- Convert an INT32 result to the output type: it saturates (R296). -/
def VopJob.convI (j : VopJob) (v : Nat) : Conv := toElem j.o.ty true (ofInt (signed 32 v))

/-- One element of an elementwise function. -/
def VopJob.element (j : VopJob) (x : VSrc) (k e : Nat) (r : VOut) : VOut :=
  let n := (arity j.fn).getD 0
  if intFn j.fn then
    match x.int j.i0 k e, x.int j.i1 k e with
    | some a, some b =>
      let (v, sat) := intFnOp j.fn a b
      let r := if sat then { r with ovf := true, sats := r.sats + 1 } else r
      r.put j.o k e (some (j.convI v))
    | _, _ => r.put j.o k e none
  else
    let a := x.fp j.i0 k e
    let b := if 2 ≤ n then x.fp j.i1 k e else some pzero
    let c := if n = 3 then x.fp j.i2 k e else some pzero
    match a, b, c with
    | some a, some b, some c =>
      let (v, note) := fpFn j.fn a b c
      (r.note note).put j.o k e (some (j.convF v))
    | _, _, _ => r.put j.o k e none

/-- Elements of position `i` of a row. -/
def VopJob.elems (j : VopJob) (i : Nat) : List Nat := (List.range (min 64 (j.len - 64 * i))).map (· + 64 * i)

/-! ### Reductions (R299) -/

/-- The identity of a reduction. -/
def identityOf (fn : Nat) : PV :=
  match fn with
  | 0x34 => pvNegInf
  | 0x39 => .val 0x80000000
  | _ => pv0

/-- One step of a lane: `a` and `b` are the inputs, none where poisoned. -/
def stepFp (fn : Nat) (acc : PV) (a b : Option FV) : PV × Note × Bool :=
  match acc, a, b with
  | .val v, some a, some b =>
    let x := decodeF fp32 v.toNat
    let r : FV × Note :=
      match fn with
      | 0x30 => rd32 [x, a] (add32 x a)
      | 0x31 => rd32 [x, a] (fma32 a a x)
      | 0x32 => after (rd32 [a, b] (sub32 a b)) (fun d => rd32 [d, x] (fma32 d d x))
      | 0x33 => rd32 [x, a, b] (fma32 a b x)
      | _ => (maxF x a, {})
    (pvF r.1, r.2, false)
  | .pois, some _, some _ => (.pois, {}, false)
  | _, _, _ => (.pois, {}, true)

def stepInt (fn : Nat) (acc : PV) (a : Option Nat) : PV × Bool :=
  match acc, a with
  | .val v, some a =>
    (.val (BitVec.ofNat 32 (if fn = 0x38 then v.toNat + a else if signed 32 v.toNat < signed 32 a then a else v.toNat)), false)
  | .pois, some _ => (.pois, false)
  | _, none => (.pois, true)

/-- Combine two lanes in the tree. -/
def combine (fn : Nat) (a b : PV) : PV × Note :=
  match a, b with
  | .val x, .val y =>
    if intFn fn then ((stepInt fn a (some y.toNat)).1, {})
    else
      let u := decodeF fp32 x.toNat
      let v := decodeF fp32 y.toNat
      if fn = 0x34 then (pvF (maxF u v), {}) else let r := rd32 [u, v] (add32 u v); (pvF r.1, r.2)
  | _, _ => (.pois, {})

/-- The end-of-lane tree: halves of 32, 16, 8, 4, 2 and 1. -/
def tree (fn : Nat) : Nat → List PV × Note → List PV × Note
  | 0, x => x
  | n + 1, (l, note) =>
    let h := l.length / 2
    let r := ((l.take h).zip (l.drop h)).map (fun (p : PV × PV) => combine fn p.1 p.2)
    tree fn n (r.map (·.1), r.foldl (fun a q => a.and q.2) note)

/-- A position of a reduction; the row's last one forms its value. -/
def VopJob.reduceAt (j : VopJob) (x : VSrc) (k i : Nat) (acc : List PV) : VOut :=
  let r : VOut := (j.elems i).foldl (fun (r : VOut) e =>
    let lane := e % 64
    if intFn j.fn then
      let (v, p) := stepInt j.fn (r.acc.getD lane pv0) (x.int j.i0 k e)
      { r with acc := r.acc.set lane v, pois := r.pois || p }
    else
      let b := if (arity j.fn).getD 0 = 2 then x.fp j.i1 k e else some pzero
      let (v, n, p) := stepFp j.fn (r.acc.getD lane pv0) (x.fp j.i0 k e) b
      ({ r with acc := r.acc.set lane v, pois := r.pois || p } : VOut).note n) { acc := acc }
  if i + 1 < j.perRow then r
  else
    let (l, n) := tree j.fn 6 (r.acc, {})
    let r := ({ r with acc := List.replicate 64 (identityOf j.fn) } : VOut).note n
    match l.getD 0 pv0 with
    | .pois =>
      let r := r.put j.o k 0 none
      r
    | .val v =>
      if intFn j.fn then r.put j.o k 0 (some (j.convI v.toNat))
      else if scales j.fn ∧ j.i2.kind ≠ 0 then
        match x.fp j.i2 k 0 with
        | none => r.put j.o k 0 none
        | some c =>
          let (y, n) := rd32 [decodeF fp32 v.toNat, c] (mul32 (decodeF fp32 v.toNat) c)
          (r.note n).put j.o k 0 (some (j.convF y))
      else r.put j.o k 0 (some (j.convF (decodeF fp32 v.toNat)))

/-! ### MX, SMERGE and SMFIN (R300-R302) -/

/-- MXDEC of element `e`. -/
def VopJob.mxDecode (j : VopJob) (x : VSrc) (k e : Nat) (r : VOut) : VOut :=
  match x.bits j.i0 k e, x.bytes.byteAt (j.i1.row k + e / 32) with
  | some v, some g =>
    let u := scaled g (elemValue j.i0.ty v)
    let y := rnd32 u
    (r.note (rd32 [u] y).2).put j.o k e (some (j.convF y))
  | _, _ => r.put j.o k e none

/-- MXENC of block `g`: the 32 elements, then the scale through I1. -/
def VopJob.mxEncodeAt (j : VopJob) (x : VSrc) (k g : Nat) (r : VOut) : VOut :=
  let idx := (List.range 32).map (· + 32 * g)
  let l := idx.map (x.fp j.i0 k)
  let size := elemBits j.o.ty
  let spot := fun e => 8 * j.o.row k + e * size
  if l.any (·.isNone) then
    let p := idx.foldl (fun (p : Patch) e => p.elem (spot e) size none) r.patch
    { r with patch := p, scales := r.scales.byte (j.i1.row k + g) none, pois := true }
  else
    let b := mxEncode j.o.ty j.smode (l.map (·.getD pzero))
    let p := (idx.zip b.elems).foldl (fun (p : Patch) q => p.elem (spot q.1) size (some q.2)) r.patch
    { r with patch := p, scales := r.scales.byte (j.i1.row k + g) (some b.scale), inv := r.inv || b.inv, ovf := r.ovf || b.ovf }

/-- A 32-bit value of a record. -/
def VSrc.word (x : VSrc) (base : Nat) : PV :=
  match x.bytes.elem (8 * base) 32 with
  | some v => .val (BitVec.ofNat 32 v)
  | none => .pois

/-- Lane `l` of a record at `base` (Table 5-9). -/
def VSrc.lane (x : VSrc) (base l : Nat) : Lane :=
  { m := x.word (base + 4 * l), s := x.word (base + 32 + 4 * l)
    o := (List.range 64).map (fun d => x.word (base + 64 + 256 * l + 4 * d)), inv := false, ovf := false }

/-- A value of a patch word. -/
def Patch.pv (p : Patch) (a : Nat) (v : PV) : Patch := p.elem (8 * a) 32 (match v with | .val b => some b.toNat | .pois => none)

/-- SMERGE of row `k`: lane by lane the recurrence of R161 with EXP2. -/
def VopJob.smerge (j : VopJob) (x : VSrc) (k : Nat) : VOut :=
  let out := j.o.row k
  (List.range 8).foldl (fun (r : VOut) l =>
    let a := x.lane (j.i0.row k) l
    let b := x.lane (j.i1.row k) l
    let c := a.mergeWith exp2V (b.m, b.s) b.o
    let p := (r.patch.pv (out + 4 * l) c.m).pv (out + 32 + 4 * l) c.s
    let p := ((List.range 64).zip c.o).foldl (fun (p : Patch) q => p.pv (out + 64 + 256 * l + 4 * q.1) q.2) p
    let pois := (c.m :: c.s :: c.o).any PV.isPois
    { r with patch := p, inv := r.inv || c.inv, ovf := r.ovf || c.ovf, pois := r.pois || pois }) {}

/-- SMFIN of row `k`: round(o × RCP(s)). -/
def VopJob.smfin (j : VopJob) (x : VSrc) (k : Nat) : VOut :=
  (List.range 8).foldl (fun (r : VOut) l =>
    let a := x.lane (j.i0.row k) l
    ((List.range 64).zip a.o).foldl (fun (r : VOut) q =>
      match a.s, q.2 with
      | .val s, .val o =>
        let y := after (rd32 [decodeF fp32 s.toNat] (rcpV (decodeF fp32 s.toNat))) (fun c => rd32 [decodeF fp32 o.toNat, c] (mul32 (decodeF fp32 o.toNat) c))
        (r.note y.2).put j.o k (64 * l + q.1) (some (j.convF y.1))
      | _, _ => r.put j.o k (64 * l + q.1) none) r) {}

/-- What position `i` of row `k` does. -/
def VopJob.position (j : VopJob) (x : VSrc) (k i : Nat) (acc : List PV) : VOut :=
  if reduces j.fn then j.reduceAt x k i acc
  else
    match j.fn with
    | 0x3C => (j.elems i).foldl (fun r e => j.mxDecode x k e r) {}
    | 0x3D => ((List.range 2).filter (fun n => decide (32 * (2 * i + n) < j.len))).foldl (fun r n => j.mxEncodeAt x k (2 * i + n) r) {}
    | 0x3E => j.smerge x k
    | 0x3F => j.smfin x k
    | _ => (j.elems i).foldl (fun r e => j.element x k e r) {}

/-! ### Running (R295, R298, R303-R305) -/

/-- A stream register before its first writer (R291). -/
def noWrites (_ : Nat) : List VWrite := []
def blankLanes : List PV := List.replicate 64 pv0

/-- What a reader at `slot` sees of a stream register: the newest writer at distance ≥ 3 (R261). -/
def Tile.vRead (x : Tile) (v slot : Nat) : List PV :=
  ((look noWrites x.vregs v).find? (fun w => decide (w.slot + 3 ≤ slot))).elim blankLanes (·.lanes)

/-- The lanes of a stream register after every write so far. -/
def Tile.vNow (x : Tile) (v : Nat) : List PV := ((look noWrites x.vregs v).head?).elim blankLanes (·.lanes)

/-- Some watch already stands on the cell. -/
def State.watched (s : State) (t cell : Nat) : Bool :=
  let x := s.tile t
  let on := fun (w : Option Watch) => match w with | some v => decide (v.cell = cell) | none => false
  (List.range 4).any (fun e => match (x.eng e).wait with | some ⟨.fe c _, _⟩ => decide (c = cell) | _ => false) ||
    (match x.vrun with | some r => on r.watch | none => false) || (match x.mrun with | some r => on r.watch | none => false)

/-- A wait of the VOP is granted: its cell is read, and emptied when the read consumes; the first one is an acquire. -/
def State.vopGrant (s : State) (t : Nat) (r : VRun) (cell : Nat) (consume : Bool) : State × VRun :=
  let d := s.spCell t cell
  let s := if consume then s.setFull t cell false else s
  let s := if r.acquired then s else s.acquire t
  (s, { r with got := r.got ++ [(cell, d)], granted := r.granted + 1, watch := none, acquired := true })

/-- Make the waits of a position; true when one is held by an empty cell, where a watch stands. A grant is the bank's last (R196). -/
def State.vopWait (t : Nat) : List (Nat × Bool) → State → VRun → State × VRun × Bool
  | [], s, r => (s, r, false)
  | (cell, con) :: l, s, r =>
    if s.isFull t cell && !s.watched t cell then
      let (s, r) := (s.bankUse t 1 [cell]).vopGrant t r cell con
      State.vopWait t l s r
    else (s, { r with watch := some ⟨cell, con⟩ }, true)

/-- One position: inputs are read, then the output is written. -/
def State.vopPos (s : State) (t : Nat) (r : VRun) : State × VRun :=
  let j := r.job
  let x := s.tile t
  let k := r.pos / j.perRow
  let b := r.got.foldl (fun (b : Bytes) (g : Nat × Cell64) => b.writeCell g.1 (.whole g.2)) x.spad
  let o := j.position ⟨b, fun v => x.vRead v j.slot, j.imm⟩ k (r.pos % j.perRow) r.acc
  let s := s.bankUse t 1 (j.cellsAt k (r.pos % j.perRow))
  let s := (s.spPatch t j.fill o.patch).spPatch t j.fill o.scales
  let s := s.bankUse t 1 ((o.patch.cells ++ o.scales.cells).map (·.1))
  let s := s.flags (tileB t) VXE_STATUS_INVALID VXE_STATUS_OVERFLOW VXE_STATUS_POISON o.inv o.ovf o.pois
  let s := s.emitN o.sats t 0x0342 [j.loc.off]
  let s := s.countT t VXE_POSITIONS_COUNT 1
  let s := if reduces j.fn ∧ (r.pos + 1) % j.perRow = 0 then s.countT t VXE_TREES_COUNT 1 else s
  (s, { r with pos := r.pos + 1, granted := 0, got := [], acc := o.acc, lanes := r.lanes ++ o.lanes, pois := r.pois || o.pois })

/-- Run positions until the operation ends or waits. -/
def State.vopRun (t : Nat) : Nat → State → VRun → State × VRun
  | 0, s, r => (s, r)
  | n + 1, s, r =>
    if r.job.total ≤ r.pos then (s, r)
    else
      match s.vopWait t ((r.job.waitsAt (r.pos / r.job.perRow) (r.pos % r.job.perRow)).drop r.granted) r with
      | (s, r, true) => (s, r)
      | (s, r, false) =>
        let (s, r) := s.vopPos t r
        State.vopRun t n s r

/-- The end of a VOP: its stream register is written, and consumed poison is reported. -/
def State.vopEnd (s : State) (t : Nat) (r : VRun) : State :=
  let j := r.job
  let s := s.modTile t (fun x =>
    let lanes := r.lanes.foldl (fun (l : List PV) (q : Nat × PV) => l.set q.1 q.2) (x.vNow j.o.vreg)
    { x with vrun := none, vregs := if j.o.kind = 2 then put noWrites x.vregs j.o.vreg ((⟨j.slot, lanes⟩ :: look noWrites x.vregs j.o.vreg).take 4) else x.vregs })
  let s := if r.pois then s.emit t 0x0341 [j.fn, j.loc.off] else s
  s.faultSettle t

/-- Run the VOP that has started, unless it waits. -/
def State.vopGo (s : State) (t : Nat) : State :=
  match (s.tile t).vrun with
  | none => s
  | some r =>
    if r.watch.isSome then s
    else
      let (s, r) := s.vopRun t (r.job.total + 1) r
      if r.job.total ≤ r.pos then s.vopEnd t r else s.modTile t (fun x => { x with vrun := some r })

/-- VOP_START (R298): the oldest queued VOP starts once the one before it has ended. -/
def vopStart (t : Nat) (s : State) : State :=
  let x := s.tile t
  match x.vops, x.vrun with
  | j :: l, none =>
    if !s.tileUp t then s
    else
      let r : VRun := { job := j, pos := 0, granted := 0, got := [], acc := List.replicate 64 (identityOf j.fn), lanes := [], watch := none,
                        acquired := false, pois := false }
      (s.setTile t { x with vops := l, vrun := some r }).vopGo t
  | _, _ => s

end Sys2Proof.Machine
end

