-- ==== Sys2Proof/Machine/Mve.lean ====
section
/-! DEFINITION. The tensor movement engine: descriptors, moves in chunks over the four spaces, the read cache and the prefetcher (R204-R209, R309-R338). -/

namespace Sys2Proof.Machine

/-! ### Tensor descriptors (R309-R312) -/

/-- The descriptor that 128 B, as a number, hold (Table 11-1). -/
def tensorOf (v : Nat) : Tensor :=
  let at8 := fun b w => bitsOf v (8 * b) w
  { space := at8 0 2, ty := bitsOf v 2 5, c32 := bit v 7, tile := bitsOf v 8 9, base := at8 8 64, len := at8 16 41, org := at8 24 41
    sbase := at8 32 64, fill := at8 40 64
    dims := (List.range 5).map (fun d =>
      { ext := at8 (48 + 16 * d) 32, cnt := at8 (52 + 16 * d) 32, lo := signed 32 (at8 (56 + 16 * d) 32), stride := signed 32 (at8 (60 + 16 * d) 32) }) }

def blankDim : TDim := ⟨1, 1, 0, 0⟩
def Tensor.dim (x : Tensor) (d : Nat) : TDim := x.dims.getD d blankDim
def Tensor.size (x : Tensor) : Nat := elemBits x.ty

/-- Reserved fields, values and type codes (reason 1). -/
def tensorClear (v : Nat) (x : Tensor) : Bool :=
  decide (bitsOf v 17 47 = 0 ∧ bitsOf v (8 * 16 + 41) 23 = 0 ∧ bitsOf v (8 * 24 + 41) 23 = 0) && listedType x.ty && decide (x.ty ≠ 0x18) &&
    x.dims.all (fun d => decide (d.ext ≠ 0 ∧ d.cnt ≠ 0))

/-- A range of device memory lies in one window and holds no unmapped DPA (R75). -/
def State.mappedRange (s : State) (base len : Nat) : Bool :=
  if 2 ^ 40 ≤ base then decide (base + len ≤ 2 ^ 40 + 12 * 2 ^ 36) else decide (base + len ≤ 0xC000000000) && s.windowOpen

/-- A range lies in the space of a tensor. -/
def State.inSpace (s : State) (x : Tensor) (base len : Nat) : Bool :=
  match x.space with
  | 2 => s.mappedRange base len
  | 3 => decide (base + len ≤ 2 ^ 64)
  | _ => decide (base + len ≤ 2 ^ 22)

/-- The lowest and highest element offset of a tensor from its origin (R312). -/
def Tensor.span (x : Tensor) : Int × Int :=
  let terms : List Int := (List.range 5).flatMap (fun d =>
    let e := x.dim d
    if d = 0 ∧ x.c32 then [((min 31 (e.ext - 1) : Nat) : Int), (((e.ext - 1) / 32 : Nat) : Int) * e.stride]
    else [((e.ext - 1 : Nat) : Int) * e.stride])
  terms.foldl (fun (a : Int × Int) t => (a.1 + min 0 t, a.2 + max 0 t)) (0, 0)

/-- validate() of R312. -/
def Tensor.validate (x : Tensor) (off : Int) : Bool :=
  let (lo, hi) := x.span
  let o := ((x.base : Int) + x.org + off) * 8
  decide ((x.base : Int) * 8 ≤ o + lo * x.size ∧ o + (hi + 1) * x.size - 1 < ((x.base : Int) + x.len) * 8)

/-- R311 for an offset. -/
def Tensor.mxOk (x : Tensor) (off : Int) : Bool :=
  let k : Int := mxBlock x.ty
  x.c32 && decide ((x.org : Int) % k = 0 ∧ off % k = 0 ∧ (x.len : Int) % k = 0 ∧ (x.dim 0).ext % 32 = 0 ∧ (x.dim 0).lo % 32 = 0 ∧ (x.dim 0).cnt % 32 = 0) &&
    x.dims.all (fun d => decide (d.stride % 32 = 0))

/-- Every scale byte of the tensor lies in its scale range (reason 5). -/
def Tensor.scalesIn (x : Tensor) (off : Int) : Bool :=
  let terms : List Int := (List.range 5).map (fun d =>
    let e := x.dim d
    if d = 0 then (((e.ext - 1) / 32 : Nat) : Int) * e.stride else ((e.ext - 1 : Nat) : Int) * e.stride)
  let (lo, hi) := terms.foldl (fun (a : Int × Int) t => (a.1 + min 0 t, a.2 + max 0 t)) (0, 0)
  let o := ((x.org : Int) + off) / mxBlock x.ty
  decide (0 ≤ o + lo / 32 ∧ o + hi / 32 < ((x.len / mxBlock x.ty : Nat) : Int))

/-- The first failing check of Table 11-2 in number order; 0 when all pass. -/
def State.dsetReason (s : State) (t v : Nat) : Nat :=
  let x := tensorOf v
  if !tensorClear v x then 1
  else if x.space = 1 ∧ (!s.enabled x.tile ∨ x.tile = t) then 2
  else if x.base % 64 ≠ 0 ∨ x.len % 64 ≠ 0 ∨ x.len = 0 ∨ !s.inSpace x x.base x.len then 3
  else if !x.validate 0 then 4
  else if isMx x.ty ∧ (!x.mxOk 0 ∨ !x.scalesIn 0 ∨ !s.inSpace x x.sbase (x.len / mxBlock x.ty)) then 5
  else 0

def noTensor (_ : Nat) : Option Tensor := none

/-- DSET (R312, R313): a failed check, or poison, leaves the entry invalid and records the reason. -/
def execDset (t : TileId) (w : OpWord) (s : State) : Res :=
  .next (s.issueOp t.toNat 2 w (opIs 0x32) (fun op _ => onlyBits op [(0, 8), (8, 4), (12, 5), (32, 32)])
    (fun c s =>
      let a := addA (s.areg c (bitsOf c.op 8 4)) c.imm32
      let e := bitsOf c.op 12 5
      if a % 64 ≠ 0 ∨ 0x3FFF80 < a then .fault 26
      else if s.mayWrite c.t 2 a 128 then .hold
      else
        let (v, reason) :=
          match (s.spCell c.t (a / 64)).clean, (s.spCell c.t (a / 64 + 1)).clean with
          | some lo, some hi => (lo + hi * 2 ^ 512, s.dsetReason c.t (lo + hi * 2 ^ 512))
          | _, _ => (0, 6)
        let s := s.modTile c.t (fun x => { x with tensors := put noTensor x.tensors e (if reason = 0 then some (tensorOf v) else none) })
        let b := tileB c.t
        let s := s.bankUse c.t 2 [a / 64, a / 64 + 1]
        .done (if reason = 0 then s else ((s.wr b MVE_DSTAT_ENTRY e).wr b MVE_DSTAT_REASON reason).raise b MVE_DSTAT_VALID)))

/-! ### Checks of a MOVE (R315, R316, R321, R325, R326) -/

/-- The move that a MOVE's words name, with its two entries. -/
def moveJob (c : OpCtx) (s : State) (src dst : Tensor) : MoveJob :=
  let off := fun lo => if bit c.op 39 then signed 41 (s.areg c (bitsOf c.op lo 4)) else 0
  { src := src, dst := dst, de := bitsOf c.op 13 5, perm := (List.range 5).map (fun i => bitsOf c.ext (3 * i) 3), gs := bitsOf c.op 30 2
    gdim := bitsOf c.op 32 3, aix := s.areg c (bitsOf c.op 26 4), sync := bitsOf c.op 35 2, fill := bit c.op 37, rel := bit c.op 38
    soff := off 18, doff := off 22, loc := c.loc }

/-- R326 for a 4-bit destination. -/
def MoveJob.packedOk (j : MoveJob) : Bool :=
  let d := j.dst
  let z := d.dim 0
  decide (d.size ≠ 4) ||
    ((decide (z.stride = 1) || (d.c32 && decide (z.stride % 2 = 0))) && decide (z.ext % 2 = 0 ∧ z.lo % 2 = 0 ∧ z.cnt % 2 = 0) &&
      !(decide (j.gs = 2 ∧ j.gdim = 0)) && (d.dims.drop 1).all (fun e => decide (e.stride % 2 = 0)))

/-- The rules of R316. -/
def MoveJob.shapeOk (j : MoveJob) : Bool :=
  decide (j.src.ty = j.dst.ty) && (List.range 5).all (fun d => j.perm.contains d) &&
    (List.range 5).all (fun i => decide ((j.dst.dim i).cnt = (j.src.dim (j.perm.getD i 0)).cnt)) &&
    (!isMx j.src.ty || (decide (j.perm.getD 0 0 = 0) && (decide (j.gs = 0) || decide (j.gdim ≠ 0)) && j.src.mxOk j.soff && j.dst.mxOk j.doff)) &&
    j.packedOk && (decide (j.gs = 0) || decide (j.gdim ≤ 4)) && (decide (j.sync = 0) || decide (j.src.space = 0)) && (!j.fill || decide (j.dst.space < 2))

/-- Entries of the index tensor. -/
def MoveJob.indexCount (j : MoveJob) : Nat := if j.gs = 1 then (j.src.dim j.gdim).cnt else (j.dst.dim j.gdim).cnt

/-- An offset keeps a tensor in its range (R315). -/
def Tensor.offsetOk (x : Tensor) (off : Int) : Bool :=
  decide (off % (max 1 (x.size / 8) : Nat) = 0) && x.validate off && (!isMx x.ty || x.scalesIn off)

/-- R315 and R321. -/
def MoveJob.rangeOk (j : MoveJob) : Bool :=
  j.src.offsetOk j.soff && j.dst.offsetOk j.doff &&
    (decide (j.gs = 0) || decide (j.aix % 4 = 0 ∧ j.aix + 4 * j.indexCount ≤ 2 ^ 22))

/-- Overlapping allocation ranges (R325). -/
def MoveJob.overlaps (j : MoveJob) : Bool :=
  decide (j.src.space = j.dst.space) && (decide (j.src.space ≠ 1) || decide (j.src.tile = j.dst.tile)) &&
    (decide (j.src.space ≠ 2) || decide (j.src.base / 2 ^ 40 = j.dst.base / 2 ^ 40)) && meets j.src.base j.src.len j.dst.base j.dst.len

/-- MOVE (R314-R316): held while 4 wait (R318). -/
def execMove (t : TileId) (w : OpWord) (s : State) : Res :=
  .next (s.issueOp t.toNat 2 w (opIs 0x31)
    (fun op ext => onlyBits op [(0, 40)] && decide (ext < 2 ^ 15 ∧ bitsOf op 30 2 ≠ 3 ∧ bitsOf op 35 2 ≠ 3))
    (fun c s =>
      let x := s.tile c.t
      match look noTensor x.tensors (bitsOf c.op 8 5), look noTensor x.tensors (bitsOf c.op 13 5) with
      | some src, some dst =>
        let j := moveJob c s src dst
        if !j.shapeOk then .fault 23
        else if !j.rangeOk then .fault 24
        else if j.overlaps then .fault 25
        else if 4 ≤ x.moves.length then .hold
        else .done (s.modTile c.t (fun x => { x with moves := x.moves ++ [j] }))
      | _, _ => .fault 22))

/-! ### The traversal (R310, R317, R319-R324, R327) -/

/-- Where a point's element or scale comes from. -/
inductive From where
  | fill             -- out of bounds (R319)
  | pois             -- selected by a poisoned index (R322)
  | at (bits : Nat)
  deriving DecidableEq, Repr

/-- A point of the traversal: bit addresses of its element, whether its index entry was poisoned, and for the first element of an MX block the scale's source and destination. -/
structure Point where
  src    : From
  dst    : Option Nat
  badIdx : Bool
  scale  : Option (From × Option Nat)
  deriving DecidableEq, Repr

/-- Element offset of an index from the origin (R310). -/
def Tensor.elemAt (x : Tensor) (idx : List Int) : Int :=
  (List.range 5).foldl (fun (a : Int) d =>
    let i := idx.getD d 0
    a + (if d = 0 ∧ x.c32 then i % 32 + i / 32 * (x.dim 0).stride else i * (x.dim d).stride)) 0

/-- Bits of a byte address: 41 in device memory and scratchpad, 64 in host memory (R310). -/
def Tensor.addrBits (x : Tensor) : Nat := if x.space = 3 then 64 else 41

/-- Bit address of an in-bounds element (R310). -/
def Tensor.bitAt (x : Tensor) (off : Int) (idx : List Int) : Nat :=
  wrapTo (x.addrBits + 3) (((x.base : Int) + x.org + off) * 8 + x.elemAt idx * x.size)

/-- Bit address of the scale of the block that starts at an index (R311). -/
def Tensor.scaleAt (x : Tensor) (off : Int) (idx : List Int) : Nat :=
  8 * wrapTo x.addrBits ((x.sbase : Int) + ((x.org : Int) + off) / mxBlock x.ty + x.elemAt idx / 32)

def Tensor.inBounds (x : Tensor) (idx : List Int) : Bool :=
  (List.range 5).all (fun d => decide (0 ≤ idx.getD d 0 ∧ idx.getD d 0 < (x.dim d).ext))

/-- Points of the traversal. -/
def MoveJob.total (j : MoveJob) : Nat := (List.range 5).foldl (fun n d => n * (j.dst.dim d).cnt) 1
/-- Points of a full chunk (R330). -/
def MoveJob.chunkSize (j : MoveJob) : Nat := 32768 / j.src.size
def MoveJob.chunks (j : MoveJob) : Nat := (j.total + j.chunkSize - 1) / j.chunkSize

/-- Window position of point `p`: i[0] varies fastest. -/
def MoveJob.pos (j : MoveJob) (p : Nat) : List Nat :=
  ((List.range 5).foldl (fun (a : List Nat × Nat) d => (a.1 ++ [a.2 % (j.dst.dim d).cnt], a.2 / (j.dst.dim d).cnt)) ([], p)).1

/-- The index entry that a window position uses: its place in the index tensor. -/
def MoveJob.indexAt (j : MoveJob) (i : List Nat) : Option Nat :=
  match j.gs with
  | 1 => some (i.getD (j.perm.findIdx (fun d => decide (d = j.gdim))) 0)
  | 2 => some (i.getD j.gdim 0)
  | _ => none

/-- Point `p` of the traversal; the index tensor is read from the tile's scratchpad `b`. -/
def MoveJob.point (j : MoveJob) (b : Bytes) (p : Nat) : Point :=
  let i := j.pos p
  let ix : Option (Option Int) := (j.indexAt i).map (fun k => (b.elem (8 * (j.aix + 4 * k)) 32).map (signed 32))
  let si := (List.range 5).map (fun d => (j.src.dim d).lo + i.getD (j.perm.findIdx (fun q => decide (q = d))) 0)
  let ti := (List.range 5).map (fun d => (j.dst.dim d).lo + i.getD d 0)
  let bad := ix = some none
  let k := (ix.getD (some 0)).getD 0
  let si := if j.gs = 1 then si.set j.gdim k else si
  let ti := if j.gs = 2 then ti.set j.gdim k else ti
  let fromAt := fun (a : Nat) => if j.gs = 1 ∧ bad then From.pois else if j.src.inBounds si then From.at a else From.fill
  let into := fun (a : Nat) => if (j.gs = 2 ∧ bad) ∨ !j.dst.inBounds ti then none else some a
  { src := fromAt (j.src.bitAt j.soff si), dst := into (j.dst.bitAt j.doff ti), badIdx := bad
    scale := if isMx j.src.ty ∧ i.getD 0 0 % 32 = 0 then some (fromAt (j.src.scaleAt j.soff si), into (j.dst.scaleAt j.doff ti)) else none }

/-- The points of chunk `k`. -/
def MoveJob.points (j : MoveJob) (b : Bytes) (k : Nat) : List Point :=
  (List.range (min j.chunkSize (j.total - k * j.chunkSize))).map (fun n => j.point b (k * j.chunkSize + n))

/-- Cells of `size` bits at a bit address. -/
def cellsAt (a size : Nat) : List Nat := (List.range ((a + size - 1) / 512 + 1 - a / 512)).map (· + a / 512)

/-- Source cells that a point reads, scale first. -/
def Point.cells (p : Point) (size : Nat) : List Nat :=
  (match p.scale with | some (.at a, _) => [a / 512] | _ => []) ++ (match p.src with | .at a => cellsAt a size | _ => [])

/-- The distinct source and scale cells of a chunk, in the order in which the traversal reads them (R330). -/
def MoveJob.need (j : MoveJob) (l : List Point) : List Nat := (l.flatMap (fun p => p.cells j.src.size)).eraseDups

/-- The distinct index cells of chunk `k`. -/
def MoveJob.indexCells (j : MoveJob) (k : Nat) : List Nat :=
  ((List.range (min j.chunkSize (j.total - k * j.chunkSize))).filterMap (fun n =>
    (j.indexAt (j.pos (k * j.chunkSize + n))).map (fun i => (j.aix + 4 * i) / 64))).eraseDups

/-- A later chunk reads the cell, so that its read does not consume yet (R328). -/
def MoveJob.readLater (j : MoveJob) (b : Bytes) (k cell : Nat) : Bool :=
  (List.range (j.chunks - (k + 1))).any (fun d => (j.points b (k + 1 + d)).any (fun p => (p.cells j.src.size).contains cell))

/-- Some element that is read and written lies at different places in its cells (R330). -/
def misaligned (l : List Point) : Bool :=
  l.any (fun p => match p.src, p.dst with | .at a, some b => decide (a % 512 ≠ b % 512) | _, _ => false)

/-! ### Read cache and prefetch buffer (R204-R209) -/

/-- The tile's cached copy of a line. -/
def Tile.cached (x : Tile) (line : Nat) : Option Cell64 := (x.rc.find? (fun (p : Nat × Cell64) => decide (p.1 = line))).map (·.2)

/-- Put a line into the cache; a full set gives up the way that `victim` names. -/
def Tile.allocate (x : Tile) (line victim : Nat) (d : Cell64) : Tile :=
  let set := fun (n : Nat) => Config.cacheSet n % 256
  let rc := x.rc.filter (fun (p : Nat × Cell64) => decide (p.1 ≠ line))
  let same := rc.filter (fun (p : Nat × Cell64) => decide (set p.1 = set line))
  let rc := if same.length < 8 then rc else rc.filter (fun (p : Nat × Cell64) => decide (some p.1 ≠ (same[victim % 8]?).map (·.1)))
  { x with rc := (line, d) :: rc }

def State.allocate (s : State) (t line : Nat) (d : Cell64) : State :=
  let (n, s) := s.fresh
  s.modTile t (fun x => x.allocate line (Config.cacheVictim n) d)

/-- A masked write of a copy of a cell. -/
def Cell64.update (c : Cell64) (w : WriteData) : Cell64 := (((⟨[], []⟩ : Bytes).writeCell 0 (.whole c)).writeCell 0 w).cell 0


/-- The prefetched line names this place. -/
def PfLine.isAt (p : PfLine) (space tile addr : Nat) : Bool := decide (p.space = space ∧ p.tile = tile ∧ p.addr = addr)

/-- A demand read takes its line out of the prefetch buffer when it has landed there (R208, R224). -/
def State.takeLanded (s : State) (t space tile addr : Nat) : Option Cell64 × State :=
  let x := s.tile t
  match x.pf.find? (fun p => p.isAt space tile addr) with
  | some p =>
    let s := s.setTile t { x with pf := x.pf.filter (fun q => !q.isAt space tile addr) }
    (some ⟨p.data.1, p.data.2⟩, s.countT t pfmUseful 1)
  | none => (none, s)

/-- A demand read waits for the prefetch that its CC has taken: the data are its own (R208). -/
def State.promote (s : State) (t key : Nat) : State :=
  let k := s.cc (keyChan key)
  s.setCc (keyChan key) { k with
    pool := k.pool.map (fun r => if r.key = key ∧ r.ans = .card (.prefetch t) then { r with ans := .card (.move t) } else r),
    landed := k.landed.filterMap (fun x => if x.1 = .prefetch t ∧ x.2.1 = key then x.2.2.map (fun d => (.move t, key, some d)) else some x) }

/-- A demand read looks for its line among the prefetched ones: a buffered line is taken, one in flight is waited for (R208, R224). -/
def State.takePrefetch (s : State) (t space tile addr : Nat) : Option Cell64 × Bool × State :=
  match s.takeLanded t space tile addr with
  | (some d, s) => (some d, false, s)
  | (none, s) =>
    let x := s.tile t
    if x.pfFlight.any (fun p => p.isAt space tile addr && !p.stale) then
      let first := match x.pfFlight.find? (fun p => decide (p.space ≠ 3)) with | some p => p.isAt space tile addr && !p.stale | none => false
      let s := s.setTile t { x with pfFlight := x.pfFlight.filter (fun q => !q.isAt space tile addr) }
      let s := if first && decide (space = 2) then s.promote t addr else s
      (none, true, s.countT t pfmLate 1)
    else (none, false, s)

/-- A write by the tile's MVE discards a prefetched copy of the line (R208). -/
def State.dropPrefetch (s : State) (t space tile addr : Nat) : State :=
  let x := s.tile t
  let n := (x.pf.filter (fun p => p.isAt space tile addr)).length
  let s := s.setTile t { x with pf := x.pf.filter (fun q => !q.isAt space tile addr),
                                pfFlight := x.pfFlight.map (fun q => if q.isAt space tile addr then { q with stale := true } else q) }
  if n = 0 then s else s.countT t pfmUnused n

/-! ### Reads and writes by space (R332-R335) -/

/-- A read error (R334): causes 1 unmapped DPA, 2 NoC, 3 host. -/
def State.readError (s : State) (t cause addr off : Nat) : State :=
  let b := tileB t
  ((s.raise b MVE_STATUS_RDERR).countT t MVE_ERR_CELLS_COUNT 1).emit t 0x0401 [cause, addr, off]

/-- A dropped write (R334). -/
def State.writeError (s : State) (t cause addr off : Nat) : State :=
  let b := tileB t
  ((s.raise b MVE_STATUS_WRERR).countT t MVE_ERR_CELLS_COUNT 1).emit t 0x0402 [cause, addr, off]

/-- A demand read ends with its data, which the cache keeps when it may (R204, R206). -/
def deviceData (t key : Nat) (on : Bool) (r : Option (Option Cell64) × State) : Option GotCell × State :=
  match r with
  | (some d, s) => (some (.data (d.getD .bad)), if on && (s.tile t).rcKeep then s.allocate t (key / 64) (d.getD .bad) else s)
  | (none, s) => (none, s)

/-- A demand read of device memory through the read cache (R204, R205, R332): none while it waits for its CC. Retired storage is never read from a copy (R412). -/
def State.deviceRead (s : State) (t addr off : Nat) : Option GotCell × State :=
  match s.resolve ⟨.tile, t⟩ addr with
  | (none, s) => (some (.err 1), s.readError t 1 addr off)
  | (some k, s) =>
    let key := k / 64 * 64
    let fresh := s.sharedKey key || s.retired (keyChan key)
    let on := s.flag (tileB t) TILE_RC_CTRL_ENABLE && !fresh
    if (s.cc (keyChan key)).reading (.move t) key then deviceData t key on (s.portRead (.move t) ⟨.tile, t⟩ key)
    else
      match (if on then (s.tile t).cached (key / 64) else none) with
      | some d =>
        let s := s.modTile t (fun x => { x with rc := (key / 64, d) :: x.rc.filter (fun (p : Nat × Cell64) => decide (p.1 ≠ key / 64)) })
        (some (.data d), s.countT t TILE_RC_HITS_COUNT 1)
      | none =>
        match (if fresh then (none, s) else s.takeLanded t 2 0 key) with
        | (some d, s) => (some (.data d), if on then s.allocate t (key / 64) d else s)
        | (none, s) =>
          if !s.retired (keyChan key) && !s.mayTake ⟨.tile, t⟩ key then (none, s)
          else
            let (_, late, s) := if fresh then (none, false, s) else s.takePrefetch t 2 0 key
            let s := if late then s else s.countT t TILE_RC_MISSES_COUNT 1
            let s := s.modTile t (fun x => { x with rcKeep := true })
            deviceData t key on (s.portRead (.move t) ⟨.tile, t⟩ key)

/-- A plain read of one source cell, none while it is held; host cells are read by requests. -/
def State.sourceRead (s : State) (t : Nat) (j : MoveJob) (cell : Nat) : Option GotCell × State :=
  match j.src.space with
  | 0 => (some (.data (s.spCell t (cell % 65536))), s.bankUse t 2 [cell])
  | 1 =>
    match s.takeLanded t 1 j.src.tile (64 * cell) with
    | (some d, s) => (some (.data d), s)
    | (none, s) =>
      if s.nocHeld (tileDie t) j.src.tile then (none, s)
      else
        let (_, _, s) := s.takePrefetch t 1 j.src.tile (64 * cell)
        match s.nocAccess t 2 j.src.tile 4 false with
        | (true, s) => (some (.data (s.spCell j.src.tile (cell % 65536))), s)
        | (false, s) => (some (.err 2), s.readError t 2 (64 * cell) j.loc.off)
  | _ => s.deviceRead t (64 * cell) j.loc.off

/-- A write of one destination cell (R332-R334): false while it is held: by the seam link (R18), by a bias change (R373), for the host's answer (R371), or by its CC (R77). -/
def State.destWrite (s : State) (t : Nat) (j : MoveJob) (cell : Nat) (w : WriteData) : Bool × State :=
  match j.dst.space with
  | 0 => (true, (if j.fill then s.spFill t (cell % 65536) t w else s.spWrite t (cell % 65536) w).bankUse t 2 [cell])
  | 1 =>
    if s.nocHeld (tileDie t) j.dst.tile then (false, s)
    else
      let s := s.dropPrefetch t 1 j.dst.tile (64 * cell)
      match s.nocAccess t 2 j.dst.tile 4 true with
      | (true, s) => (true, s.spFill j.dst.tile (cell % 65536) t w)
      | (false, s) => (true, s.writeError t 2 (64 * cell) j.loc.off)
  | 2 =>
    match s.resolve ⟨.tile, t⟩ (64 * cell) with
    | (none, s) => (true, s.writeError t 1 (64 * cell) j.loc.off)
    | (some k, s) =>
      let key := k / 64 * 64
      if s.biasHeld key then (false, s)
      else if s.needsSnoop key [] then
        if s.canSnoop then (false, s.askSnoop (key / 64) true [.move t]) else (true, s.writeError t 3 (64 * cell) j.loc.off)
      else
        match s.portWrite ⟨.tile, t⟩ key w with
        | (false, s) => (false, s)
        | (true, s) =>
          let s := s.modTile t (fun x => { x with rc := x.rc.map (fun (p : Nat × Cell64) => if p.1 = key / 64 then (p.1, p.2.update w) else p) })
          (true, s.dropPrefetch t 2 0 key)
  | _ =>
    if s.seamHeld (tileDie t) 0 then (false, s)
    else
    let s := s.dropPrefetch t 3 0 (64 * cell)
    (true, if s.hostLive (s.tileOwner t) then s.hostPut (s.tileOwner t) (64 * cell) w else s.writeError t 3 (64 * cell) j.loc.off)

/-! ### Waits, host requests and snoops of a chunk -/

/-- A wait of the move is granted: its cell is read, and emptied when the read consumes; the first one is an acquire. -/
def State.mveGrant (s : State) (t : Nat) (r : MRun) (cell : Nat) (consume : Bool) : State × MRun :=
  let d := s.spCell t cell
  let s := if consume then s.setFull t cell false else s
  let s := if r.acquired then s else s.acquire t
  (s, { r with got := r.got ++ [(cell, .data d)], granted := r.granted + 1, watch := none, acquired := true })

/-- Make the waits of a chunk in order; true when one is held. -/
def State.mveWait (t : Nat) : List (Nat × Bool) → State → MRun → State × MRun × Bool
  | [], s, r => (s, r, false)
  | (cell, con) :: l, s, r =>
    if s.isFull t cell && !s.watched t cell then
      let (s, r) := s.mveGrant t r cell con
      State.mveWait t l (s.bankUse t 2 [cell]) r
    else (s, { r with watch := some ⟨cell, con⟩ }, true)

/-- Consecutive cells joined into runs: first cell and count. -/
def cellRuns : List Nat → List (Nat × Nat)
  | [] => []
  | c :: l =>
    match cellRuns l with
    | (d, n) :: r => if c + 1 = d then (c, n + 1) :: r else (c, 1) :: (d, n) :: r
    | [] => [(c, 1)]

/-- The reads that the MVE may add to its prefetches in flight: 2,048 stand at most (R29, R331). -/
def Tile.readRoom (x : Tile) : Nat := 2048 - x.pfFlight.length

/-- Send the host reads of the cells a chunk still needs; a prefetch in flight serves its cell (R330, R374). -/
def State.askCells (s : State) (t : Nat) (cells : List Nat) : State :=
  let mine := cells.filter (fun c => !(s.host.reads ++ s.host.waiting).any (fun r => decide (r.user = .prefetch t ∧ r.addr = 64 * c)))
  let reqs := (cellRuns mine).flatMap (fun r => splitReads s.host.mrrs (r.2 * 64) (64 * r.1) (64 * r.2))
  reqs.foldl (fun (a : State) r => a.askHost (.move t) (a.tileOwner t) r.1 r.2) s

/-- Lines of device cells that need the host's answer. -/
def State.snoopLines (s : State) (cells done : List Nat) : List Nat :=
  (cells.filterMap (fun c =>
    match s.decodeDpa (64 * c) with
    | .at k => if s.needsSnoop k done then some (k / 64) else none
    | _ => none)).eraseDups

/-- The CC has taken the move's read of the cell. -/
def State.readingCell (s : State) (t c : Nat) : Bool :=
  match s.decodeDpa (64 * c) with
  | .at k => (s.cc (keyChan k)).reading (.move t) (k / 64 * 64)
  | _ => false

/-- A device cell lies in a region whose tile requests are held (R373). -/
def State.anyHeld (s : State) (cells : List Nat) : Bool :=
  cells.any (fun c =>
    match s.decodeDpa (64 * c) with
    | .at k => s.biasHeld k
    | _ => false)

/-- What a chunk's elements become: the bytes to write and what was met on the way. -/
structure Moved where
  patch : Patch := []
  fills : Nat := 0
  drops : Nat := 0
  idx   : Nat := 0         -- elements with a poisoned index entry
  pois  : Nat := 0         -- poisoned source elements written
  mxBad : Bool := false    -- the current block's scale is poisoned
  deriving DecidableEq, Repr

/-- Move one point: `b` holds the source cells (R317, R319, R320, R322, R327, R335). The bits of an element move unchanged, bits [7:6] of an MX FP6 byte with them (DESIGN CHOICE, log 68). -/
def MoveJob.movePoint (j : MoveJob) (b : Bytes) (m : Moved) (p : Point) : Moved :=
  let size := j.src.size
  let m :=
    match p.scale with
    | none => m
    | some (from_, into) =>
      let v : Option Nat := match from_ with
        | .fill => some (bitsOf j.src.fill 56 8)
        | .pois => none
        | .at a => b.elem a 8
      let m := { m with mxBad := v.isNone }
      match into with
      | some a => { m with patch := m.patch.elem a 8 v }
      | none => m
  let v : Option Nat := match p.src with
    | .fill => some (bitsOf j.src.fill 0 size)
    | .pois => none
    | .at a => if isMx j.src.ty && m.mxBad then none else b.elem a size
  let m := if p.src = .fill then { m with fills := m.fills + 1 } else m
  let m := if p.badIdx then { m with idx := m.idx + 1 } else m
  match p.dst with
  | none => { m with drops := m.drops + 1 }
  | some a =>
    let m := if v.isNone && decide (p.src ≠ .pois) then { m with pois := m.pois + 1 } else m
    { m with patch := m.patch.elem a size v }

def GotCell.cell : GotCell → Cell64
  | .data c => c
  | .err _ => .bad

/-- The traversal of a chunk as far as its index entries are known. -/
structure Walk where
  idx    : List (Nat × Cell64)    -- index cells, each read once, as the traversal reaches it (R321, R330)
  ib     : Bytes                  -- their bytes, with what earlier points of the chunk wrote
  points : List Point
  moved  : Moved
  gap    : Bool                   -- a source cell of an earlier point has not been received
  stop   : Bool                   -- the next index cell waits for the sources of earlier points
  deriving DecidableEq, Repr

/-- What a cell reads as after the writes of a patch (R197). -/
def Patch.over (p : Patch) (cell : Nat) (c : Cell64) : Cell64 :=
  match p.cells.find? (fun (w : Nat × WriteData) => decide (w.1 = cell)) with
  | some w => c.update w.2
  | none => c

/-- The index cell of a point, read once in the chunk as the traversal reaches it: with SYNC after the waits of the earlier points, and with what they wrote to it on top (R197, R321, R330, R331). -/
def MoveJob.reachIndex (j : MoveJob) (b : Bytes) (w : Walk) (p : Nat) : Walk :=
  match j.indexAt (j.pos p) with
  | none => w
  | some k =>
    let c := (j.aix + 4 * k) / 64
    let hit := decide (j.dst.space = 0) && w.moved.patch.any (fun (e : Nat × Option PByte) => decide (e.1 / 64 = c))
    match w.idx.find? (fun (g : Nat × Cell64) => decide (g.1 = c)) with
    | some g =>
      if hit && w.gap then { w with stop := true }
      else if hit then { w with ib := w.ib.writeCell c (.whole (w.moved.patch.over c g.2)) } else w
    | none =>
      if (hit || decide (j.sync ≠ 0)) && w.gap then { w with stop := true }
      else
        let d := b.cell c
        { w with idx := w.idx ++ [(c, d)], ib := w.ib.writeCell c (.whole (if hit then w.moved.patch.over c d else d)) }

/-- Take one point into a walk: `src` holds the source cells received, `got` names them. -/
def MoveJob.walkPoint (j : MoveJob) (b src : Bytes) (got : List Nat) (w : Walk) (p : Nat) : Walk :=
  let w := if w.stop then w else j.reachIndex b w p
  if w.stop then w
  else
    let q := j.point w.ib p
    { w with points := w.points ++ [q], moved := j.movePoint src w.moved q, gap := w.gap || (q.cells j.src.size).any (fun c => !got.contains c) }

/-- The walk of the run's chunk with the cells received so far; `b` is the tile's scratchpad. -/
def MoveJob.walk (j : MoveJob) (b : Bytes) (r : MRun) : Walk :=
  let src : Bytes := r.got.foldl (fun (b : Bytes) (g : Nat × GotCell) => b.writeCell g.1 (.whole g.2.cell)) ⟨[], []⟩
  let ib : Bytes := r.idx.foldl (fun (b : Bytes) (g : Nat × Cell64) => b.writeCell g.1 (.whole g.2)) ⟨[], []⟩
  (List.range (min j.chunkSize (j.total - r.chunk * j.chunkSize))).foldl
    (fun w n => j.walkPoint b src (r.got.map (·.1)) w (r.chunk * j.chunkSize + n)) ⟨r.idx, ib, [], {}, false, false⟩

/-- Source cells of the points that have not been received. -/
def MRun.left (r : MRun) (l : List Point) : List Nat := (r.job.need l).filter (fun c => !r.got.any (fun (g : Nat × GotCell) => decide (g.1 = c)))

/-- Read source cells in order until one is held; true when all are read. -/
def State.readCells (t : Nat) : List Nat → State → MRun → State × MRun × Bool
  | [], s, r => (s, r, true)
  | c :: l, s, r =>
    let j := r.job
    if j.src.space = 3 ∨ (j.src.space = 2 ∧ !s.readingCell t c ∧ s.snoopLines [c] r.snooped ≠ []) then
      State.readCells t l (s.readError t 3 (64 * c) j.loc.off) { r with got := r.got ++ [(c, .err 3)] }
    else
      match s.sourceRead t j c with
      | (some g, s) => State.readCells t l s { r with got := r.got ++ [(c, g)] }
      | (none, s) => (s.stall (.move t), r, false)

/-- Host lines that a prefetch has brought are taken from the buffer (R208). -/
def State.landedCells (t : Nat) : List Nat → State → MRun → State × MRun
  | [], s, r => (s, r)
  | c :: l, s, r =>
    match s.takeLanded t 3 0 (64 * c) with
    | (some d, s) => State.landedCells t l s { r with got := r.got ++ [(c, .data d)] }
    | (none, s) => State.landedCells t l s r

/-- Receive the source cells of the points `l`: true when all are there, false when the move waits. -/
def State.mveFetch (s : State) (t : Nat) (r : MRun) (l : List Point) : State × MRun × Bool :=
  let j := r.job
  let b := (s.tile t).spad
  let waits := if j.sync = 0 then [] else (r.left l).map (fun c => (c, decide (j.sync = 2) && !j.readLater b r.chunk c))
  match s.mveWait t waits r with
  | (s, r, true) => (s, r, false)
  | (s, r, false) =>
    let (s, r) := if j.src.space = 3 then State.landedCells t (r.left l) s r else (s, r)
    let left := r.left l
    if j.src.space = 3 ∧ left ≠ [] ∧ s.hostLive (s.tileOwner t) then
      let now := left.take (s.tile t).readRoom
      if now = [] ∨ s.seamHeld (tileDie t) 0 then (s.stall (.move t), r, false)
      else (s.askCells t now, { r with asked := true, wants := now }, false)
    else
      let ask := if j.src.space = 2 then left.filter (fun c => !s.readingCell t c) else []
      let lines := s.snoopLines ask r.snooped
      if s.anyHeld ask then (s.stall (.move t), r, false)
      else if lines ≠ [] ∧ s.canSnoop then (lines.foldl (fun (a : State) n => a.askSnoop n false [.move t]) s, r, false)
      else State.readCells t left s r

/-- Read until the walk of the chunk is complete: its points and elements, or none while the move waits. -/
def State.mveRead : Nat → State → Nat → MRun → State × MRun × Option Walk
  | 0, s, _, r => (s, r, none)
  | n + 1, s, t, r =>
    let w := r.job.walk (s.tile t).spad r
    let s := s.bankUse t 2 ((w.idx.drop r.idx.length).map (·.1))
    let r := { r with idx := w.idx }
    if r.left w.points = [] then (s, r, if w.stop then none else some w)
    else
      match s.mveFetch t r w.points with
      | (s, r, true) => State.mveRead n s t r
      | (s, r, false) => (s, r, none)

/-- Counters and events of a chunk whose cells have all been received. -/
def State.mveCount (s : State) (t : Nat) (r : MRun) (l : List Point) (m : Moved) (writes : Nat) : State :=
  let j := r.job
  let b := tileB t
  let s := s.countT t MVE_RD_CELLS_COUNT ((j.need l).length + r.idx.length)
  let s := s.countT t MVE_WR_CELLS_COUNT writes
  let s := if misaligned l then s.countT t MVE_MISALIGNED_COUNT 1 else s
  let s := s.countT t MVE_FILLS_COUNT m.fills
  let s := s.countT t MVE_DROPS_COUNT m.drops
  let s := if m.drops = 0 then s else s.raise b MVE_STATUS_OOBW
  let s := s.emitN m.drops t 0x0403 [j.de, j.loc.off]
  let s := if m.idx + m.pois = 0 then s else s.raise b MVE_STATUS_POISON
  (s.emitN m.idx t 0x0404 [2, j.loc.off]).emitN m.pois t 0x0404 [1, j.loc.off]

/-- Write destination cells in order until one is held; the rest. -/
def State.writeCells (t : Nat) (j : MoveJob) : List (Nat × WriteData) → State → State × List (Nat × WriteData)
  | [], s => (s, [])
  | c :: l, s =>
    match s.destWrite t j c.1 c.2 with
    | (true, s) => State.writeCells t j l s
    | (false, s) => (s.stall (.move t), c :: l)

/-- Make the writes of a chunk that remain: true when the chunk is complete. -/
def State.mveDrain (s : State) (t : Nat) (r : MRun) (l : List (Nat × WriteData)) : State × MRun × Bool :=
  let (s, rest) := State.writeCells t r.job l s
  (s, { r with outs := some rest }, rest.isEmpty)

/-- One chunk, as far as it gets: true when it is complete, false when it waits. -/
def State.mveChunk (s : State) (t : Nat) (r : MRun) : State × MRun × Bool :=
  match r.outs with
  | some l => s.mveDrain t r l
  | none =>
    match State.mveRead (r.job.chunkSize + 1) s t r with
    | (s, r, none) => (s, r, false)
    | (s, r, some w) =>
      let j := r.job
      let cells := w.moved.patch.cells
      let dest := cells.map (·.1)
      let lines := if j.dst.space = 2 then s.snoopLines dest [] else []
      if j.dst.space = 2 ∧ s.anyHeld dest then (s.stall (.move t), r, false)
      else if lines ≠ [] ∧ s.canSnoop then (lines.foldl (fun (a : State) n => a.askSnoop n true [.move t]) s, r, false)
      else (s.mveCount t r w.points w.moved cells.length).mveDrain t r cells

/-- A move at the start of its chunk `k`. -/
def MRun.at (r : MRun) (k : Nat) : MRun :=
  { r with chunk := k, granted := 0, got := [], idx := [], outs := none, asked := false, wants := [], snooped := [] }

/-- Run chunks until the move ends or waits. -/
def State.mveRun (t : Nat) : Nat → State → MRun → State × MRun
  | 0, s, r => (s, r)
  | n + 1, s, r =>
    if r.job.chunks ≤ r.chunk then (s, r)
    else
      match s.mveChunk t r with
      | (s, r, false) => (s, r)
      | (s, r, true) => State.mveRun t n s (r.at (r.chunk + 1))

/-- Run the move that has begun, unless it waits; its requests end an episode of the deadlock detector (R355). -/
def State.mveGo (s : State) (t : Nat) : State :=
  match (s.tile t).mrun with
  | none => s
  | some r =>
    if r.watch.isSome || !r.wants.isEmpty then s
    else
      let (s, r) := s.mveRun t (r.job.chunks + 1) r
      if r.job.chunks ≤ r.chunk then
        ((s.modTile t (fun x => { x with mrun := none, dldDone := false })).countT t MVE_MOVES_COUNT 1).faultSettle t
      else s.modTile t (fun x => { x with mrun := some r, dldDone := x.dldDone && r.watch.isSome })

/-- MOVE_BEGIN (R317, R318): the oldest queued move begins. -/
def moveBegin (t : Nat) (s : State) : State :=
  let x := s.tile t
  match x.moves, x.mrun with
  | j :: l, none =>
    if !s.tileUp t then s
    else
      let s := s.effects (tileB t) [TILE_PF_CTRL_ENABLE, TILE_PF_CTRL_DEPTH]
      let r : MRun := { job := j, chunk := 0, granted := 0, got := [], idx := [], outs := none, asked := false, wants := [], snooped := [], watch := none, acquired := false }
      (s.setTile t { x with moves := l, mrun := some r }).mveGo t
  | _, _ => s

/-- Host cells arrive for the move: data, or an error of cause 3 (R334, R375). -/
def State.mveDeliver (s : State) (t : Nat) (cells : List (Nat × GotCell)) : State :=
  match (s.tile t).mrun with
  | none => s
  | some r =>
    let new := cells.filter (fun (c : Nat × GotCell) => r.wants.contains c.1)
    let s := new.foldl (fun (a : State) (c : Nat × GotCell) => match c.2 with | .err k => a.readError t k (64 * c.1) r.job.loc.off | .data _ => a) s
    let r := { r with got := r.got ++ new, wants := r.wants.filter (fun w => !new.any (fun (c : Nat × GotCell) => decide (c.1 = w))) }
    (s.modTile t (fun x => { x with mrun := some r })).mveGo t

/-! ### The prefetcher (R207-R209) -/

/-- The lines that the executing move will read next in its traversal order: the first is the current demand line. -/
def Tile.ahead (x : Tile) : Option (MoveJob × List Nat) :=
  x.mrun.map (fun r => (r.job, r.left (r.job.points x.spad r.chunk ++ r.job.points x.spad (r.chunk + 1))))

/-- A demand read of the tile waits for a slot among its outstanding reads (R208). -/
def State.demandWaits (s : State) (t : Nat) : Bool :=
  let x := s.tile t
  s.host.waiting.any (fun r => decide (r.user = .move t)) || s.host.stalled.contains (.move t) ||
    (match x.mrun with | some r => decide (x.readRoom ≤ r.wants.length) | none => false)

/-- The conditions of R207 for a line of 64 B at byte address `a` ahead of the demand line `d`. -/
def State.mayPredict (s : State) (j : MoveJob) (d a : Nat) : Bool :=
  decide (a / 4096 = d / 4096 ∧ j.src.base ≤ a ∧ a + 64 ≤ j.src.base + j.src.len) &&
    (decide (j.src.space ≠ 2) || (match s.decodeDpa a with | .at k => !s.sharedKey k | _ => true))

/-- PREFETCH_ISSUE (R207): a prediction that fails a condition is counted as DROPPED, and so is a host line that cannot be asked for because the link is down or Bus Master Enable is 0 (DESIGN CHOICE, log 67). -/
def prefetchIssue (t line : Nat) (s : State) : State :=
  let x := s.tile t
  let b := tileB t
  match x.ahead with
  | some (j, d :: path) =>
    let a := 64 * line
    let depth := s.rd b TILE_PF_CTRL_DEPTH
    let addr := if j.src.space = 2 then (match s.decodeDpa a with | .at key => key / 64 * 64 | _ => 2 ^ 41 + a) else a
    let tile := if j.src.space = 1 then j.src.tile else 0
    let held := (x.pf ++ x.pfFlight).any (fun p => p.isAt j.src.space tile addr)
    if !s.tileUp t || !s.flag b TILE_PF_CTRL_ENABLE || decide (j.src.space = 0) || held then s
    else if !s.mayPredict j (64 * d) a then s.countT t pfmDropped 1
    else if j.src.space = 3 ∧ !s.hostLive (s.tileOwner t) then s.countT t pfmDropped 1
    else if !(path.take depth).contains line || decide (512 ≤ x.pf.length + x.pfFlight.length) || s.demandWaits t ||
        (decide (j.src.space = 2) && s.biasHeld addr) || (decide (j.src.space = 3) && s.seamHeld (tileDie t) 0) then s
    else
      let s := (s.modTile t (fun x => { x with pfFlight := x.pfFlight ++ [(⟨j.src.space, tile, addr, (none, none), false⟩ : PfLine)], dldDone := false })).countT t TILE_PFM_COUNT 1
      if j.src.space = 3 then s.askHost (.prefetch t) (s.tileOwner t) a 64 else s
  | _ => s

/-- What a prefetch of a remote scratchpad finds: none when the tile does not answer it. -/
def State.prefetchData (s : State) (t : Nat) (p : PfLine) : Option (Half × Half) :=
  if s.nocCause p.tile ≠ 0 ∨ s.crossPartition t p.tile then none else let c := s.spCell p.tile (p.addr / 64 % 65536); some (c.lo, c.hi)

/-- A prefetched line comes back: it enters the buffer, or is discarded and counted as UNUSED. -/
def State.landPrefetch (s : State) (t : Nat) (p : PfLine) (d : Option (Half × Half)) : State :=
  match d with
  | some v =>
    if p.stale then s.countT t pfmUnused 1
    else s.modTile t (fun x => { x with pf := x.pf ++ [({ p with data := v } : PfLine)] })
  | none => s.countT t pfmUnused 1

/-- A prefetch of device memory that no CC serves: unmapped, refused or retired (R208). -/
def State.prefetchLost (s : State) (t : Nat) (p : PfLine) : Bool :=
  decide (2 ^ 40 ≤ p.addr ∨ 384 ≤ keyChan p.addr) || s.dpaRefused t (2 ^ 40 + p.addr) || s.retired (keyChan p.addr)

/-- A prefetch reaches what it reads: none while the seam link holds it or its read waits at its CC, which takes it as any read (R18, R77, R78). -/
def State.prefetchReach (s : State) (t : Nat) (p : PfLine) : Option (Option (Half × Half)) × State :=
  if p.space = 2 then
    if s.prefetchLost t p then (some none, s)
    else
      match s.portRead (.prefetch t) ⟨.tile, t⟩ p.addr with
      | (some d, s) => (some (d.map (fun c => (c.lo, c.hi))), s)
      | (none, s) => (none, s)
  else if s.nocHeld (tileDie t) p.tile then (none, s) else (some (s.prefetchData t p), s)

/-- PREFETCH_ARRIVE (R208): the oldest prefetch of device memory or a remote scratchpad; host lines arrive by HOST_COMPLETION. -/
def prefetchArrive (t : Nat) (s : State) : State :=
  match (s.tile t).pfFlight.find? (fun p => decide (p.space ≠ 3)) with
  | none => s
  | some p =>
    match s.prefetchReach t p with
    | (none, s) => s
    | (some d, s) => (s.setTile t { s.tile t with pfFlight := (s.tile t).pfFlight.erase p }).landPrefetch t p d

/-- The host answers a prefetch: the move takes the line when it waits for it (R208). -/
def State.hostPrefetch (s : State) (t addr : Nat) (d : GotCell) : State :=
  let x := s.tile t
  let wanted := match x.mrun with | some r => r.wants.contains (addr / 64) | none => false
  match x.pfFlight.find? (fun p => p.isAt 3 0 addr) with
  | none => s
  | some p =>
    let s := s.setTile t { x with pfFlight := x.pfFlight.erase p }
    match d with
    | .data c =>
      if wanted && !p.stale then (s.countT t pfmLate 1).mveDeliver t [(addr / 64, .data c)]
      else
        let s := s.landPrefetch t p (some (c.lo, c.hi))
        if wanted then s.askHost (.move t) (s.tileOwner t) addr 64 else s
    | .err k =>
      let s := s.landPrefetch t p none
      if wanted then
        if s.hostLive (s.tileOwner t) then s.askHost (.move t) (s.tileOwner t) addr 64 else s.mveDeliver t [(addr / 64, .err k)]
      else s

end Sys2Proof.Machine
end

