-- ==== Sys2Proof/Machine/Rings.lean ====
section
/-! DEFINITION. Descriptor rings: doorbells, fetching, starting and completing descriptors, completion records and ring commands (R381-R401). -/

namespace Sys2Proof.Machine

/-! ### MSI-X (R397, R517) -/

/-- The MSI-X table and pending bits of a function that nothing has written: every entry masked (PRESUMED, log 21). -/
def msixInit (off : Nat) : Word := if off % 0x2000 < 0x410 ∧ off % 16 = 8 then 0x100000000 else 0
/-- Word at an offset of function `f`'s MSI-X block. -/
def State.msixWord (s : State) (f off : Nat) : Nat := (look msixInit s.host.msix (0x2000 * f + off)).toNat
def State.setMsix (s : State) (f off v : Nat) : State :=
  { s with host := { s.host with msix := put msixInit s.host.msix (0x2000 * f + off) (BitVec.ofNat 64 v) } }

/-- An entry is masked: by its own bit, or by the function's MSI-X Enable or Function Mask (PRESUMED, log 21). -/
def State.msixMasked (s : State) (f e : Nat) : Bool := !look noMark s.host.msixOn f || bit (s.msixWord f (16 * e + 8)) 32
/-- The pending bit of an entry: the word that holds it. -/
def pendOff (e : Nat) : Nat := 0x1000 + 8 * (e / 64)
def State.setPending (s : State) (f e : Nat) (v : Bool) : State :=
  s.setMsix f (pendOff e) (setBits (s.msixWord f (pendOff e)) (e % 64) 1 (if v then 1 else 0))

/-- The message of an entry: it is sent, or its pending bit is set while the entry is masked. -/
def State.msix (s : State) (f e : Nat) : State :=
  let ctl := s.msixWord f (16 * e + 8)
  if s.msixMasked f e then s.setPending f e true
  else s.send (.msix f e (s.msixWord f (16 * e)) (ctl % 2 ^ 32))

/-- A pending message is sent once its entry is not masked and the function may send (R364, R397). -/
def State.msixPending (s : State) (f e : Nat) : State :=
  if !s.msixMasked f e && bit (s.msixWord f (pendOff e)) (e % 64) && s.hostLive f then (s.setPending f e false).msix f e else s

/-! ### Descriptors (R384, Tables 14-2, 14-3) -/

abbrev Desc := BitVec 512
/-- Bits of a descriptor. -/
def Desc.bits (d : Desc) (lo w : Nat) : Nat := bitsOf d.toNat lo w
/-- The little-endian number in `n` bytes from byte `b`. -/
def Desc.at_ (d : Desc) (b n : Nat) : Nat := bitsOf d.toNat (8 * b) (8 * n)
def Desc.ty (d : Desc) : Nat := Desc.at_ d 0 1
def Desc.phase (d : Desc) : Nat := Desc.bits d 8 1
def Desc.irq (d : Desc) : Bool := decide (Desc.bits d 9 1 = 1)
def Desc.ord (d : Desc) : Bool := decide (Desc.bits d 10 1 = 1)
def Desc.seq (d : Desc) : Nat := Desc.at_ d 4 4
def Desc.user (d : Desc) : Nat := Desc.at_ d 8 8
/-- Bytes moved by a COPY or FILL. -/
def Desc.len (d : Desc) : Nat := Desc.at_ d 32 4
/-- COPY reads device memory, and writes device memory. -/
def Desc.fromDev (d : Desc) : Bool := decide (Desc.bits d 288 1 = 1)
def Desc.toDev (d : Desc) : Bool := decide (Desc.bits d 289 1 = 1)
/-- Tile of a STREAM. -/
def Desc.tile (d : Desc) : Nat := Desc.bits d 224 9
/-- Entry `i` of a FENCE: valid, ring and SEQ. -/
def Desc.entry (d : Desc) (i : Nat) : Bool × Nat × Nat :=
  (decide (Desc.bits d (128 + 64 * i + 7) 1 = 1), Desc.bits d (128 + 64 * i) 6, Desc.bits d (128 + 64 * i + 32) 32)

/-- Reserved bit ranges of a descriptor: low bit and width. -/
def reservedOf (ty : Nat) : List (Nat × Nat) :=
  (11, 21) :: (match ty with
    | 0 => [(128, 384)]
    | 1 => [(233, 7), (240, 272)]
    | 2 => [(290, 6), (296, 216)]
    | 3 => [(288, 224)]
    | 4 => [(256, 256)]
    | _ => (List.range 6).flatMap (fun i => [(128 + 64 * i + 6, 1), (128 + 64 * i + 8, 24)]))

/-- Byte offset of the lowest set bit among the `w` bits at `lo`. -/
def firstSet (d : Desc) (lo w : Nat) : Option Nat := ((List.range w).find? (fun i => bit d.toNat (lo + i))).map (fun i => (lo + i) / 8)

/-- Byte offsets of fields whose value Table 14-3 does not allow; a DPA with bits above [40:0] is one (DEDUCED, log 60). -/
def badFields (d : Desc) : List Nat :=
  let bad := fun (b : Bool) (n : Nat) => if b then [n] else []
  let addr := fun (n : Nat) (dev : Bool) => bad (decide (Desc.at_ d n 8 % 64 ≠ 0) || (dev && decide (2 ^ 41 ≤ Desc.at_ d n 8))) n
  let len := bad (decide (Desc.len d % 64 ≠ 0 ∨ Desc.len d < 64)) 32
  match Desc.ty d with
  | 1 => addr 16 false ++ bad (decide (Desc.at_ d 24 4 % 4 ≠ 0 ∨ Desc.at_ d 24 4 < 4)) 24
  | 2 => addr 16 (Desc.fromDev d) ++ addr 24 (Desc.toDev d) ++ len ++ bad (!Desc.fromDev d && !Desc.toDev d) 36
  | 3 => addr 16 true ++ len
  | 4 => bad (decide (Desc.at_ d 16 8 % 8 ≠ 0)) 16
  | _ => []

/-- DETAIL of status INVALID: the byte offset of the first invalid field (R384). -/
def invalidAt (d : Desc) : Option Nat :=
  if 5 < Desc.ty d then some 0
  else
    match (reservedOf (Desc.ty d)).filterMap (fun r => firstSet d r.1 r.2) ++ badFields d with
    | [] => none
    | a :: r => some (r.foldl min a)

/-! ### Doorbells (R388, R389) -/

/-- SEQ of the last record transmitted. -/
def State.ringDone (s : State) (n : Nat) : Nat := (s.seqOf n (s.ring n).sentAt + 2 ^ 32 - 1) % 2 ^ 32
/-- An ignored doorbell is counted. -/
def State.ignoreBell (s : State) : State := s.countR RING_DB_IGN_COUNT 1 0x0209

/-- The evaluation of R389. -/
def State.doorbell (s : State) (n tail seq : Nat) : State :=
  let r := s.ring n
  let size := s.ringSize n
  let delta := (seq + 2 ^ 32 - r.acc) % 2 ^ 32
  let outstanding := (r.acc + 2 ^ 32 - s.ringDone n) % 2 ^ 32
  if delta = 0 ∨ 2 ^ 31 ≤ delta then s.ignoreBell
  else if tail ≠ (r.tail + delta) % size ∨ size < outstanding + delta then
    ((s.haltRing n 3).emit ringSrc 0x0203 [n, tail, seq]).raise hostB RING_ERR_FLAGS_DB_BAD
  else s.setRing n { r with acc := seq, tail := tail }

/-- A submission doorbell of `size` bytes in page `page` (R382, R388, R389). -/
def State.submitBell (s : State) (f page size data : Nat) : State :=
  if size ≠ 8 ∨ (f ≠ 0 ∧ f ≠ s.ringOwner page) ∨ !s.isRunning page then s.ignoreBell
  else s.doorbell page (bitsOf data 0 16) (bitsOf data 32 32)

/-- A read of `len` bytes in a doorbell page returns 0 (R388); it changes no state. -/
def State.bar2Read (_ : State) (_ _ _ : Nat) : Nat := 0

/-! ### Fetching (R391) -/

/-- An accepted descriptor has not been read. -/
def State.unread (s : State) (n : Nat) : Bool := decide ((s.ring n).acc ≠ (s.seqOf n (s.ring n).fetchAt + 2 ^ 32 - 1) % 2 ^ 32)

/-- A host completion error on behalf of a function (R375): status 1 UR, 2 CA, 3 timeout; EP (4) is no error of the completion. -/
def State.hostErr (s : State) (f status : Nat) : State :=
  if 1 ≤ status ∧ status ≤ 3 then (s.raise hostB HOST_ERR_FLAGS_CPL_ERR).emit hostSrc 0x0106 [f, status] else s

/-- Link-lost records go out before the ring reads or starts anything (R401). -/
def RingSt.flushing (r : RingSt) : Bool := r.flush && r.live.any (·.lost)

/-- A read descriptor carries the SEQ and PHASE of count `c` (R383). -/
def State.matches_ (s : State) (n c : Nat) (d : Desc) : Bool := decide (Desc.seq d = s.seqOf n c ∧ Desc.phase d = s.phaseOf n c)

/-- Descriptors that one read takes from the next one on: at most 16, not beyond the last accepted one or the end of the ring (R391). -/
def State.readSize (s : State) (n : Nat) : Nat :=
  let r := s.ring n
  min 16 (min ((r.acc + 1 + 2 ^ 32 - s.seqOf n r.fetchAt) % 2 ^ 32) (s.ringSize n - r.fetchAt % s.ringSize n))

/-- Tags that no request holds, `k` of them. -/
def State.freeTags (s : State) (k : Nat) : List Nat :=
  let l := s.tagsHeld
  ((List.range (l.length + k)).filter (fun t => !l.contains t)).take k

/-- The requests that a read of `k` descriptors of SQ `n` takes: address and bytes (R374, R381). -/
def State.descReads (s : State) (n k : Nat) : List (Nat × Nat) :=
  splitReads s.host.mrrs (k + 1) (s.ringRd n RING_SQ_BASE_ADDR * 4096 + 64 * ((s.ring n).fetchAt % s.ringSize n)) (64 * k)

/-- They are sent under the owner's requester ID (R364, R382). -/
def State.askDescs (s : State) (n k : Nat) : State :=
  let l := s.descReads n k
  ((s.freeTags l.length).zip l).foldl (fun (a : State) (p : Nat × Nat × Nat) => a.send (.hostRead (s.ringOwner n) p.1 p.2.1 p.2.2)) s

/-- Accept the read descriptors that match, in order. -/
def State.acceptDescs (n : Nat) : List Desc → State → State
  | [], s => s
  | d :: l, s =>
    let r := s.ring n
    if s.matches_ n r.fetchAt d then
      State.acceptDescs n l (s.setRing n { r with fetched := r.fetched ++ [(r.fetchAt, d)], fetchAt := r.fetchAt + 1 })
    else s

/-- A read of `k` descriptors is made and returns; what is left of it when one does not match is read again. A read that fails matches nothing (DEDUCED, log 60). -/
def State.readDescs (s : State) (n k status : Nat) (data : List Desc) : State :=
  let at_ := (s.ring n).fetchAt
  let s := (s.askDescs n k).hostErr (s.ringOwner n) status
  let s := if status = 0 then State.acceptDescs n (data.take k) s else s
  let r := s.ring n
  s.setRing n { r with short := k - (r.fetchAt - at_) }

/-- The engine may read `k` descriptors of ring `n`: the ring runs, its function may send, the tags and read units that they take are free, and no link-lost record goes first (R364, R374, R401). -/
def State.mayFetch (s : State) (n k : Nat) : Bool :=
  s.isRunning n && s.hostLive (s.ringOwner n) && s.host.waiting.isEmpty && s.mayReads (s.descReads n k).length k && !(s.ring n).flushing

/-- DESCRIPTOR_FETCH (R391): the data of a good read are its descriptors, in order. -/
def execDescriptorFetch (n : RingId) (status : Nat) (data : List (BitVec 512)) (s : State) : Res :=
  .next (let k := s.readSize n.val
    if !s.mayFetch n.val k || decide ((s.ring n.val).short ≠ 0) || !s.unread n.val || decide (status = 0 ∧ data.length < k) then s
    else s.readDescs n.val k status data)

/-- DESCRIPTOR_REREAD (R391): the unmatched descriptor is read again with the later ones of its read; at its eighth mismatch the ring halts with cause STALE. -/
def execDescriptorReread (n : RingId) (status : Nat) (data : List (BitVec 512)) (s : State) : Res :=
  .next (let k := n.val
    let r := s.ring k
    if !s.mayFetch k r.short || decide (r.short = 0) || decide (status = 0 ∧ data.length < r.short) then s
    else
      let s := (s.countR RING_REREADS_COUNT 1 0x0209).readDescs k r.short status data
      if (s.ring k).fetchAt ≠ r.fetchAt then s.setRing k { s.ring k with rereads := 0 }
      else if r.rereads + 1 < 8 then s.setRing k { s.ring k with rereads := r.rereads + 1 }
      else (s.haltRing k 2).emit ringSrc 0x0202 [k, r.fetchAt % s.ringSize k, s.seqOf k r.fetchAt, Desc.seq (data.headD 0)])

/-! ### Starting (R392) -/

/-- Started, incomplete descriptors of the card. -/
def State.cardInflight (s : State) : Nat := (s.rings.map (fun (p : Nat × RingSt) => p.2.inflight)).foldl (· + ·) 0

/-- Records that a tile holds or that are on their way to it. -/
def State.slotsUsed (s : State) (t : Nat) : Nat := (s.tile t).recs.length + (s.recsOut.filter (fun r => decide (r.1 = t))).length

/-- Why a tile cannot take a stream (R385); 0 when it can. -/
def State.unavailable (s : State) (n t : Nat) : Nat :=
  if !s.enabled t then 1
  else if s.ringOwner n ≠ 0 ∧ s.tileOwner t ≠ s.ringOwner n then 2
  else if (s.tile t).inReset then 3
  else if s.faulted t then 4
  else 0

/-- The next descriptor may start. -/
def State.mayStart (s : State) (n : Nat) (d : Desc) : Bool :=
  let r := s.ring n
  (decide (r.st = .running) || (decide (r.st = .halted) && decide (r.cause = 2))) && !r.flushing &&
    decide (r.inflight < 64 ∧ s.cardInflight < 1024) && (!Desc.ord d || decide (r.inflight = 0)) &&
    !r.live.any (fun l => l.done.isNone && decide (Desc.ty l.desc = 5)) &&
    (decide (Desc.ty d ≠ 1) || (invalidAt d).isSome || decide (s.unavailable n (Desc.tile d) ≠ 0) || decide (s.slotsUsed (Desc.tile d) < 8))

/-- Start the next descriptor when `mine` names its type (a reserved type is taken by any DESCRIPTOR command): invalid fields complete it, otherwise `run` gives its effect from its count. -/
def State.startDesc (s : State) (n ty : Nat) (run : Nat → Desc → State → State) : State :=
  let r := s.ring n
  match r.fetched with
  | [] => s
  | (c, d) :: l =>
    if (Desc.ty d ≠ ty ∧ Desc.ty d ≤ 5) ∨ !s.mayStart n d then s
    else
      let s := s.setRing n { r with fetched := l, startAt := c + 1, live := r.live ++ [⟨c, d, none, none, false⟩] }
      match invalidAt d with
      | some b => s.completeDesc n c 1 b
      | none => run c d s

def execDescriptorNop (n : RingId) (s : State) : Res := .next (s.startDesc n.val 0 (fun c _ s => s.completeDesc n.val c 0 0))

/-- DESCRIPTOR_STREAM (R385). -/
def execDescriptorStream (n : RingId) (s : State) : Res :=
  .next (s.startDesc n.val 1 (fun c d s =>
    let t := Desc.tile d
    let why := s.unavailable n.val t
    if why ≠ 0 then s.completeDesc n.val c 6 why
    else
      let r : SRec := ⟨0, Desc.at_ d 16 8, Desc.at_ d 24 4, n.val, c, Desc.seq d + n.val * 2 ^ 32, false⟩
      { s with recsOut := s.recsOut ++ [(t, r)] }))

/-! ### COPY and FILL (R386, R387, R413) -/

/-- A partition's ring may not reach this DPA (R365). -/
def State.ringRefused (s : State) (n a : Nat) : Bool :=
  let k := s.ringOwner n
  if k = 0 then false
  else if bit a 40 then decide (s.stackOwner (bitsOf a 36 4) ≠ k)
  else !s.ownsAll k

/-- Where a unit of device memory lies, or the ADDR detail bit: 0 unmapped, 1 refused. Event 0x0107 of a refusal names a requester tile, which a ring has not: it is free (R365, R386; log 71). -/
def State.ringResolve (s : State) (n a : Nat) : Except Nat Nat × State :=
  match s.resolve ⟨.host, s.ringOwner n⟩ a with
  | (none, s) => (.error 0, s)
  | (some k, s) =>
    if s.ringRefused n a then
      let c := keyChan k
      let (i, s) := ((s.raise (ccB c) CC_ERR_FLAGS_UNMAPPED).unmappedEvent (ccSrc c) a 1).fresh
      (.error 1, s.emit (ccSrc c) 0x0107 [Config.refusedTile i % 512, 1])
    else (.ok (k / 64 * 64), s)

/-- The run of a COPY or FILL. -/
def State.copyRun (s : State) (n c : Nat) : Option (Desc × CopyRun) :=
  match (s.ring n).live.find? (fun l => decide (l.count = c)) with
  | some l => if l.done.isNone then l.copy.map (fun r => (l.desc, r)) else none
  | none => none
def State.setCopy (s : State) (n c : Nat) (v : Option CopyRun) : State :=
  let r := s.ring n
  s.setRing n { r with live := r.live.map (fun l => if l.count = c then { l with copy := v } else l) }
/-- The descriptor ends with a status at its current unit. -/
def State.copyEnd (s : State) (n c status detail : Nat) : State := (s.setCopy n c none).completeDesc n c status detail

/-- How one step of a COPY ended. -/
inductive CopyStep where
  | went (r : CopyRun)              -- one unit is written
  | waits (r : CopyRun)
  | stop (status detail : Nat)
  deriving DecidableEq, Repr

/-- A line must first be asked of the host (Table 13-5, R371). -/
def State.copyAsks (s : State) (key : Nat) (r : CopyRun) : Bool := s.needsSnoop key r.snooped && s.canSnoop

/-- FILL's 64 B of pattern. -/
def fillCell (d : Desc) : Cell64 :=
  let h := BitVec.ofNat 256 ((List.range 4).foldl (fun a i => a + Desc.at_ d 24 8 * 2 ^ (64 * i)) 0)
  ⟨some h, some h⟩

/-- Read the source of the current unit: its data, or what the unit meets. A unit that its CC or a bias change holds waits (R77, R373, R386). -/
def State.copySource (s : State) (n c : Nat) (d : Desc) (r : CopyRun) : Sum CopyStep (Cell64 × CopyRun) × State :=
  let u := r.unit
  match r.data with
  | v :: l => (.inr (v, { r with data := l }), s)
  | [] =>
    if Desc.ty d = 3 then (.inr (fillCell d, r), s)
    else if Desc.fromDev d then
      match s.ringResolve n (Desc.at_ d 16 8 + 64 * u) with
      | (.error e, s) => (.inl (.stop 2 (e + 64 * u)), s)
      | (.ok k, s) =>
        if (s.cc (keyChan k)).reading (.copy n c) k then
          match s.hostPortRead (.copy n c) (s.ringOwner n) k with
          | (some v, s) => (.inr (v, r), s)
          | (none, s) => (.inl (.waits r), s.stall (.copy n c))
        else if s.biasHeld k then (.inl (.waits r), s.stall (.copy n c))
        else if s.copyAsks k r then (.inl (.waits r), s.askSnoop (k / 64) false [.copy n c])
        else if s.needsSnoop k r.snooped then (.inr (.bad, r), s)
        else
          match s.hostPortRead (.copy n c) (s.ringOwner n) k with
          | (some v, s) => (.inr (v, r), s)
          | (none, s) => (.inl (.waits r), s.stall (.copy n c))
    else
      let f := s.ringOwner n
      if !s.dlUp then (.inl (.stop 3 (3 + 64 * u)), s)
      else if !s.bme f then (.inl (.stop 3 (4 + 64 * u)), s)
      else if u < r.asked then (.inl (.waits r), s)
      else
        match splitReads s.host.mrrs 1 (Desc.at_ d 16 8 + 64 * u) (Desc.len d - 64 * u) with
        | (a, k) :: _ => (.inl (.waits { r with asked := u + k / 64 }), s.askHost (.copy n c) f a k)
        | [] => (.inl (.waits r), s)

/-- Write a unit to its destination (R387): a poisoned unit, and one lost to retired storage, is counted. A unit that is not taken waits with its data. -/
def State.copyDest (s : State) (n c : Nat) (d : Desc) (r : CopyRun) (v : Cell64) : CopyStep × State :=
  let u := r.unit
  let bad := v.lo.isNone || v.hi.isNone
  let ok := fun (b : Bool) => CopyStep.went { r with unit := u + 1, poisoned := r.poisoned + (if b then 1 else 0), snooped := [] }
  let kept := CopyStep.waits { r with data := v :: r.data }
  if Desc.ty d = 3 || Desc.toDev d then
    match s.ringResolve n ((if Desc.ty d = 3 then Desc.at_ d 16 8 else Desc.at_ d 24 8) + 64 * u) with
    | (.error e, s) => (.stop 2 (e + 64 * u), s)
    | (.ok k, s) =>
      if s.biasHeld k then (kept, s.stall (.copy n c))
      else if s.copyAsks k { r with snooped := [] } then (kept, s.askSnoop (k / 64) true [.copy n c])
      else if s.needsSnoop k [] then (ok true, s)
      else
        match s.hostPortWrite (s.ringOwner n) k (.whole v) with
        | (true, s) => (ok (bad || s.hostCut k || s.retired (keyChan k)), s)
        | (false, s) => (kept, s.stall (.copy n c))
  else
    let f := s.ringOwner n
    if !s.dlUp then (ok bad, s)
    else if !s.bme f then (.stop 3 (4 + 64 * u), s)
    else (ok bad, s.hostPut f (Desc.at_ d 24 8 + 64 * u) (.whole v))

/-- One unit. -/
def State.copyUnit (s : State) (n c : Nat) (d : Desc) (r : CopyRun) : CopyStep × State :=
  match s.copySource n c d r with
  | (.inl e, s) => (e, s)
  | (.inr (v, r), s) => s.copyDest n c d r v

/-- Units until the descriptor ends or waits. -/
def State.copyLoop (n c : Nat) : Nat → State → State
  | 0, s => s
  | k + 1, s =>
    match s.copyRun n c with
    | none => s
    | some (d, r) =>
      if Desc.len d ≤ 64 * r.unit then
        s.copyEnd n c (if r.poisoned = 0 then 0 else 4) (min (2 ^ 32 - 1) r.poisoned)
      else
        match s.copyUnit n c d r with
        | (.went r, s) => State.copyLoop n c k (s.setCopy n c (some r))
        | (.waits r, s) => s.setCopy n c (some r)
        | (.stop st det, s) => s.copyEnd n c st det

/-- Go on with a COPY or FILL. -/
def State.copyGo (s : State) (n c : Nat) : State :=
  match s.copyRun n c with
  | some (d, _) => s.copyLoop n c (Desc.len d / 64 + 1)
  | none => s

def CopyRun.init : CopyRun := { unit := 0, poisoned := 0, data := [], asked := 0, snooped := [] }

def execDescriptorCopy (n : RingId) (s : State) : Res :=
  .next (s.startDesc n.val 2 (fun c _ s => (s.setCopy n.val c (some CopyRun.init)).copyGo n.val c))
def execDescriptorFill (n : RingId) (s : State) : Res :=
  .next (s.startDesc n.val 3 (fun c _ s => (s.setCopy n.val c (some CopyRun.init)).copyGo n.val c))

/-- A host read of a COPY fails at its unit: codes of Table 14-5. -/
def State.copyFail (s : State) (n c code : Nat) : State :=
  match s.copyRun n c with
  | none => s
  | some (_, r) => s.copyEnd n c 3 (code + 64 * r.unit)

/-- Host data for a COPY arrives: units in order, or a completion error that stops it at its unit (R375, R387). -/
def State.copyDeliver (s : State) (n c status : Nat) (cells : List Cell64) : State :=
  if 1 ≤ status ∧ status ≤ 3 then s.copyFail n c status
  else
    match s.copyRun n c with
    | none => s
    | some (_, r) => (s.setCopy n c (some { r with data := r.data ++ cells })).copyGo n c

/-! ### SIGNAL and FENCE (R392, R395, R396) -/

def execDescriptorSignal (n : RingId) (s : State) : Res := .next (s.startDesc n.val 4 (fun _ _ s => s))

/-- The first started SIGNAL whose earlier descriptors are all complete. -/
def RingSt.dueSignal (r : RingSt) : Option Live :=
  match r.live.find? (fun l => l.done.isNone) with
  | some l => if Desc.ty l.desc = 4 then some l else none
  | none => none

/-- SIGNAL_VALUE_WRITE (R392): held while Bus Master Enable is 0; discarded while the link is down (Table 13-7). -/
def execSignalValueWrite (n : RingId) (s : State) : Res :=
  .next (match (s.ring n.val).dueSignal with
    | none => s
    | some l =>
      let f := s.ringOwner n.val
      if s.hostLive f then (s.hostBytes f (Desc.at_ l.desc 16 8) 8 (Desc.at_ l.desc 24 8)).completeDesc n.val l.count 0 0
      else if s.dlUp then s
      else s.completeDesc n.val l.count 0 0)

/-- An entry of a FENCE is invalid (R396). -/
def State.badEntry (s : State) (n : Nat) (d : Desc) (i : Nat) : Bool :=
  let (v, m, _) := Desc.entry d i
  v && (decide (m = n) || decide (s.ringOwner m ≠ s.ringOwner n) || decide ((s.ring m).st = .disabled))

/-- DESCRIPTOR_FENCE (R396): its entries are checked as it starts. -/
def execDescriptorFence (n : RingId) (s : State) : Res :=
  .next (s.startDesc n.val 5 (fun c d s =>
    match (List.range 6).find? (s.badEntry n.val d) with
    | some i => s.completeDesc n.val c 1 (16 + 8 * i)
    | none => s))

/-- Ring `m` has transmitted the record of `q`. -/
def State.reached (s : State) (m q : Nat) : Bool := decide ((s.ringDone m + 2 ^ 32 - q) % 2 ^ 32 < 2 ^ 31)

/-- FENCE_COMPLETE (R396). -/
def execFenceComplete (n : RingId) (s : State) : Res :=
  .next (match (s.ring n.val).live.find? (fun l => l.done.isNone && decide (Desc.ty l.desc = 5)) with
    | none => s
    | some l =>
      let due := fun (i : Nat) => let (v, m, q) := Desc.entry l.desc i; v && !s.reached m q
      match (List.range 6).find? (fun i => due i && decide ((s.ring (Desc.entry l.desc i).2.1).st = .halted ∧ (s.ring (Desc.entry l.desc i).2.1).inflight = 0)) with
      | some i => s.completeDesc n.val l.count 8 i
      | none => if (List.range 6).any due then s else s.completeDesc n.val l.count 0 0)

/-! ### Completion records (R393, R394, R397, R400) -/

/-- The 32 B completion record (Table 14-4). -/
def recordOf (n : Nat) (seq phase : Nat) (d : Desc) (status detail tsc : Nat) : Nat :=
  seq + status * 2 ^ 32 + phase * 2 ^ 40 + Desc.ty d * 2 ^ 48 + n * 2 ^ 56 + Desc.user d * 2 ^ 64 + (tsc % 2 ^ 64) * 2 ^ 128 + (detail % 2 ^ 32) * 2 ^ 192

/-- Every device-memory and scratchpad write of an ended descriptor is complete (Table 14-5): it has none, or it ended with OK or POISON (DEDUCED, log 80). -/
def Live.written (l : Live) (status : Nat) : Bool :=
  decide (status = 0 ∨ status = 4) || (decide (Desc.ty l.desc ≠ 1 ∧ Desc.ty l.desc ≠ 3) && (decide (Desc.ty l.desc ≠ 2) || !Desc.toDev l.desc))

/-- COMPLETION_RECORD (R393): the next record of the ring; a link-lost one goes out after RESUME with status LINK_LOST (R400, R401). -/
def execCompletionRecord (n : RingId) (s : State) : Res :=
  .next (let k := n.val
    let r := s.ring k
    match r.live with
    | [] => s
    | l :: rest =>
      match l.done with
      | none => s
      | some e =>
        let f := s.ringOwner k
        if !s.hostLive f || (l.lost && !r.flush) then s
        else
          let status := if l.lost then 7 else e.status
          let detail := if l.lost then (if l.written e.status then 1 else 0) else e.detail
          let addr := s.ringRd k RING_CQ_BASE_ADDR * 4096 + 32 * (l.count % s.ringSize k)
          let s := s.hostBytes f addr 32 (recordOf k (s.seqOf k l.count) (s.phaseOf k l.count) l.desc status detail e.tsc)
          let s := if l.lost then s.emit ringSrc 0x0204 [k, s.seqOf k l.count, 7, detail] else s
          let s := ({ s with host := { s.host with sent := (k, { l with done := some ⟨status, detail, e.tsc⟩, lost := false }) :: s.host.sent } } : State)
          let s := (s.setRing k { r with live := rest, sentAt := l.count + 1 }).countR (RING_CNT_COUNT.at (0x40 * k)) 1 0x0209
          let s := if Desc.irq l.desc || decide (s.ringRd k RING_CFG_IRQ_ALL = 1) then s.msix f (1 + k) else s
          if status ≠ 0 ∧ s.ringRd k RING_CFG_STOP_ON_ERR = 1 then s.haltRing k 4 else s)

/-! ### Ring commands (R401, R422) and the link (R400) -/

/-- START, RESUME, RESET and HALT (bits 0 to 3 of RING_CMD); none when the command is rejected. -/
def State.ringCmd (s : State) (n cmd : Nat) : Option State :=
  let r := s.ring n
  match cmd, r.st with
  | 0, .disabled =>
    some ((s.setRing n { RingSt.init with st := .running, acc := (s.ringRd n RING_SEQ0_SEQ0 + 2 ^ 32 - 1) % 2 ^ 32 }).emit ringSrc 0x0205 [n, 1, 0])
  | 1, .halted =>
    if decide (r.cutDue ≠ .no) || (decide (r.cause = 5) && !s.hostLive (s.ringOwner n)) then none
    else some ((s.setRing n { r with st := .running, cause := 0, short := 0, rereads := 0, flush := true }).emit ringSrc 0x0205 [n, 2, (r.live.filter (·.lost)).length])
  | 2, .running => none
  | 2, _ => if r.inflight = 0 then some (s.setRing n RingSt.init) else none
  | 3, .running => some (s.haltRing n 1)
  | _, _ => none

/-- Records that were not acknowledged at the data link layer are pending again, the latest first in the list. -/
def State.takeBack : List (Nat × Live) → State → State
  | [], s => s
  | (n, l) :: rest, s =>
    let r := s.ring n
    State.takeBack rest (if r.sentAt = l.count + 1 then s.setRing n { r with live := l :: r.live, sentAt := l.count } else s)

/-- A link-down event (R400): DONE goes back over the `unacked` records transmitted last, the started descriptors of every ring are link-lost, and every running ring halts with cause LINK. -/
def State.ringsLinkDown (s : State) (unacked : Nat) : State :=
  let s := State.takeBack (s.host.sent.take unacked) s
  let s := { s with host := { s.host with sent := [] } }
  let s := { s with rings := s.rings.map (fun (p : Nat × RingSt) => (p.1, { p.2 with live := p.2.live.map (fun (l : Live) => { l with lost := true }), flush := false })) }
  s.haltAndCut 5 hostSrc 5 (List.range 64)

end Sys2Proof.Machine
end

