-- ==== Sys2Proof/Machine/Wake.lean ====
section
/-! DEFINITION. Requesters that wait go on: those that the host has answered, and those whose access was not taken (R18, R29, R77, R371, R373). -/

namespace Sys2Proof.Machine

/-- A requester goes on. -/
def State.resume (s : State) : ReadUser → State
  | .move t => s.mveGo t
  | .copy n c => s.copyGo n c
  | _ => s

/-- Every requester whose access was not taken presents it again, after lines that left the directory are asked of the host (log 69). -/
def State.wake (s : State) : State :=
  let s := s.askOwed
  let l := s.host.stalled
  l.foldl State.resume { s with host := { s.host with stalled := [] } }

end Sys2Proof.Machine
end

