-- ==== Sys2Proof/Machine/Resets.lean ====
section
/-! DEFINITION. Tile and partition resets, card fault, and the buckets of the seam and host links (R264, R404-R409, R416-R418). -/

namespace Sys2Proof.Machine

/-! ### Tiles (R264, R416) -/

/-- Tiles stay in reset: card fault, or PF0 in D3hot (R418, R506). -/
def State.holdsTiles (s : State) : Bool := s.flag hostB FLT_CARD_CARD_FAULT || s.host.d3hot

/-- What a tile keeps through a reset (Table 7-1, R264): scratchpad data and poison, instruction memory, and requests whose answers are discarded. -/
def Tile.afterReset (x : Tile) : Tile :=
  { Tile.init with inReset := x.inReset, sp := x.sp, spPois := x.spPois, imem := x.imem, imemBad := x.imemBad, serial := x.serial,
                   reqs := x.reqs.map SRead.drop, pfFlight := x.pfFlight.map (fun p => { p with stale := true }) }

/-- The Tadpole has read bundles from the line: it lies in the current record and begins before its position. -/
def Tile.readFrom (x : Tile) (l : SLine) : Bool := decide (x.current.map (·.serial) = some l.stream ∧ 64 * l.idx < x.pos)
/-- Prefetched stream lines that have arrived and were not late. -/
def Tile.fetched (x : Tile) : List SLine := x.lines.filter (fun l => l.data.isSome && !l.late)
/-- Stream lines that a reset throws away after their use, and lines and predictions before it (R224). -/
def Tile.usedLines (x : Tile) : Nat := (x.fetched.filter x.readFrom).length
def Tile.wasted (x : Tile) : Nat := (x.fetched.filter (fun l => !x.readFrom l)).length + (x.preds.filter (fun p => p.data.isSome)).length

/-- STREAMs on a tile complete with ABORTED (Table 14-5). -/
def State.abortStreams (s : State) (t detail : Nat) : State :=
  let l := (s.tile t).recs ++ (s.recsOut.filter (fun r => decide (r.1 = t))).map (·.2)
  let s := { s with recsOut := s.recsOut.filter (fun r => decide (r.1 ≠ t)) }
  l.foldl (fun (a : State) r => a.completeDesc r.ring r.count 9 detail) s

/-- A demand read or a request of the tile; a prefetch stays outstanding and is stale (R209). -/
def ReadUser.ofTile (t : Nat) : ReadUser → Bool
  | .move u | .request u => decide (u = t)
  | _ => false

/-- The tile's MVE no longer waits for the host or for a CC. -/
def State.forgetTile (s : State) (t : Nat) : State :=
  let keep := fun (l : List ReadUser) => l.filter (fun u => !u.ofTile t)
  { s with host := { s.host with stalled := keep s.host.stalled, snoops := s.host.snoops.map (fun q => ({ q with waiters := keep q.waiters } : Snoop)),
                                  answered := s.host.answered.filter (fun (a : Nat × Nat) => decide (a.1 ≠ t)) } }

/-- Answers to the host reads that `p` selects will be discarded. -/
def State.dropReads (s : State) (p : HostRead → Bool) : State :=
  let f := fun (r : HostRead) => if p r then { r with user := .dropped } else r
  { s with host := { s.host with reads := s.host.reads.map f, waiting := s.host.waiting.filter (fun r => !p r) } }

/-- Semaphores and stream counters of a tile return to 0 (R341, R344). -/
def State.clearSync (s : State) (t : Nat) : State :=
  upto 16 (fun i (s : State) => (s.wr (tileB t) (TILE_SC_PC_P.at (16 * i)) 0).wr (tileB t) (TILE_SC_PC_C.at (16 * i)) 0)
    (upto 32 (fun k (s : State) => s.setSem t k 0) s)

/-- Hold a tile in reset. -/
def State.holdTile (s : State) (t : Nat) : State := s.modTile t (fun x => { x with inReset := true })
/-- An enabled tile leaves reset unless something holds every tile there. -/
def State.freeTile (s : State) (t : Nat) : State :=
  if s.enabled t && !s.holdsTiles then s.modTile t (fun x => { x with inReset := false }) else s

/-- A tile that is held in reset takes its reset state (R203, R206, R264, R312, R341, R344, R349, R352): `reason` is that of event 0x0352, `detail` that of ABORTED. -/
def State.resetTile (s : State) (t reason detail : Nat) : State :=
  let s := ((s.holdTile t).breakGroups t reason).abortStreams t detail
  let n := (s.tile t).wasted
  let m := (s.tile t).usedLines
  let s := (s.invalidate t).modTile t Tile.afterReset
  let s := if n ≠ 0 ∧ s.flag (tileB t) TILE_SF_CTRL_ENABLE then s.countT t (TILE_PFS_COUNT.at 0x18) n else s
  let s := if m ≠ 0 ∧ s.flag (tileB t) TILE_SF_CTRL_ENABLE then s.countT t (TILE_PFS_COUNT.at 8) m else s
  let s := ((s.dropReads (fun r => r.user.ofTile t)).forgetTile t).orphanReads (ReadUser.ofTile t)
  let s := s.clearSync t
  s.setWord (tileB t + TILE_FAULT_VALID.off) 0

/-- A reset ends: FLT_RST_STAT.DONE and event 0x068C. -/
def State.resetDone (s : State) (kind id : Nat) : State := (s.raise hostB FLT_RST_STAT_DONE).emit ringSrc 0x068C [kind, id]

/-- A tile reset (R416). -/
def State.tileResetGo (s : State) (t : Nat) : State :=
  let s := (s.holdTile t).haltAndCut 3 t 7 (s.tileRings t)
  ((s.resetTile t 1 1).freeTile t).resetDone 1 t

/-! ### Partitions (R416) -/

/-- The pass instructions of a channel are discarded, the active pass runs to its end, and EXIT follows (R416 step 5). -/
def State.discardPasses (s : State) (c : Nat) : State :=
  let k := s.cc c
  let s := s.setCc c { k with queue := [], ingress := [], claimAt := none }
  let s := (k.queue ++ k.ingress).foldl (fun (a : State) r => a.standIn c r) s
  match k.active with
  | none => if k.pim then (s.trace c none rowExit 0).opExit c else s
  | some a => (if a.todo.getLast? = some PCmd.exit then s else s.setTodo c (a.todo ++ [.exit])).runRest c

/-- Tiles and channels of partition `k`, PF0's being partition 0. -/
def State.partTiles (s : State) (k : Nat) : List Nat := sites.filter (fun t => s.enabled t && decide (s.tileOwner t = k))
def State.partChans (s : State) (k : Nat) : List Nat := (List.range 384).filter (fun c => decide (s.stackOwner (c / 32) = k))

/-- The last step of a partition reset. -/
def State.partResetEnd (s : State) (k : Nat) : State :=
  let s := ((s.partTiles k).foldl State.freeTile s).resetDone 2 k
  if s.host.resetting.isEmpty then s.clear hostB FLT_RST_STAT_BUSY else s

/-- No pass of the partition's stacks is active. -/
def State.passesEnded (s : State) (k : Nat) : Bool := (s.partChans k).all (fun c => (s.cc c).active.isNone)

/-- Partition resets whose passes have ended take their last step (R416). -/
def State.settleResets (s : State) : State :=
  let l := s.host.resetting.filter s.passesEnded
  l.foldl (fun (a : State) k => a.partResetEnd k) { s with host := { s.host with resetting := s.host.resetting.filter (fun k => !l.contains k) } }

/-- What a change at a CC lets happen: stalled accesses are presented again, and partition resets whose passes have ended are completed. -/
def State.onward (s : State) : State := s.wake.settleResets

/-- A partition reset (R416), PF0's tiles and stacks being partition 0: `cause` is the halt cause and `src` the trigger's source. Its last step waits for the active passes. -/
def State.partResetGo (s : State) (k cause src : Nat) : State :=
  let tiles := s.partTiles k
  let s := tiles.foldl State.holdTile s
  let s := s.haltAndCut 4 src cause ((List.range 64).filter (fun n => decide (s.ringOwner n = k)))
  let s := tiles.foldl (fun (a : State) t => a.resetTile t 2 2) s
  let s := (s.partChans k).foldl State.discardPasses s
  let s := s.raise hostB FLT_RST_STAT_BUSY
  ({ s with host := { s.host with resetting := s.host.resetting.filter (fun j => decide (j ≠ k)) ++ [k] } } : State).settleResets

/-- Partitions that hold a tile, a stack or a ring, and PF0. -/
def State.partitions (s : State) : List Nat :=
  (List.range 9).filter (fun k => decide (k = 0) || sites.any (fun t => decide (s.tileOwner t = k)) || (List.range 12).any (fun i => decide (s.stackOwner i = k)) ||
    (List.range 64).any (fun n => decide (s.ringOwner n = k)))

/-- A reset of every partition and of PF0's tiles (Table 13-7, R506). -/
def State.resetAll (s : State) (cause src : Nat) : State := s.partitions.foldl (fun (a : State) k => a.partResetGo k cause src) s

/-! ### Card fault and links (R404, R407-R409, R418) -/

/-- Card fault (R418). -/
def State.cardFault (s : State) : State :=
  if s.flag hostB FLT_CARD_CARD_FAULT then s
  else
    let tiles := sites.filter s.enabled
    let s := tiles.foldl State.holdTile (s.raise hostB FLT_CARD_CARD_FAULT)
    let s := s.haltAndCut 6 seamSrc 7 (List.range 64)
    (tiles.foldl (fun (a : State) t => a.resetTile t 1 3) s).emit seamSrc 0x068B []

/-! ### Measurements (R495, Table 18-4) -/

/-- The 32 bytes of a measurement register. -/
def State.meas (s : State) (i : Nat) : List Byte := (List.range 4).flatMap (fun j => leBytes 8 (s.word (secB + 0x100 + 32 * i + 8 * j)))
/-- Mi ← SHA3-256(Mi ∥ d). -/
def State.extendMeas (s : State) (i : Nat) (d : BitVec 256) : State :=
  let m := (Config.sha3 (s.meas i ++ leBytes 32 d.toNat)).toNat
  (upto 4 (fun j (a : State) => a.setWord (secB + 0x100 + 32 * i + 8 * j) (bitsOf m (64 * j) 64)) s).emit secSrc 0x080B [i]
/-- M1: the security state. -/
def State.measureSec (s : State) : State :=
  let l := [s.rd secB SEC_LC_STATE, s.rd secB SEC_DBG_LEVEL, s.rd secB SEC_DBG_TAINT, s.rd secB SEC_KEYS_REVOKED, s.rd secB SEC_KEYS_COUNTER,
    s.rd secB SEC_KEYS_BOOT_SLOT, s.rd secB SEC_KEYS_SVN]
  s.extendMeas 1 (Config.sha3 (l.map (BitVec.ofNat 8) ++ List.replicate 9 0))
/-- M3: the floor plan. -/
def State.measureFloor (s : State) : State :=
  let offs := [0x28, 0x30, 0x38] ++ (List.range 8).map (fun w => 0x100 + 8 * w) ++ (List.range 6).map (fun w => 0x200 + 8 * w) ++
    (List.range 768).map (fun w => 0x1000 + 8 * w)
  s.extendMeas 3 (Config.sha3 (offs.flatMap (fun o => leBytes 8 (s.word (cardB + o)))))

/-- The floor plan has changed (R476, R495). -/
def State.floorChanged (s : State) : State := (s.wr cardB FP_GEN_GEN (s.rd cardB FP_GEN_GEN + 1)).measureFloor

/-- A permanent fault of the seam link (R409). -/
def State.seamPermanent (s : State) : State :=
  let s := s.raise hostB FLT_BKT_SEAM_PERM
  if s.flag hostB FLT_BKT_SEAM_HALF then s.cardFault
  else
    let s := ((s.raise hostB FLT_BKT_SEAM_HALF).raise cardB FP_SEAM_HALF).raise seamB SEAM_STAT_HALF
    let s := ((s.raise seamB SEAM_STAT_HOLD).wr hostB FLT_BKT_SEAM_LEVEL 0).floorChanged
    ({ s with host := { s.host with seamTrip := false } } : State).emit seamSrc 0x068A []

/-- An error of the seam link (R407, R408). -/
def State.seamError (s : State) (weight : Nat) : State :=
  let l := satAdd 16 (s.rd hostB FLT_BKT_SEAM_LEVEL) weight
  let s := s.wr hostB FLT_BKT_SEAM_LEVEL l
  if s.rd hostB FLT_BKT_CTRL_TH ≤ l ∧ !s.host.seamTrip then
    (({ s with host := { s.host with seamTrip := true } } : State).emit seamSrc 0x0683 [l, weight]).seamPermanent
  else s

/-- An error of the host link (R407-R409). -/
def State.hostError (s : State) (weight : Nat) : State :=
  let l := satAdd 16 (s.rd hostB FLT_BKT_HOST_LEVEL) weight
  let s := s.wr hostB FLT_BKT_HOST_LEVEL l
  if s.rd hostB FLT_BKT_CTRL_TH ≤ l ∧ !s.host.hostTrip then
    (({ s with host := { s.host with hostTrip := true } } : State).raise hostB FLT_BKT_HOST_PERM).emit hostSrc 0x0683 [l, weight]
  else s

/-- SEAM_REPLAY (R404): each replay adds W_RP; a flit that its eighth replay does not repair is a permanent fault, unless the bucket's own crossing was one. -/
def execSeamReplay (replay : Nat) (fails : Bool) (sram : List SramErr) (s : State) : Res :=
  let s := s.sramErrs sram
  let n := max 1 (min 8 replay)
  let half := s.flag hostB FLT_BKT_SEAM_HALF
  let s := (s.sat seamB SEAM_ERR_CNT_REPLAYS 1).emit seamSrc 0x0689 [n]
  let s := s.seamError (s.rd hostB FLT_BKT_CTRL_W_RP)
  .next (if fails && decide (n = 8) && decide (s.flag hostB FLT_BKT_SEAM_HALF = half) then s.seamPermanent else s)

/-- SEAM_RETRAIN_COMPLETE (R409): held traffic resumes, or the fault at half width leads to card fault. -/
def execSeamRetrainComplete (ok : Bool) (s : State) : Res :=
  .next (if !s.flag seamB SEAM_STAT_HOLD then s
    else
      let s := s.clear seamB SEAM_STAT_HOLD
      if ok then ((s.sat seamB SEAM_ERR_CNT_RETRAINS 1).wr seamB SEAM_TRAIN_TSC_TSC s.tsc).wake
      else (s.clear seamB SEAM_STAT_UP).cardFault)

/-- HOST_LINK_REPLAY (R408): an FEC correction adds W_CE, a replay W_RP. -/
def execHostLinkReplay (fec : Bool) (sram : List SramErr) (s : State) : Res :=
  let s := s.sramErrs sram
  .next (s.hostError (if fec then s.rd hostB FLT_BKT_CTRL_W_CE else s.rd hostB FLT_BKT_CTRL_W_RP))

/-- A level falls by one at a leak tick. -/
def State.leak (s : State) (base : Nat) (f : Fld) : State := if s.rd base f = 0 then s else s.wr base f (s.rd base f - 1)

/-- LEAK_TICK (R407): pending FLT_BKT_CTRL values take effect and every bucket leaks. -/
def execLeakTick (s : State) : Res :=
  let s := s.effects hostB [FLT_BKT_CTRL_TH, FLT_BKT_CTRL_LEAK_US, FLT_BKT_CTRL_W_CE, FLT_BKT_CTRL_W_RP, FLT_BKT_CTRL_W_UE]
  let s := (List.range 384).foldl (fun (a : State) c => if a.retired c then a else a.leak (ccB c) CC_BKT_LEVEL) s
  .next ((s.leak hostB FLT_BKT_SEAM_LEVEL).leak hostB FLT_BKT_HOST_LEVEL)

end Sys2Proof.Machine
end

