-- ==== Sys2Proof/Machine/CcExec.lean ====
section
/-! DEFINITION. The meanings of the commands of channel controllers, bank sequencers and merge units: each always has a next state (R70-R169). -/

namespace Sys2Proof.Machine

/-- REQUEST_ACCEPT (R77). -/
def execRequestAccept (who : Requester) (dpa : Addr) (write : Option WriteData) (s : State) : Res := .next (requestAccept who dpa.toNat write s)
/-- REQUEST_ISSUE (R81), after the SRAM errors that it meets (R404). -/
def execRequestIssue (c : Chan) (strikes : List Strike) (sram : List SramErr) (s : State) : Res := .next (State.onward (requestIssue c.val strikes (s.sramErrs sram)))
/-- NEIGHBOUR_REFRESH (R93). -/
def execNeighbourRefresh (c : Chan) (s : State) : Res := .next (State.onward (neighbourRefresh c.val s))
/-- REF (R89). -/
def execRef (c : Chan) (s : State) : Res := .next (State.onward (refresh c.val s))
/-- PDE (R95). -/
def execPde (c : Chan) (sid : Fin 4) (s : State) : Res := .next (powerDown c.val sid.val s)
/-- ECC_WRITE_BACK (R97). -/
def execEccWriteBack (c : Chan) (strikes : List Strike) (s : State) : Res := .next (State.onward (eccWriteBack c.val strikes s))
/-- PATROL_SCRUB (R100). -/
def execPatrolScrub (c : Chan) (strikes : List Strike) (s : State) : Res := .next (State.onward (patrolScrub c.val strikes s))
/-- CRC_REPLAY (R103), after the SRAM errors that it meets (R404). -/
def execCrcReplay (c : Chan) (col : Nat) (write : Bool) (sram : List SramErr) (s : State) : Res := .next (State.onward (crcReplay c.val col write (s.sramErrs sram)))
/-- PASS_INSTRUCTION (R138). -/
def execPassInstruction (c : Chan) (t : TileId) (pkt : BitVec 512) (s : State) : Res := .next (passInstruction c.val t.toNat pkt s)
/-- PASS_GROUP_CLAIM (R82). -/
def execPassGroupClaim (c : Chan) (s : State) : Res := .next (State.onward (passGroupClaim c.val s))
/-- GEMV_PASS, KIND 1 (R151). -/
def execGemvPass (c : Chan) (unlockOk : Bool) (strikes : List Strike) (s : State) : Res := .next (State.onward (passRow 1 c.val unlockOk strikes s))
/-- SCORE_PASS, KIND 2 (R151). -/
def execScorePass (c : Chan) (unlockOk : Bool) (strikes : List Strike) (s : State) : Res := .next (State.onward (passRow 2 c.val unlockOk strikes s))
/-- VALUE_PASS, KIND 3 (R151). -/
def execValuePass (c : Chan) (unlockOk : Bool) (strikes : List Strike) (s : State) : Res := .next (State.onward (passRow 3 c.val unlockOk strikes s))
/-- COPY_PASS, KIND 4 (R119, R151). -/
def execCopyPass (c : Chan) (unlockOk : Bool) (strikes : List Strike) (s : State) : Res := .next (State.onward (passRow 4 c.val unlockOk strikes s))
/-- EXIT_PASS (R151). -/
def execExitPass (c : Chan) (s : State) : Res := .next (State.onward (exitPass c.val s))
/-- UNLOCK_RETRY (R148). -/
def execUnlockRetry (c : Chan) (ok : Bool) (s : State) : Res := .next (State.onward (unlockRetry c.val ok s))
/-- OPERAND_FETCH_RESPONSE (R139). -/
def execOperandFetchResponse (c : Chan) (s : State) : Res := .next (State.onward (operandFetchResponse c.val s))
/-- ROW_PERIOD_START (R152, R153). -/
def execRowPeriodStart (c : Chan) (split : Option Nat) (strikes : List Strike) (s : State) : Res := .next (State.onward (rowPeriodStart c.val split strikes s))
/-- RESERVED_COMMAND_WORD (R141, R142). -/
def execReservedCommandWord (c : Chan) (column : Bool) (word : BitVec 40) (s : State) : Res := .next (reservedCommandWord c.val column word.toNat s)
/-- MERGE_CONTRIBUTION (R160). -/
def execMergeContribution (k : Stack) (chan : Fin 32) (s : State) : Res := .next (State.onward (mergeContribution k.val chan.val s))
/-- MERGE_TIMEOUT (R164). -/
def execMergeTimeout (k : Stack) (d : Fin 16) (s : State) : Res := .next (mergeTimeout k.val d.val s)
/-- STATUS_CELL_WRITE (R165). -/
def execStatusCellWrite (k : Stack) (d : Fin 16) (s : State) : Res := .next (statusCellWrite k.val d.val s)
/-- RESULT_RETURN_DROPPED (R167). -/
def execResultReturnDropped (k : Stack) (d : Fin 16) (s : State) : Res := .next (resultReturnDropped k.val d.val s)

end Sys2Proof.Machine
end

