-- ==== Sys2Proof/Machine/Events.lean ====
section
/-! DEFINITION. Event rings, coalescing, the bring-up log and consistent cuts (R398, R419-R428, R461). -/

namespace Sys2Proof.Machine

/-! ### Records (R424, R425) -/

/-- Byte widths of an event's data fields, in the order of its table (R425); a register offset is relative to its block or window and takes 2 B (DEDUCED, log 62). -/
def eventWidths (code : Nat) : List Nat :=
  match code with
  | 0x0101 => [1, 1, 1, 1] | 0x0102 => [1, 1] | 0x0106 => [1, 1] | 0x0107 => [2, 1] | 0x0109 => [2, 1] | 0x010A => [2]
  | 0x0201 => [1, 1, 2, 4] | 0x0202 => [1, 2, 4, 4] | 0x0203 => [1, 2, 4] | 0x0204 => [1, 4, 1, 4] | 0x0205 => [1, 1, 2]
  | 0x0206 => [1, 4, 2, 8] | 0x0209 => [2]
  | 0x0301 => [2, 2, 1, 1, 1] | 0x0302 => [2, 2] | 0x0303 => [2] | 0x0320 => [1, 1, 1, 4, 4] | 0x0321 => [1, 2]
  | 0x0331 => [1, 4] | 0x0332 => [1, 1, 4] | 0x0341 => [1, 4] | 0x0342 => [4] | 0x0350 => [1, 1, 4] | 0x0351 => [1, 1, 1, 1, 1]
  | 0x0352 => [1, 1] | 0x0401 => [1, 8, 4] | 0x0402 => [1, 8, 4] | 0x0403 => [1, 4] | 0x0404 => [1, 4]
  | 0x0501 => [1, 1, 1, 1, 1] | 0x0502 => [1, 1] | 0x0503 => [1, 1, 1] | 0x0508 => [2] | 0x0541 => [2, 1] | 0x0542 => [2]
  | 0x0543 => [2, 1] | 0x0544 => [2, 2, 4] | 0x0545 => [2, 8] | 0x0546 => [2] | 0x0548 => [2] | 0x0550 => [1, 1, 1]
  | 0x0551 => [1, 1, 1] | 0x0552 => [1, 1, 1] | 0x0553 => [1, 2, 4] | 0x0555 => [2, 2]
  | 0x0601 => [8, 1] | 0x0602 => [8, 1] | 0x0603 => [8, 1] | 0x0604 => [8] | 0x0606 => [1, 1]
  | 0x0680 => [4, 1, 2, 1, 2, 1] | 0x0681 => [2, 1, 1, 4, 4, 1] | 0x0682 => [2, 1, 4, 1, 1, 2] | 0x0683 => [2, 2]
  | 0x0685 => [1, 1, 2] | 0x0686 => [2] | 0x0687 => [2] | 0x0688 => [1, 1] | 0x068C => [1, 2] | 0x068E => [1, 4] | 0x068F => [2]
  | 0x0701 => [1, 1] | 0x0702 => [8] | 0x0703 => [2] | 0x0704 => [2, 1] | 0x070F => [2] | 0x0710 => [1, 2] | 0x0711 => [1, 2]
  | 0x0712 => [1, 2] | 0x0713 => [1, 2, 2, 4, 1] | 0x0720 => [1, 2] | 0x0721 => [8] | 0x0722 => [2] | 0x0730 => [8] | 0x0731 => [1, 1]
  | 0x0801 => [1, 1] | 0x0806 => [1, 1] | 0x0807 => [1, 1, 1] | 0x0808 => [1, 1] | 0x0809 => [1, 1] | 0x080A => [1, 1, 1]
  | 0x0901 => [1, 2, 1, 1] | 0x0902 => [2, 1] | 0x0903 => [2, 1] | 0x0904 => [1, 1, 1] | 0x0907 => [1, 1] | 0x0908 => [2, 2]
  | 0x0909 => [1, 1, 2, 4] | 0x090A => [1, 1, 1]
  | _ => [1]

/-- Pack fields little-endian from the lowest byte. -/
def packFields : List Nat → List Nat → Nat
  | w :: ws, v :: vs => v % 2 ^ (8 * w) + packFields ws vs * 2 ^ (8 * w)
  | _, _ => 0

def Report.packed (r : Report) : Nat := packFields (eventWidths r.code) r.data

/-- Codes that their chapters mark as coalesced (R427). -/
def coalesces (code : Nat) : Bool :=
  [0x0106, 0x0107, 0x0204, 0x0331, 0x0332, 0x0341, 0x0342, 0x0350, 0x0401, 0x0402, 0x0403, 0x0404, 0x0503, 0x0553, 0x0601, 0x0688, 0x0689,
   0x068D, 0x0701, 0x0704, 0x0730].contains code

/-- A plain record of a report. -/
def EvRec.plain (tsc src code data : Nat) : EvRec := ⟨tsc, src, code, 1, data, false, false⟩

/-- The 32 bytes of a record with its lap parity (Table 15-6). -/
def EvRec.bytes (r : EvRec) (phase : Nat) : Nat :=
  r.tsc % 2 ^ 64 + (r.src + (if r.mixed then 2 ^ 13 else 0) + (if r.coal then 2 ^ 14 else 0) + phase * 2 ^ 15) * 2 ^ 64 + r.code * 2 ^ 80 +
    r.count * 2 ^ 96 + r.data % 2 ^ 128 * 2 ^ 128

/-! ### One event ring (R398, R427, R428) -/

def State.ev (s : State) (f : Nat) : EvSt := look (fun _ => EvSt.init) s.evs f
def State.setEv (s : State) (f : Nat) (v : EvSt) : State := { s with evs := put (fun _ => EvSt.init) s.evs f v }
def State.evSize (s : State) (f : Nat) : Nat := 2 ^ s.rd hostB (EVT_CFG_LOG2SIZE.at (0x20 * f))
def State.evOn (s : State) (f : Nat) : Bool := s.flag hostB (EVT_CFG_ENABLE.at (0x20 * f))
/-- Records that the ring has room for. -/
def State.evRoom (s : State) (f : Nat) : Nat :=
  let n := s.evSize f
  ((s.ev f).head % n + n - (s.ev f).count % n + n - 1) % n
/-- Records may be sent: the ring is enabled, the link is up and Bus Master Enable is 1 (R427). -/
def State.evLive (s : State) (f : Nat) : Bool := s.evOn f && s.hostLive f

/-- Write one record, with the event interrupt of R397. -/
def State.evWrite (s : State) (f : Nat) (r : EvRec) : State :=
  let n := s.evSize f
  let e := s.ev f
  let recent := if coalesces r.code then (r.src, r.code, s.tsc) :: e.recent.filter (fun k => !(decide (k.1 = r.src) && decide (k.2.1 = r.code))) else e.recent
  let s := s.hostBytes f (s.rd hostB (EVT_BASE_ADDR.at (0x20 * f)) * 4096 + 32 * (e.count % n)) 32 (r.bytes (1 - e.count / n % 2))
  let s := s.setEv f { e with count := e.count + 1, irqSent := true, recent := recent }
  if e.irqSent then s else s.msix f 0

/-- A coalescing entry as a record. -/
def CoalEntry.rec_ (c : CoalEntry) : EvRec := ⟨c.first, c.src, c.code, c.count, c.data % 2 ^ 64 + c.last % 2 ^ 64 * 2 ^ 64, true, c.mixed⟩

/-- One more occurrence in an entry. -/
def CoalEntry.join (c : CoalEntry) (tsc : Nat) (window mixed : Bool) : CoalEntry :=
  { c with count := min (2 ^ 32 - 1) (c.count + 1), last := tsc, window := c.window && window, mixed := c.mixed || mixed }

/-- Hold a report in a store of 256 entries (R427). -/
def holdReport (l : List CoalEntry) (tsc src code data : Nat) (window : Bool) : List CoalEntry :=
  let same := fun (c : CoalEntry) => decide (c.src = src) && decide (c.code = code)
  if l.any same then l.map (fun c => if same c then c.join tsc window false else c)
  else
    match (if 128 < l.length then l.findIdx? (fun c => decide (c.code = code)) else none) with
    | some i => l.modify i (fun c => c.join tsc window true)
    | none => l ++ [⟨src, code, 1, tsc, tsc, data, false, window⟩]

/-- Something waits for the ring to take records again. -/
def EvSt.waits (e : EvSt) : Bool := !e.cuts.isEmpty || e.coal.any (fun c => !c.window)

/-- A report reaches one event ring (R427). -/
def State.evReport (s : State) (f tsc src code data : Nat) : State :=
  let e := s.ev f
  let soon := coalesces code && e.recent.any (fun k => decide (k.1 = src ∧ k.2.1 = code) && decide (s.tsc < k.2.2 + 1000 * s.rd hostB FLT_CTRL_COAL_WIN))
  let stuck := !s.evLive f || e.waits || decide (s.evRoom f = 0)
  if stuck || soon then
    let full := s.evLive f && decide (s.evRoom f = 0) && e.roomOut.isNone && !e.told
    s.setEv f { e with coal := holdReport e.coal tsc src code data (!stuck), roomOut := if full then some s.tsc else e.roomOut }
  else s.evWrite f (.plain tsc src code data)

/-- Entries in the order in which they are written: first TSC, then source. -/
def entryBefore (a b : CoalEntry) : Bool := decide (a.first < b.first) || (decide (a.first = b.first) && decide (a.src ≤ b.src))
def insertEntry (c : CoalEntry) : List CoalEntry → List CoalEntry
  | [] => [c]
  | d :: r => if entryBefore c d then c :: d :: r else d :: insertEntry c r
def sortEntries (l : List CoalEntry) : List CoalEntry := l.foldr insertEntry []

/-- Write held entries while there is room. -/
def State.writeEntries (f : Nat) : List CoalEntry → State → State
  | [], s => s
  | c :: r, s =>
    if s.evRoom f = 0 then s
    else
      let e := s.ev f
      State.writeEntries f r ((s.setEv f { e with coal := e.coal.filter (fun d => decide (d ≠ c)) }).evWrite f c.rec_)

/-- A cut run has been written: its number is the latest, and the rings whose cut it is may resume (R422). -/
def State.cutWritten (s : State) (c : CutRun) : State :=
  (c.rings.foldl (fun (a : State) n => if (a.ring n).cutDue = .run c.num then a.setRing n { a.ring n with cutDue := .no } else a) s).wr hostB FLT_CUT_STAT_LAST c.num

/-- A run as its ring takes it: the header alone with OVER when the run exceeds the ring's size less 1 (R423). -/
def State.cutFor (s : State) (f : Nat) (l : List EvRec) : List EvRec :=
  if l.length ≤ s.evSize f - 1 then l
  else (l.take 1).map (fun h => { h with data := h.data + 2 ^ (8 * 10) })

/-- Write waiting cut runs, each whole, while they fit. -/
def State.writeCuts (f : Nat) : List CutRun → State → State
  | [], s => s
  | c :: r, s =>
    let run := s.cutFor f c.recs
    if s.evRoom f < run.length then s
    else
      let e := s.ev f
      let s := s.setEv f { e with cuts := e.cuts.filter (fun d => decide (d.num ≠ c.num)) }
      State.writeCuts f r ((run.foldl (fun (a : State) x => a.evWrite f x) s).cutWritten c)

/-- Reports held in a store: the occurrences that its entries count. -/
def EvSt.held (e : EvSt) : Nat := e.coal.foldl (fun n c => n + c.count) 0

/-- Event 0x0206, after a lack of room that began at `t`. -/
def State.roomAgain (s : State) (f t : Nat) : State :=
  let e := s.ev f
  (s.setEv f { e with roomOut := none, told := true }).evWrite f
    (.plain s.tsc ringSrc 0x0206 (packFields (eventWidths 0x0206) [f, e.held, e.coal.length, t]))

/-- Held reports find no room in a ring that could take them: the lack of room begins (R398, R428). -/
def State.lackRoom (s : State) (f : Nat) : State :=
  let e := s.ev f
  if e.roomOut.isNone && !e.told then s.setEv f { e with roomOut := some s.tsc } else s

/-- Write what the ring holds, while there is room (R428): after a lack of room event 0x0206 comes first, then the cut runs in the order of their triggers, then the held entries. A run that still waits is written without a second 0x0206 (DEDUCED, log 62). -/
def State.evFlush (s : State) (f : Nat) : State :=
  let e := s.ev f
  if !s.evLive f || !e.waits then s
  else if s.evRoom f = 0 then s.lackRoom f
  else
    let s := match e.roomOut with
      | some t => s.roomAgain f t
      | none => s
    let s := s.writeCuts f e.cuts
    let s := if (s.ev f).cuts.isEmpty then s.writeEntries f (sortEntries ((s.ev f).coal.filter (fun c => !c.window))) else s
    let e := s.ev f
    if !e.waits then s.setEv f { e with told := false }
    else if e.told && !e.cuts.isEmpty then s
    else s.setEv f { e with roomOut := some (e.roomOut.getD s.tsc), told := false }

/-! ### Routing (R426) and the bring-up log (R461) -/

/-- The partition that an event concerns: 0 for none. -/
def State.evOwner (s : State) (r : Report) : Nat :=
  if r.src < 512 then (if isSite r.src then s.tileOwner r.src else 0)
  else if r.src < 0x380 then s.stackOwner ((r.src - 0x200) / 32)
  else if r.src = ringSrc then
    if 0x0201 ≤ r.code ∧ r.code ≤ 0x0205 then s.ringOwner (r.data.headD 0)
    else if r.code = 0x0209 ∧ 0x4000 ≤ r.data.headD 0 ∧ r.data.headD 0 < 0x5000 then s.ringOwner ((r.data.headD 0 - 0x4000) / 0x40)
    else 0
  else 0

/-- The event rings of a report. -/
def State.evRings (s : State) (r : Report) : List Nat :=
  if r.src = hostSrc ∨ r.src = pwrSrc ∨ r.src = thermSrc then 0 :: ((List.range 9).filter (fun k => decide (k ≠ 0) && s.evOn k))
  else
    let k := s.evOwner r
    if k = 0 then [0] else [0, k]

/-- Before EV0 is first enabled after a card reset its reports go to the bring-up log (R461). -/
def State.logReport (s : State) (r : Report) : State :=
  let b := s.brup
  let s := s.clear cardB BRUP_LOG_STAT_WRITTEN
  if b.log.length < 256 then { s with brup := { b with log := b.log ++ [r] } }
  else { s with brup := { b with logCoal := holdReport b.logCoal r.tsc r.src r.code r.packed false } }

/-- Reports are taken in order of TSC, and of source number where it is equal (R8). -/
def Report.before (a b : Report) : Bool := decide (a.tsc < b.tsc ∨ (a.tsc = b.tsc ∧ a.src < b.src))
/-- The report that is taken next. -/
def State.nextReport (s : State) : Option Report :=
  match s.reports with
  | [] => none
  | r :: rest => some (rest.foldl (fun a b => if b.before a then b else a) r)

/-- The next report goes to its rings. -/
def State.deliver (s : State) : State :=
  match s.nextReport with
  | none => s
  | some r =>
    (s.evRings r).foldl (fun (a : State) f =>
      if f = 0 ∧ a.brup.logging then a.logReport r else a.evReport f r.tsc r.src r.code r.packed)
      { s with reports := s.reports.erase r }

/-- EVENT_REPORT (R424-R428). -/
def execEventReport (s : State) : Res := .next s.deliver

/-- An event ring is enabled at index 0; EV0's first enable after a card reset writes the bring-up log (R398, R428, R461), and then comes the event of a thermal or undervoltage shutdown (R452, R455). -/
def State.evEnable (s : State) (f : Nat) : State :=
  let e := s.ev f
  let s := s.raise hostB (EVT_CFG_ENABLE.at (0x20 * f))
  let first := ((sortEntries (e.coal.filter (fun c => !c.window))).head?).map (·.first) <|> ((e.cuts.head?).bind (fun c => c.recs.head?)).map (·.tsc)
  let s := s.setEv f { e with count := 0, head := 0, irqSent := false, roomOut := first, told := false, recent := [] }
  if f = 0 ∧ s.brup.logging then
    let s := s.raise cardB BRUP_LOG_STAT_WRITTEN
    let log := s.brup.log
    let coal := s.brup.logCoal
    let s := { s with brup := { s.brup with logging := false, log := [], logCoal := [] } }
    let s := log.foldl (fun (a : State) r => a.evReport 0 r.tsc r.src r.code r.packed) s
    let s := (s.setEv 0 { s.ev 0 with coal := (s.ev 0).coal ++ coal }).evFlush 0
    match s.therm.note with
    | some r => { s with therm := { s.therm with note := none }, reports := s.reports ++ [{ r with tsc := s.tsc }] }
    | none => s
  else s.evFlush f

/-- COALESCE_WINDOW_END (R427, R428): an entry held only by COAL_WIN is written. -/
def execCoalesceWindowEnd (r : Fin 9) (source code : Nat) (s : State) : Res :=
  .next (let f := r.val
    let e := s.ev f
    match e.coal.find? (fun c => decide (c.src = source ∧ c.code = code) && c.window) with
    | none => s
    | some c =>
      if s.evLive f && decide (0 < s.evRoom f) && !e.waits then
        (s.setEv f { e with coal := e.coal.filter (fun d => decide (d ≠ c)) }).evWrite f c.rec_
      else
        let s := s.setEv f { e with coal := e.coal.map (fun d => if d = c then { d with window := false } else d) }
        if s.evLive f && decide (s.evRoom f = 0) then s.lackRoom f else s)

/-- An event-head doorbell of `size` bytes (R388, R398). -/
def State.headBell (s : State) (f size data : Nat) : State :=
  let h := bitsOf data 0 16
  if size ≠ 8 ∨ s.evSize f ≤ h then s.ignoreBell
  else (s.setEv f { s.ev f with head := h, irqSent := false }).evFlush f

/-- A BAR2 write of `f` in a doorbell page (R388): offsets 0x000 and 0xFF8 are doorbells, every other one is ignored without a count. In D3hot no BAR access is taken (R507). -/
def State.bar2Write (s : State) (f page off size data : Nat) : State :=
  if 64 ≤ page ∨ s.host.d3hot then s
  else if off = 0 then s.submitBell f page size data
  else if off = 0xFF8 then s.headBell f size data
  else s

/-- SUBMISSION_DOORBELL (R382, R388, R389): a write at an offset of the doorbell page of a ring. -/
def execSubmissionDoorbell (f : FnId) (place : BellPlace) (size : Nat) (data : Word) (s : State) : Res :=
  .next (s.bar2Write f.val place.page place.off size data.toNat)

/-- EVENT_HEAD_DOORBELL (R398): from any doorbell page of the function. -/
def execEventHeadDoorbell (f : FnId) (page size : Nat) (data : Word) (s : State) : Res :=
  .next (s.bar2Write f.val page 0xFF8 size data.toNat)

/-! ### Consistent cuts (R419-R423) -/

/-- A started, incomplete descriptor is stopped: its tile is in reset, or faulted and quiescent (R419). -/
def State.stopped (s : State) (l : Live) : Bool :=
  let t := Desc.tile l.desc
  decide (Desc.ty l.desc = 1) && ((s.tile t).inReset || (s.faulted t && (s.tile t).quiet))

/-- Every started descriptor of the ring is complete or stopped. -/
def State.ringSettled (s : State) (n : Nat) : Bool := (s.ring n).live.all (fun l => l.done.isSome || s.stopped l)

/-- Count of the last descriptor such that every one through it is complete, plus 1; not beyond DONE after a link-down event (R420, R421). -/
def State.cutFrom (s : State) (n : Nat) : Nat :=
  let r := s.ring n
  let c := match r.live.find? (fun l => l.done.isNone) with | some l => l.count | none => r.startAt
  if r.cause = 5 then min c r.sentAt else c

/-- The records of one ring (Table 15-5), and whether a descriptor still runs. -/
def State.ringCut (s : State) (num n : Nat) : List EvRec × Bool :=
  let r := s.ring n
  let open_ := r.live.filter (fun l => l.done.isNone)
  let f := (s.seqOf n (s.cutFrom n) + 2 ^ 32 - 1) % 2 ^ 32
  let mk := fun (code : Nat) (d : List Nat) => EvRec.plain s.tsc ringSrc code (packFields (eventWidths code) d)
  (mk 0x0681 [num, n, r.cause, f, s.ringNext n, open_.length] ::
    open_.map (fun l => mk 0x0682 [num, n, s.seqOf n l.count, Desc.ty l.desc, if s.stopped l then 1 else 2, if Desc.ty l.desc = 1 then Desc.tile l.desc else 0]),
   open_.any (fun l => !s.stopped l))

/-- The whole run of a cut (R423). -/
def State.cutRecs (s : State) (num : Nat) (c : Cut) : List EvRec :=
  let parts := c.rings.map (s.ringCut num)
  let body := parts.flatMap (·.1)
  let flags := if parts.any (·.2) then 2 else 0
  EvRec.plain s.tsc ringSrc 0x0680 (packFields (eventWidths 0x0680) [num, c.trigger, c.source, c.rings.length, body.length - c.rings.length, flags]) :: body

/-- A run takes its place among those that wait, in the order of the triggers (R428). -/
def insertRun (r : CutRun) : List CutRun → List CutRun
  | [] => [r]
  | c :: l => if r.ord < c.ord then r :: c :: l else c :: insertRun r l

/-- The next report comes before records of the ring engine that are made now (R8). -/
def State.deliverOlder (s : State) : State :=
  match s.nextReport with
  | some r => if r.tsc < s.tsc ∨ (r.tsc = s.tsc ∧ r.src ≤ ringSrc) then s.deliver else s
  | none => s

/-- Publish a cut: its run goes to EV0 and to its owner's ring, behind the reports that come before it (R8, R418, R421). -/
def State.publish (s : State) (c : Cut) : State :=
  let s := upto s.reports.length (fun _ (a : State) => a.deliverOlder) s
  let num := s.cutNo + 1
  let recs := s.cutRecs num c
  let s := { s with cutNo := num, cuts := s.cuts.erase c }
  -- a ring that a later trigger has halted again waits for that trigger's cut (R422)
  let s := c.rings.foldl (fun (a : State) n =>
    if (a.ring n).cutDue = .unpublished ∧ !a.cuts.any (fun d => d.rings.contains n) then a.setRing n { a.ring n with cutDue := .run num } else a) s
  (if c.owner = 0 then [0] else [0, c.owner]).foldl (fun (a : State) f =>
    let e := a.ev f
    let run : CutRun := ⟨num, c.ord, c.rings, recs⟩
    let lack := if e.roomOut.isNone && a.evLive f && !e.waits && decide (a.evRoom f < (a.cutFor f recs).length) then some a.tsc else e.roomOut
    let direct := !e.waits
    let a := a.setEv f { e with cuts := insertRun run e.cuts, roomOut := lack }
    if direct && lack.isNone then a.evFlush f else a) s

/-- A cut may be published: its rings have settled and, after a link-down event, the link is back (R419, R421). -/
def State.cutReady (s : State) (c : Cut) : Bool := (decide (c.trigger ≠ 5) || s.dlUp) && c.rings.all s.ringSettled

/-- CONSISTENT_CUT (R419): the oldest cut that may be published. -/
def execConsistentCut (s : State) : Res :=
  .next (match s.cuts.find? s.cutReady with
    | some c => s.publish c
    | none => s)

/-- CUT_WAIT_EXPIRE (R419): the oldest waiting cut is published as its descriptors stand. -/
def execCutWaitExpire (s : State) : Res :=
  .next (match s.cuts.find? (fun c => decide (c.trigger ≠ 5) || s.dlUp) with
    | some c => s.publish c
    | none => s)

end Sys2Proof.Machine
end

