-- ==== Sys2Proof/Machine/Formats.lean ====
section
/-! DEFINITION. Layouts of the byte strings that arrive from outside: firmware images, signed commands, SMBus writes (R486, R488, R503, R526). -/

namespace Sys2Proof

open Sys2Proof.Machine (leNat upto)

/-- The identity key exists: IDSEED is programmed and IDKILL is 0 (R486, R498). -/
def FactoryParts.idKey (p : FactoryParts) : Bool := decide (p.idSeed ≠ 0 ∧ p.idKill = 0)

/-! ### Firmware images (Table 18-2) -/

/-- The little-endian number in `n` bytes of an image from byte `b`. -/
def Image.at_ (i : Image) (b n : Nat) : Nat := leNat ((i.bytes.drop b).take n)
def Image.keySlot (i : Image) : Nat := i.at_ 6 1
def Image.rollFwd (i : Image) : Bool := decide (i.at_ 7 1 = 1)
def Image.svn (i : Image) : Nat := i.at_ 8 1
def Image.imgLen (i : Image) : Nat := i.at_ 12 4
def Image.spawnOff (i : Image) : Nat := i.at_ 16 4
def Image.spawnLen (i : Image) : Nat := i.at_ 20 4
def Image.digest (i : Image) : BitVec 256 := BitVec.ofNat 256 (i.at_ 24 32)
/-- Bytes 0-1,375, which the signature covers. -/
def Image.header (i : Image) : List Byte := i.bytes.take 1376
def Image.pubkey (i : Image) : List Byte := (i.bytes.drop 64).take 1312
def Image.sig (i : Image) : List Byte := (i.bytes.drop 1376).take 2420
def Image.body (i : Image) : List Byte := (i.bytes.drop 4096).take i.imgLen

/-- MAGIC, HDR_VER, reserved fields and lengths of the header hold (Table 18-2); a KEY_SLOT above 3 is no slot. -/
def Image.wellFormed (i : Image) : Bool :=
  decide (i.at_ 0 4 = 0x64120F1E ∧ i.at_ 4 2 = 1 ∧ i.keySlot ≤ 3 ∧ i.at_ 7 1 ≤ 1 ∧ i.at_ 9 3 = 0 ∧ i.at_ 56 8 = 0 ∧ i.at_ 3796 300 = 0) &&
    decide (i.imgLen ≤ 8388608 ∧ i.spawnOff + i.spawnLen ≤ i.imgLen)

/-! ### Signed commands (Table 18-8) -/

/-- The little-endian number in `n` bytes of a signed command from byte `b` (Table 18-8). -/
def SignedCmd.at_ (c : SignedCmd) (b n : Nat) : Nat := leNat ((c.bytes.drop b).take n)
def SignedCmd.kind (c : SignedCmd) : Nat := c.at_ 4 1
def SignedCmd.keySlot (c : SignedCmd) : Nat := c.at_ 5 1
def SignedCmd.value (c : SignedCmd) : Nat := c.at_ 6 1
def SignedCmd.serial (c : SignedCmd) : Nat := c.at_ 8 8
def SignedCmd.nonce (c : SignedCmd) : BitVec 256 := BitVec.ofNat 256 (c.at_ 16 32)
/-- Bytes 0-1,375, which the signature covers. -/
def SignedCmd.head (c : SignedCmd) : List Byte := c.bytes.take 1376
def SignedCmd.pubkey (c : SignedCmd) : List Byte := (c.bytes.drop 64).take 1312
def SignedCmd.sig (c : SignedCmd) : List Byte := (c.bytes.drop 1376).take 2420

/-! ### SMBus packet error codes (R526) -/

/-- One bit step of the SMBus packet error code, x^8 + x^2 + x + 1 (PRESUMED, log 21). -/
def crcStep (c : Nat) : Nat := if 128 ≤ c then (2 * c % 256) ^^^ 7 else 2 * c
/-- The packet error code of a message's bytes. -/
def crc8 (l : List Byte) : Byte := BitVec.ofNat 8 (l.foldl (fun c b => upto 8 (fun _ x => crcStep x) (c ^^^ b.toNat)) 0)

/-- The PEC of a block write is right; without one it is right unless the command requires it. -/
def SmbusWrite.pecOk (x : SmbusWrite) (code : Nat) (required : Bool) : Bool :=
  match x.pec with
  | none => !required
  | some p => decide (p = crc8 ([0x94, BitVec.ofNat 8 code, BitVec.ofNat 8 x.data.length] ++ x.data))

/-- The PEC of a write of one byte, which carries no count. -/
def SmbusWrite.pageOk (x : SmbusWrite) (code : Nat) : Bool :=
  match x.pec with
  | none => true
  | some p => decide (p = crc8 ([0x94, BitVec.ofNat 8 code] ++ x.data))

end Sys2Proof
end

