-- ==== Sys2Proof/Machine/Molt.lean ====
section
/-! DEFINITION. Molt: retiring a channel (R410-R415, Table 15-3). -/

namespace Sys2Proof.Machine

/-- A command that drains the computing group. -/
def PCmd.drains : PCmd → Bool
  | .drn => true
  | .cmp _ _ _ _ _ _ dl => dl
  | _ => false

/-- The active pass stops: its open row is closed, and a drain it has not reached is stood in for (R140, R411). -/
def State.stopPass (s : State) (c : Nat) : State :=
  match (s.cc c).active with
  | none => s
  | some a =>
    let g := pG a.req.pkt
    let tag := pTag a.req.pkt
    let s := if (List.range 64).any (fun p => (s.eng (engIdx c g p)).isOpen) then s.trace c (some tag) (rowPrea g) 0 else s
    let s := if (s.cc c).panic then s.panicEnd c tag else s
    if a.todo.any PCmd.drains then s.standIn c a.req else s

/-- Molt step 1 (Table 15-3): quiesce. -/
def State.quiesce (s : State) (c : Nat) : State :=
  let b := s.bd (c / 32)
  let s := s.setBd (c / 32) { b with arrived := b.arrived.map (fun x => if x.chan = c % 32 then { x with standIn := true, units := [] } else x) }
  let s := s.stopPass c
  let k := s.cc c
  let s := s.setCc c { k with queue := [], ingress := [], claimAt := none, pim := false }
  let s := (k.queue ++ k.ingress).foldl (fun (a : State) r => (a.emit (ccSrc c) 0x0546 [pTag r.pkt]).standIn c r) s
  let s := if k.active.isSome then s.release c else s
  (List.range 128).foldl (fun (a : State) p => a.setEng (128 * c + p) EngSt.blank) s

/-- Molt step 3: CC_STATUS.RETIRED; refresh and maintenance of the channel stop (R412). -/
def State.retire (s : State) (c : Nat) : State :=
  let s := (s.raise (ccB c) CC_STATUS_RETIRED).setCc c { s.cc c with maint := [], waiting := [], rows := [], dist := [], refresh := false }
  s.wr hostB FLT_MOLT_STAT_RETIRED (s.rd hostB FLT_MOLT_STAT_RETIRED + 1)

/-- The floor plan marks the channel retired. -/
def State.markRetired (s : State) (c : Nat) : State :=
  let f := FP_CHAN_RETIRED.at (8 * (c / 64))
  (s.wr cardB f (s.rd cardB f ||| 2 ^ (c % 64))).wr cardB FP_COUNTS_CHAN_RET (s.rd cardB FP_COUNTS_CHAN_RET + 1)
/-- Event 0x0685. -/
def State.reportRetired (s : State) (c : Nat) : State := s.emit (ccSrc c) 0x0685 [c / 32, c % 32, s.rd hostB FLT_MOLT_STAT_RETIRED]
/-- A non-volatile operation is requested (R493). -/
def State.askNv (s : State) (o : NvOp) : State := { s with brup := { s.brup with nv := s.brup.nv ++ [o] } }

/-- Every tile's read cache is invalidated (R206), and so are its prefetched lines, so that no later read sees data from before (R205, R412, R413). -/
def State.dropCaches (s : State) : State := s.tileKeys.foldl State.invalidate s

/-- The lines of the ownership directory that lie in a channel. -/
def State.dirLines (s : State) (c : Nat) : List Nat := s.host.dir.filter (fun l => decide (keyChan (64 * l) = c))

/-- Steps 3 to 5, once no line of the channel is owned by a host cache. -/
def State.moltEnd (s : State) (c : Nat) : State :=
  let s := (s.retire c).dropCaches
  let s := s.haltAndCut 2 (ccSrc c) 7 ((List.range 64).filter (fun n => decide (s.ringOwner n = s.stackOwner (c / 32))))
  let s := ((s.markRetired c).floorChanged.reportRetired c).askNv (.commit c false)
  ((s.clear hostB FLT_MOLT_STAT_BUSY).wr hostB FLT_MOLT_STAT_ACTIVE 0).wake

/-- The running Molt goes on: it asks for the lines still owned by a host cache, or ends; a host that cannot be asked holds none. -/
def State.moltGo (s : State) : State :=
  if !s.flag hostB FLT_MOLT_STAT_BUSY then s
  else
    let c := s.rd hostB FLT_MOLT_STAT_ACTIVE
    let l := s.dirLines c
    if l.isEmpty then s.moltEnd c
    else if s.canSnoop then l.foldl (fun (a : State) n => if a.host.snoops.any (fun q => decide (q.line = n)) then a else a.askSnoop n true []) s
    else (l.foldl State.leaveDir s).moltEnd c

/-- MOLT (R410, R411): the next waiting Molt runs, up to the host's answers where it needs any. -/
def execMolt (s : State) : Res :=
  .next (if s.flag hostB FLT_MOLT_STAT_BUSY then s.moltGo
    else
      match s.molt.queue with
      | [] => s
      | m :: r =>
        let s := { s with molt := { s.molt with queue := r } }
        let s := ((s.raise hostB FLT_MOLT_STAT_BUSY).wr hostB FLT_MOLT_STAT_ACTIVE m.chan).emit (ccSrc m.chan) 0x0684 [m.cause]
        ((s.quiesce m.chan).flushPool m.chan (fun _ => true)).moltGo)

/-- A molt at birth (R468): steps 3 and 5, with events 0x0684 and 0x0902; `why` is 1 recorded, 2 loopback failed, 3 stack absent. A recorded one needs no commit. -/
def State.moltAtBirth (s : State) (c why : Nat) : State :=
  if s.retired c then s
  else
    let s := ((((s.emit (ccSrc c) 0x0684 [3]).retire c).markRetired c).reportRetired c).emit felvikSrc 0x0902 [c, why]
    if why = 1 then s else s.askNv (.commit c false)

/-- FLT_MOLT_STAT with the number of requests that wait. -/
def State.moltStat (s : State) : Nat := setBits (s.word (hostB + FLT_MOLT_STAT_BUSY.off)) FLT_MOLT_STAT_QUEUED.lo FLT_MOLT_STAT_QUEUED.w s.molt.queue.length

/-- A flash commit of a retirement is held and has been reported (R414). -/
def NvOp.isHeld : NvOp → Bool
  | .commit _ told => told
  | _ => false

/-- The retirement record of a channel is written; `rest` are the operations that still wait. -/
def State.commitRetired (s : State) (c : Nat) (rest : List NvOp) : State :=
  let s := { s with brup := { s.brup with nv := rest, parts := { s.brup.parts with retired := s.brup.parts.retired ++ [c] } } }
  (s.wr hostB FLT_MOLT_STAT_HELD (if rest.any NvOp.isHeld then 1 else 0)).emit felvikSrc 0x0687 [c]

/-- The first commit that the lockout holds and that is not reported yet. -/
def State.nextHeld (s : State) : Option Nat :=
  s.brup.nv.findSome? (fun o => match o with | .commit c told => if told then none else some c | _ => none)

/-- MOLT_COMMIT (R411 step 5, R414): the oldest record is written, unless the supply-sag lockout holds it. -/
def execMoltCommit (s : State) : Res :=
  .next (if s.flag pwrB SUPPLY_STAT_LOCKOUT then
      match s.nextHeld with
      | some c =>
        let s := { s with brup := { s.brup with nv := s.brup.nv.map (fun o => if o = NvOp.commit c false then NvOp.commit c true else o) } }
        (s.raise hostB FLT_MOLT_STAT_HELD).emit felvikSrc 0x0686 [c]
      | none => s
    else
      match s.brup.nv with
      | .commit c _ :: r => s.commitRetired c r
      | _ => s)

end Sys2Proof.Machine
end

