-- ==== Sys2Proof/Machine/Streams.lean ====
section
/-! DEFINITION. Stream records, the stream buffer, the Tadpole's split, instruction-memory loads and queue barriers (R230-R241, R254-R257). -/

namespace Sys2Proof.Machine

/-- Lines of a record (R230). -/
def SRec.lineCount (r : SRec) : Nat := (r.len + 63) / 64

/-- The boundary "start of next stream record" of TILE_SF_CTRL (Table 8-10). -/
def State.startRecord (s : State) (t : Nat) : State := s.effects (tileB t) [TILE_SF_CTRL_ENABLE, TILE_SF_CTRL_SPEC, TILE_SF_CTRL_DEPTH]

/-! ### Records and lines (R230-R234) -/

/-- Predictions that no record uses: their requests are discarded; those that have arrived count as UNUSED (R233, R224). -/
def Tile.discard (x : Tile) (l : List PLine) : Tile × Nat :=
  ({ x with reqs := x.reqs.map (fun q => if (l.map (fun p => SReq.pred p.addr)).contains q.what then q.drop else q) },
   (l.filter (fun p => p.data.isSome)).length)

/-- Predicted lines that match line `i` of a record and its later ones become its lines, but for those that failed. -/
def Tile.usePredictions (x : Tile) (r : SRec) : Nat → List PLine → Tile × Nat
  | _, [] => (x, 0)
  | i, p :: ps =>
    if p.addr = r.haddr + 64 * i ∧ i < r.lineCount then
      let x := if p.lost then x
        else { x with lines := x.lines ++ [(⟨r.serial, i, p.data.map some, false⟩ : SLine)],
                      reqs := x.reqs.map (fun q => if q.what = SReq.pred p.addr then { q with what := SReq.line r.serial i } else q) }
      x.usePredictions r (i + 1) ps
    else x.discard (p :: ps)

/-- The predicted lines that match the first lines of a new record are used, and every other one is discarded (R233). -/
def Tile.takePredictions (x : Tile) (r : SRec) : Tile × Nat :=
  let before := x.preds.takeWhile (fun p => decide (p.addr ≠ r.haddr))
  let (y, n) := ({ x with preds := [] } : Tile).discard before
  let (y, m) := y.usePredictions r 0 (x.preds.drop before.length)
  (y, n + m)

/-- STREAM_RECORD (R230): the oldest record on its way to the tile takes a slot. -/
def streamRecord (t : Nat) (s : State) : State :=
  match s.recsOut.find? (fun r => decide (r.1 = t)) with
  | none => s
  | some (_, r) =>
    let x := s.tile t
    if !s.tileUp t || decide (8 ≤ x.recs.length) then s
    else
      let r := { r with serial := x.serial + 1 }
      let fresh := x.current.isNone
      let (x, unused) := ({ x with serial := x.serial + 1, recs := x.recs ++ [r] } : Tile).takePredictions r
      let s := { s with recsOut := s.recsOut.eraseP (fun r => decide (r.1 = t)) }
      let s := s.setTile t x
      let s := if unused = 0 then s else s.countT t (TILE_PFS_COUNT.at 0x18) unused
      if fresh then s.startRecord t else s

/-- The next line of a record that has not been requested. -/
def Tile.nextLine (x : Tile) (r : SRec) : Option Nat :=
  if r.split then none
  else
    let held := (x.lines.filter (fun l => decide (l.stream = r.serial))).map (·.idx)
    let first := if x.current.map (·.serial) = some r.serial then x.pos / 64 else 0
    ((List.range (held.length + 1)).map (· + first)).find? (fun i => decide (i < r.lineCount) && !held.contains i)

/-- The next line of the queued records to request. -/
def Tile.nextRequest (x : Tile) : Option (SRec × Nat) :=
  x.recs.findSome? (fun r => (x.nextLine r).map (fun i => (r, i)))

/-- Four bytes of a record: none when their line is not there, `some none` when it is unreadable. -/
def Tile.u32 (x : Tile) (serial pos : Nat) : Option (Option Nat) :=
  match x.lines.find? (fun l => decide (l.stream = serial ∧ l.idx = pos / 64)) with
  | some ⟨_, _, some (some c), _⟩ =>
    match (if pos % 64 < 32 then c.lo else c.hi) with
    | some v => some (some (bitsOf v.toNat (8 * (pos % 32)) 32))
    | none => some none
  | some ⟨_, _, some none, _⟩ => some none
  | _ => none

/-- What the Tadpole finds at its position. -/
inductive Parsed where
  | need (idx : Nat)
  | fault (cause : Nat)
  | bundle (mask : Nat) (barrier : Bool) (ops : List (Nat × OpWord)) (fin : Nat)
  | load (word payload fin : Nat)
  deriving DecidableEq, Repr

/-- Read words of four bytes from `pos`, low word first. -/
def Tile.readWords (x : Tile) (serial : Nat) : Nat → Nat → Sum Parsed Nat
  | _, 0 => .inr 0
  | pos, n + 1 =>
    match x.u32 serial pos with
    | none => .inl (.need (pos / 64))
    | some none => .inl (.fault 4)
    | some (some v) =>
      match x.readWords serial (pos + 4) n with
      | .inl p => .inl p
      | .inr r => .inr (v + r * 2 ^ 32)

/-- A header rule of Table 8-1 is broken (R238). -/
def headerBad (h : Nat) : Bool :=
  let slots := bitsOf h 0 4
  let ext := bitsOf h 4 4
  let mask := bitsOf h 8 4
  let top := bitsOf h 12 4
  decide (ext &&& slots ≠ ext) || decide (2 < top) || decide ((mask ≠ 0) ≠ (top = 1)) || decide (top = 2 ∧ slots ≠ 0) ||
    decide (bitsOf h 16 12 ≠ 0)

/-- The operations of a bundle in ascending engine order (R236). -/
def Tile.readSlots (x : Tile) (serial h : Nat) : List Nat → Nat → Sum Parsed (List (Nat × OpWord))
  | [], _ => .inr []
  | e :: es, pos =>
    if !bit h e then x.readSlots serial h es pos
    else
      let words := if bit h (4 + e) then 4 else 2
      match x.readWords serial pos words with
      | .inl p => .inl p
      | .inr v =>
        let w : OpWord := ⟨BitVec.ofNat 64 v, if words = 4 then some (BitVec.ofNat 64 (v / 2 ^ 64)) else none⟩
        match x.readSlots serial h es (pos + 4 * words) with
        | .inl p => .inl p
        | .inr l => .inr ((e, w) :: l)

/-- Parse the bundle at the Tadpole's position (R238). -/
def Tile.parse (x : Tile) (r : SRec) : Parsed :=
  match x.readWords r.serial x.pos 1 with
  | .inl p => p
  | .inr h =>
    if bitsOf h 28 4 ≠ 0xB then .fault 1
    else if headerBad h then .fault 2
    else if bitsOf h 12 4 = 2 then
      if r.len < x.pos + 12 then .fault 3
      else
        match x.readWords r.serial (x.pos + 4) 2 with
        | .inl p => p
        | .inr w =>
          let fin := x.pos + 12 + 64 * (bitsOf w 12 6 + 1)
          if r.len < fin then .fault 3
          else if 2 ^ 18 ≤ w ∨ 64 ≤ bitsOf w 6 6 + bitsOf w 12 6 then .fault 15
          else .load w (x.pos + 12) fin
    else
      let fin := x.pos + 4 + 8 * popcount 4 (bitsOf h 0 4) + 8 * popcount 4 (bitsOf h 4 4)
      if r.len < fin then .fault 3
      else
        match x.readSlots r.serial h [0, 1, 2, 3] (x.pos + 4) with
        | .inl p => p
        | .inr ops => .bundle (bitsOf h 8 4) (decide (bitsOf h 12 4 = 1)) ops fin

/-- The Tadpole needs a line that is not there. -/
def Tile.needsLine (x : Tile) : Option Nat :=
  match x.current with
  | none => none
  | some r =>
    match x.load with
    | some l =>
      match x.readWords r.serial l.fromPos (16 * (l.lines + 1)) with
      | .inl (.need i) => some i
      | _ => none
    | none => match x.parse r with | .need i => some i | _ => none

/-- Outstanding line requests that have not been discarded. -/
def Tile.outstanding (x : Tile) : Nat := (x.reqs.filter (fun q => decide (q.what = q.what.drop) = false)).length

/-- Buffer lines held: those of the records and the predicted ones, each from its request on (R232, R265; DESIGN CHOICE, log 74). -/
def Tile.linesHeld (x : Tile) : Nat := x.lines.length + (x.preds.filter (fun p => !p.lost)).length
/-- A buffer line is free (R232). -/
def Tile.lineFree (x : Tile) : Bool := decide (x.linesHeld < 1024)

/-- A line request of a stream of ring `n` leaves the card under the owner's requester ID (R382); while that function may not send, no tag or read unit is free, or the seam link holds the way of C1's tiles to the host, it is not made (R18, R364, R374). -/
def State.sendLine (s : State) (t n addr : Nat) (what : SReq) (f : Tile → Tile) : State :=
  if !s.hostLive (s.ringOwner n) || !s.host.waiting.isEmpty || !s.mayRead 1 || s.seamHeld (tileDie t) 0 then s
  else
    let tag := s.freeTag
    let s := s.modTile t (fun x => { f x with reqs := x.reqs ++ [⟨tag, s.ringOwner n, what⟩], dldDone := false })
    let s := s.send (.hostRead (s.ringOwner n) tag addr 64)
    if s.flag (tileB t) TILE_SF_CTRL_ENABLE then s.countT t TILE_PFS_COUNT 1 else s

/-- Line `i` of a record is requested (R233, R385). -/
def State.requestLine (s : State) (t : Nat) (r : SRec) (i : Nat) : State :=
  s.sendLine t r.ring (r.haddr + 64 * i) (.line r.serial i) (fun x => { x with lines := x.lines ++ [⟨r.serial, i, none, false⟩] })

/-- STREAM_FETCH_REQUEST (R233). -/
def streamFetchRequest (t : Nat) (s : State) : State :=
  let x := s.tile t
  if !s.tileUp t || !x.lineFree then s
  else if s.flag (tileB t) TILE_SF_CTRL_ENABLE then
    if s.rd (tileB t) TILE_SF_CTRL_DEPTH ≤ x.outstanding then s
    else
      match x.nextRequest with
      | some (r, i) => s.requestLine t r i
      | none =>
        match x.recs.getLast? with
        | some r =>
          if !s.flag (tileB t) TILE_SF_CTRL_SPEC then s
          else
            let final := r.haddr + 64 * (r.lineCount - 1)
            let a := final + 64 * (x.preds.length + 1)
            if a / 4096 = final / 4096 then s.sendLine t r.ring a (.pred a) (fun x => { x with preds := x.preds ++ [⟨a, none, false⟩] })
            else s.countT t (TILE_PFS_COUNT.at 0x20) 1
        | none => s
  else
    match x.needsLine, x.nextRequest with
    | some _, some (r, i) => if x.outstanding = 0 then s.requestLine t r i else s
    | _, _ => s

/-- Both units of a returned line are clean. -/
def cleanLine (d : Option Cell64) : Option Cell64 :=
  match d with
  | some c => if c.lo.isSome && c.hi.isSome then some c else none
  | none => none

/-- The request of a tile that holds a tag. -/
def Tile.reqOf (x : Tile) (tag : Nat) : Option SRead := x.reqs.find? (fun (q : SRead) => decide (q.tag = tag))

/-- STREAM_LINE_RETURN (R232-R234): the request of a tag is answered; lines return in any order. -/
def streamLineReturn (t tag : Nat) (data : Option Cell64) (s : State) : State :=
  let x := s.tile t
  let y := { x with reqs := x.reqs.eraseP (fun q => decide (q.tag = tag)) }
  match x.reqOf tag with
  | none => s
  | some ⟨_, _, .dead _⟩ => (s.setTile t y).countT t (TILE_PFS_COUNT.at 0x18) 1
  | some ⟨_, _, .pred a⟩ =>
    match cleanLine data with
    | some c => s.setTile t { y with preds := x.preds.map (fun p => if p.addr = a then { p with data := some c } else p) }
    | none => (s.setTile t { y with preds := x.preds.map (fun p => if p.addr = a then { p with lost := true } else p) }).countT t (TILE_PFS_COUNT.at 0x18) 1
  | some ⟨_, _, .line st i⟩ =>
    s.setTile t { y with lines := x.lines.map (fun l => if l.stream = st ∧ l.idx = i then { l with data := some (cleanLine data) } else l) }

/-! ### The split (R239-R241) -/

/-- The Tadpole waits for a line in flight: a late prefetch is counted once (R224). -/
def State.markLate (s : State) (t serial idx : Nat) : State :=
  let x := s.tile t
  if x.lines.any (fun l => decide (l.stream = serial ∧ l.idx = idx) && l.data.isNone && !l.late) then
    let s := s.setTile t { x with lines := x.lines.map (fun l => if l.stream = serial ∧ l.idx = idx then { l with late := true } else l) }
    if s.flag (tileB t) TILE_SF_CTRL_ENABLE then s.countT t (TILE_PFS_COUNT.at 0x10) 1 else s
  else s

/-- Free the lines that lie before the Tadpole's position, and end the record when all of it has been read (R232, R235). -/
def State.freeLines (s : State) (t : Nat) : State :=
  let x := s.tile t
  match x.current with
  | none => s
  | some r =>
    let done := decide (r.len ≤ x.pos)
    let gone := fun (l : SLine) => decide (l.stream = r.serial) && (done || decide (l.idx < x.pos / 64))
    let useful := (x.lines.filter (fun l => gone l && !l.late)).length
    let x := { x with lines := x.lines.filter (fun l => !gone l) }
    let s := s.setTile t (if done then { x with pos := 0, recs := x.recs.map (fun q => if q.serial = r.serial then { q with split := true } else q) } else x)
    let s := if useful ≠ 0 ∧ s.flag (tileB t) TILE_SF_CTRL_ENABLE then s.countT t (TILE_PFS_COUNT.at 8) useful else s
    if done && (s.tile t).current.isSome then s.startRecord t else s

/-- Entries that a bundle gives engine `e` (R239). -/
def entriesFor (mask : Nat) (barrier : Bool) (ops : List (Nat × OpWord)) (e : Nat) : Nat :=
  (if barrier && bit mask e then 1 else 0) + (if ops.any (fun o => decide (o.1 = e)) then 1 else 0)

/-- Put a bundle's entries into the queues, each barrier token ahead of the bundle's own operation (R240); a CALL raises its page's in-use count (R254). -/
def Tile.pushBundle (x : Tile) (serial off mask : Nat) (barrier : Bool) (ops : List (Nat × OpWord)) : Tile :=
  let id := x.tokens + 1
  let x := if barrier then { x with tokens := id } else x
  upto 4 (fun e x =>
    let g := x.eng e
    let g := if barrier && bit mask e then { g with queue := g.queue ++ [.token id mask serial off] } else g
    match ops.find? (fun o => decide (o.1 = e)) with
    | some (_, w) =>
      let x := x.setEngine e { g with queue := g.queue ++ [.op w serial off false] }
      if isCall w then { x with inUse := put noCount x.inUse (callPage w) (look noCount x.inUse (callPage w) + 1) } else x
    | none => x.setEngine e g) x

/-- The Tadpole may split: its tile runs, and no instruction-memory load is held (R241, R255, R263, R505). -/
def State.maySplit (s : State) (t : Nat) : Bool :=
  s.tileUp t && !s.faulted t && !(s.tile t).halted && (s.tile t).load.isNone

/-- BUNDLE_SPLIT (R239). -/
def bundleSplit (t : Nat) (s : State) : State :=
  let x := s.tile t
  match x.current with
  | none => s
  | some r =>
    if !s.maySplit t then s
    else
      match x.parse r with
      | .need i => s.markLate t r.serial i
      | .fault c => s.tileFault t 4 c ⟨r.serial, x.pos, 0, 0⟩
      | .load w payload _ =>
        let l : Load := ⟨bitsOf w 0 6, bitsOf w 6 6, bitsOf w 12 6, payload, s.tsc, false⟩
        ((s.setTile t { x with pos := payload, load := some l, dldDone := false }).countT t TILE_BUNDLES_COUNT 1).freeLines t
      | .bundle mask barrier ops fin =>
        if (List.range 4).any (fun e => decide (512 < (x.eng e).queue.length + entriesFor mask barrier ops e)) then s
        else
          let y := x.pushBundle r.serial x.pos mask barrier ops
          let s := (s.setTile t { y with pos := fin, dldDone := false }).countT t TILE_BUNDLES_COUNT 1
          let s := s.freeLines t
          (List.range 4).foldl (fun (a : State) e => a.settleSkip t e) s

/-- The words of a payload go into instruction memory (R255). -/
def Tile.storeWords (x : Tile) : Nat → Nat → Nat → Tile
  | _, 0, _ => x
  | at_, n + 1, v =>
    Tile.storeWords { x with imem := put zeroWord x.imem at_ (BitVec.ofNat 64 v), imemBad := put noMark x.imemBad at_ false }
      (at_ + 1) n (v / 2 ^ 64)

/-- IMLD (R255): the waiting load copies its payload once the page's in-use count is 0. -/
def imldCopy (t : Nat) (s : State) : State :=
  let x := s.tile t
  match x.load, x.current with
  | some l, some r =>
    if !s.tileUp t || s.faulted t || x.halted || look noCount x.inUse l.page != 0 then s
    else
      match x.readWords r.serial l.fromPos (16 * (l.lines + 1)) with
      | .inl (.need i) => s.markLate t r.serial i
      | .inl _ => s.tileFault t 4 4 ⟨r.serial, l.fromPos - 12, 0, 0⟩
      | .inr v =>
        let x := x.storeWords (l.page * 512 + l.first * 8) (8 * (l.lines + 1)) v
        (s.setTile t { x with load := none, pos := l.fromPos + 64 * (l.lines + 1), dldDone := false }).freeLines t
  | _, _ => s

/-- IMLD_HOLD_LIMIT (R256): event 0x0321 once for a hold. -/
def imldHoldLimit (t : Nat) (s : State) : State :=
  let x := s.tile t
  match x.load with
  | some l =>
    let n := look noCount x.inUse l.page
    if n = 0 ∨ l.told ∨ s.rd (tileB t) TILE_IMEM_CTRL_HOLD_LIMIT = 0 then s
    else (s.setTile t { x with load := some { l with told := true } }).emit t 0x0321 [l.page, n]
  | none => s

/-! ### Barriers and completion (R235, R257) -/

/-- The barrier that an engine stands at: its token's number and mask. -/
def Engine.atToken (g : Engine) : Option (Nat × Nat) :=
  if g.frames.isEmpty && g.loops.isEmpty && decide (g.skip = 0) && g.wait.isNone then
    match g.queue with
    | .token id mask _ _ :: _ => some (id, mask)
    | _ => none
  else none

/-- Every engine of the mask stands at its token and has completed its earlier operations. -/
def State.barrierMet (s : State) (t id mask : Nat) : Bool :=
  (List.range 4).all (fun e => !bit mask e || (decide ((s.engine t e).atToken = some (id, mask)) && s.allDone t e))

/-- QUEUE_BARRIER (R257): every engine of the barrier leaves it, as a release and an acquire. -/
def queueBarrier (t : Nat) (s : State) : State :=
  if !s.tileUp t || s.faulted t || (s.tile t).halted then s
  else
    match (List.range 4).findSome? (fun e =>
      match (s.engine t e).atToken with
      | some (id, mask) => if s.barrierMet t id mask then some mask else none
      | none => none) with
    | none => s
    | some mask =>
      (List.range 4).foldl (fun (a : State) e =>
        if bit mask e then
          let g := a.engine t e
          ((a.setEngine t e { g with queue := g.queue.drop 1 }).modTile t (fun x => { x with dldDone := false })).acquire t
        else a) s

/-- An operation of stream `serial` is not complete in the tile. A loop that is open outside a routine is one of the stream that `bodyOf` names; a routine's loops go with its CALL. -/
def Tile.holds (x : Tile) (serial : Nat) : Bool :=
  (List.range 4).any (fun e =>
    let g := x.eng e
    g.queue.any (fun q => match q with | .op _ st _ _ => decide (st = serial) | .token _ _ st _ => decide (st = serial)) ||
    (!g.frames.isEmpty && decide (g.root.1 = serial)) ||
    (((!g.loops.isEmpty && g.frames.isEmpty) || decide (g.skip ≠ 0)) && decide (g.bodyOf.1 = serial)) ||
    (match g.wait with | some w => decide (w.loc.stream = serial) | none => false)) ||
  x.mmas.any (fun j => decide (j.loc.stream = serial)) || x.fsts.any (fun j => decide (j.loc.stream = serial)) ||
  x.vops.any (fun j => decide (j.loc.stream = serial)) || x.moves.any (fun j => decide (j.loc.stream = serial)) ||
  x.signals.any (fun j => decide (j.loc.stream = serial)) ||
  (match x.vrun with | some r => decide (r.job.loc.stream = serial) | none => false) ||
  (match x.mrun with | some r => decide (r.job.loc.stream = serial) | none => false)

/-- STREAM_COMPLETE (R235): the oldest stream is complete and is reported; its slot becomes free (R230). -/
def streamComplete (t : Nat) (s : State) : State :=
  let x := s.tile t
  match x.recs with
  | r :: rs =>
    if !s.tileUp t || !r.split || x.holds r.serial || (s.faulted t && decide (s.rd (tileB t) TILE_FAULT_STREAM_ID = r.ident)) then s
    else (s.setTile t { x with recs := rs }).completeDesc r.ring r.count 0 0
  | [] => s

end Sys2Proof.Machine
end

