-- ==== Sys2Proof/Machine/HostLink.lean ====
section
/-! DEFINITION. The host link: training, link-down, function-level reset, Bus Master Enable, host accesses to device memory, coherence, bias changes and host completions (R359-R377). -/

namespace Sys2Proof.Machine

/-! ### Host reads that end (R375, R377) -/

/-- A host read fails: status 1 UR, 2 CA, 3 timeout, 4 Bus Master Enable 0. -/
def State.failRead (s : State) (code : Nat) (r : HostRead) : State :=
  match r.user with
  | .move t => s.mveDeliver t ((List.range r.units).map (fun i => (r.addr / 64 + i, GotCell.err 3)))
  | .copy n c => s.copyFail n c code
  | .prefetch t => s.hostPrefetch t r.addr (.err 3)
  | .request _ | .dropped => s

/-- Every read that `p` selects fails. -/
def State.failReads (s : State) (code : Nat) (p : HostRead → Bool) : State :=
  let h := s.host
  let l := (h.reads ++ h.waiting).filter p
  let s := { s with host := { h with reads := h.reads.filter (fun r => !p r), waiting := h.waiting.filter (fun r => !p r) } }
  l.foldl (fun (a : State) r => a.failRead code r) s

/-- The cells that a completion brings. -/
def pairHalves : List Half → List Cell64
  | a :: b :: r => ⟨a, b⟩ :: pairHalves r
  | _ => []

/-- An answer reaches the requester of a read (R375): data with EP set is an error of cause 3 for the MVE. -/
def State.answerRead (s : State) (r : HostRead) (status : Nat) (cells : List Cell64) : State :=
  match r.user with
  | .move t => s.mveDeliver t ((List.range r.units).map (fun i => (r.addr / 64 + i, if status = 0 then GotCell.data (cells.getD i .bad) else .err 3)))
  | .copy n c => s.copyDeliver n c status (if status = 0 then cells else List.replicate r.units .bad)
  | .prefetch t => s.hostPrefetch t r.addr (if status = 0 then .data (cells.headD .bad) else .err 3)
  | .request _ | .dropped => s

/-- The answer to a read waits on C0 while the seam link holds the way to the tile that asked (R18). -/
def State.answerHeld (s : State) (u : ReadUser) : Bool :=
  match u with
  | .move t | .prefetch t => s.seamHeld 0 (tileDie t)
  | _ => false

/-- HOST_COMPLETION and COMPLETION_TIMEOUT (R375): status 0 data, 1 UR, 2 CA, 3 timeout, 4 EP. A prefetch reports nothing (R208). -/
def State.hostAnswer (s : State) (tag status : Nat) (data : List Half) : State :=
  match s.host.reads.find? (fun r => decide (r.tag = tag)) with
  | none => s
  | some r =>
    if s.answerHeld r.user ∨ (status = 0 ∧ (data.length ≠ 2 * r.units)) then s
    else
      let s := { s with host := { s.host with reads := s.host.reads.erase r } }
      let s := match r.user with
        | .prefetch _ => s
        | _ => s.hostErr r.fn status
      let s := s.answerRead r status (pairHalves data)
      s.sendWaiting s.host.waiting.length

/-- The AER uncorrectable error status bit of how a request ended: Completer Abort, Completion Timeout, Poisoned TLP received (PRESUMED, log 70). -/
def aerBit (status : Nat) : Option Nat := if status = 2 then some 15 else if status = 3 then some 14 else if status = 4 then some 12 else none
def noAer (_ : Nat) : Word := 0
/-- An AER uncorrectable error status bit of a function is set (R359). -/
def State.aerSet (s : State) (f b : Nat) : State :=
  { s with host := { s.host with aer := put noAer s.host.aer f (look noAer s.host.aer f ||| BitVec.ofNat 64 (2 ^ b)) } }
/-- A request of function `f` is completed with UR status: Unsupported Request Error. -/
def State.answerUr (s : State) (f : Nat) : State := (s.aerSet f 20).send .ur
/-- The error of an answer that reaches a read with this tag is recorded for its function. -/
def State.aerOf (s : State) (tag status : Nat) : State :=
  match s.host.reads.find? (fun r => decide (r.tag = tag)), aerBit status with
  | some r, some b => s.aerSet r.fn b
  | _, _ => s

def execHostCompletion (tag status : Nat) (data : List Half) (s : State) : Res := .next ((s.aerOf tag (min 4 status)).hostAnswer tag (min 4 status) data)
/-- COMPLETION_TIMEOUT (R375): none occurs while PF0's Device Control 2 disables it (R359). -/
def execCompletionTimeout (tag : Nat) (s : State) : Res := .next (if s.host.cplOff then s else (s.aerOf tag 3).hostAnswer tag 3 [])

/-! ### Link state (R361, R377) -/

/-- HOST_LINK_STAT at a trained width and rate; CXL operates at 32 and 64 GT/s alone. -/
def State.setLink (s : State) (width speed : Nat) (flit : Bool) : State :=
  let s := ((s.wr hostB HOST_LINK_STAT_WIDTH width).wr hostB HOST_LINK_STAT_SPEED speed).wr hostB HOST_LINK_STAT_FLIT (if flit then 1 else 0)
  let s := s.wr hostB HOST_LINK_STAT_CXL (if s.host.cxlHost ∧ 5 ≤ speed then 1 else 0)
  s.wr hostB HOST_LINK_STAT_DEGRADED (if width < 16 ∨ speed < 6 then 1 else 0)

/-- Events 0x0102 and 0x0104 of a trained link. -/
def State.reportLink (s : State) (width speed : Nat) : State :=
  let s := if s.flag hostB HOST_LINK_STAT_DEGRADED then s.emit hostSrc 0x0102 [width, speed] else s
  if s.flag hostB HOST_LINK_STAT_CXL then s else s.emit hostSrc 0x0104 [speed]

/-- EXTEST is in effect (R483): it is selected while the host link is down and every tile is held in reset, and from then on until a card reset. -/
def State.inExtest (s : State) : Bool :=
  s.brup.extest || ((decide (s.card.tapIr0 = 0) || decide (s.card.tapIr1 = 0)) && s.pwr.rails && !s.dlUp && s.tiles.all (fun (p : Nat × Tile) => p.2.inReset))

/-- A loopback run of the host link is in progress: the link is down for it (Table 17-4). -/
def State.hostLoop (s : State) : Bool := s.flag cardB TEST_LPBK_STAT_BUSY && decide (s.rd cardB TEST_LPBK_CTRL_IF = 2)

/-- The link can train: C0 is out of reset, PERST_N is deasserted (R459), and neither EXTEST nor a loopback holds its pins. -/
def State.canTrain (s : State) : Bool := decide (0 < s.brup.dies) && !s.pwr.perst && !s.inExtest && !s.hostLoop

/-- LINK_UP (R361, R377): `cxl` says whether the host supports CXL. -/
def execLinkUp (width speed : Nat) (flit cxl : Bool) (s : State) : Res :=
  .next (if s.dlUp || !s.canTrain then s
    else
      let s := { s with host := { s.host with cxlHost := cxl } }
      let s := (s.setLink width speed flit).raise hostB HOST_LINK_STAT_DL_UP
      let s := s.emit hostSrc 0x0101 [width, speed, if flit then 1 else 0, s.rd hostB HOST_LINK_STAT_CXL]
      s.reportLink width speed)

/-- LINK_RATE_CHANGE (R361, R367): the data link stays in DL_Active. -/
def execLinkRateChange (width speed : Nat) (s : State) : Res :=
  .next (if s.dlUp then (s.setLink width speed (s.flag hostB HOST_LINK_STAT_FLIT)).reportLink width speed else s)

/-- PF0 is in D0 again: tiles held since D3hot leave reset (R506). -/
def State.leaveD3 (s : State) : State :=
  if s.host.d3hot then
    (sites.filter s.enabled).foldl State.freeTile { s with host := { s.host with d3hot := false } }
  else s

/-- Reset of the host interface island (Table 13-7): configuration space and MSI-X of every function. -/
def State.resetHostIsland (s : State) : State :=
  let h := { s.host with bme := [], bar4 := 1024, vfBar4 := 1024, mps := 128, mrrs := 512, extTag := true, tag10 := false, tag14 := false }
  let h := { h with cplTo := 0, cplOff := false, aer := [], ideIds := [], cxlIde := none, msix := [], msixOn := [] }
  ({ s with host := h } : State).leaveD3

/-- IDE keys are discarded; a stream that was keyed is Insecure (R376, R377, R500). -/
def State.dropIdeKeys (s : State) : State :=
  { s with host := { s.host with ide := s.host.ide.map (fun (p : Nat × IdeStream) =>
      (p.1, ({ st := if p.2.st = .clear then .clear else .insecure, keys := 0 } : IdeStream))) } }

/-- Line requests of every tile end without data. -/
def State.failLines (s : State) : State :=
  s.tiles.foldl (fun (a : State) (p : Nat × Tile) => p.2.reqs.foldl (fun (a : State) q => streamLineReturn p.1 q.tag none a) a) s

/-- A link-down event (R377, R400, R500). -/
def State.linkDownGo (s : State) (cause unacked : Nat) : State :=
  if !s.dlUp then s
  else
    let s := (s.setWord (hostB + HOST_LINK_STAT_WIDTH.off) 0).sat hostB HOST_LINK_DOWNS_COUNT 1
    let s := ((s.emit hostSrc 0x0103 [cause]).ringsLinkDown unacked).dropIdeKeys
    let asked := s.host.snoops
    let s := { s with host := { s.host with snoops := [], owed := [], answered := [], hdm := match s.host.hdm with | some h => if h.lock then some h else none | none => none },
                      sec := { s.sec with session := none } }
    let s := s.resetHostIsland
    let s := (s.failReads 3 (fun _ => true)).failLines
    let s := (asked.flatMap (·.waiters)).foldl State.resume s
    s.wake.moltGo

/-- The link goes down; how many of the records transmitted last were not acknowledged is free (R400, log 61). -/
def State.linkLost (s : State) (cause : Nat) : State :=
  if !s.dlUp then s
  else
    let (n, s) := s.fresh
    s.linkDownGo cause (Config.unacked n)

def execLinkDown (cause : Fin 8) (s : State) : Res := .next (s.linkLost cause.val)

/-- IDE_INTEGRITY_FAILURE (R376). -/
def execIdeIntegrityFailure (stream : Nat) (s : State) : Res :=
  .next (let i := look (fun _ => ({ st := .clear, keys := 0 } : IdeStream)) s.host.ide stream
    if !s.dlUp || decide (i.st ≠ .secure) then s
    else
      let s := { s with host := { s.host with ide := put (fun _ => ({ st := .clear, keys := 0 } : IdeStream)) s.host.ide stream { i with st := .insecure } } }
      ((s.emit hostSrc 0x0105 [stream]).raise hostB HOST_ERR_FLAGS_IDE_FAIL).linkLost 5)

/-- UNSUPPORTED_REQUEST (R359): its AER status bit is set (PRESUMED, log 70). -/
def execUnsupportedRequest (posted : Bool) (s : State) : Res :=
  .next (if s.dlUp then (if posted then s.aerSet 0 20 else s.answerUr 0) else s)

/-! ### Function-level reset and Bus Master Enable (R364, R377) -/

/-- FLR (Table 13-7). -/
def execFlr (f : FnId) (s : State) : Res :=
  .next (if !s.dlUp then s
    else
      let s := s.emit hostSrc 0x0108 [f.val]
      if f.val = 0 then
        let s := s.resetHostIsland.dropIdeKeys
        (s.failReads 4 (fun r => match r.user with | .copy _ _ => true | _ => false)).resetAll 6 hostSrc
      else
        let h := s.host
        let s := { s with host := { h with bme := put noMark h.bme f.val false, msix := h.msix.filter (fun (p : Nat × Word) => decide (p.1 / 0x2000 ≠ f.val)), msixOn := put noMark h.msixOn f.val false, aer := put noAer h.aer f.val 0 } }
        (s.failReads 4 (fun r => decide (r.fn = f.val) && (match r.user with | .copy _ _ => true | _ => false))).partResetGo f.val 6 hostSrc)

/-- BUS_MASTER_ENABLE_CLEAR (R364): requests that wait to be sent are not sent. -/
def execBusMasterEnableClear (f : FnId) (s : State) : Res :=
  .next (if !s.dlUp then s
    else
      let h := s.host
      let l := h.waiting.filter (fun r => decide (r.fn = f.val))
      let s := { s with host := { h with bme := put noMark h.bme f.val false, waiting := h.waiting.filter (fun r => decide (r.fn ≠ f.val)) } }
      l.foldl (fun (a : State) r => a.failRead 4 r) s)

/-- The host's values take effect in the host interface: VFs use PF0's (R374). -/
def State.setConfig (s : State) (x : Enabling) : State :=
  let f := x.fn.val
  let c := x.cfg
  let h := s.host
  let h := if f = 0 then { h with mps := c.mps, cplTo := c.cplTo, cplOff := c.cplOff, cxlIde := c.cxlIde, mrrs := c.mrrs, extTag := c.extTag, tag10 := c.tag10, tag14 := c.tag14, bar4 := c.bar4, vfBar4 := c.vfBar4, ideIds := c.ide } else h
  { s with host := { h with msixOn := put noMark h.msixOn f c.msixOn } }

/-- BUS_MASTER_ENABLE_SET (R364, R427): pending interrupts are sent and held event reports are written. -/
def execBusMasterEnableSet (x : Enabling) (s : State) : Res :=
  .next (let f := x.fn
    if !s.dlUp then s
    else
      let s := s.setConfig x
      let s := ({ s with host := { s.host with bme := put noMark s.host.bme f.val true } } : State)
      let s := upto 65 (fun e (a : State) => a.msixPending f.val e) s
      (s.sendWaiting s.host.waiting.length).evFlush f.val)

/-! ### Host accesses to device memory (R366-R371) -/

/-- Bring-up is complete; until then host accesses act as accesses to retired storage, without count or event (R460). -/
def State.ready (s : State) : Bool := s.flag cardB BRUP_STAT_READY

/-- Event 0x0106 of a refused host access. -/
def State.hostRefusal (s : State) (f status : Nat) : State := s.emit hostSrc 0x0106 [f, status]

/-- The 40-bit interleaved address of a CXL.mem request, by the committed decoder (R367). -/
def State.hdmAt (s : State) (hpa : Nat) : Option Nat :=
  match s.host.hdm with
  | some h => if h.base ≤ hpa ∧ hpa < h.base + 0xC000000000 then some ((hpa - h.base) / 64 * 64) else none
  | none => none

/-- A COPY's, and a move's, answers without one for this line. -/
def Live.unanswer (l : Live) (line : Nat) : Live := { l with copy := l.copy.map (fun r => ({ r with snooped := r.snooped.filter (· ≠ line) } : CopyRun)) }
def Tile.unanswer (x : Tile) (line : Nat) : Tile := { x with mrun := x.mrun.map (fun r => ({ r with snooped := r.snooped.filter (· ≠ line) } : MRun)) }

/-- The host takes a line again: an answer for an access that has not been taken yet holds no longer (R371). -/
def State.unanswer (s : State) (line : Nat) : State :=
  { s with
    host := { s.host with answered := s.host.answered.filter (fun (a : Nat × Nat) => decide (a.2 ≠ line)) },
    rings := s.rings.map (fun (p : Nat × RingSt) => (p.1, ({ p.2 with live := p.2.live.map (fun (l : Live) => l.unanswer line) } : RingSt))),
    tiles := s.tiles.map (fun (p : Nat × Tile) => (p.1, p.2.unanswer line)) }

/-- The host's MetaValue updates the ownership directory in a shared region (R371). -/
def State.trackHost (s : State) (key : Nat) (keeps : Bool) : State :=
  if !s.hostShared key then s
  else if keeps then (s.enterDir (key / 64)).unanswer (key / 64) else s.leaveDir (key / 64)

/-- CXL_MEM_READ (R367, R368, R371): `shared` is MetaValue A or S. Before READY and in D3hot it acts on retired storage without count or event (R460, R507; log 81). A read that its CC does not take is presented again (log 69). -/
def execCxlMemRead (hpa : Nat) (shared : Bool) (s : State) : Res :=
  .next (if !s.canSnoop then s
    else
      match s.hdmAt hpa with
      | none => (s.hostRefusal 0 5).send (.memData .bad)
      | some a =>
        if !s.ready || s.host.d3hot then s.send (.memData .bad)
        else
        match s.resolve ⟨.host, 0⟩ a with
        | (none, s) => s.send (.memData .bad)
        | (some k, s) => match s.hostLinkRead 0 k .mem with
          | (true, s) => s.trackHost k shared
          | (false, s) => s)

/-- CXL_MEM_WRITE (R367-R369, R371): `keeps` says that the host keeps a copy. -/
def execCxlMemWrite (hpa : Nat) (w : WriteData) (keeps : Bool) (s : State) : Res :=
  .next (if !s.canSnoop then s
    else
      match s.hdmAt hpa with
      | none => (s.hostRefusal 0 5).send .memCmp
      | some a =>
        if !s.ready || s.host.d3hot then s.send .memCmp
        else
        match s.resolve ⟨.host, 0⟩ a with
        | (none, s) => s.send .memCmp
        | (some k, s) => match s.hostPortWrite 0 k w with
          | (true, s) => (s.trackHost k keeps).send .memCmp
          | (false, s) => s)

/-- The offset lies in function `f`'s BAR4 as the host has sized it (R359, log 22). -/
def State.inBar4 (s : State) (f off : Nat) : Bool := decide (off < (if f = 0 then s.host.bar4 else s.host.vfBar4) * 2 ^ 30)

/-- The bank-direct key of a BAR4 offset; none when the access is refused (R366). -/
def State.bar4At (s : State) (f off : Nat) : Option Nat :=
  let x := s.rd hostB (HOST_BAR4_MAP_BASE.at (8 * f)) * 2 ^ 30 + off / 64 * 64
  if f = 0 then if x / 2 ^ 36 < 12 then some x else none
  else
    (((List.range 12).filter (fun k => decide (s.stackOwner k = f)))[x / 2 ^ 36]?).map (fun k => k * 2 ^ 36 + x % 2 ^ 36)

/-- BAR4_READ (R366, R368). A read that its CC does not take is presented again (log 69). An offset outside the BAR, and any access in D3hot (R507), is an unsupported request. -/
def execBar4Read (f : FnId) (off : Nat) (s : State) : Res :=
  .next (if !s.dlUp then s
    else if !s.inBar4 f.val off || s.host.d3hot then s.answerUr f.val
    else
      match s.bar4At f.val off with
      | none => (s.hostRefusal f.val 4).answerUr f.val
      | some k => if s.ready then (s.hostLinkRead f.val k (.bar f.val)).2 else s.send (.barData f.val .bad))

/-- BAR4_WRITE (R366, R368), presented again as a read is. -/
def execBar4Write (f : FnId) (off : Nat) (w : WriteData) (s : State) : Res :=
  .next (if !s.dlUp || !s.inBar4 f.val off || s.host.d3hot then s
    else
      match s.bar4At f.val off with
      | none => s.hostRefusal f.val 4
      | some k => if s.ready then (s.hostPortWrite f.val k w).2 else s)

/-- H2D_SNOOP (R360): the device cache holds no line. -/
def execH2dSnoop (line : Nat) (s : State) : Res := .next (if s.canSnoop then s.send (.rspIHitI line) else s)

/-- HDM_DECODER_COMMIT (R367): a decoder that was locked on commit stays; any other size is not committed (PRESUMED, log 21). -/
def execHdmDecoderCommit (base size : Nat) (lock : Bool) (s : State) : Res :=
  .next (if !s.dlUp || decide (size ≠ 0xC000000000) || (match s.host.hdm with | some h => h.lock | none => false) then s
    else { s with host := { s.host with hdm := some { base := base, lock := lock } } })

/-! ### Bias changes (R373) -/

/-- Directory lines of a region. -/
def State.regionLines (s : State) (r : Nat) : List Nat := s.host.dir.filter (fun l => decide (s.regionOf (64 * l) = r))

/-- A change to device-owned asks for the lines that remain. -/
def State.biasAsk (s : State) : State :=
  match s.host.biasJob with
  | some j =>
    if j.shared || !s.canSnoop then s
    else (s.regionLines j.region).foldl (fun (a : State) n => if a.host.snoops.any (fun q => decide (q.line = n)) then a else a.askSnoop n true []) s
  | none => s

/-- A bias change is commanded: it starts, or is refused. -/
def State.biasGo (s : State) (r : Nat) (shared : Bool) : State :=
  if 49152 ≤ r ∨ !s.windowOpen ∨ look noMark s.host.bias r = shared then s.raise hostB HOST_BIAS_STAT_REFUSED
  else
    let s := s.raise hostB HOST_BIAS_STAT_BUSY
    ({ s with host := { s.host with biasJob := some { region := r, shared := shared } } } : State).biasAsk

/-- A tile request to the region is outstanding: it was accepted and is not performed, or it is a prefetch in flight. -/
def State.regionBusy (s : State) (r : Nat) : Bool :=
  s.ccs.any (fun (p : Nat × CcSt) => p.2.pool.any (fun q => decide (q.who.port = .tile ∧ s.regionOf q.key = r))) ||
  s.tiles.any (fun (p : Nat × Tile) => p.2.pfFlight.any (fun q => decide (q.space = 2 ∧ s.regionOf q.addr = r)))

/-- BIAS_CHANGE_COMPLETE (R373): held requests are then served. -/
def execBiasChangeComplete (s : State) : Res :=
  .next (match s.host.biasJob with
    | none => s
    | some j =>
      if (if j.shared then s.regionBusy j.region else !(s.regionLines j.region).isEmpty) then s.biasAsk
      else
        let s := if j.shared then s.dropCaches else s
        let s := { s with host := { s.host with bias := put noMark s.host.bias j.region j.shared, biasJob := none } }
        let s := ((s.clear hostB HOST_BIAS_STAT_BUSY).raise hostB HOST_BIAS_STAT_DONE).emit hostSrc 0x0109 [j.region, if j.shared then 1 else 0]
        s.wake)

/-! ### Back-invalidation responses (R371) -/

/-- A requester learns that a line was answered. -/
def State.snoopDone (s : State) (line : Nat) : ReadUser → State
  | .move t => s.modTile t (fun x => { x with mrun := x.mrun.map (fun r => { r with snooped := line :: r.snooped }) })
  | .copy n c =>
    match s.copyRun n c with
    | some (_, r) => s.setCopy n c (some { r with snooped := line :: r.snooped })
    | none => s
  | .request t => { s with host := { s.host with answered := (t, line) :: s.host.answered } }
  | _ => s

/-- The host's write-back of a line; in a channel that is being molted no later read sees it (R411, R412). -/
def State.snoopWrite (s : State) (key : Nat) (d : Option Cell64) : Bool × State :=
  match d with
  | some d => if s.molting (keyChan key) then (true, s) else s.hostPortWrite 0 key (.whole d)
  | none => (true, s)

/-- BISNP_RESPONSE (R371): any host write-back is stored first, and a BISnpInv leaves no entry. A write-back that its CC does not take is presented again with its response (log 69). -/
def execBisnpResponse (line : Nat) (writeBack : Option Cell64) (s : State) : Res :=
  .next (match s.host.snoops.find? (fun q => decide (q.line = line)) with
    | none => s
    | some q =>
      match s.snoopWrite (64 * line) writeBack with
      | (false, s) => s
      | (true, s) =>
        let s := { s with host := { s.host with snoops := s.host.snoops.erase q } }
        let s := if q.inv then s.leaveDir line else s
        let s := q.waiters.foldl (fun (a : State) u => a.snoopDone line u) s
        ((q.waiters.foldl State.resume s).wake).moltGo.biasAsk)

end Sys2Proof.Machine
end

