-- ==== Sys2Proof/Machine/Package.lean ====
section
/-! DEFINITION. Operations of the management island on the package: effective power levels, the brake, debug level, non-volatile operations, dropping the rails and card reset (R436, R444, R454, R463, R486-R505). -/

namespace Sys2Proof.Machine

/-! ### Effective levels (R435, R436, Table 16-2) -/

def State.floorOf (s : State) (sensor : Nat) : Nat := look (fun _ => 0) s.therm.floor sensor
def State.braked (s : State) : Bool := s.flag pwrB PWR_BRAKE_ACTIVE
/-- Budget and brake level of the C-die ladder, and of the stack ladder. -/
def State.cLevel (s : State) : Nat := max (s.rd pwrB PWR_STATUS_CBUD) (if s.braked then s.rd pwrB PWR_BRAKE_CLV else 0)
def State.sLevel (s : State) : Nat := max (s.rd pwrB PWR_STATUS_SBUD) (if s.braked then s.rd pwrB PWR_BRAKE_SLV else 0)
/-- Effective level of a C-die, and of a stack. -/
def State.cEff (s : State) (die : Nat) : Nat := max s.cLevel (s.floorOf die)
def State.sEff (s : State) (k : Nat) : Nat := max s.sLevel (s.floorOf (2 + k))
/-- Table 16-2: MXE duty, clock division, spacing in SCLK and active stacks of a level. -/
def dutyOf (l : Nat) : Nat := [16, 12, 8, 4, 4, 4, 2, 1].getD l 1
def clkDivOf (l : Nat) : Nat := [0, 0, 0, 0, 4, 8, 12, 15].getD l 15
def stacksOf (l : Nat) : Nat := [12, 12, 12, 12, 12, 8, 4, 2].getD l 2

/-- A power counter of the management island, with wrap event 0x070F (R456). -/
def State.countP (s : State) (f : Fld) (n : Nat) : State := s.count pwrB f n pwrSrc 0x070F

/-- ns that a time above level 0 has still to count, the rest of a µs included (R456). -/
def State.nsFrom (s : State) (o : Option Nat) (rest : Nat) : Nat := rest + o.elim 0 (fun t => s.tsc - t)

/-- PWR_TIME_C and PWR_TIME_S count the µs that have passed with a level above 0 (R456). -/
def State.countTime (s : State) : State :=
  let p := s.pwr
  let c := s.nsFrom p.cOn p.cRest
  let k := s.nsFrom p.sOn p.sRest
  let s := ({ s with pwr := { p with cOn := p.cOn.map (fun _ => s.tsc), sOn := p.sOn.map (fun _ => s.tsc), cRest := c % 1000, sRest := k % 1000 } } : State)
  (s.countP PWR_TIME_C_US (c / 1000)).countP PWR_TIME_S_US (k / 1000)

/-- The registers show the levels in force, and the times above level 0 run (R436, R456). -/
def State.applyLevels (s : State) : State :=
  let s := s.countTime
  let sl := (List.range 12).foldl (fun n k => n + s.sEff k * 2 ^ (3 * k)) 0
  let any := decide (0 < s.cEff 0 ∨ 0 < s.cEff 1 ∨ 0 < sl)
  let on := fun (o : Option Nat) (b : Bool) => if b then some (o.getD s.tsc) else none
  let s := { s with pwr := { s.pwr with cOn := on s.pwr.cOn (decide (0 < s.cEff 0 ∨ 0 < s.cEff 1)), sOn := on s.pwr.sOn (decide (0 < sl)) } }
  let s := ((s.wr pwrB PWR_STATUS_CEFF0 (s.cEff 0)).wr pwrB PWR_STATUS_CEFF1 (s.cEff 1)).wr pwrB PWR_SLEVEL_LEVEL sl
  (s.wr pwrB PWR_STATUS_ACTIVE_LIM (stacksOf s.sLevel)).wr pwrB PWR_STATUS_THROTTLE (if any then 1 else 0)

/-- Set a budget level (0 C-die, 1 stack): event 0x0701 when it leaves 0, 0x0702 when both are back at 0. -/
def State.setBudget (s : State) (ladder v : Nat) : State :=
  let f := if ladder = 0 then PWR_STATUS_CBUD else PWR_STATUS_SBUD
  let old := s.rd pwrB f
  let none_ := decide (s.rd pwrB PWR_STATUS_CBUD = 0 ∧ s.rd pwrB PWR_STATUS_SBUD = 0)
  let s := (s.wr pwrB f v).applyLevels
  let s := if old = 0 ∧ v ≠ 0 then s.emit pwrSrc 0x0701 [ladder, v] else s
  let s := if none_ && decide (v ≠ 0) then { s with pwr := { s.pwr with since := some s.tsc } } else s
  if !none_ && decide (s.rd pwrB PWR_STATUS_CBUD = 0 ∧ s.rd pwrB PWR_STATUS_SBUD = 0) then
    ({ s with pwr := { s.pwr with since := none } } : State).emit pwrSrc 0x0702 [(s.tsc - s.pwr.since.getD s.tsc) / 1000]
  else s

/-- The brake sources change: PWR_BRAKE.ACTIVE and the levels follow; the pin acts only while rails 2-43 are on (R521). -/
def State.applyBrake (s : State) : State :=
  let on := (s.flag pwrB PWR_BRAKE_PIN && s.pwr.rails) || s.flag pwrB PWR_BRAKE_SW
  (s.wr pwrB PWR_BRAKE_ACTIVE (if on then 1 else 0)).applyLevels

/-! ### Fuses and the debug level (R486, R498, R502, R505) -/

/-- The registers that show fuses and factory data, and the identity key that the security engine derives (R487). -/
def State.loadFuses (s : State) : State :=
  let p := s.brup.parts
  let s := { s with sec := { s.sec with idSeed := if p.idKey then some p.idSeed else none } }
  let s := ((s.wr secB SEC_LC_STATE p.lc).wr secB SEC_LC_IDKEY (if p.idKey then 1 else 0)).wr secB SEC_KEYS_REVOKED p.revoked
  let s := ((s.wr secB SEC_KEYS_COUNTER p.counter).wr cardB ID_CARD_STEPPING p.stepping).wr cardB ID_SERIAL_SERIAL p.serial
  upto 12 (fun k (a : State) => (a.wr pwrB (THERM_MODEL_RTH.at (8 * k)) (p.rth.getD k 0)).wr pwrB (THERM_MODEL_TAU_MS.at (8 * k)) (p.tau.getD k 0)) s

/-- Every halted tile resumes (R505). -/
def State.resumeTiles (s : State) : State := { s with tiles := s.tiles.map (fun (p : Nat × Tile) => (p.1, { p.2 with halted := false })) }

/-- The stream IDs of PCIe IDE and of CXL.cachemem IDE that the host has named (R376). -/
def HostSt.ideStreams (h : HostSt) : List Nat := h.ideIds ++ (h.cxlIde.map (·.1)).toList

def ideClear (_ : Nat) : IdeStream := { st := .clear, keys := 0 }
/-- Every IDE stream enters the Insecure state (R500). -/
def State.insecureAll (s : State) : State :=
  let l := s.host.ideStreams ++ s.host.ide.map (fun (p : Nat × IdeStream) => p.1)
  { s with host := { s.host with ide := l.foldl (fun m n => put ideClear m n ({ st := .insecure, keys := 0 } : IdeStream)) s.host.ide } }

/-- Every stream becomes Insecure and its programmed key sets are discarded, with event 0x080A for each (R500). -/
def State.discardKeys (s : State) : State :=
  let sets := s.host.ide.flatMap (fun (p : Nat × IdeStream) => ((List.range 8).filter (fun k => bit p.2.keys k)).map (fun k => (p.1, k)))
  sets.foldl (fun (a : State) (k : Nat × Nat) => a.emit secSrc 0x080A [k.1, k.2, 3]) s.insecureAll

/-- The debug level changes (R498, R500, R502): `why` is 1 register, 2 token. -/
def State.setLevel (s : State) (new why : Nat) : State :=
  let old := s.debugLevel
  if old = new then s
  else
    let s := s.wr secB SEC_DBG_LEVEL new
    let s := { s with sec := { s.sec with session := none } }
    let s := if new = 2 then (s.raise secB SEC_DBG_TAINT).discardKeys else s.resumeTiles
    s.measureSec.emit felvikSrc 0x0807 [old, new, why]

/-! ### Non-volatile operations (R454, R462, R491-R493) -/

def State.lockout (s : State) : Bool := s.flag pwrB SUPPLY_STAT_LOCKOUT

/-- The boot configuration that BRUP_CFG and BRUP_MASK read. -/
def State.bootConfig (s : State) : Bool × Bool × List Nat :=
  let w := s.latest (cardB + BRUP_CFG_ILV_MODE.off)
  (bit w 0, bit w 1, (List.range 5).map (fun i => s.latest (cardB + BRUP_MASK_MASK.off + 8 * i) % 2 ^ 40))

/-- The anti-rollback counter advances to the SVN of the running image, as far as its 64 fuses go (R486, R491). -/
def State.rollTo (s : State) (svn : Nat) (cmd : Bool) : State :=
  let svn := min 64 svn
  let old := s.brup.parts.counter
  let s := s.clear secB SEC_FW_STAT_HELD
  let s := if old < svn then
      let s := { s with brup := { s.brup with parts := { s.brup.parts with counter := svn } } }
      (s.wr secB SEC_KEYS_COUNTER svn).measureSec.emit felvikSrc 0x0806 [old, svn]
    else s
  if cmd then (s.clear secB SEC_FW_STAT_BUSY).raise secB SEC_FW_STAT_DONE else s

/-- A boot-configuration save ends (R462): whether its flash write failed, and then whether the old record stands or is damaged, is free (Table 17-7; log 79). -/
def State.saveConfig (s : State) : State :=
  let b := s.bootConfig
  let (n, s) := s.fresh
  let bad := Config.saveFails n
  let rec_ := if bad then (if Config.saveDamages n then none else s.brup.parts.config) else some b
  let s := { s with brup := { s.brup with parts := { s.brup.parts with config := rec_ } } }
  s.emit felvikSrc 0x090A [if b.1 then 1 else 0, if b.2.1 then 1 else 0, if bad then 1 else 0]

/-- A slot's REVOKED fuse is set (R504). -/
def State.revokeSlot (s : State) (k : Nat) : State :=
  let r := setBits s.brup.parts.revoked k 1 1
  let s := { s with brup := { s.brup with parts := { s.brup.parts with revoked := r } } }
  (s.wr secB SEC_KEYS_REVOKED r).measureSec.emit felvikSrc 0x0805 [k]

/-- A non-volatile operation that a lockout holds when its turn comes is reported once: 3 lifecycle, 4 revocation (Table 18-13). -/
def State.tellHeld (s : State) : State :=
  match s.brup.nv with
  | .lifecycle v false :: r => ({ s with brup := { s.brup with nv := .lifecycle v true :: r } } : State).emit felvikSrc 0x0804 [3]
  | .revoke v false :: r => ({ s with brup := { s.brup with nv := .revoke v true :: r } } : State).emit felvikSrc 0x0804 [4]
  | _ => s

/-! ### The rails drop (R451, R463) and card reset -/

/-- Registers of the management island that are kept (R456, R461, R462, Table 16-6): identity, boot configuration, log, temperatures, rails, trip, supply, debug level. -/
def keptWord (off : Nat) : Bool :=
  decide (off < 0x10 ∨ (0x40 ≤ off ∧ off < 0x78) ∨ (pwrB + 0x100 ≤ off ∧ off < pwrB + 0x300) ∨ (pwrB + 0x400 ≤ off ∧ off < pwrB + 0x520) ∨ off = secB + 8)

/-- Rails 2-43 drop: device memory and every package register are lost, the hot-swap switch turns off (R522) and the TAP chain loses its power (R528); the host sees a surprise link-down event. An update in step 2 is abandoned and leaves its image invalid (R493). -/
def State.packageOff (s : State) : State :=
  let s := s.linkDownGo 3 0
  let pin := s.flag pwrB PWR_BRAKE_PIN
  let b := s.brup
  let keep := fun (p : Nat × Word) => keptWord p.1
  let s := { s with
    regs := s.regs.filter keep, pend := s.pend.filter keep, pendMask := s.pendMask.filter keep,
    mem := { bytes := [], poison := [], errs := [] }, ccs := [], engs := [], bdies := [], tiles := [], flight := [], recsOut := [],
    molt := { queue := [] }, rings := [], evs := [], cuts := [], cutNo := 0, host := HostSt.init,
    pwr := { s.pwr with quiet := 0, beyond := false, since := none, fastAt := none, cOn := none, sOn := none, cRest := 0, sRest := 0, switch := false,
                        rails := false, c0Only := false, set := [], stretch := [] },
    brup := { b with running := none, dies := 0, logging := true, extest := false, update := none,
                     flashBad := b.flashBad || b.update.isSome, nv := b.nv.filter (fun o => decide (o ≠ NvOp.update)) },
    sec := { s.sec with nonce := none, session := none },
    card := { s.card with tapIr0 := 1, tapIr1 := 1, bound0 := [], bound1 := [] } }
  let s := if pin then s.raise pwrB PWR_BRAKE_PIN else s
  ((s.wr pwrB THERM_CTRL_STEP_MS 1).loadFuses).applyBrake

/-- A card reset up to the start of bring-up step 1 (R458, R463). -/
def State.cardResetGo (s : State) : State :=
  let s := s.packageOff
  let s := { s with brup := { s.brup with began := s.tsc }, therm := { s.therm with off := false } }
  s.wr cardB BRUP_STAT_STEP 1

/-! ### Running the operations that wait (R493) -/

/-- The fuses of a lifecycle state are written, and the card resets (R501): entry to Return sets IDKILL first. -/
def State.enterLc (s : State) (v : Nat) : State :=
  let old := s.rd secB SEC_LC_STATE
  let p := s.brup.parts
  let s := { s with brup := { s.brup with parts := { p with lc := v, idKill := if v = 3 then 0xFF else p.idKill } } }
  (s.emit felvikSrc 0x0809 [old, v]).cardResetGo

/-- Run the operations that wait, in order of request, up to an update, which FIRMWARE_UPDATE runs. -/
def State.nvRun : Nat → State → State
  | 0, s => s
  | n + 1, s =>
    if s.lockout then s.tellHeld
    else
      let next := fun (r : List NvOp) => ({ s with brup := { s.brup with nv := r } } : State)
      match s.brup.nv with
      | .commit c _ :: r => State.nvRun n (s.commitRetired c r)
      | .save :: r => State.nvRun n (next r).saveConfig
      | .roll v cmd :: r => State.nvRun n ((next r).rollTo v cmd)
      | .lifecycle v _ :: r => State.nvRun n ((next r).enterLc v)
      | .revoke v _ :: r => State.nvRun n ((next r).revokeSlot v)
      | _ => s

def State.nvGo (s : State) : State := s.nvRun s.brup.nv.length

/-- An advance of the counter is asked for: a lockout holds it, with event 0x0804 (R491). -/
def State.askRoll (s : State) (cmd : Bool) : State :=
  let s := s.askNv (.roll (s.rd secB SEC_KEYS_SVN) cmd)
  if s.lockout then (s.raise secB SEC_FW_STAT_HELD).emit felvikSrc 0x0804 [2] else s.nvGo

end Sys2Proof.Machine
end

