-- ==== Sys2Proof/Machine/Power.lean ====
section
/-! DEFINITION. Power and thermal management: control periods, fast trip, brake, AVS, droop, thermal sensors, shutdown and supply sag (R433-R457). -/

namespace Sys2Proof.Machine

/-! ### Budget levels (R434-R438) -/

/-- The regulated limit in W: the lower of both limits while a brake holds (R444). -/
def State.limitW (s : State) : Nat :=
  if s.braked then min (s.rd pwrB PWR_BRAKE_LIMIT_W) (s.rd pwrB PWR_CTRL_LIMIT_W) else s.rd pwrB PWR_CTRL_LIMIT_W

/-- The ladder that step 1 of R437 raises: 0 C-die, 1 stack; none when both are at their caps. -/
def raiseFirst (prio c k cmax smax : Nat) : Option Nat :=
  let first := if prio = 1 then 1 else if prio = 2 ∧ k < c then 1 else 0
  let can := fun (l : Nat) => if l = 0 then decide (c < cmax) else decide (k < smax)
  if can first then some first else if can (1 - first) then some (1 - first) else none

/-- The ladder that step 2 lowers: the one that step 1 would raise last. -/
def lowerFirst (prio c k : Nat) : Option Nat :=
  let last := if prio = 1 then 0 else if prio = 2 ∧ k < c then 0 else 1
  let can := fun (l : Nat) => if l = 0 then decide (0 < c) else decide (0 < k)
  if can last then some last else if can (1 - last) then some (1 - last) else none

/-- The action of R437 and R438 on the board power of a period, in 0.1 W. -/
def State.regulate (s : State) (dw : Nat) : State :=
  let prio := s.rd pwrB PWR_CTRL_PRIO
  let c := s.rd pwrB PWR_STATUS_CBUD
  let k := s.rd pwrB PWR_STATUS_SBUD
  let target := 10 * (s.limitW - s.rd pwrB PWR_CTRL_GUARD_W)
  let caps := if s.pwr.beyond then (7, 7) else (s.rd pwrB PWR_CTRL_CMAX, s.rd pwrB PWR_CTRL_SMAX)
  if target < dw then
    let s := { s with pwr := { s.pwr with quiet := 0 } }
    match raiseFirst prio c k caps.1 caps.2 with
    | some l => s.setBudget l ((if l = 0 then c else k) + 1)
    | none =>
      if s.pwr.beyond then s
      else
        let s := ({ s with pwr := { s.pwr with beyond := true } } : State).emit pwrSrc 0x0703 [dw / 10]
        match raiseFirst prio c k 7 7 with
        | some l => s.setBudget l ((if l = 0 then c else k) + 1)
        | none => s
  else if dw + 10 * s.rd pwrB PWR_CTRL_UP_MARGIN_W ≤ target then
    let q := s.pwr.quiet + 1
    if q < s.rd pwrB PWR_CTRL_UP_PERIODS then { s with pwr := { s.pwr with quiet := q } }
    else
      let s := { s with pwr := { s.pwr with quiet := 0 } }
      match lowerFirst prio c k with
      | some l =>
        let s := s.setBudget l ((if l = 0 then c else k) - 1)
        let back := s.rd pwrB PWR_STATUS_CBUD ≤ s.rd pwrB PWR_CTRL_CMAX ∧ s.rd pwrB PWR_STATUS_SBUD ≤ s.rd pwrB PWR_CTRL_SMAX
        { s with pwr := { s.pwr with beyond := s.pwr.beyond && !decide back } }
      | none => s
  else { s with pwr := { s.pwr with quiet := 0 } }

/-- Power of rails `lo` to `hi` in 0.1 W. -/
def railSum (l : List RailSample) (lo hi : Nat) : Nat := ((l.drop lo).take (hi + 1 - lo)).foldl (fun n r => n + r.dw) 0

/-- Rail 2-43 is on: in recovery mode those of C0 alone, rails 2, 4 and 6 (R479). -/
def State.railOn (s : State) (rail : Nat) : Bool := s.pwr.rails && (!s.pwr.c0Only || decide (rail = 2 ∨ rail = 4 ∨ rail = 6))

/-- A rail meets a lockout condition of Table 16-5: rails 2-43 have set points while they are on. -/
def State.sagging (s : State) (rail mv set : Nat) : Bool :=
  if rail = 0 then decide (mv < 46000)
  else if rail = 1 then decide (mv < 11000)
  else s.railOn rail && decide (rail < 44 ∧ 100 * mv < 95 * set)

/-- A reading of IN48 (Table 20-4): below 47.0 V it does not qualify any longer. -/
def State.seeIn48 (s : State) (mv : Nat) : State :=
  let v := if mv < 42000 then In48.absent else if mv < 47000 ∨ s.pwr.in48 = .absent then .present else s.pwr.in48
  { s with pwr := { s.pwr with in48 := v } }

/-- A rail's voltage as it is read; rail 0 is IN48. -/
def State.readMv (s : State) (r mv : Nat) : State :=
  let s := s.wr pwrB (PWR_RAIL_MV.at (8 * r)) (min 65535 mv)
  if r = 0 then s.seeIn48 mv else s

/-- A rail's reading; PWR_RAIL.SAG falls when the rail no longer meets its condition (R456). -/
def State.readRail (s : State) (r : Nat) (x : RailSample) : State :=
  let s := (s.readMv r x.mv).wr pwrB (PWR_RAIL_DW.at (8 * r)) (min 65535 x.dw)
  if s.sagging r x.mv x.set then s else s.clear pwrB (PWR_RAIL_SAG.at (8 * r))

/-- CONTROL_PERIOD (R433-R438): measurements, counters, one action, and then the pending PWR_CTRL values take effect. -/
def execControlPeriod (rails : List RailSample) (s : State) : Res :=
  if (rails.getD 0 ⟨0, 0, 0⟩).mv > 60000 ∨ (rails.getD 1 ⟨0, 0, 0⟩).mv > 14000 then .fault .beyondRatings
  else
    .next (if !s.pwr.in12 then s
      else
        let board := railSum rails 0 1
        let s := (List.range 45).foldl (fun (a : State) r =>
          match rails[r]? with
          | some x => a.readRail r x
          | none => a) s
        let s := ((s.wr pwrB PWR_MEAS_BOARD_W (min 65535 (board / 10))).wr pwrB PWR_MEAS_CDIE_W (min 65535 (railSum rails 2 7 / 10))).wr pwrB
          PWR_MEAS_STACK_W (min 65535 (railSum rails 8 43 / 10))
        let s := s.wr pwrB PWR_MEAS_PEAK_W (max (s.rd pwrB PWR_MEAS_PEAK_W) (min 65535 (board / 10)))
        let s := s.countTime
        let s := if s.pwr.rails then s.regulate board else s
        s.effects pwrB
          [PWR_CTRL_LIMIT_W, PWR_CTRL_GUARD_W, PWR_CTRL_PRIO, PWR_CTRL_CMAX, PWR_CTRL_SMAX, PWR_CTRL_UP_MARGIN_W, PWR_CTRL_UP_PERIODS])

/-- A ladder's budget level rises to at least 3. -/
def State.atLeast3 (s : State) (l : Nat) : State :=
  let v := s.rd pwrB (if l = 0 then PWR_STATUS_CBUD else PWR_STATUS_SBUD)
  if v < 3 then s.setBudget l 3 else s

/-- FAST_TRIP (R443): the average over 1 µs exceeds the limit. An excess 2 µs after a trip raises the other ladder, one before that is the same trip, and one from 3 µs on is a new trip (DESIGN CHOICE, log 34). -/
def execFastTrip (watts : Nat) (s : State) : Res :=
  .next (if !s.pwr.rails || decide (watts ≤ s.limitW) then s
    else
      let new := fun (s : State) =>
        let l := if s.rd pwrB PWR_CTRL_PRIO = 1 then 1 else 0
        let s := { s with pwr := { s.pwr with fastAt := some (s.tsc, decide (l = 0)) } }
        ((s.atLeast3 l).countP PWR_FAST_COUNT 1).emit pwrSrc 0x0704 [watts, l]
      match s.pwr.fastAt with
      | some (t, c) =>
        if s.tsc < t + 2000 then s
        else if s.tsc < t + 3000 then s.atLeast3 (if c then 1 else 0)
        else new s
      | none => new s)

/-! ### Power brake (R444, R521) -/

/-- A brake source changes: the pin, or PWR_BRAKE.SW. -/
def State.brakeGo (s : State) (pin on : Bool) : State :=
  let f := if pin then PWR_BRAKE_PIN else PWR_BRAKE_SW
  if s.flag pwrB f = on then s
  else
    let s := (s.wr pwrB f (if on then 1 else 0)).applyBrake
    if pin && !s.pwr.rails then s
    else s.emit pwrSrc (if on then 0x0705 else 0x0706) [if pin then 1 else 2]

def execPowerBrakeAssert (pin : Bool) (s : State) : Res := .next (if s.pwr.in12 then s.brakeGo pin true else s)
def execPowerBrakeRelease (pin : Bool) (s : State) : Res := .next (if s.pwr.in12 then s.brakeGo pin false else s)

/-! ### AVS and droop (R445, R446) -/

/-- The set point of an island (R445). -/
def State.setPoint (s : State) (die island : Nat) : Nat := (look noRow s.pwr.set (die + 2 * island)).getD (s.brup.parts.avs.getD die 0)

/-- AVS_UPDATE (R445): `move` 0 keeps the set point, 1 and 2 move it by 5 mV, and 3 needs a value beyond VMAX; it stays between VMIN and VMAX. -/
def execAvsUpdate (die : Fin 2) (island move : Nat) (s : State) : Res :=
  .next (if !s.pwr.rails || (s.pwr.c0Only && decide (die.val = 1)) then s
    else
      let old := s.setPoint die.val island
      let hi := s.brup.parts.vmax.getD die.val 0
      let v := if move = 1 then old + 5 else if move = 2 then max (s.brup.parts.vmin.getD die.val 0) (old - 5) else if move = 3 then hi + 1 else old
      let s := { s with pwr := { s.pwr with set := put noRow s.pwr.set (die.val + 2 * island) (some (min hi v)) } }
      if hi < v then (s.raise pwrB PWR_STATUS_AVS_LIM).emit pwrSrc 0x0731 [die.val, island] else s)

/-- A tile without a droop in progress. -/
def noStretch (_ : Nat) : Nat × Nat := (0, 0)

/-- DROOP_DETECT (R446): more TCLK cycles are stretched; event 0x0730 when the stretching has lasted 1 µs. -/
def execDroopDetect (island : TileId) (by_ : Stretch) (s : State) : Res :=
  .next (let t := island.toNat
    if !s.tileUp t then s
    else
      let old := look noStretch s.pwr.stretch t
      let s := (s.count (tileB t) TILE_DROOP_CYC_COUNT by_.cycles pwrSrc 0x070F)
      let s := { s with pwr := { s.pwr with stretch := put noStretch s.pwr.stretch t (old.1 + by_.cycles, old.2 + by_.ns) } }
      if old.2 < 1000 ∧ 1000 ≤ old.2 + by_.ns then s.emit t 0x0730 [old.1 + by_.cycles] else s)

/-- DROOP_RECOVER (R446). -/
def execDroopRecover (island : TileId) (s : State) : Res :=
  .next { s with pwr := { s.pwr with stretch := put noStretch s.pwr.stretch island.toNat (0, 0) } }

/-! ### Temperature (R447-R450) -/

/-- State of a sensor: 0 NORMAL, 1 WARNING, 2 THROTTLE. -/
def State.sensor (s : State) (i : Nat) : Nat := bitsOf (s.rd pwrB THERM_STAT_STATE) (2 * i) 2
/-- Reading of a sensor in 0.125 °C. -/
def State.reading (s : State) (i : Nat) : Int :=
  signed 12 (if i < 2 then s.rd pwrB (THERM_TEMP_C_T.at (8 * i)) else s.rd pwrB (THERM_MODEL_T.at (8 * (i - 2))))

/-- Table 16-4 in 0.125 °C: warning, its clear value, throttle, its clear value, shutdown, restart. -/
def thresholds (i : Nat) : List Int := (if i < 2 then [95, 90, 105, 100, 115, 90] else [85, 80, 95, 90, 105, 80]).map (· * 8)
def threshold (i n : Nat) : Int := (thresholds i).getD n 0

/-- The state of a sensor after a reading (R449): leaving THROTTLE leads to WARNING until that clears too (DEDUCED, log 35). -/
def nextSensor (i st : Nat) (r : Int) : Nat :=
  if threshold i 2 ≤ r then 2
  else if st = 2 ∧ threshold i 3 ≤ r then 2
  else if threshold i 0 ≤ r then 1
  else if st ≠ 0 ∧ threshold i 1 ≤ r then 1
  else 0

/-- THERM_ALERT_N: any sensor beyond NORMAL, or a thermal trip until the restart (R450, R524). -/
def State.applyAlert (s : State) : State :=
  let tripped := s.pwr.in12 && (match s.therm.note with | some r => s.therm.off && decide (r.code = 0x0713) | none => false)
  s.wr pwrB THERM_STAT_ALERT (if s.rd pwrB THERM_STAT_STATE ≠ 0 ∨ tripped = true then 1 else 0)

/-- A sensor takes its reading (R449, R450). -/
def State.sense (s : State) (i : Nat) : State :=
  let old := s.sensor i
  let r := s.reading i
  let new := nextSensor i old r
  let d := [i, wrapTo 12 r]
  let s := s.wr pwrB THERM_STAT_STATE (setBits (s.rd pwrB THERM_STAT_STATE) (2 * i) 2 new)
  let s := if old = 2 ∧ new ≠ 2 then s.emit thermSrc 0x0712 d else s
  let s := if new = 1 ∧ old ≠ 1 then s.emit thermSrc 0x0710 d else s
  if new = 2 ∧ old ≠ 2 then
    let s := { s with therm := { s.therm with floor := put (fun _ => 0) s.therm.floor i (min 7 (s.floorOf i + 1)) } }
    s.emit thermSrc 0x0711 d
  else s

/-- THERMAL_SAMPLE (R447, R448): diode readings in 0.125 °C, C-dies first; stack power in 0.1 W. The filter keeps 20 fraction bits (DESIGN CHOICE, log 36). -/
def execThermalSample (diodes : List Int) (power : List Nat) (s : State) : Res :=
  .next (if !s.pwr.in12 then s
    else
      let s := upto 2 (fun d (a : State) => a.wr pwrB (THERM_TEMP_C_T.at (8 * d)) (wrapTo 12 (diodes.getD d 0))) s
      let s := upto 12 (fun k (a : State) =>
        let tb := diodes.getD (2 + k) 0
        let tau := 1000 * a.rd pwrB (THERM_MODEL_TAU_MS.at (8 * k))
        let p : Int := (((if a.railOn (8 + k) then power.getD k 0 else 0 : Nat) : Int)) * 2 ^ 20
        let pf := look (fun _ => (0 : Int)) a.therm.pf k
        let pf := if tau = 0 then p else pf + (p - pf) * 100 / (tau : Int)
        let t := tb + ((a.rd pwrB (THERM_MODEL_RTH.at (8 * k)) : Nat) : Int) * pf * 8 / (10000 * 2 ^ 20)
        let a := { a with therm := { a.therm with pf := put (fun _ => (0 : Int)) a.therm.pf k pf } }
        (a.wr pwrB (THERM_TEMP_B_T.at (8 * k)) (wrapTo 12 tb)).wr pwrB (THERM_MODEL_T.at (8 * k)) (wrapTo 12 t)) s
      ((List.range 14).foldl State.sense s).applyAlert.applyLevels)

/-- THERMAL_FLOOR_STEP (R450). -/
def execThermalFloorStep (s : State) : Res :=
  .next (if !s.pwr.in12 then s
    else
      ((List.range 14).foldl (fun (a : State) i =>
        let v := a.floorOf i
        { a with therm := { a.therm with floor := put (fun _ => 0) a.therm.floor i (if a.sensor i = 2 then min 7 (v + 1) else v - 1) } }) s).applyLevels)

/-! ### Shutdown and restart (R451, R452, R455) -/

/-- A shutdown records THERM_TRIP and keeps `code` with its data for after the restart. -/
def State.tripGo (s : State) (sensor t : Nat) (thermal : Bool) (mv : Nat) : State :=
  let n := s.rd pwrB THERM_TRIP_COUNT + 1
  let us := s.tsc / 1000 % 2 ^ 31
  let s := s.packageOff
  let s := (((s.wr pwrB THERM_TRIP_SENSOR sensor).wr pwrB THERM_TRIP_T t).wr pwrB THERM_TRIP_COUNT n).wr pwrB THERM_TRIP_TSC_US us
  let s := s.raise pwrB THERM_TRIP_VALID
  let note : Report := if thermal then ⟨thermSrc, 0x0713, [sensor, t, n % 65536, us, 1], s.tsc⟩ else ⟨pwrSrc, 0x0722, [mv], s.tsc⟩
  ({ s with therm := { s.therm with off := true, note := some note, trips := if thermal then s.tsc :: s.therm.trips else s.therm.trips } } : State).applyAlert

/-- THERMAL_SHUTDOWN (R451): the sensor reads its shutdown value. -/
def execThermalShutdown (sensor : Fin 14) (s : State) : Res :=
  .next (if s.pwr.rails && decide (threshold sensor.val 4 ≤ s.reading sensor.val) then
      s.tripGo sensor.val (wrapTo 12 (s.reading sensor.val)) true 0
    else s)

/-- Every sensor reads below its restart value. -/
def State.cool (s : State) : Bool := (List.range 14).all (fun i => decide (s.reading i < threshold i 5))

/-- The restart conditions of R452; an undervoltage restart has no TRIP_MAX condition (R455). -/
def State.mayRestart (s : State) (thermal : Bool) : Bool :=
  s.cool && s.flag pwrB THERM_CTRL_AUTO_RESTART &&
    (!thermal || decide ((s.therm.trips.filter (fun t => decide (s.tsc < t + 3600000000000))).length < s.rd pwrB THERM_CTRL_TRIP_MAX))

/-- The shutdown that keeps the rails off was thermal. -/
def State.thermalOff (s : State) : Bool := match s.therm.note with | some r => decide (r.code = 0x0713) | none => true

/-- THERMAL_RESTART (R452): after an undervoltage shutdown it needs IN48 again (R455). -/
def execThermalRestart (s : State) : Res :=
  .next (if s.pwr.in12 && s.therm.off && (s.thermalOff || decide (s.pwr.in48 = .qualified)) && s.mayRestart s.thermalOff then s.cardResetGo.applyAlert else s)

/-- UNDERVOLTAGE_SHUTDOWN (R455): IN48 below 42.0 V; with the rails off IN48 only ceases to qualify (Table 20-4). An open PB_PRSNT_N turns the hot-swap switch off (R522), and with it the rails lose IN48 (DEDUCED, log 82). -/
def execUndervoltageShutdown (x : In48Loss) (s : State) : Res :=
  .next (if 42000 ≤ x.mv ∧ !x.opens then s
    else
      let s := if s.pwr.in12 then s.readMv 0 x.mv else s
      let s := { s with pwr := { s.pwr with prsnt := s.pwr.prsnt && !x.opens, switch := s.pwr.switch && !x.opens } }
      if s.pwr.rails then
        let (n, s) := s.fresh
        s.tripGo 14 (Config.tripReading n % 2 ^ 12) false x.mv
      else s)

/-! ### Supply sag (R453, R454) -/

/-- SUPPLY_SAG_LOCKOUT (R453): a rail meets its condition. -/
def execSupplySagLockout (rail : Nat) (x : RailSample) (s : State) : Res :=
  .next (if !s.pwr.in12 || !s.sagging rail x.mv x.set then s
    else
      let s := (((s.readMv rail x.mv).wr pwrB SUPPLY_STAT_RAIL rail)).raise pwrB (PWR_RAIL_SAG.at (8 * rail))
      if s.lockout then s
      else
        let s := (s.raise pwrB SUPPLY_STAT_LOCKOUT).sat pwrB SUPPLY_STAT_COUNT 1
        ({ s with pwr := { s.pwr with lockAt := some s.tsc } } : State).emit pwrSrc 0x0720 [rail, x.mv])

/-- SUPPLY_SAG_RECOVER (R453): operations that were held run. -/
def execSupplySagRecover (s : State) : Res :=
  .next (if !s.lockout then s
    else
      let s := (List.range 44).foldl (fun (a : State) r => a.clear pwrB (PWR_RAIL_SAG.at (8 * r))) (s.clear pwrB SUPPLY_STAT_LOCKOUT)
      let us := (s.tsc - s.pwr.lockAt.getD s.tsc) / 1000
      let s := ({ s with pwr := { s.pwr with lockAt := none } } : State).emit pwrSrc 0x0721 [us]
      s.nvGo)

end Sys2Proof.Machine
end

