-- ==== Sys2Proof/Machine/BringUp.lean ====
section
/-! DEFINITION. Power-on, bring-up, card reset causes, supplies and loopbacks (R458-R481, R520-R523). -/

namespace Sys2Proof.Machine

/-! ### Power-on and supplies (R458, R523) -/

/-- The debug level at power-on of the management island (Table 18-7). -/
def levelOf (lc : Nat) : Nat := if lc = 1 then 0 else if lc = 2 then 1 else 2

/-- Step 0: the management island starts; what lies outside the card, and its flash, stay. -/
def State.islandOn (s : State) (p : FactoryParts) : State :=
  let b := { BrupSt.init with parts := p, made := true, flash := s.brup.flash, flashBad := s.brup.flashBad }
  let s : State := { State.reset with pending := s.pending, free := s.free, out := s.out, brup := b,
                                      pwr := { PwrSt.init with perst := s.pwr.perst, in48 := s.pwr.in48, prsnt := s.pwr.prsnt },
                                      card := { CardSt.init with trst := s.card.trst } }
  let s := s.loadFuses.wr secB SEC_DBG_LEVEL (levelOf p.lc)
  let s := if levelOf p.lc = 2 then s.raise secB SEC_DBG_TAINT else s
  match p.config with
  | none => s
  | some (mode, own, masks) =>
    let s := (s.wr cardB BRUP_CFG_ILV_MODE (if mode then 1 else 0)).wr cardB BRUP_CFG_MASKS (if own then 1 else 0)
    upto 5 (fun i (a : State) => a.wr cardB (BRUP_MASK_MASK.at (8 * i)) (masks.getD i 0)) s

/-- POWER_ON: IN12 arrives (R458). The operand gives the card its fuses and records the first time; afterwards they are the card's own, so that a fuse that is set stays set (R486; log 5). -/
def execPowerOn (parts : FactoryParts) (s : State) : Res := .next (s.islandOn (if s.brup.made then s.brup.parts else parts))

/-- IN12_REMOVAL (Table 20-4): the rails drop and the management island loses power; an update in step 2 leaves its image invalid (R493). -/
def execIn12Removal (s : State) : Res :=
  .next (if !s.pwr.in12 then s
    else
      let held := s.brup.update.isSome
      let s := s.islandOn s.brup.parts
      { s with regs := [], pwr := { s.pwr with in12 := false }, brup := { s.brup with flashBad := s.brup.flashBad || held } })

/-! ### Firmware images (R488, R489) -/

/-- The first failing reason of R489, or 0. -/
def verifyImage (p : FactoryParts) (i : Image) : Nat :=
  if !i.readable then 6
  else if !i.wellFormed then 1
  else if bit p.revoked i.keySlot || decide (some (Config.sha3 i.pubkey) ≠ p.keyHash[i.keySlot]?) then 2
  else if !Config.mldsaVerify i.pubkey (Config.sha3 i.header) i.sig then 3
  else if Config.sha3 i.body ≠ i.digest then 4
  else if i.svn < p.counter then 5
  else 0

/-! ### Bring-up (R458-R479) -/

/-- Bring-up stops at its step (R479). -/
def State.fail (s : State) (step reason : Nat) : State :=
  (((s.wr cardB BRUP_STAT_STEP step).raise cardB BRUP_STAT_FAILED).wr cardB BRUP_STAT_REASON reason).emit felvikSrc 0x0907 [step, reason]
def State.failed (s : State) : Bool := s.flag cardB BRUP_STAT_FAILED

/-- The image that step 1 verifies. -/
def State.image (s : State) (i : Image) : Image := s.brup.flash.getD i

/-- Step 1 (R490, R495, R502): an invasive grant that waited for the card reset takes effect here. -/
def State.step1 (s : State) (i : Image) : State :=
  let s := s.wr cardB BRUP_STAT_STEP 1
  let i := s.image i
  let (n, s) := s.fresh
  let v := verifyImage s.brup.parts i
  let r := if s.brup.flashBad ∧ v = 0 then 1 + Config.badImageReason n % 6 else v
  let grant := fun (a : State) => if a.sec.unlock then ({ a with sec := { a.sec with unlock := false } } : State).setLevel 2 2 else a
  if r = 0 then
    let s := { s with brup := { s.brup with running := some i } }
    let s := (s.wr secB SEC_KEYS_BOOT_SLOT i.keySlot).wr secB SEC_KEYS_SVN i.svn
    grant ((s.extendMeas 0 (Config.sha3 i.header)).measureSec.emit felvikSrc 0x0801 [i.keySlot, i.svn])
  else
    let s := (s.raise secB SEC_RECOV_ACTIVE).wr secB SEC_RECOV_REASON r
    (grant (s.emit felvikSrc 0x0802 [r])).fail 1 1

/-- Step 2: the hot-swap switch and the rails come on, AVS starts from the fused set points, and a brake that is asserted applies (R458, R520, R522); in recovery mode the rails are C0's alone (R479). -/
def State.step2 (s : State) (c0 : Bool) : State :=
  let s := { s with pwr := { s.pwr with switch := true, rails := true, c0Only := c0, set := [] } }
  if s.flag pwrB PWR_BRAKE_PIN then s.applyBrake.emit pwrSrc 0x0705 [1] else s

/-- C0 alone is released in recovery mode, both dies otherwise. -/
def State.releaseDies (s : State) (dies : Nat) : State := { s with brup := { s.brup with dies := dies } }

/-- The sites of C0 in order of ascending x and then ascending y (R464). -/
def bootOrder : List Nat := (List.range 10).flatMap (fun x => (List.range 10).map (fun y => 16 * y + x))

/-- Tiles that the fused floor plan enables. -/
def State.fused (s : State) : List Nat := sites.filter (fun t => s.brup.parts.tiles.contains t)

/-- A boot tile among those that `ok` allows, with event 0x0908 when a candidate ahead of it was skipped. -/
def State.bootTile (s : State) (ok : Nat → Bool) : Option State :=
  let l := bootOrder.filter (fun t => s.fused.contains t)
  match l.find? ok with
  | none => none
  | some t =>
    let s := s.wr cardB BRUP_STAT_BOOT_TILE t
    match l.head? with
    | some u => some (if u = t then s else s.emit felvikSrc 0x0908 [u, t])
    | none => some s

/-- Step 4: seam training (R474); none when neither width trains. -/
def State.step4 (s : State) (f : BringUpFacts) : Option State :=
  let up := fun (a : State) => (a.raise seamB SEAM_STAT_UP).wr seamB SEAM_TRAIN_TSC_TSC a.tsc
  if f.seamFull then some (up s)
  else if f.seamHalf then
    some ((up (((s.raise cardB FP_SEAM_HALF).raise hostB FLT_BKT_SEAM_HALF).raise seamB SEAM_STAT_HALF)).emit felvikSrc 0x0906 [])
  else none

/-- The retirement record is cleared when that was asked for in the Manufacturing or Return lifecycle state (R481). -/
def State.clearRecord (s : State) (f : BringUpFacts) : State :=
  if f.cleared ∧ (s.rd secB SEC_LC_STATE = 0 ∨ s.rd secB SEC_LC_STATE = 3) then { s with brup := { s.brup with parts := { s.brup.parts with retired := [] } } } else s

/-- A loopback run ends (R480). -/
def State.loopbackDone (s : State) (itf depth chan errors : Nat) : State :=
  let e := min (2 ^ 32 - 1) errors
  ((s.raise cardB TEST_LPBK_STAT_DONE).wr cardB TEST_LPBK_STAT_ERRORS e).emit felvikSrc 0x0909 [itf, depth, chan, e]

/-- The loopback of a channel at bring-up (R467, Table 17-4: DEPTH 2): it passes without data errors and CRC errors. -/
def State.bornChan (s : State) (f : BringUpFacts) (c : Nat) : State :=
  if s.brup.parts.retired.contains c then s.moltAtBirth c 1
  else
    let e := ((f.loopback.find? (fun x => decide (x.1 = c))).map (·.2)).getD (0, 0)
    let s := s.loopbackDone 0 2 c e.1
    if e = (0, 0) then s else s.moltAtBirth c 2

/-- Step 6: absent stacks, recorded retirements and loopbacks (R466, R467). -/
def State.step6 (s : State) (f : BringUpFacts) : State :=
  (List.range 12).foldl (fun (a : State) k =>
    let chans := (List.range 32).map (fun c => 32 * k + c)
    if f.absent.contains k then chans.foldl (fun (b : State) c => b.moltAtBirth c 3) (a.emit felvikSrc 0x0905 [k])
    else chans.foldl (fun (b : State) c => b.bornChan f c) (a.raise (bdB k) B_ID_PRESENT)) (s.clearRecord f)

/-- Stacks whose B-die answered (R466). -/
def State.presentStacks (s : State) : List Nat := (List.range 12).filter (fun k => s.flag (bdB k) B_ID_PRESENT)

/-- Engines of a channel that the factory table lists, and those that its step 7 test finds; a retired channel is not tested (R471). -/
def State.listedEngines (s : State) (c : Nat) : List Nat := s.brup.parts.engines.filter (fun b => decide (b / 128 = c))
def State.failedEngines (s : State) (f : BringUpFacts) (c : Nat) : List Nat :=
  if s.retired c then [] else (f.engineFail.filter (fun b => decide (b / 128 = c) && !(s.listedEngines c).contains b)).eraseDups

/-- Step 7: DRAM initialisation, refresh epochs, clearing and the bank-engine test (R469-R471). -/
def State.step7 (s : State) (f : BringUpFacts) : State :=
  let s := { s with mem := { bytes := [], poison := [], errs := [] } }
  (List.range 384).foldl (fun (a : State) c =>
    let new := a.failedEngines f c
    let a := if a.retired c then a else a.setCc c { a.cc c with refresh := true, epoch := a.tsc }
    if new.isEmpty then a else a.emit felvikSrc 0x0904 [c / 32, c % 32, new.length]) s

/-- The instruction memory that the named pages of a Spawn image give (R472). -/
def spawnMem (pages : List (Nat × List Byte)) : SMap Word :=
  pages.foldl (fun m p => upto 512 (fun i m => put (fun _ => (0 : Word)) m (512 * p.1 + i) (BitVec.ofNat 64 (leNat ((p.2.drop (8 * i)).take 8)))) m) []

/-- The Spawn image: its bytes in the firmware image's body (Table 18-2). -/
def spawnBytes (i : Image) : List Byte := (i.body.drop i.spawnOff).take i.spawnLen

/-- What a tile receives in a run: the first copy and, when its digest does not match, the unicast copy (R472, R473). -/
def spawnCopies (f : BringUpFacts) (i : Image) (run t : Nat) : List Byte × List Byte :=
  match (f.spawnRuns.getD run []).find? (fun g => decide (g.1 = t)) with
  | some g => g.2
  | none => (spawnBytes i, spawnBytes i)

/-- A copy has the expected digest. -/
def spawnMatches (i : Image) (d : List Byte) : Bool := decide (Config.sha3 d = Config.spawnDigest (spawnBytes i))
/-- Neither copy that a tile receives matches (R473). -/
def spawnBad (f : BringUpFacts) (i : Image) (run t : Nat) : Bool :=
  let d := spawnCopies f i run t
  !spawnMatches i d.1 && !spawnMatches i d.2

/-- Bytes as a scratchpad holds them from offset 0 on: no zero byte is listed. -/
def spFrom (d : List Byte) : List (Nat × BitVec 8) := ((List.range d.length).zip d).filter (fun p => decide (p.2 ≠ 0))

/-- The Spawn image header is valid (R472): the length that Table 18-2 gives and the one that the image gives itself are in range. -/
def spawnOk (i : Image) : Bool :=
  decide (i.spawnLen ≤ 327680 ∧ Config.spawnLen (spawnBytes i) ≤ 327680) && (Config.spawnPages (spawnBytes i)).all (fun p => decide (p.1 < 64))

/-- The matrix of R73 is invertible over GF(2): no nonempty set of its rows sums to 0. -/
def invertible (masks : List Nat) (home : Nat) : Bool :=
  (List.range 32).all (fun k => k = 0 ||
    decide ((List.range 5).foldl (fun (n : Nat) i => if bit k i then n ^^^ bitsOf (masks.getD i 0) home 5 else n) 0 ≠ 0))

/-- A CC opens its interleaved window, or refuses to (R74, R462). -/
def State.openWindow (s : State) (c : Nat) (wide : Bool) (masks : List Nat) : State :=
  let b := ccB c
  let s := upto 5 (fun i (a : State) => a.wr b (CC_BANK_MASK_MASK.at (8 * i)) (masks.getD i 0)) (s.wr b CC_ILV_CTRL_MODE (if wide then 1 else 0))
  let s := s.raise b CC_ILV_CTRL_ENABLE
  if invertible masks (if wide then 18 else 17) then s
  else (s.raise b CC_ILV_CTRL_MASK_BAD).emit (ccSrc c) 0x0605 [if wide then 1 else 0]

/-- Step 9 writes the interleave mode and masks into every CC; values written through PF0 take effect here (R462). -/
def State.interleave (s : State) : State :=
  let s := s.effects cardB ([BRUP_CFG_ILV_MODE, BRUP_CFG_MASKS] ++ (List.range 5).map (fun i => BRUP_MASK_MASK.at (8 * i)))
  let wide := s.flag cardB BRUP_CFG_ILV_MODE
  let masks := if s.flag cardB BRUP_CFG_MASKS then (List.range 5).map (fun i => s.rd cardB (BRUP_MASK_MASK.at (8 * i)))
    else if wide then wideMasks else localMasks
  (List.range 384).foldl (fun (a : State) c => a.openWindow c wide masks) s

/-- M4: the interleave registers of CC 0x200. -/
def State.measureIlv (s : State) : State :=
  s.extendMeas 4 (Config.sha3 ([0x20, 0x28, 0x30, 0x38, 0x40, 0x48].flatMap (fun o => leBytes 8 (s.word (ccB 0 + o)))))

/-- FP_ENGOFF of pass group `g` of channel `c`. -/
def State.engOffWord (s : State) (f : BringUpFacts) (c g : Nat) : Nat :=
  let off := s.listedEngines c ++ s.failedEngines f c
  bitsWhere 64 (fun p => off.contains (engIdx c g p))

/-- The floor plan is published (R476) with the enabled tiles `good`. -/
def State.publishFloor (s : State) (f : BringUpFacts) (good : List Nat) : State :=
  let s := upto 8 (fun w (a : State) =>
    a.wr cardB (FP_TILES_TILES.at (8 * w)) (good.foldl (fun n t => if t / 64 = w then n + 2 ^ (t % 64) else n) 0)) s
  let s := (s.wr cardB FP_COUNTS_TILES_C0 (good.filter (fun t => decide (t < 256))).length).wr cardB FP_COUNTS_TILES_C1 (good.filter (fun t => decide (256 ≤ t))).length
  let s := s.wr cardB FP_STACKS_PRESENT (bitsWhere 12 (fun k => s.presentStacks.contains k))
  let s := (List.range 768).foldl (fun (a : State) w => a.wr cardB (FP_ENGOFF_OFF.at (8 * w)) (a.engOffWord f (w / 2) (w % 2))) s
  let off := (List.range 768).foldl (fun n w => n + popcount 64 (s.rd cardB (FP_ENGOFF_OFF.at (8 * w)))) 0
  (s.wr cardB FP_COUNTS_ENG_OFF off).wr cardB FP_GEN_GEN 1

/-- Step 9: interleave set-up, floor plan, tiles leave reset, READY (R458, R478, R491, R495). The boot tile's scratchpad holds the Spawn image, from offset 0 and with empty cells (R472; the offset and the cells are a DESIGN CHOICE, log 72). -/
def State.step9 (s : State) (f : BringUpFacts) (good : List Nat) (im : SMap Word) (sp : List Byte) : State :=
  let c0 := (good.filter (fun t => decide (t < 256))).length
  if c0 < 96 ∨ good.length - c0 < 96 ∨ good.length < 192 then s.fail 9 2
  else
    let s := (s.interleave.publishFloor f good).measureFloor.measureIlv
    let s := good.foldl (fun (a : State) t => a.setTile t { Tile.init with inReset := false, imem := im }) s
    let s := s.modTile (s.rd cardB BRUP_STAT_BOOT_TILE) (fun x => { x with sp := spFrom sp })
    let s := (s.raise cardB BRUP_STAT_READY).wr cardB BRUP_STAT_DUR_US ((s.tsc - s.brup.began) / 1000)
    let s := s.emit felvikSrc 0x0901 [good.length, s.rd cardB FP_COUNTS_CHAN_RET, popcount 12 (s.rd cardB FP_STACKS_PRESENT), s.rd cardB FP_SEAM_HALF]
    match s.brup.running with
    | some i => if i.rollFwd && decide (s.rd secB SEC_KEYS_COUNTER < i.svn) then s.askRoll false else s
    | none => s

/-- Bring-up is at a step. -/
def State.atStep (s : State) (n : Nat) : State := s.wr cardB BRUP_STAT_STEP n

/-- A run of Spawn whose boot tile holds a good copy ends (R472, R473): tiles that fail twice are disabled. -/
def State.spawnEnd (s : State) (f : BringUpFacts) (l : List Nat) (i : Image) (run : Nat) : State :=
  let s := (l.filter (fun t => spawnBad f i run t)).foldl (fun (a : State) t => a.emit felvikSrc 0x0903 [t, 2]) s
  (s.atStep 9).step9 f (l.filter (fun t => !spawnBad f i run t)) (spawnMem (Config.spawnPages (spawnBytes i))) (spawnBytes i)

/-- One run of Spawn from R472 step 2 on (R473): a boot tile whose own copy does not match is replaced by the next candidate, with which `again` goes on; `tried` are the boot tiles that have failed so. -/
def State.spawnStep (s : State) (f : BringUpFacts) (l : List Nat) (i : Image) (run : Nat) (tried : List Nat) (again : State → State) : State :=
  if spawnMatches i (spawnCopies f i run (s.rd cardB BRUP_STAT_BOOT_TILE)).1 then s.spawnEnd f l i run
  else
    match s.bootTile (fun u => l.contains u && !(s.rd cardB BRUP_STAT_BOOT_TILE :: tried).contains u) with
    | none => s.fail 8 2
    | some s => again s

/-- Spawn, run after run until a boot tile has a good copy (R473). A tile's answers in a run that is broken off do not count (DEDUCED, log 83). -/
def State.spawnRun (f : BringUpFacts) (l : List Nat) (i : Image) : Nat → Nat → List Nat → State → State
  | 0, _, _, s => s.fail 8 2
  | n + 1, run, tried, s => s.spawnStep f l i run tried (State.spawnRun f l i n (run + 1) (s.rd cardB BRUP_STAT_BOOT_TILE :: tried))

/-- Step 8 (R472, R473): the tiles of `l` take the image by Spawn. -/
def State.spawn (s : State) (f : BringUpFacts) (l : List Nat) (i : Image) : State :=
  State.spawnRun f l i (l.length + 1) 0 [] (s.extendMeas 2 (Config.spawnDigest (spawnBytes i)))

/-- Steps 8 and 9 over the tiles of `l`. -/
def State.steps89 (s : State) (f : BringUpFacts) (l : List Nat) : State :=
  match s.brup.running with
  | none => s.fail 8 4
  | some i => if spawnOk i then s.spawn f l i else s.fail 8 4

/-- Steps 6 to 9 over the tiles of `l`. -/
def State.steps69 (s : State) (f : BringUpFacts) (l : List Nat) : State :=
  let s := (s.atStep 6).step6 f
  if s.presentStacks.isEmpty then s.fail 6 5 else (((s.atStep 7).step7 f).atStep 8).steps89 f l

/-- Steps 5 to 9 over the tiles of `l`. -/
def State.steps59 (s : State) (f : BringUpFacts) (l : List Nat) : State :=
  match (s.atStep 5).bootTile (fun t => !f.tileFail.contains t) with
  | none => (s.atStep 5).fail 5 2
  | some s => s.steps69 f l

/-- Step 3: C0 leaves reset, and C1 unless bring-up is in recovery mode, and their tiles are tested (R465, R479). -/
def State.step3 (s : State) (f : BringUpFacts) (dies : Nat) : State :=
  (s.fused.filter (fun t => f.tileFail.contains t && decide (t / 256 < dies))).foldl (fun (a : State) t => a.emit felvikSrc 0x0903 [t, 1]) (s.releaseDies dies)

/-- Steps 3 to 9 once the rails are on. -/
def State.steps39 (s : State) (f : BringUpFacts) : State :=
  let s := ((s.atStep 3).step3 f 2).atStep 4
  match s.step4 f with
  | none => s.fail 4 3
  | some s => s.steps59 f (s.fused.filter (fun t => !f.tileFail.contains t))

/-- Recovery mode runs steps 2 and 3 for C0 alone, while BRUP_STAT names the step that failed (R479). -/
def State.recoveryRails (s : State) (f : BringUpFacts) : State := if s.pwr.rails then s else (s.step2 true).step3 f 1

/-- What step 2 finds of IN48 and its contact (R458, R522). -/
def State.findIn48 (s : State) (f : BringUpFacts) : State :=
  { s with pwr := { s.pwr with prsnt := f.prsnt, in48 := if f.in48Ok then .qualified else if s.pwr.in48 = .qualified then .present else s.pwr.in48 } }

/-- BRING_UP (R458): from its step to READY or failure; it waits at step 2 while IN48 does not qualify or its contact is open, and while EXTEST is in effect. -/
def execBringUp (f : BringUpFacts) (s : State) : Res :=
  .next (if !s.pwr.in12 || s.ready || (s.failed && (!s.flag secB SEC_RECOV_ACTIVE || s.pwr.rails)) || s.therm.off || s.inExtest then s
    else
      let s := if s.failed then s else if s.rd cardB BRUP_STAT_STEP ≤ 1 then s.step1 f.image else s
      let s := s.findIn48 f
      let ok := f.in48Ok && f.prsnt
      if s.failed then if ok then s.recoveryRails f else s
      else
        let s := s.wr cardB BRUP_STAT_STEP 2
        if ok then (s.step2 false).steps39 f else s)

/-! ### Card reset causes and supplies (R463, R521-R523) -/

/-- PERST_N_ASSERTION (Table 17-2, R459): before READY it does not interrupt bring-up. -/
def execPerstNAssertion (s : State) : Res :=
  .next (if s.pwr.perst then s
    else
      let s := { s with pwr := { s.pwr with perst := true } }
      if !s.pwr.in12 then s
      else if s.therm.off || s.flag hostB FLT_CARD_CARD_FAULT || s.failed then s.cardResetGo.applyAlert
      else s.linkLost 2)

/-- PERST_N_DEASSERTION (R459): the link may train. -/
def execPerstNDeassertion (s : State) : Res := .next { s with pwr := { s.pwr with perst := false } }

/-- IN48_QUALIFIED (R455, Table 20-4): bring-up goes on from step 2 at BRING_UP. -/
def execIn48Qualified (s : State) : Res :=
  .next (if !s.pwr.in12 then s
    else
      let s := { s with pwr := { s.pwr with in48 := .qualified } }
      if s.therm.off && !s.pwr.rails && !s.thermalOff && s.mayRestart false then s.cardResetGo.applyAlert else s)

/-! ### Loopbacks (R480, R481) -/

/-- A GO of TEST_LPBK_CTRL through BAR0: only a stack interface run on a retired channel is permitted. -/
def State.loopbackGo (s : State) : State :=
  let c := s.rd cardB TEST_LPBK_CTRL_CHANNEL
  if s.rd cardB TEST_LPBK_CTRL_IF = 0 ∧ c < 384 ∧ s.retired c then s.raise cardB TEST_LPBK_STAT_BUSY
  else s.raise cardB TEST_LPBK_STAT_REFUSED

/-- The run that a word of TEST_LPBK_CTRL names is one that the Felvik controller (`host` false) or the host may start now (Table 17-4): the seam link and the near ends of the host link with invasive debug, the far end of the host link by the host. -/
def State.mayLoop (s : State) (host : Bool) (w : Nat) : Bool :=
  let itf := bitsOf w 0 2
  let depth := bitsOf w 2 2
  if host then decide (itf = 2 ∧ depth = 2) && s.dlUp
  else decide (s.debugLevel = 2) && decide ((itf = 1 ∨ itf = 2) ∧ depth < 2)

/-- A run that the Felvik controller or the host starts: TEST_LPBK_CTRL names it, and the host link is down for a run on it (R480, R481). The link-down cause is 3 for a near end and 4 for the far end (DESIGN CHOICE, log 84). -/
def State.loopbackBy (s : State) (host : Bool) (w : Nat) : State :=
  if s.flag cardB TEST_LPBK_STAT_BUSY || decide (s.brup.dies = 0) then s
  else if !s.mayLoop host w then s.raise cardB TEST_LPBK_STAT_REFUSED
  else
    let s := (s.setWord (cardB + TEST_LPBK_CTRL_IF.off) (w % 2 ^ 48)).raise cardB TEST_LPBK_STAT_BUSY
    if bitsOf w 0 2 = 2 then s.linkLost (if host then 4 else 3) else s

/-- LOOPBACK_END (R480). -/
def execLoopbackEnd (errors : Nat) (s : State) : Res :=
  .next (if !s.flag cardB TEST_LPBK_STAT_BUSY then s
    else (s.clear cardB TEST_LPBK_STAT_BUSY).loopbackDone (s.rd cardB TEST_LPBK_CTRL_IF) (s.rd cardB TEST_LPBK_CTRL_DEPTH) (s.rd cardB TEST_LPBK_CTRL_CHANNEL) errors)

/-! ### Card commands (R462, R463) -/

/-- BRUP_CMD with its key: a save is asked for before a reset of the same write. -/
def State.cardCmd (s : State) (reset save : Bool) : State :=
  let s := if save then (s.askNv .save).nvGo else s
  if reset then s.cardResetGo.applyAlert else s

end Sys2Proof.Machine
end

