-- ==== Sys2Proof/Machine/Security.lean ====
section
/-! DEFINITION. Security, attestation and debug: updates, the DOE mailbox, quotes, IDE keying, signed commands, debug halts and power states (R486-R509). -/

namespace Sys2Proof.Machine

/-! ### Firmware update (R492-R494) -/

/-- An update ends with a status of Table 18-3. -/
def State.updateEnd (s : State) (status : Nat) : State :=
  let s := { s with brup := { s.brup with update := none, nv := s.brup.nv.filter (fun o => decide (o ≠ NvOp.update)) } }
  let held := s.lockout && s.brup.nv.any (fun o => match o with | .roll _ _ => true | _ => false)
  let s := ((s.clear secB SEC_FW_STAT_BUSY).wr secB SEC_FW_STAT_HELD (if held then 1 else 0)).raise secB SEC_FW_STAT_DONE
  ((s.wr secB SEC_FW_STAT_STATUS status).emit felvikSrc 0x0803 [status]).nvGo

/-- SEC_FW_CMD OP 1 with GO: refused under a lockout, otherwise the update waits for its turn. -/
def State.updateGo (s : State) : State :=
  if s.lockout then s.updateEnd 0x13
  else ((s.raise secB SEC_FW_STAT_BUSY).wr secB SEC_FW_STAT_PAGES 0).askNv .update

/-- SEC_FW_CMD OP 3 with GO (R491). -/
def State.rollGo (s : State) : State := (s.raise secB SEC_FW_STAT_BUSY).askRoll true

/-- Bytes of the image, and its pages of 4 KiB (SEC_FW_LEN, R492). -/
def State.fwLen (s : State) : Nat := s.rd secB SEC_FW_LEN_LEN
def State.fwPages (s : State) : Nat := (s.fwLen + 4095) / 4096

/-- Bytes `[at_, at_ + n)` of a list, zeros beyond its end. -/
def bytesAt (l : List Byte) (at_ n : Nat) : List Byte :=
  let d := (l.drop at_).take n
  d ++ List.replicate (n - d.length) 0

/-- The flash image after an update, or what an update that failed has programmed of it. -/
def State.flashIs (s : State) (bytes : List Byte) (bad : Bool) : State :=
  { s with brup := { s.brup with flash := some ⟨true, bytes⟩, flashBad := bad } }

/-- The Felvik controller reads `n` bytes of the image from byte `at_` in host memory, under PF0's requester ID, one request after the other (R364, R374, R492). -/
def State.readImage (s : State) (at_ n : Nat) : State :=
  (splitReads s.host.mrrs (n + 1) (64 * s.rd secB SEC_FW_ADDR_ADDR + at_) n).foldl (fun (a : State) (p : Nat × Nat) => a.send (.hostRead 0 a.freeTag p.1 p.2)) s

/-- A request of the Felvik controller may be sent: nothing waits before it, and a tag and its read units are free (R374). -/
def State.mayReadImage (s : State) : Bool := s.host.waiting.isEmpty && s.mayRead (s.host.mrrs / 64)

/-- Step 3 and step 4 (R492): the programmed image is read back and verified. -/
def State.updateVerify (s : State) (bytes : List Byte) (readBackBad : Bool) : State :=
  if verifyImage s.brup.parts ⟨!readBackBad, bytes⟩ ≠ 0 then (s.flashIs bytes true).updateEnd 0x12
  else
    let s := (s.flashIs bytes false).updateEnd 0
    if s.flag secB SEC_RECOV_ACTIVE then s.cardResetGo else s

/-- Step 2 (R492): up to `f.pages` more pages of the image are read and programmed. -/
def State.updatePages (s : State) (r : UpdateRun) (f : UpdateFacts) : State :=
  let at_ := r.bytes.length
  let bytes := r.bytes ++ bytesAt f.host at_ (min (4096 * f.pages) (s.fwLen - at_))
  let s := (s.readImage at_ (bytes.length - at_)).wr secB SEC_FW_STAT_PAGES ((bytes.length + 4095) / 4096)
  let s := { s with brup := { s.brup with update := some ⟨bytes⟩ } }
  if s.fwLen ≤ bytes.length then s.updateVerify bytes f.readBackBad
  else if f.fail2 ≠ 0 then (((s.readImage bytes.length (min 4096 (s.fwLen - bytes.length))).hostErr 0 f.fail2).flashIs bytes true).updateEnd 0x11
  else s

/-- An update in step 2 goes on: under a lockout it pauses after the page that it has completed (R493). -/
def State.updateMore (s : State) (r : UpdateRun) (f : UpdateFacts) : State :=
  if s.lockout then
    if s.flag secB SEC_FW_STAT_HELD then s else (s.raise secB SEC_FW_STAT_HELD).emit felvikSrc 0x0804 [1]
  else if !s.hostLive 0 then (s.flashIs r.bytes true).updateEnd 0x11
  else if !s.mayReadImage then s
  else (s.clear secB SEC_FW_STAT_HELD).updatePages r f

/-- Step 1 (R492): the image is read and verified. -/
def State.updateFirst (s : State) (f : UpdateFacts) : State :=
  if !s.hostLive 0 then s.updateEnd 0x10
  else if !s.mayReadImage then s
  else
    let s := (s.readImage 0 s.fwLen).hostErr 0 f.fail1
    let v := verifyImage s.brup.parts ⟨true, bytesAt f.host 0 s.fwLen⟩
    if f.fail1 ≠ 0 then s.updateEnd 0x10
    else if v ≠ 0 then s.updateEnd v
    else s.updatePages ⟨[]⟩ f

/-- A round of an update whose turn it is (R493). -/
def State.updateRun (s : State) (f : UpdateFacts) : State :=
  let s := s.nvGo
  if s.brup.nv.head? ≠ some .update then s
  else
    match s.brup.update with
    | some r => s.updateMore r f
    | none => if s.lockout then s else s.updateFirst f

/-! ### The DOE mailbox (R494-R503) -/

/-- The mailbox answers: configuration requests reach PF0. -/
def State.doeUp (s : State) : Bool := s.dlUp
def State.recovery (s : State) : Bool := s.flag secB SEC_RECOV_ACTIVE

/-- A Valloth response. -/
def State.answer (s : State) (code status : Nat) (payload : List Byte) : State :=
  s.send (.doe ([BitVec.ofNat 8 code, BitVec.ofNat 8 status, 0, 0] ++ payload))

/-- A Valloth request: recovery mode answers none but GET_MEAS. -/
def State.doe (s : State) (f : State → State) : State := if s.doeUp && !s.recovery then f s else s

/-- A Discovery response: the protocols listed are Discovery and the Valloth messages; other indices as PCIe defines (PRESUMED, log 21). -/
def State.discovery (s : State) (index : Nat) : State :=
  if !s.doeUp then s
  else
    let v := if index = 0 then 0x0001 + 0x00 * 2 ^ 16 + 1 * 2 ^ 24 else if index = 1 then 0x1F5E + 0x01 * 2 ^ 16 else 0xFFFF
    s.send (.doe (leBytes 4 v))

/-- GET_IDENTITY: the public key and the certificate lie in SPI flash (R487). -/
def State.getIdentity (s : State) : State :=
  s.doe (fun s => s.answer 0x01 0 (leBytes 8 (s.rd cardB ID_SERIAL_SERIAL) ++ s.brup.parts.idPub ++ s.brup.parts.idCert))

/-- Bytes 0-327 of a quote (Table 18-6). -/
def State.quoteHead (s : State) (signed_ session : Bool) (nonce : BitVec 256) : List Byte :=
  let flags := s.rd secB SEC_DBG_TAINT + (if signed_ then 2 else 0) + (if session then 4 else 0) + (if s.recovery then 8 else 0)
  let n := fun (v : Nat) => BitVec.ofNat 8 v
  [1, n (s.rd secB SEC_LC_STATE), n s.debugLevel, n flags, 0, 0, 0, 0] ++ leBytes 8 (s.rd cardB ID_SERIAL_SERIAL) ++ leBytes 8 s.tsc ++
    leBytes 4 (s.rd cardB FP_GEN_GEN) ++ [0, 0, 0, 0] ++ leBytes 32 nonce.toNat ++
    (if s.recovery then List.replicate 256 0 else (List.range 8).flatMap s.meas) ++
    [n (s.rd secB SEC_KEYS_SVN), n (s.rd secB SEC_KEYS_COUNTER), n (s.rd secB SEC_KEYS_BOOT_SLOT), n (s.rd secB SEC_KEYS_REVOKED), 0, 0, 0, 0]

/-- GET_MEAS: its request carries no nonce, so those bytes are free. -/
def State.getMeas (s : State) : State :=
  if !s.doeUp then s
  else
    let (n, s) := s.fresh
    s.answer 0x02 0 (s.quoteHead false false (Config.measNonce n))

/-- Quotes are signed (R498). -/
def State.signs (s : State) : Bool := s.sec.idSeed.isSome && !s.flag secB SEC_DBG_TAINT

/-- QUOTE (R497, R499, R500): a new quote ends any session; with SESSION it makes a fresh key pair. -/
def State.quoteGo (s : State) (nonce : BitVec 256) (session : Bool) : State :=
  s.doe (fun s =>
    let (num, s) := s.fresh
    let q := s.quoteHead s.signs session nonce ++ (if session then Config.kemPublic num else [])
    let q := if s.signs then q ++ Config.identitySign (s.sec.idSeed.getD 0) (Config.sha3 q) else q
    let new : Option Session := if session then some ⟨num, Config.sha3 q, none, 0, 0⟩ else none
    ({ s with sec := { s.sec with session := new } } : State).answer 0x03 0 q)

/-- KEY_EXCH (R499). -/
def State.keyExch (s : State) (ct : List Byte) : State :=
  s.doe (fun s =>
    if ct.length ≠ 1088 then s.answer 0x04 1 []
    else
      match s.sec.session with
      | none => s.answer 0x04 4 []
      | some x =>
        let k := Config.sha3 (leBytes 32 (Config.kemDecaps x.num ct).toNat ++ leBytes 32 x.quote.toNat)
        ({ s with sec := { s.sec with session := some { x with key := some k, ivIn := 0, ivOut := 0 } } } : State).answer 0x04 0 [])

/-- The effect of an IDE_KM message on its stream, as PCIe and CXL define it (R376, R499; log 21): 1 KEY_PROG, 2 K_SET_GO, 3 K_SET_STOP. A stream that PF0 does not have is not keyed. -/
def State.ideKey (s : State) (kind stream set : Nat) : State :=
  let i := look ideClear s.host.ide stream
  let put_ := fun (a : State) (x : IdeStream) => ({ a with host := { a.host with ide := put ideClear a.host.ide stream x } } : State)
  if !s.host.ideStreams.contains stream then s
  else if kind = 1 then put_ s { i with keys := setBits i.keys set 1 1 }
  else if kind = 2 then
    if bit i.keys set then (put_ s { i with st := .secure }).emit secSrc 0x080A [stream, set, 1] else s
  else if kind = 3 then (put_ s { st := .insecure, keys := setBits i.keys set 1 0 }).emit secSrc 0x080A [stream, set, 2]
  else s

/-- IDE_KM (R499): a wrong IV, or a message that does not open, is refused with status 5. -/
def State.ideKm (s : State) (iv : Nat) (msg : List Byte) : State :=
  s.doe (fun s =>
    match s.sec.session with
    | none => s.answer 0x05 4 []
    | some x =>
      match x.key with
      | none => s.answer 0x05 4 []
      | some k =>
        if iv ≠ x.ivIn then s.answer 0x05 5 []
        else
          match Config.aesOpen k iv msg with
          | none => s.answer 0x05 5 []
          | some m =>
            let (kind, stream, set) := Config.ideKmParse m
            let s := { s with sec := { s.sec with session := some { x with ivIn := x.ivIn + 1, ivOut := x.ivOut + 1 } } }
            if 3 < kind then s.answer 0x05 1 []
            else (s.ideKey kind (stream % 256) (set % 2)).answer 0x05 0 (Config.aesSeal k x.ivOut (Config.ideKmAnswer m)))

/-- GET_NONCE (R503). -/
def State.getNonce (s : State) : State :=
  s.doe (fun s =>
    let (i, s) := s.fresh
    let n := Config.nonce i
    ({ s with sec := { s.sec with nonce := some n } } : State).answer 0x06 0 (leBytes 32 n.toNat))

/-! ### Signed commands (R501-R504) -/

/-- The format of a signed command (check 1): its fields take the values of Table 18-8. -/
def cmdFormed (c : SignedCmd) : Bool :=
  decide (c.bytes.length = 3796 ∧ c.at_ 0 4 = 0x641270CE ∧ c.keySlot < 4 ∧ c.at_ 7 1 = 0 ∧ c.at_ 48 16 = 0) &&
    decide ((c.kind = 1 ∧ c.value = 2) ∨ (c.kind = 2 ∧ c.value < 4) ∨ (c.kind = 3 ∧ c.value < 4))

/-- Lifecycle targets (Table 18-7). -/
def lcTargets (lc : Nat) : List Nat := [[1, 2], [3], [1, 3], []].getD lc []

/-- A slot is revoked, or its revocation waits. -/
def State.revoking (s : State) (k : Nat) : Bool :=
  bit s.brup.parts.revoked k || s.brup.nv.any (fun o => match o with | .revoke j _ => decide (j = k) | _ => false)
/-- A lifecycle change waits for its turn. -/
def State.lcWaits (s : State) : Bool := s.brup.nv.any (fun o => match o with | .lifecycle _ _ => true | _ => false)

/-- The first check of R503 that fails, from check 4 on; 0 when all hold. Accepted changes that still wait count as made (DESIGN CHOICE, log 40). -/
def State.lateCheck (s : State) (c : SignedCmd) : Nat :=
  let p := s.brup.parts
  let lc := s.rd secB SEC_LC_STATE
  if bit p.revoked c.keySlot || decide (some (Config.sha3 c.pubkey) ≠ p.keyHash[c.keySlot]?) then 4
  else if !Config.mldsaVerify c.pubkey (Config.sha3 c.head) c.sig then 5
  else if (c.kind = 1 ∧ lc ≠ 1 ∧ lc ≠ 2) ∨ (c.kind = 2 ∧ (!(lcTargets lc).contains c.value || s.lcWaits)) then 6
  else if c.kind ≠ 1 ∧ s.lockout then 7
  else if c.kind = 3 ∧ ((List.range 4).all (fun k => decide (k = c.value) || s.revoking k) ∨ (s.brup.running.isSome ∧ s.rd secB SEC_KEYS_BOOT_SLOT = c.value)) then 8
  else 0

/-- A signed command is refused: status 5 for its signature, 2 otherwise (DEDUCED, log 40). -/
def State.refuseCmd (s : State) (c : SignedCmd) (check : Nat) : State :=
  (s.emit secSrc 0x0808 [c.kind, check]).answer 0x07 (if check = 5 then 5 else 2) []

/-- An accepted signed command (R501, R502, R504): its fuses are written in order of request with the other non-volatile operations (R493), and the response goes out before any card reset (DEDUCED, log 40). -/
def State.runCmd (s : State) (c : SignedCmd) : State :=
  if c.kind = 1 then
    if s.rd secB SEC_LC_STATE = 1 then ({ s.answer 0x07 0 [] with sec := { s.sec with unlock := true } } : State).cardResetGo
    else (s.setLevel 2 2).answer 0x07 0 []
  else ((s.answer 0x07 0 []).askNv (if c.kind = 2 then .lifecycle c.value false else .revoke c.value false)).nvGo

/-- SIGNED_CMD (R503): the nonce is used up by the first command that carries it past checks 1 and 2. -/
def State.signedCmd (s : State) (c : SignedCmd) : State :=
  s.doe (fun s =>
    if !cmdFormed c then s.refuseCmd c 1
    else if c.serial ≠ s.rd cardB ID_SERIAL_SERIAL then s.refuseCmd c 2
    else if s.sec.nonce ≠ some c.nonce then s.refuseCmd c 3
    else
      let s := { s with sec := { s.sec with nonce := none } }
      let k := s.lateCheck c
      if k ≠ 0 then s.refuseCmd c k else s.runCmd c)

/-- EXTEND (R495). -/
def State.extendGo (s : State) (i : Nat) (digest : BitVec 256) : State :=
  s.doe (fun s =>
    if i < 5 ∨ 7 < i then s.answer 0x08 1 []
    else
      let s := s.extendMeas i digest
      s.answer 0x08 0 (s.meas i))

/-! ### Data objects as they arrive (R496) -/

/-- The payload of a Valloth message goes to its meaning; a payload of the wrong length or with a reserved bit set is malformed. An EXTEND index takes one byte and QUOTE's SESSION byte keeps its other bits 0 (DESIGN CHOICE, log 85). -/
def State.vallothPayload (s : State) (code : Nat) (p : List Byte) : State :=
  let n := fun (b k : Nat) => leNat ((p.drop b).take k)
  let bad := s.doe (fun s => s.answer code 1 [])
  match code with
  | 0x01 => if p.isEmpty then s.getIdentity else bad
  | 0x02 => if p.isEmpty then s.getMeas else bad
  | 0x03 => if p.length = 33 ∧ n 32 1 < 2 then s.quoteGo (BitVec.ofNat 256 (n 0 32)) (decide (n 32 1 = 1)) else bad
  | 0x04 => s.keyExch p
  | 0x05 => if 12 ≤ p.length then s.ideKm (n 0 12) (p.drop 12) else bad
  | 0x06 => if p.isEmpty then s.getNonce else bad
  | 0x07 => s.signedCmd ⟨p⟩
  | 0x08 => if p.length = 33 then s.extendGo (n 0 1) (BitVec.ofNat 256 (n 1 32)) else bad
  | _ => bad

/-- A Valloth object: byte 0 is CODE, and bytes 1-3 of a request are 0 (R496). -/
def State.valloth (s : State) (body : List Byte) : State :=
  let code := (body.headD 0).toNat
  if body.length < 4 ∨ (body.drop 1).take 3 ≠ [0, 0, 0] then s.doe (fun s => s.answer code 1 [])
  else s.vallothPayload code (body.drop 4)

/-- A data object: Discovery, a Valloth message, or one of a protocol that the mailbox does not list, which gets no answer (PRESUMED, log 21). -/
def State.doeObject (s : State) (x : DoeObject) : State :=
  if x.vendor = 1 ∧ x.type = 0 then s.discovery (x.body.headD 0).toNat
  else if x.vendor = 0x1F5E ∧ x.type = 1 then s.valloth x.body
  else s

/-! ### The commands -/

def execDoeDiscovery (x : DoeObject) (s : State) : Res := .next (s.doeObject x)
def execGetIdentity (s : State) : Res := .next s.getIdentity
def execGetMeas (s : State) : Res := .next s.getMeas
def execQuote (nonce : BitVec 256) (session : Bool) (s : State) : Res := .next (s.quoteGo nonce session)
def execKeyExch (ct : List Byte) (s : State) : Res := .next (s.keyExch ct)
def execIdeKm (iv : Nat) (msg : List Byte) (s : State) : Res := .next (s.ideKm iv msg)
def execGetNonce (s : State) : Res := .next s.getNonce
def execSignedCmd (c : SignedCmd) (s : State) : Res := .next (s.signedCmd c)
def execExtend (i : Nat) (digest : BitVec 256) (s : State) : Res := .next (s.extendGo i digest)

/-! ### Debug halt and power states (R505, R506) -/

/-- SEC_DBG_HALT holds a tile, or lets it go on. -/
def State.haltTile (s : State) (t : Nat) (on : Bool) : State := s.modTile t (fun x => { x with halted := on })

/-- D3HOT_ENTRY (R506): a partition reset of every partition and of PF0's tiles, which stay in reset. -/
def execD3hotEntry (s : State) : Res :=
  .next (if !s.dlUp || s.host.d3hot then s
    else ({ s with host := { s.host with d3hot := true } } : State).resetAll 7 hostSrc)

/-- D3HOT_EXIT (R506). -/
def execD3hotExit (s : State) : Res := .next (if s.dlUp then s.leaveD3 else s)

end Sys2Proof.Machine
end

