-- ==== Sys2Proof/Machine/CardIf.lean ====
section
/-! DEFINITION. The card's slow interfaces: SMBus, time-stamp pulse, TAP and UART (R482, R483, R524-R528). -/

namespace Sys2Proof.Machine

/-! ### SMBus (R526, R527): the Felvik controller answers while IN12 is present -/

/-- The answer to a block read of command `code`, with the PEC over both address bytes, the code, the count and the data. -/
def State.smbusRead (s : State) (code : Nat) (l : List Byte) : State :=
  s.send (.smbus l (crc8 ([0x94, BitVec.ofNat 8 code, 0x95, BitVec.ofNat 8 l.length] ++ l)))

/-- The hottest of some sensors in 0.125 °C. -/
def State.hottest (s : State) (l : List Nat) : Int := (l.drop 1).foldl (fun m i => if m < s.reading i then s.reading i else m) (s.reading (l.headD 0))

/-- STATUS (Table 20-5): the listed items in order, each in as many whole bytes as it needs, and a last byte of 0 (DESIGN CHOICE, log 41). -/
def execStatus (s : State) : Res :=
  .next (if !s.pwr.in12 then s
    else
      s.smbusRead 0x01 (leBytes 4 (s.word (cardB + BRUP_STAT_STEP.off)) ++ leBytes 1 (s.rd hostB FLT_CARD_CARD_FAULT) ++ leBytes 1 (s.rd secB SEC_LC_STATE) ++
        leBytes 1 s.debugLevel ++ leBytes 2 (s.rd pwrB PWR_MEAS_BOARD_W) ++ leBytes 2 (wrapTo 16 (s.hottest [0, 1])) ++
        leBytes 2 (wrapTo 16 (s.hottest ((List.range 12).map (· + 2)))) ++ leBytes 1 (s.rd pwrB THERM_STAT_ALERT) ++ leBytes 1 (s.rd pwrB SUPPLY_STAT_LOCKOUT) ++ [0]))

/-- TRIP (Table 20-5). -/
def execTrip (s : State) : Res :=
  .next (if !s.pwr.in12 then s
    else s.smbusRead 0x02 (leBytes 8 (s.word (pwrB + THERM_TRIP_SENSOR.off)) ++ leBytes 8 (s.word (pwrB + SUPPLY_STAT_LOCKOUT.off))))

/-- An error in ns as a saturating signed 32-bit number. -/
def sat32 (e : Int) : Nat := wrapTo 32 (if e < -2147483648 then -2147483648 else if 2147483647 < e then 2147483647 else e)

/-- TS_STAT (Table 20-5). -/
def execTsStat (s : State) : Res :=
  .next (if !s.pwr.in12 then s else s.smbusRead 0x03 (leBytes 8 (s.card.ts.st + sat32 s.card.ts.err * 2 ^ 32)))

/-- TS_CFG (R525, R526): a missing or wrong PEC, a wrong length, a reserved bit or a reserved value is NACKed. -/
def execTsCfg (x : SmbusWrite) (s : State) : Res :=
  .next (if !s.pwr.in12 then s
    else
      let v := leNat x.data
      let on := bit v 0
      let period := bitsOf v 32 20
      let offset := bitsOf v 64 32
      if !x.pecOk 0x04 true ∨ x.data.length ≠ 12 ∨ bitsOf v 1 31 ≠ 0 ∨ bitsOf v 52 12 ≠ 0 ∨ period < 1000 ∨ 1000000 < period ∨ 1000 * period ≤ offset then s.send .nack
      else
        { s with card := { s.card with ts := { s.card.ts with period := period, offset := offset, st := if on then 1 else 0, good := 0, last := none } } })

/-- IN12 alone is present: the rails are off and IN48 is absent or below 42.0 V, so that its restart condition is not met (R527, Table 20-4; log 41). -/
def State.in12Alone (s : State) : Bool := !s.pwr.rails && decide (s.pwr.in48 = .absent)

/-- RESTART (R526, R527): its PEC is required. -/
def execRestart (x : SmbusWrite) (s : State) : Res :=
  .next (if !s.pwr.in12 then s
    else if !x.pecOk 0x10 true ∨ x.data ≠ [0x5A, 0xA5] ∨ !s.cool ∨ s.in12Alone then s.send .nack
    else s.cardResetGo.applyAlert)

/-- COUNTERS (Table 20-5): a write of the page and a read of it; five registers of 8 B, four in page 0 and the last in page 1 (DESIGN CHOICE, log 41), and any other page is NACKed. The times run up to now (R456). -/
def execCounters (x : SmbusWrite) (s : State) : Res :=
  .next (if !s.pwr.in12 then s
    else
      let index := (x.data.headD 0).toNat
      if s.debugLevel = 0 ∨ !x.pageOk 0x20 ∨ x.data.length ≠ 1 ∨ 1 < index then s.send .nack
      else
        let s := ({ s with card := { s.card with page := index } } : State).countTime
        let w := fun (o : Nat) => leBytes 8 (s.word o)
        s.smbusRead 0x20 (if index = 0 then
            w (pwrB + PWR_TIME_C_US.off) ++ w (pwrB + PWR_TIME_S_US.off) ++ w (pwrB + PWR_FAST_COUNT.off) ++ leBytes 8 s.moltStat
          else w (hostB + FLT_SRAM_CNT_CORRECTED.off) ++ List.replicate 24 0))

/-- Characters reach the Felvik console; what a console command does is not given (log 49). -/
def State.consoleIn (s : State) (l : List Byte) : State := { s with card := { s.card with console := s.card.console ++ l } }

/-- CONSOLE (R526): at level invasive its characters reach the Felvik console, and a read returns what the console prints, which is free. -/
def execConsole (x : ConsoleXfer) (s : State) : Res :=
  .next (if !s.pwr.in12 then s
    else if s.debugLevel ≠ 2 then s.send .nack
    else
      match x with
      | .write w => if w.pecOk 0x30 false then s.consoleIn w.data else s.send .nack
      | .read => let (n, s) := s.fresh; s.smbusRead 0x30 ((Config.consoleText n).take 255))

/-- UART_CONSOLE_COMMAND (R507, R528): from level non-invasive on TXD carries the Felvik log, whose text is free; below it TXD idles and RXD is ignored. At level invasive RXD carries console commands. -/
def execUartConsoleCommand (chars : List Byte) (s : State) : Res :=
  .next (if !s.pwr.in12 || decide (s.debugLevel = 0) then s
    else
      let (n, s) := s.fresh
      let s := s.send (.txd (Config.felvikLog n))
      if s.debugLevel = 2 then s.consoleIn chars else s)

/-! ### Time-stamp alignment (R525) -/

/-- The error of a stamp: its distance from the nearest k × PERIOD + OFFSET. -/
def TsSt.error (t : TsSt) (stamp : Nat) : Int :=
  let p : Int := 1000 * (t.period : Int)
  let r := ((stamp : Int) - (t.offset : Int)) % p
  if 2 * r ≤ p then r else r - p

/-- TIME_STAMP_PULSE: the edge is stamped with the TSC. A pulse that stays high for less than 100 ns is not taken (R524; DESIGN CHOICE, log 42), an edge too soon after the last accepted one is ignored, and an edge beyond 100 ns ends alignment (DEDUCED, log 42). The trim is free, against the error and not 0 where there is one. -/
def execTimeStampPulse (high : Nat) (s : State) : Res :=
  .next (let t := s.card.ts
    let stamp := s.tsc
    let soon := match t.last with | some l => decide (2 * stamp < 2 * l + 1000 * t.period) | none => false
    if !s.pwr.in12 || decide (t.st = 0) || decide (high < 100) || soon then s
    else
      let e := t.error stamp
      let (n, s) := s.fresh
      let good := if (if e < 0 then -e else e) ≤ 100 then t.good + 1 else 0
      let trim : Int := ((1 + Config.tsTrim n % 50 : Nat) : Int)
      let st := if 3 ≤ good ∧ t.st ≠ 3 then 2 else 1
      { s with card := { s.card with ts := { t with err := e, good := good, last := some stamp, st := st, trim := if 0 < e then -trim else if e < 0 then trim else 0 } } })

/-- TIME_STAMP_HOLDOVER (R525): the last trim is kept. -/
def execTimeStampHoldover (s : State) : Res :=
  .next (if s.pwr.in12 && decide (s.card.ts.st ≠ 0) then { s with card := { s.card with ts := { s.card.ts with st := 3, good := 0 } } } else s)

/-! ### The TAP (R482, R483) -/

/-- SAMPLE/PRELOAD and EXTEST are available: lifecycle Manufacturing or Return, or debug level invasive. -/
def State.scanOpen (s : State) : Bool := decide (s.rd secB SEC_LC_STATE = 0 ∨ s.rd secB SEC_LC_STATE = 3 ∨ s.debugLevel = 2)

/-- An instruction that a die's register takes: 0 EXTEST, 1 IDCODE, 2 SAMPLE/PRELOAD, 3 tile halt and access, which D3hot excludes (Table 18-11); every other code, and one that is not available, selects BYPASS, 0xFF (PRESUMED, log 21). -/
def State.tapCode (s : State) (ir : BitVec 8) : BitVec 8 :=
  let n := ir.toNat
  if n = 1 ∨ ((n = 0 ∨ n = 2) ∧ s.scanOpen) ∨ (n = 3 ∧ s.debugLevel = 2 ∧ !s.host.d3hot) then ir else 0xFF

/-- IDCODE of a die (R482), lowest bit first. -/
def State.idcode (s : State) (die : Nat) : List Bool :=
  let v := 1 + 0x2F5 * 2 + (0x6412 + die) * 2 ^ 12 + s.brup.parts.stepping % 16 * 2 ^ 28
  (List.range 32).map (fun i => bit v i)

/-- What a die shifts out under an instruction: its IDCODE, the levels at its pins, or the bypass bit; what tile access shifts out is not given. -/
def State.tapOut (s : State) (die : Nat) (ir : BitVec 8) (pins : List Bool) : List Bool :=
  match ir.toNat with
  | 0 | 2 => pins
  | 1 => s.idcode die
  | 3 => []
  | _ => [false]

/-- The boundary register takes what SAMPLE/PRELOAD and EXTEST shift in. -/
def tapBound (ir : BitVec 8) (old new : List Bool) : List Bool := if ir.toNat = 0 ∨ ir.toNat = 2 then new else old

/-- The TAP in reset holds IDCODE (PRESUMED from IEEE 1149.1, log 21). -/
def State.tapReset (s : State) : State := { s with card := { s.card with trst := false, tapIr0 := 1, tapIr1 := 1 } }

/-- TAP_INSTRUCTION (R482, R483): dead while rails 2-43 are off (R528), and in reset while TRST_N is low or open (R533). In recovery mode C1 of the chain has no power and stays in BYPASS (DESIGN CHOICE, log 86). EXTEST that has taken effect stays until a card reset. -/
def execTapInstruction (x : TapScan) (s : State) : Res :=
  .next (if !s.pwr.rails then { s with card := { s.card with trst := x.trst } }
    else
      let s := { s with brup := { s.brup with extest := s.inExtest } }
      if !x.trst then s.tapReset
      else
        let a := s.tapCode x.ir0
        let b := if s.pwr.c0Only then 0xFF else s.tapCode x.ir1
        let s := (s.send (.tdo 0 (s.tapOut 0 a x.pins0))).send (.tdo 1 (s.tapOut 1 b x.pins1))
        { s with card := { s.card with trst := true, tapIr0 := a, tapIr1 := b, bound0 := tapBound a s.card.bound0 x.data0, bound1 := tapBound b s.card.bound1 x.data1 } })

/-- The levels that EXTEST drives at a die's package pins (R482, R483); none while it is not in effect. -/
def State.pinsDriven (s : State) (die : Nat) : Option (List Bool) :=
  if s.inExtest then some (if die = 0 then s.card.bound0 else s.card.bound1) else none

/-- PB_PG is released while the hot-swap switch is on (Table 20-3). -/
def State.pbPg (s : State) : Bool := s.pwr.switch

end Sys2Proof.Machine
end

