-- ==== Sys2Proof/Machine/RegRead.lean ====
section
/-! DEFINITION. What BAR0 registers read: the fields that show the state of a unit, and the checks of a BAR0 access (R511-R519). -/

namespace Sys2Proof.Machine

/-! ### Fields that show a unit's state -/

/-- A field of a register with the value it shows. -/
abbrev Shown := Fld × Nat

def b01 (b : Bool) : Nat := if b then 1 else 0

/-- BSEQ state of a CC (Table 5-11): an EXIT pass unlocks nothing, and neither does a pass that finds the channel in PIM mode (R151). -/
def CcSt.bseqState (k : CcSt) : Nat :=
  match k.active with
  | none => if k.queue.isEmpty then 0 else 1
  | some a =>
    if pKind a.req.pkt = 5 then 6
    else if !a.unlocked && !k.pim then 2
    else if a.held then 4
    else match a.todo with
      | .drn :: _ => 5
      | .exit :: _ => 6
      | _ => 3

/-- Time in panic, with that of the period that stands (Table 5-11). -/
def State.panicTime (s : State) (c : Nat) : Nat :=
  (s.rd (ccB c) CC_BSEQ_PANIC_NS + (if (s.cc c).panic then s.tsc - (s.cc c).panicAt else 0)) % 2 ^ 48

/-- Fields of a CC window (Tables 3-7, 5-11). -/
def State.showCc (s : State) (c : Nat) : List Shown :=
  let k := s.cc c
  [(CC_STATUS_PIM, b01 k.pim), (CC_STATUS_PASS_GROUP, k.group.elim 0 (· + 1)), (CC_STATUS_PANIC, b01 k.panic), (CC_STATUS_QUEUED, k.pool.length),
   (CC_BSEQ_STATUS_STATE, k.bseqState), (CC_BSEQ_STATUS_CMDBUF, k.active.elim 0 Active.buffered), (CC_BSEQ_STATUS_PQUEUE, k.queue.length),
   (CC_BSEQ_STATUS_TAG, k.active.elim 0 (fun a => pTag a.req.pkt)), (CC_BSEQ_PANIC_NS, s.panicTime c), (CC_BSEQ_REFSLOT_TSC, if k.refresh then slotTime k.epoch c k.slot else s.rd (ccB c) CC_BSEQ_REFSLOT_TSC)]

def DestState.code : DestState → Nat
  | .free => 0 | .collecting => 1 | .returning => 2 | .holding => 3

/-- Fields of a B-die window (Table 5-12). -/
def State.showBd (s : State) (k : Nat) : List Shown :=
  let b := s.bd k
  [(B_MERGE_STAT_BUSY, bitsWhere 16 (fun d => decide ((b.dest d).st ≠ .free))),
   (B_MERGE_STAT_DRAINBUF, bitsWhere 32 (fun c => b.arrived.any (fun x => decide (x.chan = c) && !x.standIn)))] ++
  (List.range 16).flatMap (fun d =>
    let x := b.dest d
    let f := fun (g : Fld) => g.at (8 * d)
    [(f B_MERGE_DEST_STATE, x.st.code), (f B_MERGE_DEST_MOP, x.key.mop), (f B_MERGE_DEST_ARRIVED, x.taken.length), (f B_MERGE_DEST_EXPECTED, if x.st = .free then 0 else x.key.mcount + 1),
     (f B_MERGE_DEST_TAG, ((inOrder x.taken).head?).elim 0 (fun t => t.con.tag)), (f B_MERGE_DEST_USES, x.uses)])

/-- Fields of a tile window (Tables 7-8, 8-10, 9-10, 10-6, 11-5, 12-5). An engine's operation runs at one moment in this model, so ARRAY_BUSY and STORE_BUSY read 0. -/
def State.showTile (s : State) (t : Nat) : List Shown :=
  let x := s.tile t
  let full := (x.full.filter (fun (p : Nat × Bool) => p.2)).length
  let q := fun (e : Nat) => (x.eng e).queue.length
  let level := s.cEff (t / 256)
  let use := fun (p : Nat) => look noCount x.inUse p
  let page := x.load.elim 0 (fun l => l.page)
  let held := x.load.isSome && decide (use page ≠ 0)
  let next := x.load.elim x.pos (fun l => l.fromPos + 64 * (l.lines + 1))
  [(TILE_ID_ENABLED, b01 (s.enabled t)), (TILE_STATUS_IN_RESET, b01 x.inReset),
   (TILE_STATUS_BUSY, bitsWhere 5 (fun i => if i = 4 then !x.recs.isEmpty else decide (q i ≠ 0))), (TILE_STATUS_CLKDIV, clkDivOf level),
   (TILE_FE_STAT_FULL_CNT, min 65535 full), (TILE_SF_STATUS_LINES, x.linesHeld), (TILE_SF_STATUS_RECORDS, x.recs.length), (TILE_SF_STATUS_OFFSET, next),
   (TILE_QSTATUS_Q0, q 0), (TILE_QSTATUS_Q1, q 1), (TILE_QSTATUS_Q2, q 2), (TILE_QSTATUS_Q3, q 3),
   (TILE_IMEM_USE_INUSE, bitsWhere 64 (fun p => decide (use p ≠ 0))), (TILE_IMEM_HOLD_PAGE, if held then page else 0), (TILE_IMEM_HOLD_HELD, b01 held),
   (TILE_IMEM_HOLD_COUNT, if held then use page else 0), (TILE_IMEM_HOLD_US, if held then x.load.elim 0 (fun l => min (2 ^ 32 - 1) ((s.tsc - l.since) / 1000)) else 0),
   (MXE_STATUS_AQ, x.mmas.length), (MXE_STATUS_SQ, x.fsts.length), (MXE_DUTY_DUTY, dutyOf level), (VXE_STATUS_BUSY, b01 x.vrun.isSome),
   (VXE_STATUS_WQ, x.vops.length), (MVE_STATUS_BUSY, b01 x.mrun.isSome), (MVE_STATUS_MQ, x.moves.length),
   (MVE_DVALID_VALID, bitsWhere 32 (fun n => (look noTensor x.tensors n).isSome)),
   (TILE_CHORUS_STAT_PEND, bitsWhere 8 (fun g => (List.range 4).any (fun e => decide ((x.eng e).arrival g = .registered))))] ++
  (List.range 4).flatMap (fun e =>
    let g := x.eng e
    [(TILE_PC_ADDR.at (8 * e), (g.frames.head?).elim 0 (fun f => f.pc)), (TILE_PC_DEPTH.at (8 * e), g.frames.length),
     (TILE_PC_LOOPS.at (8 * e), bitsWhere 4 (fun k => g.loops.any (fun l => decide (l.k = k))))])

def RingMode.code : RingMode → Nat
  | .disabled => 0 | .running => 1 | .halted => 2

/-- Fields of ring `n` (Table 14-7); a ring that is not started reads RING_SEQ as 0, its reset value. -/
def State.showRing (s : State) (n : Nat) : List Shown :=
  let r := s.ring n
  let f := fun (g : Fld) => g.at (0x40 * n)
  [(f RING_STAT_STATE, r.st.code), (f RING_STAT_CAUSE, r.cause), (f RING_STAT_HEAD, r.fetchAt % s.ringSize n), (f RING_STAT_TAIL, r.tail),
   (f RING_STAT_INFLIGHT, r.inflight), (f RING_STAT_LOST, b01 (r.live.any (·.lost))), (f RING_SEQ_NEXT, if r.st = .disabled then 0 else s.ringNext n), (f RING_SEQ_DONE, if r.st = .disabled then 0 else s.ringDone n)]

/-- Fields of the host block (Tables 13-8, 14-7, 15-8). -/
def State.showHost (s : State) : List Shown :=
  let h := s.host
  [(HOST_TAG_STAT_TAGS, h.reads.length + s.lineReads), (HOST_TAG_STAT_UNITS, h.units + s.lineReads), (HOST_DIR_STAT_ENTRIES, h.dir.length), (HOST_DIR_STAT_BISNP, h.snoops.length),
   (HOST_BIAS_STAT_SHARED, (h.bias.filter (fun (p : Nat × Bool) => p.2)).length), (RING_ENG_STAT_INFLIGHT, s.cardInflight),
   (FLT_MOLT_STAT_QUEUED, s.molt.queue.length),
   (FLT_CUT_STAT_PENDING, b01 (!s.cuts.isEmpty || s.evs.any (fun (p : Nat × EvSt) => !p.2.cuts.isEmpty)))] ++
  (List.range 9).flatMap (fun f =>
    let e := s.ev f
    let g := fun (x : Fld) => x.at (0x20 * f)
    [(g EVT_STAT_HEAD, e.head), (g EVT_STAT_TAIL, e.count % s.evSize f), (g EVT_STAT_FULL, b01 (decide (s.evRoom f = 0)))])

/-- Fields of the identity and bring-up block (Table 17-6). -/
def State.showCard (s : State) : List Shown :=
  let b := s.brup
  [(BRUP_LOG_STAT_RECORDS, b.log.length), (BRUP_LOG_STAT_COAL, b01 (!b.logCoal.isEmpty)), (BRUP_CFG_SAVE_BUSY, b01 (b.nv.any (fun o => decide (o = .save)))),
   (BRUP_CFG_SAVED, b01 (decide (b.parts.config = some s.bootConfig)))]

/-- The fields that a register at a place shows. -/
def State.shown (s : State) (p : Place) : List Shown :=
  match p.blk with
  | .cc => s.showCc p.unit
  | .bdie => s.showBd p.unit
  | .tile => s.showTile p.unit
  | .host =>
    if 0x1000 ≤ p.rel ∧ p.rel < 0x2800 then
      let w := (p.rel - 0x1000) / 8
      [(HOST_BIAS_MAP_SHARED.at (8 * w), bitsWhere 64 (fun b => look noMark s.host.bias (64 * w + b)))]
    else if 0x4000 ≤ p.rel ∧ p.rel < 0x5000 then s.showRing ((p.rel - 0x4000) / 0x40)
    else s.showHost
  | .card => s.showCard
  | .pwr =>
    [(PWR_STATUS_ACTIVE, s.activeStacks), (PWR_TIME_C_US, (s.rd pwrB PWR_TIME_C_US + s.nsFrom s.pwr.cOn s.pwr.cRest / 1000) % 2 ^ 48),
     (PWR_TIME_S_US, (s.rd pwrB PWR_TIME_S_US + s.nsFrom s.pwr.sOn s.pwr.sRest / 1000) % 2 ^ 48)]
  | .sec => [(SEC_HALTED_TILES, bitsWhere 8 (fun w => s.tiles.any (fun (p : Nat × Tile) => decide (p.1 / 64 = w) && p.2.halted)))]
  | _ => []

/-- Engine and register of a tile's address register by its offset (Table 19-4). -/
def dbgReg (rel : Nat) : Nat × Nat := ((rel - 0x7100) / 0x80, (rel - 0x7100) % 0x80 / 8)
/-- The offset is a tile debug register (R516). -/
def isDbg (p : Place) : Bool := decide (p.blk = .tile ∧ 0x7000 ≤ p.rel)
/-- A tile's address registers may be reached: it is halted (R516). -/
def State.dbgA (s : State) (p : Place) : Bool := (s.tile p.unit).halted

/-- What the whole register at a place reads (R513, Table 0-4), pending values included. -/
def State.readPlace (s : State) (p : Place) (off : Nat) : Nat :=
  if p.blk = .tile ∧ !s.enabled p.unit ∧ p.rel ≠ 0 then 0
  else if isDbg p then
    if s.debugLevel < 2 then 0
    else if p.rel < 0x7100 then s.latest off
    else if s.dbgA p then (s.engine p.unit (dbgReg p.rel).1).areg (dbgReg p.rel).2 else 0
  else ((s.shown p).filter (fun (x : Shown) => decide (x.1.off = p.rel))).foldl (fun v x => setBits v x.1.lo x.1.w x.2) (s.latest off)

/-! ### Bad accesses (R511, R512, R518, R519) -/

/-- Offsets of the MSI-X block that are implemented (R517). -/
def msixRel (rel : Nat) : Bool := decide (rel < 0x410 ∨ (0x1000 ≤ rel ∧ rel < 0x1010))

/-- The offset of the whole register is implemented (R510). -/
def implemented (off : Nat) : Bool :=
  match placeOf off with
  | some p => if p.blk = .msix then msixRel p.rel else (findRow p.blk p.rel).isSome
  | none => false

/-- Registers of a CC window that a VF may write (Table 19-5). -/
def ccWritable (rel : Nat) : Bool := [0x10, 0x18, 0x58, 0x78, 0x100, 0x138, 0x200, 0x208].contains rel

/-- VF `k` is shown the register at a place (Table 19-5). R518's list is whole: TEST_LPBK_CTRL and TEST_LPBK_STAT, which R484 does not mark PF0 only, are not in it (DEDUCED, log 88). -/
def State.exposes (s : State) (k : Nat) (p : Place) (write : Bool) : Bool :=
  let r := p.rel
  match p.blk with
  | .card => !write && decide (r ≤ 0x10 ∨ (0x20 ≤ r ∧ r ≤ 0x40) ∨ (0x100 ≤ r ∧ r < 0x140) ∨ (0x200 ≤ r ∧ r < 0x230) ∨ 0x1000 ≤ r)
  | .host =>
    if 0x4000 ≤ r ∧ r < 0x5000 then decide (s.ringOwner ((r - 0x4000) / 0x40) = k)
    else if 0x5100 ≤ r ∧ r < 0x5220 then decide ((r - 0x5100) / 0x20 = k)
    else if r = 0x6030 ∨ r = 0x6038 then true
    else !write && decide (r = 0 ∨ r = 0x20 + 8 * k ∨ (0x5000 ≤ r ∧ r ≤ 0x5010) ∨ r = 0x6040 ∨ r = 0x6028 ∨ r = 0x6048)
  | .pwr => !write && decide (r = 0x10 ∨ r = 0x20 ∨ r = 0x500)
  | .sec => !write && decide (r = 0 ∨ r = 8 ∨ r = 0x18)
  | .seam => !write
  | .chorus =>
    if r < 0x200 then decide (s.rd chorusB (CHORUS_CTRL_OWNER.at (8 * (r / 0x40))) = k)
    else if r < 0x240 then decide (s.rd chorusB (CHORUS_CTRL_OWNER.at (r - 0x200)) = k)
    else false
  | .tile => decide (s.tileOwner p.unit = k ∧ r < 0x7000)
  | .cc => decide (s.stackOwner (p.unit / 32) = k) && (!write || ccWritable r)
  | .bdie => decide (s.stackOwner p.unit = k) && (!write || decide (r = 0x3000 ∨ r = 8 ∨ (0x2000 ≤ r ∧ r < 0x2100)))
  | .msix => true

/-- The C-die of a place; none for the management island (R519). -/
def dieOf (p : Place) : Option Nat :=
  match p.blk with
  | .card | .pwr => none
  | .tile => some (p.unit / 256)
  | .cc => some (if p.unit < 192 then 0 else 1)
  | .bdie => some (if p.unit < 6 then 0 else 1)
  | _ => some 0

/-- The unit answers (R519). -/
def State.answers (s : State) (p : Place) : Bool :=
  (match dieOf p with | none => true | some d => decide (d < s.brup.dies) && !s.inExtest) &&
    (decide (p.blk ≠ .bdie) || decide (p.rel = 0) || s.flag (bdB p.unit) B_ID_PRESENT)

/-- KIND of a bad access, 0 when it is none: size or alignment, then the view of a VF, then the offset, then the unit (DESIGN CHOICE, log 24). -/
def State.badKind (s : State) (f off len : Nat) (write : Bool) : Nat :=
  if (len ≠ 4 ∧ len ≠ 8) ∨ off % len ≠ 0 then 2
  else
    let w := off / 8 * 8
    match placeOf w with
    | none => if f = 0 then 1 else 3
    | some p =>
      if f ≠ 0 ∧ (!implemented w ∨ !s.exposes f p write) then 3
      else if !implemented w then 1
      else if !s.answers p then 4
      else 0

/-- Record a bad access (R512). -/
def State.logBad (s : State) (f off kind : Nat) (write : Bool) : State :=
  s.setWord (hostB + HOST_BAR0_LOG_OFFSET.off) (off % 2 ^ 26 + kind * 2 ^ 26 + f * 2 ^ 32 + b01 write * 2 ^ 36 + 2 ^ 63)

/-- What a BAR0 read returns (R511, R512); it changes no state but HOST_BAR0_LOG (R513), with the exception of R516. -/
def State.bar0Read (s : State) (f off len : Nat) : Nat :=
  if s.badKind f off len false ≠ 0 then 0
  else
    match placeOf (off / 8 * 8) with
    | none => 0
    | some p =>
      let v := if p.blk = .msix then s.msixWord f p.rel else s.readPlace p (off / 8 * 8)
      bitsOf v (8 * (off % 8)) (8 * len)

end Sys2Proof.Machine
end

