-- ==== Sys2Proof/Machine/RegAccess.lean ====
section
/-! DEFINITION. BAR0 register writes: access codes, change classes, reserved values, change-reject flags and the commands that registers start (R5-R13, R511-R519). -/

namespace Sys2Proof.Machine

/-! ### Idle units (R12; R101, R168, R228, R353, R379, R402, R431, R484, R508) -/

/-- The pool and the command buffer are empty and no pass is active (R101). -/
def CcSt.idle (k : CcSt) : Bool := k.pool.isEmpty && k.active.isNone

/-- All four queues and the Tadpole are empty and no memory request is outstanding, or the tile is held in reset (R228). -/
def State.tileIdle (s : State) (t : Nat) : Bool :=
  let x := s.tile t
  x.inReset ||
    ((List.range 4).all (fun e => (x.eng e).queue.isEmpty) && x.recs.isEmpty && x.load.isNone && s.noMemRequests t)

/-- No arrival of group `g` is registered and no engine waits on it; a broken group is idle (R353). -/
def State.groupIdle (s : State) (g : Nat) : Bool :=
  s.broken g || s.tiles.all (fun (p : Nat × Tile) => (List.range 4).all (fun e => !(p.2.eng e).waitsOn g && decide ((p.2.eng e).arrival g ≠ .registered)))

/-- Every tile of partition `k` is idle and none of its rings runs (R379). -/
def State.partIdle (s : State) (k : Nat) : Bool :=
  sites.all (fun t => decide (s.tileOwner t ≠ k) || s.tileIdle t) && (List.range 64).all (fun n => decide (s.ringOwner n ≠ k) || !s.isRunning n)

/-- The unit that governs a class S field of a place is active. -/
def State.active (s : State) (p : Place) : Governor → Bool
  | .cc => !(s.cc p.unit).idle
  | .trace => s.flag (ccB p.unit) CC_TRACE_CTRL_ENABLE
  | .tile => !s.tileIdle p.unit
  | .group => !s.groupIdle (if p.rel < 0x200 then p.rel / 0x40 else (p.rel - 0x200) / 8)
  | .partition => !s.partIdle (if p.rel < 0x100 then (p.rel - 0x70) / 8 + 1 else (p.rel - 0x100) / 0x40 + 1)
  | .bias => s.flag hostB HOST_BIAS_STAT_BUSY
  | .ring => s.isRunning ((p.rel - 0x4000) / 0x40)
  | .ev => s.evOn ((p.rel - 0x5100) / 0x20)
  | .reset => s.flag hostB FLT_RST_STAT_BUSY
  | .loopback => s.flag cardB TEST_LPBK_STAT_BUSY
  | .sec => s.flag secB SEC_FW_STAT_BUSY
  | .halt => !s.dbgA p
  | .card | .bdie | .thermal => true

/-! ### Reserved values (R6) -/

/-- Function `f` may name tile `t` (R417, Table 19-5). -/
def State.namesTile (s : State) (f t : Nat) : Bool := s.enabled t && (decide (f = 0) || decide (s.tileOwner t = f))

/-- Function `f` may name partition `k`: a VF only its own (R417, Table 19-5). -/
def State.namesPart (_ : State) (f k : Nat) : Bool := decide (1 ≤ k ∧ k ≤ 8) && (decide (f = 0) || decide (k = f))

/-- Tiles that a tile-mask word may hold: enabled ones, for a Chorus group those of its owner (R353), and for a partition those that no other partition names (R363). -/
def State.maskTile (s : State) (p : Place) (t : Nat) : Bool :=
  s.enabled t &&
    (if p.blk = .chorus then
      let o := s.rd chorusB (CHORUS_CTRL_OWNER.at (8 * (p.rel / 0x40)))
      decide (o = 0) || decide (s.tileOwner t = o)
    else (List.range 8).all (fun k => decide (k = (p.rel - 0x100) / 0x40) || !s.partHasTile k t))

/-- A value of a field that is not reserved, `w` being the whole word after the write. -/
def State.legal (s : State) (f : Nat) (p : Place) (w v : Nat) : Legal → Bool
  | .any => true
  | .range lo hi => decide (lo ≤ v ∧ v ≤ hi)
  | .cell => decide (v % 64 = 0)
  | .tile => s.namesTile f v
  | .tiles => (List.range 64).all (fun b => !bit v b || s.maskTile p (64 * (p.rel / 8 % 8) + b))
  | .stacks => (List.range 12).all (fun i => !bit v i || (List.range 8).all (fun k => decide (k = (p.rel - 0x70) / 8) || !s.partHasStack k i))
  | .hwm => decide (1 ≤ v ∧ v ≤ 64 ∧ bitsOf w 8 6 < v)
  | .depth => decide (v ≤ if bitsOf w 0 2 = 1 then 1 else 2)
  | .part => s.namesPart f v
  | .op13 => decide (v = 1 ∨ (v = 3 ∧ s.rd secB SEC_RECOV_ACTIVE = 0))

/-- Bits that are judged together with a field: the other field of its pair (R6). -/
def pairMask (fl : RegField) : Nat :=
  match fl.legal with
  | .hwm => 0x7F3F00
  | .depth => 0xF
  | _ => (2 ^ fl.w - 1) * 2 ^ fl.lo

/-- A field that a write can set. -/
def RegField.sets (fl : RegField) : Bool := decide (fl.acc = .RW ∨ fl.acc = .RWS)

/-- Fields of a row that function `f` writes: OWNER responds only through PF0 (R402, Table 19-5). -/
def fieldsFor (f : Nat) (p : Place) (r : RegRow) : List RegField :=
  let owner := fun (fl : RegField) =>
    decide (f ≠ 0) && ((decide (p.blk = .host ∧ r.off = 0x4010) && decide (fl.lo = 8)) || (decide (p.blk = .chorus ∧ r.off = 0x200) && decide (fl.lo = 0)))
  r.fields.filter (fun fl => !owner fl)

/-- The word that a register reads after a write of `new` over `cur`, W1C and W1S bits apart. -/
def nextWord (l : List RegField) (cur new : Nat) : Nat :=
  l.foldl (fun v fl => if fl.sets then setBits v fl.lo fl.w (bitsOf new fl.lo fl.w) else v) cur

/-- The write changes the field (R13). -/
def RegField.changes (fl : RegField) (cur new : Nat) : Bool :=
  match fl.acc with
  | .RO => false
  | .W1C | .W1S => decide (bitsOf new fl.lo fl.w ≠ 0)
  | _ => decide (bitsOf new fl.lo fl.w ≠ bitsOf cur fl.lo fl.w)

/-- A class S field changes while its unit is active, or a value is reserved (R6, R13). -/
def State.refuses (s : State) (f : Nat) (p : Place) (l : List RegField) (cur new : Nat) : Bool :=
  let w := nextWord l cur new
  l.any (fun fl =>
    (fl.changes cur new && (match fl.cls with | .S g => s.active p g | _ => false)) ||
    (fl.sets && decide ((w ^^^ cur) &&& pairMask fl ≠ 0) && !s.legal f p w (bitsOf w fl.lo fl.w) fl.legal))

/-! ### Rules of single registers -/

/-- The pair of a stream counter after the write is inconsistent (R357). -/
def State.scBad (s : State) (p : Place) (cur w : Nat) : Bool :=
  let i := (p.rel - 0xE00) / 16
  if w = cur then false
  else if p.rel % 16 = 0 then decide (s.scN p.unit i < occupancy (bitsOf w 0 32) (bitsOf w 32 32))
  else decide (bitsOf w 0 32 < occupancy (s.scP p.unit i) (s.scC p.unit i))

/-- Commands of a word of RING_CMDn. -/
def ringCmds (w : Nat) : List Nat := (List.range 4).filter (fun i => bit w i)

/-- A write of RING_CMDn that is rejected: none or one command may be written, in a state that takes it, and START only once READY (R401, R460). -/
def State.ringCmdBad (s : State) (n new : Nat) : Bool :=
  match ringCmds new with
  | [] => false
  | [c] => (s.ringCmd n c).isNone || (decide (c = 0) && !s.ready)
  | _ => true

/-- Further grounds for rejecting a write. A SEC_DBG_CTRL.REQ of 3 is a reserved value as 2 is, and a SEC_DBG_HALT with both commands is rejected (DESIGN CHOICE, log 87). -/
def State.refusesAlso (s : State) (f : Nat) (p : Place) (cur new w : Nat) : Bool :=
  match p.blk with
  | .card => decide (p.rel = 0x18 ∧ bitsOf new 48 16 ≠ 0xA55A)                                   -- BRUP_CMD (Table 17-2)
  | .host =>
    if 0x20 ≤ p.rel ∧ p.rel ≤ 0x60 then                                                          -- HOST_BAR4_MAPf (R366)
      decide (w ≠ cur ∧ bitsOf w 30 10 % (if p.rel = 0x20 then s.host.bar4 else s.host.vfBar4) ≠ 0)
    else if 0x4000 ≤ p.rel ∧ p.rel < 0x5000 ∧ p.rel % 0x40 = 0x20 then s.ringCmdBad ((p.rel - 0x4000) / 0x40) new
    else if 0x5128 ≤ p.rel ∧ p.rel % 0x20 = 8 ∧ p.rel < 0x5220 then bit new 8 && !s.ready            -- EVT_CFGf, f ≥ 1 (R460)
    else false
  | .sec =>
    if p.rel = 0x10 then                                                                         -- SEC_DBG_CTRL (R502)
      decide (w ≠ cur) && (decide (bitsOf new 0 2 = 3) || (decide (bitsOf new 0 2 = 2) && decide (s.rd secB SEC_LC_STATE ≠ 0 ∧ s.rd secB SEC_LC_STATE ≠ 3)))
    else if p.rel = 0x48 then decide (s.debugLevel < 2) || (bit new 16 && bit new 17)
    else false
  | .cc => decide (p.rel = 0x200) && bit w 0 && decide (s.debugLevel = 0)                         -- CC_TRACE_CTRL (R227)
  | .tile =>
    if 0xE00 ≤ p.rel ∧ p.rel < 0xF00 then s.scBad p cur w
    else isDbg p && (decide (s.debugLevel < 2) || (decide (0x7100 ≤ p.rel) && !s.dbgA p))         -- R516
  | _ => false

/-- The change-reject flag of a place (Table 19-2). -/
def State.chgRej (s : State) (p : Place) : State :=
  match p.blk with
  | .card => s.raise hostB HOST_ERR_FLAGS_CHG_REJ
  | .host => if 0x4000 ≤ p.rel ∧ p.rel < 0x6000 then s.raise hostB RING_ERR_FLAGS_CHG_REJ else s.raise hostB HOST_ERR_FLAGS_CHG_REJ
  | .pwr => s.raise pwrB PWR_ERR_FLAGS_CHG_REJ
  | .sec => s.raise secB SEC_FW_STAT_CHG_REJ
  | .chorus => s.raise chorusB CHORUS_ERR_FLAGS_CHG_REJ
  | .tile => s.raise (tileB p.unit) TILE_ERR_FLAGS_CHG_REJ
  | .cc => s.raise (ccB p.unit) CC_ERR_FLAGS_CHG_REJ
  | .bdie => s.raise (bdB p.unit) B_ERR_FLAGS_CHG_REJ
  | .seam | .msix => s

/-! ### Taking a write -/

/-- One field takes the write under its access code and class (R9, R12). -/
def State.takeField (s : State) (off cur new : Nat) (fl : RegField) : State :=
  let v := bitsOf new fl.lo fl.w
  let f : Fld := ⟨0, fl.lo, fl.w⟩
  match fl.acc with
  | .RO | .W1S => s
  | .W1C => s.wr off f (bitsOf (s.word off) fl.lo fl.w &&& (2 ^ fl.w - 1 - v))
  | _ =>
    match fl.cls with
    | .D _ =>
      if v = bitsOf cur fl.lo fl.w then s
      else
        { s with pend := put noPend s.pend off (BitVec.ofNat 64 (setBits (look noPend s.pend off).toNat fl.lo fl.w v)),
                 pendMask := put noPend s.pendMask off (BitVec.ofNat 64 ((look noPend s.pendMask off).toNat ||| f.mask)) }
    | _ => s.wr off f v

/-! ### What a write starts -/

/-- The latched cell of a tile's debug registers (R516). -/
def State.dbgCell (s : State) (t : Nat) : Cell64 :=
  let n := fun (j : Nat) => (List.range 4).foldl (fun a i => a + s.rd (tileB t) (TILE_DBG_SPDATA_DATA.at (8 * (4 * j + i))) * 2 ^ (64 * i)) 0
  let h := fun (j : Nat) => if bit (s.rd (tileB t) TILE_DBG_SPPOIS_POISON) j then none else some (BitVec.ofNat 256 (n j))
  ⟨h 0, h 1⟩

/-- The effects of a write of `new` by function `f` that is accepted, the stored word being `w`. A reset of what the function may not name, which an unchanged field can still hold (R6), does nothing (DESIGN CHOICE, log 87). -/
def State.startsHost (s : State) (f : Nat) (p : Place) (cur new w : Nat) : State :=
  if p.rel = 0x300 then (if bit new 63 then s.biasGo (bitsOf w 0 16) (bit w 16) else s)
  else if 0x4000 ≤ p.rel ∧ p.rel < 0x5000 ∧ p.rel % 0x40 = 0x20 then
    match ringCmds new with
    | [c] => (s.ringCmd ((p.rel - 0x4000) / 0x40) c).getD s
    | _ => s
  else if 0x5100 ≤ p.rel ∧ p.rel % 0x20 = 8 ∧ p.rel < 0x5220 then
    if bit new 8 && !bit cur 8 then s.evEnable ((p.rel - 0x5100) / 0x20) else s
  else if p.rel = 0x6018 then (if bit new 16 then { s with host := { s.host with hostTrip := false } } else s)
  else if p.rel = 0x6020 then (if bit new 63 then s.requestMolt (bitsOf w 0 9) 2 else s)
  else if p.rel = 0x6030 then
    let s := if bit new 32 && s.namesTile f (bitsOf w 0 9) then s.tileResetGo (bitsOf w 0 9) else s
    if bit new 33 && s.namesPart f (bitsOf w 16 4) then s.partResetGo (bitsOf w 16 4) 7 ringSrc else s
  else s

/-- The effects of an accepted write to the security block by PF0; an unchanged reserved REQ, OP or tile starts nothing (DESIGN CHOICE, log 87), and recovery mode takes OP 1 alone (R494). -/
def State.startsSec (s : State) (p : Place) (new w : Nat) : State :=
  if p.rel = 0x10 then (if bitsOf new 0 2 = 3 then s else s.setLevel (bitsOf new 0 2) 1)
  else if p.rel = 0x30 then (if !bit new 63 then s else if bitsOf w 0 2 = 1 then s.updateGo else if bitsOf w 0 2 = 3 ∧ !s.recovery then s.rollGo else s)
  else if p.rel = 0x48 then
    (if !s.enabled (bitsOf w 0 9) then s else if bit new 16 then s.haltTile (bitsOf w 0 9) true else if bit new 17 then s.haltTile (bitsOf w 0 9) false else s)
  else s

/-- What an accepted write of function `f` starts. A trace that is enabled starts at CC_TRACE_BASE (DESIGN CHOICE, log 63), and every write of ENABLE = 1 clears FULL (Table 7-9). -/
def State.starts (s : State) (f : Nat) (p : Place) (cur new w : Nat) : State :=
  match p.blk with
  | .card =>
    if p.rel = 0x18 then s.cardCmd (bit new 0) (bit new 1)
    else if p.rel = 0x80 then (if bit new 63 then s.loopbackGo else s)
    else s
  | .host => s.startsHost f p cur new w
  | .pwr =>
    if p.rel = 8 then
      let s := s.applyLevels
      if bit new 32 = bit cur 32 then s else s.brakeGo false (bit new 32)
    else s
  | .sec => s.startsSec p new w
  | .chorus => if p.rel < 0x200 then s.clear chorusB (CHORUS_CTRL_BROKEN.at (8 * (p.rel / 0x40))) else s
  | .cc =>
    if p.rel = 0x200 ∧ bit new 0 then
      let s := if bit cur 0 then s else (s.wr (ccB p.unit) CC_TRACE_STATUS_NEXT 0).wr (ccB p.unit) CC_TRACE_STATUS_SUB 0
      s.clear (ccB p.unit) CC_TRACE_STATUS_FULL
    else s
  | .tile =>
    if p.rel = 0x7040 then s.spWrite p.unit (s.rd (tileB p.unit) TILE_DBG_SPADDR_OFFSET / 64) (.whole (s.dbgCell p.unit))
    else if 0x7100 ≤ p.rel then s.setA p.unit (dbgReg p.rel).1 (dbgReg p.rel).2 (bitsOf w 0 41)
    else s
  | _ => s

/-- Fields that read 0 and hold nothing: BRUP_CMD.KEY, and the debug address registers, which the tile holds. -/
def keeps (p : Place) (l : List RegField) : List RegField :=
  if (p.blk = .card ∧ p.rel = 0x18) ∨ (p.blk = .tile ∧ 0x7100 ≤ p.rel) then [] else l

/-- A PWR_BRAKE write stores all but SW, which the brake sets itself. -/
def brakeless (p : Place) (l : List RegField) : List RegField := if p.blk = .pwr ∧ p.rel = 8 then l.filter (fun fl => decide (fl.lo ≠ 32)) else l

/-- A write of a whole register by function `f` (R13). -/
def State.writeWhole (s : State) (f : Nat) (p : Place) (r : RegRow) (off new : Nat) : State :=
  if p.blk = .tile ∧ !s.enabled p.unit then s
  else
    let l := fieldsFor f p r
    let cur := s.readPlace p off
    let w := nextWord l cur new
    if s.refuses f p l cur new || s.refusesAlso f p cur new w then s.chgRej p
    else ((brakeless p (keeps p l)).foldl (fun (a : State) fl => a.takeField off cur new fl) s).starts f p cur new w

/-- The whole-register word of a 4 B write: the other half holds its current values, with 0 in W1C and W1S bits (R511). -/
def mergeHalf (l : List RegField) (cur off data : Nat) : Nat :=
  let keep := l.foldl (fun v fl => if fl.acc = .W1C ∨ fl.acc = .W1S then setBits v fl.lo fl.w 0 else v) cur
  if off % 8 = 0 then setBits keep 0 32 data else setBits keep 32 32 data

/-! ### MSI-X (R517) -/

/-- An MSI-X table write: only bit 0 of a vector-control word, and no low bits of an address, are kept (PRESUMED, log 21); the pending-bit array is read-only. An entry that is no longer masked sends its pending message. -/
def State.msixWrite (s : State) (f rel size data : Nat) : State :=
  if 0x410 ≤ rel then s
  else
    let o := rel / 8 * 8
    let old := s.msixWord f o
    let v := if size = 8 then data else setBits old (8 * (rel % 8)) 32 data
    let v := if o % 16 = 0 then v / 4 * 4 else setBits v 33 31 0
    let s := s.setMsix f o v
    let e := o / 16
    s.msixPending f e

/-! ### The write itself -/

/-- A BAR0 write of `size` bytes by function `f`. In D3hot no BAR access is taken (R507). -/
def State.bar0Write (s : State) (f off size data : Nat) : State :=
  let k := s.badKind f off size true
  if s.host.d3hot then s
  else if k ≠ 0 then s.logBad f off k true
  else
    match placeOf (off / 8 * 8) with
    | none => s
    | some p =>
      if p.blk = .msix then s.msixWrite f (off - msixB) size data
      else
        match findRow p.blk p.rel with
        | none => s
        | some r =>
          let o := off / 8 * 8
          s.writeWhole f p r o (if size = 8 then data else mergeHalf r.fields (s.readPlace p o) off data)

/-- REGISTER_WRITE (R511). -/
def execRegisterWrite (f : FnId) (off size : Nat) (data : Word) (s : State) : Res := .next (s.bar0Write f.val off size data.toNat)

/-- BAD_ACCESS (R512): an access that is not bad is not this command. In D3hot it is an unsupported request (R507). -/
def execBadAccess (f : FnId) (off len : Nat) (write : Bool) (s : State) : Res :=
  .next (let k := s.badKind f.val off len write
    if k = 0 then s
    else if s.host.d3hot then (if write then s else s.answerUr f.val)
    else
      let s := s.logBad f.val off k write
      if write then s else s.send (.regData f.val 0))

/-- DEBUG_SPDATA_READ (R516): the cell at TILE_DBG_SPADDR is latched, by a read of either half of the register too (R511); poisoned bytes read free values. -/
def execDebugSpdataRead (f : FnId) (r : SpDataRead) (s : State) : Res :=
  .next (let t := r.tile.toNat
    let b := tileB t
    let off := b + TILE_DBG_SPDATA_DATA.off + r.off
    let k := s.badKind f.val off r.len false
    if 8 < r.off + r.len then s
    else if s.host.d3hot then s.answerUr f.val
    else if k ≠ 0 then (s.logBad f.val off k false).send (.regData f.val 0)
    else if !s.enabled t || decide (s.debugLevel < 2) then s.send (.regData f.val 0)
    else
      let i := s.rd b TILE_DBG_SPADDR_OFFSET / 64
      let c := s.spCell t i
      let full := b01 (s.isFull t i)
      let (v, s) := s.exportCell c
      let s := upto 8 (fun j (a : State) => a.wr b (TILE_DBG_SPDATA_DATA.at (8 * j)) (bitsOf v (64 * j) 64)) s
      let s := (s.wr b TILE_DBG_SPPOIS_POISON (b01 c.lo.isNone + 2 * b01 c.hi.isNone)).wr b TILE_DBG_SPPOIS_FULL full
      s.send (.regData f.val (bitsOf v (8 * r.off) (8 * r.len))))

/-- DEBUG_SPDATA_WRITE (R516): the write of TILE_DBG_SPDATA7. -/
def execDebugSpdataWrite (f : FnId) (t : TileId) (data : Word) (s : State) : Res :=
  .next (s.bar0Write f.val (tileB t.toNat + TILE_DBG_SPDATA_DATA.off + 56) 8 data.toNat)

/-! ### Rows that are one register write each -/

def execBiasChange (f : FnId) (region : Nat) (shared : Bool) (s : State) : Res :=
  .next (s.bar0Write f.val (hostB + 0x300) 8 (region % 2 ^ 16 + b01 shared * 2 ^ 16 + 2 ^ 63))
/-- A write of one command bit of RING_CMDn. -/
def State.ringWrite (s : State) (f n cmd : Nat) : State := s.bar0Write f (hostB + 0x4020 + 0x40 * n) 8 (2 ^ cmd)
def execRingStart (f : FnId) (n : RingId) (s : State) : Res := .next (s.ringWrite f.val n.val 0)
def execRingResume (f : FnId) (n : RingId) (s : State) : Res := .next (s.ringWrite f.val n.val 1)
def execRingReset (f : FnId) (n : RingId) (s : State) : Res := .next (s.ringWrite f.val n.val 2)
def execRingHalt (f : FnId) (n : RingId) (s : State) : Res := .next (s.ringWrite f.val n.val 3)
/-- EVENT_RING_ENABLE: EVT_CFG with ENABLE set and its other fields as they read. -/
def execEventRingEnable (f : FnId) (r : Fin 9) (s : State) : Res :=
  .next (let off := hostB + 0x5108 + 0x20 * r.val
    s.bar0Write f.val off 8 (setBits (s.latest off) 8 1 1))
def execMoltCmd (f : FnId) (chan : Nat) (s : State) : Res := .next (s.bar0Write f.val (hostB + 0x6020) 8 (chan % 2 ^ 9 + 2 ^ 63))
/-- TILE_RESET: PART keeps what it reads. -/
def execTileReset (f : FnId) (t : TileId) (s : State) : Res :=
  .next (let off := hostB + 0x6030
    s.bar0Write f.val off 8 (setBits (s.latest off) 0 9 t.toNat + 2 ^ 32))
/-- PARTITION_RESET: TILE keeps what it reads. -/
def execPartitionReset (f : FnId) (k : Nat) (s : State) : Res :=
  .next (let off := hostB + 0x6030
    s.bar0Write f.val off 8 (setBits (s.latest off) 16 4 k + 2 ^ 33))
def execHostBucketRearm (f : FnId) (s : State) : Res := .next (s.bar0Write f.val (hostB + 0x6018) 8 (2 ^ 16))
def execCardReset (f : FnId) (key : Nat) (s : State) : Res := .next (s.bar0Write f.val (cardB + 0x18) 8 (1 + key % 2 ^ 16 * 2 ^ 48))
def execCfgSave (f : FnId) (key : Nat) (s : State) : Res := .next (s.bar0Write f.val (cardB + 0x18) 8 (2 + key % 2 ^ 16 * 2 ^ 48))
/-- LOOPBACK_RUN (R480, R481): by a write of GO, or by those whom Table 17-4 names. -/
def execLoopbackRun (by_ : LoopStart) (ctrl : Word) (s : State) : Res :=
  .next (match by_ with
    | .bar0 f => s.bar0Write f.val (cardB + 0x80) 8 (setBits ctrl.toNat 63 1 1)
    | .felvik => s.loopbackBy false ctrl.toNat
    | .host => s.loopbackBy true ctrl.toNat)
/-- FIRMWARE_UPDATE (R492, R493): SEC_FW_CMD with OP 1 and GO unless an update waits or runs already, and then a round of it. -/
def execFirmwareUpdate (f : FnId) (x : UpdateFacts) (s : State) : Res :=
  .next (let s := if s.brup.nv.contains .update then s else s.bar0Write f.val (secB + 0x30) 8 (1 + 2 ^ 63)
    s.updateRun x)
def execRollForward (f : FnId) (s : State) : Res := .next (s.bar0Write f.val (secB + 0x30) 8 (3 + 2 ^ 63))
def execDebugLevelRequest (f : FnId) (req : Nat) (s : State) : Res := .next (s.bar0Write f.val (secB + 0x10) 8 (req % 4))
def execTileHalt (f : FnId) (t : TileId) (s : State) : Res := .next (s.bar0Write f.val (secB + 0x48) 8 (t.toNat + 2 ^ 16))
def execTileResume (f : FnId) (t : TileId) (s : State) : Res := .next (s.bar0Write f.val (secB + 0x48) 8 (t.toNat + 2 ^ 17))

end Sys2Proof.Machine
end

