-- ==== Sys2Proof/Machine/TileExec.lean ====
section
/-! DEFINITION. The meanings of the commands of tiles that no operation word carries: packets, prefetches, streams, engine starts and synchronisation (R199-R357). Each always has a next state. -/

namespace Sys2Proof.Machine

/-- NOC_PACKET_DELIVERY (R220). -/
def execNocPacketDelivery (p : Packet) (s : State) : Res := .next (nocPacketDelivery p s)
/-- PREFETCH_ISSUE (R207). -/
def execPrefetchIssue (t : TileId) (line : Nat) (s : State) : Res := .next (prefetchIssue t.toNat line s)
/-- PREFETCH_ARRIVE (R208). -/
def execPrefetchArrive (t : TileId) (s : State) : Res := .next (prefetchArrive t.toNat s)
/-- STREAM_RECORD (R230). -/
def execStreamRecord (t : TileId) (s : State) : Res := .next (streamRecord t.toNat s)
/-- STREAM_FETCH_REQUEST (R233). -/
def execStreamFetchRequest (t : TileId) (s : State) : Res := .next (streamFetchRequest t.toNat s)
/-- STREAM_LINE_RETURN (R232-R234): a completion error of a line of a record is recorded (R375), and that of a prediction is not. -/
def execStreamLineReturn (t : TileId) (answer : LineAnswer) (data : Cell64) (s : State) : Res :=
  .next (let s := match (s.tile t.toNat).reqOf answer.tag with
      | none | some ⟨_, _, .pred _⟩ | some ⟨_, _, .dead true⟩ => s
      | some r => s.hostErr r.fn answer.status
    let s := streamLineReturn t.toNat answer.tag (if answer.status = 0 then some data else none) s
    s.sendWaiting s.host.waiting.length)
/-- BUNDLE_SPLIT (R239), after the SRAM errors that it meets (R404). -/
def execBundleSplit (t : TileId) (sram : List SramErr) (s : State) : Res := .next (bundleSplit t.toNat (s.sramErrs sram))
/-- IMLD (R255). -/
def execImld (t : TileId) (s : State) : Res := .next (imldCopy t.toNat s)
/-- IMLD_HOLD_LIMIT (R256). -/
def execImldHoldLimit (t : TileId) (s : State) : Res := .next (imldHoldLimit t.toNat s)
/-- QUEUE_BARRIER (R257). -/
def execQueueBarrier (t : TileId) (s : State) : Res := .next (queueBarrier t.toNat s)
/-- STREAM_COMPLETE (R235). -/
def execStreamComplete (t : TileId) (s : State) : Res := .next (streamComplete t.toNat s)
/-- MMA_ARRAY_START (R272). -/
def execMmaArrayStart (t : TileId) (s : State) : Res := .next (mmaArrayStart t.toNat s)
/-- FST_BANK_READ (R281). -/
def execFstBankRead (t : TileId) (s : State) : Res := .next (fstBankRead t.toNat s)
/-- VOP_START (R298). -/
def execVopStart (t : TileId) (s : State) : Res := .next (vopStart t.toNat s)
/-- MOVE_BEGIN (R317). -/
def execMoveBegin (t : TileId) (s : State) : Res := .next (moveBegin t.toNat s)
/-- SEMAPHORE_UPDATE (R341, R342). -/
def execSemaphoreUpdate (t : TileId) (s : State) : Res := .next (semaphoreUpdate t.toNat s)
/-- SEMAPHORE_GRANT (R342). -/
def execSemaphoreGrant (t : TileId) (k : Fin 32) (s : State) : Res := .next (semaphoreGrant t.toNat k.val s)
/-- STREAM_COUNTER_SATISFY (R346). -/
def execStreamCounterSatisfy (t : TileId) (s : State) : Res := .next (streamCounterSatisfy t.toNat s)
/-- CHORUS_PHASE_COMPLETE (R350). -/
def execChorusPhaseComplete (g : Fin 8) (s : State) : Res := .next (chorusPhaseComplete g.val s)
/-- DEADLOCK_DETECTOR_FIRE (R355). -/
def execDeadlockDetectorFire (t : TileId) (s : State) : Res := .next (deadlockDetectorFire t.toNat s)

end Sys2Proof.Machine
end

