-- ==== Sys2Proof/Machine/Watch.lean ====
section
/-! DEFINITION. Watches on full/empty cells (R196, R348). -/

namespace Sys2Proof.Machine

/-- The FEWAIT watch of an engine on a cell: whether it consumes. -/
def Engine.feWatch (g : Engine) (cell : Nat) : Option Bool :=
  match g.wait with
  | some ⟨.fe c con, _⟩ => if c = cell then some con else none
  | _ => none

/-- A run's watch on a cell: whether it consumes. -/
def watchOn (w : Option Watch) (cell : Nat) : Option Bool :=
  match w with
  | some v => if v.cell = cell then some v.consume else none
  | none => none

/-- The watch of engine `e` on a cell that its bank sees first: an operation in progress stands before a FEWAIT issued after it. -/
def State.engineWatch (s : State) (t e cell : Nat) : Option Bool :=
  let x := s.tile t
  let run : Option Bool :=
    match e with
    | 1 => (match x.vrun with | some r => watchOn r.watch cell | none => none)
    | 2 => (match x.mrun with | some r => watchOn r.watch cell | none => none)
    | _ => none
  match run with
  | some c => some c
  | none => (x.eng e).feWatch cell

/-- Grant the first watch of engine `e` on a full cell. -/
def State.grantWatch (s : State) (t e cell : Nat) : State :=
  let x := s.tile t
  let fewait := fun (s : State) =>
    match (s.engine t e).feWatch cell with
    | some con => (if con then s.setFull t cell false else s).grant t e
    | none => s
  let live := fun (s : State) => s.modTile t (fun x => { x with dldDone := false })
  match e with
  | 1 =>
    match x.vrun with
    | some r =>
      match watchOn r.watch cell with
      | some con => let (s, r) := s.vopGrant t r cell con; live (s.modTile t (fun x => { x with vrun := some r }))
      | none => fewait s
    | none => fewait s
  | 2 =>
    match x.mrun with
    | some r =>
      match watchOn r.watch cell with
      | some con => let (s, r) := s.mveGrant t r cell con; live (s.modTile t (fun x => { x with mrun := some r }))
      | none => fewait s
    | none => fewait s
  | _ => fewait s

/-- Grant watches in the rotating order of R196 while the cell stays full. -/
def State.grantWatches (t cell : Nat) : Nat → State → State
  | 0, s => s
  | n + 1, s =>
    if !s.isFull t cell then s
    else
      let last := look bankGrantInit (s.tile t).bankGrant (bankOfCell cell)
      match ((List.range 5).map (fun i => (last + 1 + i) % 5)).find? (fun e => (s.engineWatch t e cell).isSome) with
      | none => s
      | some e =>
        State.grantWatches t cell n ((s.grantWatch t e cell).bankUse t e [cell])

/-- FE_WATCH_GRANT (R348): the watches on a full cell are granted, and the operations that waited go on. -/
def feWatchGrant (t cell : Nat) (s : State) : State :=
  if !s.tileUp t then s else ((State.grantWatches t cell 8 s).vopGo t).mveGo t

def execFeWatchGrant (t : TileId) (cell : BitVec 16) (s : State) : Res := .next (feWatchGrant t.toNat cell.toNat s)

end Sys2Proof.Machine
end

