-- ==== Sys2Proof/Machine/Dispatch.lean ====
section
/-! DEFINITION. The meaning of each command: one arm for each row of the opcode table, in its order. -/

namespace Sys2Proof.Machine

/-- The effect of a command on everything but the queue. -/
def exec (i : Instr) (s : State) : Host.Outcome State Fault Refusal :=
  match i with
  | .registerWrite f off size data => Sys2Proof.Machine.execRegisterWrite f off size data s
  | .badAccess f off len write => Sys2Proof.Machine.execBadAccess f off len write s
  | .debugSpdataRead f t => Sys2Proof.Machine.execDebugSpdataRead f t s
  | .debugSpdataWrite f t data => Sys2Proof.Machine.execDebugSpdataWrite f t data s
  | .requestAccept who dpa write => Sys2Proof.Machine.execRequestAccept who dpa write s
  | .requestIssue c strikes sram => Sys2Proof.Machine.execRequestIssue c strikes sram s
  | .neighbourRefresh c => Sys2Proof.Machine.execNeighbourRefresh c s
  | .ref c => Sys2Proof.Machine.execRef c s
  | .pde c sid => Sys2Proof.Machine.execPde c sid s
  | .eccWriteBack c strikes => Sys2Proof.Machine.execEccWriteBack c strikes s
  | .patrolScrub c strikes => Sys2Proof.Machine.execPatrolScrub c strikes s
  | .crcReplay c col write sram => Sys2Proof.Machine.execCrcReplay c col write sram s
  | .passInstruction c t pkt => Sys2Proof.Machine.execPassInstruction c t pkt s
  | .passGroupClaim c => Sys2Proof.Machine.execPassGroupClaim c s
  | .gemvPass c unlockOk strikes => Sys2Proof.Machine.execGemvPass c unlockOk strikes s
  | .scorePass c unlockOk strikes => Sys2Proof.Machine.execScorePass c unlockOk strikes s
  | .valuePass c unlockOk strikes => Sys2Proof.Machine.execValuePass c unlockOk strikes s
  | .copyPass c unlockOk strikes => Sys2Proof.Machine.execCopyPass c unlockOk strikes s
  | .exitPass c => Sys2Proof.Machine.execExitPass c s
  | .unlockRetry c ok => Sys2Proof.Machine.execUnlockRetry c ok s
  | .operandFetchResponse c => Sys2Proof.Machine.execOperandFetchResponse c s
  | .rowPeriodStart c split strikes => Sys2Proof.Machine.execRowPeriodStart c split strikes s
  | .reservedCommandWord c column word => Sys2Proof.Machine.execReservedCommandWord c column word s
  | .mergeContribution k chan => Sys2Proof.Machine.execMergeContribution k chan s
  | .mergeTimeout k d => Sys2Proof.Machine.execMergeTimeout k d s
  | .statusCellWrite k d => Sys2Proof.Machine.execStatusCellWrite k d s
  | .resultReturnDropped k d => Sys2Proof.Machine.execResultReturnDropped k d s
  | .nocPacketDelivery p => Sys2Proof.Machine.execNocPacketDelivery p s
  | .feWatchGrant t cell => Sys2Proof.Machine.execFeWatchGrant t cell s
  | .prefetchIssue t line => Sys2Proof.Machine.execPrefetchIssue t line s
  | .prefetchArrive t => Sys2Proof.Machine.execPrefetchArrive t s
  | .streamRecord t => Sys2Proof.Machine.execStreamRecord t s
  | .streamFetchRequest t => Sys2Proof.Machine.execStreamFetchRequest t s
  | .streamLineReturn t answer data => Sys2Proof.Machine.execStreamLineReturn t answer data s
  | .bundleSplit t sram => Sys2Proof.Machine.execBundleSplit t sram s
  | .imld t => Sys2Proof.Machine.execImld t s
  | .imldHoldLimit t => Sys2Proof.Machine.execImldHoldLimit t s
  | .queueBarrier t => Sys2Proof.Machine.execQueueBarrier t s
  | .streamComplete t => Sys2Proof.Machine.execStreamComplete t s
  | .nop t e w => Sys2Proof.Machine.execNop t e w s
  | .seta t e w => Sys2Proof.Machine.execSeta t e w s
  | .setax t e w => Sys2Proof.Machine.execSetax t e w s
  | .adda t e w => Sys2Proof.Machine.execAdda t e w s
  | .suba t e w => Sys2Proof.Machine.execSuba t e w s
  | .addi t e w => Sys2Proof.Machine.execAddi t e w s
  | .shla t e w => Sys2Proof.Machine.execShla t e w s
  | .shra t e w => Sys2Proof.Machine.execShra t e w s
  | .mula t e w => Sys2Proof.Machine.execMula t e w s
  | .lda t e w => Sys2Proof.Machine.execLda t e w s
  | .loop t e w => Sys2Proof.Machine.execLoop t e w s
  | .call t e w => Sys2Proof.Machine.execCall t e w s
  | .ret t e w => Sys2Proof.Machine.execRet t e w s
  | .fence t e w => Sys2Proof.Machine.execFence t e w s
  | .pass t w => Sys2Proof.Machine.execPass t w s
  | .mma t w => Sys2Proof.Machine.execMma t w s
  | .mmaArrayStart t => Sys2Proof.Machine.execMmaArrayStart t s
  | .fst t w => Sys2Proof.Machine.execFst t w s
  | .fstBankRead t => Sys2Proof.Machine.execFstBankRead t s
  | .vop t w => Sys2Proof.Machine.execVop t w s
  | .vopStart t => Sys2Proof.Machine.execVopStart t s
  | .dset t w => Sys2Proof.Machine.execDset t w s
  | .move t w => Sys2Proof.Machine.execMove t w s
  | .moveBegin t => Sys2Proof.Machine.execMoveBegin t s
  | .semsig t e w => Sys2Proof.Machine.execSemsig t e w s
  | .semaphoreUpdate t => Sys2Proof.Machine.execSemaphoreUpdate t s
  | .semwait t e w => Sys2Proof.Machine.execSemwait t e w s
  | .semaphoreGrant t k => Sys2Proof.Machine.execSemaphoreGrant t k s
  | .scupd t e w => Sys2Proof.Machine.execScupd t e w s
  | .scwait t e w => Sys2Proof.Machine.execScwait t e w s
  | .streamCounterSatisfy t => Sys2Proof.Machine.execStreamCounterSatisfy t s
  | .fewait t e w => Sys2Proof.Machine.execFewait t e w s
  | .chorusArrive t e w => Sys2Proof.Machine.execChorusArrive t e w s
  | .chorusWait t e w => Sys2Proof.Machine.execChorusWait t e w s
  | .chorusArriveWait t e w => Sys2Proof.Machine.execChorusArriveWait t e w s
  | .chorusPhaseComplete g => Sys2Proof.Machine.execChorusPhaseComplete g s
  | .deadlockDetectorFire t => Sys2Proof.Machine.execDeadlockDetectorFire t s
  | .linkUp width speed flit cxl => Sys2Proof.Machine.execLinkUp width speed flit cxl s
  | .linkDown cause => Sys2Proof.Machine.execLinkDown cause s
  | .flr f => Sys2Proof.Machine.execFlr f s
  | .busMasterEnableClear f => Sys2Proof.Machine.execBusMasterEnableClear f s
  | .cxlMemRead hpa shared => Sys2Proof.Machine.execCxlMemRead hpa shared s
  | .cxlMemWrite hpa w keeps => Sys2Proof.Machine.execCxlMemWrite hpa w keeps s
  | .bar4Read f off => Sys2Proof.Machine.execBar4Read f off s
  | .bar4Write f off w => Sys2Proof.Machine.execBar4Write f off w s
  | .h2dSnoop line => Sys2Proof.Machine.execH2dSnoop line s
  | .bisnpResponse line writeBack => Sys2Proof.Machine.execBisnpResponse line writeBack s
  | .hostCompletion tag status data => Sys2Proof.Machine.execHostCompletion tag status data s
  | .completionTimeout tag => Sys2Proof.Machine.execCompletionTimeout tag s
  | .ideIntegrityFailure stream => Sys2Proof.Machine.execIdeIntegrityFailure stream s
  | .biasChange f region shared => Sys2Proof.Machine.execBiasChange f region shared s
  | .biasChangeComplete => Sys2Proof.Machine.execBiasChangeComplete s
  | .submissionDoorbell f place size data => Sys2Proof.Machine.execSubmissionDoorbell f place size data s
  | .eventHeadDoorbell f page size data => Sys2Proof.Machine.execEventHeadDoorbell f page size data s
  | .descriptorFetch n status data => Sys2Proof.Machine.execDescriptorFetch n status data s
  | .descriptorReread n status data => Sys2Proof.Machine.execDescriptorReread n status data s
  | .descriptorNop n => Sys2Proof.Machine.execDescriptorNop n s
  | .descriptorStream n => Sys2Proof.Machine.execDescriptorStream n s
  | .descriptorCopy n => Sys2Proof.Machine.execDescriptorCopy n s
  | .descriptorFill n => Sys2Proof.Machine.execDescriptorFill n s
  | .descriptorSignal n => Sys2Proof.Machine.execDescriptorSignal n s
  | .signalValueWrite n => Sys2Proof.Machine.execSignalValueWrite n s
  | .descriptorFence n => Sys2Proof.Machine.execDescriptorFence n s
  | .fenceComplete n => Sys2Proof.Machine.execFenceComplete n s
  | .completionRecord n => Sys2Proof.Machine.execCompletionRecord n s
  | .ringStart f n => Sys2Proof.Machine.execRingStart f n s
  | .ringResume f n => Sys2Proof.Machine.execRingResume f n s
  | .ringReset f n => Sys2Proof.Machine.execRingReset f n s
  | .ringHalt f n => Sys2Proof.Machine.execRingHalt f n s
  | .eventRingEnable f r => Sys2Proof.Machine.execEventRingEnable f r s
  | .eventReport => Sys2Proof.Machine.execEventReport s
  | .coalesceWindowEnd r source code => Sys2Proof.Machine.execCoalesceWindowEnd r source code s
  | .leakTick => Sys2Proof.Machine.execLeakTick s
  | .seamReplay replay fails sram => Sys2Proof.Machine.execSeamReplay replay fails sram s
  | .hostLinkReplay fec sram => Sys2Proof.Machine.execHostLinkReplay fec sram s
  | .moltCmd f chan => Sys2Proof.Machine.execMoltCmd f chan s
  | .molt => Sys2Proof.Machine.execMolt s
  | .moltCommit => Sys2Proof.Machine.execMoltCommit s
  | .tileReset f t => Sys2Proof.Machine.execTileReset f t s
  | .partitionReset f k => Sys2Proof.Machine.execPartitionReset f k s
  | .consistentCut => Sys2Proof.Machine.execConsistentCut s
  | .cutWaitExpire => Sys2Proof.Machine.execCutWaitExpire s
  | .hostBucketRearm f => Sys2Proof.Machine.execHostBucketRearm f s
  | .controlPeriod rails => Sys2Proof.Machine.execControlPeriod rails s
  | .fastTrip watts => Sys2Proof.Machine.execFastTrip watts s
  | .powerBrakeAssert pin => Sys2Proof.Machine.execPowerBrakeAssert pin s
  | .powerBrakeRelease pin => Sys2Proof.Machine.execPowerBrakeRelease pin s
  | .avsUpdate die island move => Sys2Proof.Machine.execAvsUpdate die island move s
  | .droopDetect island by_ => Sys2Proof.Machine.execDroopDetect island by_ s
  | .thermalSample diodes power => Sys2Proof.Machine.execThermalSample diodes power s
  | .thermalFloorStep => Sys2Proof.Machine.execThermalFloorStep s
  | .thermalShutdown sensor => Sys2Proof.Machine.execThermalShutdown sensor s
  | .thermalRestart => Sys2Proof.Machine.execThermalRestart s
  | .supplySagLockout rail x => Sys2Proof.Machine.execSupplySagLockout rail x s
  | .supplySagRecover => Sys2Proof.Machine.execSupplySagRecover s
  | .undervoltageShutdown mv => Sys2Proof.Machine.execUndervoltageShutdown mv s
  | .powerOn parts => Sys2Proof.Machine.execPowerOn parts s
  | .bringUp facts => Sys2Proof.Machine.execBringUp facts s
  | .cardReset f key => Sys2Proof.Machine.execCardReset f key s
  | .cfgSave f key => Sys2Proof.Machine.execCfgSave f key s
  | .loopbackRun f ctrl => Sys2Proof.Machine.execLoopbackRun f ctrl s
  | .loopbackEnd errors => Sys2Proof.Machine.execLoopbackEnd errors s
  | .timeStampPulse stamp => Sys2Proof.Machine.execTimeStampPulse stamp s
  | .timeStampHoldover => Sys2Proof.Machine.execTimeStampHoldover s
  | .firmwareUpdate f image => Sys2Proof.Machine.execFirmwareUpdate f image s
  | .rollForward f => Sys2Proof.Machine.execRollForward f s
  | .doeDiscovery index => Sys2Proof.Machine.execDoeDiscovery index s
  | .getIdentity => Sys2Proof.Machine.execGetIdentity s
  | .getMeas => Sys2Proof.Machine.execGetMeas s
  | .quote nonce session => Sys2Proof.Machine.execQuote nonce session s
  | .keyExch ct => Sys2Proof.Machine.execKeyExch ct s
  | .ideKm iv msg => Sys2Proof.Machine.execIdeKm iv msg s
  | .getNonce => Sys2Proof.Machine.execGetNonce s
  | .signedCmd cmd => Sys2Proof.Machine.execSignedCmd cmd s
  | .extend k digest => Sys2Proof.Machine.execExtend k digest s
  | .debugLevelRequest f req => Sys2Proof.Machine.execDebugLevelRequest f req s
  | .tileHalt f t => Sys2Proof.Machine.execTileHalt f t s
  | .tileResume f t => Sys2Proof.Machine.execTileResume f t s
  | .d3hotEntry => Sys2Proof.Machine.execD3hotEntry s
  | .status => Sys2Proof.Machine.execStatus s
  | .trip => Sys2Proof.Machine.execTrip s
  | .tsStat => Sys2Proof.Machine.execTsStat s
  | .tsCfg data => Sys2Proof.Machine.execTsCfg data s
  | .restart key => Sys2Proof.Machine.execRestart key s
  | .counters index => Sys2Proof.Machine.execCounters index s
  | .console chars => Sys2Proof.Machine.execConsole chars s
  | .busMasterEnableSet x => Sys2Proof.Machine.execBusMasterEnableSet x s
  | .perstNAssertion => Sys2Proof.Machine.execPerstNAssertion s
  | .perstNDeassertion => Sys2Proof.Machine.execPerstNDeassertion s
  | .in48Qualified => Sys2Proof.Machine.execIn48Qualified s
  | .in12Removal => Sys2Proof.Machine.execIn12Removal s
  | .d3hotExit => Sys2Proof.Machine.execD3hotExit s
  | .hdmDecoderCommit base size lock => Sys2Proof.Machine.execHdmDecoderCommit base size lock s
  | .linkRateChange width speed => Sys2Proof.Machine.execLinkRateChange width speed s
  | .unsupportedRequest posted => Sys2Proof.Machine.execUnsupportedRequest posted s
  | .seamRetrainComplete ok => Sys2Proof.Machine.execSeamRetrainComplete ok s
  | .droopRecover island => Sys2Proof.Machine.execDroopRecover island s
  | .tapInstruction ir => Sys2Proof.Machine.execTapInstruction ir s
  | .uartConsoleCommand chars => Sys2Proof.Machine.execUartConsoleCommand chars s

end Sys2Proof.Machine
end

