-- ==== Sys2Proof/Machine/Step.lean ====
section
/-! DEFINITION. One step of the block: the command at the front of the queue, or a tick of the time-stamp counter (R7, R26). -/

namespace Sys2Proof.Machine

/-- Nothing waits: TSC counts one more nanosecond, modulo 2^64 (DESIGN CHOICE, log 1). -/
def State.tick (s : State) : State := { s with tsc := (s.tsc + 1) % 2 ^ 64 }

/-- The command at the front acts with the rest of the queue; on an empty queue the block idles. -/
def step (s : State) : Host.Outcome State Fault Refusal :=
  match s.pending with
  | [] => .next s.tick
  | c :: rest => exec c { s with pending := rest }

/-- `s` with the command that a word spells at the front of its queue. -/
def State.withFetchWord (s : State) (nbits w : Nat) : State :=
  match decodeTableWord nbits w with
  | some c => { s with pending := c :: s.pending }
  | none => s

end Sys2Proof.Machine
end

