-- ==== Sys2Proof/Safety.lean ====
section
/-! DEFINITION. What counts as a sound state and a safe step, in the terms that claims use. -/

namespace Sys2Proof.Machine

/-- Device storage is in its canonical form: bytes, poison marks and standing errors each strictly rising, none equal to what an unlisted key reads as. -/
def Mem.wf (m : Mem) : Bool := canonical zeroByte m.bytes && canonical noMark m.poison && canonical noErr m.errs

/-- The registers are in canonical form. -/
def State.regsWf (s : State) : Bool := canonical regReset s.regs

/-- A step stops with a fault or a refusal. -/
def State.Stops (s : State) : Prop := ∀ t, step s ≠ .next t

/-- The command goes on to a next state in which device storage keeps its canonical form. -/
def Safe (c : Instr) (s : State) : Prop := ∃ t, exec c s = .next t ∧ t.mem.wf = true

end Sys2Proof.Machine
end

