-- ==== Sys2Proof/Certificates/Slice0/Obligations.lean ====
section
/-! DEFINITION. The statements of this row: what each command does, what it leaves alone, and what every step keeps. -/

section

open Sys2Proof Sys2Proof.Machine

/-- The command completes, in a state that `P` holds of. -/
def Sys2Proof.Machine.Goes (c : Instr) (s : State) (P : State → Prop) : Prop := ∃ t, exec c s = .next t ∧ P t

/-- The command completes: it takes the state to one that `P` holds of, and what waits on the CCs then goes on (log 69). Nothing goes on in a state in which nothing waits. -/
def Sys2Proof.Machine.GoesOn (c : Instr) (s : State) (P : State → Prop) : Prop := ∃ t, exec c s = .next t.onward ∧ P t

/-- Nothing waits on the CCs: no stalled requester, no evicted line to be asked for, no partition reset. -/
def Sys2Proof.Machine.Settled (s : State) : Prop := s.host.stalled = [] ∧ s.host.owed = [] ∧ s.host.resetting = []

/-- Every register word but those at the offsets `l` reads as before. -/
def Sys2Proof.Machine.WordsBut (s t : State) (l : List Nat) : Prop := ∀ o, o ∉ l → t.word o = s.word o

/-- Nothing but register words changes, and of these only the words at `l`. -/
def Sys2Proof.Machine.OnlyWords (s t : State) (l : List Nat) : Prop := t = { s with regs := t.regs } ∧ WordsBut s t l

/-! ### The block -/

/-- For every command c, queue rest and state s: step of s with c at the front of its queue is exec c on s with the rest as its queue. When no command waits, a step answers the state with TSC advanced by one nanosecond modulo 2^64 and nothing else changed, and the queue is empty at reset. The queue, and that the tick is the idle step, are the choices of log 1 of the model. -/
def Obligations.StepRunsFrontCommand : Prop :=
  (∀ (c : Instr) (rest : List Instr) (s : State), step { s with pending := c :: rest } = exec c { s with pending := rest }) ∧
  (∀ s : State, s.pending = [] → step s = .next { s with tsc := (s.tsc + 1) % 2 ^ 64 }) ∧ State.reset.pending = []

/-- For every state whose device storage and registers are in canonical form (keys strictly rising, no entry equal to what an unlisted key reads as), a step that answers a next state answers one whose storage and registers are in that form, whatever the command. The form is the model's own. -/
def Obligations.StepKeepsStorageForm : Prop :=
  ∀ s t : State, s.mem.wf = true → s.regsWf = true → step s = .next t → t.mem.wf = true ∧ t.regsWf = true

/-- For every command and state: when exec answers a next state, the queue of waiting commands is as before. -/
def Obligations.ExecLeavesQueue : Prop :=
  ∀ (c : Instr) (s t : State), exec c s = .next t → t.pending = s.pending

/-- At reset device storage and the register words are in the canonical form that StepKeepsStorageForm keeps, a form of the model's own. CC_SCHED_CTRL of a CC reads the values of its table (PANIC_LWM 16, PANIC_HWM 48, GAP_REQS 4, ROWHIT_CAP 4, PANIC_YIELD 32), every CC_ID names its source, stack and channel, HOST_BAR0_LOG is empty, the host link is down, the debug level is none, and every tile is in reset and not yet listed by a floor plan. -/
def Obligations.ResetRegisterValues : Prop :=
  let s := State.reset
  (s.mem.wf = true ∧ s.regsWf = true) ∧
  (s.rd (ccB 0) CC_SCHED_CTRL_PANIC_LWM = 16 ∧ s.rd (ccB 0) CC_SCHED_CTRL_PANIC_HWM = 48 ∧ s.rd (ccB 0) CC_SCHED_CTRL_GAP_REQS = 4 ∧
    s.rd (ccB 0) CC_SCHED_CTRL_ROWHIT_CAP = 4 ∧ s.rd (ccB 0) CC_SCHED_CTRL_PANIC_YIELD = 32) ∧
  (∀ c < 384, s.rd (ccB c) CC_ID_SOURCE = 0x200 + c ∧ s.rd (ccB c) CC_ID_STACK = c / 32 ∧ s.rd (ccB c) CC_ID_CHANNEL = c % 32) ∧
  (s.rd hostB HOST_BAR0_LOG_OFFSET = 0 ∧ s.flag hostB HOST_LINK_STAT_DL_UP = false ∧ s.debugLevel = 0) ∧
  (∀ t, (s.tile t).inReset = true ∧ s.enabled t = false)

/-! ### Register accesses -/

/-- Registers whose write starts something beyond taking its fields; the rows of those commands say what. -/
def Sys2Proof.Machine.commandRegister (p : Place) : Bool :=
  match p.blk with
  | .card => decide (p.rel = 0x18 ∨ p.rel = 0x80)
  | .host =>
    decide (p.rel = 0x300 ∨ (0x4000 ≤ p.rel ∧ p.rel < 0x5000 ∧ p.rel % 0x40 = 0x20) ∨ (0x5100 ≤ p.rel ∧ p.rel % 0x20 = 8 ∧ p.rel < 0x5220) ∨
      p.rel = 0x6018 ∨ p.rel = 0x6020 ∨ p.rel = 0x6030)
  | .pwr => decide (p.rel = 8)
  | .sec => decide (p.rel = 0x10 ∨ p.rel = 0x30 ∨ p.rel = 0x48)
  | .chorus => decide (p.rel < 0x200)
  | .cc => decide (p.rel = 0x200)
  | .tile => decide (0x7040 ≤ p.rel)
  | _ => false

/-- A whole-register write at `off` reaches row `r` of the place `p`, whose tile window, if it is one, belongs to an enabled tile (R193, R510); PF0 is not in D3hot, where no BAR access is taken (R507). -/
def Sys2Proof.Machine.Reaches (s : State) (f off : Nat) (p : Place) (r : RegRow) : Prop :=
  off % 8 = 0 ∧ placeOf off = some p ∧ findRow p.blk p.rel = some r ∧ s.badKind f off 8 true = 0 ∧ s.host.d3hot = false ∧ (p.blk = .tile → s.enabled p.unit = true)

/-- One field after an accepted write of `v`, under its access code and change class. -/
def Sys2Proof.Machine.Took (s t : State) (off cur : Nat) (fl : RegField) (v : Nat) : Prop :=
  let now := bitsOf (t.word off) fl.lo fl.w
  let old := bitsOf (s.word off) fl.lo fl.w
  let kept := bitsOf (look noPend t.pendMask off).toNat fl.lo fl.w = bitsOf (look noPend s.pendMask off).toNat fl.lo fl.w
  match fl.acc, fl.cls with
  | .RO, _ | .W1S, _ => now = old ∧ kept
  | .W1C, _ => (∀ i < fl.w, bit now i = (bit old i && !bit v i)) ∧ kept
  | _, .D _ =>
    now = old ∧
      if v = bitsOf cur fl.lo fl.w then kept
      else bitsOf (look noPend t.pendMask off).toNat fl.lo fl.w = 2 ^ fl.w - 1 ∧ bitsOf (look noPend t.pend off).toNat fl.lo fl.w = v
  | _, _ => now = v ∧ kept

/-- For every function, register that starts no command, and 8 B value that no rule rejects: the write completes; RO fields (and W1S bits, which are not stored) stay, a W1C bit is cleared exactly where the write has 1, a class L or S field takes its value at once, a class D field keeps its effective value and holds the written one as pending when it differs from what the register reads; no other register and no other state changes. A VF's write leaves OWNER out. That a class D field whose written value equals what the register reads keeps its pending state is the reading of log 18 of the model. -/
def Obligations.RegisterWriteTakesEachField : Prop :=
  ∀ (f : FnId) (off : Nat) (data : Word) (s : State) (p : Place) (r : RegRow),
    Reaches s f.val off p r → commandRegister p = false →
    s.refuses f.val p (fieldsFor f.val p r) (s.readPlace p off) data.toNat = false →
    s.refusesAlso f.val p (s.readPlace p off) data.toNat (nextWord (fieldsFor f.val p r) (s.readPlace p off) data.toNat) = false →
    Goes (.registerWrite f off 8 data) s (fun t =>
      t = { s with regs := t.regs, pend := t.pend, pendMask := t.pendMask } ∧
      (∀ o, o ≠ off → t.word o = s.word o ∧ look noPend t.pend o = look noPend s.pend o ∧ look noPend t.pendMask o = look noPend s.pendMask o) ∧
      ∀ fl ∈ fieldsFor f.val p r, Took s t off (s.readPlace p off) fl (bitsOf data.toNat fl.lo fl.w))

/-- The change-reject flag of a place: its register and its bit (Table 19-2). -/
def Sys2Proof.Machine.rejectFlag (p : Place) : Option (Nat × Nat) :=
  match p.blk with
  | .card => some (hostB + HOST_ERR_FLAGS_CHG_REJ.off, HOST_ERR_FLAGS_CHG_REJ.lo)
  | .host =>
    if 0x4000 ≤ p.rel ∧ p.rel < 0x6000 then some (hostB + RING_ERR_FLAGS_CHG_REJ.off, RING_ERR_FLAGS_CHG_REJ.lo)
    else some (hostB + HOST_ERR_FLAGS_CHG_REJ.off, HOST_ERR_FLAGS_CHG_REJ.lo)
  | .pwr => some (pwrB + 0x318, 0)
  | .sec => some (secB + SEC_FW_STAT_CHG_REJ.off, 3)
  | .chorus => some (chorusB + 0x300, 0)
  | .tile => some (tileB p.unit + TILE_ERR_FLAGS_CHG_REJ.off, TILE_ERR_FLAGS_CHG_REJ.lo)
  | .cc => some (ccB p.unit + CC_ERR_FLAGS_CHG_REJ.off, CC_ERR_FLAGS_CHG_REJ.lo)
  | .bdie => some (bdB p.unit + 8, 0)
  | .seam | .msix => none

/-- A write that is rejected: nothing changes but the change-reject flag of the block, which is set. -/
def Sys2Proof.Machine.Rejected (s t : State) (p : Place) : Prop :=
  t = { s with regs := t.regs } ∧
    match rejectFlag p with
    | some (o, i) => t.word o = setBits (s.word o) i 1 1 ∧ ∀ q, q ≠ o → t.word q = s.word q
    | none => t = s

/-- For every function, register and 8 B value: when the write would change a class S field while its governing unit is active, or would change a field to a value its table reserves, every field of the register keeps its value, pending values included, the change-reject flag of the owning block is set, and nothing else changes. -/
def Obligations.RejectedWriteSetsOnlyItsFlag : Prop :=
  ∀ (f : FnId) (off : Nat) (data : Word) (s : State) (p : Place) (r : RegRow), Reaches s f.val off p r →
    (∃ fl ∈ fieldsFor f.val p r,
      (∃ g, fl.cls = .S g ∧ s.active p g = true ∧ fl.changes (s.readPlace p off) data.toNat = true) ∨
      (fl.sets = true ∧ bitsOf data.toNat fl.lo fl.w ≠ bitsOf (s.readPlace p off) fl.lo fl.w ∧
        s.legal f.val p (nextWord (fieldsFor f.val p r) (s.readPlace p off) data.toNat) (bitsOf data.toNat fl.lo fl.w) fl.legal = false)) →
    Goes (.registerWrite f off 8 data) s (fun t => Rejected s t p)

/-- For every function, register and 4 B value: the write is the 8 B write of the register in which the half that the address names holds the value and every bit of the other half its current value, except that W1C and W1S bits of the other half are 0. -/
def Obligations.HalfWriteActsAsWholeWrite : Prop :=
  ∀ (f : FnId) (off : Nat) (data new : Word) (s : State) (p : Place) (r : RegRow),
    off % 4 = 0 → Reaches s f.val (off / 8 * 8) p r → s.badKind f.val off 4 true = 0 →
    (∀ i < 64, bit new.toNat i =
      if i / 32 = off % 8 / 4 then bit data.toNat (i % 32)
      else bit (s.readPlace p (off / 8 * 8)) i && !(r.fields.any (fun fl => decide ((fl.acc = .W1C ∨ fl.acc = .W1S) ∧ fl.lo ≤ i ∧ i < fl.lo + fl.w)))) →
    exec (.registerWrite f off 4 data) s = exec (.registerWrite f (off / 8 * 8) 8 new) s

/-- A bad access is recorded in HOST_BAR0_LOG and changes nothing else; a bad read answers bytes of 0. -/
def Sys2Proof.Machine.BadRecorded (s t : State) (f off : Nat) (write : Bool) (kind : Nat) : Prop :=
  t = { s with regs := t.regs, out := t.out } ∧ t.out = (if write then s.out else s.out ++ [.regData f 0]) ∧
    WordsBut s t [hostB + 0x320] ∧
    t.rd hostB HOST_BAR0_LOG_OFFSET = off ∧ t.rd hostB HOST_BAR0_LOG_KIND = kind ∧ t.rd hostB HOST_BAR0_LOG_FUNC = f ∧
    t.rd hostB HOST_BAR0_LOG_WRITE = (if write then 1 else 0) ∧ t.rd hostB HOST_BAR0_LOG_VALID = 1

/-- A BAR0 access that is bad by its size or alignment (KIND 2), by an unimplemented offset (PF0: KIND 1), by the view of a VF (KIND 3), or by a unit that cannot answer (KIND 4) is recorded with its offset, kind, function and direction; a bad read completes with bytes of 0, a bad write is discarded, no event is raised and no other state changes. In D3hot, where PF0 takes configuration requests and DOE only, a bad read is an unsupported request and a bad write is dropped (log 81 of the model). Which kind a doubly bad access records is the choice of log 24 of the model. -/
def Obligations.BadAccessIsRecorded : Prop :=
  ∀ (f : FnId) (off len : Nat) (write : Bool) (s : State), off < 2 ^ 26 →
    if s.host.d3hot = true then
      ((len ≠ 4 ∧ len ≠ 8) ∨ off % len ≠ 0 →
        exec (.badAccess f off len true) s = .next s ∧
        Goes (.badAccess f off len false) s (fun t => t = { s with host := { s.host with aer := t.host.aer }, out := s.out ++ [.ur] }))
    else
    let w := off / 8 * 8
    ((len ≠ 4 ∧ len ≠ 8) ∨ off % len ≠ 0 → Goes (.badAccess f off len write) s (fun t => BadRecorded s t f.val off write 2)) ∧
    ((len = 4 ∨ len = 8) → off % len = 0 → implemented w = false → f = 0 →
      Goes (.badAccess f off len write) s (fun t => BadRecorded s t f.val off write 1)) ∧
    ((len = 4 ∨ len = 8) → off % len = 0 → f ≠ 0 → (∀ p, placeOf w = some p → s.exposes f.val p write = false) →
      Goes (.badAccess f off len write) s (fun t => BadRecorded s t f.val off write 3)) ∧
    (∀ p, (len = 4 ∨ len = 8) → off % len = 0 → placeOf w = some p → implemented w = true → (f = 0 ∨ s.exposes f.val p write = true) →
      s.answers p = false → Goes (.badAccess f off len write) s (fun t => BadRecorded s t f.val off write 4))

/-- PF0 reaches `len` bytes at byte `off` of the tile's debug data registers: its die answers, the tile is enabled, the debug level is invasive and PF0 is not in D3hot (R507, R516, R519). -/
def Sys2Proof.Machine.DebugReach (s : State) (t : TileId) (off len : Nat) (write : Bool) : Prop :=
  s.badKind 0 (tileB t.toNat + 0x7008 + off) len write = 0 ∧ s.enabled t.toNat = true ∧ s.debugLevel = 2 ∧ s.host.d3hot = false

/-- At debug level invasive, PF0's read of TILE_DBG_SPDATA0, whole or of one half, latches the 64 B, the two poison bits and the full/empty bit of the cell at TILE_DBG_SPADDR and answers the bytes read of its first 8 B (the bytes of a poisoned unit are undefined); a write of TILE_DBG_SPDATA7 places its 8 B in bytes 56-63 of the latch and stores the whole latched cell, data and poison, leaving full/empty bits, every other cell, every other tile and every other register as they were. -/
def Obligations.DebugCellAccess : Prop :=
  (∀ (r : SpDataRead) (s : State), r.off + r.len ≤ 8 → DebugReach s r.tile r.off r.len false →
    let t := r.tile
    let b := tileB t.toNat
    let i := s.rd b TILE_DBG_SPADDR_OFFSET / 64
    let c := s.spCell t.toNat i
    Goes (.debugSpdataRead 0 r) s (fun u =>
      u = { s with regs := u.regs, out := u.out, free := u.free } ∧
      (∃ v, u.out = s.out ++ [.regData 0 v] ∧ ∀ lo, c.lo = some lo → v = lo.toNat / 2 ^ (8 * r.off) % 2 ^ (8 * r.len)) ∧
      (∀ lo, c.lo = some lo → ∀ j < 4, u.word (b + 0x7008 + 8 * j) = lo.toNat / 2 ^ (64 * j) % 2 ^ 64) ∧
      (∀ hi, c.hi = some hi → ∀ j < 4, u.word (b + 0x7028 + 8 * j) = hi.toNat / 2 ^ (64 * j) % 2 ^ 64) ∧
      u.rd b TILE_DBG_SPPOIS_POISON = (if c.lo = none then 1 else 0) + (if c.hi = none then 2 else 0) ∧
      u.rd b TILE_DBG_SPPOIS_FULL = (if s.isFull t.toNat i then 1 else 0) ∧
      WordsBut s u ((List.range 9).map (fun j => b + 0x7008 + 8 * j)))) ∧
  (∀ (t : TileId) (data : Word) (s : State), DebugReach s t 56 8 true →
    let b := tileB t.toNat
    let i := s.rd b TILE_DBG_SPADDR_OFFSET / 64
    let half := fun (j : Nat) (n : Nat) => if bit (s.rd b TILE_DBG_SPPOIS_POISON) j then none else some (BitVec.ofNat 256 n)
    Goes (.debugSpdataWrite 0 t data) s (fun u =>
      u = { s with regs := u.regs, tiles := u.tiles } ∧ WordsBut s u [b + 0x7040] ∧ u.word (b + 0x7040) = data.toNat ∧
      (∀ k, k ≠ t.toNat → u.tile k = s.tile k) ∧ u.tile t.toNat = { s.tile t.toNat with sp := (u.tile t.toNat).sp, spPois := (u.tile t.toNat).spPois } ∧
      u.spCell t.toNat i =
        ⟨half 0 (s.word (b + 0x7008) + 2 ^ 64 * s.word (b + 0x7010) + 2 ^ 128 * s.word (b + 0x7018) + 2 ^ 192 * s.word (b + 0x7020)),
         half 1 (s.word (b + 0x7028) + 2 ^ 64 * s.word (b + 0x7030) + 2 ^ 128 * s.word (b + 0x7038) + 2 ^ 192 * data.toNat)⟩ ∧
      ∀ k, k ≠ i → u.spCell t.toNat k = s.spCell t.toNat k))

/-! ### Channel controllers -/

/-- The command trace of the channel is off. -/
def Sys2Proof.Machine.Untraced (s : State) (c : Nat) : Prop := s.flag (ccB c) CC_TRACE_CTRL_ENABLE = false

/-- Every CC but `c` is as before. -/
def Sys2Proof.Machine.OtherCcs (s t : State) (c : Nat) : Prop := ∀ d, d ≠ c → t.cc d = s.cc d

/-- A report raised now. -/
def Sys2Proof.Machine.State.report (s : State) (src code : Nat) (data : List Nat) : Report := ⟨src, code, data, s.tsc⟩

/-- Two power-down masks: bit `sid` cleared, the others as before. -/
def Sys2Proof.Machine.Awake (s t : State) (c sid : Nat) : Prop :=
  bit (t.rd (ccB c) CC_STATUS_SID_PD) sid = false ∧ ∀ j < 4, j ≠ sid → bit (t.rd (ccB c) CC_STATUS_SID_PD) j = bit (s.rd (ccB c) CC_STATUS_SID_PD) j

/-- The requester is there to make a request: a tile that is enabled and out of reset, or a host port whose die is out of reset (R27). -/
def Sys2Proof.Machine.Asks (s : State) (who : Requester) : Prop := if who.port = .tile then s.tileUp who.id = true else s.dieUp 0 = true

/-- A tile's request to the location waits for the host's answer about its line (R371). -/
def Sys2Proof.Machine.AwaitsHost (s : State) (who : Requester) (key : Nat) : Prop :=
  who.port = .tile ∧ s.needsSnoop key [] = true ∧ s.answeredFor who.id (key / 64) = false

/-- A request that is accepted uses up what its tile waited for: the host's answer about the line, and the mark of its deadlock detector (R355, R371). -/
def Sys2Proof.Machine.AnswerUsed (s t : State) (who : Requester) (line : Nat) : Prop :=
  if who.port = .tile then
    t.host = { s.host with answered := s.host.answered.erase (who.id, line) } ∧ t.tile who.id = { s.tile who.id with dldDone := false } ∧
      ∀ k, k ≠ who.id → t.tile k = s.tile k
  else t.host = s.host ∧ t.tiles = s.tiles

/-- A 64 B request whose DPA is mapped and allowed joins the pool of its channel as the youngest and leaves power-down in its SID (a write is complete then; the trace is off in this case), or stalls, with nothing changed, when its port or bank has no room, the channel is being molted, a pass packet enters first in panic, the seam link carries no traffic to it, or a bias change holds it; a tile request to a line that the host may hold waits while the host is asked; a host request that card fault cuts off, and one at a retired channel, is answered with poison or discarded, the latter counted and reported (0x0688); an unmapped DPA, or one outside the tile's partition, is answered with an unmapped-address error, reported (0x0603; 0x0107 for the partition) by a CC out of reset and never accepted. A tile that is not up, and a host port in reset, sends nothing. Nothing else changes. -/
def Obligations.RequestIsAcceptedOrAnswered : Prop :=
  ∀ (who : Requester) (dpa : Addr) (write : Option WriteData) (s : State), dpa.toNat % 64 = 0 →
    let answer := fun (key : Nat) => s.out ++ [if write.isSome then Out.writeDone who key else .readData who key .bad]
    (¬ Asks s who → exec (.requestAccept who dpa write) s = .next s) ∧
    (Asks s who →
      (∀ key, s.decodeDpa dpa.toNat = .at key → (who.port = .tile → s.dpaRefused who.id dpa.toNat = false) →
        let c := keyChan key
        (who.port = .tile → s.biasHeld key = true → exec (.requestAccept who dpa write) s = .next s) ∧
        (who.port = .host → s.hostCut key = true → exec (.requestAccept who dpa write) s = .next { s with out := answer key }) ∧
        ((who.port = .tile → s.biasHeld key = false) → (who.port = .host → s.hostCut key = false) →
          (s.retired c = false → ¬ AwaitsHost s who key → Untraced s c →
            (s.mayTake who key = true →
              Goes (.requestAccept who dpa write) s (fun t =>
                t = { s with regs := t.regs, ccs := t.ccs, out := t.out, tiles := t.tiles, host := t.host } ∧ OtherCcs s t c ∧ AnswerUsed s t who (key / 64) ∧
                WordsBut s t [ccB c + CC_STATUS_SID_PD.off] ∧
                t.cc c = { s.cc c with pool := (s.cc c).pool ++ [⟨who, key, write, s.tsc, .plain⟩] } ∧ Awake s t c (keyBank key / 32) ∧
                t.out = (if write.isSome then s.out ++ [.writeDone who key] else s.out))) ∧
            ((s.cc c).room who.port (keyBank key) = false ∨ s.molting c = true ∨ s.passFirst c = true ∨ s.seamHeld who.die (chanDie c) = true →
              exec (.requestAccept who dpa write) s = .next s)) ∧
          (s.retired c = false → AwaitsHost s who key →
            if s.canSnoop = true then
              Goes (.requestAccept who dpa write) s (fun t =>
                t = { s with regs := t.regs, reports := t.reports, out := t.out, host := t.host } ∧
                ((∃ q ∈ t.host.snoops, q.line = key / 64 ∧ .request who.id ∈ q.waiters) ∨ (256 ≤ s.host.snoops.length ∧ .request who.id ∈ t.host.stalled)))
            else exec (.requestAccept who dpa write) s = .next { s with out := answer key }) ∧
          (s.retired c = true →
            Goes (.requestAccept who dpa write) s (fun t =>
              t = { s with regs := t.regs, reports := t.reports, out := answer key } ∧ WordsBut s t [hostB + FLT_RET_ACC_COUNT.off] ∧
              t.rd hostB FLT_RET_ACC_COUNT = (s.rd hostB FLT_RET_ACC_COUNT + 1) % 2 ^ FLT_RET_ACC_COUNT.w ∧
              s.report (ccSrc c) 0x0688 [who.port.code, if write.isSome then 1 else 0] ∈ t.reports ∧ s.reports <+: t.reports)))) ∧
      (∀ key, s.decodeDpa dpa.toNat = .at key → who.port = .tile → s.dpaRefused who.id dpa.toNat = true →
        if s.dieUp (chanDie (keyChan key)) = true then
          Goes (.requestAccept who dpa write) s (fun t =>
            t = { s with regs := t.regs, reports := t.reports, out := s.out ++ [.unmapped who dpa.toNat] } ∧
            WordsBut s t [ccB (keyChan key) + CC_ERR_FLAGS_UNMAPPED.off] ∧ t.flag (ccB (keyChan key)) CC_ERR_FLAGS_UNMAPPED = true ∧
            t.reports = s.reports ++ [s.report (ccSrc (keyChan key)) 0x0603 [dpa.toNat, 2], s.report (ccSrc (keyChan key)) 0x0107 [who.id, 1]])
        else exec (.requestAccept who dpa write) s = .next { s with out := s.out ++ [.unmapped who dpa.toNat] }) ∧
      (s.decodeDpa dpa.toNat = .noCc →
        exec (.requestAccept who dpa write) s = .next { s with reports := s.reports ++ [s.report who.source 0x0603 [dpa.toNat, who.port.code]], out := s.out ++ [.unmapped who dpa.toNat] }) ∧
      (∀ c, s.decodeDpa dpa.toNat = .refused c →
        if s.dieUp (chanDie c) = true then
          Goes (.requestAccept who dpa write) s (fun t =>
            t = { s with regs := t.regs, reports := s.reports ++ [s.report (ccSrc c) 0x0603 [dpa.toNat, who.port.code]], out := s.out ++ [.unmapped who dpa.toNat] } ∧
            WordsBut s t [ccB c + CC_ERR_FLAGS_UNMAPPED.off] ∧ t.flag (ccB c) CC_ERR_FLAGS_UNMAPPED = true)
        else exec (.requestAccept who dpa write) s = .next { s with out := s.out ++ [.unmapped who dpa.toNat] }))

/-- In both interleaving modes with the default bank masks of Table 3-3, two device physical addresses below 0xC0_0000_0000 that decode to the same stack, channel, SID, bank, row and byte are equal. -/
def Obligations.InterleavedDecodeIsInjective : Prop :=
  ∀ (wide : Bool) (a c : Nat), a < 0xC000000000 → c < 0xC000000000 →
    let masks := if wide then wideMasks else localMasks
    interleaved masks wide a = interleaved masks wide c → a = c

/-- The request that a slot serves when no pass is active, in native mode: in the first bank at or after the pointer that has a request, the oldest row hit while ROWHIT_CAP allows, else the oldest (R81). -/
def Sys2Proof.Machine.RotatingPick (s : State) (c : Nat) (r : Req) : Prop :=
  let k := s.cc c
  let bank := keyBank r.key
  r ∈ k.pool ∧ (∀ q ∈ k.pool, (bank + 128 - k.ptr) % 128 ≤ (keyBank q.key + 128 - k.ptr) % 128) ∧
    let hit := k.pool.find? (fun q => decide (keyBank q.key = bank) && decide (k.openRow bank = some (keyRow q.key)))
    let old := k.pool.find? (fun q => decide (keyBank q.key = bank))
    some r = (if look (fun _ => 0) k.hits bank < s.rd (ccB c) CC_SCHED_CTRL_ROWHIT_CAP ∧ hit.isSome then hit else old)

/-- The data of a pooled read reach its requester in the form that it expects: an answer leaves the card, or the data wait for a requester of the card, unless that was reset (R416). -/
def Sys2Proof.Machine.Delivered (s t : State) (c : Nat) (r : Req) (d : Cell64) : Prop :=
  let sent := fun (o : Out) => t.out = s.out ++ [o] ∧ (t.cc c).landed = (s.cc c).landed
  match r.ans with
  | .plain => sent (.readData r.who r.key d)
  | .mem => sent (.memData d)
  | .bar f => sent (.barData f d)
  | .card .dropped => t.out = s.out ∧ (t.cc c).landed = (s.cc c).landed
  | .card u => t.out = s.out ∧ (t.cc c).landed = (s.cc c).landed ++ [(u, r.key, some d)]

/-- No escalated neighbour refresh waits ahead of the slot. -/
def Sys2Proof.Machine.Unescalated (s : State) (c : Nat) : Prop := ∀ m ∈ (s.cc c).maint ++ (s.cc c).waiting, match m with | .neighbour _ _ _ _ e => e = false | _ => True

/-- No burst of the pair of a key, in this direction, has failed after its last replay. -/
def Sys2Proof.Machine.Kept (s : State) (key : Nat) (write : Bool) : Prop := look noMark (s.cc (keyChan key)).lost (burstNo key write) = false

/-- The bursts that a request runs are performed: its own, and the read of a read-modify-write. -/
def Sys2Proof.Machine.Req.runs (s : State) (r : Req) : Prop :=
  match r.write with
  | none => Kept s r.key false
  | some w => Kept s r.key true ∧ (w.rmw = true → Kept s r.key false)

/-- The two columns of a key hold no standing error. -/
def Sys2Proof.Machine.Sound (s : State) (key : Nat) : Prop := s.mem.err (key / 32) = 0 ∧ s.mem.err (key / 32 + 1) = 0

/-- Half `h` of a written cell: bytes under the mask from the data, the others as before; a poisoned write of any byte poisons the unit, and a poisoned unit stays so until it is written whole (R406). -/
def Sys2Proof.Machine.halfAfter (old new : Half) (mask : Nat) : Half :=
  if mask % 2 ^ 32 = 0 then old
  else
    match new with
    | none => none
    | some x =>
      if mask % 2 ^ 32 = 2 ^ 32 - 1 then some x
      else old.map (fun d => BitVec.ofNat 256 (upto 32 (fun i a => if bit mask i then setBits a (8 * i) 8 (bitsOf x.toNat (8 * i) 8) else a) d.toNat))

/-- With no pass active, no escalated refresh, in native mode and the trace off, REQUEST_ISSUE serves one request r: the oldest row hit of the first bank at or after the rotating pointer, or the oldest request once ROWHIT_CAP younger hits have passed it; the pointer moves to the bank after it, its row is the open one. A read of sound columns gives its requester the cell stored there (a poisoned unit as poison) and memory stays; a write changes exactly the enabled bytes of its two columns and every other column stays. Requests that card fault cuts off and bursts lost to CRC failures have statements or rules of their own. What waited on the CC then goes on. -/
def Obligations.RequestIssueServesThePick : Prop :=
  ∀ (c : Chan) (s : State) , Untraced s c → (s.cc c).active = none → (s.cc c).panic = false → Unescalated s c → s.flag (ccB c) CC_SCHED_CTRL_MODE = false →
    (s.cc c).ptr < 128 → (∀ r ∈ (s.cc c).pool, r.key < 2 ^ 40 ∧ r.key % 64 = 0 ∧ keyChan r.key = c.val) → (s.cc c).pool.Nodup → (s.cc c).pool ≠ [] →
    ∃ r, RotatingPick s c r ∧
      (Sound s r.key → r.runs s → (r.who.port = .host → s.hostCut r.key = false) →
        GoesOn (.requestIssue c [] []) s (fun t =>
          t = { s with regs := t.regs, ccs := t.ccs, mem := t.mem, reports := t.reports, out := t.out } ∧ OtherCcs s t c ∧
          WordsBut s t [ccB c + CC_ERR_FLAGS_RD_ESC.off] ∧
          (t.cc c).pool = (s.cc c).pool.erase r ∧ (t.cc c).ptr = (keyBank r.key + 1) % 128 ∧ (t.cc c).openRow (keyBank r.key) = some (keyRow r.key) ∧
          (∀ b, b ≠ keyBank r.key → (t.cc c).openRow b = (s.cc c).openRow b) ∧
          match r.write with
          | none => t.mem = s.mem ∧ Delivered s t c r (s.mem.store.cell (r.key / 64))
          | some w =>
            t.out = s.out ∧ (t.cc c).landed = (s.cc c).landed ∧
            t.mem.store.half (r.key / 32) = halfAfter (s.mem.store.half (r.key / 32)) w.data.lo (w.mask.toNat % 2 ^ 32) ∧
            t.mem.store.half (r.key / 32 + 1) = halfAfter (s.mem.store.half (r.key / 32 + 1)) w.data.hi (w.mask.toNat / 2 ^ 32) ∧
            (∀ u, u ≠ r.key / 32 → u ≠ r.key / 32 + 1 → t.mem.store.half u = s.mem.store.half u) ∧ ∀ u, t.mem.err u = s.mem.err u))

/-- The bank of an item of the maintenance port. -/
def Sys2Proof.Machine.Maint.bank : Maint → Nat
  | .neighbour _ b _ _ _ => b
  | .writeBack col _ _ => keyBank (32 * col)

/-- A SID may enter power-down (R95): the timer runs, no row of it is open, no port has a request to it, no pass holds a claim on its group, and it is not there already. -/
def Sys2Proof.Machine.MayPowerDown (s : State) (c sid : Nat) : Prop :=
  s.rd (ccB c) CC_PD_CTRL_PD_TIMER ≠ 0 ∧ s.retired c = false ∧ bit (s.rd (ccB c) CC_STATUS_SID_PD) sid = false ∧
    (∀ b < 32, (s.cc c).openRow (32 * sid + b) = none) ∧ (∀ r ∈ (s.cc c).pool, keyBank r.key / 32 ≠ sid) ∧
    (∀ m ∈ (s.cc c).maint ++ (s.cc c).waiting, m.bank / 32 ≠ sid) ∧ (s.cc c).group ≠ some (sid / 2)

/-- REF at a channel that refreshes (trace off): every row is closed, every SID leaves power-down, an ACTA held for the slot may follow, slot k becomes k + 1 and the next slot time reads E + (k + 1) x 3,900 ns + (c mod 4) x 975 ns; where k mod 8,192 = 0 the row-disturbance tables are cleared and pending limits may take effect, and otherwise both stay; memory stays, and what waited on the CC goes on, which is nothing where nothing waits. A channel that does not refresh, or is retired, ignores it. PDE sets a SID's power-down bit when the timer is not 0 and the SID has no open row, no queued request of any port and no part in a computing group, and otherwise changes nothing. -/
def Obligations.RefreshAndPowerDown : Prop :=
  (∀ (c : Chan) (s : State), Untraced s c → (s.cc c).refresh = true → s.retired c = false →
    GoesOn (.ref c) s (fun t =>
      let k := s.cc c
      t = { s with regs := t.regs, pendMask := t.pendMask, ccs := t.ccs } ∧ OtherCcs s t c ∧
      t.cc c = { k with rows := [], slot := k.slot + 1, dist := if k.slot % 8192 = 0 then [] else k.dist, active := k.active.map (fun a => { a with held := false }) } ∧
      t.rd (ccB c) CC_STATUS_SID_PD = 0 ∧
      t.rd (ccB c) CC_BSEQ_REFSLOT_TSC = (k.epoch + (k.slot + 1) * 3900 + c % 4 * 975) % 2 ^ CC_BSEQ_REFSLOT_TSC.w ∧
      WordsBut s t [ccB c + CC_STATUS_SID_PD.off, ccB c + CC_BSEQ_REFSLOT_TSC.off, ccB c + CC_RD_CTRL_THRESHOLD.off] ∧
      (k.slot % 8192 ≠ 0 → t.word (ccB c + CC_RD_CTRL_THRESHOLD.off) = s.word (ccB c + CC_RD_CTRL_THRESHOLD.off) ∧ t.pendMask = s.pendMask))) ∧
  (∀ (c : Chan) (s : State), (s.cc c).refresh = false ∨ s.retired c = true → exec (.ref c) s = .next s.onward) ∧
  (∀ (c : Chan) (sid : Fin 4) (s : State), Untraced s c → MayPowerDown s c sid.val →
    Goes (.pde c sid) s (fun t =>
      OnlyWords s t [ccB c + CC_STATUS_SID_PD.off] ∧ bit (t.rd (ccB c) CC_STATUS_SID_PD) sid.val = true ∧
      ∀ j < 4, j ≠ sid.val → bit (t.rd (ccB c) CC_STATUS_SID_PD) j = bit (s.rd (ccB c) CC_STATUS_SID_PD) j)) ∧
  (∀ (c : Chan) (sid : Fin 4) (s : State), ¬ MayPowerDown s c sid.val → exec (.pde c sid) s = .next s) ∧
  (∀ s : State, Settled s → s.onward = s)

/-- With the trace off: NEIGHBOUR_REFRESH takes its item off the queue, closes the bank's row, wakes its SID and changes no data, its table entry keeping its count, or queueing again with count 0 when the count has reached THRESHOLD; ECC_WRITE_BACK (native mode, no pass) stores the queued corrected column, without error, and takes it off the queue; PATROL_SCRUB (native mode) moves to the next column, leaves sound data, rewrites a single-bit error corrected (0x0601) and an uncorrectable one as the poison code (0x0602); it does nothing while it is off, before the channel refreshes and at a retired channel, and waits, its age counting, in panic and behind a full maintenance queue. Every other column and every other CC stays. What waited on the CC then goes on. -/
def Obligations.MaintenanceRunsItsQueue : Prop :=
  (∀ (c : Chan) (s : State) (id bank row since : Nat) (e : Bool), Untraced s c → bank < 128 → s.nextNeighbour c = some (.neighbour id bank row since e) →
    (s.cc c).waiting = [] → (s.cc c).maint.Nodup → (∀ m ∈ (s.cc c).maint, ∀ b r w x, m ≠ .neighbour (s.cc c).nextId b r w x) → (s.cc c).maint.length ≤ 16 →
    GoesOn (.neighbourRefresh c) s (fun t =>
      t = { s with regs := t.regs, ccs := t.ccs } ∧ OtherCcs s t c ∧ WordsBut s t [ccB c + CC_STATUS_SID_PD.off] ∧ Awake s t c (bank / 32) ∧
      (t.cc c).openRow bank = none ∧ (∀ b, b ≠ bank → (t.cc c).openRow b = (s.cc c).openRow b) ∧
      .neighbour id bank row since e ∉ (t.cc c).maint ∧ (∀ m, m ∈ (s.cc c).maint → m ≠ .neighbour id bank row since e → m ∈ (t.cc c).maint) ∧
      (∀ b, b ≠ bank → look (fun _ => []) (t.cc c).dist b = look (fun _ => []) (s.cc c).dist b) ∧
      ∀ i x, (look (fun _ => []) (s.cc c).dist bank).findIdx? (fun y => decide (y.queued = some id)) = some i →
        (look (fun _ => []) (s.cc c).dist bank)[i]? = some x →
        if s.rd (ccB c) CC_RD_CTRL_THRESHOLD ≤ x.count then
          (look (fun _ => []) (t.cc c).dist bank)[i]? = some ⟨x.row, 0, some (s.cc c).nextId⟩ ∧ .neighbour (s.cc c).nextId bank x.row s.tsc false ∈ (t.cc c).maint
        else (look (fun _ => []) (t.cc c).dist bank)[i]? = some ⟨x.row, x.count, none⟩)) ∧
  (∀ (c : Chan) (s : State) (col since : Nat) (d : BitVec 256), Untraced s c → keyChan (32 * col) = c.val → (s.cc c).panic = false → (s.cc c).active = none → Unescalated s c →
    s.flag (ccB c) CC_SCHED_CTRL_MODE = false → Kept s (col / 2 * 64) true →
    (s.cc c).maint.find? (fun m => match m with | .writeBack .. => true | _ => false) = some (.writeBack col since d) → (s.cc c).waiting = [] → (s.cc c).maint.Nodup →
    GoesOn (.eccWriteBack c []) s (fun t =>
      t = { s with regs := t.regs, ccs := t.ccs, mem := t.mem, reports := t.reports } ∧ OtherCcs s t c ∧
      WordsBut s t [ccB c + CC_ERR_FLAGS_RD_ESC.off, ccB c + CC_STATUS_SID_PD.off] ∧ Awake s t c (keyBank (32 * col) / 32) ∧
      .writeBack col since d ∉ (t.cc c).maint ∧ (t.cc c).openRow (keyBank (32 * col)) = some (keyRow (32 * col)) ∧ t.mem.store.half col = some d ∧ t.mem.err col = 0 ∧
      ∀ u, u ≠ col → t.mem.store.half u = s.mem.store.half u ∧ t.mem.err u = s.mem.err u)) ∧
  (∀ (c : Chan) (s : State), Untraced s c → s.flag (ccB c) CC_SCRUB_CTRL_ENABLE = true → (s.cc c).refresh = true → s.retired c = false → (s.cc c).panic = false →
    (s.cc c).active = none → Unescalated s c → s.flag (ccB c) CC_SCHED_CTRL_MODE = false → (s.cc c).maint.length < 16 → (s.cc c).scrub + 1 < 2 ^ 26 →
    let col := c * 2 ^ 26 + (s.cc c).scrub
    s.mem.err col ≤ 2 → Kept s (col / 2 * 64) false → Kept s (col / 2 * 64) true →
    GoesOn (.patrolScrub c []) s (fun t =>
      t = { s with regs := t.regs, ccs := t.ccs, mem := t.mem, reports := t.reports, molt := t.molt, free := t.free } ∧ OtherCcs s t c ∧ (t.cc c).scrub = (s.cc c).scrub + 1 ∧
      t.mem.err col = 0 ∧ (∀ u, u ≠ col → t.mem.store.half u = s.mem.store.half u ∧ t.mem.err u = s.mem.err u) ∧ s.reports <+: t.reports ∧
      (if s.mem.store.half col = none then t.mem.store.half col = none
       else if s.mem.err col = 2 then t.mem.store.half col = none ∧ s.report (ccSrc c) 0x0602 [2 ^ 40 + 32 * col, 3] ∈ t.reports
       else t.mem.store.half col = s.mem.store.half col ∧
         (s.mem.err col = 1 → s.report (ccSrc c) 0x0601 [2 ^ 40 + 32 * col, 3] ∈ t.reports)))) ∧
  (∀ (c : Chan) (s : State), s.flag (ccB c) CC_SCRUB_CTRL_ENABLE = false ∨ (s.cc c).refresh = false ∨ s.retired c = true → exec (.patrolScrub c []) s = .next s.onward) ∧
  (∀ (c : Chan) (s : State), s.flag (ccB c) CC_SCRUB_CTRL_ENABLE = true → (s.cc c).refresh = true → s.retired c = false →
    ((s.cc c).panic = true ∧ s.flag (ccB c) CC_SCHED_CTRL_MODE = false) ∨ 16 ≤ (s.cc c).maint.length →
    GoesOn (.patrolScrub c []) s (fun t =>
      t = { s with ccs := t.ccs } ∧ OtherCcs s t c ∧ t.cc c = { s.cc c with scrubAt := some ((s.cc c).scrubAt.getD s.tsc) }))

/-- One uncorrectable error of the pair of `col` is reported, with the code of its reader (Table 3-9). -/
def Sys2Proof.Machine.PairReported (s t : State) (c col reader : Nat) : Prop :=
  ∃ x, x / 2 = col / 2 ∧ s.report (ccSrc c) 0x0602 [2 ^ 40 + 32 * x, reader] ∈ t.reports

/-- Each of the first four failures of a burst (trace off) reports event 0x0606 with the channel and the number of the replay and adds W_RP to the channel's bucket, replays of other bursts being counted apart; the failure after them is one uncorrectable error (0x0602, naming a column of the pair and the reader). The oldest accepted request to the line is performed with it: a read is answered with poison (a prefetch, which reports nothing, too), a write leaves the poison code in the columns it touches, and a write whose read-modify-write read failed leaves it in the columns it covers in part. Any other burst is recorded as lost until its port, the scrub or a write-back performs it. A channel of a die in reset has no burst. Every other CC and column stays. What waited on the CC then goes on. Which request and which column a failed burst is that of, is the choice of log 31 of the model. -/
def Obligations.CrcReplayReportsAndFails : Prop :=
  (∀ (c : Chan) (col : Nat) (write : Bool) (s : State), Untraced s c → keyChan (32 * col) = c.val → s.retired c = false → s.dieUp (chanDie c) = true →
    let b := burstNo (col / 2 * 64) write
    let n := look noReplay (s.cc c).replays b
    n < 4 →
    GoesOn (.crcReplay c col write []) s (fun t =>
      t = { s with regs := t.regs, ccs := t.ccs, reports := t.reports, molt := t.molt } ∧ OtherCcs s t c ∧
      look noReplay (t.cc c).replays b = n + 1 ∧ (∀ d, d ≠ b → look noReplay (t.cc c).replays d = look noReplay (s.cc c).replays d) ∧
      (t.cc c).pool = (s.cc c).pool ∧ s.reports ++ [s.report (ccSrc c) 0x0606 [c % 32, n + 1]] <+: t.reports ∧
      t.rd (ccB c) CC_BKT_LEVEL = min 65535 (s.rd (ccB c) CC_BKT_LEVEL + s.rd hostB FLT_BKT_CTRL_W_RP) ∧
      WordsBut s t [ccB c + CC_BKT_LEVEL.off, ccB c + CC_BKT_PERM.off, hostB + FLT_MOLT_STAT_REFUSED.off])) ∧
  (∀ (c : Chan) (col : Nat) (write : Bool) (s : State), keyChan (32 * col) = c.val → s.retired c = false → s.dieUp (chanDie c) = true →
    let key := col / 2 * 64
    let b := burstNo key write
    let u := key / 32
    4 ≤ look noReplay (s.cc c).replays b →
    GoesOn (.crcReplay c col write []) s (fun t =>
      t = { s with regs := t.regs, ccs := t.ccs, mem := t.mem, reports := t.reports, molt := t.molt, out := t.out } ∧ OtherCcs s t c ∧ look noReplay (t.cc c).replays b = 0 ∧
      s.reports <+: t.reports ∧ (∀ x, x ≠ u → x ≠ u + 1 → t.mem.store.half x = s.mem.store.half x) ∧
      let waits := t.mem = s.mem ∧ t.out = s.out ∧ (t.cc c).pool = (s.cc c).pool ∧ look noMark (t.cc c).lost b = true
      match (s.cc c).pool.find? (fun r => decide (r.key = key)) with
      | none => waits ∧ (write = true → PairReported s t c col 5)
      | some r =>
        match r.write, write with
        | none, false =>
          (t.cc c).pool = (s.cc c).pool.erase r ∧ t.mem = s.mem ∧ Delivered s t c r .bad ∧
            match r.ans with
            | .card (.prefetch _) => True
            | _ => PairReported s t c col 1
        | some w, true =>
          (t.cc c).pool = (s.cc c).pool.erase r ∧ t.out = s.out ∧ PairReported s t c col 5 ∧
            (w.mask.toNat % 2 ^ 32 ≠ 0 → t.mem.store.half u = none) ∧ (w.mask.toNat / 2 ^ 32 ≠ 0 → t.mem.store.half (u + 1) = none)
        | some w, false =>
          if w.rmw = true then
            (t.cc c).pool = (s.cc c).pool.erase r ∧ t.out = s.out ∧ PairReported s t c col 4 ∧
              (∀ h, h < 2 → let m := w.mask.toNat / 2 ^ (32 * h) % 2 ^ 32
                t.mem.store.half (u + h) =
                  if m = 0 then s.mem.store.half (u + h) else if m = 2 ^ 32 - 1 then (if h = 0 then w.data.lo else w.data.hi) else none)
          else waits
        | none, true => waits)) ∧
  (∀ (c : Chan) (col : Nat) (write : Bool) (s : State), keyChan (32 * col) ≠ c.val ∨ s.retired c = true ∨ s.dieUp (chanDie c) = false →
    exec (.crcReplay c col write []) s = .next s.onward)

/-! ### Bank passes -/

/-- The all-poisoned contribution of an instruction reaches the merge unit when one is due (R140). -/
def Sys2Proof.Machine.StandIn (s t : State) (c : Nat) (r : PassReq) : Prop :=
  (∀ k, k ≠ c / 32 → t.bd k = s.bd k) ∧
    t.bd (c / 32) = if pMop r.pkt ≠ 3 ∧ mergeOk r.pkt = true then
        { s.bd (c / 32) with arrived := (s.bd (c / 32)).arrived ++ [⟨c % 32, mergeKey r.pkt, pTag r.pkt, r.tile, true, []⟩] }
      else s.bd (c / 32)

/-- What a CC has taken lies in its own channel, at whole 64 B lines. -/
def Sys2Proof.Machine.Homed (s : State) (c : Nat) : Prop :=
  (∀ q ∈ (s.cc c).pool, q.key < 2 ^ 40 ∧ q.key % 64 = 0 ∧ keyChan q.key = c) ∧
    ∀ m ∈ (s.cc c).maint ++ (s.cc c).waiting, match m with | .writeBack col _ _ => keyChan (32 * col) = c | _ => True

/-- Nothing that the CC has taken names a bank of pass group `g`. -/
def Sys2Proof.Machine.GapIdle (s : State) (c g : Nat) : Prop :=
  (∀ q ∈ (s.cc c).pool, keyBank q.key / 64 ≠ g) ∧ ∀ m ∈ (s.cc c).maint ++ (s.cc c).waiting, match m with | .writeBack col _ _ => keyBank (32 * col) / 64 ≠ g | _ => True

/-- Column `u` after a pooled request, from its contents `old` before: the enabled bytes of a write that reaches storage, the rest as it was. -/
def Sys2Proof.Machine.Req.stores (s : State) (r : Req) (u : Nat) (old : Half) : Half :=
  match r.write with
  | none => old
  | some w =>
    if r.who.port = .host ∧ s.hostCut r.key = true then old
    else if u = r.key / 32 then halfAfter old w.data.lo (w.mask.toNat % 2 ^ 32)
    else if u = r.key / 32 + 1 then halfAfter old w.data.hi (w.mask.toNat / 2 ^ 32)
    else old

/-- A pass instruction that reaches its CC (the oldest packet in flight from that tile, when one is) joins the queue of at most 8, or waits at the ingress behind a full queue (held by the seam link, at a die in reset, or from a tile that is not up and has none in flight, nothing arrives); at a stack outside the tile's partition (0x0107) or a retired channel (0x0546) it is reported and answered by the all-poisoned contribution that is due. Nothing else changes. PASS_GROUP_CLAIM with a head that passes its checks and no active pass (trace off): when the active-stack limit allows it, the pass becomes active with its whole plan to do, the queue moves up by one held packet, the writes accepted for the group's banks are performed, each column taking the enabled bytes of its writes in order and every other column staying (columns without error and bursts that pass their CRC; no escalated refresh waits), every row of the group is closed, and rows and requests of the other group stay; otherwise the channel notes since when it waits. Other CCs and B-dies stay. What waited on the CC then goes on. -/
def Obligations.PassesAreQueuedBarredAndClaimed : Prop :=
  (∀ (c : Chan) (t : TileId) (pkt : BitVec 512) (s : State),
    let r : PassReq := ⟨t.toNat, pkt⟩
    let old := s.flight.find? (fun q => decide (q.1 = c.val ∧ q.2.tile = t.toNat))
    let own := s.tileOwner t.toNat
    (old = none ∨ old = some (c.val, r)) →
    let left := match old with | some q => s.flight.erase q | none => s.flight
    (s.seamHeld (tileDie t.toNat) (chanDie c) = true ∨ s.dieUp (chanDie c) = false ∨ (old = none ∧ s.tileUp t.toNat = false) →
      exec (.passInstruction c t pkt) s = .next s) ∧
    (s.seamHeld (tileDie t.toNat) (chanDie c) = false → s.dieUp (chanDie c) = true → (old = none → s.tileUp t.toNat = true) →
    (own = 0 ∨ s.stackOwner (c / 32) = own → s.retired c = false → s.molting c = false →
      Goes (.passInstruction c t pkt) s (fun u =>
        u = { s with flight := left, ccs := u.ccs } ∧ OtherCcs s u c ∧
        u.cc c = if (s.cc c).queue.length < 8 ∧ (s.cc c).ingress = [] then { s.cc c with queue := (s.cc c).queue ++ [r] }
          else { s.cc c with ingress := (s.cc c).ingress ++ [r] })) ∧
    (own ≠ 0 → s.stackOwner (c / 32) ≠ own →
      Goes (.passInstruction c t pkt) s (fun u =>
        u = { s with flight := left, bdies := u.bdies, reports := s.reports ++ [s.report (ccSrc c) 0x0107 [t.toNat, 2]] } ∧ StandIn s u c r)) ∧
    (own = 0 ∨ s.stackOwner (c / 32) = own → s.retired c = true ∨ s.molting c = true →
      Goes (.passInstruction c t pkt) s (fun u =>
        u = { s with flight := left, bdies := u.bdies, reports := s.reports ++ [s.report (ccSrc c) 0x0546 [pTag pkt]] } ∧ StandIn s u c r)))) ∧
  (∀ (c : Chan) (t : TileId) (pkt : BitVec 512) (s : State) (q : Nat × PassReq), s.flight.find? (fun q => decide (q.1 = c.val ∧ q.2.tile = t.toNat)) = some q →
    q.2.pkt ≠ pkt → exec (.passInstruction c t pkt) s = .next s) ∧
  (∀ (c : Chan) (s : State) (r : PassReq) (rest : List PassReq), (s.cc c).queue = r :: rest → (s.cc c).active = none → passCheck r.pkt = 0 →
    s.mayClaim c = true → Untraced s c → Unescalated s c → Homed s c →
    (∀ q ∈ (s.cc c).pool, keyBank q.key / 64 = pG r.pkt → Sound s q.key ∧ q.runs s) →
    GoesOn (.passGroupClaim c) s (fun t =>
      let g := pG r.pkt
      t = { s with regs := t.regs, ccs := t.ccs, bdies := t.bdies, mem := t.mem, reports := t.reports, out := t.out } ∧
      (∀ u, t.mem.store.half u =
        ((s.cc c).pool.filter (fun q => decide (keyBank q.key / 64 = g))).foldl (fun h q => q.stores s u h) (s.mem.store.half u)) ∧
      (∀ u, t.mem.err u = s.mem.err u) ∧ s.reports <+: t.reports ∧ s.out <+: t.out ∧
      WordsBut s t [ccB c + CC_ERR_FLAGS_RD_ESC.off, ccB c + CC_STATUS_SID_PD.off, ccB c + CC_BSEQ_PANIC_NS.off] ∧
      OtherCcs s t c ∧ (t.cc c).active = some (Active.start r (s.rd (ccB c) CC_BSEQ_CTRL_OPND_AHEAD)) ∧ (t.cc c).claimAt = none ∧
      (t.cc c).queue = rest ++ (s.cc c).ingress.take (if rest.length < 8 then 1 else 0) ∧
      (t.cc c).ingress = (s.cc c).ingress.drop (if rest.length < 8 then 1 else 0) ∧
      (∀ q ∈ (t.cc c).pool, q ∈ (s.cc c).pool ∧ (keyBank q.key / 64 = g → q.write = none)) ∧
      (∀ q ∈ (s.cc c).pool, keyBank q.key / 64 ≠ g → q ∈ (t.cc c).pool) ∧
      (∀ b, b / 64 = g → (t.cc c).openRow b = none) ∧ (∀ b, b / 64 ≠ g → (t.cc c).openRow b = (s.cc c).openRow b) ∧
      (∀ k, k ≠ c / 32 → t.bd k = s.bd k) ∧ t.bd (c / 32) = { s.bd (c / 32) with activeAt := some ((s.bd (c / 32)).activeAt.getD s.tsc) })) ∧
  (∀ (c : Chan) (s : State) (r : PassReq) (rest : List PassReq), (s.cc c).queue = r :: rest → (s.cc c).active = none → passCheck r.pkt = 0 →
    s.mayClaim c = false →
    GoesOn (.passGroupClaim c) s (fun t =>
      t = { s with ccs := t.ccs } ∧ OtherCcs s t c ∧ t.cc c = { s.cc c with claimAt := some ((s.cc c).claimAt.getD s.tsc) })) ∧
  (∀ (c : Chan) (s : State), (s.cc c).active ≠ none ∨ (∀ r, (s.cc c).queue.head? = some r → passCheck r.pkt ≠ 0) → exec (.passGroupClaim c) s = .next s.onward)

/-- The four pass rows with the KIND of each. -/
def Sys2Proof.Machine.passCommands (c : Chan) (ok : Bool) : List (Nat × Instr) :=
  [(1, .gemvPass c ok []), (2, .scorePass c ok []), (3, .valuePass c ok []), (4, .copyPass c ok [])]

/-- GEMV_PASS, SCORE_PASS, VALUE_PASS and COPY_PASS with an active, unlocked pass of their KIND that has its whole plan to do, a free drain buffer, an open way to its tile and a stack at level S0, no ACTA being held (trace off): the pass ends, panic falls, PASSES counts one, the channel stays in PIM mode unless the pass has EXIT, and exactly one contribution of 64 drain units with the instruction's merge fields, tag and tile reaches the merge unit where DRAIN is 1 and MOP is not 3. Requests and write-backs to the group's banks run in the gaps between its row periods; where none waits, nothing is answered, and GEMV and VALUE change no column. No column outside the pass group changes. Engines of other channels, other CCs and B-dies stay. What waited on the CC then goes on. -/
def Obligations.UnlockedPassRunsToItsEnd : Prop :=
  ∀ (c : Chan) (ok : Bool) (kind : Nat) (cmd : Instr) (s : State) (a : Active), (kind, cmd) ∈ passCommands c ok →
    (s.cc c).active = some a → a.unlocked = true → pKind a.req.pkt = kind → passCheck a.req.pkt = 0 → a.todo = passPlan a.req.pkt →
    s.bufferFree c = true → Untraced s c → (∀ b, b / 128 = c.val → (s.eng b).row < 8192) → s.seamHeld (chanDie c) (tileDie a.req.tile) = false →
    a.held = false → bitsOf (s.rd pwrB PWR_SLEVEL_LEVEL) (3 * (c.val / 32)) 3 = 0 → s.spaced c (pG a.req.pkt) = true → Homed s c →
    let p := a.req.pkt
    GoesOn cmd s (fun t =>
      t = { s with regs := t.regs, pendMask := t.pendMask, ccs := t.ccs, engs := t.engs, bdies := t.bdies, mem := t.mem, reports := t.reports, out := t.out, molt := t.molt, free := t.free } ∧
      s.out <+: t.out ∧ (GapIdle s c (pG p) → t.out = s.out) ∧
      OtherCcs s t c ∧ (t.cc c).active = none ∧ (t.cc c).panic = false ∧ (t.cc c).pim = ((s.cc c).pim && !pExit p) ∧
      t.rd (ccB c) CC_BSEQ_PASSES_COUNT = (s.rd (ccB c) CC_BSEQ_PASSES_COUNT + 1) % 2 ^ CC_BSEQ_PASSES_COUNT.w ∧
      (∀ b, b / 128 ≠ c.val → t.eng b = s.eng b) ∧ (∀ k, k ≠ c / 32 → t.bd k = s.bd k) ∧ (t.bd (c / 32)).dests = (s.bd (c / 32)).dests ∧
      (if pDrain p = true ∧ pMop p ≠ 3 then
        ∃ units, (t.bd (c / 32)).arrived = (s.bd (c / 32)).arrived ++ [⟨c % 32, mergeKey p, pTag p, a.req.tile, false, units⟩] ∧ units.length = 64
       else (t.bd (c / 32)).arrived = (s.bd (c / 32)).arrived) ∧
      (kind = 1 ∨ kind = 3 → GapIdle s c (pG p) → t.mem = s.mem) ∧
      ∀ u, keyChan (32 * u) ≠ c.val ∨ keyBank (32 * u) / 64 ≠ pG p → t.mem.store.half u = s.mem.store.half u ∧ t.mem.err u = s.mem.err u)

/-- When the next queued instruction fails a check of Table 5-3, the command of its KIND takes it off the queue without issuing anything: event 0x0541 with its tag and the lowest failing reason, the same two in CC_BSEQ_REJ with VALID, and the all-poisoned contribution when one is due. UNLOCK_RETRY after a first failure (trace off, no escalated refresh waiting): a success puts the channel in PIM mode with every engine of it that is IDLE and not OFF in READY with cleared state, rows closed, and panic rises where the command buffer is below PANIC_LWM; a second failure emits 0x0542, ends the pass and rejects it with reason 8. EXIT_PASS ends the pass, counts it (log 29 of the model, a DESIGN CHOICE), and in PIM mode discards the state of every engine of the channel that is not OFF and leaves PIM mode. Engines of other channels and other CCs stay. What waited on the CC then goes on. -/
def Obligations.RejectedPassesUnlockRetryAndExit : Prop :=
  (∀ (c : Chan) (ok : Bool) (kind : Nat) (cmd : Instr) (s : State) (r : PassReq) (rest : List PassReq),
    (kind, cmd) ∈ (5, .exitPass c) :: passCommands c ok → (s.cc c).active = none → (s.cc c).queue = r :: rest → pKind r.pkt = kind → passCheck r.pkt ≠ 0 →
    GoesOn cmd s (fun t =>
      t = { s with regs := t.regs, ccs := t.ccs, bdies := t.bdies, reports := s.reports ++ [s.report (ccSrc c) 0x0541 [pTag r.pkt, passCheck r.pkt]] } ∧
      OtherCcs s t c ∧ (t.cc c).active = none ∧ (t.cc c).queue = rest ++ (s.cc c).ingress.take (if rest.length < 8 then 1 else 0) ∧
      WordsBut s t [ccB c + CC_BSEQ_REJ_TAG.off] ∧ t.rd (ccB c) CC_BSEQ_REJ_TAG = pTag r.pkt ∧ t.rd (ccB c) CC_BSEQ_REJ_REASON = passCheck r.pkt ∧
      t.rd (ccB c) CC_BSEQ_REJ_VALID = 1 ∧ StandIn s t c r)) ∧
  (∀ (c : Chan) (s : State) (a : Active), (s.cc c).active = some a → (s.cc c).retried = true → (s.cc c).panic = false → Untraced s c → Unescalated s c → a.gap = false →
    (∀ i < 128, s.engOff c (i / 64) (i % 64) = false → (s.eng (128 * c + i)).st = .idle ∨ (s.eng (128 * c + i)).st = .fault) →
    GoesOn (.unlockRetry c true) s (fun t =>
      let up := decide (a.buffered < s.rd (ccB c) CC_SCHED_CTRL_PANIC_LWM)
      t = { s with ccs := t.ccs, engs := t.engs } ∧ OtherCcs s t c ∧
      t.cc c = { s.cc c with rows := [], pim := true, retried := false, active := some { a with unlocked := true },
                             panic := up, panicAt := if up then s.tsc else (s.cc c).panicAt, yields := if up then 0 else (s.cc c).yields } ∧
      ∀ b, t.eng b = if b / 128 = c.val ∧ s.engOff c (b % 128 / 64) (b % 64) = false ∧ (s.eng b).st = .idle then (s.eng b).enter else s.eng b)) ∧
  (∀ (c : Chan) (s : State) (a : Active), (s.cc c).active = some a → (s.cc c).retried = true → (s.cc c).panic = false → Untraced s c → Unescalated s c → a.gap = false →
    GoesOn (.unlockRetry c false) s (fun t =>
      t = { s with regs := t.regs, ccs := t.ccs, bdies := t.bdies,
                   reports := s.reports ++ [s.report (ccSrc c) 0x0542 [pTag a.req.pkt], s.report (ccSrc c) 0x0541 [pTag a.req.pkt, 8]] } ∧ OtherCcs s t c ∧
      (t.cc c).active = none ∧ (t.cc c).pim = (s.cc c).pim ∧ t.rd (ccB c) CC_BSEQ_REJ_REASON = 8 ∧ t.rd (ccB c) CC_BSEQ_REJ_VALID = 1 ∧
      t.rd (ccB c) CC_BSEQ_REJ_TAG = pTag a.req.pkt ∧ WordsBut s t [ccB c + CC_BSEQ_REJ_TAG.off])) ∧
  (∀ (c : Chan) (s : State) (a : Active), (s.cc c).active = some a → pKind a.req.pkt = 5 → (s.cc c).panic = false → a.faulted = false → Untraced s c →
    GoesOn (.exitPass c) s (fun t =>
      t = { s with regs := t.regs, pendMask := t.pendMask, ccs := t.ccs, engs := t.engs, bdies := t.bdies, reports := t.reports } ∧ OtherCcs s t c ∧
      (t.cc c).active = none ∧ (t.cc c).pim = false ∧
      t.rd (ccB c) CC_BSEQ_PASSES_COUNT = (s.rd (ccB c) CC_BSEQ_PASSES_COUNT + 1) % 2 ^ CC_BSEQ_PASSES_COUNT.w ∧
      ∀ b, t.eng b = if (s.cc c).pim = true ∧ b / 128 = c.val ∧ s.engOff c (b % 128 / 64) (b % 64) = false then EngSt.blank else s.eng b))

/-- OPERAND_FETCH_RESPONSE answers the first operand unit that was asked of the tile and has not arrived, when the seam link carries it: it holds the 64 B cell of the issuing tile's scratchpad at OPND + record pitch x record + 64 x unit, or poison when the tile does not answer, which is reported once for the pass (0x0544). It changes no full/empty bit, no scratchpad, no other unit and no other CC. What waited on the CC then goes on. -/
def Obligations.OperandFetchDeliversACell : Prop :=
  ∀ (c : Chan) (s : State) (a : Active) (rec unit : Nat), (s.cc c).active = some a → a.nextFetch = some (rec, unit) → s.seamHeld (chanDie c) (tileDie a.req.tile) = false →
    let addr := pOpnd a.req.pkt + rec * pRec a.req.pkt + 64 * unit
    GoesOn (.operandFetchResponse c) s (fun t => ∃ x,
      t = { s with regs := t.regs, ccs := t.ccs, reports := t.reports } ∧ OtherCcs s t c ∧ (t.cc c).active = some x ∧
      x.req = a.req ∧ x.todo = a.todo ∧ x.has rec unit = true ∧ (∀ r u, u < 32 → unit < 32 → (r, u) ≠ (rec, unit) → x.has r u = a.has r u) ∧
      look (fun _ => Cell64.zero) x.operands (32 * rec + unit) = (if s.nocCause a.req.tile = 0 then s.spCell a.req.tile (addr / 64) else .bad) ∧
      s.reports <+: t.reports ∧
      (s.nocCause a.req.tile ≠ 0 → a.fetchErr = false → s.report (ccSrc c) 0x0544 [pTag a.req.pkt, a.req.tile, addr] ∈ t.reports) ∧
      (s.nocCause a.req.tile = 0 → (s.cc c).panic = false → t.reports = s.reports ∧ t.regs = s.regs))

/-- A command that may hand values to the drain path. -/
def Sys2Proof.Machine.drains : PCmd → Bool
  | .cmp _ _ _ _ _ _ dl => dl
  | .drn => true
  | _ => false

/-- ROW_PERIOD_START of an unlocked pass whose next row period may issue (trace off): every command of the period issues, but for OPBs of the next row whose data has not arrived, which stay to do before the rest; requests of the group that the gap before it still has room for are served first; it ends with every engine of the group closed and the gap count at 0. Where only n operations fit before the refresh slot, at least SPLIT_MIN run so as a first part, SPLITS counts one and the rest, with an ACTA of its own, is held for the slot; fewer than SPLIT_MIN hold the ACTA and nothing issues. What waited on the CC then goes on. A reserved row or column word (an opcode that Tables 5-4 and 5-5 do not list) puts exactly the READY and OPEN engines of the computing group in FAULT, sets SEQ_ERR and is reported once for the pass (0x0501, operation 0). -/
def Obligations.RowPeriodRunsAndCloses : Prop :=
  (∀ (c : Chan) (split : Option Nat) (s : State) (a : Active) (l rest : List PCmd), (s.cc c).active = some a → a.unlocked = true → nextPeriod a.todo = (l, rest) →
    .prea ∈ l → (∀ m ∈ l.takeWhile (fun m => !m.isActa), a.deferred m = false) → s.rowReady c a = true → (l.filter drains).length ≤ 1 → (.drn ∈ l → s.bufferFree c = true) → Untraced s c →
    let total := l.foldl (fun n m => n + m.ops) 0
    let late := l.filter a.deferred
    let shut := fun (t : State) (x : Active) (splits : Nat) =>
      t = { s with regs := t.regs, pendMask := t.pendMask, ccs := t.ccs, engs := t.engs, bdies := t.bdies, mem := t.mem, reports := t.reports, out := t.out, molt := t.molt, free := t.free } ∧
      s.out <+: t.out ∧ OtherCcs s t c ∧ (t.cc c).active = some x ∧ x.req = a.req ∧ x.gapServed = 0 ∧ x.gap = true ∧
      (∀ b, b / 128 ≠ c.val → t.eng b = s.eng b) ∧
      (∀ q < 64, s.engOff c (pG a.req.pkt) q = false → (t.eng (engIdx c (pG a.req.pkt) q)).st ≠ .opened) ∧
      t.rd (ccB c) CC_BSEQ_SPLITS_COUNT = (s.rd (ccB c) CC_BSEQ_SPLITS_COUNT + splits) % 2 ^ CC_BSEQ_SPLITS_COUNT.w
    ((∀ n, split = some n → total ≤ n) →
      GoesOn (.rowPeriodStart c split []) s (fun t => ∃ x, shut t x 0 ∧ x.todo = late ++ rest ∧ x.held = false)) ∧
    (∀ n, split = some n → n < total → s.rd (ccB c) CC_BSEQ_CTRL_SPLIT_MIN ≤ n →
      GoesOn (.rowPeriodStart c split []) s (fun t => ∃ x, shut t x 1 ∧ x.todo = (splitPeriod n (l.filter (fun m => !a.deferred m))).2 ++ late ++ rest ∧ x.held = true)) ∧
    (∀ n, split = some n → n < total → n < s.rd (ccB c) CC_BSEQ_CTRL_SPLIT_MIN →
      GoesOn (.rowPeriodStart c split []) s (fun t => ∃ x,
        t = { s with regs := t.regs, ccs := t.ccs } ∧ OtherCcs s t c ∧ (t.cc c).active = some x ∧ x = { a with held := true, asked := x.asked }))) ∧
  (∀ (c : Chan) (column : Bool) (word : BitVec 40) (s : State) (a : Active), (s.cc c).active = some a → a.seqErr = false →
    (if column then 3 ≤ bitsOf word.toNat 35 5 ∧ (bitsOf word.toNat 35 5 < 16 ∨ 26 < bitsOf word.toNat 35 5) else 12 ≤ bitsOf word.toNat 20 4) →
    let g := pG a.req.pkt
    let hit := fun q => !s.engOff c g q && decide ((s.eng (engIdx c g q)).st = .ready ∨ (s.eng (engIdx c g q)).st = .opened)
    let ps := (List.range 64).filter hit
    ∀ p0, ps.head? = some p0 →
      Goes (.reservedCommandWord c column word) s (fun t =>
        t = { s with regs := t.regs, ccs := t.ccs, engs := t.engs,
                     reports := s.reports ++ [s.report (bdSrc (c / 32)) 0x0501 [c % 32, p0, ps.length, 0, (s.eng (engIdx c g p0)).st.code]] } ∧ OtherCcs s t c ∧
        t.cc c = { s.cc c with active := some { a with seqErr := true, faulted := true } } ∧
        (∀ q < 64, t.eng (engIdx c g q) = if hit q then (s.eng (engIdx c g q)).toFault else s.eng (engIdx c g q)) ∧
        (∀ b, b / 64 ≠ 2 * c.val + g → t.eng b = s.eng b) ∧
        t.flag (bdB (c / 32)) (B_NEWT_STAT_SEQ_ERR.at (8 * (c % 32))) = true ∧ WordsBut s t [bdB (c / 32) + (B_NEWT_STAT_SEQ_ERR.at (8 * (c % 32))).off]))

/-! ### Merge units -/

/-- Only the merge unit of stack `k` changes, and of it only what waits and destination `d`. -/
def Sys2Proof.Machine.OnlyDest (s t : State) (k d : Nat) : Prop :=
  (∀ j, j ≠ k → t.bd j = s.bd j) ∧ (∀ e, e ≠ d → (t.bd k).dest e = (s.bd k).dest e) ∧ (t.bd k).activeAt = (s.bd k).activeAt

/-- Reports of the bank indices of an SMERGE contribution for which the destination holds no ML entry (R162). -/
def Sys2Proof.Machine.mlGaps (s : State) (k d mop : Nat) (x : Contribution) : List Report :=
  if mop = 2 then
    ((List.range 64).filter (fun p => !((Taken.mk x false).unit p).absent &&
      (look (fun _ => none) ((s.bd k).dest d).ml (64 * x.chan + p)).isNone)).map (fun p => s.report (bdSrc k) 0x0551 [d, x.chan, p])
  else []

/-- MERGE_CONTRIBUTION takes the channel's oldest contribution unless its destination is RETURNING: the first of a use makes a FREE or HOLDING destination COLLECTING with its merge fields, the present time and the TIMEOUT now in force (a pending one takes effect as the destination leaves FREE); a further one is counted, and marked and reported (0x0550) with the fields in which it differs from the use. The drain buffer is freed; no other destination and no other stack changes. A use of SMERGE keeps the ML table, and each of its drain units without an ML entry is reported (0x0551). -/
def Obligations.MergeUnitCollects : Prop :=
  (∀ (k : Stack) (chan : Fin 32) (s : State), (s.bd k).arrived.find? (fun x => decide (x.chan = chan.val)) = none →
    exec (.mergeContribution k chan) s = .next s.onward) ∧
  (∀ (k : Stack) (chan : Fin 32) (s : State) (x : Contribution), (s.bd k).arrived.find? (fun x => decide (x.chan = chan.val)) = some x →
    let d := x.key.mdest
    let old := (s.bd k).dest d
    (old.st = .returning → exec (.mergeContribution k chan) s = .next s.onward) ∧
    (old.st = .free ∨ old.st = .holding → 0 < x.key.mcount →
      GoesOn (.mergeContribution k chan) s (fun t =>
        t = { s with regs := t.regs, pendMask := t.pendMask, bdies := t.bdies, reports := s.reports ++ mlGaps s k d x.key.mop x } ∧ OnlyDest s t k d ∧ (t.bd k).arrived = (s.bd k).arrived.erase x ∧
        ((t.bd k).dest d).st = .collecting ∧ ((t.bd k).dest d).key = x.key ∧ ((t.bd k).dest d).taken = [⟨x, false⟩] ∧ ((t.bd k).dest d).since = s.tsc ∧
        ((t.bd k).dest d).limit = t.rd (bdB k) B_MERGE_CTRL_TIMEOUT ∧ ((t.bd k).dest d).ml = (if x.key.mop = 2 then old.ml else []) ∧ WordsBut s t [bdB k + B_MERGE_CTRL_TIMEOUT.off] ∧
        (old.st = .holding → t.regs = s.regs ∧ t.pendMask = s.pendMask))) ∧
    (old.st = .collecting → old.taken.length + 1 < old.key.mcount + 1 →
      GoesOn (.mergeContribution k chan) s (fun t =>
        let m := (if old.key.mop = x.key.mop then 0 else 1) + (if old.key.mcount = x.key.mcount then 0 else 2) +
          (if old.key.resTile = x.key.resTile then 0 else 4) + (if old.key.resAddr = x.key.resAddr then 0 else 8)
        t = { s with bdies := t.bdies, reports := t.reports } ∧ OnlyDest s t k d ∧ (t.bd k).arrived = (s.bd k).arrived.erase x ∧
        (t.bd k).dest d = { old with taken := old.taken ++ [⟨x, decide (m ≠ 0)⟩] } ∧
        t.reports = (if m = 0 then s.reports else s.reports ++ [s.report (bdSrc k) 0x0550 [d, x.chan, m]]) ++ mlGaps s k d old.key.mop x)))

/-- When the last contribution of a SUM arrives (no accumulator of it spoiled, its tile up and reached), the destination becomes RETURNING and its 2,048 data cells, each of sixteen values R[lane][p][j] summed over the contributions in ascending channel order, are written full to RES_TILE from RES_ADDR, and the completion time is that of the merge (log 65 of the model, a DESIGN CHOICE); every other cell, tile, destination and stack stays. MERGE_TIMEOUT on a collecting destination, no claim or ACTA of the stack being held back, completes it with the TIMEOUT flag and reports 0x0552 with what arrived and what was expected; otherwise it changes nothing. The cell index is taken modulo the 65,536 cells of a scratchpad (log 28, a DESIGN CHOICE, which the checked result of a pass instruction never reaches). -/
def Obligations.MergeCompletes : Prop :=
  (∀ (k : Stack) (chan : Fin 32) (s : State) (x : Contribution), (s.bd k).arrived.find? (fun x => decide (x.chan = chan.val)) = some x →
    let d := x.key.mdest
    let old := (s.bd k).dest d
    old.st = .collecting → old.taken.length + 1 = old.key.mcount + 1 → old.key.mop = 0 → x.key = old.key → old.spoiled = [] →
    s.nocCause old.key.resTile = 0 → s.seamHeld (chanDie (32 * k.val)) (tileDie old.key.resTile) = false →
    GoesOn (.mergeContribution k chan) s (fun t =>
      let l := inOrder (old.taken ++ [⟨x, false⟩])
      let cell := fun (i : Nat) => (old.key.resAddr / 64 + i) % 65536
      t = { s with regs := t.regs, bdies := t.bdies, tiles := t.tiles, reports := t.reports } ∧ OnlyDest s t k d ∧
      ((t.bd k).dest d).st = .returning ∧ ((t.bd k).dest d).sent = true ∧ ((t.bd k).dest d).timeout = false ∧ ((t.bd k).dest d).doneAt = s.tsc ∧
      (∀ i < 2048, t.isFull old.key.resTile (cell i) = true ∧
        t.spCell old.key.resTile (cell i) = packCell ((List.range 16).map (fun j => (sumValue l false ((16 * i + j) / 4096) ((16 * i + j) / 64 % 64) ((16 * i + j) % 64)).v))) ∧
      (∀ u, (∀ i < 2048, u ≠ cell i) → t.spCell old.key.resTile u = s.spCell old.key.resTile u) ∧ ∀ u, u ≠ old.key.resTile → t.tile u = s.tile u)) ∧
  (∀ (k : Stack) (d : Fin 16) (s : State), ((s.bd k).dest d).st = .collecting → (∀ i < 32, s.throttled (32 * k.val + i) = false) →
    let old := (s.bd k).dest d
    Goes (.mergeTimeout k d) s (fun t =>
      OnlyDest s t k d ∧ ((t.bd k).dest d).st = .returning ∧ ((t.bd k).dest d).timeout = true ∧ ((t.bd k).dest d).doneAt = s.tsc ∧
      s.reports ++ [s.report (bdSrc k) 0x0552 [d.val, old.taken.length, old.key.mcount + 1]] <+: t.reports ∧
      t = { s with regs := t.regs, bdies := t.bdies, tiles := t.tiles, reports := t.reports })) ∧
  (∀ (k : Stack) (d : Fin 16) (s : State), ((s.bd k).dest d).st ≠ .collecting ∨ (∃ i < 32, s.throttled (32 * k.val + i) = true) →
    exec (.mergeTimeout k d) s = .next s)

/-- STATUS_CELL_WRITE, once every data cell has been delivered, writes the status cell full after the last data cell, counts one result, and leaves the destination FREE after a SUM or the second SMERGE, HOLDING its ML table after an MLSTORE or the first SMERGE. RESULT_RETURN_DROPPED after a refused unit frees the destination and reports 0x0555 from the CC whose bus carried it. Every other cell, tile, destination and stack stays. -/
def Obligations.ResultReturnEnds : Prop :=
  (∀ (k : Stack) (d : Fin 16) (s : State), let x := (s.bd k).dest d
    x.st = .returning → x.sent = true → x.dropAt = none → s.nocCause x.key.resTile = 0 → s.seamHeld (chanDie (32 * k.val)) (tileDie x.key.resTile) = false →
    Goes (.statusCellWrite k d) s (fun t =>
      let cell := (x.key.resAddr / 64 + (if x.key.mop = 0 then 2048 else if x.key.mop = 2 then 33 else 0)) % 65536
      t = { s with regs := t.regs, bdies := t.bdies, tiles := t.tiles, reports := t.reports } ∧ OnlyDest s t k d ∧
      t.spCell x.key.resTile cell = statusCell k d x ∧ t.isFull x.key.resTile cell = true ∧
      (∀ u, u ≠ cell → t.spCell x.key.resTile u = s.spCell x.key.resTile u ∧ t.isFull x.key.resTile u = s.isFull x.key.resTile u) ∧
      (∀ u, u ≠ x.key.resTile → t.tile u = s.tile u) ∧
      t.rd (bdB k) B_MERGE_RESULTS_COUNT = (s.rd (bdB k) B_MERGE_RESULTS_COUNT + 1) % 2 ^ B_MERGE_RESULTS_COUNT.w ∧
      (x.key.mop = 0 → ((t.bd k).dest d).st = .free) ∧
      (x.key.mop = 1 → ((t.bd k).dest d).st = .holding ∧ ((t.bd k).dest d).ml = x.ml ∧ ((t.bd k).dest d).uses = 0) ∧
      (x.key.mop = 2 → x.uses = 0 → ((t.bd k).dest d).st = .holding ∧ ((t.bd k).dest d).ml = x.ml ∧ ((t.bd k).dest d).uses = 1) ∧
      (x.key.mop = 2 → x.uses = 1 → ((t.bd k).dest d).st = .free))) ∧
  (∀ (k : Stack) (d : Fin 16) (s : State) (c : Nat), let x := (s.bd k).dest d
    x.st = .returning → x.dropAt = some c →
    Goes (.resultReturnDropped k d) s (fun t =>
      t = { s with bdies := t.bdies, reports := s.reports ++ [s.report (ccSrc (32 * k.val + c)) 0x0555 [x.key.resTile, ((inOrder x.taken).head?.map (·.con.tag)).getD 0]] } ∧
      OnlyDest s t k d ∧ (t.bd k).dest d = Dest.init))

/-! ### Scratchpads, the NoC and prefetching -/

/-- Every tile but `k` is as before. -/
def Sys2Proof.Machine.OtherTiles (s t : State) (k : Nat) : Prop := ∀ u, u ≠ k → t.tile u = s.tile u

/-- A wrapping counter of a window has counted `n` (R225). -/
def Sys2Proof.Machine.Counted (s t : State) (base : Nat) (f : Fld) (n : Nat) : Prop := t.rd base f = (s.rd base f + n) % 2 ^ f.w

/-- The cell `i` of a tile after a masked write of it. -/
def Sys2Proof.Machine.cellAfter (c : Cell64) (w : WriteData) : Cell64 :=
  ⟨halfAfter c.lo w.data.lo (w.mask.toNat % 2 ^ 32), halfAfter c.hi w.data.hi (w.mask.toNat / 2 ^ 32)⟩

/-- NOC_PACKET_DELIVERY completes for every packet that the seam link does not hold (a held one changes nothing; one to an ID that names no site is never held). A packet to a tile that is up: a read answers the 64 B cell and changes nothing; a write changes exactly the enabled bytes, data and poison together, fills the cell and is acknowledged, with OVERRUN, OVR_CELL and event 0x0302 when the cell was full already. A packet to an unknown, disabled or reset tile, or across partitions, is answered with an error, reported (0x0301; 0x0107 across partitions) and noted by a requesting tile; no scratchpad changes. Every other cell, tile and register stays. -/
def Obligations.NocPacketReadsOrFillsOneCell : Prop :=
  (∀ (p : Packet) (s : State), s.nocHeld (srcDie p.src) p.dest.toNat = true → exec (.nocPacketDelivery p) s = .next s) ∧
  ∀ (p : Packet) (s : State) (off : Nat), off < 2 ^ 22 → s.nocHeld (srcDie p.src) p.dest.toNat = false →
    let d := p.dest.toNat
    let i := off / 64
    (p.body = .read off → s.nocCause d = 0 → s.crossPartition p.src d = false →
      exec (.nocPacketDelivery p) s = .next { s with out := s.out ++ [.nocRead p.src (s.spCell d i)] }) ∧
    (∀ w, p.body = .write off w → s.nocCause d = 0 → s.crossPartition p.src d = false →
      Goes (.nocPacketDelivery p) s (fun t =>
        t = { s with regs := t.regs, tiles := t.tiles, reports := t.reports, out := s.out ++ [.nocAck p.src] } ∧ OtherTiles s t d ∧
        t.tile d = { s.tile d with sp := (t.tile d).sp, spPois := (t.tile d).spPois, full := (t.tile d).full } ∧
        t.spCell d i = cellAfter (s.spCell d i) w ∧ t.isFull d i = true ∧
        (∀ j, j ≠ i → t.spCell d j = s.spCell d j ∧ t.isFull d j = s.isFull d j) ∧
        WordsBut s t [tileB d + TILE_FE_STAT_OVERRUN.off] ∧
        (if s.isFull d i = true then t.flag (tileB d) TILE_FE_STAT_OVERRUN = true ∧ t.rd (tileB d) TILE_FE_STAT_OVR_CELL = i % 2 ^ TILE_FE_STAT_OVR_CELL.w ∧
            t.reports = s.reports ++ [s.report d 0x0302 [i, p.src]]
         else t.regs = s.regs ∧ t.reports = s.reports))) ∧
    (s.nocCause d ≠ 0 →
      let wr := match p.body with | .read _ => false | .write _ _ => true
      Goes (.nocPacketDelivery p) s (fun t =>
        t = { s with regs := t.regs, reports := t.reports, out := s.out ++ [.nocError p.src wr] } ∧
        t.reports = s.reports ++ [s.report (if s.nocCause d = 3 then entrySrc p.src else d) 0x0301 [p.src, d, p.plane, if wr then 1 else 0, s.nocCause d]] ∧
        (if isSite p.src = true then WordsBut s t [tileB p.src + TILE_ERR_FLAGS_NOC_ERR.off, tileB p.src + TILE_NOC_ERRLOG_DEST.off] ∧
            t.flag (tileB p.src) TILE_ERR_FLAGS_NOC_ERR = true ∧ t.rd (tileB p.src) TILE_NOC_ERRLOG_DEST = d ∧ t.flag (tileB p.src) TILE_NOC_ERRLOG_VALID = true
         else t.regs = s.regs))) ∧
    (s.nocCause d = 0 → s.crossPartition p.src d = true →
      let wr := match p.body with | .read _ => false | .write _ _ => true
      Goes (.nocPacketDelivery p) s (fun t =>
        t = { s with regs := t.regs, reports := t.reports, out := s.out ++ [.nocError p.src wr] } ∧
        t.reports = s.reports ++ [s.report d 0x0301 [p.src, d, p.plane, if wr then 1 else 0, 2], s.report d 0x0107 [p.src, 3]] ∧
        t.flag (tileB p.src) TILE_ERR_FLAGS_NOC_ERR = true))

/-- The engines that a full cell grants, of those that watch it in order (with whether each consumes): all through the first that consumes. -/
def Sys2Proof.Machine.grantedOf : List (Nat × Bool) → List Nat
  | [] => []
  | (e, con) :: l => if con then [e] else e :: grantedOf l

/-- `n` grants to requesters of tile `k` were acquires: each is counted, and where there was one the read cache is empty and the prefetch buffer discarded (R206, R209, R211). -/
def Sys2Proof.Machine.Acquired (s u : State) (k n : Nat) : Prop :=
  Counted s u (tileB k) TILE_ACQUIRES_COUNT n ∧
    if n = 0 then (u.tile k).rc = (s.tile k).rc ∧ (u.tile k).pf = (s.tile k).pf
    else
      (u.tile k).rc = [] ∧ (u.tile k).rcKeep = false ∧ (u.tile k).pf = [] ∧ (∀ p ∈ (u.tile k).pfFlight, p.stale = true) ∧
        Counted s u (tileB k) (TILE_PFM_COUNT.at 0x18) (s.tile k).pf.length

/-- What grants on cell `i` of tile `k` leave alone: every byte, the other full/empty bits, the other tiles, and all registers but two counters. -/
def Sys2Proof.Machine.OnlyGrants (s u : State) (k i : Nat) : Prop :=
  u = { s with regs := u.regs, tiles := u.tiles, reports := u.reports } ∧ OtherTiles s u k ∧ (∀ j, u.spCell k j = s.spCell k j) ∧
    (∀ j, j ≠ i → u.isFull k j = s.isFull k j) ∧ WordsBut s u [tileB k + TILE_ACQUIRES_COUNT.off, tileB k + (TILE_PFM_COUNT.at 0x18).off] ∧
    s.reports <+: u.reports ∧ ∀ e ∈ u.reports, e ∈ s.reports ∨ e.code = 0x0303

/-- FE_WATCH_GRANT completes in every state. A tile that is disabled or in reset grants nothing, and neither does an empty cell. On a full cell the watching FEWAITs are granted in the rotating order after the requester that the bank granted last, through the first that consumes: exactly their waits end, the bank's last grant is the last of them, the cell is empty where one consumed it, and each is an acquire (TILE_ACQUIRES_COUNT counts it, the read cache is emptied, the prefetch buffer is discarded and its lines counted UNUSED). A watch of a running VOP or move is granted likewise: it receives the cell, and is an acquire where it is the first of its operation. No scratchpad byte, no other cell, tile or wait changes. What waited in the VXE and the MVE then goes on, which is nothing where neither runs an operation. -/
def Obligations.FullCellGrantsWatches : Prop :=
  (∀ (t : TileId) (cell : BitVec 16) (s : State), s.tileUp t.toNat = false → exec (.feWatchGrant t cell) s = .next s) ∧
  ∀ (t : TileId) (cell : BitVec 16) (s : State), s.tileUp t.toNat = true →
    let k := t.toNat
    let i := cell.toNat
    let last := look bankGrantInit (s.tile k).bankGrant (i % 32)
    let order := (List.range 5).map (fun j => (last + 1 + j) % 5)
    (s.isFull k i = false → exec (.feWatchGrant t cell) s = .next ((s.vopGo k).mveGo k)) ∧
    (s.isFull k i = true → (∀ r, (s.tile k).vrun = some r → watchOn r.watch i = none) → (∀ r, (s.tile k).mrun = some r → watchOn r.watch i = none) →
      let watchers := order.filterMap (fun e => ((s.engine k e).feWatch i).map (fun con => (e, con)))
      let granted := grantedOf watchers
      ∃ u, exec (.feWatchGrant t cell) s = .next ((u.vopGo k).mveGo k) ∧ OnlyGrants s u k i ∧ Acquired s u k granted.length ∧
        (∀ e < 5, (u.engine k e).wait = if e ∈ granted then none else (s.engine k e).wait) ∧ u.isFull k i = !(watchers.any (·.2)) ∧
        look bankGrantInit (u.tile k).bankGrant (i % 32) = granted.getLast?.getD last) ∧
    (s.isFull k i = true → ∀ (r : VRun) (con : Bool), (s.tile k).vrun = some r → watchOn r.watch i = some con →
      (∀ e < 5, e ≠ 1 → s.engineWatch k e i = none) → (con = true ∨ (s.engine k 1).feWatch i = none) →
      ∃ u, exec (.feWatchGrant t cell) s = .next ((u.vopGo k).mveGo k) ∧ OnlyGrants s u k i ∧ Acquired s u k (if r.acquired then 0 else 1) ∧ u.isFull k i = !con ∧
        (u.tile k).vrun = some { r with got := r.got ++ [(i, s.spCell k i)], granted := r.granted + 1, watch := none, acquired := true } ∧
        (∀ e < 5, (u.engine k e).wait = (s.engine k e).wait) ∧ look bankGrantInit (u.tile k).bankGrant (i % 32) = 1) ∧
    (s.isFull k i = true → ∀ (r : MRun) (con : Bool), (s.tile k).mrun = some r → watchOn r.watch i = some con →
      (∀ e < 5, e ≠ 2 → s.engineWatch k e i = none) → (con = true ∨ (s.engine k 2).feWatch i = none) →
      ∃ u, exec (.feWatchGrant t cell) s = .next ((u.vopGo k).mveGo k) ∧ OnlyGrants s u k i ∧ Acquired s u k (if r.acquired then 0 else 1) ∧ u.isFull k i = !con ∧
        (u.tile k).mrun = some { r with got := r.got ++ [(i, .data (s.spCell k i))], granted := r.granted + 1, watch := none, acquired := true } ∧
        (∀ e < 5, (u.engine k e).wait = (s.engine k e).wait) ∧ look bankGrantInit (u.tile k).bankGrant (i % 32) = 2) ∧
    ((s.tile k).vrun = none → (s.tile k).mrun = none → (s.vopGo k).mveGo k = s)

/-- PREFETCH_ISSUE of a line on the traversal path of the executing move, from device memory, host memory or a remote scratchpad, puts it in flight and counts ISSUED when R207 allows it, and counts DROPPED where a condition of R207 fails; PREFETCH_ARRIVE puts the data of the oldest into the buffer, or discards it and counts UNUSED when it cannot be read or has gone stale, without an event but that of a counter wrap. A device line is read at its CC as any read is: where the CC takes the read it is pooled until a slot serves it, and it waits while the CC or the seam link does not take it. Nothing else changes. -/
def Obligations.PrefetchesStaySilent : Prop :=
  (∀ (t : TileId) (line : Nat) (s : State) (j : MoveJob) (d : Nat) (path : List Nat),
    let x := s.tile t.toNat
    x.ahead = some (j, d :: path) → s.tileUp t.toNat = true →
    s.flag (tileB t.toNat) TILE_PF_CTRL_ENABLE = true → j.src.space ≠ 0 →
    let addr := if j.src.space = 2 then (match s.decodeDpa (64 * line) with | .at key => key / 64 * 64 | _ => 2 ^ 41 + 64 * line) else 64 * line
    let tile := if j.src.space = 1 then j.src.tile else 0
    (x.pf ++ x.pfFlight).any (fun p => p.isAt j.src.space tile addr) = false →
    (s.mayPredict j (64 * d) (64 * line) = true → (j.src.space = 3 → s.hostLive (s.tileOwner t.toNat) = true) →
      line ∈ path.take (s.rd (tileB t.toNat) TILE_PF_CTRL_DEPTH) → x.pf.length + x.pfFlight.length < 512 → s.demandWaits t.toNat = false →
      (j.src.space = 2 → s.biasHeld addr = false) → (j.src.space = 3 → s.seamHeld (tileDie t.toNat) 0 = false) →
      Goes (.prefetchIssue t line) s (fun u =>
        u = { s with regs := u.regs, tiles := u.tiles, reports := u.reports, host := u.host, out := u.out } ∧ OtherTiles s u t.toNat ∧
        (j.src.space ≠ 3 → u.host = s.host ∧ u.out = s.out) ∧
        u.tile t.toNat = { x with pfFlight := x.pfFlight ++ [⟨j.src.space, tile, addr, (none, none), false⟩], dldDone := false } ∧
        Counted s u (tileB t.toNat) TILE_PFM_COUNT 1 ∧ WordsBut s u [tileB t.toNat + TILE_PFM_COUNT.off])) ∧
    (s.mayPredict j (64 * d) (64 * line) = false →
      Goes (.prefetchIssue t line) s (fun u =>
        u = { s with regs := u.regs, reports := u.reports } ∧
        Counted s u (tileB t.toNat) (TILE_PFM_COUNT.at 0x20) 1 ∧ WordsBut s u [tileB t.toNat + (TILE_PFM_COUNT.at 0x20).off]))) ∧
  (∀ (t : TileId) (s : State) (p : PfLine), (s.tile t.toNat).pfFlight.find? (fun p => decide (p.space ≠ 3)) = some p →
    (p.space ≠ 2 → s.nocHeld (tileDie t.toNat) p.tile = false → s.prefetchReach t.toNat p = (some (s.prefetchData t.toNat p), s)) ∧
    (∀ r, s.prefetchReach t.toNat p = (none, r) → exec (.prefetchArrive t) s = .next r ∧ (p.space ≠ 2 → r = s) ∧
      let key := p.addr / 64 * 64
      (p.space = 2 → s.prefetchLost t.toNat p = false → (s.cc (keyChan key)).reading (.prefetch t.toNat) key = false → s.mayTake ⟨.tile, t.toNat⟩ key = true →
        ∃ q ∈ (r.cc (keyChan key)).pool, q.who = ⟨.tile, t.toNat⟩ ∧ q.key = key ∧ q.write = none ∧ q.ans = .card (.prefetch t.toNat))) ∧
    ∀ d r, s.prefetchReach t.toNat p = (some d, r) →
      let x := r.tile t.toNat
      (∀ v, d = some v → p.stale = false →
        Goes (.prefetchArrive t) s (fun u =>
          u = { r with tiles := u.tiles } ∧ OtherTiles r u t.toNat ∧
          u.tile t.toNat = { x with pfFlight := x.pfFlight.erase p, pf := x.pf ++ [{ p with data := v }] })) ∧
      (d = none ∨ p.stale = true →
        Goes (.prefetchArrive t) s (fun u =>
          u = { r with regs := u.regs, tiles := u.tiles, reports := u.reports } ∧ OtherTiles r u t.toNat ∧
          u.tile t.toNat = { x with pfFlight := x.pfFlight.erase p } ∧ (∀ e, e ∈ u.reports → e ∈ r.reports ∨ e.code = 0x0303) ∧
          Counted r u (tileB t.toNat) (TILE_PFM_COUNT.at 0x18) 1 ∧ WordsBut r u [tileB t.toNat + (TILE_PFM_COUNT.at 0x18).off])))

/-! ### Instruction streams -/

/-- STREAM_RECORD gives the oldest record on its way to a running tile with a free slot the next serial number; STREAM_FETCH_REQUEST, while the function that owns the record's ring may read, the limits allow a request and the seam link carries it, asks for the next line of the queued records (with prefetching off only for the line that the Tadpole waits for), or predicts the next line of the same 4 KiB page after the last record, by a read of 64 B that leaves the card with that function's ID and a free tag; STREAM_LINE_RETURN, for whichever request has the tag, stores a clean line, marks one with poison unreadable without a fault, records an error of a line as a completion error, and discards a failed prediction without a report. Nothing else of the tile, and no other tile, changes. -/
def Obligations.StreamRecordsAndLines : Prop :=
  (∀ (t : TileId) (s : State) (q : Nat × SRec), s.recsOut.find? (fun r => decide (r.1 = t.toNat)) = some q → s.tileUp t.toNat = true →
    let x := s.tile t.toNat
    x.recs.length < 8 →
    Goes (.streamRecord t) s (fun u =>
      let y := u.tile t.toNat
      u = { s with regs := u.regs, pendMask := u.pendMask, tiles := u.tiles, recsOut := s.recsOut.eraseP (fun r => decide (r.1 = t.toNat)), reports := u.reports } ∧
      OtherTiles s u t.toNat ∧ y.recs = x.recs ++ [{ q.2 with serial := x.serial + 1 }] ∧ y.serial = x.serial + 1 ∧ y.preds = [] ∧ x.lines <+: y.lines ∧
      y = { x with recs := y.recs, serial := y.serial, preds := [], lines := y.lines, reqs := y.reqs } ∧
      (x.preds = [] → y.lines = x.lines ∧ y.reqs = x.reqs))) ∧
  (∀ (t : TileId) (s : State) (r : SRec) (i : Nat), let x := s.tile t.toNat
    s.tileUp t.toNat = true → x.lineFree = true → s.hostLive (s.ringOwner r.ring) = true → s.host.waiting = [] → s.mayRead 1 = true → s.seamHeld (tileDie t.toNat) 0 = false →
    x.nextRequest = some (r, i) →
    let y : Tile := { x with lines := x.lines ++ [⟨r.serial, i, none, false⟩], reqs := x.reqs ++ [⟨s.freeTag, s.ringOwner r.ring, .line r.serial i⟩], dldDone := false }
    let sent := s.out ++ [.hostRead (s.ringOwner r.ring) s.freeTag (r.haddr + 64 * i) 64]
    (s.flag (tileB t.toNat) TILE_SF_CTRL_ENABLE = true → x.outstanding < s.rd (tileB t.toNat) TILE_SF_CTRL_DEPTH →
      Goes (.streamFetchRequest t) s (fun u =>
        u = { s with regs := u.regs, tiles := u.tiles, reports := u.reports, out := sent } ∧ OtherTiles s u t.toNat ∧ u.tile t.toNat = y ∧
        Counted s u (tileB t.toNat) TILE_PFS_COUNT 1 ∧ WordsBut s u [tileB t.toNat + TILE_PFS_COUNT.off])) ∧
    (s.flag (tileB t.toNat) TILE_SF_CTRL_ENABLE = false → x.needsLine ≠ none → x.outstanding = 0 →
      Goes (.streamFetchRequest t) s (fun u => u = { s with tiles := u.tiles, out := sent } ∧ OtherTiles s u t.toNat ∧ u.tile t.toNat = y))) ∧
  (∀ (t : TileId) (s : State) (r : SRec), let x := s.tile t.toNat
    let final := r.haddr + 64 * (r.lineCount - 1)
    let a := final + 64 * (x.preds.length + 1)
    s.tileUp t.toNat = true → x.lineFree = true → s.hostLive (s.ringOwner r.ring) = true → s.host.waiting = [] → s.mayRead 1 = true → s.seamHeld (tileDie t.toNat) 0 = false →
    x.nextRequest = none → x.recs.getLast? = some r → s.flag (tileB t.toNat) TILE_SF_CTRL_ENABLE = true → s.flag (tileB t.toNat) TILE_SF_CTRL_SPEC = true →
    x.outstanding < s.rd (tileB t.toNat) TILE_SF_CTRL_DEPTH → a / 4096 = final / 4096 →
    Goes (.streamFetchRequest t) s (fun u =>
      u = { s with regs := u.regs, tiles := u.tiles, reports := u.reports, out := s.out ++ [.hostRead (s.ringOwner r.ring) s.freeTag a 64] } ∧ OtherTiles s u t.toNat ∧
      u.tile t.toNat = { x with preds := x.preds ++ [⟨a, none, false⟩], reqs := x.reqs ++ [⟨s.freeTag, s.ringOwner r.ring, .pred a⟩], dldDone := false })) ∧
  (∀ (t : TileId) (s : State) (tag : Nat) (q : SRead) (data : Cell64), let x := s.tile t.toNat
    let rest := x.reqs.eraseP (fun r => decide (r.tag = tag))
    x.reqOf tag = some q → s.host.waiting = [] →
    (∀ st i, q.what = .line st i →
      Goes (.streamLineReturn t ⟨tag, 0⟩ data) s (fun u =>
        u = { s with tiles := u.tiles } ∧ OtherTiles s u t.toNat ∧
        u.tile t.toNat = { x with reqs := rest, lines := x.lines.map (fun l => if l.stream = st ∧ l.idx = i then
          { l with data := some (if data.lo.isSome ∧ data.hi.isSome then some data else none) } else l) }) ∧
      ∀ status, 1 ≤ status → status ≤ 3 → Goes (.streamLineReturn t ⟨tag, status⟩ data) s (fun u =>
        u = { s with regs := u.regs, tiles := u.tiles, reports := s.reports ++ [s.report hostSrc 0x0106 [q.fn, status]] } ∧ OtherTiles s u t.toNat ∧
        u.flag hostB HOST_ERR_FLAGS_CPL_ERR = true ∧ WordsBut s u [hostB + HOST_ERR_FLAGS_CPL_ERR.off] ∧
        u.tile t.toNat = { x with reqs := rest, lines := x.lines.map (fun l => if l.stream = st ∧ l.idx = i then { l with data := some none } else l) })) ∧
    (∀ a status, q.what = .pred a → status ≠ 0 →
      Goes (.streamLineReturn t ⟨tag, status⟩ data) s (fun u =>
        u = { s with regs := u.regs, tiles := u.tiles, reports := u.reports } ∧ OtherTiles s u t.toNat ∧ (∀ e, e ∈ u.reports → e ∈ s.reports ∨ e.code = 0x0303) ∧
        u.tile t.toNat = { x with reqs := rest, preds := x.preds.map (fun p => if p.addr = a then { p with lost := true } else p) } ∧
        Counted s u (tileB t.toNat) (TILE_PFS_COUNT.at 0x18) 1 ∧ WordsBut s u [tileB t.toNat + (TILE_PFS_COUNT.at 0x18).off])))

/-- BUNDLE_SPLIT of a whole bundle with room in every queue it writes: each engine's queue takes the barrier token, when its mask names the engine, and then the engine's operation, once each; the position moves to the end of the bundle, or to 0 with the record marked split at its end; lines wholly read are freed; BUNDLES counts one; nothing else of the tile, and no other tile, changes. -/
def Obligations.BundleSplitFillsQueues : Prop :=
  ∀ (t : TileId) (s : State) (r : SRec) (mask fin : Nat) (barrier : Bool) (ops : List (Nat × OpWord)), let x := s.tile t.toNat
    x.current = some r → s.maySplit t.toNat = true → x.parse r = .bundle mask barrier ops fin →
    (∀ e < 4, (x.eng e).queue.length + (if barrier && bit mask e then 1 else 0) + (if ops.any (fun o => decide (o.1 = e)) then 1 else 0) ≤ 512) →
    (∀ e < 4, (x.eng e).skip = 0) →
    Goes (.bundleSplit t []) s (fun u =>
      let y := u.tile t.toNat
      u = { s with regs := u.regs, pendMask := u.pendMask, tiles := u.tiles, reports := u.reports } ∧ OtherTiles s u t.toNat ∧
      (∀ e < 4, y.eng e = { x.eng e with queue := (x.eng e).queue ++ (if barrier && bit mask e then [.token (x.tokens + 1) mask r.serial x.pos] else []) ++
        (match ops.find? (fun o => decide (o.1 = e)) with | some o => [.op o.2 r.serial x.pos false] | none => []) }) ∧
      y.pos = (if r.len ≤ fin then 0 else fin) ∧ y.tokens = (if barrier then x.tokens + 1 else x.tokens) ∧
      y.recs = (if r.len ≤ fin then x.recs.map (fun q => if q.serial = r.serial then { q with split := true } else q) else x.recs) ∧
      y.lines = x.lines.filter (fun l => !(decide (l.stream = r.serial) && (decide (r.len ≤ fin) || decide (l.idx < fin / 64)))) ∧
      Counted s u (tileB t.toNat) TILE_BUNDLES_COUNT 1 ∧
      y = { x with engs := y.engs, inUse := y.inUse, pos := y.pos, tokens := y.tokens, recs := y.recs, lines := y.lines, dldDone := false })

/-- IMLD, once no engine uses the page and the payload is there, writes the payload's words into the named lines of the page and no other word; IMLD_HOLD_LIMIT reports a held load once (0x0321); QUEUE_BARRIER, once every engine of the mask stands at its token with its earlier operations complete, takes the tokens off and acts as one acquire for each; STREAM_COMPLETE frees the slot of a wholly split stream with no operation left and completes its descriptor with status OK. Nothing else of the tile, and no other tile, changes. -/
def Obligations.InstructionMemoryLoads : Prop :=
  (∀ (t : TileId) (s : State) (l : Load) (r : SRec) (v : Nat), let x := s.tile t.toNat
    x.load = some l → x.current = some r → s.tileUp t.toNat = true → s.faulted t.toNat = false → x.halted = false → look noCount x.inUse l.page = 0 →
    x.readWords r.serial l.fromPos (16 * (l.lines + 1)) = .inr v →
    Goes (.imld t) s (fun u =>
      let y := u.tile t.toNat
      let at_ := l.page * 512 + l.first * 8
      let n := 8 * (l.lines + 1)
      u = { s with regs := u.regs, pendMask := u.pendMask, tiles := u.tiles, reports := u.reports } ∧ OtherTiles s u t.toNat ∧ y.load = none ∧
      (∀ j < n, y.imemWord (8 * (at_ + j)) = BitVec.ofNat 64 (v / 2 ^ (64 * j)) ∧ look noMark y.imemBad (at_ + j) = false) ∧
      (∀ w, w < at_ ∨ at_ + n ≤ w → y.imemWord (8 * w) = x.imemWord (8 * w)) ∧
      y = { x with imem := y.imem, imemBad := y.imemBad, load := none, pos := y.pos, lines := y.lines, recs := y.recs, dldDone := false })) ∧
  (∀ (t : TileId) (s : State) (l : Load), let x := s.tile t.toNat
    x.load = some l → look noCount x.inUse l.page ≠ 0 → l.told = false → s.rd (tileB t.toNat) TILE_IMEM_CTRL_HOLD_LIMIT ≠ 0 →
    Goes (.imldHoldLimit t) s (fun u =>
      u = { s with tiles := u.tiles, reports := s.reports ++ [s.report t.toNat 0x0321 [l.page, look noCount x.inUse l.page]] } ∧ OtherTiles s u t.toNat ∧
      u.tile t.toNat = { x with load := some { l with told := true } })) ∧
  (∀ (t : TileId) (s : State) (e0 id mask : Nat), e0 < 4 → s.tileUp t.toNat = true → s.faulted t.toNat = false → (s.tile t.toNat).halted = false →
    (s.engine t.toNat e0).atToken = some (id, mask) → s.barrierMet t.toNat id mask = true →
    (∀ e < 4, ∀ i m, (s.engine t.toNat e).atToken = some (i, m) → s.barrierMet t.toNat i m = true → m = mask) →
    Goes (.queueBarrier t) s (fun u =>
      let x := s.tile t.toNat
      let y := u.tile t.toNat
      u = { s with regs := u.regs, tiles := u.tiles, reports := u.reports } ∧ OtherTiles s u t.toNat ∧
      (∀ e < 4, y.eng e = if bit mask e then { x.eng e with queue := (x.eng e).queue.drop 1 } else x.eng e) ∧
      (bit mask e0 = true → y.rc = [] ∧ y.pf = []) ∧
      y = { x with engs := y.engs, rc := y.rc, rcKeep := y.rcKeep, pf := y.pf, pfFlight := y.pfFlight, dldDone := y.dldDone } ∧
      Counted s u (tileB t.toNat) TILE_ACQUIRES_COUNT ((List.range 4).filter (bit mask)).length)) ∧
  (∀ (t : TileId) (s : State) (r : SRec) (rest : List SRec), let x := s.tile t.toNat
    x.recs = r :: rest → s.tileUp t.toNat = true → r.split = true → x.holds r.serial = false →
    (s.faulted t.toNat = true → s.rd (tileB t.toNat) TILE_FAULT_STREAM_ID ≠ r.ident) →
    Goes (.streamComplete t) s (fun u =>
      u = { s with tiles := u.tiles, rings := u.rings } ∧ OtherTiles s u t.toNat ∧ u.tile t.toNat = { x with recs := rest } ∧
      (∀ n, n ≠ r.ring → u.ring n = s.ring n) ∧
      u.ring r.ring = if (s.ring r.ring).live.any (fun l => decide (l.count = r.count) && l.done.isNone) then
          { s.ring r.ring with live := (s.ring r.ring).live.map (fun l => if l.count = r.count then { l with done := some ⟨0, 0, s.tsc⟩ } else l) }
        else s.ring r.ring))

/-! ### Engine operations -/

/-- `w` is the next operation of the engine, which may issue; `x` is the tile once the operations that a loop count of 0 skips are past (R246, R247, R263). -/
def Sys2Proof.Machine.Issues (s : State) (t : Nat) (e : Nat) (w : OpWord) (x : Tile) (loc : Loc) : Prop :=
  s.canIssue t e = true ∧ ((s.tile t).present e w).skipOps (((s.tile t).present e w).eng e).skip e = (x, none) ∧ x.next e = .op w loc false

/-- A tile whose engine has become `g` by its operation: loop bodies that end with it are repeated or closed (R247, R254). -/
def Sys2Proof.Machine.Ended (y : Tile) (e : Nat) (g : Engine) : Tile :=
  { (y.setEngine e g.close.1).retireCalls g.close.2 with dldDone := false }

/-- One operation of engine `e` has issued: it is counted, tile `t` has become `y`, and beside the words `l` nothing else changes. -/
def Sys2Proof.Machine.OneOp (s u : State) (t e : Nat) (y : Tile) (l : List Nat) : Prop :=
  u = { s with regs := u.regs, tiles := u.tiles, reports := u.reports } ∧ OtherTiles s u t ∧ u.tile t = y ∧
    Counted s u (tileB t) (TILE_OPS_COUNT.at (8 * e)) 1 ∧ WordsBut s u ((tileB t + (TILE_OPS_COUNT.at (8 * e)).off) :: l) ∧ s.reports <+: u.reports

/-- Tile fault `cause` of engine `e` is recorded at `loc` (R263): the registers, the event, the halt of the rings that feed the tile; no scratchpad and no device storage changes. -/
def Sys2Proof.Machine.Faulted (s u : State) (t e cause : Nat) (loc : Loc) : Prop :=
  let pc := if loc.depth = 0 then 0 else loc.pc
  u.faulted t = true ∧ u.rd (tileB t) TILE_FAULT_CAUSE = cause ∧ u.rd (tileB t) TILE_FAULT_ENGINE = e ∧
    u.rd (tileB t) TILE_FAULT_LOC_STREAM_OFF = loc.off % 2 ^ TILE_FAULT_LOC_STREAM_OFF.w ∧ u.rd (tileB t) TILE_FAULT_LOC_PC = pc % 2 ^ TILE_FAULT_LOC_PC.w ∧
    s.report t 0x0320 [cause, e, loc.depth, loc.off, pc] ∈ u.reports ∧ s.reports <+: u.reports ∧
    (∀ n < 64, n ∈ s.tileRings t → u.isRunning n = false) ∧ u.mem = s.mem ∧ ∀ k, (u.tile k).spad = (s.tile k).spad

/-- An address operation: with opcode `code`, its listed fields and its extension word or none, it sets Ad to `v` of the registers, the word and the extension, modulo 2^41. -/
def Sys2Proof.Machine.SetsAd (cmd : TileId → EngId → OpWord → Instr) (code : Nat) (ok : Nat → Nat → Bool) (ext : Bool) (v : (Nat → Nat) → Nat → Nat → Int) : Prop :=
  ∀ (t : TileId) (e : EngId) (w : OpWord) (s : State) (x : Tile) (loc : Loc), Issues s t.toNat e w x loc →
    let op := w.op.toNat
    let a := (w.ext.getD 0).toNat
    op % 256 = code → ok op a = true → w.ext.isSome = ext →
    Goes (cmd t e w) s (fun u =>
      let y := x.consume e
      OneOp s u t.toNat e (Ended y e ((y.eng e).setA (bitsOf op 8 4) (wrapTo 41 (v (x.eng e).areg op a)))) [])

/-- NOP, SETA, SETAX, ADDA, SUBA, ADDI, SHLA, SHRA and MULA, as the next operation of any engine of a tile that may issue, with no reserved bit set: the operation is taken, one issue slot passes, Ad takes the value of Table 8-2 modulo 2^41 (NOP none), loop bodies that end there repeat or close, and the engine's operation counter counts one. LDA: with an offset that is a multiple of 8 and at most 0x3F_FFF8, the register takes the 8 B there modulo 2^41 once no earlier operation of the engine may still write them (until then nothing changes); another offset faults with ADDR (12), poison with CTL_POISON (32). FENCE: with REL it stays until the engine's earlier writes are complete; with ACQ the read cache and the prefetch buffer empty, prefetches in flight go stale, and the acquire is counted. No other register, engine, tile, memory byte or special register changes. -/
def Obligations.AddressLoadAndFenceOperationsAct : Prop :=
  (∀ (t : TileId) (e : EngId) (w : OpWord) (s : State) (x : Tile) (loc : Loc), Issues s t.toNat e w x loc → w.op = 0 → w.ext = none →
    Goes (.nop t e w) s (fun u => OneOp s u t.toNat e (Ended (x.consume e) e ((x.consume e).eng e)) [])) ∧
  SetsAd .seta 0x01 (fun op _ => onlyBits op [(0, 12), (32, 32)]) false (fun _ op _ => signed 32 (bitsOf op 32 32)) ∧
  SetsAd .setax 0x02 (fun op a => onlyBits op [(0, 12)] && decide (a < 2 ^ 41)) true (fun _ _ a => a) ∧
  SetsAd .adda 0x03 (fun op _ => onlyBits op [(0, 20)]) false (fun r op _ => (r (bitsOf op 12 4) : Int) + r (bitsOf op 16 4)) ∧
  SetsAd .suba 0x04 (fun op _ => onlyBits op [(0, 20)]) false (fun r op _ => (r (bitsOf op 12 4) : Int) - r (bitsOf op 16 4)) ∧
  SetsAd .addi 0x05 (fun op _ => onlyBits op [(0, 16), (32, 32)]) false (fun r op _ => (r (bitsOf op 12 4) : Int) + signed 32 (bitsOf op 32 32)) ∧
  SetsAd .shla 0x06 (fun op _ => onlyBits op [(0, 16), (20, 6)] && decide (bitsOf op 20 6 ≤ 40)) false
    (fun r op _ => (r (bitsOf op 12 4) : Int) * (2 ^ bitsOf op 20 6 : Nat)) ∧
  SetsAd .shra 0x07 (fun op _ => onlyBits op [(0, 16), (20, 6)] && decide (bitsOf op 20 6 ≤ 40)) false
    (fun r op _ => ((r (bitsOf op 12 4) / 2 ^ bitsOf op 20 6 : Nat) : Int)) ∧
  SetsAd .mula 0x08 (fun op _ => onlyBits op [(0, 16), (32, 16)]) false (fun r op _ => (r (bitsOf op 12 4) : Int) * (bitsOf op 32 16 : Nat)) ∧
  (∀ (t : TileId) (e : EngId) (w : OpWord) (s : State) (x : Tile) (loc : Loc), Issues s t.toNat e w x loc →
    w.op.toNat % 256 = 0x09 → onlyBits w.op.toNat [(0, 16), (32, 32)] = true → w.ext = none →
    let a := wrapTo 41 (((x.eng e).areg (bitsOf w.op.toNat 12 4) : Int) + signed 32 (bitsOf w.op.toNat 32 32))
    let y := x.consume e
    (a % 8 ≠ 0 ∨ 0x3FFFF8 < a → Goes (.lda t e w) s (fun u => Faulted s u t.toNat e 12 loc)) ∧
    (a % 8 = 0 → a ≤ 0x3FFFF8 → s.mayWrite t.toNat e a 8 = false →
      (∀ v, s.spWord t.toNat a = some v → Goes (.lda t e w) s (fun u => OneOp s u t.toNat e (Ended (y.bankUse e [a / 64]) e (((y.bankUse e [a / 64]).eng e).setA (bitsOf w.op.toNat 8 4) v)) [])) ∧
      (s.spWord t.toNat a = none → Goes (.lda t e w) s (fun u => Faulted s u t.toNat e 32 loc))) ∧
    (a % 8 = 0 → a ≤ 0x3FFFF8 → s.mayWrite t.toNat e a 8 = true → exec (.lda t e w) s = .next s)) ∧
  (∀ (t : TileId) (e : EngId) (w : OpWord) (s : State) (x : Tile) (loc : Loc), Issues s t.toNat e w x loc →
    w.op.toNat % 256 = 0x0D → onlyBits w.op.toNat [(0, 10)] = true → bitsOf w.op.toNat 8 2 ≠ 0 → w.ext = none →
    let y := x.consume e
    (bit w.op.toNat 8 = true → s.released t.toNat e = false → exec (.fence t e w) s = .next s) ∧
    (bit w.op.toNat 8 = false ∨ s.released t.toNat e = true →
      (bit w.op.toNat 9 = false → Goes (.fence t e w) s (fun u => OneOp s u t.toNat e (Ended y e (y.eng e)) [])) ∧
      (bit w.op.toNat 9 = true → Goes (.fence t e w) s (fun u =>
        let z : Tile := { y with rc := [], rcKeep := false, pf := [], pfFlight := y.pfFlight.map (fun p => { p with stale := true }) }
        OneOp s u t.toNat e (Ended z e (z.eng e)) [tileB t.toNat + TILE_ACQUIRES_COUNT.off, tileB t.toNat + (TILE_PFM_COUNT.at 0x18).off] ∧
        Counted s u (tileB t.toNat) TILE_ACQUIRES_COUNT 1 ∧ Counted s u (tileB t.toNat) (TILE_PFM_COUNT.at 0x18) (s.tile t.toNat).pf.length))))

/-- LOOP: outermost in stream mode it opens the loop on counter k over the next n operations, kept in the loop buffer, or with count 0 skips those already queued and the rest as they arrive; in a routine it opens the body from the next address, or goes past it. A counter already open is LOOP_CNT (7), a stream-mode body over 64 operations LOOP_LEN (6). CALL goes to its target at depth 1, or at depth 2 within the page of its caller; another page is CALL_TARGET (9), a third level CALL_DEPTH (8). RET pops a frame, and a CALL outside a body then retires; RET at depth 0 or within an open loop of its depth is RET (10). Only the engine and page counts change. -/
def Obligations.LoopsAndCallsSteerTheEngine : Prop :=
  (∀ (t : TileId) (e : EngId) (w : OpWord) (s : State) (x : Tile) (loc : Loc), Issues s t.toNat e w x loc →
    let op := w.op.toNat
    op % 256 = 0x0A → onlyBits op [(0, 11), (12, 16), (32, 32)] = true → bitsOf op 16 12 ≠ 0 → w.ext = none →
    let k := bitsOf op 8 2
    let n := bitsOf op 16 12
    let count := if bit op 10 then (x.eng e).areg (bitsOf op 12 4) % 2 ^ 32 else bitsOf op 32 32
    let y := x.consume e
    let g := y.eng e
    ((∃ l ∈ g.loops, l.k = k) → Goes (.loop t e w) s (fun u => Faulted s u t.toNat e 7 loc)) ∧
    ((∀ l ∈ g.loops, l.k ≠ k) → g.frames = [] → g.loops = [] → 64 < n → Goes (.loop t e w) s (fun u => Faulted s u t.toNat e 6 loc)) ∧
    (g.frames = [] → g.loops = [] → n ≤ 64 →
      let h : Engine := { g with bodyOf := (loc.stream, loc.off), buf := [], ip := 0 }
      (count ≠ 0 → Goes (.loop t e w) s (fun u => OneOp s u t.toNat e (Ended y e { h with loops := [⟨k, count, 0, 0, n⟩] }) [])) ∧
      (count = 0 → ∀ z, (Ended y e { h with skip := n }).skipOps n e = (z, none) → Goes (.loop t e w) s (fun u => OneOp s u t.toNat e z []))) ∧
    (∀ f r, g.frames = f :: r → g.skip = 0 → (∀ l ∈ g.loops, l.k ≠ k) →
      let fin := y.scan e n f.pc
      fin ≤ (f.page + 1) * 4096 → (∀ l ∈ g.loops.head?, l.depth = g.frames.length → fin ≤ l.fin) →
      Goes (.loop t e w) s (fun u => OneOp s u t.toNat e (Ended y e (if count = 0 then { g with frames := { f with pc := fin } :: r }
        else { g with loops := ⟨k, count, g.frames.length, f.pc, fin⟩ :: g.loops })) []))) ∧
  (∀ (t : TileId) (e : EngId) (w : OpWord) (s : State) (x : Tile) (loc : Loc), Issues s t.toNat e w x loc →
    let op := w.op.toNat
    op % 256 = 0x0B → onlyBits op [(0, 8), (35, 15)] = true → w.ext = none →
    let target := bitsOf op 32 18
    let y := x.consume e
    let g := y.eng e
    (g.frames = [] → Goes (.call t e w) s (fun u =>
      OneOp s u t.toNat e (Ended y e { g with frames := [⟨target / 4096, target⟩], root := (loc.stream, loc.off) }) [])) ∧
    (∀ f, g.frames = [f] → target / 4096 = f.page → Goes (.call t e w) s (fun u => OneOp s u t.toNat e (Ended y e { g with frames := [⟨f.page, target⟩, f] }) [])) ∧
    (∀ f, g.frames = [f] → target / 4096 ≠ f.page → Goes (.call t e w) s (fun u => Faulted s u t.toNat e 9 loc)) ∧
    (2 ≤ g.frames.length → Goes (.call t e w) s (fun u => Faulted s u t.toNat e 8 loc))) ∧
  (∀ (t : TileId) (e : EngId) (w : OpWord) (s : State) (x : Tile) (loc : Loc), Issues s t.toNat e w x loc → w.op.toNat = 0x0C → w.ext = none →
    let y := x.consume e
    let g := y.eng e
    (g.frames = [] ∨ (∃ l ∈ g.loops, l.depth = g.frames.length) → Goes (.ret t e w) s (fun u => Faulted s u t.toNat e 10 loc)) ∧
    (∀ f r, g.frames = f :: r → (∀ l ∈ g.loops, l.depth ≠ g.frames.length) →
      Goes (.ret t e w) s (fun u =>
        OneOp s u t.toNat e (Ended (if r = [] ∧ g.loops = [] then y.retireCalls [f.page] else y) e { g with frames := r }) [])))

/-- A reserved opcode as the next operation of an engine, a NOP with another bit set, a SETAX without its extension word or with bits [63:41] of it set, and a FENCE with neither bit are tile faults with cause OP_ILLEGAL (5): the fault registers name the cause, engine and place, event 0x0320 is raised, the rings that feed the tile halt, and no scratchpad byte and no device storage changes. None of these operations, and no PASS, changes anything while its engine may not issue. PASS of the BKE reads the 64 B template at its address register, replaces the row (bits 140:128), the operand address (213:192) and the result address (297:276) by registers where their flags say so, and sends it to the CC that the word or a register names, once that CC has a place for it (until then nothing changes); the scratchpad and everything else stays. A misaligned template is ADDR (12), a CC above 383 its fault 13, poison CTL_POISON (32); where several hold, the first of them in the order of log 32 of the model is the cause. -/
def Obligations.IllegalOperationFaultsAndPassSends : Prop :=
  (∀ (t : TileId) (e : EngId) (w : OpWord) (s : State) (x : Tile) (loc : Loc), Issues s t.toNat e w x loc → needsExt e (w.op.toNat % 256) = none →
    ∀ cmd : TileId → EngId → OpWord → Instr, cmd ∈ [Instr.nop, Instr.seta, Instr.setax, Instr.adda, Instr.suba, Instr.addi, Instr.shla, Instr.shra, Instr.mula, Instr.lda,
        Instr.loop, Instr.call, Instr.ret, Instr.fence, Instr.semsig, Instr.semwait, Instr.scupd, Instr.scwait, Instr.fewait] →
      ∃ u, exec (cmd t e w) s = .next u ∧ Faulted s u t.toNat e 5 loc) ∧
  (∀ (t : TileId) (e : EngId) (w : OpWord) (s : State) (x : Tile) (loc : Loc), Issues s t.toNat e w x loc →
    (w.op.toNat % 256 = 0 → w.op ≠ 0 ∨ w.ext ≠ none → ∃ u, exec (.nop t e w) s = .next u ∧ Faulted s u t.toNat e 5 loc) ∧
    (w.op.toNat % 256 = 2 → w.ext = none ∨ 2 ^ 41 ≤ (w.ext.getD 0).toNat → ∃ u, exec (.setax t e w) s = .next u ∧ Faulted s u t.toNat e 5 loc) ∧
    (w.op.toNat % 256 = 0x0D → bitsOf w.op.toNat 8 2 = 0 → ∃ u, exec (.fence t e w) s = .next u ∧ Faulted s u t.toNat e 5 loc)) ∧
  (∀ (t : TileId) (e : EngId) (w : OpWord) (s : State), s.canIssue t.toNat e = false →
    ∀ cmd : TileId → EngId → OpWord → Instr, cmd ∈ [Instr.nop, Instr.seta, Instr.setax, Instr.adda, Instr.suba, Instr.addi, Instr.shla, Instr.shra, Instr.mula, Instr.lda,
        Instr.loop, Instr.call, Instr.ret, Instr.fence, Instr.semsig, Instr.semwait, Instr.scupd, Instr.scwait, Instr.fewait] →
      exec (cmd t e w) s = .next s) ∧
  (∀ (t : TileId) (w : OpWord) (s : State), s.canIssue t.toNat 3 = false → exec (.pass t w) s = .next s) ∧
  (∀ (t : TileId) (w : OpWord) (s : State) (x : Tile) (loc : Loc), Issues s t.toNat 3 w x loc →
    let op := w.op.toNat
    op % 256 = 0x30 → op < 2 ^ 41 → w.ext = none →
    let r := fun (lo : Nat) => (x.eng 3).areg (bitsOf op lo 4)
    let off := r 8 % 2 ^ 22
    let target := if bit op 27 then r 28 % 2 ^ 9 else bitsOf op 32 9
    (off % 64 ≠ 0 → Goes (.pass t w) s (fun u => Faulted s u t.toNat 3 12 loc)) ∧
    (off % 64 = 0 → 383 < target → Goes (.pass t w) s (fun u => Faulted s u t.toNat 3 13 loc)) ∧
    (off % 64 = 0 → target ≤ 383 → s.passFull target = false → (s.spCell t.toNat (off / 64)).clean = none → Goes (.pass t w) s (fun u => Faulted s u t.toNat 3 32 loc)) ∧
    (off % 64 = 0 → target ≤ 383 → s.passFull target = true → exec (.pass t w) s = .next s) ∧
    (∀ v, off % 64 = 0 → target ≤ 383 → s.passFull target = false → (s.spCell t.toNat (off / 64)).clean = some v →
      Goes (.pass t w) s (fun u =>
        ∃ p, u.flight = s.flight ++ [(target, ⟨t.toNat, BitVec.ofNat 512 p⟩)] ∧
        (∀ i < 512, bit p i =
          if bit op 24 = true ∧ 128 ≤ i ∧ i < 141 then bit (r 12) (i - 128)
          else if bit op 25 = true ∧ 192 ≤ i ∧ i < 214 then bit (r 16) (i - 192)
          else if bit op 26 = true ∧ 276 ≤ i ∧ i < 298 then bit (r 20) (i - 276)
          else bit v i) ∧
        OneOp { s with flight := u.flight } u t.toNat 3 (Ended ((x.consume 3).bankUse 3 [off / 64]) 3 ((x.consume 3).eng 3)) [])))

/-! ### Engines -/

/-- Hazard-check mode of engine `e` finds the last writer closer than `d` slots (R262). -/
def Sys2Proof.Machine.TooClose (s : State) (t e : Nat) (last : Option Nat) (slot d : Nat) : Bool :=
  bit (s.rd (tileB t) TILE_HAZ_CTRL_ENABLE) e && (match last with | some w => decide (slot < w + d) | none => false)

/-- A cell after the masked writes of it in a list, in order. -/
def Sys2Proof.Machine.cellWritten (l : List (Nat × WriteData)) (i : Nat) (c : Cell64) : Cell64 :=
  l.foldl (fun c w => if w.1 = i then cellAfter c w.2 else c) c

/-- MMA names A, B and their scales as a register plus a signed immediate in cells, and its types, bank, ZERO and block count; with a listed pair of types and every operand aligned and in the scratchpad it joins the queue of at most 8 (held while full); otherwise it faults with 16, or else 17 (the order of log 32 of the model). MMA_ARRAY_START of the oldest one, ready: accumulator (m, n) of its bank becomes the sum over its blocks in order, from 0 with ZERO and else from its value; the sum it found is kept for the FSTs that stand less than five slots behind; the other bank, the scratchpad and other registers stay. A fault that waits for the tile to be quiet then settles. -/
def Obligations.MmaQueuesAndAccumulates : Prop :=
  (∀ (t : TileId) (w : OpWord) (s : State) (x : Tile) (loc : Loc), Issues s t.toNat 0 w x loc →
    let op := w.op.toNat
    op % 256 = 0x30 → op < 2 ^ 41 → w.ext ≠ none →
    let ext := (w.ext.getD 0).toNat
    let base := fun (lo im : Nat) => wrapTo 41 (((x.eng 0).areg (bitsOf op lo 4) : Int) + 64 * signed 16 (bitsOf ext im 16))
    let j : MmaJob := ⟨base 8 0, base 12 16, base 16 32, base 20 48, bitsOf op 24 5, bitsOf op 29 5, bitsOf op 34 1, bit op 35, bitsOf op 36 5 + 1, (x.eng 0).slot, loc, none⟩
    let y := x.consume 0
    (pairOk j.ta j.tb = false → Goes (.mma t w) s (fun u => Faulted s u t.toNat 0 16 loc)) ∧
    (pairOk j.ta j.tb = true → (∃ r ∈ j.reads, r.1 % 64 ≠ 0 ∨ 2 ^ 22 < r.1 + r.2) → Goes (.mma t w) s (fun u => Faulted s u t.toNat 0 17 loc)) ∧
    (pairOk j.ta j.tb = true → (∀ r ∈ j.reads, r.1 % 64 = 0 ∧ r.1 + r.2 ≤ 2 ^ 22) →
      (8 ≤ x.mmas.length → exec (.mma t w) s = .next s) ∧
      (x.mmas.length < 8 → Goes (.mma t w) s (fun u => OneOp s u t.toNat 0
        (Ended { y with mmas := x.mmas ++ [j], mmaLast := put noSlot x.mmaLast j.bank (some j.slot) } 0 (y.eng 0)) [])))) ∧
  (∀ (t : TileId) (s : State) (j : MmaJob) (r : List MmaJob), let x := s.tile t.toNat
    x.mmas = j :: r → s.tileUp t.toNat = true → x.mmaReady j = true →
    Goes (.mmaArrayStart t) s (fun u => ∃ v : State, u = v.faultSettle t.toNat ∧
      v = { s with regs := v.regs, tiles := v.tiles, reports := v.reports } ∧ OtherTiles s v t.toNat ∧ s.reports <+: v.reports ∧
      v.tile t.toNat = { x with mmas := r, acc0 := (v.tile t.toNat).acc0, acc1 := (v.tile t.toNat).acc1, past := (v.tile t.toNat).past, bankGrant := (v.tile t.toNat).bankGrant } ∧
      look noPast (v.tile t.toNat).past j.bank = (⟨j.slot, x.bank j.bank⟩ :: look noPast x.past j.bank).take 4 ∧
      (∀ c, c % 2 ≠ j.bank % 2 → j.bank < 2 → c < 2 → (v.tile t.toNat).bank c = x.bank c) ∧
      (∀ m < 64, ∀ n < 128,
        let d : Bytes := match j.snap with | some p => ⟨p.sp, p.pois⟩ | none => x.spad
        let start : MSum := { v := if j.zero then pv0 else look pvZero (x.bank j.bank) (128 * m + n) }
        look pvZero ((v.tile t.toNat).bank j.bank) (128 * m + n) =
          ((List.range j.kb).foldl (fun a kb => a.block j.ta j.tb (kvec d j.a j.sa j.ta 64 m kb) (kvec d j.b j.sb j.tb 128 n kb)) start).v) ∧
      Counted s v (tileB t.toNat) MXE_ARRAY_CYC_COUNT (arrayCycles j.ta j.tb (32 * j.kb)) ∧ Counted s v (tileB t.toNat) MXE_MACS_COUNT (64 * j.kb) ∧
      WordsBut s v [tileB t.toNat + MXE_STATUS_INVALID.off, tileB t.toNat + MXE_ARRAY_CYC_COUNT.off, tileB t.toNat + MXE_MACS_COUNT.off])) ∧
  (∀ (t : TileId) (s : State), (s.tile t.toNat).mmas = [] ∨ s.tileUp t.toNat = false → exec (.mmaArrayStart t) s = .next s)

/-- FST with an allowed output type reads its store descriptor by a plain read once no earlier FST may still write it; a bad type (16), address or element outside the scratchpad (17), poisoned descriptor (32), invalid descriptor (18) or, with hazard checking, an MMA of its bank less than five slots before (14) faults (where several hold, the first in the order of log 32 of the model); otherwise it joins the queue of at most 2. FST_BANK_READ of the oldest one, ready: from the sum that its bank held before the MMAs less than five slots ahead of it, the cells that its elements and scales write in store order take exactly their bytes, and become full with FILL; every other cell, the banks and other registers stay. A fault that waits for the tile to be quiet then settles. -/
def Obligations.FstQueuesAndStores : Prop :=
  (∀ (t : TileId) (w : OpWord) (s : State) (x : Tile) (loc : Loc), Issues s t.toNat 0 w x loc →
    let op := w.op.toNat
    op % 256 = 0x31 → op < 2 ^ 30 → w.ext ≠ none →
    let ext := (w.ext.getD 0).toNat
    let at' := fun (lo : Nat) (i : Int) => wrapTo 41 (((x.eng 0).areg (bitsOf op lo 4) : Int) + i)
    let ot := bitsOf op 21 5
    let desc := at' 16 (64 * signed 20 (bitsOf ext 44 20))
    let y := x.consume 0
    (fstTypeOk (bit op 29) ot = false → Goes (.fst t w) s (fun u => Faulted s u t.toNat 0 16 loc)) ∧
    (fstTypeOk (bit op 29) ot = true → desc % 64 ≠ 0 ∨ 2 ^ 22 ≤ desc → Goes (.fst t w) s (fun u => Faulted s u t.toNat 0 17 loc)) ∧
    (fstTypeOk (bit op 29) ot = true → desc % 64 = 0 → desc < 2 ^ 22 → s.mayWrite t.toNat 0 desc 64 = true → exec (.fst t w) s = .next s) ∧
    (fstTypeOk (bit op 29) ot = true → desc % 64 = 0 → desc < 2 ^ 22 → s.mayWrite t.toNat 0 desc 64 = false →
      ((s.spCell t.toNat (desc / 64)).clean = none → Goes (.fst t w) s (fun u => Faulted s u t.toNat 0 32 loc)) ∧
      (∀ v, (s.spCell t.toNat (desc / 64)).clean = some v →
        let dims := (List.range 5).map (fun i => digitOf (bitsOf v (64 * i) 64))
        let j : FstJob := ⟨bitsOf op 20 1, ot, bit op 26, bit op 27, bit op 28, bit op 29, at' 8 (signed 22 (bitsOf ext 0 22)), at' 12 (signed 22 (bitsOf ext 22 22)), dims, (x.eng 0).slot, loc⟩
        (sdescOk ot v dims = false → Goes (.fst t w) s (fun u => Faulted s u t.toNat 0 18 loc)) ∧
        (sdescOk ot v dims = true → spanIn j.span = false ∨ (isMx ot = true ∧ spanIn j.scaleSpan = false) → Goes (.fst t w) s (fun u => Faulted s u t.toNat 0 17 loc)) ∧
        (sdescOk ot v dims = true → spanIn j.span = true → (isMx ot = true → spanIn j.scaleSpan = true) →
          let close := TooClose s t.toNat 0 (look noSlot x.mmaLast j.bank) j.slot 5
          (close = true → Goes (.fst t w) s (fun u => Faulted s u t.toNat 0 14 loc)) ∧
          (close = false →
          (2 ≤ x.fsts.length → exec (.fst t w) s = .next s) ∧
          (x.fsts.length < 2 → Goes (.fst t w) s (fun u => OneOp s u t.toNat 0 (Ended { y.bankUse 0 [desc / 64] with fsts := x.fsts ++ [j] } 0 (y.eng 0)) []))))))) ∧
  (∀ (t : TileId) (s : State) (j : FstJob) (r : List FstJob), let x := s.tile t.toNat
    x.fsts = j :: r → s.tileUp t.toNat = true → x.fstReady j = true →
    let cells := (upto 8192 (j.store (x.bankAt j.bank j.slot)) {}).patch.cells
    Goes (.fstBankRead t) s (fun u => ∃ v : State, u = v.faultSettle t.toNat ∧
      v = { s with regs := v.regs, tiles := v.tiles, reports := v.reports } ∧ OtherTiles s v t.toNat ∧ s.reports <+: v.reports ∧
      v.tile t.toNat = { x.keepReads j with fsts := r, sp := (v.tile t.toNat).sp, spPois := (v.tile t.toNat).spPois, full := (v.tile t.toNat).full, bankGrant := (v.tile t.toNat).bankGrant } ∧
      (∀ c ∈ cells, v.spCell t.toNat c.1 = cellAfter (s.spCell t.toNat c.1) c.2 ∧ v.isFull t.toNat c.1 = (j.fill || s.isFull t.toNat c.1)) ∧
      (∀ i, (∀ c ∈ cells, c.1 ≠ i) → v.spCell t.toNat i = s.spCell t.toNat i ∧ v.isFull t.toNat i = s.isFull t.toNat i) ∧
      Counted s v (tileB t.toNat) MXE_STORE_CELLS_COUNT cells.length ∧
      WordsBut s v [tileB t.toNat + MXE_STATUS_INVALID.off, tileB t.toNat + MXE_STORE_CELLS_COUNT.off, tileB t.toNat + TILE_FE_STAT_OVERRUN.off])) ∧
  (∀ (t : TileId) (s : State), (s.tile t.toNat).fsts = [] ∨ s.tileUp t.toNat = false → exec (.fstBankRead t) s = .next s)

/-- VOP reads its operand descriptor by a plain read, is checked (function and types 19, address 20, poison 32, descriptor 21; with hazard checking a stream register written less than three slots before, 14; the first in the order of log 32 of the model where several hold) and else completes by joining the queue of at most 4. VOP_START of the oldest one, none running, completes: an operation of one position without waits writes exactly the bytes and lanes that its function gives, elements before scales, and ends; any operation without waits runs all its positions, writes no cell outside its output rows, and ends; one whose first wait meets an empty cell places its watch there and changes nothing else. Every other cell, tile and register stays. -/
def Obligations.VopChecksAndRuns : Prop :=
  (∀ (t : TileId) (w : OpWord) (s : State) (x : Tile) (loc : Loc), Issues s t.toNat 1 w x loc →
    let op := w.op.toNat
    let ext := (w.ext.getD 0).toNat
    op % 256 = 0x30 → op < 2 ^ 39 → w.ext ≠ none → ext < 2 ^ 48 →
    let r := fun (lo : Nat) => (x.eng 1).areg (bitsOf op lo 4)
    let fn := bitsOf op 28 8
    let desc := wrapTo 41 ((r 24 : Int) + 64 * signed 16 (bitsOf ext 32 16))
    let y := x.consume 1
    (arity fn = none → Goes (.vop t w) s (fun u => Faulted s u t.toNat 1 19 loc)) ∧
    (arity fn ≠ none → desc % 64 ≠ 0 ∨ 2 ^ 22 ≤ desc → Goes (.vop t w) s (fun u => Faulted s u t.toNat 1 20 loc)) ∧
    (arity fn ≠ none → desc % 64 = 0 → desc < 2 ^ 22 → s.mayWrite t.toNat 1 desc 64 = true → exec (.vop t w) s = .next s) ∧
    (arity fn ≠ none → desc % 64 = 0 → desc < 2 ^ 22 → s.mayWrite t.toNat 1 desc 64 = false →
      ((s.spCell t.toNat (desc / 64)).clean = none → Goes (.vop t w) s (fun u => Faulted s u t.toNat 1 32 loc)) ∧
      (∀ v, (s.spCell t.toNat (desc / 64)).clean = some v →
        let word := fun (i : Nat) => bitsOf v (64 * i) 64
        let j : VopJob := ⟨fn, bit op 36, bit op 37, bit op 38, bitsOf ext 0 32, bitsOf v 0 20, bitsOf v 20 6 + 1, operandOf (word 1) (r 8), operandOf (word 2) (r 12),
          operandOf (word 3) (r 16), operandOf (word 4) (r 20), (x.eng 1).slot, loc⟩
        (vdescClear v = false → Goes (.vop t w) s (fun u => Faulted s u t.toNat 1 21 loc)) ∧
        (vdescClear v = true → j.fmtOk = false → Goes (.vop t w) s (fun u => Faulted s u t.toNat 1 19 loc)) ∧
        (vdescClear v = true → j.fmtOk = true → j.outKindOk = false ∨ j.syncOk = false → Goes (.vop t w) s (fun u => Faulted s u t.toNat 1 21 loc)) ∧
        (vdescClear v = true → j.fmtOk = true → j.outKindOk = true → j.syncOk = true → j.placed = false → Goes (.vop t w) s (fun u => Faulted s u t.toNat 1 20 loc)) ∧
        (vdescClear v = true → j.fmtOk = true → j.outKindOk = true → j.syncOk = true → j.placed = true →
          let close := j.inputs.any (fun p => decide (p.2.kind = 2) && TooClose s t.toNat 1 (look noSlot x.vLast p.2.vreg) j.slot 3)
          (close = true → Goes (.vop t w) s (fun u => Faulted s u t.toNat 1 14 loc)) ∧
          (close = false →
          (4 ≤ x.vops.length → exec (.vop t w) s = .next s) ∧
          (x.vops.length < 4 → Goes (.vop t w) s (fun u => OneOp s u t.toNat 1
            (Ended { y.bankUse 1 [desc / 64] with vops := x.vops ++ [j], vLast := if j.o.kind = 2 then put noSlot x.vLast j.o.vreg (some j.slot) else x.vLast } 1 (y.eng 1)) []))))))) ∧
  (∀ (t : TileId) (s : State) (j : VopJob) (l : List VopJob), let x := s.tile t.toNat
    x.vops = j :: l → x.vrun = none → s.tileUp t.toNat = true →
    let r : VRun := ⟨j, 0, 0, [], List.replicate 64 (identityOf j.fn), [], none, false, false⟩
    (j.total = 1 → j.waitsAt 0 0 = [] →
      let o := j.position ⟨x.spad, fun v => x.vRead v j.slot, j.imm⟩ 0 0 r.acc
      let cells := o.patch.cells ++ o.scales.cells
      Goes (.vopStart t) s (fun u => ∃ v : State, u = v.faultSettle t.toNat ∧
        v = { s with regs := v.regs, tiles := v.tiles, reports := v.reports } ∧ OtherTiles s v t.toNat ∧ s.reports <+: v.reports ∧
        v.tile t.toNat = { x with vops := l, sp := (v.tile t.toNat).sp, spPois := (v.tile t.toNat).spPois, full := (v.tile t.toNat).full, vregs := (v.tile t.toNat).vregs, bankGrant := (v.tile t.toNat).bankGrant } ∧
        (∀ i, v.spCell t.toNat i = cellWritten cells i (s.spCell t.toNat i) ∧ v.isFull t.toNat i = (s.isFull t.toNat i || (j.fill && cells.any (fun c => decide (c.1 = i))))) ∧
        (j.o.kind = 2 → (v.tile t.toNat).vNow j.o.vreg = o.lanes.foldl (fun l q => l.set q.1 q.2) (x.vNow j.o.vreg)) ∧
        (∀ k, k ≠ j.o.vreg ∨ j.o.kind ≠ 2 → (v.tile t.toNat).vNow k = x.vNow k) ∧
        Counted s v (tileB t.toNat) VXE_POSITIONS_COUNT 1 ∧
        WordsBut s v [tileB t.toNat + VXE_STATUS_INVALID.off, tileB t.toNat + VXE_POSITIONS_COUNT.off, tileB t.toNat + VXE_TREES_COUNT.off, tileB t.toNat + TILE_FE_STAT_OVERRUN.off])) ∧
    (0 < j.total → (∀ k < j.rows, ∀ i < j.perRow, j.waitsAt k i = []) → Goes (.vopStart t) s (fun u => (u.tile t.toNat).vops = l ∧ (u.tile t.toNat).vrun = none ∧ OtherTiles s u t.toNat ∧
      u.mem = s.mem ∧ Counted s u (tileB t.toNat) VXE_POSITIONS_COUNT j.total ∧
      (j.placed = true → j.fmtOk = true → j.outKindOk = true → j.o.kind = 1 ∨ j.o.kind = 2 → ∀ i, j.mayWrite (64 * i) 64 = false → u.spCell t.toNat i = s.spCell t.toNat i))) ∧
    (∀ c con rest, 0 < j.total → j.waitsAt 0 0 = (c, con) :: rest → s.isFull t.toNat c = false →
      Goes (.vopStart t) s (fun u => u = { s with tiles := u.tiles } ∧ OtherTiles s u t.toNat ∧
        u.tile t.toNat = { x with vops := l, vrun := some { r with watch := some ⟨c, con⟩ } }))) ∧
  (∀ (t : TileId) (s : State), (s.tile t.toNat).vops = [] ∨ (s.tile t.toNat).vrun ≠ none ∨ s.tileUp t.toNat = false → exec (.vopStart t) s = .next s)

/-- DSET at an aligned address up to 0x3F_FF80 (else fault 26) reads two cells by plain reads once no earlier move may still write them; when every check of Table 11-2 passes the entry is valid and holds the descriptor, else it is invalid and MVE_DSTAT records the entry and the reason (6 for poison); the MVE is then the requester last granted at the two banks. MOVE copies two valid entries (else 22), is checked for shape (23), range (24) and overlap (25), and joins the queue of at most 4, held while it is full. Nothing else changes. When several checks of a MOVE fail, that the lowest number is the cause is log 32 of the model (DEDUCED) -/
def Obligations.DsetAndMoveCheckAtIssue : Prop :=
  (∀ (t : TileId) (w : OpWord) (s : State) (x : Tile) (loc : Loc), Issues s t.toNat 2 w x loc →
    let op := w.op.toNat
    op % 256 = 0x32 → onlyBits op [(0, 17), (32, 32)] = true → w.ext = none →
    let a := wrapTo 41 (((x.eng 2).areg (bitsOf op 8 4) : Int) + signed 32 (bitsOf op 32 32))
    let e := bitsOf op 12 5
    let y := x.consume 2
    let dstat := tileB t.toNat + MVE_DSTAT_ENTRY.off
    (a % 64 ≠ 0 ∨ 0x3FFF80 < a → Goes (.dset t w) s (fun u => Faulted s u t.toNat 2 26 loc)) ∧
    (a % 64 = 0 → a ≤ 0x3FFF80 → s.mayWrite t.toNat 2 a 128 = true → exec (.dset t w) s = .next s) ∧
    (a % 64 = 0 → a ≤ 0x3FFF80 → s.mayWrite t.toNat 2 a 128 = false →
      ∀ reason, reason = (match (s.spCell t.toNat (a / 64)).clean, (s.spCell t.toNat (a / 64 + 1)).clean with
        | some lo, some hi => s.dsetReason t.toNat (lo + hi * 2 ^ 512) | _, _ => 6) →
      (∀ lo hi, reason = 0 → (s.spCell t.toNat (a / 64)).clean = some lo → (s.spCell t.toNat (a / 64 + 1)).clean = some hi →
        Goes (.dset t w) s (fun u => OneOp s u t.toNat 2 (Ended { y.bankUse 2 [a / 64, a / 64 + 1] with tensors := put noTensor x.tensors e (some (tensorOf (lo + hi * 2 ^ 512))) } 2 (y.eng 2)) [])) ∧
      (reason ≠ 0 →
        Goes (.dset t w) s (fun u => OneOp s u t.toNat 2 (Ended { y.bankUse 2 [a / 64, a / 64 + 1] with tensors := put noTensor x.tensors e none } 2 (y.eng 2)) [dstat] ∧
          u.rd (tileB t.toNat) MVE_DSTAT_ENTRY = e ∧ u.rd (tileB t.toNat) MVE_DSTAT_REASON = reason ∧ u.flag (tileB t.toNat) MVE_DSTAT_VALID = true)))) ∧
  (∀ (t : TileId) (w : OpWord) (s : State) (x : Tile) (loc : Loc), Issues s t.toNat 2 w x loc →
    let op := w.op.toNat
    let ext := (w.ext.getD 0).toNat
    op % 256 = 0x31 → op < 2 ^ 40 → w.ext ≠ none → ext < 2 ^ 15 → bitsOf op 30 2 ≠ 3 → bitsOf op 35 2 ≠ 3 →
    let r := fun (lo : Nat) => (x.eng 2).areg (bitsOf op lo 4)
    let y := x.consume 2
    (look noTensor x.tensors (bitsOf op 8 5) = none ∨ look noTensor x.tensors (bitsOf op 13 5) = none → Goes (.move t w) s (fun u => Faulted s u t.toNat 2 22 loc)) ∧
    (∀ src dst, look noTensor x.tensors (bitsOf op 8 5) = some src → look noTensor x.tensors (bitsOf op 13 5) = some dst →
      let off := fun (lo : Nat) => if bit op 39 then signed 41 (r lo) else 0
      let j : MoveJob := ⟨src, dst, bitsOf op 13 5, (List.range 5).map (fun i => bitsOf ext (3 * i) 3), bitsOf op 30 2, bitsOf op 32 3, r 26, bitsOf op 35 2, bit op 37, bit op 38, off 18, off 22, loc⟩
      (j.shapeOk = false → Goes (.move t w) s (fun u => Faulted s u t.toNat 2 23 loc)) ∧
      (j.shapeOk = true → j.rangeOk = false → Goes (.move t w) s (fun u => Faulted s u t.toNat 2 24 loc)) ∧
      (j.shapeOk = true → j.rangeOk = true → j.overlaps = true → Goes (.move t w) s (fun u => Faulted s u t.toNat 2 25 loc)) ∧
      (j.shapeOk = true → j.rangeOk = true → j.overlaps = false →
        (4 ≤ x.moves.length → exec (.move t w) s = .next s) ∧
        (x.moves.length < 4 → Goes (.move t w) s (fun u => OneOp s u t.toNat 2 (Ended { y with moves := x.moves ++ [j] } 2 (y.eng 2)) [])))))

/-- MOVE_BEGIN of the oldest queued move, none running, whose first chunk does not overwrite its own index tensor. A move within the scratchpad, without waits and of one chunk: every destination cell that its points write takes exactly those bytes, read from the source before any is written, and becomes full with FILL; the move ends and its counters count. A waiting move whose first cell is empty places its watch; a move from host memory with nothing prefetched, and on C1 with the seam link neither held nor down, asks for the cells that it needs, as many as its 2,048 outstanding reads allow. Every other cell, tile and register stays, but for the order in which banks grant. A fault that waits for the tile to be quiet then settles. -/
def Obligations.MoveBeginCopiesItsPoints : Prop :=
  (∀ (t : TileId) (s : State) (j : MoveJob) (l : List MoveJob), let x := s.tile t.toNat
    x.moves = j :: l → x.mrun = none → s.tileUp t.toNat = true →
    let b := tileB t.toNat
    let pts := j.points x.spad 0
    let m : Moved := pts.foldl (j.movePoint x.spad) {}
    let cells := m.patch.cells
    let r : MRun := ⟨j, 0, 0, [], [], none, false, [], [], none, false⟩
    (j.gs = 0 ∨ j.dst.space ≠ 0 ∨ ∀ c ∈ cells, c.1 ∉ j.indexCells 0) →
    ((j.src.space = 0 → j.dst.space = 0 → j.sync = 0 → j.chunks = 1 → (∀ c ∈ j.need pts, c < 65536) → (∀ c ∈ cells, c.1 < 65536) →
      Goes (.moveBegin t) s (fun u => ∃ v : State, u = v.faultSettle t.toNat ∧
        v = { s with regs := v.regs, pendMask := v.pendMask, tiles := v.tiles, reports := v.reports } ∧ OtherTiles s v t.toNat ∧ s.reports <+: v.reports ∧
        v.tile t.toNat = { x with moves := l, sp := (v.tile t.toNat).sp, spPois := (v.tile t.toNat).spPois, full := (v.tile t.toNat).full, bankGrant := (v.tile t.toNat).bankGrant, dldDone := false } ∧
        (∀ c ∈ cells, v.spCell t.toNat c.1 = cellAfter (s.spCell t.toNat c.1) c.2 ∧ v.isFull t.toNat c.1 = (j.fill || s.isFull t.toNat c.1)) ∧
        (∀ i, (∀ c ∈ cells, c.1 ≠ i) → v.spCell t.toNat i = s.spCell t.toNat i ∧ v.isFull t.toNat i = s.isFull t.toNat i) ∧
        Counted s v b MVE_MOVES_COUNT 1 ∧ Counted s v b MVE_RD_CELLS_COUNT ((j.need pts).length + (j.indexCells 0).length) ∧
        Counted s v b MVE_WR_CELLS_COUNT cells.length ∧ Counted s v b MVE_FILLS_COUNT m.fills ∧ Counted s v b MVE_DROPS_COUNT m.drops ∧
        WordsBut s v [b + TILE_PF_CTRL_ENABLE.off, b + TILE_FE_STAT_OVERRUN.off, b + MVE_STATUS_POISON.off, b + MVE_RD_CELLS_COUNT.off, b + MVE_WR_CELLS_COUNT.off,
          b + MVE_FILLS_COUNT.off, b + MVE_DROPS_COUNT.off, b + MVE_MISALIGNED_COUNT.off, b + MVE_MOVES_COUNT.off])) ∧
    (∀ c rest, j.sync ≠ 0 → 0 < j.total → j.need pts = c :: rest → s.isFull t.toNat c = false →
      Goes (.moveBegin t) s (fun u => u = { s with regs := u.regs, pendMask := u.pendMask, tiles := u.tiles } ∧ OtherTiles s u t.toNat ∧ WordsBut s u [b + TILE_PF_CTRL_ENABLE.off] ∧
        ∃ con idx, (con = true → j.sync = 2) ∧ u.tile t.toNat = { x with moves := l, bankGrant := (u.tile t.toNat).bankGrant, mrun := some { r with idx := idx, watch := some ⟨c, con⟩ } })) ∧
    (j.sync = 0 → j.src.space = 3 → 0 < j.total → j.need pts ≠ [] → s.hostLive (s.tileOwner t.toNat) = true → s.seamHeld (tileDie t.toNat) 0 = false → (∀ p ∈ x.pf, p.space ≠ 3) → x.pfFlight.length < 2048 →
      Goes (.moveBegin t) s (fun u => u = { s with regs := u.regs, pendMask := u.pendMask, tiles := u.tiles, host := u.host, out := u.out } ∧ OtherTiles s u t.toNat ∧
        WordsBut s u [b + TILE_PF_CTRL_ENABLE.off] ∧
        ∃ idx, u.tile t.toNat = { x with moves := l, bankGrant := (u.tile t.toNat).bankGrant, dldDone := false, mrun := some { r with idx := idx, asked := true, wants := (j.need pts).take (2048 - x.pfFlight.length) } })))) ∧
  (∀ (t : TileId) (s : State), (s.tile t.toNat).moves = [] ∨ (s.tile t.toNat).mrun ≠ none ∨ s.tileUp t.toNat = false → exec (.moveBegin t) s = .next s)

/-! ### Synchronization -/

/-- SEMSIG, once the engine's earlier writes are complete, sends its change; SEMWAIT makes its engine wait. SEMAPHORE_UPDATE applies the oldest change: the count takes the sum; above 255 it takes 255, its OVF bit is set and event 0x0350 is raised; below 0 the tile faults with SEM_UNDER (27) and the count stays. SEMAPHORE_GRANT grants, of the waiters whose NW is at most the count, the first after the engine granted last: the count falls by NW, the wait ends, and the grant is an acquire; without one nothing changes. Nothing else changes. -/
def Obligations.SemaphoresCountAndGrant : Prop :=
  (∀ (t : TileId) (e : EngId) (w : OpWord) (s : State) (x : Tile) (loc : Loc), Issues s t.toNat e w x loc → w.ext = none →
    let op := w.op.toNat
    let y := x.consume e
    (op % 256 = 0x20 → onlyBits op [(0, 13), (16, 9)] = true → bitsOf op 16 9 ≠ 0 → bitsOf op 16 9 ≠ 256 →
      (s.released t.toNat e = false → exec (.semsig t e w) s = .next s) ∧
      (s.released t.toNat e = true → Goes (.semsig t e w) s (fun u =>
        OneOp s u t.toNat e (Ended { y with signals := x.signals ++ [⟨e, bitsOf op 8 5, signed 9 (bitsOf op 16 9), loc⟩] } e (y.eng e)) []))) ∧
    (op % 256 = 0x21 → onlyBits op [(0, 13), (16, 8)] = true → bitsOf op 16 8 ≠ 0 →
      Goes (.semwait t e w) s (fun u => OneOp s u t.toNat e (Ended y e { y.eng e with wait := some ⟨.sem (bitsOf op 8 5) (bitsOf op 16 8), loc⟩ }) []))) ∧
  (∀ (t : TileId) (s : State) (g : Signal) (r : List Signal), let x := s.tile t.toNat
    let b := tileB t.toNat
    let sem := b + 8 * g.k + TILE_SEM_COUNT.off
    let v : Int := (s.sem t.toNat g.k : Int) + g.delta
    x.signals = g :: r → s.tileUp t.toNat = true → g.k < 32 → g.eng < 4 →
    (0 ≤ v → v ≤ 255 → Goes (.semaphoreUpdate t) s (fun u => u = { s with regs := u.regs, tiles := u.tiles } ∧ OtherTiles s u t.toNat ∧ WordsBut s u [sem] ∧
      u.tile t.toNat = { x with signals := r } ∧ (u.sem t.toNat g.k : Int) = v)) ∧
    (255 < v → Goes (.semaphoreUpdate t) s (fun u => u = { s with regs := u.regs, tiles := u.tiles, reports := s.reports ++ [s.report t.toNat 0x0350 [g.k, g.eng, g.loc.off]] } ∧
      OtherTiles s u t.toNat ∧ WordsBut s u [sem, b + TILE_SEM_OVF_OVF.off] ∧ u.tile t.toNat = { x with signals := r } ∧ u.sem t.toNat g.k = 255 ∧
      bit (u.rd b TILE_SEM_OVF_OVF) g.k = true ∧ ∀ k < 32, k ≠ g.k → bit (u.rd b TILE_SEM_OVF_OVF) k = bit (s.rd b TILE_SEM_OVF_OVF) k)) ∧
    (v < 0 → s.faulted t.toNat = false → Goes (.semaphoreUpdate t) s (fun u => Faulted s u t.toNat g.eng 27 g.loc ∧ u.sem t.toNat g.k = s.sem t.toNat g.k ∧ (u.tile t.toNat).signals = r)) ∧
    (v < 0 → s.faulted t.toNat = true → Goes (.semaphoreUpdate t) s (fun u => u = { s with tiles := u.tiles } ∧ OtherTiles s u t.toNat ∧ u.tile t.toNat = { x with signals := r }))) ∧
  (∀ (t : TileId) (k : Fin 32) (s : State), s.tileUp t.toNat = true →
    let x := s.tile t.toNat
    let b := tileB t.toNat
    let last := look lastGrantInit x.lastGrant k
    let order := (List.range 4).map (fun i => (last + 1 + i) % 4)
    let ready := fun (e : Nat) => ∃ nw, (x.eng e).semNeed k = some nw ∧ nw ≤ s.sem t.toNat k
    ((∀ e < 4, ¬ ready e) → exec (.semaphoreGrant t k) s = .next s) ∧
    (∀ i < 4, ∀ e nw, order[i]? = some e → (x.eng e).semNeed k = some nw → nw ≤ s.sem t.toNat k → (∀ i' < i, ∀ e', order[i']? = some e' → ¬ ready e') →
      Goes (.semaphoreGrant t k) s (fun u => u = { s with regs := u.regs, tiles := u.tiles, reports := u.reports } ∧ OtherTiles s u t.toNat ∧ s.reports <+: u.reports ∧
        u.sem t.toNat k = s.sem t.toNat k - nw ∧ Counted s u b TILE_ACQUIRES_COUNT 1 ∧ Counted s u b (TILE_PFM_COUNT.at 0x18) x.pf.length ∧
        WordsBut s u [b + 8 * k + TILE_SEM_COUNT.off, b + TILE_ACQUIRES_COUNT.off, b + (TILE_PFM_COUNT.at 0x18).off] ∧
        let y := x.setEngine e { x.eng e with wait := none }
        u.tile t.toNat = { y with lastGrant := put lastGrantInit x.lastGrant k e, dldDone := false, rc := [], rcKeep := false, pf := [], pfFlight := x.pfFlight.map (fun p => { p with stale := true }) })))

/-- SCUPD, once the engine's earlier writes are complete, advances P or C by K modulo 2^32, or faults with SC_SKEW (28), unapplied, when the pair would be inconsistent; SCWAIT waits for K filled or free buffers (a K above N is SYNC_ARG, 29); STREAM_COUNTER_SATISFY ends, as an acquire, the wait of every engine whose condition holds and of no other. FEWAIT waits on the cell at its address; an address that is no cell of the scratchpad is SYNC_ARG. Nothing else changes. -/
def Obligations.StreamCountersAndFullEmptyWaits : Prop :=
  (∀ (t : TileId) (e : EngId) (w : OpWord) (s : State) (x : Tile) (loc : Loc), Issues s t.toNat e w x loc → w.ext = none →
    let op := w.op.toNat
    let y := x.consume e
    let b := tileB t.toNat
    let i := bitsOf op 8 4
    let k := bitsOf op 32 16
    (op % 256 = 0x22 → onlyBits op [(0, 13), (32, 16)] = true → k ≠ 0 →
      let p := if bit op 12 then s.scP t.toNat i else (s.scP t.toNat i + k) % 2 ^ 32
      let c := if bit op 12 then (s.scC t.toNat i + k) % 2 ^ 32 else s.scC t.toNat i
      (s.released t.toNat e = false → exec (.scupd t e w) s = .next s) ∧
      (s.released t.toNat e = true → occupancy p c ≤ s.scN t.toNat i → Goes (.scupd t e w) s (fun u =>
        OneOp s u t.toNat e (Ended y e (y.eng e)) [b + 16 * i + TILE_SC_PC_P.off] ∧ u.scP t.toNat i = p ∧ u.scC t.toNat i = c)) ∧
      (s.released t.toNat e = true → s.scN t.toNat i < occupancy p c → Goes (.scupd t e w) s (fun u =>
        Faulted s u t.toNat e 28 loc ∧ u.scP t.toNat i = s.scP t.toNat i ∧ u.scC t.toNat i = s.scC t.toNat i))) ∧
    (op % 256 = 0x23 → onlyBits op [(0, 13), (32, 16)] = true → k ≠ 0 →
      (s.scN t.toNat i < k → Goes (.scwait t e w) s (fun u => Faulted s u t.toNat e 29 loc)) ∧
      (k ≤ s.scN t.toNat i → Goes (.scwait t e w) s (fun u => OneOp s u t.toNat e (Ended y e { y.eng e with wait := some ⟨.sc i (bit op 12) k, loc⟩ }) []))) ∧
    (op % 256 = 0x24 → onlyBits op [(0, 13), (32, 32)] = true →
      let a := wrapTo 41 (((x.eng e).areg (bitsOf op 8 4) : Int) + signed 32 (bitsOf op 32 32))
      (a % 64 ≠ 0 ∨ 2 ^ 22 ≤ a → Goes (.fewait t e w) s (fun u => Faulted s u t.toNat e 29 loc)) ∧
      (a % 64 = 0 → a < 2 ^ 22 → Goes (.fewait t e w) s (fun u => OneOp s u t.toNat e (Ended y e { y.eng e with wait := some ⟨.fe (a / 64) (bit op 12), loc⟩ }) [])))) ∧
  (∀ (t : TileId) (s : State), s.tileUp t.toNat = true →
    let x := s.tile t.toNat
    let b := tileB t.toNat
    let met := fun (e : Nat) => ∃ i space k loc, (x.eng e).wait = some ⟨.sc i space k, loc⟩ ∧
      (if space = true then k + occupancy (s.scP t.toNat i) (s.scC t.toNat i) ≤ s.scN t.toNat i else k ≤ occupancy (s.scP t.toNat i) (s.scC t.toNat i))
    Goes (.streamCounterSatisfy t) s (fun u => u = { s with regs := u.regs, tiles := u.tiles, reports := u.reports } ∧ OtherTiles s u t.toNat ∧ s.reports <+: u.reports ∧
      WordsBut s u [b + TILE_ACQUIRES_COUNT.off, b + (TILE_PFM_COUNT.at 0x18).off] ∧
      (∀ e < 4, (met e → u.engine t.toNat e = { x.eng e with wait := none }) ∧ (¬ met e → u.engine t.toNat e = x.eng e)) ∧
      (u.tile t.toNat).spad = x.spad ∧ (u.tile t.toNat).full = x.full ∧
      ((∀ e < 4, ¬ met e) → u = s) ∧ ((∃ e < 4, met e) → (u.tile t.toNat).rc = [] ∧ (u.tile t.toNat).pf = [])))

/-- Group `g` after a phase has completed, at one engine: a registered arrival is completed, waits on the group end, and an arrival that waited registers in the next phase. -/
def Sys2Proof.Machine.afterPhase (g : Nat) (y : Engine) : Engine :=
  let a := if y.arrival g = .registered then y.setArrival g .completed else y
  match y.wait with
  | some ⟨.chorus j _, _⟩ => if j = g then { a with wait := none } else a
  | some ⟨.arrive j more, loc⟩ => if j = g then { a.setArrival g .registered with wait := if more then some ⟨.chorus g 3, loc⟩ else none } else a
  | _ => a

/-- CHORUS ARRIVE, once the engine's earlier writes are complete, registers an arrival, or waits for the next phase while one is registered; ARRIVE_WAIT then waits for the phase; WAIT waits on a registered arrival and is done, as an acquire, with a completed one. An engine outside the group, or a WAIT without an arrival, is SYNC_ARG (29); a broken group or arrival is CHORUS_BROKEN (30). CHORUS_PHASE_COMPLETE, when every wire is asserted, flips GEN, counts the phase, completes the registered arrivals, ends the waits as acquires and registers the arrivals that waited; otherwise it changes nothing. Scratchpads stay. That SYNC_ARG is the cause when both hold is log 32 of the model (DEDUCED). -/
def Obligations.ChorusArrivesWaitsAndCompletes : Prop :=
  (∀ (t : TileId) (e : EngId) (w : OpWord) (s : State) (x : Tile) (loc : Loc), Issues s t.toNat e w x loc → w.ext = none →
    let op := w.op.toNat
    let y := x.consume e
    let g := bitsOf op 8 3
    let a := (x.eng e).arrival g
    let member := s.inGroup g t.toNat = true ∧ s.mustArrive g t.toNat e = true
    op % 256 = 0x25 → op < 2 ^ 13 →
    (bitsOf op 11 2 = 1 →
      (¬ member → Goes (.chorusArrive t e w) s (fun u => Faulted s u t.toNat e 29 loc)) ∧
      (member → s.broken g = true → Goes (.chorusArrive t e w) s (fun u => Faulted s u t.toNat e 30 loc)) ∧
      (member → s.broken g = false → s.released t.toNat e = false → exec (.chorusArrive t e w) s = .next s) ∧
      (member → s.broken g = false → s.released t.toNat e = true → Goes (.chorusArrive t e w) s (fun u => OneOp s u t.toNat e
        (Ended y e (if a = .registered then { y.eng e with wait := some ⟨.arrive g false, loc⟩ } else (y.eng e).setArrival g .registered)) []))) ∧
    (bitsOf op 11 2 = 2 →
      (¬ member ∨ a = .absent → Goes (.chorusWait t e w) s (fun u => Faulted s u t.toNat e 29 loc)) ∧
      (member → a ≠ .absent → s.broken g = true ∨ a = .broken → Goes (.chorusWait t e w) s (fun u => Faulted s u t.toNat e 30 loc)) ∧
      (member → s.broken g = false → a = .registered → Goes (.chorusWait t e w) s (fun u => OneOp s u t.toNat e
        (Ended y e { y.eng e with wait := some ⟨.chorus g 2, loc⟩ }) [])) ∧
      (member → s.broken g = false → a = .completed → Goes (.chorusWait t e w) s (fun u =>
        let z : Tile := { y with rc := [], rcKeep := false, pf := [], pfFlight := y.pfFlight.map (fun p => { p with stale := true }) }
        OneOp s u t.toNat e (Ended z e (z.eng e)) [tileB t.toNat + TILE_ACQUIRES_COUNT.off, tileB t.toNat + (TILE_PFM_COUNT.at 0x18).off] ∧
        Counted s u (tileB t.toNat) TILE_ACQUIRES_COUNT 1))) ∧
    (bitsOf op 11 2 = 3 →
      (¬ member → Goes (.chorusArriveWait t e w) s (fun u => Faulted s u t.toNat e 29 loc)) ∧
      (member → s.broken g = true → Goes (.chorusArriveWait t e w) s (fun u => Faulted s u t.toNat e 30 loc)) ∧
      (member → s.broken g = false → s.released t.toNat e = false → exec (.chorusArriveWait t e w) s = .next s) ∧
      (member → s.broken g = false → s.released t.toNat e = true → Goes (.chorusArriveWait t e w) s (fun u => OneOp s u t.toNat e
        (Ended y e (if a = .registered then { y.eng e with wait := some ⟨.arrive g true, loc⟩ }
          else { (y.eng e).setArrival g .registered with wait := some ⟨.chorus g 3, loc⟩ })) [])))) ∧
  (∀ (g : Fin 8) (s : State), s.phaseMet g = false → exec (.chorusPhaseComplete g) s = .next s) ∧
  (∀ (g : Fin 8) (s : State), s.phaseMet g = true → s.tileKeys.Nodup → (∀ k ∈ s.tileKeys, isSite k = true) →
    let f := CHORUS_CTRL_GEN.at (8 * g.val)
    Goes (.chorusPhaseComplete g) s (fun u =>
      u = { s with regs := u.regs, tiles := u.tiles, reports := u.reports } ∧ s.reports <+: u.reports ∧
      u.rd chorusB f = 1 - s.rd chorusB f ∧ Counted s u chorusB (CHORUS_CTRL_PHASES.at (8 * g.val)) 1 ∧
      WordsBut s u ((chorusB + f.off) :: s.tileKeys.flatMap (fun k => [tileB k + TILE_ACQUIRES_COUNT.off, tileB k + (TILE_PFM_COUNT.at 0x18).off])) ∧
      (∀ k, ∀ e < 4, u.engine k e = afterPhase g (s.engine k e)) ∧
      (∀ k, (u.tile k).spad = (s.tile k).spad ∧ (u.tile k).full = (s.tile k).full) ∧
      ∀ k, ∀ e < 4, ∀ m loc, (s.engine k e).wait = some ⟨.chorus g m, loc⟩ → (u.tile k).rc = [] ∧ (u.tile k).pf = []))

/-- DEADLOCK_DETECTOR_FIRE on a running tile that is not halted, with the detector enabled, no request outstanding, every engine in a wait or with an empty queue and one of them in a wait, once an episode: FIRED is set, the count rises, event 0x0351 names the causes and the action; the first firing records the causes, TSC and the semaphore counts. With ACTION 1 the tile then faults with DEADLOCK (31) at the first waiting engine. In every other state it changes nothing. No engine, no scratchpad and no other tile changes without the fault. -/
def Obligations.DeadlockDetectorFires : Prop :=
  ∀ (t : TileId) (s : State),
    let x := s.tile t.toNat
    let b := tileB t.toNat
    let cause := s.stuckCause t.toNat
    let may := s.tileUp t.toNat = true ∧ x.halted = false ∧ x.dldDone = false ∧ s.flag b TILE_DLD_CTRL_ENABLE = true ∧ s.noRequests t.toNat = true ∧
      (∀ e < 4, 2 ≤ cause e ∨ (s.engine t.toNat e).queue = []) ∧ ∃ e < 4, 2 ≤ cause e
    let told := s.reports ++ [s.report t.toNat 0x0351 [cause 0, cause 1, cause 2, cause 3, s.rd b TILE_DLD_CTRL_ACTION]]
    let snap := (List.range 4).flatMap (fun i => [b + 8 * i + TILE_DLD_SNAP_CAUSE.off, b + 8 * i + TILE_DLD_SEM_COUNTS.off])
    (¬ may → exec (.deadlockDetectorFire t) s = .next s) ∧
    (may → s.rd b TILE_DLD_CTRL_ACTION ≠ 1 → Goes (.deadlockDetectorFire t) s (fun u =>
      u = { s with regs := u.regs, tiles := u.tiles, reports := u.reports } ∧ s.reports <+: u.reports ∧ (∀ r, r ∈ told → r ∈ u.reports) ∧ (∀ r, r ∈ u.reports → r ∈ told ∨ r.code = 0x0303) ∧
      OtherTiles s u t.toNat ∧ u.tile t.toNat = { x with dldDone := true } ∧ u.flag b TILE_DLD_STAT_FIRED = true ∧ Counted s u b TILE_DLD_STAT_COUNT 1 ∧
      (s.flag b TILE_DLD_STAT_FIRED = true → WordsBut s u [b + TILE_DLD_STAT_FIRED.off]) ∧
      (s.flag b TILE_DLD_STAT_FIRED = false → WordsBut s u ([b + TILE_DLD_STAT_FIRED.off, b + TILE_DLD_TSC_TSC.off] ++ snap) ∧
        u.rd b TILE_DLD_TSC_TSC = s.tsc % 2 ^ 64 ∧ (∀ e < 4, u.rd b (TILE_DLD_SNAP_CAUSE.at (8 * e)) = cause e) ∧
        ∀ i < 4, ∀ j < 8, u.rd b (TILE_DLD_SEM_COUNTS.at (8 * i)) / 2 ^ (8 * j) % 256 = s.sem t.toNat (8 * i + j)))) ∧
    (may → s.rd b TILE_DLD_CTRL_ACTION = 1 → s.faulted t.toNat = false → ∀ e < 4, 2 ≤ cause e → (∀ e' < e, cause e' < 2) → ∀ v, s.stuckOn t.toNat e = some v →
      Goes (.deadlockDetectorFire t) s (fun u => Faulted s u t.toNat e 31 v.2.2.2 ∧ u.flag b TILE_DLD_STAT_FIRED = true ∧ Counted s u b TILE_DLD_STAT_COUNT 1))

/-! ### The host link -/

/-- PF0 may write the register at `off`: the unit that holds it answers, and PF0 is not in D3hot (R507, R511, R519). -/
def Sys2Proof.Machine.Writable (s : State) (off : Nat) : Prop := s.badKind 0 off 8 true = 0 ∧ s.host.d3hot = false

/-- Nothing that the host has still to answer, and no Molt, stands: no read, no back-invalidation, no stream line; and nothing waits on a CC. -/
def Sys2Proof.Machine.NothingAsked (s : State) : Prop :=
  s.host.reads = [] ∧ s.host.waiting = [] ∧ s.host.snoops = [] ∧ Settled s ∧ s.host.d3hot = false ∧ (∀ p ∈ s.tiles, p.2.reqs = []) ∧ s.flag hostB FLT_MOLT_STAT_BUSY = false

/-- Bit 20 of the AER uncorrectable error status of function `f` is set, and no other bit changes (PRESUMED, log 70). -/
def Sys2Proof.Machine.UrSet (s u : State) (f : Nat) : Prop :=
  look noAer u.host.aer f = look noAer s.host.aer f ||| 0x100000 ∧ ∀ g, g ≠ f → look noAer u.host.aer g = look noAer s.host.aer g

/-- A link-down event from a state in which nothing is asked of the host (R377, R400, R500); the records transmitted last that were not acknowledged are taken back, and how many they are is a free value (R400; log 61). -/
def Sys2Proof.Machine.WentDown (s u : State) (cause : Nat) : Prop :=
  let b := State.takeBack (s.host.sent.take (Config.unacked s.free)) s
  u = { s with free := s.free + 1, regs := u.regs, rings := u.rings, cuts := u.cuts, host := u.host, sec := u.sec, reports := u.reports } ∧
    u.host = { s.host with bme := [], bar4 := 1024, vfBar4 := 1024, mps := 128, mrrs := 512, extTag := true, tag10 := false, tag14 := false, cplTo := 0, cplOff := false, aer := [],
                           cxlIde := none, answered := [], msix := [], msixOn := [], ideIds := [], sent := [], ide := u.host.ide,
                           hdm := (match s.host.hdm with | some h => if h.lock then some h else none | none => none) } ∧
    u.sec = { s.sec with session := none } ∧ (∀ p ∈ u.host.ide, p.2.st ≠ .secure ∧ p.2.keys = 0) ∧
    u.word (hostB + HOST_LINK_STAT_WIDTH.off) = 0 ∧ WordsBut s u [hostB + HOST_LINK_STAT_WIDTH.off, hostB + HOST_LINK_DOWNS_COUNT.off] ∧
    u.rd hostB HOST_LINK_DOWNS_COUNT = min (2 ^ HOST_LINK_DOWNS_COUNT.w - 1) (s.rd hostB HOST_LINK_DOWNS_COUNT + 1) ∧
    s.reports ++ [s.report hostSrc 0x0103 [cause]] <+: u.reports ∧
    (∀ n < 64, (u.ring n).live = (b.ring n).live.map (fun l => { l with lost := true }) ∧ (u.ring n).sentAt = (b.ring n).sentAt ∧
      (s.isRunning n = true → (u.ring n).st = .halted ∧ (u.ring n).cause = 5 ∧ (u.ring n).cutDue = .unpublished) ∧
      (s.isRunning n = false → (u.ring n).st = (s.ring n).st ∧ (u.ring n).cause = (s.ring n).cause))

/-- LINK_UP of a link that is down and can train shows width, rate, Flit mode, CXL (32 or 64 GT/s with a host that supports it) and DEGRADED in HOST_LINK_STAT with events 0x0101, 0x0102 and 0x0104; a rate change does the same with the link up. A link-down event, nothing being asked of the host: HOST_LINK_STAT reads 0, HOST_LINK_DOWNS counts, event 0x0103 names the cause, every running ring halts with cause LINK, started descriptors, and those of records not acknowledged (a free number, log 61 of the model), are link-lost, IDE keys and the session are discarded, and the function registers of Table 13-7 take their reset values. An IDE integrity failure is cause 5. A non-posted unsupported request is answered with UR, and both kinds set their AER status bit. That events repeat at a rate change and halted rings keep their cause is log 43 of the model, the BAR4 sizes after link-down are log 22, the AER bit and the other configuration values log 70. -/
def Obligations.HostLinkComesUpAndGoesDown : Prop :=
  (∀ (width speed : Nat) (flit cxl : Bool) (s : State), s.dlUp = false → s.canTrain = true →
    let carries := cxl && decide (5 ≤ speed)
    let short := decide (width < 16 ∨ speed < 6)
    Goes (.linkUp width speed flit cxl) s (fun u =>
      u = { s with regs := u.regs, host := { s.host with cxlHost := cxl }, reports := s.reports ++
        [s.report hostSrc 0x0101 [width, speed, if flit then 1 else 0, if carries then 1 else 0]] ++ (if short then [s.report hostSrc 0x0102 [width, speed]] else []) ++
        (if carries then [] else [s.report hostSrc 0x0104 [speed]]) } ∧ WordsBut s u [hostB + HOST_LINK_STAT_WIDTH.off] ∧ u.dlUp = true ∧
      u.rd hostB HOST_LINK_STAT_WIDTH = width % 2 ^ HOST_LINK_STAT_WIDTH.w ∧ u.rd hostB HOST_LINK_STAT_SPEED = speed % 2 ^ HOST_LINK_STAT_SPEED.w ∧
      u.flag hostB HOST_LINK_STAT_FLIT = flit ∧ u.flag hostB HOST_LINK_STAT_CXL = carries ∧ u.flag hostB HOST_LINK_STAT_DEGRADED = short)) ∧
  (∀ (width speed : Nat) (flit cxl : Bool) (s : State), s.dlUp = true ∨ s.canTrain = false → exec (.linkUp width speed flit cxl) s = .next s) ∧
  (∀ (width speed : Nat) (s : State), s.dlUp = true →
    let carries := s.host.cxlHost && decide (5 ≤ speed)
    let short := decide (width < 16 ∨ speed < 6)
    Goes (.linkRateChange width speed) s (fun u =>
      u = { s with regs := u.regs, reports := s.reports ++ (if short then [s.report hostSrc 0x0102 [width, speed]] else []) ++
        (if carries then [] else [s.report hostSrc 0x0104 [speed]]) } ∧ WordsBut s u [hostB + HOST_LINK_STAT_WIDTH.off] ∧ u.dlUp = true ∧
      u.rd hostB HOST_LINK_STAT_WIDTH = width % 2 ^ HOST_LINK_STAT_WIDTH.w ∧ u.rd hostB HOST_LINK_STAT_SPEED = speed % 2 ^ HOST_LINK_STAT_SPEED.w ∧
      u.flag hostB HOST_LINK_STAT_FLIT = s.flag hostB HOST_LINK_STAT_FLIT ∧ u.flag hostB HOST_LINK_STAT_CXL = carries ∧ u.flag hostB HOST_LINK_STAT_DEGRADED = short)) ∧
  (∀ (cause : Fin 8) (s : State), s.dlUp = true → NothingAsked s → Goes (.linkDown cause) s (fun u => WentDown s u cause)) ∧
  (∀ (s : State) (n : Nat) (l : Live) (rest : List (Nat × Live)), s.host.sent = (n, l) :: rest → (s.ring n).sentAt = l.count + 1 →
    let b := State.takeBack (s.host.sent.take 1) s
    State.takeBack (s.host.sent.take 0) s = s ∧ (b.ring n).live = l :: (s.ring n).live ∧ (b.ring n).sentAt = l.count ∧ ∀ m, m ≠ n → b.ring m = s.ring m) ∧
  (∀ (stream : Nat) (s : State), s.dlUp = true → NothingAsked s → (look (fun _ => ⟨.clear, 0⟩) s.host.ide stream).st = .secure →
    let v := { s with regs := (s.raise hostB HOST_ERR_FLAGS_IDE_FAIL).regs, reports := s.reports ++ [s.report hostSrc 0x0105 [stream]] }
    Goes (.ideIntegrityFailure stream) s (fun u => WentDown v u 5)) ∧
  (∀ (width speed stream : Nat) (cause : Fin 8) (s : State), s.dlUp = false →
    exec (.linkDown cause) s = .next s ∧ exec (.linkRateChange width speed) s = .next s ∧ exec (.ideIntegrityFailure stream) s = .next s) ∧
  (∀ (posted : Bool) (s : State), if s.dlUp = true then Goes (.unsupportedRequest posted) s (fun u => UrSet s u 0 ∧ u = { s with host := { s.host with aer := u.host.aer }, out := if posted then s.out else s.out ++ [.ur] })
    else exec (.unsupportedRequest posted) s = .next s)

/-- Bus Master Enable of function `f` is set, and the host's configuration of the function has taken effect: PF0's holds for the link and for the VFs (R364, R374; log 70). -/
def Sys2Proof.Machine.Programmed (s u : State) (f : Nat) (g : FnConfig) : Prop :=
  u.bme f = true ∧ (∀ h, h ≠ f → u.bme h = s.bme h) ∧ look noMark u.host.msixOn f = g.msixOn ∧ (∀ h, h ≠ f → look noMark u.host.msixOn h = look noMark s.host.msixOn h) ∧
    u.host = { s.host with
      bme := u.host.bme, msixOn := u.host.msixOn,
      mps := if f = 0 then g.mps else s.host.mps, cplTo := if f = 0 then g.cplTo else s.host.cplTo, cplOff := if f = 0 then g.cplOff else s.host.cplOff,
      cxlIde := if f = 0 then g.cxlIde else s.host.cxlIde, mrrs := if f = 0 then g.mrrs else s.host.mrrs, extTag := if f = 0 then g.extTag else s.host.extTag, tag10 := if f = 0 then g.tag10 else s.host.tag10,
      tag14 := if f = 0 then g.tag14 else s.host.tag14, bar4 := if f = 0 then g.bar4 else s.host.bar4, vfBar4 := if f = 0 then g.vfBar4 else s.host.vfBar4,
      ideIds := if f = 0 then g.ide else s.host.ideIds }

/-- BUS_MASTER_ENABLE_CLEAR and SET change the bit of their function and of no other; SET takes the host's configuration of the function (log 70 of the model), sends a pending interrupt whose entry is not masked, and has the function's event ring write what it holds, each record at its slot with its lap parity. HDM_DECODER_COMMIT takes the base of a 768 GiB decoder unless a locked one stands (that no other size is taken is log 21 of the model). H2D_SNOOP is answered RspIHitI and changes nothing. With the link down none has an effect. -/
def Obligations.BusMasterEnableAndDecoder : Prop :=
  (∀ (f : FnId) (s : State), s.dlUp = true → (∀ r ∈ s.host.waiting, r.fn ≠ f.val) →
    Goes (.busMasterEnableClear f) s (fun u => u = { s with host := { s.host with bme := u.host.bme } } ∧ u.bme f = false ∧ ∀ g, g ≠ f.val → u.bme g = s.bme g)) ∧
  (∀ (f : FnId) (g : FnConfig) (s : State), s.dlUp = true → s.host.waiting = [] → (s.ev f).waits = false ∨ s.evOn f = false → (∀ e < 65, bit (s.msixWord f (pendOff e)) (e % 64) = false) →
    Goes (.busMasterEnableSet ⟨f, g⟩) s (fun u => Programmed s u f.val g ∧ u = { s with host := u.host })) ∧
  (∀ (f : FnId) (g : FnConfig) (s : State) (e : Nat), s.dlUp = true → s.host.waiting = [] → (s.ev f).waits = false ∨ s.evOn f = false → e < 65 →
    (∀ d < 65, bit (s.msixWord f (pendOff d)) (d % 64) = decide (d = e)) → bit (s.msixWord f (16 * e + 8)) 32 = false → g.msixOn = true →
    Goes (.busMasterEnableSet ⟨f, g⟩) s (fun u => u.bme f = true ∧ bit (u.msixWord f (pendOff e)) (e % 64) = false ∧
      u.out = s.out ++ [.msix f e (s.msixWord f (16 * e)) (s.msixWord f (16 * e + 8) % 2 ^ 32)])) ∧
  (∀ (f : FnId) (g : FnConfig) (s : State) (c : CoalEntry), s.dlUp = true → s.host.waiting = [] → (∀ e < 65, bit (s.msixWord f (pendOff e)) (e % 64) = false) →
    s.evOn f = true → (s.ev f).cuts = [] → (s.ev f).coal = [c] → c.window = false → 0 < s.evRoom f → (s.ev f).roomOut = none →
    Goes (.busMasterEnableSet ⟨f, g⟩) s (fun u => u.bme f = true ∧ (u.ev f).coal = [] ∧ (u.ev f).count = (s.ev f).count + 1 ∧ u.mem = s.mem ∧ u.tiles = s.tiles ∧ u.ccs = s.ccs ∧
      s.out ++ [.hostWrite f (s.rd hostB (EVT_BASE_ADDR.at (0x20 * f.val)) * 4096 + 32 * ((s.ev f).count % s.evSize f)) (2 ^ 32 - 1)
        (c.rec_.bytes (1 - (s.ev f).count / s.evSize f % 2)) false] <+: u.out)) ∧
  (∀ (f : FnId) (g : FnConfig) (s : State), s.dlUp = false → exec (.busMasterEnableClear f) s = .next s ∧ exec (.busMasterEnableSet ⟨f, g⟩) s = .next s) ∧
  (∀ (base : Nat) (lock : Bool) (s : State), s.dlUp = true → (∀ h, s.host.hdm = some h → h.lock = false) →
    exec (.hdmDecoderCommit base 0xC000000000 lock) s = .next { s with host := { s.host with hdm := some ⟨base, lock⟩ } }) ∧
  (∀ (base size : Nat) (lock : Bool) (s : State), s.dlUp = false ∨ (∃ h, s.host.hdm = some h ∧ h.lock = true) →
    exec (.hdmDecoderCommit base size lock) s = .next s) ∧
  (∀ (line : Nat) (s : State), Goes (.h2dSnoop line) s (fun u => u = { s with out := if s.canSnoop = true then s.out ++ [.rspIHitI line] else s.out }))

/-- The request of a host access: the youngest of its channel. -/
def Sys2Proof.Machine.hostReq (s : State) (f key : Nat) (w : Option WriteData) (ans : Answer) : Req := ⟨⟨.host, f⟩, key / 64 * 64, w, s.tsc, ans⟩

/-- The location of a host access takes accesses: it is not retired, nor cut off by card fault (R412, R418). -/
def Sys2Proof.Machine.Served (s : State) (key : Nat) : Prop :=
  key < 2 ^ 40 ∧ keyChan key < 384 ∧ s.retired (keyChan key) = false ∧ s.hostCut key = false

/-- The slot that finds this request the youngest of the pool falls on it (R80, R81). -/
def Sys2Proof.Machine.PickedNow (s : State) (r : Req) : Prop :=
  (s.cc (keyChan r.key)).escalated = false ∧ (s.accept r.who r.key r.write r.ans).pick (keyChan r.key) = some r

/-- A host access is accepted and served at once: no burst of it has failed, its columns are sound, and the trace is off (R78, R81, R103). -/
def Sys2Proof.Machine.AtOnce (s : State) (r : Req) : Prop :=
  Served s r.key ∧ s.mayTake r.who r.key = true ∧ PickedNow s r ∧ r.runs s ∧ Untraced s (keyChan r.key) ∧ Sound s r.key

/-- A host access to `key` that is served at once changes the channel's bank state, its SID's power-down bit and its escalation flag, and the pool keeps its requests; storage, the directory and what follows from it change as the statement says. -/
def Sys2Proof.Machine.HostAccess (s u : State) (key : Nat) (l : List Out) : Prop :=
  u = { s with regs := u.regs, ccs := u.ccs, mem := u.mem, reports := u.reports, host := u.host, rings := u.rings, tiles := u.tiles, out := s.out ++ l } ∧
    OtherCcs s u (keyChan key) ∧ (∀ q, q ∈ (u.cc (keyChan key)).pool ↔ q ∈ (s.cc (keyChan key)).pool) ∧
    WordsBut s u [ccB (keyChan key) + CC_ERR_FLAGS_RD_ESC.off, ccB (keyChan key) + CC_STATUS_SID_PD.off]

/-- A host access is accepted, and the slot serves another request. -/
def Sys2Proof.Machine.Later (s : State) (r : Req) : Prop :=
  Served s r.key ∧ s.mayTake r.who r.key = true ∧ Untraced s (keyChan r.key) ∧ ¬ PickedNow s r

/-- It joins its channel's pool as the youngest, to be performed by a slot. -/
def Sys2Proof.Machine.Queued (s u : State) (r : Req) : Prop :=
  OtherCcs s u (keyChan r.key) ∧ u.cc (keyChan r.key) = { s.cc (keyChan r.key) with pool := (s.cc (keyChan r.key)).pool ++ [r] } ∧
    u = { s with regs := u.regs, ccs := u.ccs, host := u.host, rings := u.rings, tiles := u.tiles, out := u.out } ∧ WordsBut s u [ccB (keyChan r.key) + CC_STATUS_SID_PD.off]

/-- Storage after a masked write of the cell at `key`. -/
def Sys2Proof.Machine.Stored (s u : State) (key : Nat) (w : WriteData) : Prop :=
  u.mem.store.half (key / 64 * 2) = halfAfter (s.mem.store.half (key / 64 * 2)) w.data.lo (w.mask.toNat % 2 ^ 32) ∧
    u.mem.store.half (key / 64 * 2 + 1) = halfAfter (s.mem.store.half (key / 64 * 2 + 1)) w.data.hi (w.mask.toNat / 2 ^ 32) ∧
    (∀ i, i ≠ key / 64 * 2 → i ≠ key / 64 * 2 + 1 → u.mem.store.half i = s.mem.store.half i) ∧ ∀ i, u.mem.err i = s.mem.err i

/-- The ownership directory after a host access that keeps a copy or not, there being room; a line that the host takes again is asked for again by those that have its answer (R371). -/
def Sys2Proof.Machine.Tracked (s u : State) (key : Nat) (keeps : Bool) : Prop :=
  let d := s.host.dir
  let line := key / 64
  if s.hostShared key = false then u.host = s.host ∧ u.rings = s.rings ∧ u.tiles = s.tiles
  else if keeps = false then u.host = { s.host with dir := d.filter (fun l => decide (l ≠ line)) } ∧ u.rings = s.rings ∧ u.tiles = s.tiles
  else
    u.host = { s.host with dir := if line ∈ d then d else d ++ [line], answered := s.host.answered.filter (fun a => decide (a.2 ≠ line)) } ∧
      u.rings = s.rings.map (fun p => (p.1, { p.2 with live := p.2.live.map (fun l => { l with copy := l.copy.map (fun r => { r with snooped := r.snooped.filter (· ≠ line) }) }) })) ∧
      u.tiles = s.tiles.map (fun p => (p.1, { p.2 with mrun := p.2.mrun.map (fun r => { r with snooped := r.snooped.filter (· ≠ line) }) }))

/-- Nothing of the host link, the rings or the tiles changes. -/
def Sys2Proof.Machine.Untracked (s u : State) : Prop := u.host = s.host ∧ u.rings = s.rings ∧ u.tiles = s.tiles

/-- A CXL.mem access within the committed decoder, or a BAR4 access within its view, that its CC takes and the slot falls on: a read returns the 64 B cell and changes no storage; a write changes exactly the enabled bytes of the cell; in a shared region a CXL.mem access enters or leaves the ownership directory as the host keeps a copy or not. One that the CC takes while the slot falls on another joins the pool; one that it does not take is presented again with nothing changed (log 69 of the model). Outside the decoder (event 0x0106 status 5) or the view (status 4, UR) nothing is accessed; before READY and in D3hot a CXL.mem read is poison and a write is discarded, and a BAR4 access outside the BAR or in D3hot is an unsupported request (logs 22 and 81; the AER bit is log 70). PF0's BAR4 view starts at its BASE in GiB. -/
def Obligations.HostAccessesReachDeviceMemory : Prop :=
  (∀ (hpa : Nat) (shared : Bool) (s : State) (a key : Nat), s.canSnoop = true → s.hdmAt hpa = some a → s.ready = true → s.host.d3hot = false → s.decodeDpa a = .at key →
    s.host.dir.length < 524288 →
    let r := hostReq s 0 key none .mem
    (AtOnce s r → Goes (.cxlMemRead hpa shared) s (fun u => HostAccess s u key [.memData (s.mem.store.cell (key / 64))] ∧ u.mem = s.mem ∧ Tracked s u key shared)) ∧
    (Later s r → Goes (.cxlMemRead hpa shared) s (fun u => Queued s u r ∧ u.out = s.out ∧ Tracked s u key shared)) ∧
    (Served s key → s.mayTake ⟨.host, 0⟩ (key / 64 * 64) = false → exec (.cxlMemRead hpa shared) s = .next s)) ∧
  (∀ (hpa : Nat) (w : WriteData) (keeps : Bool) (s : State) (a key : Nat), s.canSnoop = true → s.hdmAt hpa = some a → s.ready = true → s.host.d3hot = false → s.decodeDpa a = .at key →
    s.host.dir.length < 524288 →
    let r := hostReq s 0 key (some w) .plain
    (AtOnce s r → Goes (.cxlMemWrite hpa w keeps) s (fun u => HostAccess s u key [.memCmp] ∧ Stored s u key w ∧ Tracked s u key keeps)) ∧
    (Later s r → Goes (.cxlMemWrite hpa w keeps) s (fun u => Queued s u r ∧ u.out = s.out ++ [.memCmp] ∧ Tracked s u key keeps)) ∧
    (Served s key → s.mayTake ⟨.host, 0⟩ (key / 64 * 64) = false → exec (.cxlMemWrite hpa w keeps) s = .next s)) ∧
  (∀ (hpa : Nat) (shared keeps : Bool) (w : WriteData) (s : State), s.canSnoop = true → s.hdmAt hpa = none →
    let t := { s with reports := s.reports ++ [s.report hostSrc 0x0106 [0, 5]] }
    exec (.cxlMemRead hpa shared) s = .next { t with out := s.out ++ [.memData .bad] } ∧ exec (.cxlMemWrite hpa w keeps) s = .next { t with out := s.out ++ [.memCmp] }) ∧
  (∀ (hpa a : Nat) (shared keeps : Bool) (w : WriteData) (s : State), s.canSnoop = true → s.hdmAt hpa = some a → s.ready = false ∨ s.host.d3hot = true →
    exec (.cxlMemRead hpa shared) s = .next { s with out := s.out ++ [.memData .bad] } ∧ exec (.cxlMemWrite hpa w keeps) s = .next { s with out := s.out ++ [.memCmp] }) ∧
  (∀ (f : FnId) (off : Nat) (s : State) (key : Nat), s.dlUp = true → s.inBar4 f off = true → s.host.d3hot = false → s.ready = true → s.bar4At f off = some key →
    let r := hostReq s f key none (.bar f)
    (AtOnce s r → Goes (.bar4Read f off) s (fun u => HostAccess s u key [.barData f (s.mem.store.cell (key / 64))] ∧ u.mem = s.mem ∧ Untracked s u)) ∧
    (Later s r → Goes (.bar4Read f off) s (fun u => Queued s u r ∧ u.out = s.out ∧ Untracked s u)) ∧
    (Served s key → s.mayTake ⟨.host, f⟩ (key / 64 * 64) = false → exec (.bar4Read f off) s = .next s)) ∧
  (∀ (f : FnId) (off : Nat) (w : WriteData) (s : State) (key : Nat), s.dlUp = true → s.inBar4 f off = true → s.host.d3hot = false → s.ready = true → s.bar4At f off = some key →
    let r := hostReq s f key (some w) .plain
    (AtOnce s r → Goes (.bar4Write f off w) s (fun u => HostAccess s u key [] ∧ Stored s u key w ∧ Untracked s u)) ∧
    (Later s r → Goes (.bar4Write f off w) s (fun u => Queued s u r ∧ u.out = s.out ∧ Untracked s u)) ∧
    (Served s key → s.mayTake ⟨.host, f⟩ (key / 64 * 64) = false → exec (.bar4Write f off w) s = .next s)) ∧
  (∀ (f : FnId) (off : Nat) (w : WriteData) (s : State), s.dlUp = true → s.inBar4 f off = true → s.host.d3hot = false → s.bar4At f off = none →
    let t := { s with reports := s.reports ++ [s.report hostSrc 0x0106 [f.val, 4]] }
    Goes (.bar4Read f off) s (fun u => UrSet s u f ∧ u = { t with host := { s.host with aer := u.host.aer }, out := s.out ++ [.ur] }) ∧ exec (.bar4Write f off w) s = .next t) ∧
  (∀ (f : FnId) (off : Nat) (w : WriteData) (s : State), s.dlUp = true → s.inBar4 f off = false ∨ s.host.d3hot = true →
    Goes (.bar4Read f off) s (fun u => UrSet s u f ∧ u = { s with host := { s.host with aer := u.host.aer }, out := s.out ++ [.ur] }) ∧ exec (.bar4Write f off w) s = .next s) ∧
  (∀ (off : Nat) (s : State), (s.rd hostB HOST_BAR4_MAP_BASE * 2 ^ 30 + off / 64 * 64) < 12 * 2 ^ 36 →
    s.bar4At 0 off = some (s.rd hostB HOST_BAR4_MAP_BASE * 2 ^ 30 + off / 64 * 64))

/-- HOST_COMPLETION of a tag in use, no request waiting: data of the wrong length is no answer; the request ends; a dropped one is discarded; an error sets CPL_ERR with event 0x0106, and ends the COPY that asked with status HOST_ERR at its unit; data reaches the cells that a move still wants; COMPLETION_TIMEOUT is error 3, and none while its disable bit is set; an answer to a move waits while the seam link holds it; AER status bits are those of log 70 of the model. BISNP_RESPONSE stores a write-back, ends the question and, for an invalidation, the directory entry. BIAS_CHANGE starts a job, or sets REFUSED for a closed window, a region beyond the last, or one that is so already; BIAS_CHANGE_COMPLETE flips the region once nothing holds it, with event 0x0109, and when it becomes shared every tile's read cache and prefetch buffer are emptied. A write-back that its CC does not take is presented again (log 69); one to a channel that is being molted is dropped. -/
def Obligations.HostAnswersAndBiasChanges : Prop :=
  (∀ (tag status : Nat) (data : List Half) (s : State), s.host.reads.find? (fun r => decide (r.tag = tag)) = none →
    exec (.hostCompletion tag status data) s = .next s ∧ exec (.completionTimeout tag) s = .next s) ∧
  (∀ (tag status : Nat) (data : List Half) (s : State) (r : HostRead), s.host.reads.find? (fun r => decide (r.tag = tag)) = some r → s.host.waiting = [] →
    let v : State := { s with host := { s.host with reads := s.host.reads.erase r } }
    let ended := fun (u : State) (st : Nat) => u.host = { v.host with aer := u.host.aer } ∧ (∀ g, g ≠ r.fn → look noAer u.host.aer g = look noAer s.host.aer g) ∧
      look noAer u.host.aer r.fn = look noAer s.host.aer r.fn ||| (if st = 2 then 0x8000 else if st = 3 then 0x4000 else 0)
    let failed := fun (u : State) (st : Nat) => ended u st ∧ WordsBut s u [hostB + HOST_ERR_FLAGS_CPL_ERR.off] ∧ u.flag hostB HOST_ERR_FLAGS_CPL_ERR = true ∧
      s.reports ++ [s.report hostSrc 0x0106 [r.fn, st]] <+: u.reports
    (status = 0 → data.length ≠ 2 * r.units → exec (.hostCompletion tag status data) s = .next s) ∧
    (r.user = .dropped → status = 0 → data.length = 2 * r.units → exec (.hostCompletion tag status data) s = .next v) ∧
    (r.user = .dropped → 1 ≤ status → status ≤ 3 → Goes (.hostCompletion tag status data) s (fun u => u = { v with host := u.host, regs := u.regs, reports := u.reports } ∧ failed u status)) ∧
    (s.host.cplOff = true → exec (.completionTimeout tag) s = .next s) ∧
    (s.host.cplOff = false → r.user = .dropped → Goes (.completionTimeout tag) s (fun u => u = { v with host := u.host, regs := u.regs, reports := u.reports } ∧ failed u 3)) ∧
    (∀ n c d run, r.user = .copy n c → s.copyRun n c = some (d, run) → 1 ≤ status → status ≤ 3 → Goes (.hostCompletion tag status data) s (fun u =>
      u = { v with host := u.host, regs := u.regs, rings := u.rings, reports := u.reports } ∧ failed u status ∧ s.report ringSrc 0x0204 [n, s.seqOf n c, 3, status + 64 * run.unit] ∈ u.reports ∧
      (∀ m, m ≠ n → u.ring m = s.ring m) ∧ u.ring n = { s.ring n with live := (s.ring n).live.map (fun l =>
        if l.count = c then { l with copy := none, done := some ⟨3, status + 64 * run.unit, s.tsc⟩ } else l) })) ∧
    (∀ t run, r.user = .move t → (s.tile t).mrun = some run → s.seamHeld 0 (tileDie t) = false → status = 0 → data.length = 2 * r.units →
      let new := ((List.range r.units).map (fun i => (r.addr / 64 + i, GotCell.data ((pairHalves data).getD i .bad)))).filter (fun c => run.wants.contains c.1)
      let rest := run.wants.filter (fun w => !new.any (fun c => decide (c.1 = w)))
      rest ≠ [] → Goes (.hostCompletion tag status data) s (fun u => u = { v with tiles := u.tiles } ∧ OtherTiles s u t ∧
        u.tile t = { s.tile t with mrun := some { run with got := run.got ++ new, wants := rest } })) ∧
    (∀ t, r.user = .move t → s.seamHeld 0 (tileDie t) = true → ∃ h, exec (.hostCompletion tag status data) s = .next { s with host := h } ∧ h = { s.host with aer := h.aer })) ∧
  (∀ (line : Nat) (wb : Option Cell64) (s : State), s.host.snoops.find? (fun q => decide (q.line = line)) = none → exec (.bisnpResponse line wb) s = .next s) ∧
  (∀ (line : Nat) (s : State) (q : Snoop), s.host.snoops.find? (fun q => decide (q.line = line)) = some q → q.waiters = [] → Settled s → s.flag hostB FLT_MOLT_STAT_BUSY = false → s.host.biasJob = none →
    let h : HostSt := { s.host with snoops := s.host.snoops.erase q, dir := if q.inv then s.host.dir.filter (fun l => decide (l ≠ line)) else s.host.dir }
    exec (.bisnpResponse line none) s = .next { s with host := h } ∧
    ∀ d, let r := hostReq s 0 (64 * line) (some (.whole d)) .plain
      (s.molting (keyChan (64 * line)) = true → exec (.bisnpResponse line (some d)) s = .next { s with host := h }) ∧
      (s.molting (keyChan (64 * line)) = false → Served s (64 * line) → s.mayTake ⟨.host, 0⟩ (64 * line) = false → exec (.bisnpResponse line (some d)) s = .next s) ∧
      (Later s r → Goes (.bisnpResponse line (some d)) s (fun u => Queued s u r ∧ u.host = h ∧ u.rings = s.rings ∧ u.tiles = s.tiles ∧ u.out = s.out)) ∧
      (AtOnce s r → Goes (.bisnpResponse line (some d)) s (fun u => HostAccess s u (64 * line) [] ∧ Stored s u (64 * line) (.whole d) ∧ u.host = h ∧ u.rings = s.rings ∧ u.tiles = s.tiles))) ∧
  (∀ (region : Nat) (sh : Bool) (s : State), Writable s (hostB + 0x300) → s.flag hostB HOST_BIAS_STAT_BUSY = false → region < 65536 →
    (49152 ≤ region ∨ s.windowOpen = false ∨ look noMark s.host.bias region = sh → Goes (.biasChange 0 region sh) s (fun u =>
      OnlyWords s u [hostB + 0x300, hostB + HOST_BIAS_STAT_BUSY.off] ∧ u.flag hostB HOST_BIAS_STAT_REFUSED = true ∧ u.flag hostB HOST_BIAS_STAT_BUSY = false)) ∧
    (region < 49152 → s.windowOpen = true → look noMark s.host.bias region = !sh → sh = true ∨ s.regionLines region = [] → Goes (.biasChange 0 region sh) s (fun u =>
      u = { s with regs := u.regs, host := { s.host with biasJob := some ⟨region, sh⟩ } } ∧ WordsBut s u [hostB + 0x300, hostB + HOST_BIAS_STAT_BUSY.off] ∧
      u.flag hostB HOST_BIAS_STAT_BUSY = true))) ∧
  (∀ s : State, s.host.biasJob = none → exec .biasChangeComplete s = .next s) ∧
  (∀ (s : State) (j : BiasJob), s.host.biasJob = some j →
    (j.shared = true → s.regionBusy j.region = true → exec .biasChangeComplete s = .next s) ∧
    ((if j.shared then s.regionBusy j.region = false else s.regionLines j.region = []) → Settled s → s.tileKeys.Nodup →
      Goes .biasChangeComplete s (fun u =>
        u = { s with regs := u.regs, tiles := u.tiles, reports := u.reports, host := { s.host with bias := u.host.bias, biasJob := none } } ∧
        s.report hostSrc 0x0109 [j.region, if j.shared then 1 else 0] ∈ u.reports ∧ s.reports <+: u.reports ∧
        WordsBut s u ((hostB + HOST_BIAS_STAT_BUSY.off) :: if j.shared then s.tileKeys.map (fun k => tileB k + (TILE_PFM_COUNT.at 0x18).off) else []) ∧
        u.flag hostB HOST_BIAS_STAT_BUSY = false ∧ u.flag hostB HOST_BIAS_STAT_DONE = true ∧
        (∀ r, look noMark u.host.bias r = if r = j.region then j.shared else look noMark s.host.bias r) ∧
        ∀ k, u.tile k = if j.shared ∧ k ∈ s.tileKeys then { s.tile k with rc := [], rcKeep := false, pf := [], pfFlight := (s.tile k).pfFlight.map (fun p => { p with stale := true }) } else s.tile k)))

/-! ### Resets -/

/-- Tile `t` has been reset (R264, Table 7-1): it keeps its scratchpad bytes and instruction memory, its semaphores and stream counters are 0 and it has no fault; `held` says that it stays in reset. -/
def Sys2Proof.Machine.WasReset (s u : State) (t : Nat) (held : Bool) : Prop :=
  u.tile t = { (s.tile t).afterReset with inReset := held } ∧ (∀ k < 32, u.sem t k = 0) ∧ (∀ i < 16, u.scP t i = 0 ∧ u.scC t i = 0) ∧ u.faulted t = false

/-- No channel of partition `k` has a pass. -/
def Sys2Proof.Machine.NoPass (s : State) (k : Nat) : Prop :=
  ∀ c < 384, s.stackOwner (c / 32) = k → (s.cc c).queue = [] ∧ (s.cc c).ingress = [] ∧ (s.cc c).active = none ∧ (s.cc c).pim = false

/-- Partition `k` has been reset; its rings have halted; no device storage and no scratchpad of another tile has changed. -/
def Sys2Proof.Machine.PartWasReset (s u : State) (k : Nat) (held : Bool) : Prop :=
  u.host.resetting = [] ∧ u.flag hostB FLT_RST_STAT_BUSY = false ∧ (∀ t, s.enabled t = true → s.tileOwner t = k → WasReset s u t held) ∧ (∀ n < 64, s.ringOwner n = k → u.isRunning n = false) ∧ u.mem = s.mem ∧
    (∀ t, (s.enabled t = false ∨ s.tileOwner t ≠ k) → (u.tile t).spad = (s.tile t).spad ∧ (u.tile t).inReset = (s.tile t).inReset) ∧
    s.report ringSrc 0x068C [2, k] ∈ u.reports ∧ s.reports <+: u.reports ∧ u.flag hostB FLT_RST_STAT_DONE = true

/-- TILE_RESET, PARTITION_RESET and FLR complete in every state that takes them, with the rings concerned halted. After TILE_RESET of an enabled tile, and after PARTITION_RESET, FLR and D3HOT_ENTRY where no channel of the partition has a pass (the last step waits for active passes to end), each enabled tile of theirs keeps its scratchpad bytes and instruction memory and takes its reset state otherwise, with its semaphores and stream counters 0 and no fault; the rings that feed it are halted; FLT_RST_STAT.DONE and event 0x068C say so. FLR clears Bus Master Enable and MSI-X of its function, of every function for PF0, and keeps the HDM decoder. After D3HOT_ENTRY the tiles stay in reset until D3HOT_EXIT. Device storage and the scratchpads of other tiles stay. -/
def Obligations.ResetsReturnTilesToTheirStart : Prop :=
  (∀ (t : TileId) (s : State), Writable s (hostB + 0x6030) → s.flag hostB FLT_RST_STAT_BUSY = false → s.latest (hostB + 0x6030) < 2 ^ 32 → s.enabled t.toNat = true →
    Goes (.tileReset 0 t) s (fun u => WasReset s u t.toNat s.holdsTiles ∧ (∀ n < 64, n ∈ s.tileRings t.toNat → u.isRunning n = false) ∧ (∀ r ∈ u.recsOut, r.1 ≠ t.toNat) ∧ u.mem = s.mem ∧
      (∀ k, k ≠ t.toNat → (u.tile k).spad = (s.tile k).spad ∧ (u.tile k).inReset = (s.tile k).inReset) ∧
      s.report ringSrc 0x068C [1, t.toNat] ∈ u.reports ∧ s.reports <+: u.reports ∧ u.flag hostB FLT_RST_STAT_DONE = true ∧ u.rd hostB FLT_RST_CMD_TILE = t.toNat)) ∧
  (∀ (k : Nat) (s : State), Writable s (hostB + 0x6030) → s.flag hostB FLT_RST_STAT_BUSY = false → s.latest (hostB + 0x6030) < 2 ^ 32 → 1 ≤ k → k ≤ 8 →
    (∃ u, exec (.partitionReset 0 k) s = .next u ∧ (∀ n < 64, s.ringOwner n = k → u.isRunning n = false) ∧ u.rd hostB FLT_RST_CMD_PART = k) ∧
    (s.host.resetting = [] → NoPass s k → Goes (.partitionReset 0 k) s (fun u => PartWasReset s u k s.holdsTiles))) ∧
  (∀ (k : Nat) (s : State), s.host.resetting = [k] →
    (s.passesEnded k = false → s.settleResets = s) ∧ (s.passesEnded k = true → s.settleResets = { s with host := { s.host with resetting := [] } }.partResetEnd k)) ∧
  (∀ (f : FnId) (s : State), s.dlUp = true → ∃ u, exec (.flr f) s = .next u ∧ u.bme f = false ∧ ∀ n < 64, s.ringOwner n = f.val → u.isRunning n = false) ∧
  (∀ (f : FnId) (s : State), s.dlUp = true → f.val ≠ 0 → s.host.resetting = [] → NoPass s f → (∀ r ∈ s.host.reads ++ s.host.waiting, ∀ n c, r.fn = f.val → r.user ≠ .copy n c) →
    Goes (.flr f) s (fun u => PartWasReset s u f s.holdsTiles ∧ s.report hostSrc 0x0108 [f.val] ∈ u.reports ∧ u.bme f = false ∧ (∀ g, g ≠ f.val → u.bme g = s.bme g) ∧ look noMark u.host.msixOn f = false ∧
      (∀ o < 0x2000, u.msixWord f o = (msixInit (0x2000 * f.val + o)).toNat) ∧ u.host.hdm = s.host.hdm)) ∧
  (∀ s : State, s.dlUp = true → s.host.d3hot = false → s.host.resetting = [] → (∀ k < 9, NoPass s k) → (∀ r ∈ s.host.reads ++ s.host.waiting, ∀ n c, r.user ≠ .copy n c) →
    Goes (.flr 0) s (fun u => (∀ t, s.enabled t = true → WasReset s u t s.holdsTiles) ∧ (∀ g, u.bme g = false) ∧ u.host.msix = [] ∧ u.host.msixOn = [] ∧ u.host.hdm = s.host.hdm ∧ u.mem = s.mem ∧
      s.report hostSrc 0x0108 [0] ∈ u.reports)) ∧
  (∀ s : State, s.dlUp = true → s.host.d3hot = false → s.host.resetting = [] → (∀ k < 9, NoPass s k) →
    Goes .d3hotEntry s (fun u => (∀ t, s.enabled t = true → WasReset s u t true) ∧ u.host.d3hot = true ∧ u.mem = s.mem)) ∧
  (∀ s : State, s.dlUp = true → s.host.d3hot = true →
    Goes .d3hotExit s (fun u => u = { s with tiles := u.tiles, host := { s.host with d3hot := false } } ∧
      ∀ t, u.tile t = if s.enabled t = true ∧ s.flag hostB FLT_CARD_CARD_FAULT = false then { s.tile t with inReset := false } else s.tile t)) ∧
  (∀ (f : FnId) (s : State), s.dlUp = false → exec (.flr f) s = .next s ∧ exec .d3hotEntry s = .next s ∧ exec .d3hotExit s = .next s)

/-! ### Rings -/

/-- How many of the descriptors `l`, in order from count `c` on, carry the SEQ and PHASE that ring `n` expects. -/
def Sys2Proof.Machine.leading (s : State) (n : Nat) : Nat → List (BitVec 512) → Nat
  | _, [] => 0
  | c, d :: l => if Desc.seq d = s.seqOf n c ∧ Desc.phase d = s.phaseOf n c then 1 + leading s n (c + 1) l else 0

/-- A read of `k` descriptors of ring `n` from the next one on: its requests under the owner's requester ID with tags that no request holds, and what a completion error records (R364, R374, R375, R391). -/
def Sys2Proof.Machine.ReadOf (s u : State) (n k status : Nat) : Prop :=
  let l := splitReads s.host.mrrs (k + 1) (s.ringRd n RING_SQ_BASE_ADDR * 4096 + 64 * ((s.ring n).fetchAt % s.ringSize n)) (64 * k)
  u = { s with regs := u.regs, rings := u.rings, reports := u.reports, out := u.out } ∧ (∀ m, m ≠ n → u.ring m = s.ring m) ∧
    (∃ tags : List Nat, tags.length = l.length ∧ tags.Nodup ∧ (∀ i ∈ tags, i ∉ s.tagsHeld) ∧
      u.out = s.out ++ (tags.zip l).map (fun p => .hostRead (s.ringOwner n) p.1 p.2.1 p.2.2)) ∧
    (1 ≤ status ∧ status ≤ 3 → u.flag hostB HOST_ERR_FLAGS_CPL_ERR = true ∧ s.report hostSrc 0x0106 [s.ringOwner n, status] ∈ u.reports) ∧
    (status = 0 ∨ 3 < status → u.word (hostB + HOST_ERR_FLAGS_CPL_ERR.off) = s.word (hostB + HOST_ERR_FLAGS_CPL_ERR.off)) ∧ s.reports <+: u.reports

/-- The ring has accepted the `m` first of the descriptors `l`. -/
def Sys2Proof.Machine.RingSt.accepted (r : RingSt) (m : Nat) (l : List (BitVec 512)) : RingSt :=
  { r with fetched := r.fetched ++ (List.range m).map (fun i => (r.fetchAt + i, l.getD i 0)), fetchAt := r.fetchAt + m }

/-- A doorbell write at offset 0xFF8 is an event-head doorbell, and one at any other offset but 0, or in D3hot, does nothing. A doorbell of a size other than 8 B, or for a ring that does not run, from a function that does not own it, or not ahead by less than 2^31 is counted as ignored; one consistent with SIZE advances SEQ and tail; any other halts the ring with cause DOORBELL and event 0x0203. A read of up to 16 descriptors, requested at the ring's base under the owner's ID, accepts those that carry the expected SEQ and PHASE in order; the rest are read again together (the count of re-reads as in log 60 of the model, and what HALT and STALE do with fetched descriptors as in log 52, both DEDUCED), and the eighth mismatch of one halts the ring with cause STALE and event 0x0202. START, RESUME, RESET and HALT by PF0 change the state of their ring, in the states that take them, with events 0x0205 and 0x0201. No other ring changes. -/
def Obligations.RingsTakeDoorbellsAndCommands : Prop :=
  (∀ (f : FnId) (n : RingId) (off size : Nat) (data : Word) (s : State), (off ≠ 0 → off ≠ 0xFF8 → exec (.submissionDoorbell f ⟨n, off⟩ size data) s = .next s) ∧
    exec (.submissionDoorbell f ⟨n, 0xFF8⟩ size data) s = exec (.eventHeadDoorbell f n size data) s ∧
    (s.host.d3hot = true → exec (.submissionDoorbell f ⟨n, off⟩ size data) s = .next s) ∧
    (s.host.d3hot = false → size ≠ 8 → Goes (.submissionDoorbell f ⟨n, 0⟩ size data) s (fun u =>
      u = { s with regs := u.regs, reports := u.reports } ∧ WordsBut s u [hostB + RING_DB_IGN_COUNT.off] ∧ Counted s u hostB RING_DB_IGN_COUNT 1))) ∧
  (∀ (f : FnId) (n : RingId) (data : Word) (s : State), s.host.d3hot = false →
    let k := n.val
    let r := s.ring k
    let tail := bitsOf data.toNat 0 16
    let seq := bitsOf data.toNat 32 32
    let delta := (seq + 2 ^ 32 - r.acc) % 2 ^ 32
    let ahead := (r.acc + 2 ^ 32 - s.ringDone k) % 2 ^ 32 + delta
    let mine := f.val = 0 ∨ f.val = s.ringOwner k
    (¬ mine ∨ s.isRunning k = false ∨ delta = 0 ∨ 2 ^ 31 ≤ delta → Goes (.submissionDoorbell f ⟨n, 0⟩ 8 data) s (fun u =>
      u = { s with regs := u.regs, reports := u.reports } ∧ WordsBut s u [hostB + RING_DB_IGN_COUNT.off] ∧ Counted s u hostB RING_DB_IGN_COUNT 1)) ∧
    (mine → s.isRunning k = true → 0 < delta → delta < 2 ^ 31 → tail = (r.tail + delta) % s.ringSize k → ahead ≤ s.ringSize k →
      Goes (.submissionDoorbell f ⟨n, 0⟩ 8 data) s (fun u => u = { s with rings := u.rings } ∧ (∀ m, m ≠ k → u.ring m = s.ring m) ∧ u.ring k = { r with acc := seq, tail := tail })) ∧
    (mine → s.isRunning k = true → 0 < delta → delta < 2 ^ 31 → tail ≠ (r.tail + delta) % s.ringSize k ∨ s.ringSize k < ahead →
      Goes (.submissionDoorbell f ⟨n, 0⟩ 8 data) s (fun u => u = { s with regs := u.regs, rings := u.rings, reports := u.reports } ∧ (∀ m, m ≠ k → u.ring m = s.ring m) ∧
        (u.ring k).st = .halted ∧ (u.ring k).cause = 3 ∧ (u.ring k).live = r.live ∧ (u.ring k).acc = r.acc ∧ s.report ringSrc 0x0203 [k, tail, seq] ∈ u.reports ∧
        WordsBut s u [hostB + RING_ERR_FLAGS_DB_BAD.off] ∧ u.flag hostB RING_ERR_FLAGS_DB_BAD = true))) ∧
  (∀ (n : RingId) (status : Nat) (data : List (BitVec 512)) (s : State), let k := s.readSize n
    let r := s.ring n
    let m := if status = 0 then leading s n r.fetchAt (data.take k) else 0
    let may := s.mayFetch n k = true ∧ r.short = 0 ∧ s.unread n = true ∧ (status = 0 → k ≤ data.length)
    (¬ may → exec (.descriptorFetch n status data) s = .next s) ∧
    (may → Goes (.descriptorFetch n status data) s (fun u => ReadOf s u n k status ∧ WordsBut s u [hostB + HOST_ERR_FLAGS_CPL_ERR.off] ∧
      u.ring n = { r.accepted m data with short := k - m }))) ∧
  (∀ (n : RingId) (status : Nat) (data : List (BitVec 512)) (s : State), let r := s.ring n
    let m := if status = 0 then leading s n r.fetchAt (data.take r.short) else 0
    let may := s.mayFetch n r.short = true ∧ r.short ≠ 0 ∧ (status = 0 → r.short ≤ data.length)
    (¬ may → exec (.descriptorReread n status data) s = .next s) ∧
    (may → Goes (.descriptorReread n status data) s (fun u => ReadOf s u n r.short status ∧
      WordsBut s u [hostB + HOST_ERR_FLAGS_CPL_ERR.off, hostB + RING_REREADS_COUNT.off] ∧ Counted s u hostB RING_REREADS_COUNT 1 ∧
      (0 < m → u.ring n = { r.accepted m data with short := r.short - m, rereads := 0 }) ∧
      (m = 0 → r.rereads < 7 → u.ring n = { r with rereads := r.rereads + 1 }) ∧
      (m = 0 → 7 ≤ r.rereads → (u.ring n).st = .halted ∧ (u.ring n).cause = 2 ∧ (u.ring n).live = r.live ∧ (u.ring n).fetched = r.fetched ∧
        s.report ringSrc 0x0202 [n, r.fetchAt % s.ringSize n, s.seqOf n r.fetchAt, Desc.seq (data.headD 0)] ∈ u.reports)))) ∧
  (∀ (n : RingId) (s : State), let k := n.val
    let r := s.ring k
    Writable s (hostB + 0x4020 + 0x40 * k) →
    let only := fun (u : State) => u = { s with rings := u.rings, reports := u.reports } ∧ (∀ m, m ≠ k → u.ring m = s.ring m)
    (r.st = .disabled → s.ready = true → Goes (.ringStart 0 n) s (fun u => only u ∧ u.reports = s.reports ++ [s.report ringSrc 0x0205 [k, 1, 0]] ∧
      u.ring k = { RingSt.init with st := .running, acc := (s.ringRd k RING_SEQ0_SEQ0 + 2 ^ 32 - 1) % 2 ^ 32 })) ∧
    (r.st = .halted → r.cutDue = .no → r.cause ≠ 5 ∨ s.hostLive (s.ringOwner k) = true → Goes (.ringResume 0 n) s (fun u => only u ∧
      u.reports = s.reports ++ [s.report ringSrc 0x0205 [k, 2, (r.live.filter (·.lost)).length]] ∧ u.ring k = { r with st := .running, cause := 0, short := 0, rereads := 0, flush := true })) ∧
    (r.st ≠ .running → r.inflight = 0 → Goes (.ringReset 0 n) s (fun u => only u ∧ u.reports = s.reports ∧ u.ring k = RingSt.init)) ∧
    (r.st = .running → Goes (.ringHalt 0 n) s (fun u => only u ∧ (u.ring k).st = .halted ∧ (u.ring k).cause = 1 ∧ (u.ring k).live = r.live ∧ (u.ring k).fetchAt = r.startAt ∧
      u.reports = s.reports ++ [s.report ringSrc 0x0201 [k, 1, r.startAt % s.ringSize k, s.seqOf k r.startAt]])))

/-- The next accepted descriptor of ring `n`, of type `ty`, with count `c`, may start and is valid (R384, R392). -/
def Sys2Proof.Machine.Starts (s : State) (n ty c : Nat) (d : BitVec 512) (rest : List (Nat × BitVec 512)) : Prop :=
  (s.ring n).fetched = (c, d) :: rest ∧ Desc.ty d = ty ∧ s.mayStart n d = true ∧ invalidAt d = none ∧ ∀ l ∈ (s.ring n).live, l.count ≠ c

/-- It has started, and is live as `x` says; no other ring has changed. -/
def Sys2Proof.Machine.Started (s u : State) (n c : Nat) (rest : List (Nat × BitVec 512)) (x : Live) : Prop :=
  (∀ m, m ≠ n → u.ring m = s.ring m) ∧ u.ring n = { s.ring n with fetched := rest, startAt := c + 1, live := (s.ring n).live ++ [x] }

/-- The next accepted descriptor that may start leaves the fetched ones and is live: NOP is complete with OK; STREAM sends its record to its tile, or is complete with TILE_UNAVAIL and the reason; SIGNAL and FENCE stay open, a FENCE with an entry of its own ring, of another owner or of a disabled ring being INVALID with the entry's offset; a reserved type or field is INVALID with the offset of the first one. A status other than OK raises event 0x0204. No other ring and nothing else changes; with nothing fetched no descriptor starts. -/
def Obligations.DescriptorsStart : Prop :=
  ∀ (n : RingId) (s : State) (c : Nat) (d : BitVec 512) (rest : List (Nat × BitVec 512)),
    let k := n.val
    let with_ := fun (e : Option Completion) => Live.mk c d e none false
    let ends := fun (u : State) (status detail : Nat) => u = { s with rings := u.rings, reports := u.reports } ∧ Started s u k c rest (with_ (some ⟨status, detail, s.tsc⟩)) ∧
      u.reports = if status = 0 then s.reports else s.reports ++ [s.report ringSrc 0x0204 [k, s.seqOf k c, status, detail]]
    (Starts s k 0 c d rest → Goes (.descriptorNop n) s (fun u => ends u 0 0)) ∧
    (Starts s k 1 c d rest → let t := Desc.tile d
      (s.unavailable k t ≠ 0 → Goes (.descriptorStream n) s (fun u => ends u 6 (s.unavailable k t))) ∧
      (s.unavailable k t = 0 → Goes (.descriptorStream n) s (fun u => Started s u k c rest (with_ none) ∧
        u = { s with rings := u.rings, recsOut := s.recsOut ++ [(t, ⟨0, Desc.at_ d 16 8, Desc.at_ d 24 4, k, c, Desc.seq d + k * 2 ^ 32, false⟩)] }))) ∧
    (Starts s k 4 c d rest → Goes (.descriptorSignal n) s (fun u => u = { s with rings := u.rings } ∧ Started s u k c rest (with_ none))) ∧
    (Starts s k 5 c d rest →
      ((∀ i < 6, s.badEntry k d i = false) → Goes (.descriptorFence n) s (fun u => u = { s with rings := u.rings } ∧ Started s u k c rest (with_ none))) ∧
      (∀ i < 6, s.badEntry k d i = true → (∀ j < i, s.badEntry k d j = false) → Goes (.descriptorFence n) s (fun u => ends u 1 (16 + 8 * i)))) ∧
    (∀ b, (s.ring k).fetched = (c, d) :: rest → s.mayStart k d = true → invalidAt d = some b → Desc.ty d = 0 ∨ 5 < Desc.ty d → (∀ l ∈ (s.ring k).live, l.count ≠ c) →
      Goes (.descriptorNop n) s (fun u => ends u 1 b)) ∧
    ((s.ring k).fetched = [] → exec (.descriptorNop n) s = .next s ∧ exec (.descriptorStream n) s = .next s ∧ exec (.descriptorCopy n) s = .next s ∧
      exec (.descriptorFill n) s = .next s ∧ exec (.descriptorSignal n) s = .next s ∧ exec (.descriptorFence n) s = .next s)

/-- The bank can be opened `n` times more before any of its rows is due a neighbour refresh (R91, R93). -/
def Sys2Proof.Machine.Calm (s : State) (c bank n : Nat) : Prop :=
  n < s.rd (ccB c) CC_RD_CTRL_THRESHOLD ∧ n < s.rd (ccB c) CC_RD_CTRL_ESCALATE ∧
    ∀ e ∈ look (fun _ => []) (s.cc c).dist bank, e.count + n < s.rd (ccB c) CC_RD_CTRL_THRESHOLD ∧ e.count + n < s.rd (ccB c) CC_RD_CTRL_ESCALATE

/-- The CC serves the host port's accesses to this location as they come: nothing else waits in its pool, no pass, panic or escalated refresh goes before them, and it takes them (R77, R80, R81). -/
def Sys2Proof.Machine.Idle (s : State) (f c key : Nat) (user : ReadUser) : Prop :=
  (s.cc c).pool = [] ∧ (∀ x ∈ (s.cc c).landed, x.1 ≠ user) ∧ (s.cc c).active = none ∧ (s.cc c).panic = false ∧ (s.cc c).escalated = false ∧
    s.flag (ccB c) CC_SCHED_CTRL_MODE = false ∧ s.mayTake ⟨.host, f⟩ key = true ∧ Untraced s c

/-- The units of the device location that a COPY or FILL of `len` bytes from `a` names: distinct, mapped, allowed, sound, and served as they come. -/
def Sys2Proof.Machine.UnitsAt (s : State) (n c a len : Nat) (write : Bool) (key : Nat → Nat) : Prop :=
  (∀ i < len / 64, s.decodeDpa (a + 64 * i) = .at (key i) ∧ key i % 64 = 0 ∧ s.ringRefused n (a + 64 * i) = false ∧ Served s (key i) ∧
      Idle s (s.ringOwner n) (keyChan (key i)) (key i) (.copy n c) ∧ Kept s (key i) write ∧ Sound s (key i) ∧
      s.needsSnoop (key i) [] = false ∧ s.biasHeld (key i) = false ∧ Calm s (keyChan (key i)) (keyBank (key i)) (2 * (len / 64))) ∧
    ∀ i < len / 64, ∀ j < len / 64, key i = key j → i = j

/-- DESCRIPTOR_FILL over device memory that is mapped and allowed, each unit served by its CC as it comes, writes its 64 B of pattern to each unit and completes with OK; DESCRIPTOR_COPY from device to device memory, the units distinct, writes to each destination unit the 64 B of its source unit, poison included, and completes with OK, or with POISON and the number of units that held poison; no other unit of storage changes. A COPY from host memory, its ring's function live and read tags free, asks for the bytes up to MRRS or the end of the 4 KiB page and waits. No other ring changes. -/
def Obligations.CopyAndFillMoveTheirUnits : Prop :=
  (∀ (n : RingId) (s : State) (c : Nat) (d : BitVec 512) (rest : List (Nat × BitVec 512)) (key : Nat → Nat),
    let k := n.val
    Starts s k 3 c d rest → UnitsAt s k c (Desc.at_ d 16 8) (Desc.len d) true key →
    Goes (.descriptorFill n) s (fun u => Started s u k c rest ⟨c, d, some ⟨0, 0, s.tsc⟩, none, false⟩ ∧
      u = { s with regs := u.regs, ccs := u.ccs, mem := u.mem, rings := u.rings, reports := u.reports } ∧
      (∀ i < Desc.len d / 64, u.mem.store.cell (key i / 64) = fillCell d) ∧
      ∀ h, (∀ i < Desc.len d / 64, h / 2 ≠ key i / 64) → u.mem.store.half h = s.mem.store.half h)) ∧
  (∀ (n : RingId) (s : State) (c : Nat) (d : BitVec 512) (rest : List (Nat × BitVec 512)) (src dst : Nat → Nat),
    let k := n.val
    Starts s k 2 c d rest → Desc.fromDev d = true → Desc.toDev d = true → UnitsAt s k c (Desc.at_ d 16 8) (Desc.len d) false src → UnitsAt s k c (Desc.at_ d 24 8) (Desc.len d) true dst →
    (∀ i < Desc.len d / 64, ∀ j < Desc.len d / 64, src i ≠ dst j) →
    Goes (.descriptorCopy n) s (fun u =>
      u = { s with regs := u.regs, ccs := u.ccs, mem := u.mem, rings := u.rings, reports := u.reports } ∧
      (∀ i < Desc.len d / 64, u.mem.store.cell (dst i / 64) = s.mem.store.cell (src i / 64)) ∧
      (∀ h, (∀ i < Desc.len d / 64, h / 2 ≠ dst i / 64) → u.mem.store.half h = s.mem.store.half h) ∧
      let bad := ((List.range (Desc.len d / 64)).filter (fun i => (s.mem.store.cell (src i / 64)).lo.isNone || (s.mem.store.cell (src i / 64)).hi.isNone)).length
      Started s u k c rest ⟨c, d, some ⟨if bad = 0 then 0 else 4, bad, s.tsc⟩, none, false⟩)) ∧
  (∀ (n : RingId) (s : State) (c : Nat) (d : BitVec 512) (rest : List (Nat × BitVec 512)),
    let k := n.val
    Starts s k 2 c d rest → Desc.fromDev d = false → s.hostLive (s.ringOwner k) = true → s.host.waiting = [] →
    s.mayRead 64 = true →
    let bytes := min (Desc.len d) (min s.host.mrrs (4096 - Desc.at_ d 16 8 % 4096))
    Goes (.descriptorCopy n) s (fun u => u = { s with rings := u.rings, host := u.host, out := u.out } ∧
      Started s u k c rest ⟨c, d, none, some ⟨0, 0, [], bytes / 64, []⟩, false⟩ ∧
      u.host = { s.host with reads := s.host.reads ++ [⟨s.freeTag, .copy k c, s.ringOwner k, Desc.at_ d 16 8, bytes⟩] } ∧
      u.out = s.out ++ [.hostRead (s.ringOwner k) s.freeTag (Desc.at_ d 16 8) bytes]))

/-- SIGNAL_VALUE_WRITE, with every earlier descriptor complete, writes its 8 B to host memory and completes it; while Bus Master Enable is 0 it waits, and with the link down the value is discarded. FENCE_COMPLETE completes a FENCE once each entry's ring has transmitted the record it names, with FENCE_LOST and the entry when a halted ring with nothing in flight cannot. COMPLETION_RECORD writes the 32 B of the oldest live descriptor that is complete to its slot, counts it, sends its interrupt where asked, and halts the ring with cause ERROR for a status other than OK under STOP_ON_ERR; a link-lost one waits for RESUME and goes out with LINK_LOST (log 61 of the model), its DETAIL saying whether its device writes are complete (log 80), both DEDUCED. No other ring changes. -/
def Obligations.SignalsFencesAndRecordsFollow : Prop :=
  (∀ (n : RingId) (s : State), let k := n.val
    let r := s.ring k
    let done := fun (u : State) (c status detail : Nat) => (∀ m, m ≠ k → u.ring m = s.ring m) ∧
      u.ring k = { r with live := r.live.map (fun l => if l.count = c then { l with done := some ⟨status, detail, s.tsc⟩ } else l) }
    (∀ l, r.dueSignal = some l → s.hostLive (s.ringOwner k) = true → Goes (.signalValueWrite n) s (fun u => done u l.count 0 0 ∧
      u = { s with rings := u.rings, out := s.out ++ [.hostWrite (s.ringOwner k) (Desc.at_ l.desc 16 8) 0xFF (Desc.at_ l.desc 24 8) false] })) ∧
    (∀ l, r.dueSignal = some l → s.dlUp = false → Goes (.signalValueWrite n) s (fun u => done u l.count 0 0 ∧ u = { s with rings := u.rings })) ∧
    (r.dueSignal = none ∨ (s.dlUp = true ∧ s.bme (s.ringOwner k) = false) → exec (.signalValueWrite n) s = .next s) ∧
    (∀ l, r.live.find? (fun l => l.done.isNone && decide (Desc.ty l.desc = 5)) = some l →
      let due := fun (i : Nat) => (Desc.entry l.desc i).1 = true ∧ s.reached (Desc.entry l.desc i).2.1 (Desc.entry l.desc i).2.2 = false
      let dead := fun (i : Nat) => (s.ring (Desc.entry l.desc i).2.1).st = .halted ∧ (s.ring (Desc.entry l.desc i).2.1).inflight = 0
      ((∀ i < 6, ¬ due i) → Goes (.fenceComplete n) s (fun u => done u l.count 0 0 ∧ u = { s with rings := u.rings })) ∧
      ((∃ i < 6, due i) → (∀ i < 6, due i → ¬ dead i) → exec (.fenceComplete n) s = .next s) ∧
      (∀ i < 6, due i → dead i → (∀ j < i, due j → ¬ dead j) → Goes (.fenceComplete n) s (fun u => done u l.count 8 i ∧
        u = { s with rings := u.rings, reports := s.reports ++ [s.report ringSrc 0x0204 [k, s.seqOf k l.count, 8, i]] })))) ∧
  (∀ (n : RingId) (s : State) (l : Live) (rest : List Live) (e : Completion), let k := n.val
    let r := s.ring k
    let f := s.ringOwner k
    r.live = l :: rest → l.done = some e → s.hostLive f = true → l.lost = false ∨ r.flush = true →
    let status := if l.lost then 7 else e.status
    let written := e.status = 0 ∨ e.status = 4 ∨ (Desc.ty l.desc ≠ 1 ∧ Desc.ty l.desc ≠ 3 ∧ (Desc.ty l.desc ≠ 2 ∨ Desc.toDev l.desc = false))
    let detail := if l.lost then (if written then 1 else 0) else e.detail
    let record := recordOf k (s.seqOf k l.count) (s.phaseOf k l.count) l.desc status detail e.tsc
    let addr := s.ringRd k RING_CQ_BASE_ADDR * 4096 + 32 * (l.count % s.ringSize k)
    Goes (.completionRecord n) s (fun u => u = { s with regs := u.regs, rings := u.rings, host := u.host, reports := u.reports, out := u.out } ∧
      s.out ++ [.hostWrite f addr (2 ^ 32 - 1) record false] <+: u.out ∧ (∀ m, m ≠ k → u.ring m = s.ring m) ∧
      (u.ring k).live = rest ∧ (u.ring k).sentAt = l.count + 1 ∧ Counted s u hostB (RING_CNT_COUNT.at (0x40 * k)) 1 ∧ WordsBut s u [hostB + (RING_CNT_COUNT.at (0x40 * k)).off] ∧
      (Desc.irq l.desc = false → s.ringRd k RING_CFG_IRQ_ALL = 0 → u.out = s.out ++ [.hostWrite f addr (2 ^ 32 - 1) record false] ∧
        u.host = { s.host with sent := (k, { l with done := some ⟨status, detail, e.tsc⟩, lost := false }) :: s.host.sent }) ∧
      (Desc.irq l.desc = true ∨ s.ringRd k RING_CFG_IRQ_ALL = 1 → look noMark s.host.msixOn f = true → bit (s.msixWord f (16 * (1 + k) + 8)) 32 = false →
        u.out = s.out ++ [.hostWrite f addr (2 ^ 32 - 1) record false, .msix f (1 + k) (s.msixWord f (16 * (1 + k))) (s.msixWord f (16 * (1 + k) + 8) % 2 ^ 32)]) ∧
      (status ≠ 0 → s.ringRd k RING_CFG_STOP_ON_ERR = 1 → r.st = .running → (u.ring k).st = .halted ∧ (u.ring k).cause = 4) ∧
      (status = 0 ∨ s.ringRd k RING_CFG_STOP_ON_ERR ≠ 1 → (u.ring k).st = r.st))) ∧
  (∀ (n : RingId) (s : State), (s.ring n).live = [] ∨ (∃ l rest, (s.ring n).live = l :: rest ∧ (l.done = none ∨ (l.lost = true ∧ (s.ring n).flush = false))) ∨ s.hostLive (s.ringOwner n) = false → exec (.completionRecord n) s = .next s)

/-! ### Events and consistent cuts -/

/-- Event ring `f` takes a record at once: it is enabled, its function's requests may be made, nothing waits and there is room (R427, R428). -/
def Sys2Proof.Machine.Takes (s : State) (f : Nat) : Prop := s.evLive f = true ∧ (s.ev f).waits = false ∧ 0 < s.evRoom f

/-- The first of the raised reports in the order of TSC, and of source number where it is equal (R8). -/
def Sys2Proof.Machine.Oldest (s : State) (r : Report) : Prop :=
  s.reports.find? (fun r => s.reports.all (fun q => decide (r.tsc < q.tsc ∨ (r.tsc = q.tsc ∧ r.src ≤ q.src)))) = some r

/-- COAL_WIN holds the report: its code is coalesced and a record of its key was written less than COAL_WIN ago (R427). -/
def Sys2Proof.Machine.Soon (s : State) (f : Nat) (r : Report) : Prop :=
  coalesces r.code = true ∧ ∃ k ∈ (s.ev f).recent, k.1 = r.src ∧ k.2.1 = r.code ∧ s.tsc < k.2.2 + 1000 * s.rd hostB FLT_CTRL_COAL_WIN

/-- The host write of record `x` as record number `n` of event ring `f`: its slot and its lap parity (R398, R424). -/
def Sys2Proof.Machine.recordWrite (s : State) (f n : Nat) (x : EvRec) : Out :=
  .hostWrite f (s.rd hostB (EVT_BASE_ADDR.at (0x20 * f)) * 4096 + 32 * (n % s.evSize f)) (2 ^ 32 - 1) (x.bytes (1 - n / s.evSize f % 2)) false

/-- Report `r` has reached event ring `f`: it is written as one record, or one more entry or occurrence of the ring's store holds it. -/
def Sys2Proof.Machine.Reached (s u : State) (f : Nat) (r : Report) : Prop :=
  let e := s.ev f
  (Takes s f → ¬ Soon s f r → u.ev f = { e with count := e.count + 1, irqSent := true, recent := (u.ev f).recent } ∧
    recordWrite s f e.count (.plain r.tsc r.src r.code r.packed) ∈ u.out) ∧
  (Takes s f → Soon s f r → u.ev f = { e with coal := holdReport e.coal r.tsc r.src r.code r.packed true }) ∧
  (¬ Takes s f → u.ev f = { e with coal := holdReport e.coal r.tsc r.src r.code r.packed false, roomOut := (u.ev f).roomOut })

/-- Cut `c` has been published with the next number: in each of its event rings its run is written whole, or waits there (R421-R423). -/
def Sys2Proof.Machine.Published (s u : State) (c : Cut) : Prop :=
  let num := s.cutNo + 1
  let recs := s.cutRecs num c
  let l := if c.owner = 0 then [0] else [0, c.owner]
  let run := fun (f : Nat) => s.cutFor f recs
  let fit := fun (f : Nat) => Takes s f ∧ (s.ev f).roomOut = none ∧ (run f).length ≤ s.evRoom f
  u = { s with regs := u.regs, evs := u.evs, rings := u.rings, host := u.host, cuts := s.cuts.erase c, cutNo := num, out := u.out } ∧
  WordsBut s u [hostB + FLT_CUT_STAT_LAST.off] ∧ s.out <+: u.out ∧ (∀ f, f ∉ l → u.ev f = s.ev f) ∧
  (∀ n, u.ring n = { s.ring n with cutDue := (u.ring n).cutDue }) ∧ (∀ n, n ∉ c.rings → u.ring n = s.ring n) ∧
  (∀ n ∈ c.rings, (s.ring n).cutDue = .unpublished → (∀ d ∈ s.cuts.erase c, n ∉ d.rings) →
    ((∃ f ∈ l, fit f) → (u.ring n).cutDue = .no) ∧ ((∀ f ∈ l, ¬ fit f) → (u.ring n).cutDue = .run num)) ∧
  (∀ n ∈ c.rings, (s.ring n).cutDue ≠ .run num → (s.ring n).cutDue ≠ .unpublished ∨ (∃ d ∈ s.cuts.erase c, n ∈ d.rings) → (u.ring n).cutDue = (s.ring n).cutDue) ∧
  ∀ f ∈ l,
    (fit f → (u.ev f).count = (s.ev f).count + (run f).length ∧ (u.ev f).cuts = [] ∧ (u.ev f).coal = (s.ev f).coal ∧ u.rd hostB FLT_CUT_STAT_LAST = num % 2 ^ 32 ∧
      ∀ i x, (run f)[i]? = some x → recordWrite s f ((s.ev f).count + i) x ∈ u.out) ∧
    (¬ fit f → (u.ev f).count = (s.ev f).count ∧ (u.ev f).coal = (s.ev f).coal ∧ ∃ older newer, (s.ev f).cuts = older ++ newer ∧
      (u.ev f).cuts = older ++ [⟨num, c.ord, c.rings, recs⟩] ++ newer ∧ (∀ x ∈ older, x.ord ≤ c.ord) ∧ ∀ x, newer.head? = some x → c.ord < x.ord)

/-- EVENT_REPORT takes the oldest report (of the lowest source among equal TSC) to its rings: a ring that can take it writes one record to its slot with the lap parity; one that cannot, or whose window runs, holds it; before EV0 is enabled its reports go to the bring-up log. EVENT_RING_ENABLE starts a ring at index 0; for EV0 the log is then written. COALESCE_WINDOW_END writes the held entry, or it waits for the ring, whose lack of room then begins when it is full. EVENT_HEAD_DOORBELL moves the head, event 0x0206 going first where room had run out, or is counted as ignored. CONSISTENT_CUT and CUT_WAIT_EXPIRE publish the oldest cut they may, with the next number, its run whole in each of its rings or waiting there, and CUT_STAT.LAST and the rings' release once it is written. No report waits in the cut clauses. Nothing else changes. -/
def Obligations.EventsAndCutsReachTheirRings : Prop :=
  (∀ s : State, s.reports = [] → exec .eventReport s = .next s) ∧
  (∀ s : State, s.reports ≠ [] → ∃ r, Oldest s r ∧
    let b := s.brup
    Goes .eventReport s (fun u =>
      u = { s with reports := s.reports.erase r, regs := u.regs, brup := u.brup, evs := u.evs, host := u.host, out := u.out } ∧ s.out <+: u.out ∧
      (∀ f, f ∉ s.evRings r → u.ev f = s.ev f) ∧ (∀ f ∈ s.evRings r, ¬ (f = 0 ∧ b.logging = true) → Reached s u f r) ∧
      (b.logging = false → u.regs = s.regs ∧ u.brup = b) ∧
      (b.logging = true → u.ev 0 = s.ev 0 ∧ WordsBut s u [cardB + BRUP_LOG_STAT_WRITTEN.off] ∧ u.flag cardB BRUP_LOG_STAT_WRITTEN = false ∧
        (b.log.length < 256 → u.brup = { b with log := b.log ++ [r] }) ∧
        (256 ≤ b.log.length → u.brup = { b with logCoal := holdReport b.logCoal r.tsc r.src r.code r.packed false })))) ∧
  (∀ (f : Fin 9) (s : State), let k := f.val
    let off := hostB + 0x5108 + 0x20 * k
    Writable s off → look noPend s.pendMask off = 0 → s.evOn k = false → k = 0 ∨ s.ready = true → (s.ev k).waits = false →
    (k ≠ 0 ∨ s.brup.logging = false → Goes (.eventRingEnable 0 f) s (fun u => u = { s with regs := u.regs, evs := u.evs } ∧ WordsBut s u [off] ∧ u.evOn k = true ∧
      u.evSize k = s.evSize k ∧ u.ev k = { s.ev k with count := 0, head := 0, irqSent := false, roomOut := none, told := false, recent := [] } ∧ ∀ m, m ≠ k → u.ev m = s.ev m)) ∧
    (k = 0 → s.brup.logging = true → s.hostLive 0 = true → s.brup.logCoal = [] → s.brup.log.length < s.evSize 0 → (∀ r ∈ s.brup.log, coalesces r.code = false) →
      Goes (.eventRingEnable 0 f) s (fun u =>
        u = { s with regs := u.regs, evs := u.evs, host := u.host, out := u.out, brup := { s.brup with logging := false, log := [] }, therm := u.therm, reports := u.reports } ∧
        WordsBut s u [off, cardB + BRUP_LOG_STAT_WRITTEN.off] ∧ u.evOn 0 = true ∧ u.flag cardB BRUP_LOG_STAT_WRITTEN = true ∧ (u.ev 0).count = s.brup.log.length ∧
        (u.ev 0).head = 0 ∧ (∀ i r, s.brup.log[i]? = some r → recordWrite s 0 i (.plain r.tsc r.src r.code r.packed) ∈ u.out) ∧
        u.therm = { s.therm with note := none } ∧ u.reports = s.reports ++ (s.therm.note.map (fun r => { r with tsc := s.tsc })).toList))) ∧
  (∀ (f : Fin 9) (src code : Nat) (s : State), let k := f.val
    let e := s.ev k
    let held := e.coal.find? (fun c => decide (c.src = src ∧ c.code = code) && c.window)
    (held = none → exec (.coalesceWindowEnd f src code) s = .next s) ∧
    (∀ c, held = some c → Takes s k → Goes (.coalesceWindowEnd f src code) s (fun u => u = { s with evs := u.evs, host := u.host, out := u.out } ∧
      (∀ m, m ≠ k → u.ev m = s.ev m) ∧ s.out ++ [recordWrite s k e.count c.rec_] <+: u.out ∧
      u.ev k = { e with coal := e.coal.filter (fun d => decide (d ≠ c)), count := e.count + 1, irqSent := true, recent := (u.ev k).recent })) ∧
    (∀ c, held = some c → ¬ Takes s k → Goes (.coalesceWindowEnd f src code) s (fun u => u = { s with evs := u.evs } ∧ (∀ m, m ≠ k → u.ev m = s.ev m) ∧
      u.ev k = { e with coal := e.coal.map (fun d => if d = c then { d with window := false } else d), roomOut := if s.evLive k = true ∧ s.evRoom k = 0 ∧ e.roomOut = none ∧ e.told = false then some s.tsc else e.roomOut }))) ∧
  (∀ (f : FnId) (page size : Nat) (data : Word) (s : State), let k := f.val
    let h := bitsOf data.toNat 0 16
    (64 ≤ page ∨ s.host.d3hot = true → exec (.eventHeadDoorbell f page size data) s = .next s) ∧
    (page < 64 → s.host.d3hot = false → size ≠ 8 ∨ s.evSize k ≤ h → Goes (.eventHeadDoorbell f page size data) s (fun u =>
      u = { s with regs := u.regs, reports := u.reports } ∧ WordsBut s u [hostB + RING_DB_IGN_COUNT.off] ∧ Counted s u hostB RING_DB_IGN_COUNT 1)) ∧
    (page < 64 → s.host.d3hot = false → size = 8 → h < s.evSize k → Goes (.eventHeadDoorbell f page size data) s (fun u => (u.ev k).head = h ∧ s.out <+: u.out ∧
      u = { s with regs := u.regs, evs := u.evs, rings := u.rings, host := u.host, out := u.out } ∧ WordsBut s u [hostB + FLT_CUT_STAT_LAST.off] ∧
      (∀ m, m ≠ k → u.ev m = s.ev m) ∧ ((s.ev k).waits = false → u = { s with evs := u.evs } ∧ u.ev k = { s.ev k with head := h, irqSent := false }) ∧
      (∀ t, (s.ev k).roomOut = some t → s.evLive k = true → (s.ev k).waits = true → 0 < (h + s.evSize k - (s.ev k).count % s.evSize k + s.evSize k - 1) % s.evSize k →
        s.out ++ [recordWrite s k (s.ev k).count (.plain s.tsc ringSrc 0x0206 (packFields (eventWidths 0x0206) [k, (s.ev k).held, (s.ev k).coal.length, t]))] <+: u.out)))) ∧
  (∀ s : State, s.reports = [] →
    (s.cuts.find? s.cutReady = none → exec .consistentCut s = .next s) ∧
    (∀ c, s.cuts.find? s.cutReady = some c → Goes .consistentCut s (fun u => Published s u c)) ∧
    (s.cuts.find? (fun c => decide (c.trigger ≠ 5) || s.dlUp) = none → exec .cutWaitExpire s = .next s) ∧
    (∀ c, s.cuts.find? (fun c => decide (c.trigger ≠ 5) || s.dlUp) = some c → Goes .cutWaitExpire s (fun u => Published s u c)))

/-! ### Faults, links and Molt -/

/-- The word of a field has changed in that field alone, which now holds `v`. -/
def Sys2Proof.Machine.FieldSet (s u : State) (base : Nat) (f : Fld) (v : Nat) : Prop := u.word (base + f.off) = setBits (s.word (base + f.off)) f.lo f.w v

/-- The words of measurement M3 (Table 18-4). -/
def Sys2Proof.Machine.floorWords : List Nat := (cardB + FP_GEN_GEN.off) :: (List.range 4).map (fun j => secB + 0x160 + 8 * j)

/-- An SRAM error was corrected: it is counted and reported (Table 15-1). -/
def Sys2Proof.Machine.SramFixed (s u : State) (src mem : Nat) : Prop :=
  u = { s with regs := u.regs, free := u.free, reports := s.reports ++ [s.report src 0x068D [mem]] } ∧ WordsBut s u [hostB + FLT_SRAM_CNT_CORRECTED.off] ∧
    FieldSet s u hostB FLT_SRAM_CNT_CORRECTED (satAdd 32 (s.rd hostB FLT_SRAM_CNT_CORRECTED) 1)

/-- An SRAM error was not corrected: it is counted and reported with some address. -/
def Sys2Proof.Machine.SramBroke (s u : State) (src mem : Nat) : Prop :=
  u = { s with regs := u.regs, free := u.free, tiles := u.tiles, engs := u.engs, bdies := u.bdies, reports := u.reports } ∧ WordsBut s u [hostB + FLT_SRAM_CNT_UNCORRECTED.off] ∧
    FieldSet s u hostB FLT_SRAM_CNT_UNCORRECTED (satAdd 32 (s.rd hostB FLT_SRAM_CNT_UNCORRECTED) 1) ∧ ∃ a, u.reports = s.reports ++ [s.report src 0x068E [mem, a]]

/-- Channel `c` has been retired by a Molt (R411, R412, Table 15-3). -/
def Sys2Proof.Machine.Molted (s u : State) (c : Nat) : Prop :=
  u = { s with regs := u.regs, ccs := u.ccs, engs := u.engs, bdies := u.bdies, tiles := u.tiles, rings := u.rings, molt := u.molt, cuts := u.cuts,
               brup := { s.brup with nv := s.brup.nv ++ [.commit c false] }, reports := u.reports } ∧
  WordsBut s u ([hostB + FLT_MOLT_STAT_BUSY.off, ccB c + CC_STATUS_RETIRED.off, cardB + (FP_CHAN_RETIRED.at (8 * (c / 64))).off, cardB + FP_COUNTS_CHAN_RET.off] ++ floorWords ++
    s.tileKeys.map (fun t => tileB t + (TILE_PFM_COUNT.at 0x18).off)) ∧
  FieldSet s u (ccB c) CC_STATUS_RETIRED 1 ∧ u.flag hostB FLT_MOLT_STAT_BUSY = false ∧ Counted s u hostB FLT_MOLT_STAT_RETIRED 1 ∧
  bit (u.rd cardB (FP_CHAN_RETIRED.at (8 * (c / 64)))) (c % 64) = true ∧ Counted s u cardB FP_COUNTS_CHAN_RET 1 ∧ Counted s u cardB FP_GEN_GEN 1 ∧
  (∀ t, u.tile t = if t ∈ s.tileKeys then { s.tile t with rc := [], rcKeep := false, pf := [], pfFlight := (s.tile t).pfFlight.map (fun p => { p with stale := true }) } else s.tile t) ∧ OtherCcs s u c ∧
  (∀ n < 64, s.ringOwner n = s.stackOwner (c / 32) → u.isRunning n = false) ∧ (∀ n, ¬ (n < 64 ∧ s.ringOwner n = s.stackOwner (c / 32)) → u.ring n = s.ring n) ∧
  s.reports <+: u.reports ∧ s.report (ccSrc c) 0x0685 [c / 32, c % 32, u.rd hostB FLT_MOLT_STAT_RETIRED] ∈ u.reports

/-- A permanent fault of the seam link at full width: it goes to half width and holds its traffic (R409). -/
def Sys2Proof.Machine.SeamHalved (s u : State) (n : Nat) : Prop :=
  u = { s with regs := u.regs, host := { s.host with seamTrip := false }, reports := u.reports } ∧
  WordsBut s u ([seamB + SEAM_STAT_HALF.off, seamB + SEAM_ERR_CNT_REPLAYS.off, hostB + FLT_BKT_SEAM_LEVEL.off, cardB + FP_SEAM_HALF.off] ++ floorWords) ∧
  u.flag hostB FLT_BKT_SEAM_PERM = true ∧ u.flag hostB FLT_BKT_SEAM_HALF = true ∧ u.rd hostB FLT_BKT_SEAM_LEVEL = 0 ∧ u.flag cardB FP_SEAM_HALF = true ∧
  u.flag seamB SEAM_STAT_HALF = true ∧ u.flag seamB SEAM_STAT_HOLD = true ∧ Counted s u cardB FP_GEN_GEN 1 ∧
  s.reports ++ [s.report seamSrc 0x0689 [n]] <+: u.reports ∧ s.report seamSrc 0x068A [] ∈ u.reports

/-- Card fault has begun: every enabled tile is reset and stays so, and no ring runs (R418). -/
def Sys2Proof.Machine.CardFaulted (s u : State) : Prop :=
  u.flag hostB FLT_CARD_CARD_FAULT = true ∧ (∀ t, s.enabled t = true → WasReset s u t true) ∧ (∀ n < 64, u.isRunning n = false) ∧ u.mem = s.mem ∧
    s.report seamSrc 0x068B [] ∈ u.reports ∧ s.reports <+: u.reports

/-- LEAK_TICK takes pending bucket settings and lowers every level by one, retired channels apart. HOST_LINK_REPLAY adds W_CE or W_RP to the host bucket; a crossing of TH is permanent, with event 0x0683, until the host re-arms it. SEAM_REPLAY counts, emits 0x0689 and adds W_RP; a crossing, or an eighth replay that fails, takes the link to half width and holds traffic, and at half width ends in card fault. SEAM_RETRAIN_COMPLETE lets traffic go on or leads to card fault. SRAM errors that a command meets come first: corrected ones are counted and reported, others spoil their storage; a die or tile in reset reports none. That a link command adds one W_RP, one count and one event is log 51 of the model (DEDUCED), the address of an error log 16. -/
def Obligations.BucketsAndLinksFollowTheirErrors : Prop :=
  (∀ s : State, let f := FLT_BKT_CTRL_TH
    Goes .leakTick s (fun u => u = { s with regs := u.regs, pendMask := u.pendMask } ∧
      WordsBut s u ([hostB + f.off, hostB + FLT_BKT_SEAM_LEVEL.off, hostB + FLT_BKT_HOST_LEVEL.off] ++ (List.range 384).map (fun c => ccB c + CC_BKT_LEVEL.off)) ∧
      (∀ c < 384, FieldSet s u (ccB c) CC_BKT_LEVEL (if s.retired c then s.rd (ccB c) CC_BKT_LEVEL else s.rd (ccB c) CC_BKT_LEVEL - 1)) ∧
      FieldSet s u hostB FLT_BKT_SEAM_LEVEL (s.rd hostB FLT_BKT_SEAM_LEVEL - 1) ∧ FieldSet s u hostB FLT_BKT_HOST_LEVEL (s.rd hostB FLT_BKT_HOST_LEVEL - 1) ∧
      (∀ g ∈ [FLT_BKT_CTRL_TH, FLT_BKT_CTRL_LEAK_US, FLT_BKT_CTRL_W_CE, FLT_BKT_CTRL_W_RP, FLT_BKT_CTRL_W_UE],
        let m := (look noPend s.pendMask (hostB + f.off)).toNat
        (m &&& g.mask = 0 → u.rd hostB g = s.rd hostB g) ∧ (m &&& g.mask ≠ 0 → u.rd hostB g = bitsOf (look noPend s.pend (hostB + f.off)).toNat g.lo g.w)) ∧
      ∀ o, o ≠ hostB + f.off → look noPend u.pendMask o = look noPend s.pendMask o)) ∧
  (∀ (fec : Bool) (s : State),
    let w := if fec then s.rd hostB FLT_BKT_CTRL_W_CE else s.rd hostB FLT_BKT_CTRL_W_RP
    let l := satAdd 16 (s.rd hostB FLT_BKT_HOST_LEVEL) w
    let crosses := s.rd hostB FLT_BKT_CTRL_TH ≤ l ∧ s.host.hostTrip = false
    (¬ crosses → Goes (.hostLinkReplay fec []) s (fun u => OnlyWords s u [hostB + FLT_BKT_HOST_LEVEL.off] ∧ FieldSet s u hostB FLT_BKT_HOST_LEVEL l)) ∧
    (crosses → Goes (.hostLinkReplay fec []) s (fun u =>
      u = { s with regs := u.regs, host := { s.host with hostTrip := true }, reports := s.reports ++ [s.report hostSrc 0x0683 [l, w]] } ∧
      WordsBut s u [hostB + FLT_BKT_HOST_LEVEL.off] ∧ u.rd hostB FLT_BKT_HOST_LEVEL = l ∧ u.flag hostB FLT_BKT_HOST_PERM = true))) ∧
  (∀ s : State, Writable s (hostB + 0x6018) → Goes (.hostBucketRearm 0) s (fun u =>
    u = { s with regs := u.regs, host := { s.host with hostTrip := false } } ∧ WordsBut s u [hostB + 0x6018] ∧ FieldSet s u hostB FLT_BKT_HOST_PERM 0)) ∧
  (∀ (replays : Nat) (fails : Bool) (s : State),
    let n := max 1 (min 8 replays)
    let w := s.rd hostB FLT_BKT_CTRL_W_RP
    let l := satAdd 16 (s.rd hostB FLT_BKT_SEAM_LEVEL) w
    let crosses := s.rd hostB FLT_BKT_CTRL_TH ≤ l ∧ s.host.seamTrip = false
    let fatal := crosses ∨ (fails = true ∧ n = 8)
    (¬ fatal → Goes (.seamReplay replays fails []) s (fun u => u = { s with regs := u.regs, reports := s.reports ++ [s.report seamSrc 0x0689 [n]] } ∧
      WordsBut s u [seamB + SEAM_ERR_CNT_REPLAYS.off, hostB + FLT_BKT_SEAM_LEVEL.off] ∧ FieldSet s u hostB FLT_BKT_SEAM_LEVEL l ∧
      FieldSet s u seamB SEAM_ERR_CNT_REPLAYS (satAdd 32 (s.rd seamB SEAM_ERR_CNT_REPLAYS) 1))) ∧
    (fatal → s.flag hostB FLT_BKT_SEAM_HALF = false → Goes (.seamReplay replays fails []) s (fun u => SeamHalved s u n ∧
      FieldSet s u seamB SEAM_ERR_CNT_REPLAYS (satAdd 32 (s.rd seamB SEAM_ERR_CNT_REPLAYS) 1) ∧ (crosses → s.report seamSrc 0x0683 [l, w] ∈ u.reports))) ∧
    (fatal → s.flag hostB FLT_BKT_SEAM_HALF = true → s.flag hostB FLT_CARD_CARD_FAULT = false → Goes (.seamReplay replays fails []) s (fun u => CardFaulted s u ∧
      u.flag hostB FLT_BKT_SEAM_PERM = true ∧ u.rd hostB FLT_BKT_SEAM_LEVEL = l))) ∧
  (∀ (ok : Bool) (s : State), s.flag seamB SEAM_STAT_HOLD = false → exec (.seamRetrainComplete ok) s = .next s) ∧
  (∀ s : State, s.flag seamB SEAM_STAT_HOLD = true → Settled s → Goes (.seamRetrainComplete true) s (fun u =>
    OnlyWords s u [seamB + SEAM_STAT_HOLD.off, seamB + SEAM_ERR_CNT_RETRAINS.off, seamB + SEAM_TRAIN_TSC_TSC.off] ∧ FieldSet s u seamB SEAM_STAT_HOLD 0 ∧
    FieldSet s u seamB SEAM_ERR_CNT_RETRAINS (satAdd 32 (s.rd seamB SEAM_ERR_CNT_RETRAINS) 1) ∧ u.rd seamB SEAM_TRAIN_TSC_TSC = s.tsc % 2 ^ 64)) ∧
  (∀ s : State, s.flag seamB SEAM_STAT_HOLD = true → s.flag hostB FLT_CARD_CARD_FAULT = false → Goes (.seamRetrainComplete false) s (fun u =>
    CardFaulted s u ∧ u.flag seamB SEAM_STAT_HOLD = false ∧ u.flag seamB SEAM_STAT_UP = false)) ∧
  (∀ (l : List SramErr) (s : State),
    (∀ (c : Chan) (k : List Strike), exec (.requestIssue c k l) s = exec (.requestIssue c k []) (s.sramErrs l)) ∧
    (∀ (c : Chan) (col : Nat) (w : Bool), exec (.crcReplay c col w l) s = exec (.crcReplay c col w []) (s.sramErrs l)) ∧
    (∀ t : TileId, exec (.bundleSplit t l) s = exec (.bundleSplit t []) (s.sramErrs l)) ∧
    (∀ (n : Nat) (b : Bool), exec (.seamReplay n b l) s = exec (.seamReplay n b []) (s.sramErrs l) ∧ exec (.hostLinkReplay b l) s = exec (.hostLinkReplay b []) (s.sramErrs l))) ∧
  (∀ (t : TileId) (h w : Nat) (e : EngId) (fixed : Bool) (s : State), s.tileUp t.toNat = false →
    ∀ p ∈ [SramPlace.scratchpad t h, .imem t w, .streamLine t, .queue t e, .readCache t w, .prefetchLine t w], s.sramErr ⟨p, fixed⟩ = s) ∧
  (∀ (b v : Nat) (s : State), b / 128 < 384 → s.dieUp (chanDie (b / 128)) = true →
    SramFixed s (s.sramErr ⟨.bankState b (.acc v), true⟩) (ccSrc (b / 128)) 5 ∧
    (let u := s.sramErr ⟨.bankState b (.acc v), false⟩;
      SramBroke s u (ccSrc (b / 128)) 5 ∧ (∀ d, d ≠ b → u.eng d = s.eng d) ∧ u.eng b = { s.eng b with acc := (u.eng b).acc } ∧
      ∀ i, look pvZero (u.eng b).acc i = if i = v % 512 then .pois else look pvZero (s.eng b).acc i)) ∧
  (∀ (t : TileId) (h w : Nat) (e : EngId) (s : State), s.tileUp t.toNat = true → let k := t.toNat
    SramFixed s (s.sramErr ⟨.scratchpad t h, true⟩) k 1 ∧ SramFixed s (s.sramErr ⟨.imem t w, true⟩) k 2 ∧ SramFixed s (s.sramErr ⟨.streamLine t, true⟩) k 3 ∧
    SramFixed s (s.sramErr ⟨.queue t e, true⟩) k 4 ∧
    (let u := s.sramErr ⟨.scratchpad t h, false⟩;
      SramBroke s u k 1 ∧ OtherTiles s u k ∧ u.tile k = (s.tile k).setSpad ((s.tile k).spad.spoil (h % 131072))) ∧
    (let u := s.sramErr ⟨.imem t w, false⟩;
      SramBroke s u k 2 ∧ OtherTiles s u k ∧ look noMark (u.tile k).imemBad (w % 32768) = true) ∧
    (let u := s.sramErr ⟨.readCache t w, false⟩;
      u = { s with tiles := u.tiles } ∧ OtherTiles s u k ∧ u.tile k = { s.tile k with rc := (s.tile k).rc.filter (fun p => decide (p.1 ≠ w)) }))

/-- MOLT_CMD queues its channel, or sets REFUSED when it is retired, queued or being molted. MOLT takes the next request: with no pass and no request in the channel it blanks the channel's bank engines, emits 0x0684, retires the channel in CC_STATUS and in the floor plan, empties every read cache and prefetch buffer, halts the rings of the stack's owner, emits 0x0685 and asks for the commit; while a host cache owns lines of the channel it asks for them first. MOLT_COMMIT writes the record with event 0x0687; while the supply-sag lockout stands, each record that waits is held with an event 0x0686 of its own. Nothing waits on a CC in these cases. Device storage and other channels stay. -/
def Obligations.MoltRetiresItsChannel : Prop :=
  (∀ (c : Chan) (s : State), Writable s (hostB + 0x6020) → let k := c.val
    let known := s.retired k = true ∨ (∃ q ∈ s.molt.queue, q.chan = k) ∨ s.molting k = true
    (known → Goes (.moltCmd 0 k) s (fun u => OnlyWords s u [hostB + 0x6020, hostB + 0x6028] ∧ FieldSet s u hostB FLT_MOLT_CMD_CHANNEL k ∧ FieldSet s u hostB FLT_MOLT_STAT_REFUSED 1)) ∧
    (¬ known → Goes (.moltCmd 0 k) s (fun u => u = { s with regs := u.regs, molt := { queue := insertMolt ⟨k, 2, s.tsc⟩ s.molt.queue } } ∧
      WordsBut s u [hostB + 0x6020] ∧ FieldSet s u hostB FLT_MOLT_CMD_CHANNEL k))) ∧
  (∀ s : State, s.flag hostB FLT_MOLT_STAT_BUSY = false → s.molt.queue = [] → exec .molt s = .next s) ∧
  (∀ (s : State) (m : MoltReq) (rest : List MoltReq), let c := m.chan
    s.flag hostB FLT_MOLT_STAT_BUSY = false → s.molt.queue = m :: rest → c < 384 → (s.cc c).queue = [] → (s.cc c).ingress = [] → (s.cc c).active = none → (s.cc c).pool = [] → Settled s →
    (s.dirLines c = [] → Goes .molt s (fun u => Molted s u c ∧ u.molt.queue = rest ∧ s.reports ++ [s.report (ccSrc c) 0x0684 [m.cause]] <+: u.reports ∧
      (u.cc c).pim = false ∧ (u.cc c).rows = [] ∧ (u.cc c).maint = [] ∧ (u.cc c).waiting = [] ∧ (∀ p < 128, u.eng (128 * c + p) = EngSt.blank) ∧
      (∀ b, b / 128 ≠ c → u.eng b = s.eng b) ∧ ∀ k, k ≠ c / 32 → u.bd k = s.bd k)) ∧
    (s.dirLines c ≠ [] → s.canSnoop = true → s.host.snoops.length + (s.dirLines c).length ≤ 256 → Goes .molt s (fun u =>
      u.flag hostB FLT_MOLT_STAT_BUSY = true ∧ u.rd hostB FLT_MOLT_STAT_ACTIVE = c ∧ u.molt.queue = rest ∧ (∀ d, u.retired d = s.retired d) ∧ u.mem = s.mem ∧ u.tiles = s.tiles ∧
      u.rings = s.rings ∧ ∀ n ∈ s.dirLines c, ∃ q ∈ u.host.snoops, q.line = n))) ∧
  (∀ s : State, let c := s.rd hostB FLT_MOLT_STAT_ACTIVE
    s.flag hostB FLT_MOLT_STAT_BUSY = true → c < 384 → s.dirLines c = [] → Settled s → Goes .molt s (fun u => Molted s u c ∧ u.molt = s.molt ∧ u.engs = s.engs ∧ u.bdies = s.bdies)) ∧
  (∀ s : State, s.flag pwrB SUPPLY_STAT_LOCKOUT = true →
    ((∀ c, .commit c false ∉ s.brup.nv) → exec .moltCommit s = .next s) ∧
    (∀ a c b, s.brup.nv = a ++ .commit c false :: b → (∀ d, .commit d false ∉ a) → Goes .moltCommit s (fun u =>
      u = { s with regs := u.regs, reports := s.reports ++ [s.report felvikSrc 0x0686 [c]],
                   brup := { s.brup with nv := s.brup.nv.map (fun o => if o = .commit c false then .commit c true else o) } } ∧
      WordsBut s u [hostB + FLT_MOLT_STAT_HELD.off] ∧ FieldSet s u hostB FLT_MOLT_STAT_HELD 1))) ∧
  (∀ s : State, s.flag pwrB SUPPLY_STAT_LOCKOUT = false →
    (∀ c told r, s.brup.nv = .commit c told :: r → Goes .moltCommit s (fun u =>
      u = { s with regs := u.regs, reports := s.reports ++ [s.report felvikSrc 0x0687 [c]],
                   brup := { s.brup with nv := r, parts := { s.brup.parts with retired := s.brup.parts.retired ++ [c] } } } ∧
      WordsBut s u [hostB + FLT_MOLT_STAT_HELD.off] ∧ ((∃ d, .commit d true ∈ r) → FieldSet s u hostB FLT_MOLT_STAT_HELD 1) ∧
      ((∀ d, .commit d true ∉ r) → FieldSet s u hostB FLT_MOLT_STAT_HELD 0))) ∧
    ((∀ c told r, s.brup.nv ≠ .commit c told :: r) → exec .moltCommit s = .next s))

/-! ### Power and temperature -/

/-- The registers show the levels in force (R436, Table 16-2). -/
def Sys2Proof.Machine.LevelsShown (u : State) : Prop :=
  u.rd pwrB PWR_STATUS_CEFF0 = u.cEff 0 % 8 ∧ u.rd pwrB PWR_STATUS_CEFF1 = u.cEff 1 % 8 ∧ u.rd pwrB PWR_STATUS_ACTIVE_LIM = stacksOf u.sLevel ∧
  u.rd pwrB PWR_SLEVEL_LEVEL = (List.range 12).foldl (fun n k => n + u.sEff k * 2 ^ (3 * k)) 0 % 2 ^ 36 ∧
  (u.flag pwrB PWR_STATUS_THROTTLE = true ↔ 0 < u.cEff 0 ∨ 0 < u.cEff 1 ∨ ∃ k < 12, 0 < u.sEff k)

/-- The budget levels of the C-die and the stack ladder. -/
def Sys2Proof.Machine.Budgets (u : State) (c k : Nat) : Prop := u.rd pwrB PWR_STATUS_CBUD = c ∧ u.rd pwrB PWR_STATUS_SBUD = k

/-- The words of the levels, and of the times for which they have been above 0. -/
def Sys2Proof.Machine.levelWords : List Nat := [pwrB + PWR_STATUS_CBUD.off, pwrB + PWR_SLEVEL_LEVEL.off, pwrB + PWR_TIME_C_US.off, pwrB + PWR_TIME_S_US.off]

/-- Nanoseconds above level 0 that have not been counted: from the TSC of the last count, with the rest of a microsecond that it left (R456). -/
def Sys2Proof.Machine.State.timeUp (s : State) (o : Option Nat) (rest : Nat) : Nat := rest + o.elim 0 (fun t => s.tsc - t)

/-- What a reading of IN48 says of it (Table 20-4). -/
def Sys2Proof.Machine.seen48 (old : In48) (mv : Nat) : In48 := if mv < 42000 then .absent else if mv < 47000 ∨ old = .absent then .present else old

/-- A sample that meets the lockout condition of its rail (Table 16-5). -/
def Sys2Proof.Machine.Low (s : State) (r : Nat) (x : RailSample) : Prop :=
  (r = 0 ∧ x.mv < 46000) ∨ (r = 1 ∧ x.mv < 11000) ∨ (2 ≤ r ∧ r < 44 ∧ s.pwr.rails = true ∧ (s.pwr.c0Only = false ∨ r = 2 ∨ r = 4 ∨ r = 6) ∧ 100 * x.mv < 95 * x.set)

/-- The action of one control period on board power `dw` in 0.1 W (R437, R438). -/
def Sys2Proof.Machine.Regulated (s u : State) (dw : Nat) : Prop :=
  let prio := s.rd pwrB PWR_CTRL_PRIO
  let c := s.rd pwrB PWR_STATUS_CBUD
  let k := s.rd pwrB PWR_STATUS_SBUD
  let target := 10 * (s.limitW - s.rd pwrB PWR_CTRL_GUARD_W)
  let caps := if s.pwr.beyond then (7, 7) else (s.rd pwrB PWR_CTRL_CMAX, s.rd pwrB PWR_CTRL_SMAX)
  let up := raiseFirst prio c k caps.1 caps.2
  let quiet := s.pwr.quiet + 1
  let calm := dw + 10 * s.rd pwrB PWR_CTRL_UP_MARGIN_W ≤ target
  (target < dw → u.pwr.quiet = 0 ∧
    (∀ l, up = some l → Budgets u (if l = 0 then c + 1 else c) (if l = 0 then k else k + 1) ∧ u.pwr.beyond = s.pwr.beyond ∧
      ((if l = 0 then c else k) = 0 → s.report pwrSrc 0x0701 [l, 1] ∈ u.reports)) ∧
    (up = none → s.pwr.beyond = true → Budgets u c k ∧ u.pwr.beyond = true) ∧
    (up = none → s.pwr.beyond = false → u.pwr.beyond = true ∧ s.report pwrSrc 0x0703 [dw / 10] ∈ u.reports ∧
      (∀ l, raiseFirst prio c k 7 7 = some l → Budgets u (if l = 0 then c + 1 else c) (if l = 0 then k else k + 1)) ∧
      (raiseFirst prio c k 7 7 = none → Budgets u c k))) ∧
  (dw ≤ target → calm → quiet < s.rd pwrB PWR_CTRL_UP_PERIODS → u.pwr.quiet = quiet ∧ Budgets u c k ∧ u.pwr.beyond = s.pwr.beyond) ∧
  (dw ≤ target → calm → s.rd pwrB PWR_CTRL_UP_PERIODS ≤ quiet → u.pwr.quiet = 0 ∧
    (lowerFirst prio c k = none → Budgets u c k ∧ u.pwr.beyond = s.pwr.beyond) ∧
    ∀ l, lowerFirst prio c k = some l →
      let c' := if l = 0 then c - 1 else c
      let k' := if l = 0 then k else k - 1
      Budgets u c' k' ∧ (u.pwr.beyond = true ↔ s.pwr.beyond = true ∧ ¬ (c' ≤ s.rd pwrB PWR_CTRL_CMAX ∧ k' ≤ s.rd pwrB PWR_CTRL_SMAX)) ∧
      (c' = 0 → k' = 0 → s.report pwrSrc 0x0702 [(s.tsc - s.pwr.since.getD s.tsc) / 1000] ∈ u.reports)) ∧
  (dw ≤ target → ¬ calm → u.pwr.quiet = 0 ∧ Budgets u c k ∧ u.pwr.beyond = s.pwr.beyond)

/-- CONTROL_PERIOD faults beyond the absolute ratings, where the spec defines no behaviour; otherwise it publishes its measurements (a rail that meets its lockout condition no longer loses SAG), counts the time above level 0 in whole microseconds, keeping the rest, sees what IN48 is, takes one action of the regulator on the ladder that PRIO selects (raise above the target, lower after UP_PERIODS calm periods, CMAX and SMAX set aside with event 0x0703), and then the pending PWR_CTRL values take effect (that the period uses the old ones is log 46 of the model, that SAG falls at a period log 38, both DEDUCED). FAST_TRIP above the limit raises a ladder to level 3 at least; one 2 to 3 microseconds after raises the other, one before that is the same trip, and a later one is a new trip (DESIGN CHOICE, log 34). A brake source sets PWR_BRAKE, ACTIVE and the levels, with events 0x0705 and 0x0706. Nothing else changes. -/
def Obligations.PowerFollowsItsLimits : Prop :=
  (∀ (rails : List RailSample) (s : State),
    60000 < (rails.getD 0 ⟨0, 0, 0⟩).mv ∨ 14000 < (rails.getD 1 ⟨0, 0, 0⟩).mv → exec (.controlPeriod rails) s = .fault .beyondRatings) ∧
  (∀ (rails : List RailSample) (s : State), (rails.getD 0 ⟨0, 0, 0⟩).mv ≤ 60000 → (rails.getD 1 ⟨0, 0, 0⟩).mv ≤ 14000 →
    (s.pwr.in12 = false → exec (.controlPeriod rails) s = .next s) ∧
    (s.pwr.in12 = true →
      let dw := railSum rails 0 1
      Goes (.controlPeriod rails) s (fun u =>
        u = { s with regs := u.regs, pendMask := u.pendMask, reports := u.reports,
                     pwr := { s.pwr with in48 := u.pwr.in48, quiet := u.pwr.quiet, beyond := u.pwr.beyond, since := u.pwr.since, cOn := u.pwr.cOn, sOn := u.pwr.sOn, cRest := u.pwr.cRest, sRest := u.pwr.sRest } } ∧ s.reports <+: u.reports ∧
        WordsBut s u (levelWords ++ [pwrB + PWR_CTRL_LIMIT_W.off, pwrB + PWR_MEAS_BOARD_W.off] ++
          (List.range 45).map (fun r => pwrB + 0x100 + 8 * r)) ∧
        (∀ r < 45, (rails[r]? = none → u.word (pwrB + 0x100 + 8 * r) = s.word (pwrB + 0x100 + 8 * r)) ∧
          ∀ x, rails[r]? = some x → u.rd pwrB (PWR_RAIL_MV.at (8 * r)) = min 65535 x.mv ∧ u.rd pwrB (PWR_RAIL_DW.at (8 * r)) = min 65535 x.dw ∧
            (Low s r x → u.rd pwrB (PWR_RAIL_SAG.at (8 * r)) = s.rd pwrB (PWR_RAIL_SAG.at (8 * r))) ∧ (¬ Low s r x → u.rd pwrB (PWR_RAIL_SAG.at (8 * r)) = 0)) ∧
        u.rd pwrB PWR_MEAS_BOARD_W = min 65535 (dw / 10) ∧ u.rd pwrB PWR_MEAS_PEAK_W = max (s.rd pwrB PWR_MEAS_PEAK_W) (min 65535 (dw / 10)) ∧
        u.rd pwrB PWR_MEAS_CDIE_W = min 65535 (railSum rails 2 7 / 10) ∧ u.rd pwrB PWR_MEAS_STACK_W = min 65535 (railSum rails 8 43 / 10) ∧
        u.pwr.in48 = (match rails[0]? with | some x => seen48 s.pwr.in48 x.mv | none => s.pwr.in48) ∧
        let c := s.timeUp s.pwr.cOn s.pwr.cRest
        let k := s.timeUp s.pwr.sOn s.pwr.sRest
        Counted s u pwrB PWR_TIME_C_US (c / 1000) ∧ Counted s u pwrB PWR_TIME_S_US (k / 1000) ∧ u.pwr.cRest = c % 1000 ∧ u.pwr.sRest = k % 1000 ∧
        (s.pwr.rails = true → Regulated s u dw) ∧
        (s.pwr.rails = false → Budgets u (s.rd pwrB PWR_STATUS_CBUD) (s.rd pwrB PWR_STATUS_SBUD) ∧ u.pwr = { s.pwr with in48 := u.pwr.in48, cOn := s.pwr.cOn.map (fun _ => s.tsc), sOn := s.pwr.sOn.map (fun _ => s.tsc), cRest := c % 1000, sRest := k % 1000 }) ∧
        ∀ g ∈ [PWR_CTRL_LIMIT_W, PWR_CTRL_GUARD_W, PWR_CTRL_PRIO, PWR_CTRL_CMAX, PWR_CTRL_SMAX, PWR_CTRL_UP_MARGIN_W, PWR_CTRL_UP_PERIODS],
          let m := (look noPend s.pendMask (pwrB + g.off)).toNat
          (m &&& g.mask = 0 → u.rd pwrB g = s.rd pwrB g) ∧ (m &&& g.mask ≠ 0 → u.rd pwrB g = bitsOf (look noPend s.pend (pwrB + g.off)).toNat g.lo g.w)))) ∧
  (∀ (watts : Nat) (s : State),
    let l := if s.rd pwrB PWR_CTRL_PRIO = 1 then 1 else 0
    let raised := fun (u : State) (l : Nat) => Budgets u (if l = 0 then max 3 (s.rd pwrB PWR_STATUS_CBUD) else s.rd pwrB PWR_STATUS_CBUD)
      (if l = 0 then s.rd pwrB PWR_STATUS_SBUD else max 3 (s.rd pwrB PWR_STATUS_SBUD))
    (s.pwr.rails = false ∨ watts ≤ s.limitW → exec (.fastTrip watts) s = .next s) ∧
    (s.pwr.rails = true → s.limitW < watts → (∀ at_ first, s.pwr.fastAt = some (at_, first) → at_ + 3000 ≤ s.tsc) → Goes (.fastTrip watts) s (fun u =>
      u = { s with regs := u.regs, reports := u.reports, pwr := { s.pwr with fastAt := some (s.tsc, decide (l = 0)), since := u.pwr.since, cOn := u.pwr.cOn, sOn := u.pwr.sOn, cRest := u.pwr.cRest, sRest := u.pwr.sRest } } ∧
      WordsBut s u (levelWords ++ [pwrB + PWR_FAST_COUNT.off]) ∧ raised u l ∧ Counted s u pwrB PWR_FAST_COUNT 1 ∧ s.reports <+: u.reports ∧
      s.report pwrSrc 0x0704 [watts, l] ∈ u.reports)) ∧
    (∀ at_ first, s.pwr.rails = true → s.limitW < watts → s.pwr.fastAt = some (at_, first) →
      (s.tsc < at_ + 2000 → exec (.fastTrip watts) s = .next s) ∧
      (at_ + 2000 ≤ s.tsc → s.tsc < at_ + 3000 → Goes (.fastTrip watts) s (fun u =>
        u = { s with regs := u.regs, reports := u.reports, pwr := { s.pwr with since := u.pwr.since, cOn := u.pwr.cOn, sOn := u.pwr.sOn, cRest := u.pwr.cRest, sRest := u.pwr.sRest } } ∧ s.reports <+: u.reports ∧
        WordsBut s u levelWords ∧ raised u (if first then 1 else 0))))) ∧
  (∀ (pin on : Bool) (s : State),
    let c : Instr := if on then .powerBrakeAssert pin else .powerBrakeRelease pin
    let f := if pin then PWR_BRAKE_PIN else PWR_BRAKE_SW
    let g := if pin then PWR_BRAKE_SW else PWR_BRAKE_PIN
    (s.pwr.in12 = false ∨ s.flag pwrB f = on → exec c s = .next s) ∧
    (s.pwr.in12 = true → s.flag pwrB f = !on → Goes c s (fun u =>
      u = { s with regs := u.regs, reports := u.reports, pwr := { s.pwr with cOn := u.pwr.cOn, sOn := u.pwr.sOn, cRest := u.pwr.cRest, sRest := u.pwr.sRest } } ∧
      WordsBut s u (levelWords ++ [pwrB + PWR_BRAKE_SW.off]) ∧ u.flag pwrB f = on ∧ u.rd pwrB g = s.rd pwrB g ∧ LevelsShown u ∧
      (u.flag pwrB PWR_BRAKE_ACTIVE = true ↔ (u.flag pwrB PWR_BRAKE_PIN = true ∧ s.pwr.rails = true) ∨ u.flag pwrB PWR_BRAKE_SW = true) ∧
      s.reports <+: u.reports ∧ (pin = false ∨ s.pwr.rails = true → s.report pwrSrc (if on then 0x0705 else 0x0706) [if pin then 1 else 2] ∈ u.reports) ∧
      (pin = true → s.pwr.rails = false → ∀ q ∈ u.reports, q ∈ s.reports ∨ q.code = 0x070F))))

/-- THERMAL_SAMPLE stores the diode readings and the stack model (its filter with the fraction of log 36, a DESIGN CHOICE), moves each sensor between NORMAL, WARNING and THROTTLE by the thresholds of Table 16-4 with their hysteresis (leaving THROTTLE leads to WARNING, DEDUCED, log 35), raises the thermal floor of a sensor that enters THROTTLE, emits 0x0710 to 0x0712, and sets the alert and the effective levels. THERMAL_FLOOR_STEP raises the floor of each sensor in THROTTLE by one and lowers the others. AVS_UPDATE moves the set point of an island by 5 mV between the fused VMIN and VMAX, or reports the limit; droops are counted, and reported once the stretching has lasted 1 microsecond (log 37 of the model, a DESIGN CHOICE). Nothing else changes. -/
def Obligations.TemperatureAndDroopAreWatched : Prop :=
  (∀ (die : Fin 2) (island move : Nat) (s : State),
    let old := s.setPoint die island
    let low := s.brup.parts.vmin.getD die.val 0
    let high := s.brup.parts.vmax.getD die.val 0
    let new := if move = 1 then old + 5 else if move = 2 then max low (old - 5) else if move = 3 then high + 1 else old
    (s.pwr.rails = false ∨ (s.pwr.c0Only = true ∧ die.val = 1) → exec (.avsUpdate die island move) s = .next s) ∧
    (s.pwr.rails = true → s.pwr.c0Only = false ∨ die.val = 0 → Goes (.avsUpdate die island move) s (fun u =>
      u = { s with regs := u.regs, reports := u.reports, pwr := { s.pwr with set := u.pwr.set } } ∧
      (∀ d < 2, ∀ i, u.setPoint d i = if d = die.val ∧ i = island then min high new else s.setPoint d i) ∧
      (new ≤ high → u.regs = s.regs ∧ u.reports = s.reports) ∧
      (high < new → WordsBut s u [pwrB + PWR_STATUS_AVS_LIM.off] ∧ FieldSet s u pwrB PWR_STATUS_AVS_LIM 1 ∧ u.reports = s.reports ++ [s.report pwrSrc 0x0731 [die.val, island]])))) ∧
  (∀ (t : TileId) (cycles ns : Nat) (s : State), let k := t.toNat
    let none_ := fun (_ : Nat) => ((0, 0) : Nat × Nat)
    let old := look none_ s.pwr.stretch k
    (s.tileUp k = false → exec (.droopDetect t ⟨cycles, ns⟩) s = .next s) ∧
    (s.tileUp k = true → Goes (.droopDetect t ⟨cycles, ns⟩) s (fun u =>
      u = { s with regs := u.regs, reports := u.reports, pwr := { s.pwr with stretch := u.pwr.stretch } } ∧ WordsBut s u [tileB k + TILE_DROOP_CYC_COUNT.off] ∧
      Counted s u (tileB k) TILE_DROOP_CYC_COUNT cycles ∧
      (∀ d, look none_ u.pwr.stretch d = if d = k then (old.1 + cycles, old.2 + ns) else look none_ s.pwr.stretch d) ∧
      (old.2 < 1000 → 1000 ≤ old.2 + ns → s.report k 0x0730 [old.1 + cycles] ∈ u.reports))) ∧
    Goes (.droopRecover t) s (fun u => u = { s with pwr := { s.pwr with stretch := u.pwr.stretch } } ∧
      ∀ d, look none_ u.pwr.stretch d = if d = k then (0, 0) else look none_ s.pwr.stretch d)) ∧
  (∀ (diodes : List Int) (power : List Nat) (s : State),
    (s.pwr.in12 = false → exec (.thermalSample diodes power) s = .next s) ∧
    (s.pwr.in12 = true → Goes (.thermalSample diodes power) s (fun u =>
      u = { s with regs := u.regs, reports := u.reports, therm := { s.therm with floor := u.therm.floor, pf := u.therm.pf }, pwr := { s.pwr with cOn := u.pwr.cOn, sOn := u.pwr.sOn, cRest := u.pwr.cRest, sRest := u.pwr.sRest } } ∧ s.reports <+: u.reports ∧
      WordsBut s u (levelWords ++ [pwrB + THERM_STAT_STATE.off] ++ (List.range 2).map (fun d => pwrB + 0x400 + 8 * d) ++
        (List.range 12).flatMap (fun k => [pwrB + 0x410 + 8 * k, pwrB + 0x480 + 8 * k])) ∧
      (∀ d < 2, u.rd pwrB (THERM_TEMP_C_T.at (8 * d)) = wrapTo 12 (diodes.getD d 0)) ∧
      (∀ k < 12, let base := diodes.getD (2 + k) 0
        let tau := 1000 * s.rd pwrB (THERM_MODEL_TAU_MS.at (8 * k))
        let p : Int := ((if s.pwr.rails = true ∧ s.pwr.c0Only = false then power.getD k 0 else 0 : Nat) : Int) * 2 ^ 20
        let old := look (fun _ => (0 : Int)) s.therm.pf k
        let pf := if tau = 0 then p else old + (p - old) * 100 / (tau : Int)
        u.rd pwrB (THERM_TEMP_B_T.at (8 * k)) = wrapTo 12 base ∧ look (fun _ => (0 : Int)) u.therm.pf k = pf ∧
          u.rd pwrB (THERM_MODEL_T.at (8 * k)) = wrapTo 12 (base + (s.rd pwrB (THERM_MODEL_RTH.at (8 * k)) : Int) * pf * 8 / (10000 * 2 ^ 20))) ∧
      (∀ i < 14, let r := u.reading i
        let old := s.sensor i
        let warn := if i < 2 then 95 * 8 else 85 * 8
        let hot := if i < 2 then 105 * 8 else 95 * 8
        let new := if hot ≤ r ∨ (old = 2 ∧ hot - 40 ≤ r) then 2 else if warn ≤ r ∨ (old ≠ 0 ∧ warn - 40 ≤ r) then 1 else 0
        u.sensor i = new ∧ u.floorOf i = (if new = 2 ∧ old ≠ 2 then min 7 (s.floorOf i + 1) else s.floorOf i) ∧
        (new = 2 → old ≠ 2 → s.report thermSrc 0x0711 [i, wrapTo 12 r] ∈ u.reports) ∧ (new ≠ 2 → old = 2 → s.report thermSrc 0x0712 [i, wrapTo 12 r] ∈ u.reports) ∧
        (new = 1 → old ≠ 1 → s.report thermSrc 0x0710 [i, wrapTo 12 r] ∈ u.reports)) ∧
      LevelsShown u ∧ (u.rd pwrB THERM_STAT_STATE ≠ 0 → u.flag pwrB THERM_STAT_ALERT = true) ∧
      (u.rd pwrB THERM_STAT_STATE = 0 → s.therm.off = false → u.flag pwrB THERM_STAT_ALERT = false)))) ∧
  (∀ s : State,
    (s.pwr.in12 = false → exec .thermalFloorStep s = .next s) ∧
    (s.pwr.in12 = true → Goes .thermalFloorStep s (fun u => u = { s with regs := u.regs, reports := u.reports, therm := { s.therm with floor := u.therm.floor }, pwr := { s.pwr with cOn := u.pwr.cOn, sOn := u.pwr.sOn, cRest := u.pwr.cRest, sRest := u.pwr.sRest } } ∧ s.reports <+: u.reports ∧ WordsBut s u levelWords ∧
      (∀ i, u.floorOf i = if 14 ≤ i then s.floorOf i else if s.sensor i = 2 then min 7 (s.floorOf i + 1) else s.floorOf i - 1) ∧ LevelsShown u)))

/-! ### Supplies, bring-up and card reset -/

/-- Words that show fuses, levels, trips and the step, which a drop of the rails writes anew. -/
def Sys2Proof.Machine.dropWords : List Nat :=
  [cardB, cardB + 0x8, cardB + 0x10, pwrB + 0x8, pwrB + 0x10, pwrB + 0x18, pwrB + 0x500, pwrB + 0x508, pwrB + 0x510, secB, secB + 0x18] ++ (List.range 12).map (fun k => pwrB + 0x480 + 8 * k)

/-- Rails 2-43 have dropped (R451, R463): every package register, device memory and tile is at its reset state and the link is down; with the link down already, nothing else but power, trip and brake state has changed. -/
def Sys2Proof.Machine.RailsDropped (s u : State) : Prop :=
  u.mem = { bytes := [], poison := [], errs := [] } ∧ u.ccs = [] ∧ u.engs = [] ∧ u.bdies = [] ∧ u.tiles = [] ∧ u.flight = [] ∧ u.recsOut = [] ∧ u.molt = { queue := [] } ∧
  u.rings = [] ∧ u.evs = [] ∧ u.cuts = [] ∧ u.host = HostSt.init ∧ u.pwr.rails = false ∧ u.brup.dies = 0 ∧ u.brup.logging = true ∧ u.brup.running = none ∧
  u.sec.session = none ∧ u.sec.nonce = none ∧ u.dlUp = false ∧ (∀ o, keptWord o = false → o ∉ dropWords → u.word o = (regReset o).toNat) ∧
  (s.dlUp = false → (∀ o, keptWord o = true → o ∉ dropWords → u.word o = s.word o) ∧
    u = { s with regs := u.regs, pend := u.pend, pendMask := u.pendMask, mem := u.mem, ccs := [], engs := [], bdies := [], tiles := [], flight := [], recsOut := [], molt := u.molt,
                 rings := [], evs := [], cuts := [], cutNo := 0, host := HostSt.init, therm := u.therm,
                 pwr := { s.pwr with quiet := 0, beyond := false, since := none, fastAt := none, cOn := u.pwr.cOn, sOn := u.pwr.sOn, cRest := 0, sRest := 0, switch := false, rails := false, c0Only := false, set := [], stretch := [], perst := u.pwr.perst },
                 brup := { s.brup with running := none, dies := 0, began := u.brup.began, logging := true, extest := false, update := none, flashBad := u.brup.flashBad,
                                       nv := s.brup.nv.filter (fun o => decide (o ≠ NvOp.update)) },
                 sec := { s.sec with nonce := none, session := none, idSeed := if s.brup.parts.idKey then some s.brup.parts.idSeed else none },
                 card := { s.card with tapIr0 := 1, tapIr1 := 1, bound0 := [], bound1 := [] } })

/-- A card reset has begun (R463): the rails have dropped and bring-up starts at step 1. -/
def Sys2Proof.Machine.CardResetBegun (s u : State) : Prop :=
  RailsDropped s u ∧ u.rd cardB BRUP_STAT_STEP = 1 ∧ u.ready = false ∧ u.failed = false ∧ u.brup.began = u.tsc ∧ u.therm.off = false

/-- A shutdown recorded in THERM_TRIP (R451, R455). -/
def Sys2Proof.Machine.Tripped (s u : State) (sensor : Nat) : Prop :=
  RailsDropped s u ∧ u.rd pwrB THERM_TRIP_SENSOR = sensor ∧ u.rd pwrB THERM_TRIP_COUNT = (s.rd pwrB THERM_TRIP_COUNT + 1) % 65536 ∧
    u.rd pwrB THERM_TRIP_TSC_US = s.tsc / 1000 % 2 ^ 31 ∧ u.flag pwrB THERM_TRIP_VALID = true ∧ u.therm.off = true

/-- Every sensor reads below its restart value and AUTO_RESTART is set (R452). -/
def Sys2Proof.Machine.Cooled (s : State) : Prop := (∀ i < 14, s.reading i < if i < 2 then 90 * 8 else 80 * 8) ∧ s.flag pwrB THERM_CTRL_AUTO_RESTART = true

/-- Bring-up may go on. -/
def Sys2Proof.Machine.Starting (s : State) : Prop := s.pwr.in12 = true ∧ s.ready = false ∧ s.failed = false ∧ s.therm.off = false ∧ s.inExtest = false

/-- Recovery mode still needs the rails of C0 (R479). -/
def Sys2Proof.Machine.Recovering (s : State) : Prop :=
  s.pwr.in12 = true ∧ s.ready = false ∧ s.failed = true ∧ s.flag secB SEC_RECOV_ACTIVE = true ∧ s.pwr.rails = false ∧ s.therm.off = false ∧ s.inExtest = false

/-- Power as step 2 finds IN48 and its contact (R458, R522). -/
def Sys2Proof.Machine.foundPwr (s : State) (f : BringUpFacts) : PwrSt :=
  { s.pwr with prsnt := f.prsnt, in48 := if f.in48Ok then .qualified else if s.pwr.in48 = .qualified then .present else s.pwr.in48 }

/-- Recovery mode has C0's rails and no others, and C0 alone out of reset (R479). -/
def Sys2Proof.Machine.OnlyC0 (u : State) : Prop := u.pwr.rails = true ∧ u.pwr.c0Only = true ∧ u.pwr.switch = true ∧ u.pwr.in48 = .qualified ∧ u.brup.dies = 1

/-- Bring-up has failed at a step (R479). -/
def Sys2Proof.Machine.FailedAt (s u : State) (step reason : Nat) : Prop :=
  u.failed = true ∧ u.ready = false ∧ u.rd cardB BRUP_STAT_STEP = step ∧ u.rd cardB BRUP_STAT_REASON = reason ∧ s.report felvikSrc 0x0907 [step, reason] ∈ u.reports

/-- THERMAL_SHUTDOWN at 115.0 C (C-dies) or 105.0 C (stacks) and UNDERVOLTAGE_SHUTDOWN below 42.0 V, or with PB_PRSNT_N open (log 82 of the model, DEDUCED), drop rails 2-43: every package register, device memory and tile returns to its reset state, the TAP chain loses its power, THERM_TRIP records the trip, and the event waits for the restart. THERMAL_RESTART, once every sensor is below its restart value, AUTO_RESTART is set and fewer than TRIP_MAX trips lie in the hour, begins a card reset, after an undervoltage shutdown when IN48 qualifies; IN48_QUALIFIED does so too. SUPPLY_SAG_LOCKOUT, by the set point that its sample brings (log 38 of the model, DEDUCED), records the rail and its voltage, counts and locks out non-volatile operations; SUPPLY_SAG_RECOVER ends it and runs those that waited, up to an update. -/
def Obligations.SuppliesShutDownAndRestart : Prop :=
  (∀ (i : Fin 14) (s : State), let k := i.val
    let hot := s.pwr.rails = true ∧ (if k < 2 then 115 * 8 else 105 * 8) ≤ s.reading k
    (¬ hot → exec (.thermalShutdown i) s = .next s) ∧
    (hot → Goes (.thermalShutdown i) s (fun u => Tripped s u k ∧ u.rd pwrB THERM_TRIP_T = wrapTo 12 (s.reading k) ∧
      (∃ n us, u.therm.note = some ⟨thermSrc, 0x0713, [k, wrapTo 12 (s.reading k), n, us, 1], u.tsc⟩) ∧
      (s.dlUp = false → u.therm.trips = s.tsc :: s.therm.trips ∧ (s.pwr.in12 = true → u.flag pwrB THERM_STAT_ALERT = true))))) ∧
  (∀ s : State,
    let ok := s.pwr.in12 = true ∧ s.therm.off = true ∧ Cooled s ∧
      (s.thermalOff = true → (s.therm.trips.filter (fun t => decide (s.tsc < t + 3600000000000))).length < s.rd pwrB THERM_CTRL_TRIP_MAX) ∧
      (s.thermalOff = false → s.pwr.in48 = .qualified)
    (ok → Goes .thermalRestart s (fun u => CardResetBegun s u)) ∧ (¬ ok → exec .thermalRestart s = .next s)) ∧
  (∀ (x : In48Loss) (s : State),
    let v : State := { s with
      regs := if s.pwr.in12 then (s.wr pwrB PWR_RAIL_MV (min 65535 x.mv)).regs else s.regs,
      pwr := { s.pwr with in48 := if s.pwr.in12 then seen48 s.pwr.in48 x.mv else s.pwr.in48, prsnt := s.pwr.prsnt && !x.opens, switch := s.pwr.switch && !x.opens } }
    (42000 ≤ x.mv → x.opens = false → exec (.undervoltageShutdown x) s = .next s) ∧
    (x.mv < 42000 ∨ x.opens = true →
      (s.pwr.rails = false → exec (.undervoltageShutdown x) s = .next v) ∧
      (s.pwr.rails = true → Goes (.undervoltageShutdown x) s (fun u => Tripped { v with free := s.free + 1 } u 14 ∧
        u.therm.note = some ⟨pwrSrc, 0x0722, [x.mv], u.tsc⟩)))) ∧
  (∀ s : State, let v := { s with pwr := { s.pwr with in48 := .qualified } }
    let begins := s.therm.off = true ∧ s.pwr.rails = false ∧ s.thermalOff = false ∧ Cooled s
    (s.pwr.in12 = false → exec .in48Qualified s = .next s) ∧
    (s.pwr.in12 = true → ¬ begins → exec .in48Qualified s = .next v) ∧
    (s.pwr.in12 = true → begins → Goes .in48Qualified s (fun u => CardResetBegun v u))) ∧
  (∀ (rail : Nat) (x : RailSample) (s : State),
    let sags := s.pwr.in12 = true ∧ Low s rail x
    let in48' := if rail = 0 then seen48 s.pwr.in48 x.mv else s.pwr.in48
    (¬ sags → exec (.supplySagLockout rail x) s = .next s) ∧
    (sags → s.lockout = true → Goes (.supplySagLockout rail x) s (fun u =>
      u = { s with regs := u.regs, pwr := { s.pwr with in48 := in48' } } ∧ WordsBut s u [pwrB + SUPPLY_STAT_RAIL.off, pwrB + 0x100 + 8 * rail] ∧
      FieldSet s u pwrB SUPPLY_STAT_RAIL rail ∧ u.flag pwrB (PWR_RAIL_SAG.at (8 * rail)) = true ∧ u.rd pwrB (PWR_RAIL_MV.at (8 * rail)) = min 65535 x.mv ∧
      u.rd pwrB (PWR_RAIL_DW.at (8 * rail)) = s.rd pwrB (PWR_RAIL_DW.at (8 * rail)))) ∧
    (sags → s.lockout = false → Goes (.supplySagLockout rail x) s (fun u =>
      u = { s with regs := u.regs, pwr := { s.pwr with in48 := in48', lockAt := some s.tsc }, reports := s.reports ++ [s.report pwrSrc 0x0720 [rail, x.mv]] } ∧
      WordsBut s u [pwrB + SUPPLY_STAT_RAIL.off, pwrB + 0x100 + 8 * rail] ∧ u.flag pwrB (PWR_RAIL_SAG.at (8 * rail)) = true ∧
      u.rd pwrB (PWR_RAIL_MV.at (8 * rail)) = min 65535 x.mv ∧ u.rd pwrB (PWR_RAIL_DW.at (8 * rail)) = s.rd pwrB (PWR_RAIL_DW.at (8 * rail)) ∧ u.lockout = true ∧
      u.rd pwrB SUPPLY_STAT_RAIL = rail ∧ u.rd pwrB SUPPLY_STAT_COUNT = satAdd 32 (s.rd pwrB SUPPLY_STAT_COUNT) 1))) ∧
  (∀ s : State,
    (s.lockout = false → exec .supplySagRecover s = .next s) ∧
    (s.lockout = true → Goes .supplySagRecover s (fun u => u.lockout = false ∧ (u.brup.nv = [] ∨ ∃ r, u.brup.nv = .update :: r) ∧
      s.reports ++ [s.report pwrSrc 0x0721 [(s.tsc - s.pwr.lockAt.getD s.tsc) / 1000]] <+: u.reports ∧
      ((∀ o ∈ s.brup.nv, ∀ v b, o ≠ .lifecycle v b) → u.pwr = { s.pwr with lockAt := none } ∧ (∀ r < 44, u.flag pwrB (PWR_RAIL_SAG.at (8 * r)) = false) ∧
        u.mem = s.mem ∧ u.tiles = s.tiles ∧ u.rings = s.rings ∧ u.host = s.host ∧
        u.brup.parts.lc = s.brup.parts.lc ∧ u.rd secB SEC_DBG_LEVEL = s.rd secB SEC_DBG_LEVEL) ∧
      (s.brup.nv = [] → u = { s with regs := u.regs, pwr := u.pwr, reports := u.reports } ∧
        WordsBut s u ((pwrB + SUPPLY_STAT_LOCKOUT.off) :: (List.range 44).map (fun r => pwrB + 0x100 + 8 * r))) ∧
      ((∃ r, s.brup.nv = .update :: r) → u.brup = s.brup))))

/-- POWER_ON leaves the management island at its reset state with the debug level of the lifecycle (its operand gives the fuses once, log 5 of the model); IN12_REMOVAL does so without power. BRING_UP verifies the image (a failure enters recovery mode with C0 alone), waits for IN48 and its contact, and on a part without faults ends READY with every fused tile out of reset and its Spawn image loaded (the boot tile's scratchpad holds it from offset 0, log 72 of the model), every stack present, memory cleared and the windows open; a seam that trains at neither width fails step 4, an image that does not match its digest step 8. CARD_RESET and CFG_SAVE need the key; whether a save fails is free (log 79). LOOPBACK_RUN through BAR0 takes its fields and runs only on a retired channel; the Felvik controller runs the seam and the near ends of the host link, the host the far end, which takes the link down (log 84); LOOPBACK_END reports. PERST_N takes the link down, or begins a card reset after a shutdown, a failure or a card fault (log 39). -/
def Obligations.PowerOnBringUpAndCardReset : Prop :=
  (∀ (x : FactoryParts) (s : State), let p := if s.brup.made then s.brup.parts else x
    Goes (.powerOn x) s (fun u =>
    u = { State.reset with pending := s.pending, free := s.free, out := s.out, regs := u.regs,
                           pwr := { PwrSt.init with perst := s.pwr.perst, in48 := s.pwr.in48, prsnt := s.pwr.prsnt },
                           brup := { BrupSt.init with parts := p, made := true, flash := s.brup.flash, flashBad := s.brup.flashBad },
                           sec := { SecSt.init with idSeed := if p.idKey then some p.idSeed else none }, card := { CardSt.init with trst := s.card.trst } } ∧
    u.debugLevel = (if p.lc = 1 then 0 else if p.lc = 2 then 1 else 2) ∧ u.rd secB SEC_LC_STATE = p.lc % 4 ∧ u.rd secB SEC_KEYS_COUNTER = p.counter % 256 ∧
    u.rd secB SEC_KEYS_REVOKED = p.revoked % 16 ∧ u.rd cardB ID_SERIAL_SERIAL = p.serial % 2 ^ 64)) ∧
  (∀ s : State, let p := s.brup.parts
    (s.pwr.in12 = false → exec .in12Removal s = .next s) ∧
    (s.pwr.in12 = true → exec .in12Removal s = .next { State.reset with
        pending := s.pending, free := s.free, out := s.out, pwr := { PwrSt.init with perst := s.pwr.perst, in48 := s.pwr.in48, prsnt := s.pwr.prsnt, in12 := false },
        brup := { BrupSt.init with parts := p, made := true, flash := s.brup.flash, flashBad := s.brup.flashBad || s.brup.update.isSome },
        sec := { SecSt.init with idSeed := if p.idKey then some p.idSeed else none }, card := { CardSt.init with trst := s.card.trst } })) ∧
  (∀ (f : BringUpFacts) (s : State), let on := f.in48Ok = true ∧ f.prsnt = true
    (¬ Starting s → ¬ Recovering s → exec (.bringUp f) s = .next s) ∧
    (Recovering s → (on → Goes (.bringUp f) s (fun u => OnlyC0 u ∧ u.failed = true ∧ u.mem = s.mem ∧
        (∀ t ∈ s.fused, t < 256 → t ∈ f.tileFail → s.report felvikSrc 0x0903 [t, 1] ∈ u.reports))) ∧
      (¬ on → exec (.bringUp f) s = .next { s with pwr := foundPwr s f })) ∧
    (Starting s → s.rd cardB BRUP_STAT_STEP ≤ 1 → s.brup.flashBad = false → s.sec.unlock = false →
      let i := s.brup.flash.getD f.image
      let why := verifyImage s.brup.parts i
      (why ≠ 0 → Goes (.bringUp f) s (fun u => FailedAt s u 1 1 ∧ u.flag secB SEC_RECOV_ACTIVE = true ∧ u.rd secB SEC_RECOV_REASON = why ∧
        s.reports ++ [s.report felvikSrc 0x0802 [why]] <+: u.reports ∧ u.mem = s.mem ∧
        (s.pwr.rails = false → (on → OnlyC0 u) ∧ (¬ on → u.pwr = foundPwr s f ∧ u.brup = s.brup)))) ∧
      (why = 0 → ¬ on → Goes (.bringUp f) s (fun u => u.brup = { s.brup with running := some i } ∧ u.rd cardB BRUP_STAT_STEP = 2 ∧
        u.failed = false ∧ u.rd secB SEC_KEYS_BOOT_SLOT = i.keySlot % 4 ∧ u.rd secB SEC_KEYS_SVN = i.svn % 256 ∧ s.report felvikSrc 0x0801 [i.keySlot, i.svn] ∈ u.reports ∧
        u.pwr = foundPwr s f ∧ u.mem = s.mem))) ∧
    (∀ i, Starting s → s.rd cardB BRUP_STAT_STEP = 2 → on → s.brup.running = some i →
      (f.seamFull = false → f.seamHalf = false → Goes (.bringUp f) s (fun u => FailedAt s u 4 3 ∧ u.pwr.rails = true ∧ u.pwr.c0Only = false ∧ u.brup.dies = 2)) ∧
      (f.seamFull = true → f.absent = [] → f.loopback = [] → f.engineFail = [] → f.tileFail = [] → f.spawnRuns = [] → s.brup.parts.retired = [] →
        i.rollFwd = false → (∀ c < 384, s.retired c = false) → 96 ≤ (s.fused.filter (fun t => decide (t < 256))).length → 96 ≤ (s.fused.filter (fun t => decide (256 ≤ t))).length →
        (spawnOk i = false → Goes (.bringUp f) s (fun u => FailedAt s u 8 4 ∧ u.brup.dies = 2)) ∧
        (spawnOk i = true → Config.sha3 (spawnBytes i) ≠ Config.spawnDigest (spawnBytes i) → Goes (.bringUp f) s (fun u => FailedAt s u 8 2 ∧ u.brup.dies = 2)) ∧
        (spawnOk i = true → Config.sha3 (spawnBytes i) = Config.spawnDigest (spawnBytes i) →
        Goes (.bringUp f) s (fun u => u.ready = true ∧ u.failed = false ∧ u.rd cardB BRUP_STAT_STEP = 9 ∧ u.pwr.rails = true ∧ u.brup.dies = 2 ∧
          u.mem = { bytes := [], poison := [], errs := [] } ∧ u.flag seamB SEAM_STAT_UP = true ∧ u.rd cardB FP_STACKS_PRESENT = 0xFFF ∧ u.rd cardB FP_GEN_GEN = 1 ∧
          (∀ t, u.enabled t = (isSite t && s.brup.parts.tiles.contains t)) ∧
          (∀ t ∈ s.fused, u.tile t = { Tile.init with inReset := false, imem := spawnMem (Config.spawnPages (spawnBytes i)), sp := if t = u.rd cardB BRUP_STAT_BOOT_TILE then spFrom (spawnBytes i) else [] }) ∧
          (∀ c < 384, u.flag (ccB c) CC_ILV_CTRL_ENABLE = true ∧ (u.cc c).refresh = true ∧ (u.cc c).epoch = s.tsc) ∧
          (∀ t, bootOrder.find? (fun t => s.brup.parts.tiles.contains t) = some t → u.rd cardB BRUP_STAT_BOOT_TILE = t) ∧
          s.report felvikSrc 0x0901 [s.fused.length, u.rd cardB FP_COUNTS_CHAN_RET, 12, u.rd cardB FP_SEAM_HALF] ∈ u.reports))))) ∧
  (∀ (key : Nat) (s : State), Writable s (cardB + 0x18) →
    (key % 65536 ≠ 0xA55A → Goes (.cardReset 0 key) s (fun u => OnlyWords s u [hostB + HOST_ERR_FLAGS_CHG_REJ.off] ∧ FieldSet s u hostB HOST_ERR_FLAGS_CHG_REJ 1) ∧
      Goes (.cfgSave 0 key) s (fun u => OnlyWords s u [hostB + HOST_ERR_FLAGS_CHG_REJ.off] ∧ FieldSet s u hostB HOST_ERR_FLAGS_CHG_REJ 1)) ∧
    (key % 65536 = 0xA55A → Goes (.cardReset 0 key) s (fun u => CardResetBegun s u) ∧
      (s.lockout = true → s.brup.nv = [] → exec (.cfgSave 0 key) s = .next { s with brup := { s.brup with nv := [.save] } }) ∧
      ((∃ r, s.brup.nv = .update :: r) → exec (.cfgSave 0 key) s = .next { s with brup := { s.brup with nv := s.brup.nv ++ [.save] } }) ∧
      (s.lockout = true → ∀ o r, s.brup.nv = o :: r → (∀ v, o ≠ .lifecycle v false ∧ o ≠ .revoke v false) →
        exec (.cfgSave 0 key) s = .next { s with brup := { s.brup with nv := s.brup.nv ++ [.save] } }) ∧
      (s.lockout = false → s.brup.nv = [] →
        let c := s.bootConfig
        let bad := Config.saveFails s.free
        let kept := if bad then (if Config.saveDamages s.free then none else s.brup.parts.config) else some c
        let t : State := { s with free := s.free + 1, brup := { s.brup with nv := [], parts := { s.brup.parts with config := kept } } }
        exec (.cfgSave 0 key) s = .next { t with reports := s.reports ++ [s.report felvikSrc 0x090A [if c.1 then 1 else 0, if c.2.1 then 1 else 0, if bad then 1 else 0]] }))) ∧
  (∀ (ctrl : Word) (s : State), let w := ctrl.toNat
    Writable s (cardB + 0x80) → s.flag cardB TEST_LPBK_STAT_BUSY = false →
    bitsOf w 0 2 ≤ 2 → bitsOf w 2 2 ≤ (if bitsOf w 0 2 = 1 then 1 else 2) → bitsOf w 20 2 ≤ 2 → 1 ≤ bitsOf w 24 24 →
    let runs := bitsOf w 0 2 = 0 ∧ bitsOf w 4 9 < 384 ∧ s.retired (bitsOf w 4 9) = true
    Goes (.loopbackRun (.bar0 0) ctrl) s (fun u => OnlyWords s u [cardB + 0x80, cardB + 0x88] ∧
      (∀ g ∈ [TEST_LPBK_CTRL_IF, TEST_LPBK_CTRL_DEPTH, TEST_LPBK_CTRL_CHANNEL, TEST_LPBK_CTRL_CORE, TEST_LPBK_CTRL_PATTERN, TEST_LPBK_CTRL_BURSTS], u.rd cardB g = bitsOf w g.lo g.w) ∧
      (runs → FieldSet s u cardB TEST_LPBK_STAT_BUSY 1) ∧ (¬ runs → FieldSet s u cardB TEST_LPBK_STAT_REFUSED 1))) ∧
  (∀ (host : Bool) (ctrl : Word) (s : State), let w := ctrl.toNat
    let runs := if host then bitsOf w 0 2 = 2 ∧ bitsOf w 2 2 = 2 ∧ s.dlUp = true else s.debugLevel = 2 ∧ (bitsOf w 0 2 = 1 ∨ bitsOf w 0 2 = 2) ∧ bitsOf w 2 2 < 2
    let c := Instr.loopbackRun (if host then .host else .felvik) ctrl
    (s.flag cardB TEST_LPBK_STAT_BUSY = true ∨ s.brup.dies = 0 → exec c s = .next s) ∧
    (s.flag cardB TEST_LPBK_STAT_BUSY = false → s.brup.dies ≠ 0 →
      (¬ runs → Goes c s (fun u => OnlyWords s u [cardB + 0x88] ∧ FieldSet s u cardB TEST_LPBK_STAT_REFUSED 1)) ∧
      (runs → ∃ v, OnlyWords s v [cardB + 0x80, cardB + 0x88] ∧ FieldSet s v cardB TEST_LPBK_STAT_BUSY 1 ∧ v.word (cardB + 0x80) = w % 2 ^ 48 ∧
        (bitsOf w 0 2 = 2 ∧ s.dlUp = true ∧ NothingAsked s → Goes c s (fun u => WentDown v u (if host then 4 else 3))) ∧
        (bitsOf w 0 2 ≠ 2 ∨ s.dlUp = false → exec c s = .next v)))) ∧
  (∀ (errors : Nat) (s : State),
    (s.flag cardB TEST_LPBK_STAT_BUSY = false → exec (.loopbackEnd errors) s = .next s) ∧
    (s.flag cardB TEST_LPBK_STAT_BUSY = true → let e := min (2 ^ 32 - 1) errors
      Goes (.loopbackEnd errors) s (fun u => u = { s with regs := u.regs, reports := s.reports ++
          [s.report felvikSrc 0x0909 [s.rd cardB TEST_LPBK_CTRL_IF, s.rd cardB TEST_LPBK_CTRL_DEPTH, s.rd cardB TEST_LPBK_CTRL_CHANNEL, e]] } ∧
        WordsBut s u [cardB + 0x88] ∧ u.flag cardB TEST_LPBK_STAT_BUSY = false ∧ u.flag cardB TEST_LPBK_STAT_DONE = true ∧ u.rd cardB TEST_LPBK_STAT_ERRORS = e))) ∧
  (∀ s : State, let p := { s with pwr := { s.pwr with perst := true } }
    (s.pwr.perst = true → exec .perstNAssertion s = .next s) ∧
    (s.pwr.perst = false → s.pwr.in12 = true → s.therm.off = true ∨ s.flag hostB FLT_CARD_CARD_FAULT = true ∨ s.failed = true → Goes .perstNAssertion s (fun u => CardResetBegun s u)) ∧
    (s.pwr.perst = false → s.pwr.in12 = false ∨ (s.therm.off = false ∧ s.flag hostB FLT_CARD_CARD_FAULT = false ∧ s.failed = false ∧ s.dlUp = false) → exec .perstNAssertion s = .next p) ∧
    (s.pwr.perst = false → s.pwr.in12 = true → s.therm.off = false → s.flag hostB FLT_CARD_CARD_FAULT = false → s.failed = false → s.dlUp = true → NothingAsked s →
      Goes .perstNAssertion s (fun u => WentDown p u 2)) ∧
    exec .perstNDeassertion s = .next { s with pwr := { s.pwr with perst := false } })

/-! ### Security and debug -/

/-- The four words of measurement `i` (Table 18-4). -/
def Sys2Proof.Machine.measWords (i : Nat) : List Nat := (List.range 4).map (fun j => secB + 0x100 + 32 * i + 8 * j)

/-- A write of the security block was rejected (Table 19-2). -/
def Sys2Proof.Machine.SecRejected (s u : State) : Prop := OnlyWords s u [secB + SEC_FW_STAT_CHG_REJ.off] ∧ FieldSet s u secB SEC_FW_STAT_CHG_REJ 1

/-- A DOE response of Valloth: message code, status and payload (Table 18-5). -/
def Sys2Proof.Machine.Answered (s : State) (code status : Nat) (payload : List Byte) : State :=
  { s with out := s.out ++ [.doe ([BitVec.ofNat 8 code, BitVec.ofNat 8 status, 0, 0] ++ payload)] }

/-- The fields of bytes 0-327 of a quote (Table 18-6). -/
def Sys2Proof.Machine.QuoteFields (s : State) (q : List Byte) (signed_ session : Bool) (nonce : BitVec 256) : Prop :=
  let n := fun (v : Nat) => BitVec.ofNat 8 v
  q.length = 328 ∧
  q.take 4 = [1, n (s.rd secB SEC_LC_STATE), n s.debugLevel, n (s.rd secB SEC_DBG_TAINT + (if signed_ then 2 else 0) + (if session then 4 else 0) + (if s.recovery then 8 else 0))] ∧
  (q.drop 8).take 8 = leBytes 8 (s.rd cardB ID_SERIAL_SERIAL) ∧ (q.drop 16).take 8 = leBytes 8 s.tsc ∧ (q.drop 24).take 4 = leBytes 4 (s.rd cardB FP_GEN_GEN) ∧
  (q.drop 32).take 32 = leBytes 32 nonce.toNat ∧ (q.drop 64).take 256 = (if s.recovery then List.replicate 256 0 else (List.range 8).flatMap s.meas) ∧
  (q.drop 320).take 4 = [n (s.rd secB SEC_KEYS_SVN), n (s.rd secB SEC_KEYS_COUNTER), n (s.rd secB SEC_KEYS_BOOT_SLOT), n (s.rd secB SEC_KEYS_REVOKED)]

/-- The reads of an image in host memory, under PF0's requester ID, have been sent, as far as anything has (R364, R492). -/
def Sys2Proof.Machine.ReadsSent (s u : State) : Prop := s.out <+: u.out ∧ ∀ o ∈ u.out, o ∈ s.out ∨ ∃ tag a k, o = .hostRead 0 tag a k

/-- A firmware update has ended with a status of Table 18-3; HELD tells of an advance of the counter that a lockout still holds. -/
def Sys2Proof.Machine.UpdateEnded (s u : State) (status : Nat) : Prop :=
  u = { s with regs := u.regs, reports := u.reports, out := u.out,
               brup := { s.brup with nv := s.brup.nv.filter (fun o => decide (o ≠ NvOp.update)), update := none, flash := u.brup.flash, flashBad := u.brup.flashBad } } ∧
  WordsBut s u [secB + SEC_FW_CMD_OP.off, secB + SEC_FW_STAT_BUSY.off, hostB + HOST_ERR_FLAGS_CPL_ERR.off] ∧ ReadsSent s u ∧
  s.reports <+: u.reports ∧ u.reports.getLast? = some (s.report felvikSrc 0x0803 [status]) ∧
  u.rd secB SEC_FW_STAT_STATUS = status ∧ u.flag secB SEC_FW_STAT_DONE = true ∧ u.flag secB SEC_FW_STAT_BUSY = false ∧
  ((∀ v c, .roll v c ∉ s.brup.nv) → u.flag secB SEC_FW_STAT_HELD = false) ∧ (s.lockout = true → (∃ v c, .roll v c ∈ s.brup.nv) → u.flag secB SEC_FW_STAT_HELD = true)

/-- The pages of an image that a round reads in step 2 have been programmed behind `before`: the update ends, or goes on (R492). -/
def Sys2Proof.Machine.AfterPages (s u : State) (before : List Byte) (f : UpdateFacts) : Prop :=
  let len := s.rd secB SEC_FW_LEN_LEN
  let bytes := before ++ bytesAt f.host before.length (min (4096 * f.pages) (len - before.length))
  let pages := (bytes.length + 4095) / 4096 % 2 ^ 20
  let status := if verifyImage s.brup.parts ⟨!f.readBackBad, bytes⟩ = 0 then 0 else 0x12
  (len ≤ bytes.length → ∃ t, UpdateEnded s t status ∧ t.brup.flash = some ⟨true, bytes⟩ ∧ t.brup.flashBad = decide (status ≠ 0) ∧ t.rd secB SEC_FW_STAT_PAGES = pages ∧
    u = if status = 0 ∧ s.flag secB SEC_RECOV_ACTIVE = true then t.cardResetGo else t) ∧
  (bytes.length < len → f.fail2 ≠ 0 → UpdateEnded s u 0x11 ∧ u.brup.flash = some ⟨true, bytes⟩ ∧ u.brup.flashBad = true ∧ u.rd secB SEC_FW_STAT_PAGES = pages ∧
    (f.fail2 ≤ 3 → s.report hostSrc 0x0106 [0, f.fail2] ∈ u.reports ∧ u.flag hostB HOST_ERR_FLAGS_CPL_ERR = true)) ∧
  (bytes.length < len → f.fail2 = 0 → u = { s with regs := u.regs, out := u.out, brup := { s.brup with nv := [.update], update := some ⟨bytes⟩ } } ∧ ReadsSent s u ∧
    WordsBut s u [secB + SEC_FW_CMD_OP.off, secB + SEC_FW_STAT_BUSY.off] ∧ u.rd secB SEC_FW_STAT_PAGES = pages ∧ u.rd secB SEC_FW_STAT_HELD = 0)

/-- The Felvik controller may send a read now: nothing waits before it, and a tag and its units are free (R374). -/
def Sys2Proof.Machine.FelvikReads (s : State) : Prop := s.host.waiting = [] ∧ s.mayRead (s.host.mrrs / 64) = true

/-- No operation at the front of the queue waits to be reported. -/
def Sys2Proof.Machine.HeadTold (s : State) : Prop := ∀ o r, s.brup.nv = o :: r → ∀ v, o ≠ .lifecycle v false ∧ o ≠ .revoke v false

/-- FIRMWARE_UPDATE with no update waiting starts one, and each further FIRMWARE_UPDATE is a round of it: it ends with the status of Table 18-3 that what it meets gives (0x13 at once under a lockout; a read failure, the first verification reason, a failed read-back, or 0 and, in recovery mode, a card reset) and event 0x0803; pages of SEC_FW_LEN bytes are programmed as the rounds read them, and PAGES counts them; a lockout pauses it with 0x0804. ROLL_FORWARD advances the counter to the SVN of the running image as far as the 64 fuses go, or is held. DEBUG_LEVEL_REQUEST moves the level, ends the session, and at invasive taints the card and drops IDE keys, else lets halted tiles go on; reserved requests, 3 among them, are rejected and an unchanged reserved value starts nothing (log 87 of the model). TILE_HALT and TILE_RESUME need level invasive. -/
def Obligations.FirmwareUpdatesAndDebugControl : Prop :=
  (∀ (f : UpdateFacts) (s : State), Writable s (secB + 0x30) → s.flag secB SEC_FW_STAT_BUSY = false → NvOp.update ∉ s.brup.nv →
    let whole := bytesAt f.host 0 (s.rd secB SEC_FW_LEN_LEN)
    let why := verifyImage s.brup.parts ⟨true, whole⟩
    let same := fun (u : State) => u.brup.flash = s.brup.flash ∧ u.brup.flashBad = s.brup.flashBad
    (s.lockout = true → HeadTold s → Goes (.firmwareUpdate 0 f) s (fun u => UpdateEnded s u 0x13 ∧ same u)) ∧
    (s.lockout = false → s.brup.nv = [] → s.brup.update = none →
      (s.hostLive 0 = false → Goes (.firmwareUpdate 0 f) s (fun u => UpdateEnded s u 0x10 ∧ same u ∧ u.rd secB SEC_FW_STAT_PAGES = 0)) ∧
      (s.hostLive 0 = true → ¬ FelvikReads s → Goes (.firmwareUpdate 0 f) s (fun u => u = { s with regs := u.regs, brup := { s.brup with nv := [.update] } } ∧
        WordsBut s u [secB + SEC_FW_CMD_OP.off, secB + SEC_FW_STAT_BUSY.off] ∧ u.flag secB SEC_FW_STAT_BUSY = true ∧ u.rd secB SEC_FW_STAT_PAGES = 0)) ∧
      (s.hostLive 0 = true → FelvikReads s → f.fail1 ≠ 0 → Goes (.firmwareUpdate 0 f) s (fun u => UpdateEnded s u 0x10 ∧ same u ∧ u.rd secB SEC_FW_STAT_PAGES = 0 ∧
        (f.fail1 ≤ 3 → s.report hostSrc 0x0106 [0, f.fail1] ∈ u.reports ∧ u.flag hostB HOST_ERR_FLAGS_CPL_ERR = true))) ∧
      (s.hostLive 0 = true → FelvikReads s → f.fail1 = 0 → why ≠ 0 → Goes (.firmwareUpdate 0 f) s (fun u => UpdateEnded s u why ∧ same u ∧ u.rd secB SEC_FW_STAT_PAGES = 0)) ∧
      (s.hostLive 0 = true → FelvikReads s → f.fail1 = 0 → why = 0 → s.flag secB SEC_FW_STAT_HELD = false → Goes (.firmwareUpdate 0 f) s (fun u => AfterPages s u [] f)))) ∧
  (∀ (f : UpdateFacts) (r : UpdateRun) (s : State), s.brup.nv = [.update] →
    (s.lockout = true → s.brup.update = none ∨ s.flag secB SEC_FW_STAT_HELD = true → exec (.firmwareUpdate 0 f) s = .next s) ∧
    (s.brup.update = some r →
      (s.lockout = true → s.flag secB SEC_FW_STAT_HELD = false → Goes (.firmwareUpdate 0 f) s (fun u =>
        u = { s with regs := u.regs, reports := s.reports ++ [s.report felvikSrc 0x0804 [1]] } ∧ WordsBut s u [secB + SEC_FW_STAT_HELD.off] ∧ FieldSet s u secB SEC_FW_STAT_HELD 1)) ∧
      (s.lockout = false → s.hostLive 0 = false → Goes (.firmwareUpdate 0 f) s (fun u => UpdateEnded s u 0x11 ∧ u.brup.flash = some ⟨true, r.bytes⟩ ∧ u.brup.flashBad = true)) ∧
      (s.lockout = false → s.hostLive 0 = true → ¬ FelvikReads s → exec (.firmwareUpdate 0 f) s = .next s) ∧
      (s.lockout = false → s.hostLive 0 = true → FelvikReads s → Goes (.firmwareUpdate 0 f) s (fun u => AfterPages s u r.bytes f)))) ∧
  (∀ s : State, Writable s (secB + 0x30) → s.flag secB SEC_FW_STAT_BUSY = false →
    let svn := s.rd secB SEC_KEYS_SVN
    let old := s.brup.parts.counter
    let top := min 64 svn
    (s.rd secB SEC_RECOV_ACTIVE ≠ 0 → s.rd secB SEC_FW_CMD_OP ≠ 3 → Goes (.rollForward 0) s (fun u => SecRejected s u)) ∧
    (s.rd secB SEC_RECOV_ACTIVE ≠ 0 → s.rd secB SEC_FW_CMD_OP = 3 → Goes (.rollForward 0) s (fun u => OnlyWords s u [])) ∧
    (s.rd secB SEC_RECOV_ACTIVE = 0 → s.lockout = true → Goes (.rollForward 0) s (fun u => WordsBut s u [secB + SEC_FW_CMD_OP.off, secB + SEC_FW_STAT_BUSY.off] ∧
      u = { s with regs := u.regs, brup := { s.brup with nv := s.brup.nv ++ [.roll svn true] }, reports := s.reports ++ [s.report felvikSrc 0x0804 [2]] } ∧
      u.flag secB SEC_FW_STAT_BUSY = true ∧ u.flag secB SEC_FW_STAT_HELD = true)) ∧
    (s.rd secB SEC_RECOV_ACTIVE = 0 → s.lockout = false → s.brup.nv = [] → Goes (.rollForward 0) s (fun u =>
      WordsBut s u ([secB + SEC_FW_CMD_OP.off, secB + SEC_FW_STAT_BUSY.off, secB + SEC_KEYS_COUNTER.off] ++ measWords 1) ∧ u.flag secB SEC_FW_STAT_BUSY = false ∧
      u.flag secB SEC_FW_STAT_HELD = false ∧ u.flag secB SEC_FW_STAT_DONE = true ∧
      u = { s with regs := u.regs, brup := { s.brup with parts := { s.brup.parts with counter := max old top } }, reports := u.reports } ∧
      (old < top → u.rd secB SEC_KEYS_COUNTER = top ∧ s.report felvikSrc 0x0806 [old, top] ∈ u.reports) ∧
      (top ≤ old → u.rd secB SEC_KEYS_COUNTER = s.rd secB SEC_KEYS_COUNTER ∧ u.reports = s.reports)))) ∧
  (∀ (req : Nat) (s : State), Writable s (secB + 0x10) →
    let new := req % 4
    let old := s.debugLevel
    let lc := s.rd secB SEC_LC_STATE
    let refused := s.rd secB SEC_DBG_CTRL_REQ ≠ new ∧ (new = 3 ∨ (new = 2 ∧ lc ≠ 0 ∧ lc ≠ 3))
    (refused → Goes (.debugLevelRequest 0 req) s (fun u => SecRejected s u)) ∧
    (¬ refused → old = new ∨ new = 3 → Goes (.debugLevelRequest 0 req) s (fun u => OnlyWords s u [secB + 0x10] ∧ u.rd secB SEC_DBG_CTRL_REQ = new)) ∧
    (¬ refused → old ≠ new → new ≠ 3 → Goes (.debugLevelRequest 0 req) s (fun u =>
      u = { s with regs := u.regs, host := { s.host with ide := u.host.ide }, tiles := u.tiles, sec := { s.sec with session := none }, reports := u.reports } ∧
      WordsBut s u ([secB + 0x10, secB + SEC_DBG_LEVEL.off] ++ measWords 1) ∧ u.rd secB SEC_DBG_CTRL_REQ = new ∧ u.debugLevel = new ∧ s.reports <+: u.reports ∧
      s.report felvikSrc 0x0807 [old, new, 1] ∈ u.reports ∧
      (new = 2 → u.flag secB SEC_DBG_TAINT = true ∧ u.tiles = s.tiles ∧ ∀ n, n ∈ s.host.ideStreams ∨ n ∈ s.host.ide.map (·.1) → look ideClear u.host.ide n = { st := .insecure, keys := 0 }) ∧
      (new ≠ 2 → u.rd secB SEC_DBG_TAINT = s.rd secB SEC_DBG_TAINT ∧ u.host = s.host ∧ ∀ t, u.tile t = { s.tile t with halted := false })))) ∧
  (∀ (t : TileId) (halt : Bool) (s : State), Writable s (secB + 0x48) →
    let c : Instr := if halt then .tileHalt 0 t else .tileResume 0 t
    (s.debugLevel < 2 ∨ (s.enabled t.toNat = false ∧ s.rd secB SEC_DBG_HALT_TILE ≠ t.toNat) → Goes c s (fun u => SecRejected s u)) ∧
    (2 ≤ s.debugLevel → s.enabled t.toNat = false → s.rd secB SEC_DBG_HALT_TILE = t.toNat → Goes c s (fun u => OnlyWords s u [])) ∧
    (2 ≤ s.debugLevel → s.enabled t.toNat = true → Goes c s (fun u => u = { s with regs := u.regs, tiles := u.tiles } ∧ WordsBut s u [secB + 0x48] ∧
      u.rd secB SEC_DBG_HALT_TILE = t.toNat ∧ OtherTiles s u t.toNat ∧ u.tile t.toNat = { s.tile t.toNat with halted := halt })))

/-- With the link up, and outside recovery mode but for DOE discovery and GET_MEAS, each request is answered and has its effect: identity and quote layouts of Table 18-6 (the quote signed only with an identity key and no taint, starting a session when asked), KEY_EXCH and IDE_KM with their status codes, IV counters and key sets (of PF0's streams alone), nonces, EXTEND of M5 to M7 alone, and signed commands: the first failing check refuses with 0x0808 (its status is DEDUCED, log 40 of the model), a nonce is used once, unlock acts, and lifecycle and revocation act in order of request behind an update. A raw data object is the message that it spells, and a malformed one is answered with status 1 (its layout is log 85); discovery replies and IDE_KM kinds are PRESUMED (log 21). Otherwise nothing changes. Cryptographic functions and draws are opaque (log 13). -/
def Obligations.MailboxAnswersAndSignedCommands : Prop :=
  (∀ (x : DoeObject) (s : State), let index := (x.body.headD 0).toNat
    (s.dlUp = true → x.vendor = 1 → x.type = 0 →
      exec (.doeDiscovery x) s = .next { s with out := s.out ++ [.doe (leBytes 4 (if index = 0 then 0x01000001 else if index = 1 then 0x11F5E else 0xFFFF))] }) ∧
    (¬ (x.vendor = 1 ∧ x.type = 0) → ¬ (x.vendor = 0x1F5E ∧ x.type = 1) → exec (.doeDiscovery x) s = .next s)) ∧
  (∀ (s : State) (nonce : BitVec 256) (b : Bool) (iv : Nat) (i : Byte) (p : List Byte), let x := fun (code : Byte) (p : List Byte) => Instr.doeDiscovery ⟨0x1F5E, 1, [code, 0, 0, 0] ++ p⟩
    exec (x 1 []) s = exec .getIdentity s ∧ exec (x 2 []) s = exec .getMeas s ∧ exec (x 3 (leBytes 32 nonce.toNat ++ [if b then 1 else 0])) s = exec (.quote nonce b) s ∧
    exec (x 4 p) s = exec (.keyExch p) s ∧ exec (x 5 (leBytes 12 iv ++ p)) s = exec (.ideKm (iv % 2 ^ 96) p) s ∧ exec (x 6 []) s = exec .getNonce s ∧
    exec (x 7 p) s = exec (.signedCmd ⟨p⟩) s ∧ exec (x 8 ([i] ++ leBytes 32 nonce.toNat)) s = exec (.extend i.toNat nonce) s) ∧
  (∀ (s : State) (body : List Byte), s.dlUp = true → s.recovery = false →
    let code := (body.headD 0).toNat
    body.length < 4 ∨ (body.drop 1).take 3 ≠ [0, 0, 0] ∨ code = 0 ∨ 8 < code ∨ (code ∈ [1, 2, 6] ∧ 4 < body.length) ∨ (code ∈ [3, 8] ∧ body.length ≠ 37) ∨
      (code = 3 ∧ 1 < ((body.drop 36).headD 0).toNat) ∨ (code = 5 ∧ body.length < 16) →
    exec (.doeDiscovery ⟨0x1F5E, 1, body⟩) s = .next (Answered s code 1 [])) ∧
  (∀ s : State, s.dlUp = true → Goes .getMeas s (fun u => ∃ nonce q, u = Answered { s with free := s.free + 1 } 2 0 q ∧ QuoteFields s q false false nonce)) ∧
  (∀ s : State, s.dlUp = false → (∀ x, exec (.doeDiscovery x) s = .next s) ∧ exec .getMeas s = .next s) ∧
  (∀ (s : State) (nonce : BitVec 256) (b : Bool) (ct : List Byte) (iv i : Nat) (c : SignedCmd), s.dlUp = false ∨ s.recovery = true →
    exec .getIdentity s = .next s ∧ exec (.quote nonce b) s = .next s ∧ exec (.keyExch ct) s = .next s ∧ exec (.ideKm iv ct) s = .next s ∧ exec .getNonce s = .next s ∧
    exec (.signedCmd c) s = .next s ∧ exec (.extend i nonce) s = .next s) ∧
  (∀ s : State, s.dlUp = true → s.recovery = false →
    exec .getIdentity s = .next (Answered s 1 0 (leBytes 8 (s.rd cardB ID_SERIAL_SERIAL) ++ s.brup.parts.idPub ++ s.brup.parts.idCert)) ∧
    (∀ (nonce : BitVec 256) (session : Bool),
      let num := s.free
      let signs := s.sec.idSeed.isSome && !s.flag secB SEC_DBG_TAINT
      Goes (.quote nonce session) s (fun u => ∃ q, QuoteFields s q signs session nonce ∧
        let body := q ++ if session then Config.kemPublic num else []
        let whole := if signs then body ++ Config.identitySign (s.sec.idSeed.getD 0) (Config.sha3 body) else body
        u = Answered { s with free := s.free + 1, sec := { s.sec with session := if session then some ⟨num, Config.sha3 whole, none, 0, 0⟩ else none } } 3 0 whole)) ∧
    (∀ ct : List Byte,
      (ct.length ≠ 1088 → exec (.keyExch ct) s = .next (Answered s 4 1 [])) ∧
      (ct.length = 1088 → s.sec.session = none → exec (.keyExch ct) s = .next (Answered s 4 4 [])) ∧
      (∀ x, ct.length = 1088 → s.sec.session = some x →
        let k := Config.sha3 (leBytes 32 (Config.kemDecaps x.num ct).toNat ++ leBytes 32 x.quote.toNat)
        exec (.keyExch ct) s = .next (Answered { s with sec := { s.sec with session := some { x with key := some k, ivIn := 0, ivOut := 0 } } } 4 0 []))) ∧
    (∀ (iv : Nat) (msg : List Byte),
      (s.sec.session = none ∨ (∃ x, s.sec.session = some x ∧ x.key = none) → exec (.ideKm iv msg) s = .next (Answered s 5 4 [])) ∧
      (∀ x k, s.sec.session = some x → x.key = some k →
        (iv ≠ x.ivIn → exec (.ideKm iv msg) s = .next (Answered s 5 5 [])) ∧
        (iv = x.ivIn → Goes (.ideKm iv msg) s (fun u =>
          (Config.aesOpen k iv msg = none → u = Answered s 5 5 []) ∧
          ∀ m, Config.aesOpen k iv msg = some m →
            let kind := (Config.ideKmParse m).1
            let stream := (Config.ideKmParse m).2.1 % 256
            let set := (Config.ideKmParse m).2.2 % 2
            let y := fun (a : State) => look ideClear a.host.ide stream
            u = { s with sec := { s.sec with session := some { x with ivIn := x.ivIn + 1, ivOut := x.ivOut + 1 } }, host := { s.host with ide := u.host.ide },
                         reports := u.reports, out := u.out } ∧ (∀ j, j ≠ stream → look ideClear u.host.ide j = look ideClear s.host.ide j) ∧
            (3 < kind → u.out = (Answered s 5 1 []).out ∧ u.host = s.host ∧ u.reports = s.reports) ∧
            (kind ≤ 3 → u.out = (Answered s 5 0 (Config.aesSeal k x.ivOut (Config.ideKmAnswer m))).out) ∧
            (kind = 0 ∨ (kind ≤ 3 ∧ stream ∉ s.host.ideStreams) → u.reports = s.reports ∧ u.host = s.host) ∧
            (kind = 1 → stream ∈ s.host.ideStreams → u.reports = s.reports ∧ y u = { y s with keys := setBits (y s).keys set 1 1 }) ∧
            (kind = 2 → stream ∈ s.host.ideStreams → bit (y s).keys set = true → u.reports = s.reports ++ [s.report secSrc 0x080A [stream, set, 1]] ∧ y u = { y s with st := .secure }) ∧
            (kind = 2 → bit (y s).keys set = false → u.reports = s.reports ∧ u.host = s.host) ∧
            (kind = 3 → stream ∈ s.host.ideStreams → u.reports = s.reports ++ [s.report secSrc 0x080A [stream, set, 2]] ∧ y u = { st := .insecure, keys := setBits (y s).keys set 1 0 }))))) ∧
    (let n := Config.nonce s.free;
      exec .getNonce s = .next (Answered { s with free := s.free + 1, sec := { s.sec with nonce := some n } } 6 0 (leBytes 32 n.toNat))) ∧
    (∀ (i : Nat) (d : BitVec 256),
      (i < 5 ∨ 7 < i → exec (.extend i d) s = .next (Answered s 8 1 [])) ∧
      (5 ≤ i → i ≤ 7 → Goes (.extend i d) s (fun u =>
        u = { s with regs := u.regs, reports := s.reports ++ [s.report secSrc 0x080B [i]], out := (Answered s 8 0 (u.meas i)).out } ∧ WordsBut s u (measWords i) ∧
        u.meas i = leBytes 32 (Config.sha3 (s.meas i ++ leBytes 32 d.toNat)).toNat))) ∧
    (∀ c : SignedCmd,
      let refused := fun (t : State) (check : Nat) => Answered { t with reports := s.reports ++ [s.report secSrc 0x0808 [c.kind, check]] } 7 (if check = 5 then 5 else 2) []
      let first := if cmdFormed c = false then 1 else if c.serial ≠ s.rd cardB ID_SERIAL_SERIAL then 2 else if s.sec.nonce ≠ some c.nonce then 3 else 0
      (first ≠ 0 → exec (.signedCmd c) s = .next (refused s first)) ∧
      (first = 0 → Goes (.signedCmd c) s (fun u =>
        let t : State := { s with sec := { s.sec with nonce := none } }
        let k := t.lateCheck c
        let lc := s.rd secB SEC_LC_STATE
        (k ≠ 0 → u = refused t k) ∧
        (k = 0 → c.kind = 1 → lc = 1 → u = (Answered { t with sec := { t.sec with unlock := true } } 7 0 []).cardResetGo) ∧
        (k = 0 → c.kind = 1 → lc ≠ 1 → u.debugLevel = 2 ∧ u.out = (Answered s 7 0 []).out ∧
          u = { s with regs := u.regs, host := u.host, reports := u.reports, out := u.out, sec := { t.sec with session := if s.debugLevel = 2 then s.sec.session else none } }) ∧
        (k = 0 → c.kind = 2 → s.brup.nv = [] → let p := { s.brup.parts with lc := c.value, idKill := if c.value = 3 then 0xFF else s.brup.parts.idKill };
          u = (Answered { t with brup := { s.brup with parts := p }, reports := s.reports ++ [s.report felvikSrc 0x0809 [lc, c.value]] } 7 0 []).cardResetGo) ∧
        (k = 0 → c.kind = 3 → s.brup.nv = [] → let r := setBits s.brup.parts.revoked c.value 1 1;
          u = { t with regs := u.regs, brup := { s.brup with parts := { s.brup.parts with revoked := r } }, reports := u.reports, out := (Answered s 7 0 []).out } ∧
          WordsBut s u ((secB + SEC_KEYS_REVOKED.off) :: measWords 1) ∧ u.rd secB SEC_KEYS_REVOKED = r % 16 ∧ s.report felvikSrc 0x0805 [c.value] ∈ u.reports) ∧
        (k = 0 → c.kind = 2 ∨ c.kind = 3 → (∃ r, s.brup.nv = .update :: r) →
          u = Answered { t with brup := { s.brup with nv := s.brup.nv ++ [if c.kind = 2 then .lifecycle c.value false else .revoke c.value false] } } 7 0 [])))))

/-! ### Slow interfaces -/

/-- `x` is the highest reading of the sensors `l`. -/
def Sys2Proof.Machine.Hottest (s : State) (l : List Nat) (x : Int) : Prop := (∀ i ∈ l, s.reading i ≤ x) ∧ ∃ i ∈ l, s.reading i = x

/-- The answer to an SMBus block read of a command: its data and their PEC (R526; the polynomial is PRESUMED, log 21). -/
def Sys2Proof.Machine.Block (s : State) (code : Byte) (l : List Byte) : State :=
  { s with out := s.out ++ [.smbus l (crc8 ([0x94, code, 0x95, BitVec.ofNat 8 l.length] ++ l))] }

/-- While IN12 is present: STATUS, TRIP, TS_STAT and COUNTERS answer the items of Table 20-5 with their PEC (the byte layout is a DESIGN CHOICE, log 41 of the model), TS_CFG sets period, offset and state or is NACKed, RESTART with its key, its PEC and cool sensors begins a card reset unless IN12 is alone, and CONSOLE and the UART take characters at level invasive alone (their texts are free, log 49). TIME_STAMP_PULSE, unless too short (log 42) or too soon, stamps the edge with the TSC, takes the signed distance to the nearest expected edge, counts edges within 100 ns and trims against the error by at most 50 ppm; HOLDOVER keeps the trim. TAP_INSTRUCTION selects an instruction or BYPASS for each die (codes PRESUMED, log 21; C1 in recovery mode, log 86) and shifts out; TRST_N low or open holds the chain in reset; EXTEST is in effect only from when the link is down and all tiles are in reset. Nothing else changes. -/
def Obligations.SlowInterfacesAnswer : Prop :=
  (∀ s : State, s.pwr.in12 = true →
    Goes .status s (fun u => ∃ c k, Hottest s [0, 1] c ∧ Hottest s ((List.range 12).map (· + 2)) k ∧
      u = Block s 0x01 (leBytes 4 (s.word (cardB + BRUP_STAT_STEP.off)) ++ leBytes 1 (s.rd hostB FLT_CARD_CARD_FAULT) ++ leBytes 1 (s.rd secB SEC_LC_STATE) ++
        leBytes 1 s.debugLevel ++ leBytes 2 (s.rd pwrB PWR_MEAS_BOARD_W) ++ leBytes 2 (wrapTo 16 c) ++ leBytes 2 (wrapTo 16 k) ++ leBytes 1 (s.rd pwrB THERM_STAT_ALERT) ++
        leBytes 1 (s.rd pwrB SUPPLY_STAT_LOCKOUT) ++ [0])) ∧
    exec .trip s = .next (Block s 0x02 (leBytes 8 (s.word (pwrB + THERM_TRIP_VALID.off)) ++ leBytes 8 (s.word (pwrB + SUPPLY_STAT_COUNT.off)))) ∧
    Goes .tsStat s (fun u => ∃ bytes, u = Block s 0x03 bytes ∧ bytes.length = 8 ∧ leNat bytes % 2 ^ 32 = s.card.ts.st % 2 ^ 32 ∧
      (s.card.ts.st < 2 ^ 32 → -2147483648 ≤ s.card.ts.err → s.card.ts.err ≤ 2147483647 → signed 32 (leNat bytes / 2 ^ 32) = s.card.ts.err)) ∧
    (∀ x : SmbusWrite,
      let v := leNat x.data
      let period := bitsOf v 32 20
      let offset := bitsOf v 64 32
      let ok := x.pecOk 0x04 true = true ∧ x.data.length = 12 ∧ bitsOf v 1 31 = 0 ∧ bitsOf v 52 12 = 0 ∧ 1000 ≤ period ∧ period ≤ 1000000 ∧ offset < 1000 * period
      (ok → exec (.tsCfg x) s = .next { s with card := { s.card with ts := { s.card.ts with
        period := period, offset := offset, st := if bit v 0 then 1 else 0, good := 0, last := none } } }) ∧
      (¬ ok → exec (.tsCfg x) s = .next { s with out := s.out ++ [.nack] })) ∧
    (∀ x : SmbusWrite,
      let ok := x.pecOk 0x10 true = true ∧ x.data = [0x5A, 0xA5] ∧ (∀ i < 14, s.reading i < if i < 2 then 90 * 8 else 80 * 8) ∧ (s.pwr.rails = true ∨ s.pwr.in48 ≠ .absent)
      (ok → Goes (.restart x) s (fun u => CardResetBegun s u)) ∧ (¬ ok → exec (.restart x) s = .next { s with out := s.out ++ [.nack] })) ∧
    (∀ x : SmbusWrite, let index := (x.data.headD 0).toNat
      let ok := s.debugLevel ≠ 0 ∧ x.pageOk 0x20 = true ∧ x.data.length = 1 ∧ index ≤ 1
      (¬ ok → exec (.counters x) s = .next { s with out := s.out ++ [.nack] }) ∧
      (ok → Goes (.counters x) s (fun u => ∃ v : State,
        let c := s.timeUp s.pwr.cOn s.pwr.cRest
        let k := s.timeUp s.pwr.sOn s.pwr.sRest
        v = { s with regs := v.regs, reports := v.reports, card := { s.card with page := index },
                     pwr := { s.pwr with cOn := s.pwr.cOn.map (fun _ => s.tsc), sOn := s.pwr.sOn.map (fun _ => s.tsc), cRest := c % 1000, sRest := k % 1000 } } ∧
        WordsBut s v [pwrB + PWR_TIME_C_US.off, pwrB + PWR_TIME_S_US.off] ∧ s.reports <+: v.reports ∧ Counted s v pwrB PWR_TIME_C_US (c / 1000) ∧ Counted s v pwrB PWR_TIME_S_US (k / 1000) ∧
        u = Block v 0x20 (if index = 0 then leBytes 8 (v.word (pwrB + PWR_TIME_C_US.off)) ++ leBytes 8 (v.word (pwrB + PWR_TIME_S_US.off)) ++ leBytes 8 (s.word (pwrB + PWR_FAST_COUNT.off)) ++ leBytes 8 s.moltStat
          else leBytes 8 (s.word (hostB + FLT_SRAM_CNT_CORRECTED.off)) ++ List.replicate 24 0)))) ∧
    (let heard := fun (t : State) (l : List Byte) => ({ t with card := { t.card with console := t.card.console ++ l } } : State);
      (∀ x : SmbusWrite,
        (s.debugLevel = 2 → x.pecOk 0x30 false = true → exec (.console (.write x)) s = .next (heard s x.data)) ∧
        (s.debugLevel ≠ 2 ∨ x.pecOk 0x30 false = false → exec (.console (.write x)) s = .next { s with out := s.out ++ [.nack] })) ∧
      (s.debugLevel = 2 → Goes (.console .read) s (fun u => ∃ text, text.length ≤ 255 ∧ u = Block { s with free := s.free + 1 } 0x30 text)) ∧
      (s.debugLevel ≠ 2 → exec (.console .read) s = .next { s with out := s.out ++ [.nack] }) ∧
      (∀ chars : List Byte,
        (s.debugLevel = 0 → exec (.uartConsoleCommand chars) s = .next s) ∧
        (s.debugLevel ≠ 0 → Goes (.uartConsoleCommand chars) s (fun u => ∃ text,
          let t : State := { s with free := s.free + 1, out := s.out ++ [.txd text] }
          u = if s.debugLevel = 2 then heard t chars else t))))) ∧
  (∀ s : State, s.pwr.in12 = false →
    exec .status s = .next s ∧ exec .trip s = .next s ∧ exec .tsStat s = .next s ∧ exec .timeStampHoldover s = .next s ∧ ∀ (l : List Byte) (x : SmbusWrite) (y : ConsoleXfer) (n : Nat),
      exec (.tsCfg x) s = .next s ∧ exec (.restart x) s = .next s ∧ exec (.counters x) s = .next s ∧ exec (.console y) s = .next s ∧ exec (.uartConsoleCommand l) s = .next s ∧
      exec (.timeStampPulse n) s = .next s) ∧
  (∀ (high : Nat) (s : State), let t := s.card.ts
    let stamp := s.tsc
    let soon := ∃ l, t.last = some l ∧ 2 * stamp < 2 * l + 1000 * t.period
    (t.st = 0 ∨ high < 100 ∨ soon → exec (.timeStampPulse high) s = .next s) ∧
    (s.pwr.in12 = true → t.st ≠ 0 → 100 ≤ high → ¬ soon → 0 < t.period → Goes (.timeStampPulse high) s (fun u => ∃ e trim : Int,
      let good := if -100 ≤ e ∧ e ≤ 100 then t.good + 1 else 0
      2 * e ≤ 1000 * t.period ∧ -(1000 * (t.period : Int)) < 2 * e ∧ ((stamp : Int) - t.offset - e) % (1000 * (t.period : Int)) = 0 ∧
      (0 < e → -50 ≤ trim ∧ trim < 0) ∧ (e < 0 → 0 < trim ∧ trim ≤ 50) ∧ (e = 0 → trim = 0) ∧
      u = { s with free := s.free + 1, card := { s.card with ts := { t with err := e, good := good, last := some stamp, trim := trim, st := if 3 ≤ good ∧ t.st ≠ 3 then 2 else 1 } } }))) ∧
  (∀ s : State, s.pwr.in12 = true →
    (s.card.ts.st = 0 → exec .timeStampHoldover s = .next s) ∧
    (s.card.ts.st ≠ 0 → exec .timeStampHoldover s = .next { s with card := { s.card with ts := { s.card.ts with st := 3, good := 0 } } })) ∧
  (∀ (x : TapScan) (s : State),
    let lc := s.rd secB SEC_LC_STATE
    let scan := lc = 0 ∨ lc = 3 ∨ s.debugLevel = 2
    let takes := fun (ir got : BitVec 8) =>
      let ok := ir = 1 ∨ ((ir = 0 ∨ ir = 2) ∧ scan) ∨ (ir = 3 ∧ s.debugLevel = 2 ∧ s.host.d3hot = false)
      (ok → got = ir) ∧ (¬ ok → got = 0xFF)
    let shifts := fun (die : Nat) (ir : BitVec 8) (pins got : List Bool) =>
      (ir = 0 ∨ ir = 2 → got = pins) ∧ (ir = 0xFF → got = [false]) ∧ (ir = 1 → got.length = 32 ∧
        ∀ i < 32, got[i]? = some (bit (1 + 0x2F5 * 2 + (0x6412 + die) * 2 ^ 12 + s.brup.parts.stepping % 16 * 2 ^ 28) i))
    (s.pwr.rails = false → exec (.tapInstruction x) s = .next { s with card := { s.card with trst := x.trst } }) ∧
    (s.pwr.rails = true → x.trst = false → exec (.tapInstruction x) s = .next { s with
      brup := { s.brup with extest := s.inExtest }, card := { s.card with trst := false, tapIr0 := 1, tapIr1 := 1 } }) ∧
    (s.pwr.rails = true → x.trst = true → Goes (.tapInstruction x) s (fun u => ∃ a b o0 o1,
      takes x.ir0 a ∧ (s.pwr.c0Only = false → takes x.ir1 b) ∧ (s.pwr.c0Only = true → b = 0xFF) ∧ shifts 0 a x.pins0 o0 ∧ shifts 1 b x.pins1 o1 ∧
      u = { s with
        out := s.out ++ [.tdo 0 o0, .tdo 1 o1], brup := { s.brup with extest := s.inExtest },
        card := { s.card with trst := true, tapIr0 := a, tapIr1 := b, bound0 := if a = 0 ∨ a = 2 then x.data0 else s.card.bound0, bound1 := if b = 0 ∨ b = 2 then x.data1 else s.card.bound1 } } ∧
      ((a = 0 ∨ b = 0) → s.dlUp = false → (∀ p ∈ s.tiles, p.2.inReset = true) → u.inExtest = true ∧ u.pinsDriven 0 = some u.card.bound0 ∧ u.pinsDriven 1 = some u.card.bound1) ∧
      (a ≠ 0 → b ≠ 0 → u.inExtest = s.inExtest))))

end
end

