-- ==== Sys2Proof/Laws/Store.lean ====
section
/-! SUPPORT. Laws of the sparse stores: a read after a write, and the canonical form. -/

namespace Sys2Proof.Machine

variable {α : Type}

theorem look_ins_same (d : Nat → α) (k : Nat) (v : α) (m : SMap α) (h : ∀ p ∈ m, p.1 ≠ k) : look d (ins k v m) k = v := by
  induction m with
  | nil => simp [ins, look]
  | cons p r ih =>
    have hp : p.1 ≠ k := h p (by simp)
    by_cases hk : k < p.1
    · simp [ins, hk, look]
    · simp [ins, hk, look, hp, ih (fun q hq => h q (by simp [hq]))]

theorem look_ins_ne (d : Nat → α) (k j : Nat) (v : α) (m : SMap α) (h : j ≠ k) : look d (ins k v m) j = look d m j := by
  induction m with
  | nil => simp [ins, look, Ne.symm h]
  | cons p r ih =>
    by_cases hk : k < p.1
    · simp [ins, hk, look, Ne.symm h]
    · simp [ins, hk, look, ih]

theorem key_del (k : Nat) (m : SMap α) : ∀ p ∈ del k m, p.1 ≠ k := by
  induction m with
  | nil => simp [del]
  | cons p r ih =>
    by_cases hp : p.1 = k
    · simpa [del, hp] using ih
    · intro q hq
      simp only [del, hp, if_false, List.mem_cons] at hq
      rcases hq with rfl | hq
      · exact hp
      · exact ih q hq

theorem look_none (d : Nat → α) (k : Nat) (m : SMap α) (h : ∀ p ∈ m, p.1 ≠ k) : look d m k = d k := by
  induction m with
  | nil => rfl
  | cons p r ih => simp [look, h p (by simp), ih (fun q hq => h q (by simp [hq]))]

theorem look_del_ne (d : Nat → α) (k j : Nat) (m : SMap α) (h : j ≠ k) : look d (del k m) j = look d m j := by
  induction m with
  | nil => rfl
  | cons p r ih =>
    by_cases hp : p.1 = k
    · simp [del, hp, look, Ne.symm h, ih]
    · simp [del, hp, look, ih]

variable [DecidableEq α]

/-- A read of the place just written gives what was written. -/
@[simp] theorem look_put_same (d : Nat → α) (m : SMap α) (k : Nat) (v : α) : look d (put d m k v) k = v := by
  unfold put
  split
  · next h => rw [look_none d k _ (key_del k m)]; exact h.symm
  · exact look_ins_same d k v _ (key_del k m)

/-- A write leaves every other place alone. -/
theorem look_put_ne (d : Nat → α) (m : SMap α) (k j : Nat) (v : α) (h : j ≠ k) : look d (put d m k v) j = look d m j := by
  unfold put
  split
  · exact look_del_ne d k j m h
  · rw [look_ins_ne d k j v _ h, look_del_ne d k j m h]

theorem look_put (d : Nat → α) (m : SMap α) (k j : Nat) (v : α) :
    look d (put d m k v) j = if j = k then v else look d m j := by
  split
  · next h => subst h; exact look_put_same d m j v
  · next h => exact look_put_ne d m k j v h

/-! ### The canonical form -/

omit [DecidableEq α] in
theorem risingFrom_weaken {b c : Nat} {m : SMap α} (h : c ≤ b) (hr : risingFrom (some b) m = true) : risingFrom (some c) m = true := by
  cases m with
  | nil => rfl
  | cons p r =>
    simp only [risingFrom, Bool.and_eq_true, decide_eq_true_eq] at hr ⊢
    exact ⟨by omega, hr.2⟩

omit [DecidableEq α] in
theorem risingFrom_none {b : Nat} {m : SMap α} (hr : risingFrom (some b) m = true) : risingFrom none m = true := by
  cases m with
  | nil => rfl
  | cons p r =>
    simp only [risingFrom, Bool.and_eq_true, decide_eq_true_eq] at hr ⊢
    exact ⟨trivial, hr.2⟩

omit [DecidableEq α] in
theorem risingFrom_del (k : Nat) (m : SMap α) (lo : Option Nat) (h : risingFrom lo m = true) : risingFrom lo (del k m) = true := by
  induction m generalizing lo with
  | nil => exact h
  | cons p r ih =>
    obtain ⟨a, v⟩ := p
    have h' := h
    simp only [risingFrom, Bool.and_eq_true] at h'
    by_cases hp : a = k
    · simp only [del, hp, if_true]
      apply ih
      cases lo with
      | none => exact risingFrom_none h'.2
      | some b =>
        have hb : b < a := by simpa using h'.1
        exact risingFrom_weaken (Nat.le_of_lt hb) h'.2
    · simp only [del, hp, if_false, risingFrom, Bool.and_eq_true]
      exact ⟨h'.1, ih _ h'.2⟩

omit [DecidableEq α] in
theorem risingFrom_ins (k : Nat) (v : α) (m : SMap α) (lo : Option Nat) (h : risingFrom lo m = true)
    (hk : ∀ p ∈ m, p.1 ≠ k) (hlo : ∀ b, lo = some b → b < k) : risingFrom lo (ins k v m) = true := by
  induction m generalizing lo with
  | nil =>
    cases lo with
    | none => rfl
    | some b => simp [ins, risingFrom, hlo b rfl]
  | cons p r ih =>
    obtain ⟨a, w⟩ := p
    simp only [risingFrom, Bool.and_eq_true] at h
    have ha : a ≠ k := hk (a, w) (by simp)
    by_cases hka : k < a
    · cases lo with
      | none => simp [ins, hka, risingFrom, h.2]
      | some b => simp [ins, hka, risingFrom, h.2, hlo b rfl]
    · simp only [ins, hka, if_false, risingFrom, Bool.and_eq_true]
      refine ⟨h.1, ih _ h.2 (fun q hq => hk q (by simp [hq])) ?_⟩
      intro b hb
      cases hb
      omega

omit [DecidableEq α] in
theorem all_del (k : Nat) (m : SMap α) (f : Nat × α → Bool) (h : m.all f = true) : (del k m).all f = true := by
  induction m with
  | nil => rfl
  | cons p r ih =>
    simp only [List.all_cons, Bool.and_eq_true] at h
    by_cases hp : p.1 = k
    · simpa [del, hp] using ih h.2
    · simp only [del, hp, if_false, List.all_cons, Bool.and_eq_true]
      exact ⟨h.1, ih h.2⟩

omit [DecidableEq α] in
theorem all_ins (k : Nat) (v : α) (m : SMap α) (f : Nat × α → Bool) (h : m.all f = true) (hv : f (k, v) = true) :
    (ins k v m).all f = true := by
  induction m with
  | nil => simp [ins, hv]
  | cons p r ih =>
    simp only [List.all_cons, Bool.and_eq_true] at h
    by_cases hk : k < p.1
    · simp only [ins, hk, if_true, List.all_cons, hv, h.1, Bool.true_and]
      exact h.2
    · simp only [ins, hk, if_false, List.all_cons, Bool.and_eq_true]
      exact ⟨h.1, ih h.2⟩

/-- A write keeps the canonical form. -/
theorem canonical_put (d : Nat → α) (m : SMap α) (k : Nat) (v : α) (h : canonical d m = true) : canonical d (put d m k v) = true := by
  simp only [canonical, Bool.and_eq_true] at h ⊢
  have hr := risingFrom_del k m none h.1
  have ha := all_del k m _ h.2
  unfold put
  split
  · exact ⟨hr, ha⟩
  · next hv => exact ⟨risingFrom_ins k v _ none hr (key_del k m) (by simp), all_ins k v _ _ ha (by simpa using hv)⟩

omit [DecidableEq α] in
theorem risingFrom_filter (f : Nat × α → Bool) (m : SMap α) (lo : Option Nat) (h : risingFrom lo m = true) :
    risingFrom lo (m.filter f) = true := by
  induction m generalizing lo with
  | nil => exact h
  | cons p r ih =>
    obtain ⟨a, v⟩ := p
    have h' := h
    simp only [risingFrom, Bool.and_eq_true] at h'
    by_cases hf : f (a, v) = true
    · simp only [List.filter_cons, hf, if_true, risingFrom, Bool.and_eq_true]
      exact ⟨h'.1, ih _ h'.2⟩
    · simp only [List.filter_cons, hf]
      apply ih
      cases lo with
      | none => exact risingFrom_none h'.2
      | some b =>
        have hb : b < a := by simpa using h'.1
        exact risingFrom_weaken (Nat.le_of_lt hb) h'.2

/-- Forgetting entries keeps the canonical form. -/
theorem canonical_filter (d : Nat → α) (f : Nat × α → Bool) (m : SMap α) (h : canonical d m = true) : canonical d (m.filter f) = true := by
  simp only [canonical, Bool.and_eq_true] at h ⊢
  refine ⟨risingFrom_filter f m none h.1, ?_⟩
  rw [List.all_eq_true] at h ⊢
  exact fun p hp => h.2 p (List.mem_of_mem_filter hp)

/-- What every element of a bounded loop keeps, the loop keeps. -/
theorem upto_keeps {β : Type} (P : β → Prop) (n : Nat) (f : Nat → β → β) (x : β) (h : P x) (hf : ∀ i y, P y → P (f i y)) :
    P (upto n f x) := by
  unfold upto
  generalize List.range n = l
  induction l generalizing x with
  | nil => exact h
  | cons i r ih => exact ih _ (hf i x h)

theorem foldl_keeps {β γ : Type} (P : β → Prop) (l : List γ) (f : β → γ → β) (x : β) (h : P x) (hf : ∀ y i, P y → P (f y i)) :
    P (l.foldl f x) := by
  induction l generalizing x with
  | nil => exact h
  | cons i r ih => exact ih _ (hf x i h)

end Sys2Proof.Machine
end

