-- ==== Sys2Proof/Laws/State.lean ====
section
/-! SUPPORT. What each update of the state changes and leaves alone, field by field (written out so that no proof unfolds a record update). -/

namespace Sys2Proof.Machine

variable (s : State)

/-! ### A register write -/

@[simp] theorem State.setWord_pending (off v : Nat) : (s.setWord off v).pending = s.pending := rfl
@[simp] theorem State.setWord_tsc (off v : Nat) : (s.setWord off v).tsc = s.tsc := rfl
@[simp] theorem State.setWord_free (off v : Nat) : (s.setWord off v).free = s.free := rfl
@[simp] theorem State.setWord_pend (off v : Nat) : (s.setWord off v).pend = s.pend := rfl
@[simp] theorem State.setWord_pendMask (off v : Nat) : (s.setWord off v).pendMask = s.pendMask := rfl
@[simp] theorem State.setWord_mem (off v : Nat) : (s.setWord off v).mem = s.mem := rfl
@[simp] theorem State.setWord_ccs (off v : Nat) : (s.setWord off v).ccs = s.ccs := rfl
@[simp] theorem State.setWord_engs (off v : Nat) : (s.setWord off v).engs = s.engs := rfl
@[simp] theorem State.setWord_bdies (off v : Nat) : (s.setWord off v).bdies = s.bdies := rfl
@[simp] theorem State.setWord_tiles (off v : Nat) : (s.setWord off v).tiles = s.tiles := rfl
@[simp] theorem State.setWord_flight (off v : Nat) : (s.setWord off v).flight = s.flight := rfl
@[simp] theorem State.setWord_recsOut (off v : Nat) : (s.setWord off v).recsOut = s.recsOut := rfl
@[simp] theorem State.setWord_molt (off v : Nat) : (s.setWord off v).molt = s.molt := rfl
@[simp] theorem State.setWord_rings (off v : Nat) : (s.setWord off v).rings = s.rings := rfl
@[simp] theorem State.setWord_evs (off v : Nat) : (s.setWord off v).evs = s.evs := rfl
@[simp] theorem State.setWord_cuts (off v : Nat) : (s.setWord off v).cuts = s.cuts := rfl
@[simp] theorem State.setWord_cutNo (off v : Nat) : (s.setWord off v).cutNo = s.cutNo := rfl
@[simp] theorem State.setWord_host (off v : Nat) : (s.setWord off v).host = s.host := rfl
@[simp] theorem State.setWord_pwr (off v : Nat) : (s.setWord off v).pwr = s.pwr := rfl
@[simp] theorem State.setWord_therm (off v : Nat) : (s.setWord off v).therm = s.therm := rfl
@[simp] theorem State.setWord_brup (off v : Nat) : (s.setWord off v).brup = s.brup := rfl
@[simp] theorem State.setWord_sec (off v : Nat) : (s.setWord off v).sec = s.sec := rfl
@[simp] theorem State.setWord_card (off v : Nat) : (s.setWord off v).card = s.card := rfl
@[simp] theorem State.setWord_reports (off v : Nat) : (s.setWord off v).reports = s.reports := rfl
@[simp] theorem State.setWord_out (off v : Nat) : (s.setWord off v).out = s.out := rfl

/-! ### A field write -/

@[simp] theorem State.wr_pending (base : Nat) (f : Fld) (v : Nat) : (s.wr base f v).pending = s.pending := rfl
@[simp] theorem State.wr_tsc (base : Nat) (f : Fld) (v : Nat) : (s.wr base f v).tsc = s.tsc := rfl
@[simp] theorem State.wr_free (base : Nat) (f : Fld) (v : Nat) : (s.wr base f v).free = s.free := rfl
@[simp] theorem State.wr_pend (base : Nat) (f : Fld) (v : Nat) : (s.wr base f v).pend = s.pend := rfl
@[simp] theorem State.wr_pendMask (base : Nat) (f : Fld) (v : Nat) : (s.wr base f v).pendMask = s.pendMask := rfl
@[simp] theorem State.wr_mem (base : Nat) (f : Fld) (v : Nat) : (s.wr base f v).mem = s.mem := rfl
@[simp] theorem State.wr_ccs (base : Nat) (f : Fld) (v : Nat) : (s.wr base f v).ccs = s.ccs := rfl
@[simp] theorem State.wr_engs (base : Nat) (f : Fld) (v : Nat) : (s.wr base f v).engs = s.engs := rfl
@[simp] theorem State.wr_bdies (base : Nat) (f : Fld) (v : Nat) : (s.wr base f v).bdies = s.bdies := rfl
@[simp] theorem State.wr_tiles (base : Nat) (f : Fld) (v : Nat) : (s.wr base f v).tiles = s.tiles := rfl
@[simp] theorem State.wr_flight (base : Nat) (f : Fld) (v : Nat) : (s.wr base f v).flight = s.flight := rfl
@[simp] theorem State.wr_recsOut (base : Nat) (f : Fld) (v : Nat) : (s.wr base f v).recsOut = s.recsOut := rfl
@[simp] theorem State.wr_molt (base : Nat) (f : Fld) (v : Nat) : (s.wr base f v).molt = s.molt := rfl
@[simp] theorem State.wr_rings (base : Nat) (f : Fld) (v : Nat) : (s.wr base f v).rings = s.rings := rfl
@[simp] theorem State.wr_evs (base : Nat) (f : Fld) (v : Nat) : (s.wr base f v).evs = s.evs := rfl
@[simp] theorem State.wr_cuts (base : Nat) (f : Fld) (v : Nat) : (s.wr base f v).cuts = s.cuts := rfl
@[simp] theorem State.wr_cutNo (base : Nat) (f : Fld) (v : Nat) : (s.wr base f v).cutNo = s.cutNo := rfl
@[simp] theorem State.wr_host (base : Nat) (f : Fld) (v : Nat) : (s.wr base f v).host = s.host := rfl
@[simp] theorem State.wr_pwr (base : Nat) (f : Fld) (v : Nat) : (s.wr base f v).pwr = s.pwr := rfl
@[simp] theorem State.wr_therm (base : Nat) (f : Fld) (v : Nat) : (s.wr base f v).therm = s.therm := rfl
@[simp] theorem State.wr_brup (base : Nat) (f : Fld) (v : Nat) : (s.wr base f v).brup = s.brup := rfl
@[simp] theorem State.wr_sec (base : Nat) (f : Fld) (v : Nat) : (s.wr base f v).sec = s.sec := rfl
@[simp] theorem State.wr_card (base : Nat) (f : Fld) (v : Nat) : (s.wr base f v).card = s.card := rfl
@[simp] theorem State.wr_reports (base : Nat) (f : Fld) (v : Nat) : (s.wr base f v).reports = s.reports := rfl
@[simp] theorem State.wr_out (base : Nat) (f : Fld) (v : Nat) : (s.wr base f v).out = s.out := rfl

/-! ### Setting a bit field -/

@[simp] theorem State.raise_pending (base : Nat) (f : Fld) : (s.raise base f).pending = s.pending := rfl
@[simp] theorem State.raise_tsc (base : Nat) (f : Fld) : (s.raise base f).tsc = s.tsc := rfl
@[simp] theorem State.raise_free (base : Nat) (f : Fld) : (s.raise base f).free = s.free := rfl
@[simp] theorem State.raise_pend (base : Nat) (f : Fld) : (s.raise base f).pend = s.pend := rfl
@[simp] theorem State.raise_pendMask (base : Nat) (f : Fld) : (s.raise base f).pendMask = s.pendMask := rfl
@[simp] theorem State.raise_mem (base : Nat) (f : Fld) : (s.raise base f).mem = s.mem := rfl
@[simp] theorem State.raise_ccs (base : Nat) (f : Fld) : (s.raise base f).ccs = s.ccs := rfl
@[simp] theorem State.raise_engs (base : Nat) (f : Fld) : (s.raise base f).engs = s.engs := rfl
@[simp] theorem State.raise_bdies (base : Nat) (f : Fld) : (s.raise base f).bdies = s.bdies := rfl
@[simp] theorem State.raise_tiles (base : Nat) (f : Fld) : (s.raise base f).tiles = s.tiles := rfl
@[simp] theorem State.raise_flight (base : Nat) (f : Fld) : (s.raise base f).flight = s.flight := rfl
@[simp] theorem State.raise_recsOut (base : Nat) (f : Fld) : (s.raise base f).recsOut = s.recsOut := rfl
@[simp] theorem State.raise_molt (base : Nat) (f : Fld) : (s.raise base f).molt = s.molt := rfl
@[simp] theorem State.raise_rings (base : Nat) (f : Fld) : (s.raise base f).rings = s.rings := rfl
@[simp] theorem State.raise_evs (base : Nat) (f : Fld) : (s.raise base f).evs = s.evs := rfl
@[simp] theorem State.raise_cuts (base : Nat) (f : Fld) : (s.raise base f).cuts = s.cuts := rfl
@[simp] theorem State.raise_cutNo (base : Nat) (f : Fld) : (s.raise base f).cutNo = s.cutNo := rfl
@[simp] theorem State.raise_host (base : Nat) (f : Fld) : (s.raise base f).host = s.host := rfl
@[simp] theorem State.raise_pwr (base : Nat) (f : Fld) : (s.raise base f).pwr = s.pwr := rfl
@[simp] theorem State.raise_therm (base : Nat) (f : Fld) : (s.raise base f).therm = s.therm := rfl
@[simp] theorem State.raise_brup (base : Nat) (f : Fld) : (s.raise base f).brup = s.brup := rfl
@[simp] theorem State.raise_sec (base : Nat) (f : Fld) : (s.raise base f).sec = s.sec := rfl
@[simp] theorem State.raise_card (base : Nat) (f : Fld) : (s.raise base f).card = s.card := rfl
@[simp] theorem State.raise_reports (base : Nat) (f : Fld) : (s.raise base f).reports = s.reports := rfl
@[simp] theorem State.raise_out (base : Nat) (f : Fld) : (s.raise base f).out = s.out := rfl

/-! ### Clearing a bit field -/

@[simp] theorem State.clear_pending (base : Nat) (f : Fld) : (s.clear base f).pending = s.pending := rfl
@[simp] theorem State.clear_tsc (base : Nat) (f : Fld) : (s.clear base f).tsc = s.tsc := rfl
@[simp] theorem State.clear_free (base : Nat) (f : Fld) : (s.clear base f).free = s.free := rfl
@[simp] theorem State.clear_pend (base : Nat) (f : Fld) : (s.clear base f).pend = s.pend := rfl
@[simp] theorem State.clear_pendMask (base : Nat) (f : Fld) : (s.clear base f).pendMask = s.pendMask := rfl
@[simp] theorem State.clear_mem (base : Nat) (f : Fld) : (s.clear base f).mem = s.mem := rfl
@[simp] theorem State.clear_ccs (base : Nat) (f : Fld) : (s.clear base f).ccs = s.ccs := rfl
@[simp] theorem State.clear_engs (base : Nat) (f : Fld) : (s.clear base f).engs = s.engs := rfl
@[simp] theorem State.clear_bdies (base : Nat) (f : Fld) : (s.clear base f).bdies = s.bdies := rfl
@[simp] theorem State.clear_tiles (base : Nat) (f : Fld) : (s.clear base f).tiles = s.tiles := rfl
@[simp] theorem State.clear_flight (base : Nat) (f : Fld) : (s.clear base f).flight = s.flight := rfl
@[simp] theorem State.clear_recsOut (base : Nat) (f : Fld) : (s.clear base f).recsOut = s.recsOut := rfl
@[simp] theorem State.clear_molt (base : Nat) (f : Fld) : (s.clear base f).molt = s.molt := rfl
@[simp] theorem State.clear_rings (base : Nat) (f : Fld) : (s.clear base f).rings = s.rings := rfl
@[simp] theorem State.clear_evs (base : Nat) (f : Fld) : (s.clear base f).evs = s.evs := rfl
@[simp] theorem State.clear_cuts (base : Nat) (f : Fld) : (s.clear base f).cuts = s.cuts := rfl
@[simp] theorem State.clear_cutNo (base : Nat) (f : Fld) : (s.clear base f).cutNo = s.cutNo := rfl
@[simp] theorem State.clear_host (base : Nat) (f : Fld) : (s.clear base f).host = s.host := rfl
@[simp] theorem State.clear_pwr (base : Nat) (f : Fld) : (s.clear base f).pwr = s.pwr := rfl
@[simp] theorem State.clear_therm (base : Nat) (f : Fld) : (s.clear base f).therm = s.therm := rfl
@[simp] theorem State.clear_brup (base : Nat) (f : Fld) : (s.clear base f).brup = s.brup := rfl
@[simp] theorem State.clear_sec (base : Nat) (f : Fld) : (s.clear base f).sec = s.sec := rfl
@[simp] theorem State.clear_card (base : Nat) (f : Fld) : (s.clear base f).card = s.card := rfl
@[simp] theorem State.clear_reports (base : Nat) (f : Fld) : (s.clear base f).reports = s.reports := rfl
@[simp] theorem State.clear_out (base : Nat) (f : Fld) : (s.clear base f).out = s.out := rfl

/-! ### A saturating counter -/

@[simp] theorem State.sat_pending (base : Nat) (f : Fld) (n : Nat) : (s.sat base f n).pending = s.pending := rfl
@[simp] theorem State.sat_tsc (base : Nat) (f : Fld) (n : Nat) : (s.sat base f n).tsc = s.tsc := rfl
@[simp] theorem State.sat_free (base : Nat) (f : Fld) (n : Nat) : (s.sat base f n).free = s.free := rfl
@[simp] theorem State.sat_pend (base : Nat) (f : Fld) (n : Nat) : (s.sat base f n).pend = s.pend := rfl
@[simp] theorem State.sat_pendMask (base : Nat) (f : Fld) (n : Nat) : (s.sat base f n).pendMask = s.pendMask := rfl
@[simp] theorem State.sat_mem (base : Nat) (f : Fld) (n : Nat) : (s.sat base f n).mem = s.mem := rfl
@[simp] theorem State.sat_ccs (base : Nat) (f : Fld) (n : Nat) : (s.sat base f n).ccs = s.ccs := rfl
@[simp] theorem State.sat_engs (base : Nat) (f : Fld) (n : Nat) : (s.sat base f n).engs = s.engs := rfl
@[simp] theorem State.sat_bdies (base : Nat) (f : Fld) (n : Nat) : (s.sat base f n).bdies = s.bdies := rfl
@[simp] theorem State.sat_tiles (base : Nat) (f : Fld) (n : Nat) : (s.sat base f n).tiles = s.tiles := rfl
@[simp] theorem State.sat_flight (base : Nat) (f : Fld) (n : Nat) : (s.sat base f n).flight = s.flight := rfl
@[simp] theorem State.sat_recsOut (base : Nat) (f : Fld) (n : Nat) : (s.sat base f n).recsOut = s.recsOut := rfl
@[simp] theorem State.sat_molt (base : Nat) (f : Fld) (n : Nat) : (s.sat base f n).molt = s.molt := rfl
@[simp] theorem State.sat_rings (base : Nat) (f : Fld) (n : Nat) : (s.sat base f n).rings = s.rings := rfl
@[simp] theorem State.sat_evs (base : Nat) (f : Fld) (n : Nat) : (s.sat base f n).evs = s.evs := rfl
@[simp] theorem State.sat_cuts (base : Nat) (f : Fld) (n : Nat) : (s.sat base f n).cuts = s.cuts := rfl
@[simp] theorem State.sat_cutNo (base : Nat) (f : Fld) (n : Nat) : (s.sat base f n).cutNo = s.cutNo := rfl
@[simp] theorem State.sat_host (base : Nat) (f : Fld) (n : Nat) : (s.sat base f n).host = s.host := rfl
@[simp] theorem State.sat_pwr (base : Nat) (f : Fld) (n : Nat) : (s.sat base f n).pwr = s.pwr := rfl
@[simp] theorem State.sat_therm (base : Nat) (f : Fld) (n : Nat) : (s.sat base f n).therm = s.therm := rfl
@[simp] theorem State.sat_brup (base : Nat) (f : Fld) (n : Nat) : (s.sat base f n).brup = s.brup := rfl
@[simp] theorem State.sat_sec (base : Nat) (f : Fld) (n : Nat) : (s.sat base f n).sec = s.sec := rfl
@[simp] theorem State.sat_card (base : Nat) (f : Fld) (n : Nat) : (s.sat base f n).card = s.card := rfl
@[simp] theorem State.sat_reports (base : Nat) (f : Fld) (n : Nat) : (s.sat base f n).reports = s.reports := rfl
@[simp] theorem State.sat_out (base : Nat) (f : Fld) (n : Nat) : (s.sat base f n).out = s.out := rfl

/-! ### An event report -/

@[simp] theorem State.emit_pending (src code : Nat) (data : List Nat) : (s.emit src code data).pending = s.pending := rfl
@[simp] theorem State.emit_tsc (src code : Nat) (data : List Nat) : (s.emit src code data).tsc = s.tsc := rfl
@[simp] theorem State.emit_free (src code : Nat) (data : List Nat) : (s.emit src code data).free = s.free := rfl
@[simp] theorem State.emit_regs (src code : Nat) (data : List Nat) : (s.emit src code data).regs = s.regs := rfl
@[simp] theorem State.emit_pend (src code : Nat) (data : List Nat) : (s.emit src code data).pend = s.pend := rfl
@[simp] theorem State.emit_pendMask (src code : Nat) (data : List Nat) : (s.emit src code data).pendMask = s.pendMask := rfl
@[simp] theorem State.emit_mem (src code : Nat) (data : List Nat) : (s.emit src code data).mem = s.mem := rfl
@[simp] theorem State.emit_ccs (src code : Nat) (data : List Nat) : (s.emit src code data).ccs = s.ccs := rfl
@[simp] theorem State.emit_engs (src code : Nat) (data : List Nat) : (s.emit src code data).engs = s.engs := rfl
@[simp] theorem State.emit_bdies (src code : Nat) (data : List Nat) : (s.emit src code data).bdies = s.bdies := rfl
@[simp] theorem State.emit_tiles (src code : Nat) (data : List Nat) : (s.emit src code data).tiles = s.tiles := rfl
@[simp] theorem State.emit_flight (src code : Nat) (data : List Nat) : (s.emit src code data).flight = s.flight := rfl
@[simp] theorem State.emit_recsOut (src code : Nat) (data : List Nat) : (s.emit src code data).recsOut = s.recsOut := rfl
@[simp] theorem State.emit_molt (src code : Nat) (data : List Nat) : (s.emit src code data).molt = s.molt := rfl
@[simp] theorem State.emit_rings (src code : Nat) (data : List Nat) : (s.emit src code data).rings = s.rings := rfl
@[simp] theorem State.emit_evs (src code : Nat) (data : List Nat) : (s.emit src code data).evs = s.evs := rfl
@[simp] theorem State.emit_cuts (src code : Nat) (data : List Nat) : (s.emit src code data).cuts = s.cuts := rfl
@[simp] theorem State.emit_cutNo (src code : Nat) (data : List Nat) : (s.emit src code data).cutNo = s.cutNo := rfl
@[simp] theorem State.emit_host (src code : Nat) (data : List Nat) : (s.emit src code data).host = s.host := rfl
@[simp] theorem State.emit_pwr (src code : Nat) (data : List Nat) : (s.emit src code data).pwr = s.pwr := rfl
@[simp] theorem State.emit_therm (src code : Nat) (data : List Nat) : (s.emit src code data).therm = s.therm := rfl
@[simp] theorem State.emit_brup (src code : Nat) (data : List Nat) : (s.emit src code data).brup = s.brup := rfl
@[simp] theorem State.emit_sec (src code : Nat) (data : List Nat) : (s.emit src code data).sec = s.sec := rfl
@[simp] theorem State.emit_card (src code : Nat) (data : List Nat) : (s.emit src code data).card = s.card := rfl
@[simp] theorem State.emit_out (src code : Nat) (data : List Nat) : (s.emit src code data).out = s.out := rfl

/-! ### Something leaving the card -/

@[simp] theorem State.send_pending (o : Out) : (s.send o).pending = s.pending := rfl
@[simp] theorem State.send_tsc (o : Out) : (s.send o).tsc = s.tsc := rfl
@[simp] theorem State.send_free (o : Out) : (s.send o).free = s.free := rfl
@[simp] theorem State.send_regs (o : Out) : (s.send o).regs = s.regs := rfl
@[simp] theorem State.send_pend (o : Out) : (s.send o).pend = s.pend := rfl
@[simp] theorem State.send_pendMask (o : Out) : (s.send o).pendMask = s.pendMask := rfl
@[simp] theorem State.send_mem (o : Out) : (s.send o).mem = s.mem := rfl
@[simp] theorem State.send_ccs (o : Out) : (s.send o).ccs = s.ccs := rfl
@[simp] theorem State.send_engs (o : Out) : (s.send o).engs = s.engs := rfl
@[simp] theorem State.send_bdies (o : Out) : (s.send o).bdies = s.bdies := rfl
@[simp] theorem State.send_tiles (o : Out) : (s.send o).tiles = s.tiles := rfl
@[simp] theorem State.send_flight (o : Out) : (s.send o).flight = s.flight := rfl
@[simp] theorem State.send_recsOut (o : Out) : (s.send o).recsOut = s.recsOut := rfl
@[simp] theorem State.send_molt (o : Out) : (s.send o).molt = s.molt := rfl
@[simp] theorem State.send_rings (o : Out) : (s.send o).rings = s.rings := rfl
@[simp] theorem State.send_evs (o : Out) : (s.send o).evs = s.evs := rfl
@[simp] theorem State.send_cuts (o : Out) : (s.send o).cuts = s.cuts := rfl
@[simp] theorem State.send_cutNo (o : Out) : (s.send o).cutNo = s.cutNo := rfl
@[simp] theorem State.send_host (o : Out) : (s.send o).host = s.host := rfl
@[simp] theorem State.send_pwr (o : Out) : (s.send o).pwr = s.pwr := rfl
@[simp] theorem State.send_therm (o : Out) : (s.send o).therm = s.therm := rfl
@[simp] theorem State.send_brup (o : Out) : (s.send o).brup = s.brup := rfl
@[simp] theorem State.send_sec (o : Out) : (s.send o).sec = s.sec := rfl
@[simp] theorem State.send_card (o : Out) : (s.send o).card = s.card := rfl
@[simp] theorem State.send_reports (o : Out) : (s.send o).reports = s.reports := rfl

/-! ### A CC's state -/

@[simp] theorem State.setCc_pending (c : Nat) (v : CcSt) : (s.setCc c v).pending = s.pending := rfl
@[simp] theorem State.setCc_tsc (c : Nat) (v : CcSt) : (s.setCc c v).tsc = s.tsc := rfl
@[simp] theorem State.setCc_free (c : Nat) (v : CcSt) : (s.setCc c v).free = s.free := rfl
@[simp] theorem State.setCc_regs (c : Nat) (v : CcSt) : (s.setCc c v).regs = s.regs := rfl
@[simp] theorem State.setCc_pend (c : Nat) (v : CcSt) : (s.setCc c v).pend = s.pend := rfl
@[simp] theorem State.setCc_pendMask (c : Nat) (v : CcSt) : (s.setCc c v).pendMask = s.pendMask := rfl
@[simp] theorem State.setCc_mem (c : Nat) (v : CcSt) : (s.setCc c v).mem = s.mem := rfl
@[simp] theorem State.setCc_engs (c : Nat) (v : CcSt) : (s.setCc c v).engs = s.engs := rfl
@[simp] theorem State.setCc_bdies (c : Nat) (v : CcSt) : (s.setCc c v).bdies = s.bdies := rfl
@[simp] theorem State.setCc_tiles (c : Nat) (v : CcSt) : (s.setCc c v).tiles = s.tiles := rfl
@[simp] theorem State.setCc_flight (c : Nat) (v : CcSt) : (s.setCc c v).flight = s.flight := rfl
@[simp] theorem State.setCc_recsOut (c : Nat) (v : CcSt) : (s.setCc c v).recsOut = s.recsOut := rfl
@[simp] theorem State.setCc_molt (c : Nat) (v : CcSt) : (s.setCc c v).molt = s.molt := rfl
@[simp] theorem State.setCc_rings (c : Nat) (v : CcSt) : (s.setCc c v).rings = s.rings := rfl
@[simp] theorem State.setCc_evs (c : Nat) (v : CcSt) : (s.setCc c v).evs = s.evs := rfl
@[simp] theorem State.setCc_cuts (c : Nat) (v : CcSt) : (s.setCc c v).cuts = s.cuts := rfl
@[simp] theorem State.setCc_cutNo (c : Nat) (v : CcSt) : (s.setCc c v).cutNo = s.cutNo := rfl
@[simp] theorem State.setCc_host (c : Nat) (v : CcSt) : (s.setCc c v).host = s.host := rfl
@[simp] theorem State.setCc_pwr (c : Nat) (v : CcSt) : (s.setCc c v).pwr = s.pwr := rfl
@[simp] theorem State.setCc_therm (c : Nat) (v : CcSt) : (s.setCc c v).therm = s.therm := rfl
@[simp] theorem State.setCc_brup (c : Nat) (v : CcSt) : (s.setCc c v).brup = s.brup := rfl
@[simp] theorem State.setCc_sec (c : Nat) (v : CcSt) : (s.setCc c v).sec = s.sec := rfl
@[simp] theorem State.setCc_card (c : Nat) (v : CcSt) : (s.setCc c v).card = s.card := rfl
@[simp] theorem State.setCc_reports (c : Nat) (v : CcSt) : (s.setCc c v).reports = s.reports := rfl
@[simp] theorem State.setCc_out (c : Nat) (v : CcSt) : (s.setCc c v).out = s.out := rfl

/-! ### A bank engine's state -/

@[simp] theorem State.setEng_pending (b : Nat) (v : EngSt) : (s.setEng b v).pending = s.pending := rfl
@[simp] theorem State.setEng_tsc (b : Nat) (v : EngSt) : (s.setEng b v).tsc = s.tsc := rfl
@[simp] theorem State.setEng_free (b : Nat) (v : EngSt) : (s.setEng b v).free = s.free := rfl
@[simp] theorem State.setEng_regs (b : Nat) (v : EngSt) : (s.setEng b v).regs = s.regs := rfl
@[simp] theorem State.setEng_pend (b : Nat) (v : EngSt) : (s.setEng b v).pend = s.pend := rfl
@[simp] theorem State.setEng_pendMask (b : Nat) (v : EngSt) : (s.setEng b v).pendMask = s.pendMask := rfl
@[simp] theorem State.setEng_mem (b : Nat) (v : EngSt) : (s.setEng b v).mem = s.mem := rfl
@[simp] theorem State.setEng_ccs (b : Nat) (v : EngSt) : (s.setEng b v).ccs = s.ccs := rfl
@[simp] theorem State.setEng_bdies (b : Nat) (v : EngSt) : (s.setEng b v).bdies = s.bdies := rfl
@[simp] theorem State.setEng_tiles (b : Nat) (v : EngSt) : (s.setEng b v).tiles = s.tiles := rfl
@[simp] theorem State.setEng_flight (b : Nat) (v : EngSt) : (s.setEng b v).flight = s.flight := rfl
@[simp] theorem State.setEng_recsOut (b : Nat) (v : EngSt) : (s.setEng b v).recsOut = s.recsOut := rfl
@[simp] theorem State.setEng_molt (b : Nat) (v : EngSt) : (s.setEng b v).molt = s.molt := rfl
@[simp] theorem State.setEng_rings (b : Nat) (v : EngSt) : (s.setEng b v).rings = s.rings := rfl
@[simp] theorem State.setEng_evs (b : Nat) (v : EngSt) : (s.setEng b v).evs = s.evs := rfl
@[simp] theorem State.setEng_cuts (b : Nat) (v : EngSt) : (s.setEng b v).cuts = s.cuts := rfl
@[simp] theorem State.setEng_cutNo (b : Nat) (v : EngSt) : (s.setEng b v).cutNo = s.cutNo := rfl
@[simp] theorem State.setEng_host (b : Nat) (v : EngSt) : (s.setEng b v).host = s.host := rfl
@[simp] theorem State.setEng_pwr (b : Nat) (v : EngSt) : (s.setEng b v).pwr = s.pwr := rfl
@[simp] theorem State.setEng_therm (b : Nat) (v : EngSt) : (s.setEng b v).therm = s.therm := rfl
@[simp] theorem State.setEng_brup (b : Nat) (v : EngSt) : (s.setEng b v).brup = s.brup := rfl
@[simp] theorem State.setEng_sec (b : Nat) (v : EngSt) : (s.setEng b v).sec = s.sec := rfl
@[simp] theorem State.setEng_card (b : Nat) (v : EngSt) : (s.setEng b v).card = s.card := rfl
@[simp] theorem State.setEng_reports (b : Nat) (v : EngSt) : (s.setEng b v).reports = s.reports := rfl
@[simp] theorem State.setEng_out (b : Nat) (v : EngSt) : (s.setEng b v).out = s.out := rfl

/-! ### A B-die's state -/

@[simp] theorem State.setBd_pending (k : Nat) (v : BdieSt) : (s.setBd k v).pending = s.pending := rfl
@[simp] theorem State.setBd_tsc (k : Nat) (v : BdieSt) : (s.setBd k v).tsc = s.tsc := rfl
@[simp] theorem State.setBd_free (k : Nat) (v : BdieSt) : (s.setBd k v).free = s.free := rfl
@[simp] theorem State.setBd_regs (k : Nat) (v : BdieSt) : (s.setBd k v).regs = s.regs := rfl
@[simp] theorem State.setBd_pend (k : Nat) (v : BdieSt) : (s.setBd k v).pend = s.pend := rfl
@[simp] theorem State.setBd_pendMask (k : Nat) (v : BdieSt) : (s.setBd k v).pendMask = s.pendMask := rfl
@[simp] theorem State.setBd_mem (k : Nat) (v : BdieSt) : (s.setBd k v).mem = s.mem := rfl
@[simp] theorem State.setBd_ccs (k : Nat) (v : BdieSt) : (s.setBd k v).ccs = s.ccs := rfl
@[simp] theorem State.setBd_engs (k : Nat) (v : BdieSt) : (s.setBd k v).engs = s.engs := rfl
@[simp] theorem State.setBd_tiles (k : Nat) (v : BdieSt) : (s.setBd k v).tiles = s.tiles := rfl
@[simp] theorem State.setBd_flight (k : Nat) (v : BdieSt) : (s.setBd k v).flight = s.flight := rfl
@[simp] theorem State.setBd_recsOut (k : Nat) (v : BdieSt) : (s.setBd k v).recsOut = s.recsOut := rfl
@[simp] theorem State.setBd_molt (k : Nat) (v : BdieSt) : (s.setBd k v).molt = s.molt := rfl
@[simp] theorem State.setBd_rings (k : Nat) (v : BdieSt) : (s.setBd k v).rings = s.rings := rfl
@[simp] theorem State.setBd_evs (k : Nat) (v : BdieSt) : (s.setBd k v).evs = s.evs := rfl
@[simp] theorem State.setBd_cuts (k : Nat) (v : BdieSt) : (s.setBd k v).cuts = s.cuts := rfl
@[simp] theorem State.setBd_cutNo (k : Nat) (v : BdieSt) : (s.setBd k v).cutNo = s.cutNo := rfl
@[simp] theorem State.setBd_host (k : Nat) (v : BdieSt) : (s.setBd k v).host = s.host := rfl
@[simp] theorem State.setBd_pwr (k : Nat) (v : BdieSt) : (s.setBd k v).pwr = s.pwr := rfl
@[simp] theorem State.setBd_therm (k : Nat) (v : BdieSt) : (s.setBd k v).therm = s.therm := rfl
@[simp] theorem State.setBd_brup (k : Nat) (v : BdieSt) : (s.setBd k v).brup = s.brup := rfl
@[simp] theorem State.setBd_sec (k : Nat) (v : BdieSt) : (s.setBd k v).sec = s.sec := rfl
@[simp] theorem State.setBd_card (k : Nat) (v : BdieSt) : (s.setBd k v).card = s.card := rfl
@[simp] theorem State.setBd_reports (k : Nat) (v : BdieSt) : (s.setBd k v).reports = s.reports := rfl
@[simp] theorem State.setBd_out (k : Nat) (v : BdieSt) : (s.setBd k v).out = s.out := rfl

/-! ### A tile's state -/

@[simp] theorem State.setTile_pending (t : Nat) (v : Tile) : (s.setTile t v).pending = s.pending := rfl
@[simp] theorem State.setTile_tsc (t : Nat) (v : Tile) : (s.setTile t v).tsc = s.tsc := rfl
@[simp] theorem State.setTile_free (t : Nat) (v : Tile) : (s.setTile t v).free = s.free := rfl
@[simp] theorem State.setTile_regs (t : Nat) (v : Tile) : (s.setTile t v).regs = s.regs := rfl
@[simp] theorem State.setTile_pend (t : Nat) (v : Tile) : (s.setTile t v).pend = s.pend := rfl
@[simp] theorem State.setTile_pendMask (t : Nat) (v : Tile) : (s.setTile t v).pendMask = s.pendMask := rfl
@[simp] theorem State.setTile_mem (t : Nat) (v : Tile) : (s.setTile t v).mem = s.mem := rfl
@[simp] theorem State.setTile_ccs (t : Nat) (v : Tile) : (s.setTile t v).ccs = s.ccs := rfl
@[simp] theorem State.setTile_engs (t : Nat) (v : Tile) : (s.setTile t v).engs = s.engs := rfl
@[simp] theorem State.setTile_bdies (t : Nat) (v : Tile) : (s.setTile t v).bdies = s.bdies := rfl
@[simp] theorem State.setTile_flight (t : Nat) (v : Tile) : (s.setTile t v).flight = s.flight := rfl
@[simp] theorem State.setTile_recsOut (t : Nat) (v : Tile) : (s.setTile t v).recsOut = s.recsOut := rfl
@[simp] theorem State.setTile_molt (t : Nat) (v : Tile) : (s.setTile t v).molt = s.molt := rfl
@[simp] theorem State.setTile_rings (t : Nat) (v : Tile) : (s.setTile t v).rings = s.rings := rfl
@[simp] theorem State.setTile_evs (t : Nat) (v : Tile) : (s.setTile t v).evs = s.evs := rfl
@[simp] theorem State.setTile_cuts (t : Nat) (v : Tile) : (s.setTile t v).cuts = s.cuts := rfl
@[simp] theorem State.setTile_cutNo (t : Nat) (v : Tile) : (s.setTile t v).cutNo = s.cutNo := rfl
@[simp] theorem State.setTile_host (t : Nat) (v : Tile) : (s.setTile t v).host = s.host := rfl
@[simp] theorem State.setTile_pwr (t : Nat) (v : Tile) : (s.setTile t v).pwr = s.pwr := rfl
@[simp] theorem State.setTile_therm (t : Nat) (v : Tile) : (s.setTile t v).therm = s.therm := rfl
@[simp] theorem State.setTile_brup (t : Nat) (v : Tile) : (s.setTile t v).brup = s.brup := rfl
@[simp] theorem State.setTile_sec (t : Nat) (v : Tile) : (s.setTile t v).sec = s.sec := rfl
@[simp] theorem State.setTile_card (t : Nat) (v : Tile) : (s.setTile t v).card = s.card := rfl
@[simp] theorem State.setTile_reports (t : Nat) (v : Tile) : (s.setTile t v).reports = s.reports := rfl
@[simp] theorem State.setTile_out (t : Nat) (v : Tile) : (s.setTile t v).out = s.out := rfl

/-! ### A change of a tile's state -/

@[simp] theorem State.modTile_pending (t : Nat) (f : Tile → Tile) : (s.modTile t f).pending = s.pending := rfl
@[simp] theorem State.modTile_tsc (t : Nat) (f : Tile → Tile) : (s.modTile t f).tsc = s.tsc := rfl
@[simp] theorem State.modTile_free (t : Nat) (f : Tile → Tile) : (s.modTile t f).free = s.free := rfl
@[simp] theorem State.modTile_regs (t : Nat) (f : Tile → Tile) : (s.modTile t f).regs = s.regs := rfl
@[simp] theorem State.modTile_pend (t : Nat) (f : Tile → Tile) : (s.modTile t f).pend = s.pend := rfl
@[simp] theorem State.modTile_pendMask (t : Nat) (f : Tile → Tile) : (s.modTile t f).pendMask = s.pendMask := rfl
@[simp] theorem State.modTile_mem (t : Nat) (f : Tile → Tile) : (s.modTile t f).mem = s.mem := rfl
@[simp] theorem State.modTile_ccs (t : Nat) (f : Tile → Tile) : (s.modTile t f).ccs = s.ccs := rfl
@[simp] theorem State.modTile_engs (t : Nat) (f : Tile → Tile) : (s.modTile t f).engs = s.engs := rfl
@[simp] theorem State.modTile_bdies (t : Nat) (f : Tile → Tile) : (s.modTile t f).bdies = s.bdies := rfl
@[simp] theorem State.modTile_flight (t : Nat) (f : Tile → Tile) : (s.modTile t f).flight = s.flight := rfl
@[simp] theorem State.modTile_recsOut (t : Nat) (f : Tile → Tile) : (s.modTile t f).recsOut = s.recsOut := rfl
@[simp] theorem State.modTile_molt (t : Nat) (f : Tile → Tile) : (s.modTile t f).molt = s.molt := rfl
@[simp] theorem State.modTile_rings (t : Nat) (f : Tile → Tile) : (s.modTile t f).rings = s.rings := rfl
@[simp] theorem State.modTile_evs (t : Nat) (f : Tile → Tile) : (s.modTile t f).evs = s.evs := rfl
@[simp] theorem State.modTile_cuts (t : Nat) (f : Tile → Tile) : (s.modTile t f).cuts = s.cuts := rfl
@[simp] theorem State.modTile_cutNo (t : Nat) (f : Tile → Tile) : (s.modTile t f).cutNo = s.cutNo := rfl
@[simp] theorem State.modTile_host (t : Nat) (f : Tile → Tile) : (s.modTile t f).host = s.host := rfl
@[simp] theorem State.modTile_pwr (t : Nat) (f : Tile → Tile) : (s.modTile t f).pwr = s.pwr := rfl
@[simp] theorem State.modTile_therm (t : Nat) (f : Tile → Tile) : (s.modTile t f).therm = s.therm := rfl
@[simp] theorem State.modTile_brup (t : Nat) (f : Tile → Tile) : (s.modTile t f).brup = s.brup := rfl
@[simp] theorem State.modTile_sec (t : Nat) (f : Tile → Tile) : (s.modTile t f).sec = s.sec := rfl
@[simp] theorem State.modTile_card (t : Nat) (f : Tile → Tile) : (s.modTile t f).card = s.card := rfl
@[simp] theorem State.modTile_reports (t : Nat) (f : Tile → Tile) : (s.modTile t f).reports = s.reports := rfl
@[simp] theorem State.modTile_out (t : Nat) (f : Tile → Tile) : (s.modTile t f).out = s.out := rfl

/-! ### An engine's state -/

@[simp] theorem State.setEngine_pending (t e : Nat) (v : Engine) : (s.setEngine t e v).pending = s.pending := rfl
@[simp] theorem State.setEngine_tsc (t e : Nat) (v : Engine) : (s.setEngine t e v).tsc = s.tsc := rfl
@[simp] theorem State.setEngine_free (t e : Nat) (v : Engine) : (s.setEngine t e v).free = s.free := rfl
@[simp] theorem State.setEngine_regs (t e : Nat) (v : Engine) : (s.setEngine t e v).regs = s.regs := rfl
@[simp] theorem State.setEngine_pend (t e : Nat) (v : Engine) : (s.setEngine t e v).pend = s.pend := rfl
@[simp] theorem State.setEngine_pendMask (t e : Nat) (v : Engine) : (s.setEngine t e v).pendMask = s.pendMask := rfl
@[simp] theorem State.setEngine_mem (t e : Nat) (v : Engine) : (s.setEngine t e v).mem = s.mem := rfl
@[simp] theorem State.setEngine_ccs (t e : Nat) (v : Engine) : (s.setEngine t e v).ccs = s.ccs := rfl
@[simp] theorem State.setEngine_engs (t e : Nat) (v : Engine) : (s.setEngine t e v).engs = s.engs := rfl
@[simp] theorem State.setEngine_bdies (t e : Nat) (v : Engine) : (s.setEngine t e v).bdies = s.bdies := rfl
@[simp] theorem State.setEngine_flight (t e : Nat) (v : Engine) : (s.setEngine t e v).flight = s.flight := rfl
@[simp] theorem State.setEngine_recsOut (t e : Nat) (v : Engine) : (s.setEngine t e v).recsOut = s.recsOut := rfl
@[simp] theorem State.setEngine_molt (t e : Nat) (v : Engine) : (s.setEngine t e v).molt = s.molt := rfl
@[simp] theorem State.setEngine_rings (t e : Nat) (v : Engine) : (s.setEngine t e v).rings = s.rings := rfl
@[simp] theorem State.setEngine_evs (t e : Nat) (v : Engine) : (s.setEngine t e v).evs = s.evs := rfl
@[simp] theorem State.setEngine_cuts (t e : Nat) (v : Engine) : (s.setEngine t e v).cuts = s.cuts := rfl
@[simp] theorem State.setEngine_cutNo (t e : Nat) (v : Engine) : (s.setEngine t e v).cutNo = s.cutNo := rfl
@[simp] theorem State.setEngine_host (t e : Nat) (v : Engine) : (s.setEngine t e v).host = s.host := rfl
@[simp] theorem State.setEngine_pwr (t e : Nat) (v : Engine) : (s.setEngine t e v).pwr = s.pwr := rfl
@[simp] theorem State.setEngine_therm (t e : Nat) (v : Engine) : (s.setEngine t e v).therm = s.therm := rfl
@[simp] theorem State.setEngine_brup (t e : Nat) (v : Engine) : (s.setEngine t e v).brup = s.brup := rfl
@[simp] theorem State.setEngine_sec (t e : Nat) (v : Engine) : (s.setEngine t e v).sec = s.sec := rfl
@[simp] theorem State.setEngine_card (t e : Nat) (v : Engine) : (s.setEngine t e v).card = s.card := rfl
@[simp] theorem State.setEngine_reports (t e : Nat) (v : Engine) : (s.setEngine t e v).reports = s.reports := rfl
@[simp] theorem State.setEngine_out (t e : Nat) (v : Engine) : (s.setEngine t e v).out = s.out := rfl

/-! ### An address register -/

@[simp] theorem State.setA_pending (t e r v : Nat) : (s.setA t e r v).pending = s.pending := rfl
@[simp] theorem State.setA_tsc (t e r v : Nat) : (s.setA t e r v).tsc = s.tsc := rfl
@[simp] theorem State.setA_free (t e r v : Nat) : (s.setA t e r v).free = s.free := rfl
@[simp] theorem State.setA_regs (t e r v : Nat) : (s.setA t e r v).regs = s.regs := rfl
@[simp] theorem State.setA_pend (t e r v : Nat) : (s.setA t e r v).pend = s.pend := rfl
@[simp] theorem State.setA_pendMask (t e r v : Nat) : (s.setA t e r v).pendMask = s.pendMask := rfl
@[simp] theorem State.setA_mem (t e r v : Nat) : (s.setA t e r v).mem = s.mem := rfl
@[simp] theorem State.setA_ccs (t e r v : Nat) : (s.setA t e r v).ccs = s.ccs := rfl
@[simp] theorem State.setA_engs (t e r v : Nat) : (s.setA t e r v).engs = s.engs := rfl
@[simp] theorem State.setA_bdies (t e r v : Nat) : (s.setA t e r v).bdies = s.bdies := rfl
@[simp] theorem State.setA_flight (t e r v : Nat) : (s.setA t e r v).flight = s.flight := rfl
@[simp] theorem State.setA_recsOut (t e r v : Nat) : (s.setA t e r v).recsOut = s.recsOut := rfl
@[simp] theorem State.setA_molt (t e r v : Nat) : (s.setA t e r v).molt = s.molt := rfl
@[simp] theorem State.setA_rings (t e r v : Nat) : (s.setA t e r v).rings = s.rings := rfl
@[simp] theorem State.setA_evs (t e r v : Nat) : (s.setA t e r v).evs = s.evs := rfl
@[simp] theorem State.setA_cuts (t e r v : Nat) : (s.setA t e r v).cuts = s.cuts := rfl
@[simp] theorem State.setA_cutNo (t e r v : Nat) : (s.setA t e r v).cutNo = s.cutNo := rfl
@[simp] theorem State.setA_host (t e r v : Nat) : (s.setA t e r v).host = s.host := rfl
@[simp] theorem State.setA_pwr (t e r v : Nat) : (s.setA t e r v).pwr = s.pwr := rfl
@[simp] theorem State.setA_therm (t e r v : Nat) : (s.setA t e r v).therm = s.therm := rfl
@[simp] theorem State.setA_brup (t e r v : Nat) : (s.setA t e r v).brup = s.brup := rfl
@[simp] theorem State.setA_sec (t e r v : Nat) : (s.setA t e r v).sec = s.sec := rfl
@[simp] theorem State.setA_card (t e r v : Nat) : (s.setA t e r v).card = s.card := rfl
@[simp] theorem State.setA_reports (t e r v : Nat) : (s.setA t e r v).reports = s.reports := rfl
@[simp] theorem State.setA_out (t e r v : Nat) : (s.setA t e r v).out = s.out := rfl

/-! ### A scratchpad write -/

@[simp] theorem State.spWrite_pending (t i : Nat) (w : WriteData) : (s.spWrite t i w).pending = s.pending := rfl
@[simp] theorem State.spWrite_tsc (t i : Nat) (w : WriteData) : (s.spWrite t i w).tsc = s.tsc := rfl
@[simp] theorem State.spWrite_free (t i : Nat) (w : WriteData) : (s.spWrite t i w).free = s.free := rfl
@[simp] theorem State.spWrite_regs (t i : Nat) (w : WriteData) : (s.spWrite t i w).regs = s.regs := rfl
@[simp] theorem State.spWrite_pend (t i : Nat) (w : WriteData) : (s.spWrite t i w).pend = s.pend := rfl
@[simp] theorem State.spWrite_pendMask (t i : Nat) (w : WriteData) : (s.spWrite t i w).pendMask = s.pendMask := rfl
@[simp] theorem State.spWrite_mem (t i : Nat) (w : WriteData) : (s.spWrite t i w).mem = s.mem := rfl
@[simp] theorem State.spWrite_ccs (t i : Nat) (w : WriteData) : (s.spWrite t i w).ccs = s.ccs := rfl
@[simp] theorem State.spWrite_engs (t i : Nat) (w : WriteData) : (s.spWrite t i w).engs = s.engs := rfl
@[simp] theorem State.spWrite_bdies (t i : Nat) (w : WriteData) : (s.spWrite t i w).bdies = s.bdies := rfl
@[simp] theorem State.spWrite_flight (t i : Nat) (w : WriteData) : (s.spWrite t i w).flight = s.flight := rfl
@[simp] theorem State.spWrite_recsOut (t i : Nat) (w : WriteData) : (s.spWrite t i w).recsOut = s.recsOut := rfl
@[simp] theorem State.spWrite_molt (t i : Nat) (w : WriteData) : (s.spWrite t i w).molt = s.molt := rfl
@[simp] theorem State.spWrite_rings (t i : Nat) (w : WriteData) : (s.spWrite t i w).rings = s.rings := rfl
@[simp] theorem State.spWrite_evs (t i : Nat) (w : WriteData) : (s.spWrite t i w).evs = s.evs := rfl
@[simp] theorem State.spWrite_cuts (t i : Nat) (w : WriteData) : (s.spWrite t i w).cuts = s.cuts := rfl
@[simp] theorem State.spWrite_cutNo (t i : Nat) (w : WriteData) : (s.spWrite t i w).cutNo = s.cutNo := rfl
@[simp] theorem State.spWrite_host (t i : Nat) (w : WriteData) : (s.spWrite t i w).host = s.host := rfl
@[simp] theorem State.spWrite_pwr (t i : Nat) (w : WriteData) : (s.spWrite t i w).pwr = s.pwr := rfl
@[simp] theorem State.spWrite_therm (t i : Nat) (w : WriteData) : (s.spWrite t i w).therm = s.therm := rfl
@[simp] theorem State.spWrite_brup (t i : Nat) (w : WriteData) : (s.spWrite t i w).brup = s.brup := rfl
@[simp] theorem State.spWrite_sec (t i : Nat) (w : WriteData) : (s.spWrite t i w).sec = s.sec := rfl
@[simp] theorem State.spWrite_card (t i : Nat) (w : WriteData) : (s.spWrite t i w).card = s.card := rfl
@[simp] theorem State.spWrite_reports (t i : Nat) (w : WriteData) : (s.spWrite t i w).reports = s.reports := rfl
@[simp] theorem State.spWrite_out (t i : Nat) (w : WriteData) : (s.spWrite t i w).out = s.out := rfl

/-! ### A full/empty bit -/

@[simp] theorem State.setFull_pending (t i : Nat) (v : Bool) : (s.setFull t i v).pending = s.pending := rfl
@[simp] theorem State.setFull_tsc (t i : Nat) (v : Bool) : (s.setFull t i v).tsc = s.tsc := rfl
@[simp] theorem State.setFull_free (t i : Nat) (v : Bool) : (s.setFull t i v).free = s.free := rfl
@[simp] theorem State.setFull_regs (t i : Nat) (v : Bool) : (s.setFull t i v).regs = s.regs := rfl
@[simp] theorem State.setFull_pend (t i : Nat) (v : Bool) : (s.setFull t i v).pend = s.pend := rfl
@[simp] theorem State.setFull_pendMask (t i : Nat) (v : Bool) : (s.setFull t i v).pendMask = s.pendMask := rfl
@[simp] theorem State.setFull_mem (t i : Nat) (v : Bool) : (s.setFull t i v).mem = s.mem := rfl
@[simp] theorem State.setFull_ccs (t i : Nat) (v : Bool) : (s.setFull t i v).ccs = s.ccs := rfl
@[simp] theorem State.setFull_engs (t i : Nat) (v : Bool) : (s.setFull t i v).engs = s.engs := rfl
@[simp] theorem State.setFull_bdies (t i : Nat) (v : Bool) : (s.setFull t i v).bdies = s.bdies := rfl
@[simp] theorem State.setFull_flight (t i : Nat) (v : Bool) : (s.setFull t i v).flight = s.flight := rfl
@[simp] theorem State.setFull_recsOut (t i : Nat) (v : Bool) : (s.setFull t i v).recsOut = s.recsOut := rfl
@[simp] theorem State.setFull_molt (t i : Nat) (v : Bool) : (s.setFull t i v).molt = s.molt := rfl
@[simp] theorem State.setFull_rings (t i : Nat) (v : Bool) : (s.setFull t i v).rings = s.rings := rfl
@[simp] theorem State.setFull_evs (t i : Nat) (v : Bool) : (s.setFull t i v).evs = s.evs := rfl
@[simp] theorem State.setFull_cuts (t i : Nat) (v : Bool) : (s.setFull t i v).cuts = s.cuts := rfl
@[simp] theorem State.setFull_cutNo (t i : Nat) (v : Bool) : (s.setFull t i v).cutNo = s.cutNo := rfl
@[simp] theorem State.setFull_host (t i : Nat) (v : Bool) : (s.setFull t i v).host = s.host := rfl
@[simp] theorem State.setFull_pwr (t i : Nat) (v : Bool) : (s.setFull t i v).pwr = s.pwr := rfl
@[simp] theorem State.setFull_therm (t i : Nat) (v : Bool) : (s.setFull t i v).therm = s.therm := rfl
@[simp] theorem State.setFull_brup (t i : Nat) (v : Bool) : (s.setFull t i v).brup = s.brup := rfl
@[simp] theorem State.setFull_sec (t i : Nat) (v : Bool) : (s.setFull t i v).sec = s.sec := rfl
@[simp] theorem State.setFull_card (t i : Nat) (v : Bool) : (s.setFull t i v).card = s.card := rfl
@[simp] theorem State.setFull_reports (t i : Nat) (v : Bool) : (s.setFull t i v).reports = s.reports := rfl
@[simp] theorem State.setFull_out (t i : Nat) (v : Bool) : (s.setFull t i v).out = s.out := rfl

/-! ### A ring's state -/

@[simp] theorem State.setRing_pending (n : Nat) (v : RingSt) : (s.setRing n v).pending = s.pending := rfl
@[simp] theorem State.setRing_tsc (n : Nat) (v : RingSt) : (s.setRing n v).tsc = s.tsc := rfl
@[simp] theorem State.setRing_free (n : Nat) (v : RingSt) : (s.setRing n v).free = s.free := rfl
@[simp] theorem State.setRing_regs (n : Nat) (v : RingSt) : (s.setRing n v).regs = s.regs := rfl
@[simp] theorem State.setRing_pend (n : Nat) (v : RingSt) : (s.setRing n v).pend = s.pend := rfl
@[simp] theorem State.setRing_pendMask (n : Nat) (v : RingSt) : (s.setRing n v).pendMask = s.pendMask := rfl
@[simp] theorem State.setRing_mem (n : Nat) (v : RingSt) : (s.setRing n v).mem = s.mem := rfl
@[simp] theorem State.setRing_ccs (n : Nat) (v : RingSt) : (s.setRing n v).ccs = s.ccs := rfl
@[simp] theorem State.setRing_engs (n : Nat) (v : RingSt) : (s.setRing n v).engs = s.engs := rfl
@[simp] theorem State.setRing_bdies (n : Nat) (v : RingSt) : (s.setRing n v).bdies = s.bdies := rfl
@[simp] theorem State.setRing_tiles (n : Nat) (v : RingSt) : (s.setRing n v).tiles = s.tiles := rfl
@[simp] theorem State.setRing_flight (n : Nat) (v : RingSt) : (s.setRing n v).flight = s.flight := rfl
@[simp] theorem State.setRing_recsOut (n : Nat) (v : RingSt) : (s.setRing n v).recsOut = s.recsOut := rfl
@[simp] theorem State.setRing_molt (n : Nat) (v : RingSt) : (s.setRing n v).molt = s.molt := rfl
@[simp] theorem State.setRing_evs (n : Nat) (v : RingSt) : (s.setRing n v).evs = s.evs := rfl
@[simp] theorem State.setRing_cuts (n : Nat) (v : RingSt) : (s.setRing n v).cuts = s.cuts := rfl
@[simp] theorem State.setRing_cutNo (n : Nat) (v : RingSt) : (s.setRing n v).cutNo = s.cutNo := rfl
@[simp] theorem State.setRing_host (n : Nat) (v : RingSt) : (s.setRing n v).host = s.host := rfl
@[simp] theorem State.setRing_pwr (n : Nat) (v : RingSt) : (s.setRing n v).pwr = s.pwr := rfl
@[simp] theorem State.setRing_therm (n : Nat) (v : RingSt) : (s.setRing n v).therm = s.therm := rfl
@[simp] theorem State.setRing_brup (n : Nat) (v : RingSt) : (s.setRing n v).brup = s.brup := rfl
@[simp] theorem State.setRing_sec (n : Nat) (v : RingSt) : (s.setRing n v).sec = s.sec := rfl
@[simp] theorem State.setRing_card (n : Nat) (v : RingSt) : (s.setRing n v).card = s.card := rfl
@[simp] theorem State.setRing_reports (n : Nat) (v : RingSt) : (s.setRing n v).reports = s.reports := rfl
@[simp] theorem State.setRing_out (n : Nat) (v : RingSt) : (s.setRing n v).out = s.out := rfl

/-! ### An event ring's state -/

@[simp] theorem State.setEv_pending (f : Nat) (v : EvSt) : (s.setEv f v).pending = s.pending := rfl
@[simp] theorem State.setEv_tsc (f : Nat) (v : EvSt) : (s.setEv f v).tsc = s.tsc := rfl
@[simp] theorem State.setEv_free (f : Nat) (v : EvSt) : (s.setEv f v).free = s.free := rfl
@[simp] theorem State.setEv_regs (f : Nat) (v : EvSt) : (s.setEv f v).regs = s.regs := rfl
@[simp] theorem State.setEv_pend (f : Nat) (v : EvSt) : (s.setEv f v).pend = s.pend := rfl
@[simp] theorem State.setEv_pendMask (f : Nat) (v : EvSt) : (s.setEv f v).pendMask = s.pendMask := rfl
@[simp] theorem State.setEv_mem (f : Nat) (v : EvSt) : (s.setEv f v).mem = s.mem := rfl
@[simp] theorem State.setEv_ccs (f : Nat) (v : EvSt) : (s.setEv f v).ccs = s.ccs := rfl
@[simp] theorem State.setEv_engs (f : Nat) (v : EvSt) : (s.setEv f v).engs = s.engs := rfl
@[simp] theorem State.setEv_bdies (f : Nat) (v : EvSt) : (s.setEv f v).bdies = s.bdies := rfl
@[simp] theorem State.setEv_tiles (f : Nat) (v : EvSt) : (s.setEv f v).tiles = s.tiles := rfl
@[simp] theorem State.setEv_flight (f : Nat) (v : EvSt) : (s.setEv f v).flight = s.flight := rfl
@[simp] theorem State.setEv_recsOut (f : Nat) (v : EvSt) : (s.setEv f v).recsOut = s.recsOut := rfl
@[simp] theorem State.setEv_molt (f : Nat) (v : EvSt) : (s.setEv f v).molt = s.molt := rfl
@[simp] theorem State.setEv_rings (f : Nat) (v : EvSt) : (s.setEv f v).rings = s.rings := rfl
@[simp] theorem State.setEv_cuts (f : Nat) (v : EvSt) : (s.setEv f v).cuts = s.cuts := rfl
@[simp] theorem State.setEv_cutNo (f : Nat) (v : EvSt) : (s.setEv f v).cutNo = s.cutNo := rfl
@[simp] theorem State.setEv_host (f : Nat) (v : EvSt) : (s.setEv f v).host = s.host := rfl
@[simp] theorem State.setEv_pwr (f : Nat) (v : EvSt) : (s.setEv f v).pwr = s.pwr := rfl
@[simp] theorem State.setEv_therm (f : Nat) (v : EvSt) : (s.setEv f v).therm = s.therm := rfl
@[simp] theorem State.setEv_brup (f : Nat) (v : EvSt) : (s.setEv f v).brup = s.brup := rfl
@[simp] theorem State.setEv_sec (f : Nat) (v : EvSt) : (s.setEv f v).sec = s.sec := rfl
@[simp] theorem State.setEv_card (f : Nat) (v : EvSt) : (s.setEv f v).card = s.card := rfl
@[simp] theorem State.setEv_reports (f : Nat) (v : EvSt) : (s.setEv f v).reports = s.reports := rfl
@[simp] theorem State.setEv_out (f : Nat) (v : EvSt) : (s.setEv f v).out = s.out := rfl

/-! ### A tick -/

@[simp] theorem State.tick_pending : (s.tick ).pending = s.pending := rfl
@[simp] theorem State.tick_free : (s.tick ).free = s.free := rfl
@[simp] theorem State.tick_regs : (s.tick ).regs = s.regs := rfl
@[simp] theorem State.tick_pend : (s.tick ).pend = s.pend := rfl
@[simp] theorem State.tick_pendMask : (s.tick ).pendMask = s.pendMask := rfl
@[simp] theorem State.tick_mem : (s.tick ).mem = s.mem := rfl
@[simp] theorem State.tick_ccs : (s.tick ).ccs = s.ccs := rfl
@[simp] theorem State.tick_engs : (s.tick ).engs = s.engs := rfl
@[simp] theorem State.tick_bdies : (s.tick ).bdies = s.bdies := rfl
@[simp] theorem State.tick_tiles : (s.tick ).tiles = s.tiles := rfl
@[simp] theorem State.tick_flight : (s.tick ).flight = s.flight := rfl
@[simp] theorem State.tick_recsOut : (s.tick ).recsOut = s.recsOut := rfl
@[simp] theorem State.tick_molt : (s.tick ).molt = s.molt := rfl
@[simp] theorem State.tick_rings : (s.tick ).rings = s.rings := rfl
@[simp] theorem State.tick_evs : (s.tick ).evs = s.evs := rfl
@[simp] theorem State.tick_cuts : (s.tick ).cuts = s.cuts := rfl
@[simp] theorem State.tick_cutNo : (s.tick ).cutNo = s.cutNo := rfl
@[simp] theorem State.tick_host : (s.tick ).host = s.host := rfl
@[simp] theorem State.tick_pwr : (s.tick ).pwr = s.pwr := rfl
@[simp] theorem State.tick_therm : (s.tick ).therm = s.therm := rfl
@[simp] theorem State.tick_brup : (s.tick ).brup = s.brup := rfl
@[simp] theorem State.tick_sec : (s.tick ).sec = s.sec := rfl
@[simp] theorem State.tick_card : (s.tick ).card = s.card := rfl
@[simp] theorem State.tick_reports : (s.tick ).reports = s.reports := rfl
@[simp] theorem State.tick_out : (s.tick ).out = s.out := rfl

/-! ### Reading back -/

@[simp] theorem State.emit_reports (src code : Nat) (data : List Nat) : (s.emit src code data).reports = s.reports ++ [⟨src, code, data, s.tsc⟩] := rfl
@[simp] theorem State.send_out (o : Out) : (s.send o).out = s.out ++ [o] := rfl

@[simp] theorem State.setTile_tile (t : Nat) (v : Tile) : (s.setTile t v).tile t = v := look_put_same _ _ _ _
theorem State.setTile_tile_ne (t u : Nat) (v : Tile) (h : u ≠ t) : (s.setTile t v).tile u = s.tile u := look_put_ne _ _ _ _ _ h
@[simp] theorem State.modTile_tile (t : Nat) (f : Tile → Tile) : (s.modTile t f).tile t = f (s.tile t) := look_put_same _ _ _ _
theorem State.modTile_tile_ne (t u : Nat) (f : Tile → Tile) (h : u ≠ t) : (s.modTile t f).tile u = s.tile u := look_put_ne _ _ _ _ _ h
@[simp] theorem State.setCc_cc (c : Nat) (v : CcSt) : (s.setCc c v).cc c = v := look_put_same _ _ _ _
theorem State.setCc_cc_ne (c d : Nat) (v : CcSt) (h : d ≠ c) : (s.setCc c v).cc d = s.cc d := look_put_ne _ _ _ _ _ h
@[simp] theorem State.setEng_eng (b : Nat) (v : EngSt) : (s.setEng b v).eng b = v := look_put_same _ _ _ _
theorem State.setEng_eng_ne (b d : Nat) (v : EngSt) (h : d ≠ b) : (s.setEng b v).eng d = s.eng d := look_put_ne _ _ _ _ _ h
@[simp] theorem State.setBd_bd (k : Nat) (v : BdieSt) : (s.setBd k v).bd k = v := look_put_same _ _ _ _
theorem State.setBd_bd_ne (k d : Nat) (v : BdieSt) (h : d ≠ k) : (s.setBd k v).bd d = s.bd d := look_put_ne _ _ _ _ _ h
@[simp] theorem State.setRing_ring (n : Nat) (v : RingSt) : (s.setRing n v).ring n = v := look_put_same _ _ _ _
theorem State.setRing_ring_ne (n m : Nat) (v : RingSt) (h : m ≠ n) : (s.setRing n v).ring m = s.ring m := look_put_ne _ _ _ _ _ h
@[simp] theorem State.setEv_ev (f : Nat) (v : EvSt) : (s.setEv f v).ev f = v := look_put_same _ _ _ _
theorem State.setEv_ev_ne (f g : Nat) (v : EvSt) (h : g ≠ f) : (s.setEv f v).ev g = s.ev g := look_put_ne _ _ _ _ _ h
@[simp] theorem State.setWord_word (off v : Nat) : (s.setWord off v).word off = v % 2 ^ 64 := by
  simp [State.word, State.setWord]
theorem State.setWord_word_ne (off o v : Nat) (h : o ≠ off) : (s.setWord off v).word o = s.word o := by
  simp [State.word, State.setWord, look_put_ne _ _ _ _ _ h]
theorem State.setWord_regs (off v : Nat) : (s.setWord off v).regs = put regReset s.regs off (BitVec.ofNat 64 v) := rfl

/-- A word is less than 2^64. -/
theorem State.word_lt (off : Nat) : s.word off < 2 ^ 64 := (look regReset s.regs off).isLt

end Sys2Proof.Machine
end

