-- ==== Sys2Proof/Laws/Fields.lean ====
section
/-! SUPPORT. Bit fields and register fields: a field reads what was written to it, and every other field stays. -/

namespace Sys2Proof.Machine

theorem bitsOf_lt (n lo w : Nat) : bitsOf n lo w < 2 ^ w := Nat.mod_lt _ (Nat.two_pow_pos w)

theorem testBit_bitsOf (n lo w i : Nat) : (bitsOf n lo w).testBit i = (decide (i < w) && n.testBit (lo + i)) := by
  simp [bitsOf, Nat.testBit_mod_two_pow, Nat.testBit_div_two_pow, Nat.add_comm]

theorem bitsOf_mul_le (n lo w : Nat) : bitsOf n lo w * 2 ^ lo ≤ n := by
  unfold bitsOf
  calc n / 2 ^ lo % 2 ^ w * 2 ^ lo ≤ n / 2 ^ lo * 2 ^ lo := Nat.mul_le_mul_right _ (Nat.mod_le _ _)
    _ ≤ n := Nat.div_mul_le_self n (2 ^ lo)

/-- `setBits` as its three parts: the bits below, the field and the bits above. -/
theorem setBits_eq (n lo w v : Nat) :
    setBits n lo w v = n % 2 ^ lo + 2 ^ lo * (v % 2 ^ w + 2 ^ w * (n / 2 ^ (lo + w))) := by
  have h1 : n = n % 2 ^ lo + 2 ^ lo * (n / 2 ^ lo) := (Nat.mod_add_div n (2 ^ lo)).symm
  have h2 : n / 2 ^ lo = n / 2 ^ lo % 2 ^ w + 2 ^ w * (n / 2 ^ lo / 2 ^ w) := (Nat.mod_add_div _ _).symm
  have h3 : n / 2 ^ lo / 2 ^ w = n / 2 ^ (lo + w) := by rw [Nat.div_div_eq_div_mul, Nat.pow_add]
  unfold setBits bitsOf
  rw [h3] at h2
  generalize n / 2 ^ lo % 2 ^ w = m at *
  generalize n / 2 ^ (lo + w) = u at *
  generalize n % 2 ^ lo = r at *
  rw [h2] at h1
  generalize v % 2 ^ w = x
  have e1 : 2 ^ lo * (m + 2 ^ w * u) = m * 2 ^ lo + 2 ^ lo * (2 ^ w * u) := by ring
  have e2 : 2 ^ lo * (x + 2 ^ w * u) = x * 2 ^ lo + 2 ^ lo * (2 ^ w * u) := by ring
  rw [e1] at h1; rw [e2]
  omega

theorem testBit_setBits (n lo w v i : Nat) :
    (setBits n lo w v).testBit i = if lo ≤ i ∧ i < lo + w then v.testBit (i - lo) else n.testBit i := by
  have hr : n % 2 ^ lo < 2 ^ lo := Nat.mod_lt _ (Nat.two_pow_pos lo)
  have hx : v % 2 ^ w < 2 ^ w := Nat.mod_lt _ (Nat.two_pow_pos w)
  rw [setBits_eq, Nat.add_comm, Nat.testBit_two_pow_mul_add _ hr]
  split
  · rename_i h
    rw [Nat.testBit_mod_two_pow]
    simp [h]
  · rename_i h
    rw [Nat.add_comm (v % 2 ^ w), Nat.testBit_two_pow_mul_add _ hx]
    split
    · rename_i h2
      rw [Nat.testBit_mod_two_pow, if_pos (by omega)]; simp [h2]
    · rename_i h2
      rw [Nat.testBit_div_two_pow, if_neg (by omega)]
      congr 1; omega

theorem setBits_lt {n lo w v k : Nat} (hn : n < 2 ^ k) (h : lo + w ≤ k) : setBits n lo w v < 2 ^ k := by
  apply Nat.lt_pow_two_of_testBit
  intro i hi
  rw [testBit_setBits, if_neg (by omega)]
  exact Nat.testBit_lt_two_pow (Nat.lt_of_lt_of_le hn (Nat.pow_le_pow_right (by decide) hi))

theorem bitsOf_setBits_same (n lo w v : Nat) : bitsOf (setBits n lo w v) lo w = v % 2 ^ w := by
  apply Nat.eq_of_testBit_eq
  intro i
  rw [testBit_bitsOf, testBit_setBits, Nat.testBit_mod_two_pow]
  by_cases h : i < w <;> simp [h]

theorem bitsOf_setBits_other {n lo w v lo2 w2 : Nat} (h : lo2 + w2 ≤ lo ∨ lo + w ≤ lo2) :
    bitsOf (setBits n lo w v) lo2 w2 = bitsOf n lo2 w2 := by
  apply Nat.eq_of_testBit_eq
  intro i
  rw [testBit_bitsOf, testBit_bitsOf, testBit_setBits]
  by_cases hi : i < w2
  · rw [if_neg (by omega)]
  · simp [hi]

/-- A field reads what was written to it, cut to its width. -/
theorem State.rd_wr_same (s : State) (b : Nat) (f : Fld) (v : Nat) (h : f.lo + f.w ≤ 64) : (s.wr b f v).rd b f = v % 2 ^ f.w := by
  unfold State.rd State.wr
  rw [State.setWord_word, Nat.mod_eq_of_lt (setBits_lt (State.word_lt _ _) h), bitsOf_setBits_same]

@[simp] theorem State.wr_word (s : State) (b : Nat) (f : Fld) (v : Nat) :
    (s.wr b f v).word (b + f.off) = setBits (s.word (b + f.off)) f.lo f.w v % 2 ^ 64 := by
  unfold State.wr; rw [State.setWord_word]

theorem State.wr_word_ne (s : State) (b o : Nat) (f : Fld) (v : Nat) (h : o ≠ b + f.off) : (s.wr b f v).word o = s.word o := by
  unfold State.wr; exact State.setWord_word_ne _ _ _ _ h

/-- A field of another register, or a disjoint field of the same one, stays. -/
theorem State.rd_wr_other (s : State) (b c : Nat) (f g : Fld) (v : Nat) (hf : f.lo + f.w ≤ 64)
    (h : b + f.off = c + g.off → g.lo + g.w ≤ f.lo ∨ f.lo + f.w ≤ g.lo) : (s.wr b f v).rd c g = s.rd c g := by
  unfold State.rd
  by_cases e : c + g.off = b + f.off
  · rw [e, State.wr_word, Nat.mod_eq_of_lt (setBits_lt (State.word_lt _ _) hf), bitsOf_setBits_other (h e.symm)]
  · rw [State.wr_word_ne _ _ _ _ _ e]

/-- A field does not change when its word does not. -/
theorem State.rd_of_word {s t : State} {b : Nat} {f : Fld} (h : t.word (b + f.off) = s.word (b + f.off)) : t.rd b f = s.rd b f := by
  unfold State.rd; rw [h]

theorem bit_eq_testBit (n i : Nat) : bit n i = n.testBit i := by
  unfold bit; rw [Nat.testBit_eq_decide_div_mod_eq]

theorem wr_flag_same (s : State) (b : Nat) (f : Fld) (v : Nat) (h : f.lo + f.w ≤ 64) : (s.wr b f v).flag b f = decide (v % 2 ^ f.w = 1) := by
  unfold State.flag; rw [State.rd_wr_same _ _ _ _ h]

end Sys2Proof.Machine
end

