-- ==== Sys2Proof/Laws/Memory.lean ====
section
/-! SUPPORT. Every operation on device storage keeps its canonical form, and what a column read back is. -/

namespace Sys2Proof.Machine

/-- A store of bytes is in canonical form. -/
def Bytes.wf (b : Bytes) : Bool := canonical zeroByte b.bytes && canonical noMark b.poison

theorem Bytes.store_wf (b : Bytes) (u mask v : Nat) (h : b.wf = true) : (b.store u mask v).wf = true := by
  simp only [Bytes.wf, Bytes.store, Bool.and_eq_true] at h ⊢
  refine ⟨?_, h.2⟩
  refine upto_keeps (fun m => canonical zeroByte m = true) _ _ _ h.1 (fun i m hm => ?_)
  split
  · exact canonical_put _ _ _ _ hm
  · exact hm

theorem Bytes.mark_wf (b : Bytes) (u : Nat) (p : Bool) (h : b.wf = true) :
    ({ b with poison := put noMark b.poison u p } : Bytes).wf = true := by
  simp only [Bytes.wf, Bool.and_eq_true] at h ⊢
  exact ⟨h.1, canonical_put _ _ _ _ h.2⟩

theorem Bytes.spoil_wf (b : Bytes) (u : Nat) (h : b.wf = true) : (b.spoil u).wf = true :=
  Bytes.mark_wf _ u true (Bytes.store_wf b u _ 0 h)

theorem Bytes.write_wf (b : Bytes) (u mask : Nat) (v : Half) (h : b.wf = true) : (b.write u mask v).wf = true := by
  unfold Bytes.write
  split
  · exact h
  · split
    · exact Bytes.spoil_wf b u h
    · split
      · exact Bytes.mark_wf _ u false (Bytes.store_wf b u _ _ h)
      · split
        · exact h
        · exact Bytes.store_wf b u _ _ h

theorem Mem.wf_iff (m : Mem) : m.wf = true ↔ m.store.wf = true ∧ canonical noErr m.errs = true := by
  simp [Mem.wf, Bytes.wf, Mem.store]

theorem Mem.setErr_wf (m : Mem) (col n : Nat) (h : m.wf = true) : (m.setErr col n).wf = true := by
  rw [Mem.wf_iff] at h ⊢
  exact ⟨h.1, canonical_put _ _ _ _ h.2⟩

theorem Mem.setStore_wf (m : Mem) (b : Bytes) (h : m.wf = true) (hb : b.wf = true) : (m.setStore b).wf = true := by
  rw [Mem.wf_iff] at h ⊢
  exact ⟨hb, h.2⟩

theorem Mem.strike_wf (m : Mem) (k : Strike) (h : m.wf = true) : (m.strike k).wf = true := Mem.setErr_wf _ _ _ h

theorem Mem.writeCol_wf (m : Mem) (col : Nat) (v : Half) (h : m.wf = true) : (m.writeCol col v).wf = true :=
  Mem.setErr_wf _ _ _ (Mem.setStore_wf _ _ h (Bytes.write_wf _ _ _ _ ((Mem.wf_iff m).mp h).1))

theorem Mem.empty_wf : ({ bytes := [], poison := [], errs := [] } : Mem).wf = true := rfl

theorem State.setWord_regsWf (s : State) (off v : Nat) (h : s.regsWf = true) : (s.setWord off v).regsWf = true :=
  canonical_put _ _ _ _ h

/-! ### Reading a unit back -/

/-- What every step of a bounded loop keeps while its index is in range, the loop keeps. -/
theorem upto_keeps_lt {β : Type} (P : β → Prop) (n : Nat) (f : Nat → β → β) (x : β) (h : P x) (hf : ∀ i, i < n → ∀ y, P y → P (f i y)) :
    P (upto n f x) := by
  unfold upto
  have : ∀ l : List Nat, (∀ i ∈ l, i < n) → ∀ y, P y → P (l.foldl (fun a i => f i a) y) := by
    intro l
    induction l with
    | nil => exact fun _ _ hy => hy
    | cons i r ih => exact fun hl y hy => ih (fun j hj => hl j (by simp [hj])) _ (hf i (hl i (by simp)) y hy)
  exact this _ (fun i hi => by simpa using hi) x h

/-- A store leaves the bytes of other units alone. -/
theorem Bytes.store_look (b : Bytes) (u mask v a : Nat) (h : a / 32 ≠ u) :
    look zeroByte (b.store u mask v).bytes a = look zeroByte b.bytes a := by
  simp only [Bytes.store]
  refine upto_keeps_lt (fun m => look zeroByte m a = look zeroByte b.bytes a) 32 _ b.bytes rfl (fun i hi m hm => ?_)
  split
  · rw [look_put_ne _ _ _ _ _ (by omega)]; exact hm
  · exact hm

@[simp] theorem Bytes.store_poison (b : Bytes) (u mask v : Nat) : (b.store u mask v).poison = b.poison := by
  simp only [Bytes.store]
@[simp] theorem Bytes.spoil_bytes (b : Bytes) (u : Nat) : (b.spoil u).bytes = (b.store u (2 ^ 32 - 1) 0).bytes := by
  simp only [Bytes.spoil]
@[simp] theorem Bytes.spoil_poison (b : Bytes) (u : Nat) : (b.spoil u).poison = put noMark b.poison u true := by
  simp only [Bytes.spoil, Bytes.store_poison]

/-- A write leaves the bytes of other units alone. -/
theorem Bytes.write_look (b : Bytes) (u mask : Nat) (v : Half) (a : Nat) (h : a / 32 ≠ u) :
    look zeroByte (b.write u mask v).bytes a = look zeroByte b.bytes a := by
  have hs := fun m w => Bytes.store_look b u m w a h
  unfold Bytes.write
  by_cases h0 : mask % 2 ^ 32 = 0
  · rw [if_pos h0]
  · rw [if_neg h0]
    cases v with
    | none => simp only [Bytes.spoil_bytes, hs]
    | some x =>
      by_cases h1 : mask % 2 ^ 32 = 2 ^ 32 - 1
      · simp only [if_pos h1, hs]
      · simp only [if_neg h1]
        by_cases h2 : look noMark b.poison u = true
        · rw [if_pos h2]
        · rw [if_neg h2]; exact hs _ _

/-- A write leaves the poison marks of other units alone. -/
theorem Bytes.write_poison (b : Bytes) (u mask : Nat) (v : Half) (w : Nat) (h : w ≠ u) :
    look noMark (b.write u mask v).poison w = look noMark b.poison w := by
  have hp := fun (p : Bool) => look_put_ne noMark b.poison u w p h
  unfold Bytes.write
  by_cases h0 : mask % 2 ^ 32 = 0
  · rw [if_pos h0]
  · rw [if_neg h0]
    cases v with
    | none => simp only [Bytes.spoil_poison, hp]
    | some x =>
      by_cases h1 : mask % 2 ^ 32 = 2 ^ 32 - 1
      · simp only [if_pos h1, Bytes.store_poison, hp]
      · simp only [if_neg h1]
        by_cases h2 : look noMark b.poison u = true
        · rw [if_pos h2]
        · rw [if_neg h2, Bytes.store_poison]

/-- A write of column `col` leaves the bytes of every other column alone. -/
theorem Mem.writeCol_look (m : Mem) (col : Nat) (v : Half) (a : Nat) (h : a / 32 ≠ col) :
    look zeroByte (m.writeCol col v).bytes a = look zeroByte m.bytes a := Bytes.write_look m.store col _ v a h

theorem Mem.writeCol_poison (m : Mem) (col : Nat) (v : Half) (w : Nat) (h : w ≠ col) :
    look noMark (m.writeCol col v).poison w = look noMark m.poison w := Bytes.write_poison m.store col _ v w h

theorem Mem.writeCol_err (m : Mem) (col : Nat) (v : Half) (w : Nat) (h : w ≠ col) : (m.writeCol col v).err w = m.err w :=
  look_put_ne noErr m.errs col w 0 h

/-- Full-column writes leave valid check bits behind. -/
@[simp] theorem Mem.writeCol_err_same (m : Mem) (col : Nat) (v : Half) : (m.writeCol col v).err col = 0 :=
  look_put_same noErr m.errs col 0

end Sys2Proof.Machine
end

