-- ==== Sys2Proof/Laws/Kept.lean ====
section
/-! SUPPORT. What no operation touches or breaks: the queue of commands, and the canonical forms of device storage and registers. -/

namespace Sys2Proof.Machine

/-- From `s` to `t` the queue is the same, and the canonical forms hold if they held. -/
structure State.Kept (s t : State) : Prop where
  pending : t.pending = s.pending
  mem     : s.mem.wf = true → t.mem.wf = true
  regs    : s.regsWf = true → t.regsWf = true

theorem State.Kept.refl (s : State) : s.Kept s := ⟨rfl, id, id⟩

theorem State.Kept.trans {r s t : State} (h : r.Kept s) (g : s.Kept t) : r.Kept t :=
  ⟨g.pending.trans h.pending, fun x => g.mem (h.mem x), fun x => g.regs (h.regs x)⟩

/-- An update of other fields. -/
theorem State.Kept.same {r s t : State} (h : r.Kept s) (hp : t.pending = s.pending) (hm : t.mem = s.mem) (hr : t.regs = s.regs) : r.Kept t :=
  ⟨hp.trans h.pending, fun x => by rw [hm]; exact h.mem x, fun x => by unfold State.regsWf; rw [hr]; exact h.regs x⟩

/-- An update of device storage that keeps its form. -/
theorem State.Kept.storage {r s t : State} (h : r.Kept s) (hp : t.pending = s.pending) (hr : t.regs = s.regs)
    (hm : s.mem.wf = true → t.mem.wf = true) : r.Kept t :=
  ⟨hp.trans h.pending, fun x => hm (h.mem x), fun x => by unfold State.regsWf; rw [hr]; exact h.regs x⟩

/-- An update of other fields, as a record. -/
theorem State.Kept.lit {r s : State} (h : r.Kept s) {tsc : Nat} {free : Nat} {pend : SMap Word} {pendMask : SMap Word} {ccs : SMap CcSt} {engs : SMap EngSt} {bdies : SMap BdieSt} {tiles : SMap Tile} {flight : List (Nat × PassReq)} {recsOut : List (Nat × SRec)} {molt : MoltSt} {rings : SMap RingSt} {evs : SMap EvSt} {cuts : List Cut} {cutNo : Nat} {host : HostSt} {pwr : PwrSt} {therm : ThermSt} {brup : BrupSt} {sec : SecSt} {card : CardSt} {reports : List Report} {out : List Out} :
    r.Kept ⟨s.pending, tsc, free, s.regs, pend, pendMask, s.mem, ccs, engs, bdies, tiles, flight, recsOut, molt, rings, evs, cuts, cutNo, host, pwr, therm, brup, sec, card, reports, out⟩ := h.same rfl rfl rfl

/-- An update of device storage that keeps its form, as a record. -/
theorem State.Kept.litMem {r s : State} (h : r.Kept s) {tsc : Nat} {free : Nat} {pend : SMap Word} {pendMask : SMap Word} {mem : Mem} {ccs : SMap CcSt} {engs : SMap EngSt} {bdies : SMap BdieSt} {tiles : SMap Tile} {flight : List (Nat × PassReq)} {recsOut : List (Nat × SRec)} {molt : MoltSt} {rings : SMap RingSt} {evs : SMap EvSt} {cuts : List Cut} {cutNo : Nat} {host : HostSt} {pwr : PwrSt} {therm : ThermSt} {brup : BrupSt} {sec : SecSt} {card : CardSt} {reports : List Report} {out : List Out}
    (hm : s.mem.wf = true → mem.wf = true) :
    r.Kept ⟨s.pending, tsc, free, s.regs, pend, pendMask, mem, ccs, engs, bdies, tiles, flight, recsOut, molt, rings, evs, cuts, cutNo, host, pwr, therm, brup, sec, card, reports, out⟩ := h.storage rfl rfl hm

/-- A full-column write, with an update of other fields. -/
theorem State.Kept.col {r s : State} (h : r.Kept s) {col : Nat} {v : Half} {tsc : Nat} {free : Nat} {pend : SMap Word} {pendMask : SMap Word} {ccs : SMap CcSt} {engs : SMap EngSt} {bdies : SMap BdieSt} {tiles : SMap Tile} {flight : List (Nat × PassReq)} {recsOut : List (Nat × SRec)} {molt : MoltSt} {rings : SMap RingSt} {evs : SMap EvSt} {cuts : List Cut} {cutNo : Nat} {host : HostSt} {pwr : PwrSt} {therm : ThermSt} {brup : BrupSt} {sec : SecSt} {card : CardSt} {reports : List Report} {out : List Out} :
    r.Kept ⟨s.pending, tsc, free, s.regs, pend, pendMask, s.mem.writeCol col v, ccs, engs, bdies, tiles, flight, recsOut, molt, rings, evs, cuts, cutNo, host, pwr, therm, brup, sec, card, reports, out⟩ := h.storage rfl rfl (Mem.writeCol_wf s.mem col v)

/-- Device storage is lost and some registers fall back to their reset values. -/
theorem State.Kept.drop {r s : State} (h : r.Kept s) {f : Nat × Word → Bool} {tsc : Nat} {free : Nat} {pend : SMap Word} {pendMask : SMap Word} {ccs : SMap CcSt} {engs : SMap EngSt} {bdies : SMap BdieSt} {tiles : SMap Tile} {flight : List (Nat × PassReq)} {recsOut : List (Nat × SRec)} {molt : MoltSt} {rings : SMap RingSt} {evs : SMap EvSt} {cuts : List Cut} {cutNo : Nat} {host : HostSt} {pwr : PwrSt} {therm : ThermSt} {brup : BrupSt} {sec : SecSt} {card : CardSt} {reports : List Report} {out : List Out} :
    r.Kept ⟨s.pending, tsc, free, s.regs.filter f, pend, pendMask, ⟨[], [], []⟩, ccs, engs, bdies, tiles, flight, recsOut, molt, rings, evs, cuts, cutNo, host, pwr, therm, brup, sec, card, reports, out⟩ :=
  ⟨h.pending, fun _ => rfl, fun x => canonical_filter _ _ _ (h.regs x)⟩

/-- Device storage is lost and every register holds its reset value. -/
theorem State.Kept.wiped {r s t : State} (h : r.Kept s) (hp : t.pending = s.pending) (hm : t.mem = ⟨[], [], []⟩) (hr : t.regs = []) : r.Kept t :=
  ⟨hp.trans h.pending, fun _ => by rw [hm]; rfl, fun _ => by unfold State.regsWf; rw [hr]; rfl⟩

/-- Device storage is cleared. -/
theorem State.Kept.cleared {r s : State} (h : r.Kept s) {tsc : Nat} {free : Nat} {pend : SMap Word} {pendMask : SMap Word} {ccs : SMap CcSt} {engs : SMap EngSt} {bdies : SMap BdieSt} {tiles : SMap Tile} {flight : List (Nat × PassReq)} {recsOut : List (Nat × SRec)} {molt : MoltSt} {rings : SMap RingSt} {evs : SMap EvSt} {cuts : List Cut} {cutNo : Nat} {host : HostSt} {pwr : PwrSt} {therm : ThermSt} {brup : BrupSt} {sec : SecSt} {card : CardSt} {reports : List Report} {out : List Out} :
    r.Kept ⟨s.pending, tsc, free, s.regs, pend, pendMask, ⟨[], [], []⟩, ccs, engs, bdies, tiles, flight, recsOut, molt, rings, evs, cuts, cutNo, host, pwr, therm, brup, sec, card, reports, out⟩ :=
  ⟨h.pending, fun _ => rfl, h.regs⟩

/-- The management island starts. -/
theorem State.Kept.island {r s : State} (h : r.Kept s) {tsc : Nat} {free : Nat} {pend : SMap Word} {pendMask : SMap Word} {ccs : SMap CcSt} {engs : SMap EngSt} {bdies : SMap BdieSt} {tiles : SMap Tile} {flight : List (Nat × PassReq)} {recsOut : List (Nat × SRec)} {molt : MoltSt} {rings : SMap RingSt} {evs : SMap EvSt} {cuts : List Cut} {cutNo : Nat} {host : HostSt} {pwr : PwrSt} {therm : ThermSt} {brup : BrupSt} {sec : SecSt} {card : CardSt} {reports : List Report} {out : List Out} :
    r.Kept ⟨s.pending, tsc, free, State.reset.regs, pend, pendMask, State.reset.mem, ccs, engs, bdies, tiles, flight, recsOut, molt, rings, evs, cuts, cutNo, host, pwr, therm, brup, sec, card, reports, out⟩ :=
  ⟨h.pending, fun _ => rfl, fun _ => rfl⟩

theorem State.Kept.option {r s1 y : State} {o : Option State} {c : Prop} [Decidable c] (e : (if c then o else some y) = some s1)
    (ho : ∀ x, o = some x → r.Kept x) (hy : r.Kept y) : r.Kept s1 := by
  split at e
  · exact ho _ e
  · cases e
    exact hy

theorem State.Kept.ite {r a b : State} {c : Prop} [Decidable c] (ha : r.Kept a) (hb : r.Kept b) : r.Kept (if c then a else b) := by
  split
  · exact ha
  · exact hb

theorem State.Kept.ite2 {α : Type} {r : State} {a b : α × State} {c : Prop} [Decidable c] (ha : r.Kept a.2) (hb : r.Kept b.2) :
    r.Kept (if c then a else b).2 := by
  split
  · exact ha
  · exact hb

theorem State.Kept.ite22 {α β : Type} {r : State} {a b : α × β × State} {c : Prop} [Decidable c] (ha : r.Kept a.2.2) (hb : r.Kept b.2.2) :
    r.Kept (if c then a else b).2.2 := by
  split
  · exact ha
  · exact hb

theorem State.Kept.ite1 {α : Type} {r : State} {a b : State × α} {c : Prop} [Decidable c] (ha : r.Kept a.1) (hb : r.Kept b.1) :
    r.Kept (if c then a else b).1 := by
  split
  · exact ha
  · exact hb

theorem State.Kept.pair2 {α : Type} {r s1 : State} {x : α} {p q : α × State} {c : Prop} [Decidable c]
    (e : (if c then p else q) = (x, s1)) (hp : r.Kept p.2) (hq : r.Kept q.2) : r.Kept s1 := by
  have g := State.Kept.ite2 (c := c) hp hq
  rw [e] at g
  exact g

theorem State.Kept.pair22 {α β : Type} {r s1 : State} {x : α} {y : β} {p q : α × β × State} {c : Prop} [Decidable c]
    (e : (if c then p else q) = (x, y, s1)) (hp : r.Kept p.2.2) (hq : r.Kept q.2.2) : r.Kept s1 := by
  have g := State.Kept.ite22 (c := c) hp hq
  rw [e] at g
  exact g

theorem State.Kept.fold {α : Type} {r : State} (l : List α) (f : State → α → State) {s : State} (h : r.Kept s)
    (hf : ∀ y i, r.Kept y → r.Kept (f y i)) : r.Kept (l.foldl f s) := foldl_keeps r.Kept l f s h hf

theorem State.Kept.fold2 {α β : Type} {r : State} (l : List α) (f : β × State → α → β × State) {p : β × State} (h : r.Kept p.2)
    (hf : ∀ y i, r.Kept y.2 → r.Kept (f y i).2) : r.Kept (l.foldl f p).2 := foldl_keeps (fun y => r.Kept y.2) l f p h hf

theorem State.Kept.fold1 {α β : Type} {r : State} (l : List α) (f : State × β → α → State × β) {p : State × β} (h : r.Kept p.1)
    (hf : ∀ y i, r.Kept y.1 → r.Kept (f y i).1) : r.Kept (l.foldl f p).1 := foldl_keeps (fun y => r.Kept y.1) l f p h hf

theorem State.Kept.fold2' {α β : Type} {r s1 : State} {x : β} {l : List α} {f : β × State → α → β × State} {p : β × State}
    (e : l.foldl f p = (x, s1)) (h : r.Kept p.2) (hf : ∀ y i, r.Kept y.2 → r.Kept (f y i).2) : r.Kept s1 := by
  have g := State.Kept.fold2 l f h hf
  rw [e] at g
  exact g

theorem State.Kept.fold1' {α β : Type} {r s1 : State} {x : β} {l : List α} {f : State × β → α → State × β} {p : State × β}
    (e : l.foldl f p = (s1, x)) (h : r.Kept p.1) (hf : ∀ y i, r.Kept y.1 → r.Kept (f y i).1) : r.Kept s1 := by
  have g := State.Kept.fold1 l f h hf
  rw [e] at g
  exact g

theorem State.Kept.upto {r : State} (n : Nat) (f : Nat → State → State) {s : State} (h : r.Kept s)
    (hf : ∀ i y, r.Kept y → r.Kept (f i y)) : r.Kept (upto n f s) := upto_keeps r.Kept n f s h hf

end Sys2Proof.Machine
end

