-- ==== Sys2Proof/Laws/KeptCc.lean ====
section
/-! SUPPORT. The operations of channel controllers, bank engines and merge units keep the queue and the canonical forms. -/

set_option linter.unusedTactic false
set_option linter.unreachableTactic false

namespace Sys2Proof.Machine

theorem State.setWord_kept {r s : State} (h : r.Kept s) (off v : Nat) : r.Kept (s.setWord off v) :=
  h.trans ⟨rfl, id, State.setWord_regsWf s off v⟩

theorem State.wr_kept {r0 s : State} (h0 : r0.Kept s) (base : Nat) (f : Fld) (v : Nat) : r0.Kept (State.wr s base f v) := by
  unfold State.wr
  iterate 40 all_goals try first
    | with_reducible exact h0
    | with_reducible assumption
    | with_reducible refine State.Kept.ite ?_ ?_
    | with_reducible refine State.setWord_kept ?_ ..
    | with_reducible refine State.Kept.upto _ _ ?_ (fun _ _ _ => ?_)
    | with_reducible refine State.Kept.fold _ _ ?_ (fun _ _ _ => ?_)
    | with_reducible split
    | with_reducible refine State.Kept.col ?_
    | with_reducible refine State.Kept.lit ?_

theorem State.raise_kept {r0 s : State} (h0 : r0.Kept s) (base : Nat) (f : Fld) : r0.Kept (State.raise s base f) := by
  unfold State.raise
  iterate 40 all_goals try first
    | with_reducible exact h0
    | with_reducible assumption
    | with_reducible refine State.Kept.ite ?_ ?_
    | with_reducible refine State.wr_kept ?_ ..
    | with_reducible refine State.Kept.upto _ _ ?_ (fun _ _ _ => ?_)
    | with_reducible refine State.Kept.fold _ _ ?_ (fun _ _ _ => ?_)
    | with_reducible split
    | with_reducible refine State.Kept.col ?_
    | with_reducible refine State.Kept.lit ?_

theorem State.clear_kept {r0 s : State} (h0 : r0.Kept s) (base : Nat) (f : Fld) : r0.Kept (State.clear s base f) := by
  unfold State.clear
  iterate 40 all_goals try first
    | with_reducible exact h0
    | with_reducible assumption
    | with_reducible refine State.Kept.ite ?_ ?_
    | with_reducible refine State.wr_kept ?_ ..
    | with_reducible refine State.Kept.upto _ _ ?_ (fun _ _ _ => ?_)
    | with_reducible refine State.Kept.fold _ _ ?_ (fun _ _ _ => ?_)
    | with_reducible split
    | with_reducible refine State.Kept.col ?_
    | with_reducible refine State.Kept.lit ?_

theorem State.effect_kept {r0 s : State} (h0 : r0.Kept s) (base : Nat) (f : Fld) : r0.Kept (State.effect s base f) := by
  unfold State.effect
  iterate 40 all_goals try first
    | with_reducible exact h0
    | with_reducible assumption
    | with_reducible refine State.Kept.ite ?_ ?_
    | with_reducible refine State.wr_kept ?_ ..
    | with_reducible refine State.Kept.upto _ _ ?_ (fun _ _ _ => ?_)
    | with_reducible refine State.Kept.fold _ _ ?_ (fun _ _ _ => ?_)
    | with_reducible split
    | with_reducible refine State.Kept.col ?_
    | with_reducible refine State.Kept.lit ?_

theorem State.effects_kept {r0 s : State} (h0 : r0.Kept s) (base : Nat) (l : List Fld) : r0.Kept (State.effects s base l) := by
  unfold State.effects
  iterate 40 all_goals try first
    | with_reducible exact h0
    | with_reducible assumption
    | with_reducible refine State.Kept.ite ?_ ?_
    | with_reducible refine State.effect_kept ?_ ..
    | with_reducible refine State.Kept.upto _ _ ?_ (fun _ _ _ => ?_)
    | with_reducible refine State.Kept.fold _ _ ?_ (fun _ _ _ => ?_)
    | with_reducible refine State.Kept.fold2 _ _ ?_ (fun _ _ _ => ?_)
    | with_reducible refine State.Kept.fold1 _ _ ?_ (fun _ _ _ => ?_)
    | with_reducible refine State.Kept.fold2' (by assumption) ?_ (fun _ _ _ => ?_)
    | with_reducible refine State.Kept.fold1' (by assumption) ?_ (fun _ _ _ => ?_)
    | with_reducible split
    | with_reducible refine State.Kept.col ?_
    | with_reducible refine State.Kept.lit ?_

theorem State.emit_kept {r0 s : State} (h0 : r0.Kept s) (src : Nat) (code : Nat) (data : List Nat) : r0.Kept (State.emit s src code data) := by
  unfold State.emit
  iterate 40 all_goals try first
    | with_reducible exact h0
    | with_reducible assumption
    | with_reducible refine State.Kept.ite ?_ ?_
    | with_reducible refine State.Kept.upto _ _ ?_ (fun _ _ _ => ?_)
    | with_reducible refine State.Kept.fold _ _ ?_ (fun _ _ _ => ?_)
    | with_reducible split
    | with_reducible refine State.Kept.col ?_
    | with_reducible refine State.Kept.lit ?_

theorem State.send_kept {r0 s : State} (h0 : r0.Kept s) (o : Out) : r0.Kept (State.send s o) := by
  unfold State.send
  iterate 40 all_goals try first
    | with_reducible exact h0
    | with_reducible assumption
    | with_reducible refine State.Kept.ite ?_ ?_
    | with_reducible refine State.Kept.upto _ _ ?_ (fun _ _ _ => ?_)
    | with_reducible refine State.Kept.fold _ _ ?_ (fun _ _ _ => ?_)
    | with_reducible split
    | with_reducible refine State.Kept.col ?_
    | with_reducible refine State.Kept.lit ?_

theorem State.sat_kept {r0 s : State} (h0 : r0.Kept s) (base : Nat) (f : Fld) (n : Nat) : r0.Kept (State.sat s base f n) := by
  unfold State.sat
  iterate 40 all_goals try first
    | with_reducible exact h0
    | with_reducible assumption
    | with_reducible refine State.Kept.ite ?_ ?_
    | with_reducible refine State.wr_kept ?_ ..
    | with_reducible refine State.Kept.upto _ _ ?_ (fun _ _ _ => ?_)
    | with_reducible refine State.Kept.fold _ _ ?_ (fun _ _ _ => ?_)
    | with_reducible split
    | with_reducible refine State.Kept.col ?_
    | with_reducible refine State.Kept.lit ?_

theorem State.count_kept {r0 s : State} (h0 : r0.Kept s) (base : Nat) (f : Fld) (n : Nat) (src : Nat) (code : Nat) : r0.Kept (State.count s base f n src code) := by
  unfold State.count
  iterate 40 all_goals try first
    | with_reducible exact h0
    | with_reducible assumption
    | with_reducible refine State.Kept.ite ?_ ?_
    | with_reducible refine State.emit_kept ?_ ..
    | with_reducible refine State.wr_kept ?_ ..
    | with_reducible refine State.Kept.upto _ _ ?_ (fun _ _ _ => ?_)
    | with_reducible refine State.Kept.fold _ _ ?_ (fun _ _ _ => ?_)
    | with_reducible split
    | with_reducible refine State.Kept.col ?_
    | with_reducible refine State.Kept.lit ?_

theorem State.countT_kept {r0 s : State} (h0 : r0.Kept s) (t : Nat) (f : Fld) (n : Nat) : r0.Kept (State.countT s t f n) := by
  unfold State.countT
  iterate 40 all_goals try first
    | with_reducible exact h0
    | with_reducible assumption
    | with_reducible refine State.Kept.ite ?_ ?_
    | with_reducible refine State.count_kept ?_ ..
    | with_reducible refine State.Kept.upto _ _ ?_ (fun _ _ _ => ?_)
    | with_reducible refine State.Kept.fold _ _ ?_ (fun _ _ _ => ?_)
    | with_reducible split
    | with_reducible refine State.Kept.col ?_
    | with_reducible refine State.Kept.lit ?_

theorem State.countC_kept {r0 s : State} (h0 : r0.Kept s) (c : Nat) (f : Fld) (n : Nat) : r0.Kept (State.countC s c f n) := by
  unfold State.countC
  iterate 40 all_goals try first
    | with_reducible exact h0
    | with_reducible assumption
    | with_reducible refine State.Kept.ite ?_ ?_
    | with_reducible refine State.count_kept ?_ ..
    | with_reducible refine State.Kept.upto _ _ ?_ (fun _ _ _ => ?_)
    | with_reducible refine State.Kept.fold _ _ ?_ (fun _ _ _ => ?_)
    | with_reducible split
    | with_reducible refine State.Kept.col ?_
    | with_reducible refine State.Kept.lit ?_

theorem State.countB_kept {r0 s : State} (h0 : r0.Kept s) (k : Nat) (f : Fld) (n : Nat) : r0.Kept (State.countB s k f n) := by
  unfold State.countB
  iterate 40 all_goals try first
    | with_reducible exact h0
    | with_reducible assumption
    | with_reducible refine State.Kept.ite ?_ ?_
    | with_reducible refine State.count_kept ?_ ..
    | with_reducible refine State.Kept.upto _ _ ?_ (fun _ _ _ => ?_)
    | with_reducible refine State.Kept.fold _ _ ?_ (fun _ _ _ => ?_)
    | with_reducible split
    | with_reducible refine State.Kept.col ?_
    | with_reducible refine State.Kept.lit ?_

theorem State.countR_kept {r0 s : State} (h0 : r0.Kept s) (f : Fld) (n : Nat) (code : Nat) : r0.Kept (State.countR s f n code) := by
  unfold State.countR
  iterate 40 all_goals try first
    | with_reducible exact h0
    | with_reducible assumption
    | with_reducible refine State.Kept.ite ?_ ?_
    | with_reducible refine State.count_kept ?_ ..
    | with_reducible refine State.Kept.upto _ _ ?_ (fun _ _ _ => ?_)
    | with_reducible refine State.Kept.fold _ _ ?_ (fun _ _ _ => ?_)
    | with_reducible split
    | with_reducible refine State.Kept.col ?_
    | with_reducible refine State.Kept.lit ?_

theorem State.fresh_kept {r0 s : State} (h0 : r0.Kept s)  : r0.Kept (State.fresh s).2 := by
  unfold State.fresh
  iterate 40 all_goals try first
    | with_reducible exact h0
    | with_reducible assumption
    | with_reducible refine State.Kept.ite ?_ ?_
    | with_reducible refine State.Kept.ite2 ?_ ?_
    | with_reducible refine State.Kept.ite22 ?_ ?_
    | with_reducible refine State.Kept.ite1 ?_ ?_
    | with_reducible refine State.Kept.upto _ _ ?_ (fun _ _ _ => ?_)
    | with_reducible refine State.Kept.fold _ _ ?_ (fun _ _ _ => ?_)
    | with_reducible split
    | dsimp only
    | with_reducible refine State.Kept.col ?_
    | with_reducible refine State.Kept.lit ?_

theorem State.fresh_kept' {r0 s s1 : State}  {x0 : Nat} (e0 : State.fresh s = (x0, s1)) (h0 : r0.Kept s) : r0.Kept s1 := by
  have g0 := State.fresh_kept h0 
  rw [e0] at g0
  exact g0

theorem State.setCc_kept {r0 s : State} (h0 : r0.Kept s) (c : Nat) (v : CcSt) : r0.Kept (State.setCc s c v) := by
  unfold State.setCc
  iterate 40 all_goals try first
    | with_reducible exact h0
    | with_reducible assumption
    | with_reducible refine State.Kept.ite ?_ ?_
    | with_reducible refine State.Kept.upto _ _ ?_ (fun _ _ _ => ?_)
    | with_reducible refine State.Kept.fold _ _ ?_ (fun _ _ _ => ?_)
    | with_reducible split
    | with_reducible refine State.Kept.col ?_
    | with_reducible refine State.Kept.lit ?_

theorem State.setEng_kept {r0 s : State} (h0 : r0.Kept s) (b : Nat) (v : EngSt) : r0.Kept (State.setEng s b v) := by
  unfold State.setEng
  iterate 40 all_goals try first
    | with_reducible exact h0
    | with_reducible assumption
    | with_reducible refine State.Kept.ite ?_ ?_
    | with_reducible refine State.Kept.upto _ _ ?_ (fun _ _ _ => ?_)
    | with_reducible refine State.Kept.fold _ _ ?_ (fun _ _ _ => ?_)
    | with_reducible split
    | with_reducible refine State.Kept.col ?_
    | with_reducible refine State.Kept.lit ?_

theorem State.setBd_kept {r0 s : State} (h0 : r0.Kept s) (k : Nat) (v : BdieSt) : r0.Kept (State.setBd s k v) := by
  unfold State.setBd
  iterate 40 all_goals try first
    | with_reducible exact h0
    | with_reducible assumption
    | with_reducible refine State.Kept.ite ?_ ?_
    | with_reducible refine State.Kept.upto _ _ ?_ (fun _ _ _ => ?_)
    | with_reducible refine State.Kept.fold _ _ ?_ (fun _ _ _ => ?_)
    | with_reducible split
    | with_reducible refine State.Kept.col ?_
    | with_reducible refine State.Kept.lit ?_

theorem State.setTile_kept {r0 s : State} (h0 : r0.Kept s) (t : Nat) (v : Tile) : r0.Kept (State.setTile s t v) := by
  unfold State.setTile
  iterate 40 all_goals try first
    | with_reducible exact h0
    | with_reducible assumption
    | with_reducible refine State.Kept.ite ?_ ?_
    | with_reducible refine State.Kept.upto _ _ ?_ (fun _ _ _ => ?_)
    | with_reducible refine State.Kept.fold _ _ ?_ (fun _ _ _ => ?_)
    | with_reducible split
    | with_reducible refine State.Kept.col ?_
    | with_reducible refine State.Kept.lit ?_

theorem State.bankUse_kept {r0 s : State} (h0 : r0.Kept s) (t : Nat) (e : Nat) (cells : List Nat) : r0.Kept (State.bankUse s t e cells) := by
  unfold State.bankUse
  iterate 40 all_goals try first
    | with_reducible exact h0
    | with_reducible assumption
    | with_reducible refine State.Kept.ite ?_ ?_
    | with_reducible refine State.setTile_kept ?_ ..
    | with_reducible refine State.Kept.upto _ _ ?_ (fun _ _ _ => ?_)
    | with_reducible refine State.Kept.fold _ _ ?_ (fun _ _ _ => ?_)
    | with_reducible split
    | with_reducible refine State.Kept.col ?_
    | with_reducible refine State.Kept.lit ?_

theorem State.spWrite_kept {r0 s : State} (h0 : r0.Kept s) (t : Nat) (i : Nat) (w : WriteData) : r0.Kept (State.spWrite s t i w) := by
  unfold State.spWrite
  iterate 40 all_goals try first
    | with_reducible exact h0
    | with_reducible assumption
    | with_reducible refine State.Kept.ite ?_ ?_
    | with_reducible refine State.setTile_kept ?_ ..
    | with_reducible refine State.Kept.upto _ _ ?_ (fun _ _ _ => ?_)
    | with_reducible refine State.Kept.fold _ _ ?_ (fun _ _ _ => ?_)
    | with_reducible split
    | with_reducible refine State.Kept.col ?_
    | with_reducible refine State.Kept.lit ?_

theorem State.setFull_kept {r0 s : State} (h0 : r0.Kept s) (t : Nat) (i : Nat) (v : Bool) : r0.Kept (State.setFull s t i v) := by
  unfold State.setFull
  iterate 40 all_goals try first
    | with_reducible exact h0
    | with_reducible assumption
    | with_reducible refine State.Kept.ite ?_ ?_
    | with_reducible refine State.setTile_kept ?_ ..
    | with_reducible refine State.Kept.upto _ _ ?_ (fun _ _ _ => ?_)
    | with_reducible refine State.Kept.fold _ _ ?_ (fun _ _ _ => ?_)
    | with_reducible split
    | with_reducible refine State.Kept.col ?_
    | with_reducible refine State.Kept.lit ?_

theorem State.fill_kept {r0 s : State} (h0 : r0.Kept s) (t : Nat) (i : Nat) (writer : Nat) : r0.Kept (State.fill s t i writer) := by
  unfold State.fill
  iterate 40 all_goals try first
    | with_reducible exact h0
    | with_reducible assumption
    | with_reducible refine State.Kept.ite ?_ ?_
    | with_reducible refine State.emit_kept ?_ ..
    | with_reducible refine State.raise_kept ?_ ..
    | with_reducible refine State.setFull_kept ?_ ..
    | with_reducible refine State.wr_kept ?_ ..
    | with_reducible refine State.Kept.upto _ _ ?_ (fun _ _ _ => ?_)
    | with_reducible refine State.Kept.fold _ _ ?_ (fun _ _ _ => ?_)
    | with_reducible split
    | with_reducible refine State.Kept.col ?_
    | with_reducible refine State.Kept.lit ?_

theorem State.spFill_kept {r0 s : State} (h0 : r0.Kept s) (t : Nat) (i : Nat) (writer : Nat) (w : WriteData) : r0.Kept (State.spFill s t i writer w) := by
  unfold State.spFill
  iterate 40 all_goals try first
    | with_reducible exact h0
    | with_reducible assumption
    | with_reducible refine State.Kept.ite ?_ ?_
    | with_reducible refine State.fill_kept ?_ ..
    | with_reducible refine State.spWrite_kept ?_ ..
    | with_reducible refine State.Kept.upto _ _ ?_ (fun _ _ _ => ?_)
    | with_reducible refine State.Kept.fold _ _ ?_ (fun _ _ _ => ?_)
    | with_reducible split
    | with_reducible refine State.Kept.col ?_
    | with_reducible refine State.Kept.lit ?_

theorem State.nocError_kept {r0 s : State} (h0 : r0.Kept s) (t : Nat) (src : Nat) (entry : Nat) (plane : Nat) (write : Bool) : r0.Kept (State.nocError s t src entry plane write) := by
  unfold State.nocError
  iterate 40 all_goals try first
    | with_reducible exact h0
    | with_reducible assumption
    | with_reducible refine State.Kept.ite ?_ ?_
    | with_reducible refine State.emit_kept ?_ ..
    | with_reducible refine State.Kept.upto _ _ ?_ (fun _ _ _ => ?_)
    | with_reducible refine State.Kept.fold _ _ ?_ (fun _ _ _ => ?_)
    | with_reducible split
    | with_reducible refine State.Kept.col ?_
    | with_reducible refine State.Kept.lit ?_

theorem State.tileNocErr_kept {r0 s : State} (h0 : r0.Kept s) (t : Nat) (eng : Nat) (dest : Nat) (plane : Nat) : r0.Kept (State.tileNocErr s t eng dest plane) := by
  unfold State.tileNocErr
  iterate 40 all_goals try first
    | with_reducible exact h0
    | with_reducible assumption
    | with_reducible refine State.Kept.ite ?_ ?_
    | with_reducible refine State.raise_kept ?_ ..
    | with_reducible refine State.wr_kept ?_ ..
    | with_reducible refine State.Kept.upto _ _ ?_ (fun _ _ _ => ?_)
    | with_reducible refine State.Kept.fold _ _ ?_ (fun _ _ _ => ?_)
    | with_reducible split
    | with_reducible refine State.Kept.col ?_
    | with_reducible refine State.Kept.lit ?_

theorem State.requestMolt_kept {r0 s : State} (h0 : r0.Kept s) (c : Nat) (cause : Nat) : r0.Kept (State.requestMolt s c cause) := by
  unfold State.requestMolt
  iterate 40 all_goals try first
    | with_reducible exact h0
    | with_reducible assumption
    | with_reducible refine State.Kept.ite ?_ ?_
    | with_reducible refine State.raise_kept ?_ ..
    | with_reducible refine State.Kept.upto _ _ ?_ (fun _ _ _ => ?_)
    | with_reducible refine State.Kept.fold _ _ ?_ (fun _ _ _ => ?_)
    | with_reducible split
    | with_reducible refine State.Kept.col ?_
    | with_reducible refine State.Kept.lit ?_

theorem State.chanError_kept {r0 s : State} (h0 : r0.Kept s) (c : Nat) (weight : Nat) : r0.Kept (State.chanError s c weight) := by
  unfold State.chanError
  iterate 40 all_goals try first
    | with_reducible exact h0
    | with_reducible assumption
    | with_reducible refine State.Kept.ite ?_ ?_
    | with_reducible refine State.emit_kept ?_ ..
    | with_reducible refine State.raise_kept ?_ ..
    | with_reducible refine State.requestMolt_kept ?_ ..
    | with_reducible refine State.setCc_kept ?_ ..
    | with_reducible refine State.wr_kept ?_ ..
    | with_reducible refine State.Kept.upto _ _ ?_ (fun _ _ _ => ?_)
    | with_reducible refine State.Kept.fold _ _ ?_ (fun _ _ _ => ?_)
    | with_reducible split
    | with_reducible refine State.Kept.col ?_
    | with_reducible refine State.Kept.lit ?_

theorem State.strike_kept {r s : State} (h : r.Kept s) (c : Nat) (l : List Strike) : r.Kept (s.strike c l) := by
  refine h.litMem (fun hm => foldl_keeps (fun (m : Mem) => m.wf = true) l _ _ hm (fun m k hk => ?_))
  split
  · exact Mem.strike_wf m k hk
  · exact hk

theorem State.check_kept {r0 s : State} (h0 : r0.Kept s) (col : Nat) : r0.Kept (State.check s col).2 := by
  unfold State.check
  iterate 40 all_goals try first
    | with_reducible exact h0
    | with_reducible assumption
    | with_reducible refine State.fresh_kept' (by assumption) ?_
    | with_reducible refine State.Kept.ite ?_ ?_
    | with_reducible refine State.Kept.ite2 ?_ ?_
    | with_reducible refine State.Kept.ite22 ?_ ?_
    | with_reducible refine State.Kept.ite1 ?_ ?_
    | with_reducible refine State.fresh_kept ?_ ..
    | with_reducible refine State.uncorrectable_kept ?_ ..
    | with_reducible refine State.Kept.upto _ _ ?_ (fun _ _ _ => ?_)
    | with_reducible refine State.Kept.fold _ _ ?_ (fun _ _ _ => ?_)
    | with_reducible refine State.Kept.pair2 (by assumption) ?_ ?_
    | with_reducible refine State.Kept.pair22 (by assumption) ?_ ?_
    | with_reducible split
    | dsimp only
    | with_reducible refine State.Kept.col ?_
    | with_reducible refine State.Kept.lit ?_

theorem State.check_kept' {r0 s s1 : State} {col : Nat} {x0 : Seen} (e0 : State.check s col = (x0, s1)) (h0 : r0.Kept s) : r0.Kept s1 := by
  have g0 := State.check_kept h0 col
  rw [e0] at g0
  exact g0

theorem State.colEvent_kept {r0 s : State} (h0 : r0.Kept s) (c : Nat) (code : Nat) (col : Nat) (reader : Nat) : r0.Kept (State.colEvent s c code col reader) := by
  unfold State.colEvent
  iterate 40 all_goals try first
    | with_reducible exact h0
    | with_reducible assumption
    | with_reducible refine State.Kept.ite ?_ ?_
    | with_reducible refine State.emit_kept ?_ ..
    | with_reducible refine State.Kept.upto _ _ ?_ (fun _ _ _ => ?_)
    | with_reducible refine State.Kept.fold _ _ ?_ (fun _ _ _ => ?_)
    | with_reducible split
    | with_reducible refine State.Kept.col ?_
    | with_reducible refine State.Kept.lit ?_

theorem State.uncorrectable_kept {r0 s : State} (h0 : r0.Kept s) (c : Nat) (col : Nat) (reader : Nat) : r0.Kept (State.uncorrectable s c col reader) := by
  unfold State.uncorrectable
  iterate 40 all_goals try first
    | with_reducible exact h0
    | with_reducible assumption
    | with_reducible refine State.Kept.ite ?_ ?_
    | with_reducible refine State.chanError_kept ?_ ..
    | with_reducible refine State.colEvent_kept ?_ ..
    | with_reducible refine State.raise_kept ?_ ..
    | with_reducible refine State.sat_kept ?_ ..
    | with_reducible refine State.wr_kept ?_ ..
    | with_reducible refine State.Kept.upto _ _ ?_ (fun _ _ _ => ?_)
    | with_reducible refine State.Kept.fold _ _ ?_ (fun _ _ _ => ?_)
    | with_reducible split
    | with_reducible refine State.Kept.col ?_
    | with_reducible refine State.Kept.lit ?_

theorem State.correctedErr_kept {r0 s : State} (h0 : r0.Kept s) (c : Nat) (col : Nat) (reader : Nat) : r0.Kept (State.correctedErr s c col reader) := by
  unfold State.correctedErr
  iterate 40 all_goals try first
    | with_reducible exact h0
    | with_reducible assumption
    | with_reducible refine State.Kept.ite ?_ ?_
    | with_reducible refine State.chanError_kept ?_ ..
    | with_reducible refine State.colEvent_kept ?_ ..
    | with_reducible refine State.sat_kept ?_ ..
    | with_reducible refine State.Kept.upto _ _ ?_ (fun _ _ _ => ?_)
    | with_reducible refine State.Kept.fold _ _ ?_ (fun _ _ _ => ?_)
    | with_reducible split
    | with_reducible refine State.Kept.col ?_
    | with_reducible refine State.Kept.lit ?_

theorem State.readCol_kept {r0 s : State} (h0 : r0.Kept s) (c : Nat) (col : Nat) (reader : Nat) : r0.Kept (State.readCol s c col reader).2.2 := by
  unfold State.readCol
  iterate 40 all_goals try first
    | with_reducible exact h0
    | with_reducible assumption
    | with_reducible refine State.check_kept' (by assumption) ?_
    | with_reducible refine State.Kept.ite ?_ ?_
    | with_reducible refine State.Kept.ite2 ?_ ?_
    | with_reducible refine State.Kept.ite22 ?_ ?_
    | with_reducible refine State.Kept.ite1 ?_ ?_
    | with_reducible refine State.check_kept ?_ ..
    | with_reducible refine State.correctedErr_kept ?_ ..
    | with_reducible refine State.uncorrectable_kept ?_ ..
    | with_reducible refine State.Kept.upto _ _ ?_ (fun _ _ _ => ?_)
    | with_reducible refine State.Kept.fold _ _ ?_ (fun _ _ _ => ?_)
    | with_reducible split
    | dsimp only
    | with_reducible refine State.Kept.col ?_
    | with_reducible refine State.Kept.lit ?_

theorem State.readCol_kept' {r0 s s1 : State} {c : Nat} {col : Nat} {reader : Nat} {x0 : Half} {x1 : Bool} (e0 : State.readCol s c col reader = (x0, x1, s1)) (h0 : r0.Kept s) : r0.Kept s1 := by
  have g0 := State.readCol_kept h0 c col reader
  rw [e0] at g0
  exact g0

theorem State.writePart_kept {r0 s : State} (h0 : r0.Kept s) (c : Nat) (col : Nat) (mask : Nat) (v : Half) : r0.Kept (State.writePart s c col mask v) := by
  unfold State.writePart
  iterate 40 all_goals try first
    | with_reducible exact h0
    | with_reducible assumption
    | with_reducible refine State.readCol_kept' (by assumption) ?_
    | with_reducible refine State.Kept.ite ?_ ?_
    | with_reducible refine State.readCol_kept ?_ ..
    | with_reducible refine State.Kept.upto _ _ ?_ (fun _ _ _ => ?_)
    | with_reducible refine State.Kept.fold _ _ ?_ (fun _ _ _ => ?_)
    | with_reducible refine State.Kept.pair2 (by assumption) ?_ ?_
    | with_reducible refine State.Kept.pair22 (by assumption) ?_ ?_
    | with_reducible split
    | with_reducible refine State.Kept.col ?_
    | with_reducible refine State.Kept.lit ?_

theorem State.activate_kept {r0 s : State} (h0 : r0.Kept s) (c : Nat) (bank : Nat) (row : Nat) : r0.Kept (State.activate s c bank row) := by
  unfold State.activate
  iterate 40 all_goals try first
    | with_reducible exact h0
    | with_reducible assumption
    | with_reducible refine State.Kept.ite ?_ ?_
    | with_reducible refine State.count_kept ?_ ..
    | with_reducible refine State.emit_kept ?_ ..
    | with_reducible refine State.raise_kept ?_ ..
    | with_reducible refine State.setCc_kept ?_ ..
    | with_reducible refine State.Kept.upto _ _ ?_ (fun _ _ _ => ?_)
    | with_reducible refine State.Kept.fold _ _ ?_ (fun _ _ _ => ?_)
    | with_reducible refine State.Kept.pair2 (by assumption) ?_ ?_
    | with_reducible refine State.Kept.pair22 (by assumption) ?_ ?_
    | with_reducible split
    | with_reducible refine State.Kept.col ?_
    | with_reducible refine State.Kept.lit ?_

theorem State.flags_kept {r0 s : State} (h0 : r0.Kept s) (base : Nat) (inv : Fld) (ovf : Fld) (pois : Fld) (i : Bool) (o : Bool) (p : Bool) : r0.Kept (State.flags s base inv ovf pois i o p) := by
  unfold State.flags
  iterate 40 all_goals try first
    | with_reducible exact h0
    | with_reducible assumption
    | with_reducible refine State.Kept.ite ?_ ?_
    | with_reducible refine State.raise_kept ?_ ..
    | with_reducible refine State.Kept.upto _ _ ?_ (fun _ _ _ => ?_)
    | with_reducible refine State.Kept.fold _ _ ?_ (fun _ _ _ => ?_)
    | with_reducible split
    | with_reducible refine State.Kept.col ?_
    | with_reducible refine State.Kept.lit ?_

theorem State.mxeFlags_kept {r0 s : State} (h0 : r0.Kept s) (t : Nat) (i : Bool) (o : Bool) (p : Bool) : r0.Kept (State.mxeFlags s t i o p) := by
  unfold State.mxeFlags
  iterate 40 all_goals try first
    | with_reducible exact h0
    | with_reducible assumption
    | with_reducible refine State.Kept.ite ?_ ?_
    | with_reducible refine State.flags_kept ?_ ..
    | with_reducible refine State.Kept.upto _ _ ?_ (fun _ _ _ => ?_)
    | with_reducible refine State.Kept.fold _ _ ?_ (fun _ _ _ => ?_)
    | with_reducible split
    | with_reducible refine State.Kept.col ?_
    | with_reducible refine State.Kept.lit ?_

theorem State.note_kept {r0 s : State} (h0 : r0.Kept s) (c : Nat) (g : Nat) (p : Nat) (n : Note) : r0.Kept (State.note s c g p n) := by
  unfold State.note
  iterate 40 all_goals try first
    | with_reducible exact h0
    | with_reducible assumption
    | with_reducible refine State.Kept.ite ?_ ?_
    | with_reducible refine State.emit_kept ?_ ..
    | with_reducible refine State.raise_kept ?_ ..
    | with_reducible refine State.setEng_kept ?_ ..
    | with_reducible refine State.Kept.upto _ _ ?_ (fun _ _ _ => ?_)
    | with_reducible refine State.Kept.fold _ _ ?_ (fun _ _ _ => ?_)
    | with_reducible refine State.Kept.fold2 _ _ ?_ (fun _ _ _ => ?_)
    | with_reducible refine State.Kept.fold1 _ _ ?_ (fun _ _ _ => ?_)
    | with_reducible refine State.Kept.fold2' (by assumption) ?_ (fun _ _ _ => ?_)
    | with_reducible refine State.Kept.fold1' (by assumption) ?_ (fun _ _ _ => ?_)
    | with_reducible split
    | with_reducible refine State.Kept.col ?_
    | with_reducible refine State.Kept.lit ?_

theorem State.trace_kept {r0 s : State} (h0 : r0.Kept s) (c : Nat) (tag : Option Nat) (row : Nat) (col : Nat) : r0.Kept (State.trace s c tag row col) := by
  unfold State.trace
  iterate 40 all_goals try first
    | with_reducible exact h0
    | with_reducible assumption
    | with_reducible refine State.Kept.ite ?_ ?_
    | with_reducible refine State.countC_kept ?_ ..
    | with_reducible refine State.nocError_kept ?_ ..
    | with_reducible refine State.raise_kept ?_ ..
    | with_reducible refine State.spWrite_kept ?_ ..
    | with_reducible refine State.wr_kept ?_ ..
    | with_reducible refine State.Kept.upto _ _ ?_ (fun _ _ _ => ?_)
    | with_reducible refine State.Kept.fold _ _ ?_ (fun _ _ _ => ?_)
    | with_reducible split
    | with_reducible refine State.Kept.col ?_
    | with_reducible refine State.Kept.lit ?_

theorem State.bankCmd_kept {r0 s : State} (h0 : r0.Kept s) (c : Nat) (tag : Option Nat) (row : Nat) (col : Nat) : r0.Kept (State.bankCmd s c tag row col) := by
  unfold State.bankCmd
  iterate 40 all_goals try first
    | with_reducible exact h0
    | with_reducible assumption
    | with_reducible refine State.Kept.ite ?_ ?_
    | with_reducible refine State.setCc_kept ?_ ..
    | with_reducible refine State.trace_kept ?_ ..
    | with_reducible refine State.Kept.upto _ _ ?_ (fun _ _ _ => ?_)
    | with_reducible refine State.Kept.fold _ _ ?_ (fun _ _ _ => ?_)
    | with_reducible split
    | with_reducible refine State.Kept.col ?_
    | with_reducible refine State.Kept.lit ?_

theorem State.closeRow_kept {r0 s : State} (h0 : r0.Kept s) (c : Nat) (bank : Nat) : r0.Kept (State.closeRow s c bank) := by
  unfold State.closeRow
  iterate 40 all_goals try first
    | with_reducible exact h0
    | with_reducible assumption
    | with_reducible refine State.Kept.ite ?_ ?_
    | with_reducible refine State.setCc_kept ?_ ..
    | with_reducible refine State.trace_kept ?_ ..
    | with_reducible refine State.Kept.upto _ _ ?_ (fun _ _ _ => ?_)
    | with_reducible refine State.Kept.fold _ _ ?_ (fun _ _ _ => ?_)
    | with_reducible split
    | with_reducible refine State.Kept.col ?_
    | with_reducible refine State.Kept.lit ?_

theorem State.openFor_kept {r0 s : State} (h0 : r0.Kept s) (c : Nat) (bank : Nat) (row : Nat) : r0.Kept (State.openFor s c bank row) := by
  unfold State.openFor
  iterate 40 all_goals try first
    | with_reducible exact h0
    | with_reducible assumption
    | with_reducible refine State.Kept.ite ?_ ?_
    | with_reducible refine State.activate_kept ?_ ..
    | with_reducible refine State.closeRow_kept ?_ ..
    | with_reducible refine State.setCc_kept ?_ ..
    | with_reducible refine State.trace_kept ?_ ..
    | with_reducible refine State.Kept.upto _ _ ?_ (fun _ _ _ => ?_)
    | with_reducible refine State.Kept.fold _ _ ?_ (fun _ _ _ => ?_)
    | with_reducible split
    | with_reducible refine State.Kept.col ?_
    | with_reducible refine State.Kept.lit ?_

theorem State.pdx_kept {r0 s : State} (h0 : r0.Kept s) (c : Nat) (mask : Nat) : r0.Kept (State.pdx s c mask) := by
  unfold State.pdx
  iterate 40 all_goals try first
    | with_reducible exact h0
    | with_reducible assumption
    | with_reducible refine State.Kept.ite ?_ ?_
    | with_reducible refine State.trace_kept ?_ ..
    | with_reducible refine State.wr_kept ?_ ..
    | with_reducible refine State.Kept.upto _ _ ?_ (fun _ _ _ => ?_)
    | with_reducible refine State.Kept.fold _ _ ?_ (fun _ _ _ => ?_)
    | with_reducible split
    | with_reducible refine State.Kept.col ?_
    | with_reducible refine State.Kept.lit ?_

theorem State.retiredAccess_kept {r0 s : State} (h0 : r0.Kept s) (c : Nat) (port : Nat) (write : Bool) : r0.Kept (State.retiredAccess s c port write) := by
  unfold State.retiredAccess
  iterate 40 all_goals try first
    | with_reducible exact h0
    | with_reducible assumption
    | with_reducible refine State.Kept.ite ?_ ?_
    | with_reducible refine State.countR_kept ?_ ..
    | with_reducible refine State.emit_kept ?_ ..
    | with_reducible refine State.Kept.upto _ _ ?_ (fun _ _ _ => ?_)
    | with_reducible refine State.Kept.fold _ _ ?_ (fun _ _ _ => ?_)
    | with_reducible split
    | with_reducible refine State.Kept.col ?_
    | with_reducible refine State.Kept.lit ?_

theorem State.unmappedEvent_kept {r0 s : State} (h0 : r0.Kept s) (src : Nat) (a : Nat) (port : Nat) : r0.Kept (State.unmappedEvent s src a port) := by
  unfold State.unmappedEvent
  iterate 40 all_goals try first
    | with_reducible exact h0
    | with_reducible assumption
    | with_reducible refine State.Kept.ite ?_ ?_
    | with_reducible refine State.emit_kept ?_ ..
    | with_reducible refine State.Kept.upto _ _ ?_ (fun _ _ _ => ?_)
    | with_reducible refine State.Kept.fold _ _ ?_ (fun _ _ _ => ?_)
    | with_reducible split
    | with_reducible refine State.Kept.col ?_
    | with_reducible refine State.Kept.lit ?_

theorem State.resolve_kept {r0 s : State} (h0 : r0.Kept s) (who : Requester) (a : Nat) : r0.Kept (State.resolve s who a).2 := by
  unfold State.resolve
  iterate 40 all_goals try first
    | with_reducible exact h0
    | with_reducible assumption
    | with_reducible refine State.Kept.ite ?_ ?_
    | with_reducible refine State.Kept.ite2 ?_ ?_
    | with_reducible refine State.Kept.ite22 ?_ ?_
    | with_reducible refine State.Kept.ite1 ?_ ?_
    | with_reducible refine State.emit_kept ?_ ..
    | with_reducible refine State.raise_kept ?_ ..
    | with_reducible refine State.unmappedEvent_kept ?_ ..
    | with_reducible refine State.Kept.upto _ _ ?_ (fun _ _ _ => ?_)
    | with_reducible refine State.Kept.fold _ _ ?_ (fun _ _ _ => ?_)
    | with_reducible split
    | dsimp only
    | with_reducible refine State.Kept.col ?_
    | with_reducible refine State.Kept.lit ?_

theorem State.resolve_kept' {r0 s s1 : State} {who : Requester} {a : Nat} {x0 : Option Nat} (e0 : State.resolve s who a = (x0, s1)) (h0 : r0.Kept s) : r0.Kept s1 := by
  have g0 := State.resolve_kept h0 who a
  rw [e0] at g0
  exact g0

theorem State.accept_kept {r0 s : State} (h0 : r0.Kept s) (who : Requester) (key : Nat) (w : Option WriteData) (ans : Answer) : r0.Kept (State.accept s who key w ans) := by
  unfold State.accept
  iterate 40 all_goals try first
    | with_reducible exact h0
    | with_reducible assumption
    | with_reducible refine State.Kept.ite ?_ ?_
    | with_reducible refine State.pdx_kept ?_ ..
    | with_reducible refine State.setCc_kept ?_ ..
    | with_reducible refine State.Kept.upto _ _ ?_ (fun _ _ _ => ?_)
    | with_reducible refine State.Kept.fold _ _ ?_ (fun _ _ _ => ?_)
    | with_reducible split
    | with_reducible refine State.Kept.col ?_
    | with_reducible refine State.Kept.lit ?_

theorem State.answerBad_kept {r0 s : State} (h0 : r0.Kept s) (who : Requester) (key : Nat) (write : Bool) : r0.Kept (State.answerBad s who key write) := by
  unfold State.answerBad
  iterate 40 all_goals try first
    | with_reducible exact h0
    | with_reducible assumption
    | with_reducible refine State.Kept.ite ?_ ?_
    | with_reducible refine State.send_kept ?_ ..
    | with_reducible refine State.Kept.upto _ _ ?_ (fun _ _ _ => ?_)
    | with_reducible refine State.Kept.fold _ _ ?_ (fun _ _ _ => ?_)
    | with_reducible split
    | with_reducible refine State.Kept.col ?_
    | with_reducible refine State.Kept.lit ?_

theorem State.queueWriteBack_kept {r0 s : State} (h0 : r0.Kept s) (c : Nat) (col : Nat) (d : BitVec 256) : r0.Kept (State.queueWriteBack s c col d) := by
  unfold State.queueWriteBack
  iterate 40 all_goals try first
    | with_reducible exact h0
    | with_reducible assumption
    | with_reducible refine State.Kept.ite ?_ ?_
    | with_reducible refine State.setCc_kept ?_ ..
    | with_reducible refine State.Kept.upto _ _ ?_ (fun _ _ _ => ?_)
    | with_reducible refine State.Kept.fold _ _ ?_ (fun _ _ _ => ?_)
    | with_reducible split
    | with_reducible refine State.Kept.col ?_
    | with_reducible refine State.Kept.lit ?_

theorem State.normalRead_kept {r0 s : State} (h0 : r0.Kept s) (c : Nat) (col : Nat) (reader : Nat) : r0.Kept (State.normalRead s c col reader).2 := by
  unfold State.normalRead
  iterate 40 all_goals try first
    | with_reducible exact h0
    | with_reducible assumption
    | with_reducible refine State.readCol_kept' (by assumption) ?_
    | with_reducible refine State.Kept.ite ?_ ?_
    | with_reducible refine State.Kept.ite2 ?_ ?_
    | with_reducible refine State.Kept.ite22 ?_ ?_
    | with_reducible refine State.Kept.ite1 ?_ ?_
    | with_reducible refine State.queueWriteBack_kept ?_ ..
    | with_reducible refine State.readCol_kept ?_ ..
    | with_reducible refine State.Kept.upto _ _ ?_ (fun _ _ _ => ?_)
    | with_reducible refine State.Kept.fold _ _ ?_ (fun _ _ _ => ?_)
    | with_reducible split
    | dsimp only
    | with_reducible refine State.Kept.col ?_
    | with_reducible refine State.Kept.lit ?_

theorem State.normalRead_kept' {r0 s s1 : State} {c : Nat} {col : Nat} {reader : Nat} {x0 : Half} (e0 : State.normalRead s c col reader = (x0, s1)) (h0 : r0.Kept s) : r0.Kept s1 := by
  have g0 := State.normalRead_kept h0 c col reader
  rw [e0] at g0
  exact g0

theorem State.read64_kept {r0 s : State} (h0 : r0.Kept s) (key : Nat) (reader : Nat) : r0.Kept (State.read64 s key reader).2 := by
  unfold State.read64
  iterate 40 all_goals try first
    | with_reducible exact h0
    | with_reducible assumption
    | with_reducible refine State.normalRead_kept' (by assumption) ?_
    | with_reducible refine State.Kept.ite ?_ ?_
    | with_reducible refine State.Kept.ite2 ?_ ?_
    | with_reducible refine State.Kept.ite22 ?_ ?_
    | with_reducible refine State.Kept.ite1 ?_ ?_
    | with_reducible refine State.normalRead_kept ?_ ..
    | with_reducible refine State.Kept.upto _ _ ?_ (fun _ _ _ => ?_)
    | with_reducible refine State.Kept.fold _ _ ?_ (fun _ _ _ => ?_)
    | with_reducible refine State.Kept.pair2 (by assumption) ?_ ?_
    | with_reducible refine State.Kept.pair22 (by assumption) ?_ ?_
    | with_reducible split
    | dsimp only
    | with_reducible refine State.Kept.col ?_
    | with_reducible refine State.Kept.lit ?_

theorem State.read64_kept' {r0 s s1 : State} {key : Nat} {reader : Nat} {x0 : Cell64} (e0 : State.read64 s key reader = (x0, s1)) (h0 : r0.Kept s) : r0.Kept s1 := by
  have g0 := State.read64_kept h0 key reader
  rw [e0] at g0
  exact g0

theorem State.supersede_kept {r0 s : State} (h0 : r0.Kept s) (key : Nat) (w : WriteData) : r0.Kept (State.supersede s key w) := by
  unfold State.supersede
  iterate 40 all_goals try first
    | with_reducible exact h0
    | with_reducible assumption
    | with_reducible refine State.Kept.ite ?_ ?_
    | with_reducible refine State.setCc_kept ?_ ..
    | with_reducible refine State.Kept.upto _ _ ?_ (fun _ _ _ => ?_)
    | with_reducible refine State.Kept.fold _ _ ?_ (fun _ _ _ => ?_)
    | with_reducible split
    | with_reducible refine State.Kept.col ?_
    | with_reducible refine State.Kept.lit ?_

theorem State.write64_kept {r0 s : State} (h0 : r0.Kept s) (key : Nat) (w : WriteData) : r0.Kept (State.write64 s key w) := by
  unfold State.write64
  iterate 40 all_goals try first
    | with_reducible exact h0
    | with_reducible assumption
    | with_reducible refine State.Kept.ite ?_ ?_
    | with_reducible refine State.supersede_kept ?_ ..
    | with_reducible refine State.writePart_kept ?_ ..
    | with_reducible refine State.Kept.upto _ _ ?_ (fun _ _ _ => ?_)
    | with_reducible refine State.Kept.fold _ _ ?_ (fun _ _ _ => ?_)
    | with_reducible split
    | with_reducible refine State.Kept.col ?_
    | with_reducible refine State.Kept.lit ?_

theorem State.burstEnd_kept {r0 s : State} (h0 : r0.Kept s) (key : Nat) (write : Bool) : r0.Kept (State.burstEnd s key write) := by
  unfold State.burstEnd
  iterate 40 all_goals try first
    | with_reducible exact h0
    | with_reducible assumption
    | with_reducible refine State.Kept.ite ?_ ?_
    | with_reducible refine State.setCc_kept ?_ ..
    | with_reducible refine State.Kept.upto _ _ ?_ (fun _ _ _ => ?_)
    | with_reducible refine State.Kept.fold _ _ ?_ (fun _ _ _ => ?_)
    | with_reducible split
    | with_reducible refine State.Kept.col ?_
    | with_reducible refine State.Kept.lit ?_

theorem State.markLost_kept {r0 s : State} (h0 : r0.Kept s) (c : Nat) (key : Nat) (write : Bool) : r0.Kept (State.markLost s c key write) := by
  unfold State.markLost
  iterate 40 all_goals try first
    | with_reducible exact h0
    | with_reducible assumption
    | with_reducible refine State.Kept.ite ?_ ?_
    | with_reducible refine State.setCc_kept ?_ ..
    | with_reducible refine State.Kept.upto _ _ ?_ (fun _ _ _ => ?_)
    | with_reducible refine State.Kept.fold _ _ ?_ (fun _ _ _ => ?_)
    | with_reducible split
    | with_reducible refine State.Kept.col ?_
    | with_reducible refine State.Kept.lit ?_

theorem State.loseWrite_kept {r0 s : State} (h0 : r0.Kept s) (key : Nat) (w : WriteData) : r0.Kept (s.loseWrite key w) := by
  have hs : ∀ (b : Bool) (m : Mem) (c : Nat) (v : Half), m.wf = true → (if b = true then m.writeCol c v else m).wf = true := by
    intro b m c v hm
    cases b
    · exact hm
    · exact Mem.writeCol_wf m _ _ hm
  exact (State.supersede_kept h0 key w).litMem (fun hm => hs _ _ _ _ (hs _ _ _ _ hm))

theorem State.spoilMixed_kept {r0 s : State} (h0 : r0.Kept s) (key : Nat) (w : WriteData) : r0.Kept (s.spoilMixed key w) := by
  have hs : ∀ (b : Bool) (m : Mem) (c : Nat) (v : Half), m.wf = true → (if b = true then m.writeCol c v else m).wf = true := by
    intro b m c v hm
    cases b
    · exact hm
    · exact Mem.writeCol_wf m _ _ hm
  exact (State.supersede_kept h0 key w).litMem (fun hm => hs _ _ _ _ (hs _ _ _ _ (hs _ _ _ _ (hs _ _ _ _ hm))))

theorem State.readBurst_kept {r0 s : State} (h0 : r0.Kept s) (key : Nat) (reader : Nat) : r0.Kept (State.readBurst s key reader).2 := by
  unfold State.readBurst
  iterate 40 all_goals try first
    | with_reducible exact h0
    | with_reducible assumption
    | with_reducible refine State.read64_kept' (by assumption) ?_
    | with_reducible refine State.Kept.ite ?_ ?_
    | with_reducible refine State.Kept.ite2 ?_ ?_
    | with_reducible refine State.Kept.ite22 ?_ ?_
    | with_reducible refine State.Kept.ite1 ?_ ?_
    | with_reducible refine State.burstEnd_kept ?_ ..
    | with_reducible refine State.read64_kept ?_ ..
    | with_reducible refine State.Kept.upto _ _ ?_ (fun _ _ _ => ?_)
    | with_reducible refine State.Kept.fold _ _ ?_ (fun _ _ _ => ?_)
    | with_reducible split
    | dsimp only
    | with_reducible refine State.Kept.col ?_
    | with_reducible refine State.Kept.lit ?_

theorem State.readBurst_kept' {r0 s s1 : State} {key : Nat} {reader : Nat} {x0 : Cell64} (e0 : State.readBurst s key reader = (x0, s1)) (h0 : r0.Kept s) : r0.Kept s1 := by
  have g0 := State.readBurst_kept h0 key reader
  rw [e0] at g0
  exact g0

theorem State.writeBurst_kept {r0 s : State} (h0 : r0.Kept s) (key : Nat) (w : WriteData) : r0.Kept (State.writeBurst s key w) := by
  unfold State.writeBurst
  iterate 40 all_goals try first
    | with_reducible exact h0
    | with_reducible assumption
    | with_reducible refine State.Kept.ite ?_ ?_
    | with_reducible refine State.burstEnd_kept ?_ ..
    | with_reducible refine State.loseWrite_kept ?_ ..
    | with_reducible refine State.spoilMixed_kept ?_ ..
    | with_reducible refine State.write64_kept ?_ ..
    | with_reducible refine State.Kept.upto _ _ ?_ (fun _ _ _ => ?_)
    | with_reducible refine State.Kept.fold _ _ ?_ (fun _ _ _ => ?_)
    | with_reducible split
    | with_reducible refine State.Kept.col ?_
    | with_reducible refine State.Kept.lit ?_

theorem State.land_kept {r0 s : State} (h0 : r0.Kept s) (u : ReadUser) (key : Nat) (d : Option Cell64) : r0.Kept (State.land s u key d) := by
  unfold State.land
  iterate 40 all_goals try first
    | with_reducible exact h0
    | with_reducible assumption
    | with_reducible refine State.Kept.ite ?_ ?_
    | with_reducible refine State.setCc_kept ?_ ..
    | with_reducible refine State.Kept.upto _ _ ?_ (fun _ _ _ => ?_)
    | with_reducible refine State.Kept.fold _ _ ?_ (fun _ _ _ => ?_)
    | with_reducible split
    | with_reducible refine State.Kept.col ?_
    | with_reducible refine State.Kept.lit ?_

theorem State.answerReq_kept {r0 s : State} (h0 : r0.Kept s) (r : Req) (d : Cell64) : r0.Kept (State.answerReq s r d) := by
  unfold State.answerReq
  iterate 40 all_goals try first
    | with_reducible exact h0
    | with_reducible assumption
    | with_reducible refine State.Kept.ite ?_ ?_
    | with_reducible refine State.land_kept ?_ ..
    | with_reducible refine State.send_kept ?_ ..
    | with_reducible refine State.Kept.upto _ _ ?_ (fun _ _ _ => ?_)
    | with_reducible refine State.Kept.fold _ _ ?_ (fun _ _ _ => ?_)
    | with_reducible split
    | with_reducible refine State.Kept.col ?_
    | with_reducible refine State.Kept.lit ?_

theorem State.answerRead64_kept {r0 s : State} (h0 : r0.Kept s) (r : Req) : r0.Kept (State.answerRead64 s r) := by
  unfold State.answerRead64
  iterate 40 all_goals try first
    | with_reducible exact h0
    | with_reducible assumption
    | with_reducible refine State.readBurst_kept' (by assumption) ?_
    | with_reducible refine State.Kept.ite ?_ ?_
    | with_reducible refine State.answerReq_kept ?_ ..
    | with_reducible refine State.land_kept ?_ ..
    | with_reducible refine State.readBurst_kept ?_ ..
    | with_reducible refine State.Kept.upto _ _ ?_ (fun _ _ _ => ?_)
    | with_reducible refine State.Kept.fold _ _ ?_ (fun _ _ _ => ?_)
    | with_reducible refine State.Kept.pair2 (by assumption) ?_ ?_
    | with_reducible refine State.Kept.pair22 (by assumption) ?_ ?_
    | with_reducible split
    | with_reducible refine State.Kept.col ?_
    | with_reducible refine State.Kept.lit ?_

theorem State.serve_kept {r0 s : State} (h0 : r0.Kept s) (c : Nat) (r : Req) : r0.Kept (State.serve s c r) := by
  unfold State.serve
  iterate 40 all_goals try first
    | with_reducible exact h0
    | with_reducible assumption
    | with_reducible refine State.Kept.ite ?_ ?_
    | with_reducible refine State.answerRead64_kept ?_ ..
    | with_reducible refine State.answerReq_kept ?_ ..
    | with_reducible refine State.openFor_kept ?_ ..
    | with_reducible refine State.setCc_kept ?_ ..
    | with_reducible refine State.trace_kept ?_ ..
    | with_reducible refine State.writeBurst_kept ?_ ..
    | with_reducible refine State.Kept.upto _ _ ?_ (fun _ _ _ => ?_)
    | with_reducible refine State.Kept.fold _ _ ?_ (fun _ _ _ => ?_)
    | with_reducible split
    | with_reducible refine State.Kept.col ?_
    | with_reducible refine State.Kept.lit ?_

theorem State.charge_kept {r0 s : State} (h0 : r0.Kept s) (c : Nat) (r : Req) : r0.Kept (State.charge s c r) := by
  unfold State.charge
  iterate 40 all_goals try first
    | with_reducible exact h0
    | with_reducible assumption
    | with_reducible refine State.Kept.ite ?_ ?_
    | with_reducible refine State.setCc_kept ?_ ..
    | with_reducible refine State.Kept.upto _ _ ?_ (fun _ _ _ => ?_)
    | with_reducible refine State.Kept.fold _ _ ?_ (fun _ _ _ => ?_)
    | with_reducible split
    | with_reducible refine State.Kept.col ?_
    | with_reducible refine State.Kept.lit ?_

theorem State.slot_kept {r0 s : State} (h0 : r0.Kept s) (c : Nat) (r : Req) : r0.Kept (State.slot s c r) := by
  unfold State.slot
  iterate 40 all_goals try first
    | with_reducible exact h0
    | with_reducible assumption
    | with_reducible refine State.Kept.ite ?_ ?_
    | with_reducible refine State.charge_kept ?_ ..
    | with_reducible refine State.serve_kept ?_ ..
    | with_reducible refine State.Kept.upto _ _ ?_ (fun _ _ _ => ?_)
    | with_reducible refine State.Kept.fold _ _ ?_ (fun _ _ _ => ?_)
    | with_reducible split
    | with_reducible refine State.Kept.col ?_
    | with_reducible refine State.Kept.lit ?_

theorem State.flushPool_kept {r0 s : State} (h0 : r0.Kept s) (c : Nat) (p : Req → Bool) : r0.Kept (State.flushPool s c p) := by
  unfold State.flushPool
  iterate 40 all_goals try first
    | with_reducible exact h0
    | with_reducible assumption
    | with_reducible refine State.Kept.ite ?_ ?_
    | with_reducible refine State.serve_kept ?_ ..
    | with_reducible refine State.Kept.upto _ _ ?_ (fun _ _ _ => ?_)
    | with_reducible refine State.Kept.fold _ _ ?_ (fun _ _ _ => ?_)
    | with_reducible refine State.Kept.fold2 _ _ ?_ (fun _ _ _ => ?_)
    | with_reducible refine State.Kept.fold1 _ _ ?_ (fun _ _ _ => ?_)
    | with_reducible refine State.Kept.fold2' (by assumption) ?_ (fun _ _ _ => ?_)
    | with_reducible refine State.Kept.fold1' (by assumption) ?_ (fun _ _ _ => ?_)
    | with_reducible split
    | with_reducible refine State.Kept.col ?_
    | with_reducible refine State.Kept.lit ?_

theorem State.arrive_kept {r0 s : State} (h0 : r0.Kept s) (who : Requester) (key : Nat) (w : Option WriteData) (ans : Answer) : r0.Kept (State.arrive s who key w ans).2 := by
  unfold State.arrive
  iterate 40 all_goals try first
    | with_reducible exact h0
    | with_reducible assumption
    | with_reducible refine State.Kept.ite ?_ ?_
    | with_reducible refine State.Kept.ite2 ?_ ?_
    | with_reducible refine State.Kept.ite22 ?_ ?_
    | with_reducible refine State.Kept.ite1 ?_ ?_
    | with_reducible refine State.accept_kept ?_ ..
    | with_reducible refine State.slot_kept ?_ ..
    | with_reducible refine State.Kept.upto _ _ ?_ (fun _ _ _ => ?_)
    | with_reducible refine State.Kept.fold _ _ ?_ (fun _ _ _ => ?_)
    | with_reducible split
    | dsimp only
    | with_reducible refine State.Kept.col ?_
    | with_reducible refine State.Kept.lit ?_

theorem State.arrive_kept' {r0 s s1 : State} {who : Requester} {key : Nat} {w : Option WriteData} {ans : Answer} {x0 : Bool} (e0 : State.arrive s who key w ans = (x0, s1)) (h0 : r0.Kept s) : r0.Kept s1 := by
  have g0 := State.arrive_kept h0 who key w ans
  rw [e0] at g0
  exact g0

theorem State.takeRead_kept {r0 s : State} (h0 : r0.Kept s) (u : ReadUser) (key : Nat) : r0.Kept (State.takeRead s u key).2 := by
  unfold State.takeRead
  iterate 40 all_goals try first
    | with_reducible exact h0
    | with_reducible assumption
    | with_reducible refine State.Kept.ite ?_ ?_
    | with_reducible refine State.Kept.ite2 ?_ ?_
    | with_reducible refine State.Kept.ite22 ?_ ?_
    | with_reducible refine State.Kept.ite1 ?_ ?_
    | with_reducible refine State.setCc_kept ?_ ..
    | with_reducible refine State.Kept.upto _ _ ?_ (fun _ _ _ => ?_)
    | with_reducible refine State.Kept.fold _ _ ?_ (fun _ _ _ => ?_)
    | with_reducible split
    | dsimp only
    | with_reducible refine State.Kept.col ?_
    | with_reducible refine State.Kept.lit ?_

theorem State.takeRead_kept' {r0 s s1 : State} {u : ReadUser} {key : Nat} {x0 : Option (Option Cell64)} (e0 : State.takeRead s u key = (x0, s1)) (h0 : r0.Kept s) : r0.Kept s1 := by
  have g0 := State.takeRead_kept h0 u key
  rw [e0] at g0
  exact g0

theorem State.portRead_kept {r0 s : State} (h0 : r0.Kept s) (u : ReadUser) (who : Requester) (key : Nat) : r0.Kept (State.portRead s u who key).2 := by
  unfold State.portRead
  iterate 40 all_goals try first
    | with_reducible exact h0
    | with_reducible assumption
    | with_reducible refine State.arrive_kept' (by assumption) ?_
    | with_reducible refine State.takeRead_kept' (by assumption) ?_
    | with_reducible refine State.Kept.ite ?_ ?_
    | with_reducible refine State.Kept.ite2 ?_ ?_
    | with_reducible refine State.Kept.ite22 ?_ ?_
    | with_reducible refine State.Kept.ite1 ?_ ?_
    | with_reducible refine State.arrive_kept ?_ ..
    | with_reducible refine State.retiredAccess_kept ?_ ..
    | with_reducible refine State.takeRead_kept ?_ ..
    | with_reducible refine State.Kept.upto _ _ ?_ (fun _ _ _ => ?_)
    | with_reducible refine State.Kept.fold _ _ ?_ (fun _ _ _ => ?_)
    | with_reducible split
    | dsimp only
    | with_reducible refine State.Kept.col ?_
    | with_reducible refine State.Kept.lit ?_

theorem State.portRead_kept' {r0 s s1 : State} {u : ReadUser} {who : Requester} {key : Nat} {x0 : Option (Option Cell64)} (e0 : State.portRead s u who key = (x0, s1)) (h0 : r0.Kept s) : r0.Kept s1 := by
  have g0 := State.portRead_kept h0 u who key
  rw [e0] at g0
  exact g0

theorem State.portWrite_kept {r0 s : State} (h0 : r0.Kept s) (who : Requester) (key : Nat) (w : WriteData) : r0.Kept (State.portWrite s who key w).2 := by
  unfold State.portWrite
  iterate 40 all_goals try first
    | with_reducible exact h0
    | with_reducible assumption
    | with_reducible refine State.arrive_kept' (by assumption) ?_
    | with_reducible refine State.Kept.ite ?_ ?_
    | with_reducible refine State.Kept.ite2 ?_ ?_
    | with_reducible refine State.Kept.ite22 ?_ ?_
    | with_reducible refine State.Kept.ite1 ?_ ?_
    | with_reducible refine State.arrive_kept ?_ ..
    | with_reducible refine State.retiredAccess_kept ?_ ..
    | with_reducible refine State.Kept.upto _ _ ?_ (fun _ _ _ => ?_)
    | with_reducible refine State.Kept.fold _ _ ?_ (fun _ _ _ => ?_)
    | with_reducible split
    | dsimp only
    | with_reducible refine State.Kept.col ?_
    | with_reducible refine State.Kept.lit ?_

theorem State.portWrite_kept' {r0 s s1 : State} {who : Requester} {key : Nat} {w : WriteData} {x0 : Bool} (e0 : State.portWrite s who key w = (x0, s1)) (h0 : r0.Kept s) : r0.Kept s1 := by
  have g0 := State.portWrite_kept h0 who key w
  rw [e0] at g0
  exact g0

theorem State.orphanReads_kept {r0 s : State} (h0 : r0.Kept s) (p : ReadUser → Bool) : r0.Kept (State.orphanReads s p) := by
  unfold State.orphanReads
  iterate 40 all_goals try first
    | with_reducible exact h0
    | with_reducible assumption
    | with_reducible refine State.Kept.ite ?_ ?_
    | with_reducible refine State.setCc_kept ?_ ..
    | with_reducible refine State.Kept.upto _ _ ?_ (fun _ _ _ => ?_)
    | with_reducible refine State.Kept.fold _ _ ?_ (fun _ _ _ => ?_)
    | with_reducible refine State.Kept.fold2 _ _ ?_ (fun _ _ _ => ?_)
    | with_reducible refine State.Kept.fold1 _ _ ?_ (fun _ _ _ => ?_)
    | with_reducible refine State.Kept.fold2' (by assumption) ?_ (fun _ _ _ => ?_)
    | with_reducible refine State.Kept.fold1' (by assumption) ?_ (fun _ _ _ => ?_)
    | with_reducible split
    | with_reducible refine State.Kept.col ?_
    | with_reducible refine State.Kept.lit ?_

theorem State.issueRefresh_kept {r0 s : State} (h0 : r0.Kept s) (c : Nat) (m : Maint) : r0.Kept (s.issueRefresh c m) := by
  unfold State.issueRefresh
  iterate 40 all_goals try first
      | with_reducible exact h0
      | with_reducible assumption
      | with_reducible refine State.Kept.ite ?_ ?_
      | with_reducible refine State.closeRow_kept ?_ ..
      | with_reducible refine State.pdx_kept ?_ ..
      | with_reducible refine State.setCc_kept ?_ ..
      | with_reducible refine State.trace_kept ?_ ..
      | with_reducible refine State.Kept.upto _ _ ?_ (fun _ _ _ => ?_)
      | with_reducible refine State.Kept.fold _ _ ?_ (fun _ _ _ => ?_)
      | with_reducible refine State.Kept.fold2 _ _ ?_ (fun _ _ _ => ?_)
      | with_reducible refine State.Kept.fold1 _ _ ?_ (fun _ _ _ => ?_)
      | with_reducible refine State.Kept.fold2' (by assumption) ?_ (fun _ _ _ => ?_)
      | with_reducible refine State.Kept.fold1' (by assumption) ?_ (fun _ _ _ => ?_)
      | with_reducible split
      | with_reducible refine State.Kept.col ?_
      | with_reducible refine State.Kept.lit ?_

theorem neighbourRefresh_kept {r0 s : State} (h0 : r0.Kept s) (c : Nat) : r0.Kept (neighbourRefresh c s) := by
  unfold neighbourRefresh
  iterate 40 all_goals try first
    | with_reducible exact h0
    | with_reducible assumption
    | with_reducible refine State.Kept.ite ?_ ?_
    | with_reducible refine State.issueRefresh_kept ?_ ..
    | with_reducible refine State.Kept.upto _ _ ?_ (fun _ _ _ => ?_)
    | with_reducible refine State.Kept.fold _ _ ?_ (fun _ _ _ => ?_)
    | with_reducible split
    | with_reducible refine State.Kept.col ?_
    | with_reducible refine State.Kept.lit ?_

theorem requestIssue_kept {r0 s : State} (h0 : r0.Kept s) (c : Nat) (strikes : List Strike) : r0.Kept (requestIssue c strikes s) := by
  unfold requestIssue
  iterate 40 all_goals try first
    | with_reducible exact h0
    | with_reducible assumption
    | with_reducible refine State.Kept.ite ?_ ?_
    | with_reducible refine State.slot_kept ?_ ..
    | with_reducible refine State.strike_kept ?_ ..
    | with_reducible refine neighbourRefresh_kept ?_ ..
    | with_reducible refine State.Kept.upto _ _ ?_ (fun _ _ _ => ?_)
    | with_reducible refine State.Kept.fold _ _ ?_ (fun _ _ _ => ?_)
    | with_reducible split
    | with_reducible refine State.Kept.col ?_
    | with_reducible refine State.Kept.lit ?_

theorem refresh_kept {r0 s : State} (h0 : r0.Kept s) (c : Nat) : r0.Kept (refresh c s) := by
  unfold refresh
  iterate 40 all_goals try first
    | with_reducible exact h0
    | with_reducible assumption
    | with_reducible refine State.Kept.ite ?_ ?_
    | with_reducible refine State.effects_kept ?_ ..
    | with_reducible refine State.pdx_kept ?_ ..
    | with_reducible refine State.setCc_kept ?_ ..
    | with_reducible refine State.slot_kept ?_ ..
    | with_reducible refine State.trace_kept ?_ ..
    | with_reducible refine State.wr_kept ?_ ..
    | with_reducible refine State.Kept.upto _ _ ?_ (fun _ _ _ => ?_)
    | with_reducible refine State.Kept.fold _ _ ?_ (fun _ _ _ => ?_)
    | with_reducible split
    | with_reducible refine State.Kept.col ?_
    | with_reducible refine State.Kept.lit ?_

theorem powerDown_kept {r0 s : State} (h0 : r0.Kept s) (c : Nat) (sid : Nat) : r0.Kept (powerDown c sid s) := by
  unfold powerDown
  iterate 40 all_goals try first
    | with_reducible exact h0
    | with_reducible assumption
    | with_reducible refine State.Kept.ite ?_ ?_
    | with_reducible refine State.trace_kept ?_ ..
    | with_reducible refine State.wr_kept ?_ ..
    | with_reducible refine State.Kept.upto _ _ ?_ (fun _ _ _ => ?_)
    | with_reducible refine State.Kept.fold _ _ ?_ (fun _ _ _ => ?_)
    | with_reducible split
    | with_reducible refine State.Kept.col ?_
    | with_reducible refine State.Kept.lit ?_

theorem State.storeBack_kept {r0 s : State} (h0 : r0.Kept s) (c : Nat) (m : Maint) : r0.Kept (s.storeBack c m) := by
  unfold State.storeBack
  iterate 40 all_goals try first
      | with_reducible exact h0
      | with_reducible assumption
      | with_reducible refine State.Kept.ite ?_ ?_
      | with_reducible refine State.burstEnd_kept ?_ ..
      | with_reducible refine State.charge_kept ?_ ..
      | with_reducible refine State.openFor_kept ?_ ..
      | with_reducible refine State.pdx_kept ?_ ..
      | with_reducible refine State.setCc_kept ?_ ..
      | with_reducible refine State.trace_kept ?_ ..
      | with_reducible refine State.Kept.upto _ _ ?_ (fun _ _ _ => ?_)
      | with_reducible refine State.Kept.fold _ _ ?_ (fun _ _ _ => ?_)
      | with_reducible split
      | with_reducible refine State.Kept.col ?_
      | with_reducible refine State.Kept.lit ?_

theorem eccWriteBack_kept {r0 s : State} (h0 : r0.Kept s) (c : Nat) (strikes : List Strike) : r0.Kept (eccWriteBack c strikes s) := by
  unfold eccWriteBack
  iterate 40 all_goals try first
    | with_reducible exact h0
    | with_reducible assumption
    | with_reducible refine State.Kept.ite ?_ ?_
    | with_reducible refine State.storeBack_kept ?_ ..
    | with_reducible refine State.strike_kept ?_ ..
    | with_reducible refine State.Kept.upto _ _ ?_ (fun _ _ _ => ?_)
    | with_reducible refine State.Kept.fold _ _ ?_ (fun _ _ _ => ?_)
    | with_reducible split
    | with_reducible refine State.Kept.col ?_
    | with_reducible refine State.Kept.lit ?_

theorem State.gapServe_kept {r0 s : State} (h0 : r0.Kept s) (n c : Nat) : r0.Kept (State.gapServe n s c) := by
  induction n generalizing s  with
  | zero => exact h0
  | succ n ih =>
    unfold State.gapServe
    iterate 40 all_goals try first
      | with_reducible exact h0
      | with_reducible assumption
      | with_reducible refine ih ?_
      | with_reducible refine State.Kept.ite ?_ ?_
      | with_reducible refine State.slot_kept ?_ ..
      | with_reducible refine State.storeBack_kept ?_ ..
      | with_reducible refine State.Kept.upto _ _ ?_ (fun _ _ _ => ?_)
      | with_reducible refine State.Kept.fold _ _ ?_ (fun _ _ _ => ?_)
      | with_reducible split
      | with_reducible refine State.Kept.col ?_
      | with_reducible refine State.Kept.lit ?_

theorem State.scrubWrite_kept {r0 s : State} (h0 : r0.Kept s) (c : Nat) (col : Nat) (v : Half) : r0.Kept (State.scrubWrite s c col v) := by
  unfold State.scrubWrite
  iterate 40 all_goals try first
    | with_reducible exact h0
    | with_reducible assumption
    | with_reducible refine State.Kept.ite ?_ ?_
    | with_reducible refine State.burstEnd_kept ?_ ..
    | with_reducible refine State.trace_kept ?_ ..
    | with_reducible refine State.Kept.upto _ _ ?_ (fun _ _ _ => ?_)
    | with_reducible refine State.Kept.fold _ _ ?_ (fun _ _ _ => ?_)
    | with_reducible split
    | with_reducible refine State.Kept.col ?_
    | with_reducible refine State.Kept.lit ?_

theorem State.scrubRead_kept {r0 s : State} (h0 : r0.Kept s) (c : Nat) (col : Nat) : r0.Kept (State.scrubRead s c col) := by
  unfold State.scrubRead
  iterate 40 all_goals try first
    | with_reducible exact h0
    | with_reducible assumption
    | with_reducible refine State.check_kept' (by assumption) ?_
    | with_reducible refine State.Kept.ite ?_ ?_
    | with_reducible refine State.burstEnd_kept ?_ ..
    | with_reducible refine State.charge_kept ?_ ..
    | with_reducible refine State.check_kept ?_ ..
    | with_reducible refine State.correctedErr_kept ?_ ..
    | with_reducible refine State.openFor_kept ?_ ..
    | with_reducible refine State.pdx_kept ?_ ..
    | with_reducible refine State.scrubWrite_kept ?_ ..
    | with_reducible refine State.setCc_kept ?_ ..
    | with_reducible refine State.trace_kept ?_ ..
    | with_reducible refine State.uncorrectable_kept ?_ ..
    | with_reducible refine State.Kept.upto _ _ ?_ (fun _ _ _ => ?_)
    | with_reducible refine State.Kept.fold _ _ ?_ (fun _ _ _ => ?_)
    | with_reducible split
    | with_reducible refine State.Kept.col ?_
    | with_reducible refine State.Kept.lit ?_

theorem patrolScrub_kept {r0 s : State} (h0 : r0.Kept s) (c : Nat) (strikes : List Strike) : r0.Kept (patrolScrub c strikes s) := by
  unfold patrolScrub
  iterate 40 all_goals try first
    | with_reducible exact h0
    | with_reducible assumption
    | with_reducible refine State.Kept.ite ?_ ?_
    | with_reducible refine State.effect_kept ?_ ..
    | with_reducible refine State.scrubRead_kept ?_ ..
    | with_reducible refine State.setCc_kept ?_ ..
    | with_reducible refine State.strike_kept ?_ ..
    | with_reducible refine refresh_kept ?_ ..
    | with_reducible refine State.Kept.upto _ _ ?_ (fun _ _ _ => ?_)
    | with_reducible refine State.Kept.fold _ _ ?_ (fun _ _ _ => ?_)
    | with_reducible split
    | with_reducible refine State.Kept.col ?_
    | with_reducible refine State.Kept.lit ?_

theorem State.burstFail_kept {r0 s : State} (h0 : r0.Kept s) (c : Nat) (key : Nat) (write : Bool) : r0.Kept (State.burstFail s c key write) := by
  unfold State.burstFail
  iterate 40 all_goals try first
    | with_reducible exact h0
    | with_reducible assumption
    | with_reducible refine State.Kept.ite ?_ ?_
    | with_reducible refine State.answerReq_kept ?_ ..
    | with_reducible refine State.loseWrite_kept ?_ ..
    | with_reducible refine State.markLost_kept ?_ ..
    | with_reducible refine State.setCc_kept ?_ ..
    | with_reducible refine State.spoilMixed_kept ?_ ..
    | with_reducible refine State.Kept.upto _ _ ?_ (fun _ _ _ => ?_)
    | with_reducible refine State.Kept.fold _ _ ?_ (fun _ _ _ => ?_)
    | with_reducible split
    | with_reducible refine State.Kept.col ?_
    | with_reducible refine State.Kept.lit ?_

theorem crcFail_kept {r0 s : State} (h0 : r0.Kept s) (c : Nat) (col : Nat) (write : Bool) : r0.Kept (crcFail c col write s) := by
  unfold crcFail
  iterate 40 all_goals try first
    | with_reducible exact h0
    | with_reducible assumption
    | with_reducible refine State.Kept.ite ?_ ?_
    | with_reducible refine State.burstFail_kept ?_ ..
    | with_reducible refine State.uncorrectable_kept ?_ ..
    | with_reducible refine State.Kept.upto _ _ ?_ (fun _ _ _ => ?_)
    | with_reducible refine State.Kept.fold _ _ ?_ (fun _ _ _ => ?_)
    | with_reducible split
    | with_reducible refine State.Kept.col ?_
    | with_reducible refine State.Kept.lit ?_

theorem crcReplay_kept {r0 s : State} (h0 : r0.Kept s) (c : Nat) (col : Nat) (write : Bool) : r0.Kept (crcReplay c col write s) := by
  unfold crcReplay
  iterate 40 all_goals try first
    | with_reducible exact h0
    | with_reducible assumption
    | with_reducible refine State.Kept.ite ?_ ?_
    | with_reducible refine State.chanError_kept ?_ ..
    | with_reducible refine State.emit_kept ?_ ..
    | with_reducible refine State.setCc_kept ?_ ..
    | with_reducible refine State.trace_kept ?_ ..
    | with_reducible refine crcFail_kept ?_ ..
    | with_reducible refine State.Kept.upto _ _ ?_ (fun _ _ _ => ?_)
    | with_reducible refine State.Kept.fold _ _ ?_ (fun _ _ _ => ?_)
    | with_reducible split
    | with_reducible refine State.Kept.col ?_
    | with_reducible refine State.Kept.lit ?_

theorem State.eachEng_kept {r0 s : State} (h0 : r0.Kept s) (c : Nat) (g : Nat) (f : Nat → EngSt → EngSt) : r0.Kept (State.eachEng s c g f) := by
  unfold State.eachEng
  iterate 40 all_goals try first
    | with_reducible exact h0
    | with_reducible assumption
    | with_reducible refine State.Kept.ite ?_ ?_
    | with_reducible refine State.setEng_kept ?_ ..
    | with_reducible refine State.Kept.upto _ _ ?_ (fun _ _ _ => ?_)
    | with_reducible refine State.Kept.fold _ _ ?_ (fun _ _ _ => ?_)
    | with_reducible split
    | with_reducible refine State.Kept.col ?_
    | with_reducible refine State.Kept.lit ?_

theorem State.seqError_kept {r0 s : State} (h0 : r0.Kept s) (c : Nat) (g : Nat) (op : Nat) (hit : EngSt → Bool) : r0.Kept (State.seqError s c g op hit) := by
  unfold State.seqError
  iterate 40 all_goals try first
    | with_reducible exact h0
    | with_reducible assumption
    | with_reducible refine State.Kept.ite ?_ ?_
    | with_reducible refine State.emit_kept ?_ ..
    | with_reducible refine State.raise_kept ?_ ..
    | with_reducible refine State.setCc_kept ?_ ..
    | with_reducible refine State.setEng_kept ?_ ..
    | with_reducible refine State.Kept.upto _ _ ?_ (fun _ _ _ => ?_)
    | with_reducible refine State.Kept.fold _ _ ?_ (fun _ _ _ => ?_)
    | with_reducible refine State.Kept.fold2 _ _ ?_ (fun _ _ _ => ?_)
    | with_reducible refine State.Kept.fold1 _ _ ?_ (fun _ _ _ => ?_)
    | with_reducible refine State.Kept.fold2' (by assumption) ?_ (fun _ _ _ => ?_)
    | with_reducible refine State.Kept.fold1' (by assumption) ?_ (fun _ _ _ => ?_)
    | with_reducible split
    | with_reducible refine State.Kept.col ?_
    | with_reducible refine State.Kept.lit ?_

theorem State.engRead_kept {r0 s : State} (h0 : r0.Kept s) (c : Nat) (g : Nat) (p : Nat) (row : Nat) (col : Nat) : r0.Kept (State.engRead s c g p row col).2 := by
  unfold State.engRead
  iterate 40 all_goals try first
    | with_reducible exact h0
    | with_reducible assumption
    | with_reducible refine State.readCol_kept' (by assumption) ?_
    | with_reducible refine State.Kept.ite ?_ ?_
    | with_reducible refine State.Kept.ite2 ?_ ?_
    | with_reducible refine State.Kept.ite22 ?_ ?_
    | with_reducible refine State.Kept.ite1 ?_ ?_
    | with_reducible refine State.readCol_kept ?_ ..
    | with_reducible refine State.sat_kept ?_ ..
    | with_reducible refine State.Kept.upto _ _ ?_ (fun _ _ _ => ?_)
    | with_reducible refine State.Kept.fold _ _ ?_ (fun _ _ _ => ?_)
    | with_reducible refine State.Kept.pair2 (by assumption) ?_ ?_
    | with_reducible refine State.Kept.pair22 (by assumption) ?_ ?_
    | with_reducible split
    | dsimp only
    | with_reducible refine State.Kept.col ?_
    | with_reducible refine State.Kept.lit ?_

theorem State.engRead_kept' {r0 s s1 : State} {c : Nat} {g : Nat} {p : Nat} {row : Nat} {col : Nat} {x0 : Half} (e0 : State.engRead s c g p row col = (x0, s1)) (h0 : r0.Kept s) : r0.Kept s1 := by
  have g0 := State.engRead_kept h0 c g p row col
  rw [e0] at g0
  exact g0

theorem State.eachRead_kept {r0 s : State} (h0 : r0.Kept s) (c : Nat) (g : Nat) (col : Nat) (f : EngSt → Half → EngSt × Note) : r0.Kept (State.eachRead s c g col f) := by
  unfold State.eachRead
  iterate 40 all_goals try first
    | with_reducible exact h0
    | with_reducible assumption
    | with_reducible refine State.engRead_kept' (by assumption) ?_
    | with_reducible refine State.Kept.ite ?_ ?_
    | with_reducible refine State.engRead_kept ?_ ..
    | with_reducible refine State.note_kept ?_ ..
    | with_reducible refine State.setEng_kept ?_ ..
    | with_reducible refine State.Kept.upto _ _ ?_ (fun _ _ _ => ?_)
    | with_reducible refine State.Kept.fold _ _ ?_ (fun _ _ _ => ?_)
    | with_reducible refine State.Kept.pair2 (by assumption) ?_ ?_
    | with_reducible refine State.Kept.pair22 (by assumption) ?_ ?_
    | with_reducible split
    | with_reducible refine State.Kept.col ?_
    | with_reducible refine State.Kept.lit ?_

theorem State.eachWrite_kept {r0 s : State} (h0 : r0.Kept s) (c : Nat) (g : Nat) (col : Nat) (f : EngSt → Half) : r0.Kept (State.eachWrite s c g col f) := by
  unfold State.eachWrite
  iterate 40 all_goals try first
    | with_reducible exact h0
    | with_reducible assumption
    | with_reducible refine State.Kept.ite ?_ ?_
    | with_reducible refine State.setCc_kept ?_ ..
    | with_reducible refine State.Kept.upto _ _ ?_ (fun _ _ _ => ?_)
    | with_reducible refine State.Kept.fold _ _ ?_ (fun _ _ _ => ?_)
    | with_reducible split
    | with_reducible refine State.Kept.col ?_
    | with_reducible refine State.Kept.lit ?_

theorem State.setUp_kept {r0 s : State} (h0 : r0.Kept s) (c : Nat) (g : Nat) (f : Nat → EngSt → EngSt) : r0.Kept (State.setUp s c g f) := by
  unfold State.setUp
  iterate 40 all_goals try first
    | with_reducible exact h0
    | with_reducible assumption
    | with_reducible refine State.Kept.ite ?_ ?_
    | with_reducible refine State.eachEng_kept ?_ ..
    | with_reducible refine State.Kept.upto _ _ ?_ (fun _ _ _ => ?_)
    | with_reducible refine State.Kept.fold _ _ ?_ (fun _ _ _ => ?_)
    | with_reducible split
    | with_reducible refine State.Kept.col ?_
    | with_reducible refine State.Kept.lit ?_

theorem State.opCfg_kept {r0 s : State} (h0 : r0.Kept s) (c : Nat) (g : Nat) (mode : Nat) (wt : Nat) (aty : Nat) (mask : Nat) : r0.Kept (State.opCfg s c g mode wt aty mask) := by
  unfold State.opCfg
  iterate 40 all_goals try first
    | with_reducible exact h0
    | with_reducible assumption
    | with_reducible refine State.Kept.ite ?_ ?_
    | with_reducible refine State.setUp_kept ?_ ..
    | with_reducible refine State.Kept.upto _ _ ?_ (fun _ _ _ => ?_)
    | with_reducible refine State.Kept.fold _ _ ?_ (fun _ _ _ => ?_)
    | with_reducible split
    | with_reducible refine State.Kept.col ?_
    | with_reducible refine State.Kept.lit ?_

theorem State.opClr_kept {r0 s : State} (h0 : r0.Kept s) (c : Nat) (g : Nat) (scope : Bool) : r0.Kept (State.opClr s c g scope) := by
  unfold State.opClr
  iterate 40 all_goals try first
    | with_reducible exact h0
    | with_reducible assumption
    | with_reducible refine State.Kept.ite ?_ ?_
    | with_reducible refine State.setUp_kept ?_ ..
    | with_reducible refine State.Kept.upto _ _ ?_ (fun _ _ _ => ?_)
    | with_reducible refine State.Kept.fold _ _ ?_ (fun _ _ _ => ?_)
    | with_reducible split
    | with_reducible refine State.Kept.col ?_
    | with_reducible refine State.Kept.lit ?_

theorem State.opOpb_kept {r0 s : State} (h0 : r0.Kept s) (c : Nat) (g : Nat) (toSs : Bool) (off : Nat) (d : Cell64) : r0.Kept (State.opOpb s c g toSs off d) := by
  unfold State.opOpb
  iterate 40 all_goals try first
    | with_reducible exact h0
    | with_reducible assumption
    | with_reducible refine State.Kept.ite ?_ ?_
    | with_reducible refine State.setUp_kept ?_ ..
    | with_reducible refine State.Kept.upto _ _ ?_ (fun _ _ _ => ?_)
    | with_reducible refine State.Kept.fold _ _ ?_ (fun _ _ _ => ?_)
    | with_reducible split
    | with_reducible refine State.Kept.col ?_
    | with_reducible refine State.Kept.lit ?_

theorem State.opActa_kept {r0 s : State} (h0 : r0.Kept s) (c : Nat) (g : Nat) (row : Nat) : r0.Kept (State.opActa s c g row) := by
  unfold State.opActa
  iterate 40 all_goals try first
    | with_reducible exact h0
    | with_reducible assumption
    | with_reducible refine State.Kept.ite ?_ ?_
    | with_reducible refine State.activate_kept ?_ ..
    | with_reducible refine State.countB_kept ?_ ..
    | with_reducible refine State.eachEng_kept ?_ ..
    | with_reducible refine State.seqError_kept ?_ ..
    | with_reducible refine State.Kept.upto _ _ ?_ (fun _ _ _ => ?_)
    | with_reducible refine State.Kept.fold _ _ ?_ (fun _ _ _ => ?_)
    | with_reducible split
    | with_reducible refine State.Kept.col ?_
    | with_reducible refine State.Kept.lit ?_

theorem State.opPrea_kept {r0 s : State} (h0 : r0.Kept s) (c : Nat) (g : Nat) : r0.Kept (State.opPrea s c g) := by
  unfold State.opPrea
  iterate 40 all_goals try first
    | with_reducible exact h0
    | with_reducible assumption
    | with_reducible refine State.Kept.ite ?_ ?_
    | with_reducible refine State.eachEng_kept ?_ ..
    | with_reducible refine State.Kept.upto _ _ ?_ (fun _ _ _ => ?_)
    | with_reducible refine State.Kept.fold _ _ ?_ (fun _ _ _ => ?_)
    | with_reducible split
    | with_reducible refine State.Kept.col ?_
    | with_reducible refine State.Kept.lit ?_

theorem State.colError_kept {r0 s : State} (h0 : r0.Kept s) (c : Nat) (g : Nat) (op : Nat) (needsMode : Bool) : r0.Kept (State.colError s c g op needsMode) := by
  unfold State.colError
  iterate 40 all_goals try first
    | with_reducible exact h0
    | with_reducible assumption
    | with_reducible refine State.Kept.ite ?_ ?_
    | with_reducible refine State.seqError_kept ?_ ..
    | with_reducible refine State.Kept.upto _ _ ?_ (fun _ _ _ => ?_)
    | with_reducible refine State.Kept.fold _ _ ?_ (fun _ _ _ => ?_)
    | with_reducible split
    | with_reducible refine State.Kept.col ?_
    | with_reducible refine State.Kept.lit ?_

theorem State.opCmp_kept {r0 s : State} (h0 : r0.Kept s) (c : Nat) (g : Nat) (b : CmpBurst) (i : Nat) : r0.Kept (State.opCmp s c g b i) := by
  unfold State.opCmp
  iterate 40 all_goals try first
    | with_reducible exact h0
    | with_reducible assumption
    | with_reducible refine State.Kept.ite ?_ ?_
    | with_reducible refine State.colError_kept ?_ ..
    | with_reducible refine State.countB_kept ?_ ..
    | with_reducible refine State.eachRead_kept ?_ ..
    | with_reducible refine State.Kept.upto _ _ ?_ (fun _ _ _ => ?_)
    | with_reducible refine State.Kept.fold _ _ ?_ (fun _ _ _ => ?_)
    | with_reducible split
    | with_reducible refine State.Kept.col ?_
    | with_reducible refine State.Kept.lit ?_

theorem State.burstCmp_kept {r0 s : State} (h0 : r0.Kept s) (c : Nat) (g : Nat) (b : CmpBurst) (i0 : Nat) (k : Nat) : r0.Kept (State.burstCmp s c g b i0 k) := by
  unfold State.burstCmp
  iterate 40 all_goals try first
    | with_reducible exact h0
    | with_reducible assumption
    | with_reducible refine State.Kept.ite ?_ ?_
    | with_reducible refine State.opCmp_kept ?_ ..
    | with_reducible refine State.seqError_kept ?_ ..
    | with_reducible refine State.Kept.upto _ _ ?_ (fun _ _ _ => ?_)
    | with_reducible refine State.Kept.fold _ _ ?_ (fun _ _ _ => ?_)
    | with_reducible split
    | with_reducible refine State.Kept.col ?_
    | with_reducible refine State.Kept.lit ?_

theorem State.burstScl_kept {r0 s : State} (h0 : r0.Kept s) (c : Nat) (g : Nat) (c0 : Nat) (n : Nat) (o0 : Nat) (i0 : Nat) (k : Nat) : r0.Kept (State.burstScl s c g c0 n o0 i0 k) := by
  unfold State.burstScl
  iterate 40 all_goals try first
    | with_reducible exact h0
    | with_reducible assumption
    | with_reducible refine State.Kept.ite ?_ ?_
    | with_reducible refine State.colError_kept ?_ ..
    | with_reducible refine State.eachRead_kept ?_ ..
    | with_reducible refine State.seqError_kept ?_ ..
    | with_reducible refine State.Kept.upto _ _ ?_ (fun _ _ _ => ?_)
    | with_reducible refine State.Kept.fold _ _ ?_ (fun _ _ _ => ?_)
    | with_reducible split
    | with_reducible refine State.Kept.col ?_
    | with_reducible refine State.Kept.lit ?_

theorem State.burstSld_kept {r0 s : State} (h0 : r0.Kept s) (c : Nat) (g : Nat) (c0 : Nat) (n : Nat) (o0 : Nat) (i0 : Nat) (k : Nat) : r0.Kept (State.burstSld s c g c0 n o0 i0 k) := by
  unfold State.burstSld
  iterate 40 all_goals try first
    | with_reducible exact h0
    | with_reducible assumption
    | with_reducible refine State.Kept.ite ?_ ?_
    | with_reducible refine State.colError_kept ?_ ..
    | with_reducible refine State.eachRead_kept ?_ ..
    | with_reducible refine State.seqError_kept ?_ ..
    | with_reducible refine State.Kept.upto _ _ ?_ (fun _ _ _ => ?_)
    | with_reducible refine State.Kept.fold _ _ ?_ (fun _ _ _ => ?_)
    | with_reducible split
    | with_reducible refine State.Kept.col ?_
    | with_reducible refine State.Kept.lit ?_

theorem State.burstBlw_kept {r0 s : State} (h0 : r0.Kept s) (c : Nat) (g : Nat) (c0 : Nat) (n : Nat) (o0 : Nat) (i0 : Nat) (k : Nat) : r0.Kept (State.burstBlw s c g c0 n o0 i0 k) := by
  unfold State.burstBlw
  iterate 40 all_goals try first
    | with_reducible exact h0
    | with_reducible assumption
    | with_reducible refine State.Kept.ite ?_ ?_
    | with_reducible refine State.colError_kept ?_ ..
    | with_reducible refine State.eachWrite_kept ?_ ..
    | with_reducible refine State.seqError_kept ?_ ..
    | with_reducible refine State.Kept.upto _ _ ?_ (fun _ _ _ => ?_)
    | with_reducible refine State.Kept.fold _ _ ?_ (fun _ _ _ => ?_)
    | with_reducible split
    | with_reducible refine State.Kept.col ?_
    | with_reducible refine State.Kept.lit ?_

theorem State.burstRcr_kept {r0 s : State} (h0 : r0.Kept s) (c : Nat) (g : Nat) (c0 : Nat) (n : Nat) (i0 : Nat) (k : Nat) : r0.Kept (State.burstRcr s c g c0 n i0 k) := by
  unfold State.burstRcr
  iterate 40 all_goals try first
    | with_reducible exact h0
    | with_reducible assumption
    | with_reducible refine State.Kept.ite ?_ ?_
    | with_reducible refine State.colError_kept ?_ ..
    | with_reducible refine State.eachRead_kept ?_ ..
    | with_reducible refine State.seqError_kept ?_ ..
    | with_reducible refine State.Kept.upto _ _ ?_ (fun _ _ _ => ?_)
    | with_reducible refine State.Kept.fold _ _ ?_ (fun _ _ _ => ?_)
    | with_reducible split
    | with_reducible refine State.Kept.col ?_
    | with_reducible refine State.Kept.lit ?_

theorem State.burstRcw_kept {r0 s : State} (h0 : r0.Kept s) (c : Nat) (g : Nat) (c0 : Nat) (n : Nat) (i0 : Nat) (k : Nat) : r0.Kept (State.burstRcw s c g c0 n i0 k) := by
  unfold State.burstRcw
  iterate 40 all_goals try first
    | with_reducible exact h0
    | with_reducible assumption
    | with_reducible refine State.Kept.ite ?_ ?_
    | with_reducible refine State.colError_kept ?_ ..
    | with_reducible refine State.eachWrite_kept ?_ ..
    | with_reducible refine State.seqError_kept ?_ ..
    | with_reducible refine State.Kept.upto _ _ ?_ (fun _ _ _ => ?_)
    | with_reducible refine State.Kept.fold _ _ ?_ (fun _ _ _ => ?_)
    | with_reducible split
    | with_reducible refine State.Kept.col ?_
    | with_reducible refine State.Kept.lit ?_

theorem State.opExit_kept {r0 s : State} (h0 : r0.Kept s) (c : Nat) : r0.Kept (State.opExit s c) := by
  unfold State.opExit
  iterate 40 all_goals try first
    | with_reducible exact h0
    | with_reducible assumption
    | with_reducible refine State.Kept.ite ?_ ?_
    | with_reducible refine State.setCc_kept ?_ ..
    | with_reducible refine State.setEng_kept ?_ ..
    | with_reducible refine State.Kept.upto _ _ ?_ (fun _ _ _ => ?_)
    | with_reducible refine State.Kept.fold _ _ ?_ (fun _ _ _ => ?_)
    | with_reducible split
    | with_reducible refine State.Kept.col ?_
    | with_reducible refine State.Kept.lit ?_

theorem State.opEnter_kept {r0 s : State} (h0 : r0.Kept s) (c : Nat) : r0.Kept (State.opEnter s c) := by
  unfold State.opEnter
  iterate 40 all_goals try first
    | with_reducible exact h0
    | with_reducible assumption
    | with_reducible refine State.Kept.ite ?_ ?_
    | with_reducible refine State.seqError_kept ?_ ..
    | with_reducible refine State.setCc_kept ?_ ..
    | with_reducible refine State.setEng_kept ?_ ..
    | with_reducible refine State.Kept.upto _ _ ?_ (fun _ _ _ => ?_)
    | with_reducible refine State.Kept.fold _ _ ?_ (fun _ _ _ => ?_)
    | with_reducible split
    | with_reducible refine State.Kept.col ?_
    | with_reducible refine State.Kept.lit ?_

theorem State.opAbt_kept {r0 s : State} (h0 : r0.Kept s) (c : Nat) (g : Nat) : r0.Kept (State.opAbt s c g) := by
  unfold State.opAbt
  iterate 40 all_goals try first
    | with_reducible exact h0
    | with_reducible assumption
    | with_reducible refine State.Kept.ite ?_ ?_
    | with_reducible refine State.eachEng_kept ?_ ..
    | with_reducible refine State.Kept.upto _ _ ?_ (fun _ _ _ => ?_)
    | with_reducible refine State.Kept.fold _ _ ?_ (fun _ _ _ => ?_)
    | with_reducible split
    | with_reducible refine State.Kept.col ?_
    | with_reducible refine State.Kept.lit ?_

theorem State.maskHits_kept {r0 s : State} (h0 : r0.Kept s) (c : Nat) (g : Nat) (mask : Nat) : r0.Kept (State.maskHits s c g mask) := by
  unfold State.maskHits
  iterate 40 all_goals try first
    | with_reducible exact h0
    | with_reducible assumption
    | with_reducible refine State.Kept.ite ?_ ?_
    | with_reducible refine State.emit_kept ?_ ..
    | with_reducible refine State.raise_kept ?_ ..
    | with_reducible refine State.Kept.upto _ _ ?_ (fun _ _ _ => ?_)
    | with_reducible refine State.Kept.fold _ _ ?_ (fun _ _ _ => ?_)
    | with_reducible split
    | with_reducible refine State.Kept.col ?_
    | with_reducible refine State.Kept.lit ?_

theorem State.contribute_kept {r0 s : State} (h0 : r0.Kept s) (c : Nat) (x : Contribution) : r0.Kept (State.contribute s c x) := by
  unfold State.contribute
  iterate 40 all_goals try first
    | with_reducible exact h0
    | with_reducible assumption
    | with_reducible refine State.Kept.ite ?_ ?_
    | with_reducible refine State.setBd_kept ?_ ..
    | with_reducible refine State.Kept.upto _ _ ?_ (fun _ _ _ => ?_)
    | with_reducible refine State.Kept.fold _ _ ?_ (fun _ _ _ => ?_)
    | with_reducible split
    | with_reducible refine State.Kept.col ?_
    | with_reducible refine State.Kept.lit ?_

theorem State.standIn_kept {r0 s : State} (h0 : r0.Kept s) (c : Nat) (r : PassReq) : r0.Kept (State.standIn s c r) := by
  unfold State.standIn
  iterate 40 all_goals try first
    | with_reducible exact h0
    | with_reducible assumption
    | with_reducible refine State.Kept.ite ?_ ?_
    | with_reducible refine State.contribute_kept ?_ ..
    | with_reducible refine State.Kept.upto _ _ ?_ (fun _ _ _ => ?_)
    | with_reducible refine State.Kept.fold _ _ ?_ (fun _ _ _ => ?_)
    | with_reducible split
    | with_reducible refine State.Kept.col ?_
    | with_reducible refine State.Kept.lit ?_

theorem State.drain_kept {r0 s : State} (h0 : r0.Kept s) (c : Nat) (r : PassReq) : r0.Kept (State.drain s c r) := by
  unfold State.drain
  iterate 40 all_goals try first
    | with_reducible exact h0
    | with_reducible assumption
    | with_reducible refine State.Kept.ite ?_ ?_
    | with_reducible refine State.contribute_kept ?_ ..
    | with_reducible refine State.maskHits_kept ?_ ..
    | with_reducible refine State.Kept.upto _ _ ?_ (fun _ _ _ => ?_)
    | with_reducible refine State.Kept.fold _ _ ?_ (fun _ _ _ => ?_)
    | with_reducible split
    | with_reducible refine State.Kept.col ?_
    | with_reducible refine State.Kept.lit ?_

theorem State.panicEnd_kept {r0 s : State} (h0 : r0.Kept s) (c : Nat) (tag : Nat) : r0.Kept (State.panicEnd s c tag) := by
  unfold State.panicEnd
  iterate 40 all_goals try first
    | with_reducible exact h0
    | with_reducible assumption
    | with_reducible refine State.Kept.ite ?_ ?_
    | with_reducible refine State.countC_kept ?_ ..
    | with_reducible refine State.emit_kept ?_ ..
    | with_reducible refine State.setCc_kept ?_ ..
    | with_reducible refine State.Kept.upto _ _ ?_ (fun _ _ _ => ?_)
    | with_reducible refine State.Kept.fold _ _ ?_ (fun _ _ _ => ?_)
    | with_reducible split
    | with_reducible refine State.Kept.col ?_
    | with_reducible refine State.Kept.lit ?_

theorem State.panicCheck_kept {r0 s : State} (h0 : r0.Kept s) (c : Nat) : r0.Kept (State.panicCheck s c) := by
  unfold State.panicCheck
  iterate 40 all_goals try first
    | with_reducible exact h0
    | with_reducible assumption
    | with_reducible refine State.Kept.ite ?_ ?_
    | with_reducible refine State.panicEnd_kept ?_ ..
    | with_reducible refine State.setCc_kept ?_ ..
    | with_reducible refine State.Kept.upto _ _ ?_ (fun _ _ _ => ?_)
    | with_reducible refine State.Kept.fold _ _ ?_ (fun _ _ _ => ?_)
    | with_reducible split
    | with_reducible refine State.Kept.col ?_
    | with_reducible refine State.Kept.lit ?_

theorem State.perform_kept {r0 s : State} (h0 : r0.Kept s) (c : Nat) (a : Active) (m : PCmd) : r0.Kept (State.perform s c a m) := by
  unfold State.perform
  iterate 40 all_goals try first
    | with_reducible exact h0
    | with_reducible assumption
    | with_reducible refine State.Kept.ite ?_ ?_
    | with_reducible refine State.burstBlw_kept ?_ ..
    | with_reducible refine State.burstCmp_kept ?_ ..
    | with_reducible refine State.burstRcr_kept ?_ ..
    | with_reducible refine State.burstRcw_kept ?_ ..
    | with_reducible refine State.burstScl_kept ?_ ..
    | with_reducible refine State.burstSld_kept ?_ ..
    | with_reducible refine State.drain_kept ?_ ..
    | with_reducible refine State.effect_kept ?_ ..
    | with_reducible refine State.opActa_kept ?_ ..
    | with_reducible refine State.opCfg_kept ?_ ..
    | with_reducible refine State.opClr_kept ?_ ..
    | with_reducible refine State.opExit_kept ?_ ..
    | with_reducible refine State.opOpb_kept ?_ ..
    | with_reducible refine State.opPrea_kept ?_ ..
    | with_reducible refine State.seqError_kept ?_ ..
    | with_reducible refine State.setCc_kept ?_ ..
    | with_reducible refine State.Kept.upto _ _ ?_ (fun _ _ _ => ?_)
    | with_reducible refine State.Kept.fold _ _ ?_ (fun _ _ _ => ?_)
    | with_reducible split
    | with_reducible refine State.Kept.col ?_
    | with_reducible refine State.Kept.lit ?_

theorem State.gapRefresh_kept {r0 s : State} (h0 : r0.Kept s) (n c : Nat) : r0.Kept (State.gapRefresh n s c) := by
  induction n generalizing s  with
  | zero => exact h0
  | succ n ih =>
    unfold State.gapRefresh
    iterate 40 all_goals try first
      | with_reducible exact h0
      | with_reducible assumption
      | with_reducible refine ih ?_
      | with_reducible refine State.Kept.ite ?_ ?_
      | with_reducible refine State.issueRefresh_kept ?_ ..
      | with_reducible refine State.Kept.upto _ _ ?_ (fun _ _ _ => ?_)
      | with_reducible refine State.Kept.fold _ _ ?_ (fun _ _ _ => ?_)
      | with_reducible split
      | with_reducible refine State.Kept.col ?_
      | with_reducible refine State.Kept.lit ?_

theorem State.refreshFirst_kept {r0 s : State} (h0 : r0.Kept s) (c : Nat) : r0.Kept (State.refreshFirst s c) := by
  unfold State.refreshFirst
  iterate 40 all_goals try first
    | with_reducible exact h0
    | with_reducible assumption
    | with_reducible refine State.Kept.ite ?_ ?_
    | with_reducible refine State.gapRefresh_kept ?_ ..
    | with_reducible refine State.Kept.upto _ _ ?_ (fun _ _ _ => ?_)
    | with_reducible refine State.Kept.fold _ _ ?_ (fun _ _ _ => ?_)
    | with_reducible split
    | with_reducible refine State.Kept.col ?_
    | with_reducible refine State.Kept.lit ?_

theorem State.endGap_kept {r0 s : State} (h0 : r0.Kept s) (c : Nat) (g : Nat) : r0.Kept (State.endGap s c g) := by
  unfold State.endGap
  iterate 40 all_goals try first
    | with_reducible exact h0
    | with_reducible assumption
    | with_reducible refine State.Kept.ite ?_ ?_
    | with_reducible refine State.closeRow_kept ?_ ..
    | with_reducible refine State.gapServe_kept ?_ ..
    | with_reducible refine State.refreshFirst_kept ?_ ..
    | with_reducible refine State.Kept.upto _ _ ?_ (fun _ _ _ => ?_)
    | with_reducible refine State.Kept.fold _ _ ?_ (fun _ _ _ => ?_)
    | with_reducible split
    | with_reducible refine State.Kept.col ?_
    | with_reducible refine State.Kept.lit ?_

theorem State.issue_kept {r0 s : State} (h0 : r0.Kept s) (c : Nat) (a : Active) (m : PCmd) : r0.Kept (State.issue s c a m) := by
  unfold State.issue
  iterate 40 all_goals try first
    | with_reducible exact h0
    | with_reducible assumption
    | with_reducible refine State.Kept.ite ?_ ?_
    | with_reducible refine State.bankCmd_kept ?_ ..
    | with_reducible refine State.endGap_kept ?_ ..
    | with_reducible refine State.perform_kept ?_ ..
    | with_reducible refine State.Kept.upto _ _ ?_ (fun _ _ _ => ?_)
    | with_reducible refine State.Kept.fold _ _ ?_ (fun _ _ _ => ?_)
    | with_reducible split
    | with_reducible refine State.Kept.col ?_
    | with_reducible refine State.Kept.lit ?_

theorem State.setTodo_kept {r0 s : State} (h0 : r0.Kept s) (c : Nat) (l : List PCmd) : r0.Kept (State.setTodo s c l) := by
  unfold State.setTodo
  iterate 40 all_goals try first
    | with_reducible exact h0
    | with_reducible assumption
    | with_reducible refine State.Kept.ite ?_ ?_
    | with_reducible refine State.setCc_kept ?_ ..
    | with_reducible refine State.Kept.upto _ _ ?_ (fun _ _ _ => ?_)
    | with_reducible refine State.Kept.fold _ _ ?_ (fun _ _ _ => ?_)
    | with_reducible split
    | with_reducible refine State.Kept.col ?_
    | with_reducible refine State.Kept.lit ?_

theorem State.issueAll_kept {r0 s : State} (h0 : r0.Kept s) (n c : Nat) : r0.Kept (State.issueAll n s c) := by
  induction n generalizing s  with
  | zero => exact h0
  | succ n ih =>
    unfold State.issueAll
    iterate 40 all_goals try first
      | with_reducible exact h0
      | with_reducible assumption
      | with_reducible refine ih ?_
      | with_reducible refine State.Kept.ite ?_ ?_
      | with_reducible refine State.issue_kept ?_ ..
      | with_reducible refine State.setTodo_kept ?_ ..
      | with_reducible refine State.Kept.upto _ _ ?_ (fun _ _ _ => ?_)
      | with_reducible refine State.Kept.fold _ _ ?_ (fun _ _ _ => ?_)
      | with_reducible split
      | with_reducible refine State.Kept.col ?_
      | with_reducible refine State.Kept.lit ?_

theorem State.fetchOne_kept {r0 s : State} (h0 : r0.Kept s) (c : Nat) : r0.Kept (State.fetchOne s c) := by
  unfold State.fetchOne
  iterate 40 all_goals try first
    | with_reducible exact h0
    | with_reducible assumption
    | with_reducible refine State.Kept.ite ?_ ?_
    | with_reducible refine State.emit_kept ?_ ..
    | with_reducible refine State.nocError_kept ?_ ..
    | with_reducible refine State.setCc_kept ?_ ..
    | with_reducible refine State.Kept.upto _ _ ?_ (fun _ _ _ => ?_)
    | with_reducible refine State.Kept.fold _ _ ?_ (fun _ _ _ => ?_)
    | with_reducible split
    | with_reducible refine State.Kept.col ?_
    | with_reducible refine State.Kept.lit ?_

theorem State.reject_kept {r0 s : State} (h0 : r0.Kept s) (c : Nat) (r : PassReq) (reason : Nat) : r0.Kept (State.reject s c r reason) := by
  unfold State.reject
  iterate 40 all_goals try first
    | with_reducible exact h0
    | with_reducible assumption
    | with_reducible refine State.Kept.ite ?_ ?_
    | with_reducible refine State.emit_kept ?_ ..
    | with_reducible refine State.raise_kept ?_ ..
    | with_reducible refine State.standIn_kept ?_ ..
    | with_reducible refine State.wr_kept ?_ ..
    | with_reducible refine State.Kept.upto _ _ ?_ (fun _ _ _ => ?_)
    | with_reducible refine State.Kept.fold _ _ ?_ (fun _ _ _ => ?_)
    | with_reducible split
    | with_reducible refine State.Kept.col ?_
    | with_reducible refine State.Kept.lit ?_

theorem State.claim_kept {r0 s : State} (h0 : r0.Kept s) (c : Nat) : r0.Kept (State.claim s c) := by
  unfold State.claim
  iterate 40 all_goals try first
    | with_reducible exact h0
    | with_reducible assumption
    | with_reducible refine State.Kept.ite ?_ ?_
    | with_reducible refine State.closeRow_kept ?_ ..
    | with_reducible refine State.flushPool_kept ?_ ..
    | with_reducible refine State.pdx_kept ?_ ..
    | with_reducible refine State.refreshFirst_kept ?_ ..
    | with_reducible refine State.setBd_kept ?_ ..
    | with_reducible refine State.setCc_kept ?_ ..
    | with_reducible refine State.Kept.upto _ _ ?_ (fun _ _ _ => ?_)
    | with_reducible refine State.Kept.fold _ _ ?_ (fun _ _ _ => ?_)
    | with_reducible split
    | with_reducible refine State.Kept.col ?_
    | with_reducible refine State.Kept.lit ?_

theorem State.release_kept {r0 s : State} (h0 : r0.Kept s) (c : Nat) : r0.Kept (State.release s c) := by
  unfold State.release
  iterate 40 all_goals try first
    | with_reducible exact h0
    | with_reducible assumption
    | with_reducible refine State.Kept.ite ?_ ?_
    | with_reducible refine State.setBd_kept ?_ ..
    | with_reducible refine State.setCc_kept ?_ ..
    | with_reducible refine State.Kept.upto _ _ ?_ (fun _ _ _ => ?_)
    | with_reducible refine State.Kept.fold _ _ ?_ (fun _ _ _ => ?_)
    | with_reducible split
    | with_reducible refine State.Kept.col ?_
    | with_reducible refine State.Kept.lit ?_

theorem State.unlock_kept {r0 s : State} (h0 : r0.Kept s) (c : Nat) (ok : Bool) : r0.Kept (State.unlock s c ok) := by
  unfold State.unlock
  iterate 40 all_goals try first
    | with_reducible exact h0
    | with_reducible assumption
    | with_reducible refine State.Kept.ite ?_ ?_
    | with_reducible refine State.bankCmd_kept ?_ ..
    | with_reducible refine State.opEnter_kept ?_ ..
    | with_reducible refine State.refreshFirst_kept ?_ ..
    | with_reducible refine State.setCc_kept ?_ ..
    | with_reducible refine State.Kept.upto _ _ ?_ (fun _ _ _ => ?_)
    | with_reducible refine State.Kept.fold _ _ ?_ (fun _ _ _ => ?_)
    | with_reducible split
    | with_reducible refine State.Kept.col ?_
    | with_reducible refine State.Kept.lit ?_

theorem State.passEnd_kept {r0 s : State} (h0 : r0.Kept s) (c : Nat) : r0.Kept (State.passEnd s c) := by
  unfold State.passEnd
  iterate 40 all_goals try first
    | with_reducible exact h0
    | with_reducible assumption
    | with_reducible refine State.Kept.ite ?_ ?_
    | with_reducible refine State.bankCmd_kept ?_ ..
    | with_reducible refine State.countC_kept ?_ ..
    | with_reducible refine State.effects_kept ?_ ..
    | with_reducible refine State.emit_kept ?_ ..
    | with_reducible refine State.opAbt_kept ?_ ..
    | with_reducible refine State.panicEnd_kept ?_ ..
    | with_reducible refine State.release_kept ?_ ..
    | with_reducible refine State.Kept.upto _ _ ?_ (fun _ _ _ => ?_)
    | with_reducible refine State.Kept.fold _ _ ?_ (fun _ _ _ => ?_)
    | with_reducible split
    | with_reducible refine State.Kept.col ?_
    | with_reducible refine State.Kept.lit ?_

theorem State.endIfDone_kept {r0 s : State} (h0 : r0.Kept s) (c : Nat) : r0.Kept (State.endIfDone s c) := by
  unfold State.endIfDone
  iterate 40 all_goals try first
    | with_reducible exact h0
    | with_reducible assumption
    | with_reducible refine State.Kept.ite ?_ ?_
    | with_reducible refine State.passEnd_kept ?_ ..
    | with_reducible refine State.Kept.upto _ _ ?_ (fun _ _ _ => ?_)
    | with_reducible refine State.Kept.fold _ _ ?_ (fun _ _ _ => ?_)
    | with_reducible split
    | with_reducible refine State.Kept.col ?_
    | with_reducible refine State.Kept.lit ?_

theorem State.fetchAll_kept {r0 s : State} (h0 : r0.Kept s) (c : Nat) : r0.Kept (State.fetchAll s c) := by
  unfold State.fetchAll
  iterate 40 all_goals try first
    | with_reducible exact h0
    | with_reducible assumption
    | with_reducible refine State.Kept.ite ?_ ?_
    | with_reducible refine State.fetchOne_kept ?_ ..
    | with_reducible refine State.Kept.upto _ _ ?_ (fun _ _ _ => ?_)
    | with_reducible refine State.Kept.fold _ _ ?_ (fun _ _ _ => ?_)
    | with_reducible split
    | with_reducible refine State.Kept.col ?_
    | with_reducible refine State.Kept.lit ?_

theorem State.enterPim_kept {r0 s : State} (h0 : r0.Kept s) (c : Nat) (ok : Bool) : r0.Kept (State.enterPim s c ok) := by
  unfold State.enterPim
  iterate 40 all_goals try first
    | with_reducible exact h0
    | with_reducible assumption
    | with_reducible refine State.Kept.ite ?_ ?_
    | with_reducible refine State.setCc_kept ?_ ..
    | with_reducible refine State.unlock_kept ?_ ..
    | with_reducible refine State.Kept.upto _ _ ?_ (fun _ _ _ => ?_)
    | with_reducible refine State.Kept.fold _ _ ?_ (fun _ _ _ => ?_)
    | with_reducible split
    | with_reducible refine State.Kept.col ?_
    | with_reducible refine State.Kept.lit ?_

theorem State.runRest_kept {r0 s : State} (h0 : r0.Kept s) (c : Nat) : r0.Kept (State.runRest s c) := by
  unfold State.runRest
  iterate 40 all_goals try first
    | with_reducible exact h0
    | with_reducible assumption
    | with_reducible refine State.Kept.ite ?_ ?_
    | with_reducible refine State.endIfDone_kept ?_ ..
    | with_reducible refine State.fetchAll_kept ?_ ..
    | with_reducible refine State.issueAll_kept ?_ ..
    | with_reducible refine State.panicCheck_kept ?_ ..
    | with_reducible refine State.refreshFirst_kept ?_ ..
    | with_reducible refine State.setCc_kept ?_ ..
    | with_reducible refine State.Kept.upto _ _ ?_ (fun _ _ _ => ?_)
    | with_reducible refine State.Kept.fold _ _ ?_ (fun _ _ _ => ?_)
    | with_reducible split
    | with_reducible refine State.Kept.col ?_
    | with_reducible refine State.Kept.lit ?_

theorem State.rejectHead_kept {r0 s : State} (h0 : r0.Kept s) (c : Nat) : r0.Kept (State.rejectHead s c) := by
  unfold State.rejectHead
  iterate 40 all_goals try first
    | with_reducible exact h0
    | with_reducible assumption
    | with_reducible refine State.Kept.ite ?_ ?_
    | with_reducible refine State.reject_kept ?_ ..
    | with_reducible refine State.setCc_kept ?_ ..
    | with_reducible refine State.Kept.upto _ _ ?_ (fun _ _ _ => ?_)
    | with_reducible refine State.Kept.fold _ _ ?_ (fun _ _ _ => ?_)
    | with_reducible split
    | with_reducible refine State.Kept.col ?_
    | with_reducible refine State.Kept.lit ?_

theorem passRow_kept {r0 s : State} (h0 : r0.Kept s) (kind : Nat) (c : Nat) (unlockOk : Bool) (strikes : List Strike) : r0.Kept (passRow kind c unlockOk strikes s) := by
  unfold passRow
  iterate 40 all_goals try first
    | with_reducible exact h0
    | with_reducible assumption
    | with_reducible refine State.Kept.ite ?_ ?_
    | with_reducible refine State.claim_kept ?_ ..
    | with_reducible refine State.enterPim_kept ?_ ..
    | with_reducible refine State.rejectHead_kept ?_ ..
    | with_reducible refine State.runRest_kept ?_ ..
    | with_reducible refine State.strike_kept ?_ ..
    | with_reducible refine State.Kept.upto _ _ ?_ (fun _ _ _ => ?_)
    | with_reducible refine State.Kept.fold _ _ ?_ (fun _ _ _ => ?_)
    | with_reducible split
    | with_reducible refine State.Kept.col ?_
    | with_reducible refine State.Kept.lit ?_

theorem exitPass_kept {r0 s : State} (h0 : r0.Kept s) (c : Nat) : r0.Kept (exitPass c s) := by
  unfold exitPass
  iterate 40 all_goals try first
    | with_reducible exact h0
    | with_reducible assumption
    | with_reducible refine State.Kept.ite ?_ ?_
    | with_reducible refine State.claim_kept ?_ ..
    | with_reducible refine State.issue_kept ?_ ..
    | with_reducible refine State.passEnd_kept ?_ ..
    | with_reducible refine State.refreshFirst_kept ?_ ..
    | with_reducible refine State.rejectHead_kept ?_ ..
    | with_reducible refine State.setTodo_kept ?_ ..
    | with_reducible refine State.Kept.upto _ _ ?_ (fun _ _ _ => ?_)
    | with_reducible refine State.Kept.fold _ _ ?_ (fun _ _ _ => ?_)
    | with_reducible split
    | with_reducible refine State.Kept.col ?_
    | with_reducible refine State.Kept.lit ?_

theorem passGroupClaim_kept {r0 s : State} (h0 : r0.Kept s) (c : Nat) : r0.Kept (passGroupClaim c s) := by
  unfold passGroupClaim
  iterate 40 all_goals try first
    | with_reducible exact h0
    | with_reducible assumption
    | with_reducible refine State.Kept.ite ?_ ?_
    | with_reducible refine State.claim_kept ?_ ..
    | with_reducible refine State.panicCheck_kept ?_ ..
    | with_reducible refine State.Kept.upto _ _ ?_ (fun _ _ _ => ?_)
    | with_reducible refine State.Kept.fold _ _ ?_ (fun _ _ _ => ?_)
    | with_reducible split
    | with_reducible refine State.Kept.col ?_
    | with_reducible refine State.Kept.lit ?_

theorem State.passArrive_kept {r0 s : State} (h0 : r0.Kept s) (c : Nat) (r : PassReq) : r0.Kept (State.passArrive s c r) := by
  unfold State.passArrive
  iterate 40 all_goals try first
    | with_reducible exact h0
    | with_reducible assumption
    | with_reducible refine State.Kept.ite ?_ ?_
    | with_reducible refine State.emit_kept ?_ ..
    | with_reducible refine State.setCc_kept ?_ ..
    | with_reducible refine State.standIn_kept ?_ ..
    | with_reducible refine State.Kept.upto _ _ ?_ (fun _ _ _ => ?_)
    | with_reducible refine State.Kept.fold _ _ ?_ (fun _ _ _ => ?_)
    | with_reducible split
    | with_reducible refine State.Kept.col ?_
    | with_reducible refine State.Kept.lit ?_

theorem passInstruction_kept {r0 s : State} (h0 : r0.Kept s) (c : Nat) (t : Nat) (pkt : Pkt) : r0.Kept (passInstruction c t pkt s) := by
  unfold passInstruction
  iterate 40 all_goals try first
    | with_reducible exact h0
    | with_reducible assumption
    | with_reducible refine State.Kept.ite ?_ ?_
    | with_reducible refine State.passArrive_kept ?_ ..
    | with_reducible refine State.Kept.upto _ _ ?_ (fun _ _ _ => ?_)
    | with_reducible refine State.Kept.fold _ _ ?_ (fun _ _ _ => ?_)
    | with_reducible split
    | with_reducible refine State.Kept.col ?_
    | with_reducible refine State.Kept.lit ?_

theorem unlockRetry_kept {r0 s : State} (h0 : r0.Kept s) (c : Nat) (ok : Bool) : r0.Kept (unlockRetry c ok s) := by
  unfold unlockRetry
  iterate 40 all_goals try first
    | with_reducible exact h0
    | with_reducible assumption
    | with_reducible refine State.Kept.ite ?_ ?_
    | with_reducible refine State.emit_kept ?_ ..
    | with_reducible refine State.panicCheck_kept ?_ ..
    | with_reducible refine State.panicEnd_kept ?_ ..
    | with_reducible refine State.reject_kept ?_ ..
    | with_reducible refine State.release_kept ?_ ..
    | with_reducible refine State.setCc_kept ?_ ..
    | with_reducible refine State.unlock_kept ?_ ..
    | with_reducible refine State.Kept.upto _ _ ?_ (fun _ _ _ => ?_)
    | with_reducible refine State.Kept.fold _ _ ?_ (fun _ _ _ => ?_)
    | with_reducible split
    | with_reducible refine State.Kept.col ?_
    | with_reducible refine State.Kept.lit ?_

theorem operandFetchResponse_kept {r0 s : State} (h0 : r0.Kept s) (c : Nat) : r0.Kept (operandFetchResponse c s) := by
  unfold operandFetchResponse
  iterate 40 all_goals try first
    | with_reducible exact h0
    | with_reducible assumption
    | with_reducible refine State.Kept.ite ?_ ?_
    | with_reducible refine State.fetchOne_kept ?_ ..
    | with_reducible refine State.panicCheck_kept ?_ ..
    | with_reducible refine State.Kept.upto _ _ ?_ (fun _ _ _ => ?_)
    | with_reducible refine State.Kept.fold _ _ ?_ (fun _ _ _ => ?_)
    | with_reducible split
    | with_reducible refine State.Kept.col ?_
    | with_reducible refine State.Kept.lit ?_

theorem State.hold_kept {r0 s : State} (h0 : r0.Kept s) (c : Nat) : r0.Kept (State.hold s c) := by
  unfold State.hold
  iterate 40 all_goals try first
    | with_reducible exact h0
    | with_reducible assumption
    | with_reducible refine State.Kept.ite ?_ ?_
    | with_reducible refine State.setCc_kept ?_ ..
    | with_reducible refine State.Kept.upto _ _ ?_ (fun _ _ _ => ?_)
    | with_reducible refine State.Kept.fold _ _ ?_ (fun _ _ _ => ?_)
    | with_reducible split
    | with_reducible refine State.Kept.col ?_
    | with_reducible refine State.Kept.lit ?_

theorem State.askAhead_kept {r0 s : State} (h0 : r0.Kept s) (c : Nat) (l : List PCmd) : r0.Kept (State.askAhead s c l) := by
  unfold State.askAhead
  iterate 40 all_goals try first
    | with_reducible exact h0
    | with_reducible assumption
    | with_reducible refine State.Kept.ite ?_ ?_
    | with_reducible refine State.setCc_kept ?_ ..
    | with_reducible refine State.Kept.upto _ _ ?_ (fun _ _ _ => ?_)
    | with_reducible refine State.Kept.fold _ _ ?_ (fun _ _ _ => ?_)
    | with_reducible split
    | with_reducible refine State.Kept.col ?_
    | with_reducible refine State.Kept.lit ?_

theorem rowPeriodStart_kept {r0 s : State} (h0 : r0.Kept s) (c : Nat) (split : Option Nat) (strikes : List Strike) : r0.Kept (rowPeriodStart c split strikes s) := by
  unfold rowPeriodStart
  iterate 40 all_goals try first
    | with_reducible exact h0
    | with_reducible assumption
    | with_reducible refine State.Kept.ite ?_ ?_
    | with_reducible refine State.askAhead_kept ?_ ..
    | with_reducible refine State.countC_kept ?_ ..
    | with_reducible refine State.enterPim_kept ?_ ..
    | with_reducible refine State.hold_kept ?_ ..
    | with_reducible refine State.issueAll_kept ?_ ..
    | with_reducible refine State.panicCheck_kept ?_ ..
    | with_reducible refine State.refreshFirst_kept ?_ ..
    | with_reducible refine State.setTodo_kept ?_ ..
    | with_reducible refine State.strike_kept ?_ ..
    | with_reducible refine State.Kept.upto _ _ ?_ (fun _ _ _ => ?_)
    | with_reducible refine State.Kept.fold _ _ ?_ (fun _ _ _ => ?_)
    | with_reducible refine State.Kept.fold2 _ _ ?_ (fun _ _ _ => ?_)
    | with_reducible refine State.Kept.fold1 _ _ ?_ (fun _ _ _ => ?_)
    | with_reducible refine State.Kept.fold2' (by assumption) ?_ (fun _ _ _ => ?_)
    | with_reducible refine State.Kept.fold1' (by assumption) ?_ (fun _ _ _ => ?_)
    | with_reducible refine State.Kept.pair2 (by assumption) ?_ ?_
    | with_reducible refine State.Kept.pair22 (by assumption) ?_ ?_
    | with_reducible split
    | with_reducible refine State.Kept.col ?_
    | with_reducible refine State.Kept.lit ?_

theorem reservedCommandWord_kept {r0 s : State} (h0 : r0.Kept s) (c : Nat) (column : Bool) (word : Nat) : r0.Kept (reservedCommandWord c column word s) := by
  unfold reservedCommandWord
  iterate 40 all_goals try first
    | with_reducible exact h0
    | with_reducible assumption
    | with_reducible refine State.Kept.ite ?_ ?_
    | with_reducible refine State.seqError_kept ?_ ..
    | with_reducible refine State.Kept.upto _ _ ?_ (fun _ _ _ => ?_)
    | with_reducible refine State.Kept.fold _ _ ?_ (fun _ _ _ => ?_)
    | with_reducible split
    | with_reducible refine State.Kept.col ?_
    | with_reducible refine State.Kept.lit ?_

theorem State.sendResult_kept {r0 s : State} (h0 : r0.Kept s) (k : Nat) (d : Nat) : r0.Kept (State.sendResult s k d) := by
  unfold State.sendResult
  iterate 40 all_goals try first
    | with_reducible exact h0
    | with_reducible assumption
    | with_reducible refine State.Kept.ite ?_ ?_
    | with_reducible refine State.nocError_kept ?_ ..
    | with_reducible refine State.setBd_kept ?_ ..
    | with_reducible refine State.spFill_kept ?_ ..
    | with_reducible refine State.Kept.upto _ _ ?_ (fun _ _ _ => ?_)
    | with_reducible refine State.Kept.fold _ _ ?_ (fun _ _ _ => ?_)
    | with_reducible refine State.Kept.fold2 _ _ ?_ (fun _ _ _ => ?_)
    | with_reducible refine State.Kept.fold1 _ _ ?_ (fun _ _ _ => ?_)
    | with_reducible refine State.Kept.fold2' (by assumption) ?_ (fun _ _ _ => ?_)
    | with_reducible refine State.Kept.fold1' (by assumption) ?_ (fun _ _ _ => ?_)
    | with_reducible split
    | with_reducible refine State.Kept.col ?_
    | with_reducible refine State.Kept.lit ?_

theorem State.mergeDone_kept {r0 s : State} (h0 : r0.Kept s) (k : Nat) (d : Nat) (missing : Bool) : r0.Kept (State.mergeDone s k d missing) := by
  unfold State.mergeDone
  iterate 40 all_goals try first
    | with_reducible exact h0
    | with_reducible assumption
    | with_reducible refine State.Kept.ite ?_ ?_
    | with_reducible refine State.emit_kept ?_ ..
    | with_reducible refine State.sendResult_kept ?_ ..
    | with_reducible refine State.setBd_kept ?_ ..
    | with_reducible refine State.Kept.upto _ _ ?_ (fun _ _ _ => ?_)
    | with_reducible refine State.Kept.fold _ _ ?_ (fun _ _ _ => ?_)
    | with_reducible split
    | with_reducible refine State.Kept.col ?_
    | with_reducible refine State.Kept.lit ?_

theorem State.missingMl_kept {r0 s : State} (h0 : r0.Kept s) (k : Nat) (d : Nat) (c : Contribution) : r0.Kept (State.missingMl s k d c) := by
  unfold State.missingMl
  iterate 40 all_goals try first
    | with_reducible exact h0
    | with_reducible assumption
    | with_reducible refine State.Kept.ite ?_ ?_
    | with_reducible refine State.emit_kept ?_ ..
    | with_reducible refine State.Kept.upto _ _ ?_ (fun _ _ _ => ?_)
    | with_reducible refine State.Kept.fold _ _ ?_ (fun _ _ _ => ?_)
    | with_reducible split
    | with_reducible refine State.Kept.col ?_
    | with_reducible refine State.Kept.lit ?_

theorem State.takeIn_kept {r0 s : State} (h0 : r0.Kept s) (k : Nat) (c : Contribution) : r0.Kept (State.takeIn s k c) := by
  unfold State.takeIn
  iterate 40 all_goals try first
    | with_reducible exact h0
    | with_reducible assumption
    | with_reducible refine State.Kept.ite ?_ ?_
    | with_reducible refine State.effect_kept ?_ ..
    | with_reducible refine State.emit_kept ?_ ..
    | with_reducible refine State.missingMl_kept ?_ ..
    | with_reducible refine State.setBd_kept ?_ ..
    | with_reducible refine State.Kept.upto _ _ ?_ (fun _ _ _ => ?_)
    | with_reducible refine State.Kept.fold _ _ ?_ (fun _ _ _ => ?_)
    | with_reducible split
    | with_reducible refine State.Kept.col ?_
    | with_reducible refine State.Kept.lit ?_

theorem mergeContribution_kept {r0 s : State} (h0 : r0.Kept s) (k : Nat) (chan : Nat) : r0.Kept (mergeContribution k chan s) := by
  unfold mergeContribution
  iterate 40 all_goals try first
    | with_reducible exact h0
    | with_reducible assumption
    | with_reducible refine State.Kept.ite ?_ ?_
    | with_reducible refine State.mergeDone_kept ?_ ..
    | with_reducible refine State.takeIn_kept ?_ ..
    | with_reducible refine State.Kept.upto _ _ ?_ (fun _ _ _ => ?_)
    | with_reducible refine State.Kept.fold _ _ ?_ (fun _ _ _ => ?_)
    | with_reducible split
    | with_reducible refine State.Kept.col ?_
    | with_reducible refine State.Kept.lit ?_

theorem mergeTimeout_kept {r0 s : State} (h0 : r0.Kept s) (k : Nat) (d : Nat) : r0.Kept (mergeTimeout k d s) := by
  unfold mergeTimeout
  iterate 40 all_goals try first
    | with_reducible exact h0
    | with_reducible assumption
    | with_reducible refine State.Kept.ite ?_ ?_
    | with_reducible refine State.emit_kept ?_ ..
    | with_reducible refine State.mergeDone_kept ?_ ..
    | with_reducible refine State.Kept.upto _ _ ?_ (fun _ _ _ => ?_)
    | with_reducible refine State.Kept.fold _ _ ?_ (fun _ _ _ => ?_)
    | with_reducible split
    | with_reducible refine State.Kept.col ?_
    | with_reducible refine State.Kept.lit ?_

theorem statusCellWrite_kept {r0 s : State} (h0 : r0.Kept s) (k : Nat) (d : Nat) : r0.Kept (statusCellWrite k d s) := by
  unfold statusCellWrite
  iterate 40 all_goals try first
    | with_reducible exact h0
    | with_reducible assumption
    | with_reducible refine State.Kept.ite ?_ ?_
    | with_reducible refine State.countB_kept ?_ ..
    | with_reducible refine State.nocError_kept ?_ ..
    | with_reducible refine State.sendResult_kept ?_ ..
    | with_reducible refine State.setBd_kept ?_ ..
    | with_reducible refine State.spFill_kept ?_ ..
    | with_reducible refine State.Kept.upto _ _ ?_ (fun _ _ _ => ?_)
    | with_reducible refine State.Kept.fold _ _ ?_ (fun _ _ _ => ?_)
    | with_reducible split
    | with_reducible refine State.Kept.col ?_
    | with_reducible refine State.Kept.lit ?_

theorem resultReturnDropped_kept {r0 s : State} (h0 : r0.Kept s) (k : Nat) (d : Nat) : r0.Kept (resultReturnDropped k d s) := by
  unfold resultReturnDropped
  iterate 40 all_goals try first
    | with_reducible exact h0
    | with_reducible assumption
    | with_reducible refine State.Kept.ite ?_ ?_
    | with_reducible refine State.emit_kept ?_ ..
    | with_reducible refine State.setBd_kept ?_ ..
    | with_reducible refine State.Kept.upto _ _ ?_ (fun _ _ _ => ?_)
    | with_reducible refine State.Kept.fold _ _ ?_ (fun _ _ _ => ?_)
    | with_reducible split
    | with_reducible refine State.Kept.col ?_
    | with_reducible refine State.Kept.lit ?_

end Sys2Proof.Machine
end

