-- ==== Sys2Proof/Laws/KeptTile.lean ====
section
/-! SUPPORT. The operations of tiles keep the queue and the canonical forms. -/

set_option linter.unusedTactic false
set_option linter.unreachableTactic false

namespace Sys2Proof.Machine

theorem State.setRing_kept {r0 s : State} (h0 : r0.Kept s) (n : Nat) (v : RingSt) : r0.Kept (State.setRing s n v) := by
  unfold State.setRing
  iterate 40 all_goals try first
    | with_reducible exact h0
    | with_reducible assumption
    | with_reducible refine State.Kept.ite ?_ ?_
    | with_reducible refine State.Kept.upto _ _ ?_ (fun _ _ _ => ?_)
    | with_reducible refine State.Kept.fold _ _ ?_ (fun _ _ _ => ?_)
    | with_reducible split
    | with_reducible refine State.Kept.col ?_
    | with_reducible refine State.Kept.lit ?_

theorem State.haltRing_kept {r0 s : State} (h0 : r0.Kept s) (n : Nat) (cause : Nat) : r0.Kept (State.haltRing s n cause) := by
  unfold State.haltRing
  iterate 40 all_goals try first
    | with_reducible exact h0
    | with_reducible assumption
    | with_reducible refine State.Kept.ite ?_ ?_
    | with_reducible refine State.emit_kept ?_ ..
    | with_reducible refine State.setRing_kept ?_ ..
    | with_reducible refine State.Kept.upto _ _ ?_ (fun _ _ _ => ?_)
    | with_reducible refine State.Kept.fold _ _ ?_ (fun _ _ _ => ?_)
    | with_reducible split
    | with_reducible refine State.Kept.col ?_
    | with_reducible refine State.Kept.lit ?_

theorem State.haltAndCut_kept {r0 s : State} (h0 : r0.Kept s) (trigger : Nat) (source : Nat) (cause : Nat) (l : List Nat) : r0.Kept (State.haltAndCut s trigger source cause l) := by
  unfold State.haltAndCut
  iterate 40 all_goals try first
    | with_reducible exact h0
    | with_reducible assumption
    | with_reducible refine State.Kept.ite ?_ ?_
    | with_reducible refine State.haltRing_kept ?_ ..
    | with_reducible refine State.setRing_kept ?_ ..
    | with_reducible refine State.Kept.upto _ _ ?_ (fun _ _ _ => ?_)
    | with_reducible refine State.Kept.fold _ _ ?_ (fun _ _ _ => ?_)
    | with_reducible refine State.Kept.fold2 _ _ ?_ (fun _ _ _ => ?_)
    | with_reducible refine State.Kept.fold1 _ _ ?_ (fun _ _ _ => ?_)
    | with_reducible refine State.Kept.fold2' (by assumption) ?_ (fun _ _ _ => ?_)
    | with_reducible refine State.Kept.fold1' (by assumption) ?_ (fun _ _ _ => ?_)
    | with_reducible split
    | with_reducible refine State.Kept.col ?_
    | with_reducible refine State.Kept.lit ?_

theorem State.completeDesc_kept {r0 s : State} (h0 : r0.Kept s) (n : Nat) (c : Nat) (status : Nat) (detail : Nat) : r0.Kept (State.completeDesc s n c status detail) := by
  unfold State.completeDesc
  iterate 40 all_goals try first
    | with_reducible exact h0
    | with_reducible assumption
    | with_reducible refine State.Kept.ite ?_ ?_
    | with_reducible refine State.count_kept ?_ ..
    | with_reducible refine State.emit_kept ?_ ..
    | with_reducible refine State.setRing_kept ?_ ..
    | with_reducible refine State.Kept.upto _ _ ?_ (fun _ _ _ => ?_)
    | with_reducible refine State.Kept.fold _ _ ?_ (fun _ _ _ => ?_)
    | with_reducible split
    | with_reducible refine State.Kept.col ?_
    | with_reducible refine State.Kept.lit ?_

theorem State.modTile_kept {r0 s : State} (h0 : r0.Kept s) (t : Nat) (f : Tile → Tile) : r0.Kept (State.modTile s t f) := by
  unfold State.modTile
  iterate 40 all_goals try first
    | with_reducible exact h0
    | with_reducible assumption
    | with_reducible refine State.Kept.ite ?_ ?_
    | with_reducible refine State.setTile_kept ?_ ..
    | with_reducible refine State.Kept.upto _ _ ?_ (fun _ _ _ => ?_)
    | with_reducible refine State.Kept.fold _ _ ?_ (fun _ _ _ => ?_)
    | with_reducible split
    | with_reducible refine State.Kept.col ?_
    | with_reducible refine State.Kept.lit ?_

theorem State.setEngine_kept {r0 s : State} (h0 : r0.Kept s) (t : Nat) (e : Nat) (v : Engine) : r0.Kept (State.setEngine s t e v) := by
  unfold State.setEngine
  iterate 40 all_goals try first
    | with_reducible exact h0
    | with_reducible assumption
    | with_reducible refine State.Kept.ite ?_ ?_
    | with_reducible refine State.modTile_kept ?_ ..
    | with_reducible refine State.Kept.upto _ _ ?_ (fun _ _ _ => ?_)
    | with_reducible refine State.Kept.fold _ _ ?_ (fun _ _ _ => ?_)
    | with_reducible split
    | with_reducible refine State.Kept.col ?_
    | with_reducible refine State.Kept.lit ?_

theorem State.setA_kept {r0 s : State} (h0 : r0.Kept s) (t : Nat) (e : Nat) (r : Nat) (v : Nat) : r0.Kept (State.setA s t e r v) := by
  unfold State.setA
  iterate 40 all_goals try first
    | with_reducible exact h0
    | with_reducible assumption
    | with_reducible refine State.Kept.ite ?_ ?_
    | with_reducible refine State.setEngine_kept ?_ ..
    | with_reducible refine State.Kept.upto _ _ ?_ (fun _ _ _ => ?_)
    | with_reducible refine State.Kept.fold _ _ ?_ (fun _ _ _ => ?_)
    | with_reducible split
    | with_reducible refine State.Kept.col ?_
    | with_reducible refine State.Kept.lit ?_

theorem State.faultSettle_kept {r0 s : State} (h0 : r0.Kept s) (t : Nat) : r0.Kept (State.faultSettle s t) := by
  unfold State.faultSettle
  iterate 40 all_goals try first
    | with_reducible exact h0
    | with_reducible assumption
    | with_reducible refine State.Kept.ite ?_ ?_
    | with_reducible refine State.completeDesc_kept ?_ ..
    | with_reducible refine State.modTile_kept ?_ ..
    | with_reducible refine State.Kept.upto _ _ ?_ (fun _ _ _ => ?_)
    | with_reducible refine State.Kept.fold _ _ ?_ (fun _ _ _ => ?_)
    | with_reducible split
    | with_reducible refine State.Kept.col ?_
    | with_reducible refine State.Kept.lit ?_

theorem State.dropWaits_kept {r0 s : State} (h0 : r0.Kept s) (g : Nat) (t : Nat) : r0.Kept (State.dropWaits s g t) := by
  unfold State.dropWaits
  iterate 40 all_goals try first
    | with_reducible exact h0
    | with_reducible assumption
    | with_reducible refine State.Kept.ite ?_ ?_
    | with_reducible refine State.modTile_kept ?_ ..
    | with_reducible refine State.Kept.upto _ _ ?_ (fun _ _ _ => ?_)
    | with_reducible refine State.Kept.fold _ _ ?_ (fun _ _ _ => ?_)
    | with_reducible split
    | with_reducible refine State.Kept.col ?_
    | with_reducible refine State.Kept.lit ?_

theorem State.recordFault_kept {r0 s : State} (h0 : r0.Kept s) (t : Nat) (e : Nat) (cause : Nat) (loc : Loc) : r0.Kept (State.recordFault s t e cause loc) := by
  unfold State.recordFault
  iterate 40 all_goals try first
    | with_reducible exact h0
    | with_reducible assumption
    | with_reducible refine State.Kept.ite ?_ ?_
    | with_reducible refine State.count_kept ?_ ..
    | with_reducible refine State.emit_kept ?_ ..
    | with_reducible refine State.haltAndCut_kept ?_ ..
    | with_reducible refine State.modTile_kept ?_ ..
    | with_reducible refine State.raise_kept ?_ ..
    | with_reducible refine State.wr_kept ?_ ..
    | with_reducible refine State.Kept.upto _ _ ?_ (fun _ _ _ => ?_)
    | with_reducible refine State.Kept.fold _ _ ?_ (fun _ _ _ => ?_)
    | with_reducible split
    | with_reducible refine State.Kept.col ?_
    | with_reducible refine State.Kept.lit ?_

theorem State.faultWith_kept {r0 s : State} (h0 : r0.Kept s) (n t e cause : Nat) (loc : Loc) : r0.Kept (State.faultWith n s t e cause loc) := by
  induction n generalizing s t e cause loc with
  | zero => exact h0
  | succ n ih =>
    unfold State.faultWith
    iterate 40 all_goals try first
      | with_reducible exact h0
      | with_reducible assumption
      | with_reducible refine ih ?_ ..
      | with_reducible refine State.Kept.ite ?_ ?_
      | with_reducible refine State.dropWaits_kept ?_ ..
      | with_reducible refine State.emit_kept ?_ ..
      | with_reducible refine State.faultSettle_kept ?_ ..
      | with_reducible refine State.raise_kept ?_ ..
      | with_reducible refine State.recordFault_kept ?_ ..
      | with_reducible refine State.Kept.upto _ _ ?_ (fun _ _ _ => ?_)
      | with_reducible refine State.Kept.fold _ _ ?_ (fun _ _ _ => ?_)
      | with_reducible refine State.Kept.fold2 _ _ ?_ (fun _ _ _ => ?_)
      | with_reducible refine State.Kept.fold1 _ _ ?_ (fun _ _ _ => ?_)
      | with_reducible refine State.Kept.fold2' (by assumption) ?_ (fun _ _ _ => ?_)
      | with_reducible refine State.Kept.fold1' (by assumption) ?_ (fun _ _ _ => ?_)
      | with_reducible split
      | with_reducible refine State.Kept.col ?_
      | with_reducible refine State.Kept.lit ?_

theorem State.tileFault_kept {r0 s : State} (h0 : r0.Kept s) (t : Nat) (e : Nat) (cause : Nat) (loc : Loc) : r0.Kept (State.tileFault s t e cause loc) := by
  unfold State.tileFault
  iterate 40 all_goals try first
    | with_reducible exact h0
    | with_reducible assumption
    | with_reducible refine State.Kept.ite ?_ ?_
    | with_reducible refine State.faultWith_kept ?_ ..
    | with_reducible refine State.Kept.upto _ _ ?_ (fun _ _ _ => ?_)
    | with_reducible refine State.Kept.fold _ _ ?_ (fun _ _ _ => ?_)
    | with_reducible split
    | with_reducible refine State.Kept.col ?_
    | with_reducible refine State.Kept.lit ?_

theorem State.breakGroups_kept {r0 s : State} (h0 : r0.Kept s) (t : Nat) (reason : Nat) : r0.Kept (State.breakGroups s t reason) := by
  unfold State.breakGroups
  iterate 40 all_goals try first
    | with_reducible exact h0
    | with_reducible assumption
    | with_reducible refine State.Kept.ite ?_ ?_
    | with_reducible refine State.dropWaits_kept ?_ ..
    | with_reducible refine State.emit_kept ?_ ..
    | with_reducible refine State.raise_kept ?_ ..
    | with_reducible refine State.tileFault_kept ?_ ..
    | with_reducible refine State.Kept.upto _ _ ?_ (fun _ _ _ => ?_)
    | with_reducible refine State.Kept.fold _ _ ?_ (fun _ _ _ => ?_)
    | with_reducible refine State.Kept.fold2 _ _ ?_ (fun _ _ _ => ?_)
    | with_reducible refine State.Kept.fold1 _ _ ?_ (fun _ _ _ => ?_)
    | with_reducible refine State.Kept.fold2' (by assumption) ?_ (fun _ _ _ => ?_)
    | with_reducible refine State.Kept.fold1' (by assumption) ?_ (fun _ _ _ => ?_)
    | with_reducible split
    | with_reducible refine State.Kept.col ?_
    | with_reducible refine State.Kept.lit ?_

theorem State.invalidate_kept {r0 s : State} (h0 : r0.Kept s) (t : Nat) : r0.Kept (State.invalidate s t) := by
  unfold State.invalidate
  iterate 40 all_goals try first
    | with_reducible exact h0
    | with_reducible assumption
    | with_reducible refine State.Kept.ite ?_ ?_
    | with_reducible refine State.countT_kept ?_ ..
    | with_reducible refine State.modTile_kept ?_ ..
    | with_reducible refine State.Kept.upto _ _ ?_ (fun _ _ _ => ?_)
    | with_reducible refine State.Kept.fold _ _ ?_ (fun _ _ _ => ?_)
    | with_reducible split
    | with_reducible refine State.Kept.col ?_
    | with_reducible refine State.Kept.lit ?_

theorem State.acquire_kept {r0 s : State} (h0 : r0.Kept s) (t : Nat) : r0.Kept (State.acquire s t) := by
  unfold State.acquire
  iterate 40 all_goals try first
    | with_reducible exact h0
    | with_reducible assumption
    | with_reducible refine State.Kept.ite ?_ ?_
    | with_reducible refine State.countT_kept ?_ ..
    | with_reducible refine State.invalidate_kept ?_ ..
    | with_reducible refine State.Kept.upto _ _ ?_ (fun _ _ _ => ?_)
    | with_reducible refine State.Kept.fold _ _ ?_ (fun _ _ _ => ?_)
    | with_reducible split
    | with_reducible refine State.Kept.col ?_
    | with_reducible refine State.Kept.lit ?_

theorem State.afterOp_kept {r0 s : State} (h0 : r0.Kept s) (t : Nat) (e : Nat) : r0.Kept (State.afterOp s t e) := by
  unfold State.afterOp
  iterate 40 all_goals try first
    | with_reducible exact h0
    | with_reducible assumption
    | with_reducible refine State.Kept.ite ?_ ?_
    | with_reducible refine State.modTile_kept ?_ ..
    | with_reducible refine State.setEngine_kept ?_ ..
    | with_reducible refine State.Kept.upto _ _ ?_ (fun _ _ _ => ?_)
    | with_reducible refine State.Kept.fold _ _ ?_ (fun _ _ _ => ?_)
    | with_reducible refine State.Kept.pair2 (by assumption) ?_ ?_
    | with_reducible refine State.Kept.pair22 (by assumption) ?_ ?_
    | with_reducible split
    | with_reducible refine State.Kept.col ?_
    | with_reducible refine State.Kept.lit ?_

/-- An operation that goes on keeps what the relation names. -/
def Issued.Keeps (r : State) (i : Issued) : Prop := ∀ y, i = .done y → r.Kept y

theorem Issued.keeps_done {r s : State} (h : r.Kept s) : (Issued.done s).Keeps r := by
  intro y e
  cases e
  exact h

theorem Issued.keeps_fault {r : State} (c : Nat) : (Issued.fault c).Keeps r := by
  intro y e
  cases e

theorem Issued.keeps_hold {r : State} : Issued.hold.Keeps r := by
  intro y e
  cases e

theorem Issued.keeps_ite {r : State} {a b : Issued} {c : Prop} [Decidable c] (ha : a.Keeps r) (hb : b.Keeps r) :
    (if c then a else b).Keeps r := by
  split
  · exact ha
  · exact hb

/-- What one issue can do: nothing, a presented word, a fault, or the operation itself, which `hrun` speaks of. -/
theorem State.issueOp_kept {r0 s : State} (h0 : r0.Kept s) (t e : Nat) (w : OpWord) (mine : Nat → Bool) (legal : Nat → Nat → Bool)
    (run : OpCtx → State → Issued) (hrun : ∀ c x, r0.Kept x → (run c x).Keeps r0) :
    r0.Kept (s.issueOp t e w mine legal run) := by
  have hf := fun (x : Tile) cause loc => State.tileFault_kept (State.setTile_kept h0 t x) t e cause loc
  unfold State.issueOp
  split
  · exact h0
  · dsimp only
    generalize (s.tile t).present e w = x
    generalize Tile.skipOps (x.eng e).skip x e = q
    obtain ⟨y, o⟩ := q
    cases o with
    | some p => exact hf y p.1 p.2
    | none =>
      dsimp only
      cases y.next e with
      | nothing => exact State.setTile_kept h0 t y
      | fault cause loc => exact hf y cause loc
      | op v loc bad =>
        dsimp only
        split
        · exact h0
        · cases needsExt e (opcodeOf w) with
          | none => exact hf y 5 loc
          | some need =>
            dsimp only
            refine State.Kept.ite (hf y 5 loc) (State.Kept.ite h0 (State.Kept.ite (hf y 5 loc) ?_))
            split
            · exact hf y _ loc
            · exact h0
            · next g => exact State.afterOp_kept (hrun _ _ (State.countT_kept (State.setTile_kept h0 t _) _ _ _) _ g) _ _

theorem State.spPatch_kept {r0 s : State} (h0 : r0.Kept s) (t : Nat) (fill : Bool) (p : Patch) : r0.Kept (State.spPatch s t fill p) := by
  unfold State.spPatch
  iterate 40 all_goals try first
    | with_reducible exact h0
    | with_reducible assumption
    | with_reducible refine State.Kept.ite ?_ ?_
    | with_reducible refine State.fill_kept ?_ ..
    | with_reducible refine State.spFill_kept ?_ ..
    | with_reducible refine State.spWrite_kept ?_ ..
    | with_reducible refine State.Kept.upto _ _ ?_ (fun _ _ _ => ?_)
    | with_reducible refine State.Kept.fold _ _ ?_ (fun _ _ _ => ?_)
    | with_reducible refine State.Kept.fold2 _ _ ?_ (fun _ _ _ => ?_)
    | with_reducible refine State.Kept.fold1 _ _ ?_ (fun _ _ _ => ?_)
    | with_reducible refine State.Kept.fold2' (by assumption) ?_ (fun _ _ _ => ?_)
    | with_reducible refine State.Kept.fold1' (by assumption) ?_ (fun _ _ _ => ?_)
    | with_reducible split
    | with_reducible refine State.Kept.col ?_
    | with_reducible refine State.Kept.lit ?_

theorem State.emitN_kept {r0 s : State} (h0 : r0.Kept s) (n : Nat) (src : Nat) (code : Nat) (data : List Nat) : r0.Kept (State.emitN s n src code data) := by
  unfold State.emitN
  iterate 40 all_goals try first
    | with_reducible exact h0
    | with_reducible assumption
    | with_reducible refine State.Kept.ite ?_ ?_
    | with_reducible refine State.Kept.upto _ _ ?_ (fun _ _ _ => ?_)
    | with_reducible refine State.Kept.fold _ _ ?_ (fun _ _ _ => ?_)
    | with_reducible split
    | with_reducible refine State.Kept.col ?_
    | with_reducible refine State.Kept.lit ?_

theorem addressOp_kept {r0 s : State} (h0 : r0.Kept s) (code : Nat) (fields : List (Nat × Nat)) (f : OpCtx → State → Int) (t e : Nat) (w : OpWord) :
    r0.Kept (addressOp code fields f t e w s) := by
  refine State.issueOp_kept h0 _ _ _ _ _ _ (fun c x hx => ?_)
  exact Issued.keeps_done (State.setA_kept hx _ _ _ _)

theorem State.settleSkip_kept {r0 s : State} (h0 : r0.Kept s) (t : Nat) (e : Nat) : r0.Kept (State.settleSkip s t e) := by
  unfold State.settleSkip
  iterate 40 all_goals try first
    | with_reducible exact h0
    | with_reducible assumption
    | with_reducible refine State.Kept.ite ?_ ?_
    | with_reducible refine State.setTile_kept ?_ ..
    | with_reducible refine State.tileFault_kept ?_ ..
    | with_reducible refine State.Kept.upto _ _ ?_ (fun _ _ _ => ?_)
    | with_reducible refine State.Kept.fold _ _ ?_ (fun _ _ _ => ?_)
    | with_reducible split
    | with_reducible refine State.Kept.col ?_
    | with_reducible refine State.Kept.lit ?_

theorem State.exportHalf_kept {r0 s : State} (h0 : r0.Kept s) (h : Half) : r0.Kept (State.exportHalf s h).2 := by
  unfold State.exportHalf
  iterate 40 all_goals try first
    | with_reducible exact h0
    | with_reducible assumption
    | with_reducible refine State.fresh_kept' (by assumption) ?_
    | with_reducible refine State.Kept.ite ?_ ?_
    | with_reducible refine State.Kept.ite2 ?_ ?_
    | with_reducible refine State.Kept.ite22 ?_ ?_
    | with_reducible refine State.Kept.ite1 ?_ ?_
    | with_reducible refine State.fresh_kept ?_ ..
    | with_reducible refine State.Kept.upto _ _ ?_ (fun _ _ _ => ?_)
    | with_reducible refine State.Kept.fold _ _ ?_ (fun _ _ _ => ?_)
    | with_reducible refine State.Kept.pair2 (by assumption) ?_ ?_
    | with_reducible refine State.Kept.pair22 (by assumption) ?_ ?_
    | with_reducible split
    | dsimp only
    | with_reducible refine State.Kept.col ?_
    | with_reducible refine State.Kept.lit ?_

theorem State.exportHalf_kept' {r0 s s1 : State} {h : Half} {x0 : Nat} (e0 : State.exportHalf s h = (x0, s1)) (h0 : r0.Kept s) : r0.Kept s1 := by
  have g0 := State.exportHalf_kept h0 h
  rw [e0] at g0
  exact g0

theorem State.exportCell_kept {r0 s : State} (h0 : r0.Kept s) (c : Cell64) : r0.Kept (s.exportCell c).2 :=
  State.exportHalf_kept (State.exportHalf_kept h0 c.lo) c.hi

theorem State.exportCell_kept' {r0 s s1 : State} {c : Cell64} {x : Nat} (e0 : s.exportCell c = (x, s1)) (h0 : r0.Kept s) : r0.Kept s1 := by
  have g0 := State.exportCell_kept h0 c
  rw [e0] at g0
  exact g0

theorem State.hostPut_kept {r0 s : State} (h0 : r0.Kept s) (f : Nat) (addr : Nat) (w : WriteData) : r0.Kept (State.hostPut s f addr w) := by
  unfold State.hostPut
  iterate 40 all_goals try first
    | with_reducible exact h0
    | with_reducible assumption
    | with_reducible split
    | with_reducible refine State.exportCell_kept' (by assumption) ?_
    | with_reducible refine State.Kept.ite ?_ ?_
    | with_reducible refine State.exportCell_kept ?_ ..
    | with_reducible refine State.send_kept ?_ ..
    | with_reducible refine State.Kept.upto _ _ ?_ (fun _ _ _ => ?_)
    | with_reducible refine State.Kept.fold _ _ ?_ (fun _ _ _ => ?_)
    | with_reducible refine State.Kept.pair2 (by assumption) ?_ ?_
    | with_reducible refine State.Kept.pair22 (by assumption) ?_ ?_
    | with_reducible split
    | with_reducible refine State.Kept.col ?_
    | with_reducible refine State.Kept.lit ?_

theorem State.hostBytes_kept {r0 s : State} (h0 : r0.Kept s) (f : Nat) (addr : Nat) (len : Nat) (v : Nat) : r0.Kept (State.hostBytes s f addr len v) := by
  unfold State.hostBytes
  iterate 40 all_goals try first
    | with_reducible exact h0
    | with_reducible assumption
    | with_reducible refine State.Kept.ite ?_ ?_
    | with_reducible refine State.send_kept ?_ ..
    | with_reducible refine State.Kept.upto _ _ ?_ (fun _ _ _ => ?_)
    | with_reducible refine State.Kept.fold _ _ ?_ (fun _ _ _ => ?_)
    | with_reducible split
    | with_reducible refine State.Kept.col ?_
    | with_reducible refine State.Kept.lit ?_

theorem State.askHost_kept {r0 s : State} (h0 : r0.Kept s) (u : ReadUser) (f : Nat) (addr : Nat) (bytes : Nat) : r0.Kept (State.askHost s u f addr bytes) := by
  unfold State.askHost
  iterate 40 all_goals try first
    | with_reducible exact h0
    | with_reducible assumption
    | with_reducible refine State.Kept.ite ?_ ?_
    | with_reducible refine State.send_kept ?_ ..
    | with_reducible refine State.Kept.upto _ _ ?_ (fun _ _ _ => ?_)
    | with_reducible refine State.Kept.fold _ _ ?_ (fun _ _ _ => ?_)
    | with_reducible split
    | with_reducible refine State.Kept.col ?_
    | with_reducible refine State.Kept.lit ?_

theorem State.sendWaiting_kept {r0 s : State} (h0 : r0.Kept s) (n : Nat) : r0.Kept (State.sendWaiting n s) := by
  induction n generalizing s  with
  | zero => exact h0
  | succ n ih =>
    unfold State.sendWaiting
    iterate 40 all_goals try first
      | with_reducible exact h0
      | with_reducible assumption
      | with_reducible refine ih ?_
      | with_reducible refine State.Kept.ite ?_ ?_
      | with_reducible refine State.send_kept ?_ ..
      | with_reducible refine State.Kept.upto _ _ ?_ (fun _ _ _ => ?_)
      | with_reducible refine State.Kept.fold _ _ ?_ (fun _ _ _ => ?_)
      | with_reducible split
      | with_reducible refine State.Kept.col ?_
      | with_reducible refine State.Kept.lit ?_

theorem State.hostPortRead_kept {r0 s : State} (h0 : r0.Kept s) (u : ReadUser) (f : Nat) (key : Nat) : r0.Kept (State.hostPortRead s u f key).2 := by
  unfold State.hostPortRead
  iterate 40 all_goals try first
    | with_reducible exact h0
    | with_reducible assumption
    | with_reducible refine State.portRead_kept' (by assumption) ?_
    | with_reducible refine State.Kept.ite ?_ ?_
    | with_reducible refine State.Kept.ite2 ?_ ?_
    | with_reducible refine State.Kept.ite22 ?_ ?_
    | with_reducible refine State.Kept.ite1 ?_ ?_
    | with_reducible refine State.portRead_kept ?_ ..
    | with_reducible refine State.Kept.upto _ _ ?_ (fun _ _ _ => ?_)
    | with_reducible refine State.Kept.fold _ _ ?_ (fun _ _ _ => ?_)
    | with_reducible split
    | dsimp only
    | with_reducible refine State.Kept.col ?_
    | with_reducible refine State.Kept.lit ?_

theorem State.hostPortRead_kept' {r0 s s1 : State} {u : ReadUser} {f : Nat} {key : Nat} {x0 : Option Cell64} (e0 : State.hostPortRead s u f key = (x0, s1)) (h0 : r0.Kept s) : r0.Kept s1 := by
  have g0 := State.hostPortRead_kept h0 u f key
  rw [e0] at g0
  exact g0

theorem State.hostPortWrite_kept {r0 s : State} (h0 : r0.Kept s) (f : Nat) (key : Nat) (w : WriteData) : r0.Kept (State.hostPortWrite s f key w).2 := by
  unfold State.hostPortWrite
  iterate 40 all_goals try first
    | with_reducible exact h0
    | with_reducible assumption
    | with_reducible refine State.portWrite_kept' (by assumption) ?_
    | with_reducible refine State.Kept.ite ?_ ?_
    | with_reducible refine State.Kept.ite2 ?_ ?_
    | with_reducible refine State.Kept.ite22 ?_ ?_
    | with_reducible refine State.Kept.ite1 ?_ ?_
    | with_reducible refine State.portWrite_kept ?_ ..
    | with_reducible refine State.Kept.upto _ _ ?_ (fun _ _ _ => ?_)
    | with_reducible refine State.Kept.fold _ _ ?_ (fun _ _ _ => ?_)
    | with_reducible split
    | dsimp only
    | with_reducible refine State.Kept.col ?_
    | with_reducible refine State.Kept.lit ?_

theorem State.hostPortWrite_kept' {r0 s s1 : State} {f : Nat} {key : Nat} {w : WriteData} {x0 : Bool} (e0 : State.hostPortWrite s f key w = (x0, s1)) (h0 : r0.Kept s) : r0.Kept s1 := by
  have g0 := State.hostPortWrite_kept h0 f key w
  rw [e0] at g0
  exact g0

theorem State.hostLinkRead_kept {r0 s : State} (h0 : r0.Kept s) (f : Nat) (key : Nat) (ans : Answer) : r0.Kept (State.hostLinkRead s f key ans).2 := by
  unfold State.hostLinkRead
  iterate 40 all_goals try first
    | with_reducible exact h0
    | with_reducible assumption
    | with_reducible refine State.arrive_kept' (by assumption) ?_
    | with_reducible refine State.Kept.ite ?_ ?_
    | with_reducible refine State.Kept.ite2 ?_ ?_
    | with_reducible refine State.Kept.ite22 ?_ ?_
    | with_reducible refine State.Kept.ite1 ?_ ?_
    | with_reducible refine State.answerReq_kept ?_ ..
    | with_reducible refine State.arrive_kept ?_ ..
    | with_reducible refine State.retiredAccess_kept ?_ ..
    | with_reducible refine State.Kept.upto _ _ ?_ (fun _ _ _ => ?_)
    | with_reducible refine State.Kept.fold _ _ ?_ (fun _ _ _ => ?_)
    | with_reducible split
    | dsimp only
    | with_reducible refine State.Kept.col ?_
    | with_reducible refine State.Kept.lit ?_

theorem State.hostLinkRead_kept' {r0 s s1 : State} {f : Nat} {key : Nat} {ans : Answer} {x0 : Bool} (e0 : State.hostLinkRead s f key ans = (x0, s1)) (h0 : r0.Kept s) : r0.Kept s1 := by
  have g0 := State.hostLinkRead_kept h0 f key ans
  rw [e0] at g0
  exact g0

theorem State.stall_kept {r0 s : State} (h0 : r0.Kept s) (u : ReadUser) : r0.Kept (State.stall s u) := by
  unfold State.stall
  iterate 40 all_goals try first
    | with_reducible exact h0
    | with_reducible assumption
    | with_reducible refine State.Kept.ite ?_ ?_
    | with_reducible refine State.Kept.upto _ _ ?_ (fun _ _ _ => ?_)
    | with_reducible refine State.Kept.fold _ _ ?_ (fun _ _ _ => ?_)
    | with_reducible split
    | with_reducible refine State.Kept.col ?_
    | with_reducible refine State.Kept.lit ?_

theorem State.askSnoop_kept {r0 s : State} (h0 : r0.Kept s) (line : Nat) (inv : Bool) (w : List ReadUser) : r0.Kept (State.askSnoop s line inv w) := by
  unfold State.askSnoop
  iterate 40 all_goals try first
    | with_reducible exact h0
    | with_reducible assumption
    | with_reducible refine State.Kept.ite ?_ ?_
    | with_reducible refine State.count_kept ?_ ..
    | with_reducible refine State.send_kept ?_ ..
    | with_reducible refine State.stall_kept ?_ ..
    | with_reducible refine State.Kept.upto _ _ ?_ (fun _ _ _ => ?_)
    | with_reducible refine State.Kept.fold _ _ ?_ (fun _ _ _ => ?_)
    | with_reducible refine State.Kept.fold2 _ _ ?_ (fun _ _ _ => ?_)
    | with_reducible refine State.Kept.fold1 _ _ ?_ (fun _ _ _ => ?_)
    | with_reducible refine State.Kept.fold2' (by assumption) ?_ (fun _ _ _ => ?_)
    | with_reducible refine State.Kept.fold1' (by assumption) ?_ (fun _ _ _ => ?_)
    | with_reducible split
    | with_reducible refine State.Kept.col ?_
    | with_reducible refine State.Kept.lit ?_

theorem State.askOwed_kept {r0 s : State} (h0 : r0.Kept s)  : r0.Kept (State.askOwed s) := by
  unfold State.askOwed
  iterate 40 all_goals try first
    | with_reducible exact h0
    | with_reducible assumption
    | with_reducible refine State.Kept.ite ?_ ?_
    | with_reducible refine State.askSnoop_kept ?_ ..
    | with_reducible refine State.Kept.upto _ _ ?_ (fun _ _ _ => ?_)
    | with_reducible refine State.Kept.fold _ _ ?_ (fun _ _ _ => ?_)
    | with_reducible refine State.Kept.fold2 _ _ ?_ (fun _ _ _ => ?_)
    | with_reducible refine State.Kept.fold1 _ _ ?_ (fun _ _ _ => ?_)
    | with_reducible refine State.Kept.fold2' (by assumption) ?_ (fun _ _ _ => ?_)
    | with_reducible refine State.Kept.fold1' (by assumption) ?_ (fun _ _ _ => ?_)
    | with_reducible split
    | with_reducible refine State.Kept.col ?_
    | with_reducible refine State.Kept.lit ?_

theorem State.enterDir_kept {r0 s : State} (h0 : r0.Kept s) (line : Nat) : r0.Kept (State.enterDir s line) := by
  unfold State.enterDir
  iterate 40 all_goals try first
    | with_reducible exact h0
    | with_reducible assumption
    | with_reducible refine State.Kept.ite ?_ ?_
    | with_reducible refine State.askOwed_kept ?_ ..
    | with_reducible refine State.Kept.upto _ _ ?_ (fun _ _ _ => ?_)
    | with_reducible refine State.Kept.fold _ _ ?_ (fun _ _ _ => ?_)
    | with_reducible split
    | with_reducible refine State.Kept.col ?_
    | with_reducible refine State.Kept.lit ?_

theorem State.leaveDir_kept {r0 s : State} (h0 : r0.Kept s) (line : Nat) : r0.Kept (State.leaveDir s line) := by
  unfold State.leaveDir
  iterate 40 all_goals try first
    | with_reducible exact h0
    | with_reducible assumption
    | with_reducible refine State.Kept.ite ?_ ?_
    | with_reducible refine State.Kept.upto _ _ ?_ (fun _ _ _ => ?_)
    | with_reducible refine State.Kept.fold _ _ ?_ (fun _ _ _ => ?_)
    | with_reducible split
    | with_reducible refine State.Kept.col ?_
    | with_reducible refine State.Kept.lit ?_

theorem State.requestSnoop_kept {r0 s : State} (h0 : r0.Kept s) (who : Requester) (key : Nat) (write : Bool) : r0.Kept (State.requestSnoop s who key write) := by
  unfold State.requestSnoop
  iterate 40 all_goals try first
    | with_reducible exact h0
    | with_reducible assumption
    | with_reducible refine State.Kept.ite ?_ ?_
    | with_reducible refine State.answerBad_kept ?_ ..
    | with_reducible refine State.askSnoop_kept ?_ ..
    | with_reducible refine State.Kept.upto _ _ ?_ (fun _ _ _ => ?_)
    | with_reducible refine State.Kept.fold _ _ ?_ (fun _ _ _ => ?_)
    | with_reducible split
    | with_reducible refine State.Kept.col ?_
    | with_reducible refine State.Kept.lit ?_

theorem State.requestMade_kept {r0 s : State} (h0 : r0.Kept s) (who : Requester) (line : Nat) : r0.Kept (State.requestMade s who line) := by
  unfold State.requestMade
  iterate 40 all_goals try first
    | with_reducible exact h0
    | with_reducible assumption
    | with_reducible refine State.Kept.ite ?_ ?_
    | with_reducible refine State.setTile_kept ?_ ..
    | with_reducible refine State.Kept.upto _ _ ?_ (fun _ _ _ => ?_)
    | with_reducible refine State.Kept.fold _ _ ?_ (fun _ _ _ => ?_)
    | with_reducible split
    | with_reducible refine State.Kept.col ?_
    | with_reducible refine State.Kept.lit ?_

theorem requestAccept_kept {r0 s : State} (h0 : r0.Kept s) (who : Requester) (dpa : Nat) (w : Option WriteData) : r0.Kept (requestAccept who dpa w s) := by
  unfold requestAccept
  iterate 40 all_goals try first
    | with_reducible exact h0
    | with_reducible assumption
    | with_reducible refine State.resolve_kept' (by assumption) ?_
    | with_reducible refine State.Kept.ite ?_ ?_
    | with_reducible refine State.accept_kept ?_ ..
    | with_reducible refine State.answerBad_kept ?_ ..
    | with_reducible refine State.requestMade_kept ?_ ..
    | with_reducible refine State.requestSnoop_kept ?_ ..
    | with_reducible refine State.resolve_kept ?_ ..
    | with_reducible refine State.retiredAccess_kept ?_ ..
    | with_reducible refine State.send_kept ?_ ..
    | with_reducible refine State.Kept.upto _ _ ?_ (fun _ _ _ => ?_)
    | with_reducible refine State.Kept.fold _ _ ?_ (fun _ _ _ => ?_)
    | with_reducible split
    | with_reducible refine State.Kept.col ?_
    | with_reducible refine State.Kept.lit ?_

theorem State.startRecord_kept {r0 s : State} (h0 : r0.Kept s) (t : Nat) : r0.Kept (State.startRecord s t) := by
  unfold State.startRecord
  iterate 40 all_goals try first
    | with_reducible exact h0
    | with_reducible assumption
    | with_reducible refine State.Kept.ite ?_ ?_
    | with_reducible refine State.effects_kept ?_ ..
    | with_reducible refine State.Kept.upto _ _ ?_ (fun _ _ _ => ?_)
    | with_reducible refine State.Kept.fold _ _ ?_ (fun _ _ _ => ?_)
    | with_reducible split
    | with_reducible refine State.Kept.col ?_
    | with_reducible refine State.Kept.lit ?_

theorem streamRecord_kept {r0 s : State} (h0 : r0.Kept s) (t : Nat) : r0.Kept (streamRecord t s) := by
  unfold streamRecord
  iterate 40 all_goals try first
    | with_reducible exact h0
    | with_reducible assumption
    | with_reducible refine State.fresh_kept' (by assumption) ?_
    | with_reducible refine State.Kept.ite ?_ ?_
    | with_reducible refine State.countT_kept ?_ ..
    | with_reducible refine State.fresh_kept ?_ ..
    | with_reducible refine State.setTile_kept ?_ ..
    | with_reducible refine State.startRecord_kept ?_ ..
    | with_reducible refine State.Kept.upto _ _ ?_ (fun _ _ _ => ?_)
    | with_reducible refine State.Kept.fold _ _ ?_ (fun _ _ _ => ?_)
    | with_reducible refine State.Kept.pair2 (by assumption) ?_ ?_
    | with_reducible refine State.Kept.pair22 (by assumption) ?_ ?_
    | with_reducible split
    | with_reducible refine State.Kept.col ?_
    | with_reducible refine State.Kept.lit ?_

theorem State.sendLine_kept {r0 s : State} (h0 : r0.Kept s) (t : Nat) (n : Nat) (addr : Nat) (what : SReq) (f : Tile → Tile) : r0.Kept (State.sendLine s t n addr what f) := by
  unfold State.sendLine
  iterate 40 all_goals try first
    | with_reducible exact h0
    | with_reducible assumption
    | with_reducible refine State.Kept.ite ?_ ?_
    | with_reducible refine State.countT_kept ?_ ..
    | with_reducible refine State.modTile_kept ?_ ..
    | with_reducible refine State.send_kept ?_ ..
    | with_reducible refine State.Kept.upto _ _ ?_ (fun _ _ _ => ?_)
    | with_reducible refine State.Kept.fold _ _ ?_ (fun _ _ _ => ?_)
    | with_reducible split
    | with_reducible refine State.Kept.col ?_
    | with_reducible refine State.Kept.lit ?_

theorem State.requestLine_kept {r0 s : State} (h0 : r0.Kept s) (t : Nat) (r : SRec) (i : Nat) : r0.Kept (State.requestLine s t r i) := by
  unfold State.requestLine
  iterate 40 all_goals try first
    | with_reducible exact h0
    | with_reducible assumption
    | with_reducible refine State.Kept.ite ?_ ?_
    | with_reducible refine State.sendLine_kept ?_ ..
    | with_reducible refine State.Kept.upto _ _ ?_ (fun _ _ _ => ?_)
    | with_reducible refine State.Kept.fold _ _ ?_ (fun _ _ _ => ?_)
    | with_reducible split
    | with_reducible refine State.Kept.col ?_
    | with_reducible refine State.Kept.lit ?_

theorem streamFetchRequest_kept {r0 s : State} (h0 : r0.Kept s) (t : Nat) : r0.Kept (streamFetchRequest t s) := by
  unfold streamFetchRequest
  iterate 40 all_goals try first
    | with_reducible exact h0
    | with_reducible assumption
    | with_reducible refine State.Kept.ite ?_ ?_
    | with_reducible refine State.countT_kept ?_ ..
    | with_reducible refine State.requestLine_kept ?_ ..
    | with_reducible refine State.sendLine_kept ?_ ..
    | with_reducible refine State.Kept.upto _ _ ?_ (fun _ _ _ => ?_)
    | with_reducible refine State.Kept.fold _ _ ?_ (fun _ _ _ => ?_)
    | with_reducible split
    | with_reducible refine State.Kept.col ?_
    | with_reducible refine State.Kept.lit ?_

theorem streamLineReturn_kept {r0 s : State} (h0 : r0.Kept s) (t : Nat) (tag : Nat) (data : Option Cell64) : r0.Kept (streamLineReturn t tag data s) := by
  unfold streamLineReturn
  iterate 40 all_goals try first
    | with_reducible exact h0
    | with_reducible assumption
    | with_reducible refine State.Kept.ite ?_ ?_
    | with_reducible refine State.countT_kept ?_ ..
    | with_reducible refine State.setTile_kept ?_ ..
    | with_reducible refine State.Kept.upto _ _ ?_ (fun _ _ _ => ?_)
    | with_reducible refine State.Kept.fold _ _ ?_ (fun _ _ _ => ?_)
    | with_reducible split
    | with_reducible refine State.Kept.col ?_
    | with_reducible refine State.Kept.lit ?_

theorem State.markLate_kept {r0 s : State} (h0 : r0.Kept s) (t : Nat) (serial : Nat) (idx : Nat) : r0.Kept (State.markLate s t serial idx) := by
  unfold State.markLate
  iterate 40 all_goals try first
    | with_reducible exact h0
    | with_reducible assumption
    | with_reducible refine State.Kept.ite ?_ ?_
    | with_reducible refine State.countT_kept ?_ ..
    | with_reducible refine State.setTile_kept ?_ ..
    | with_reducible refine State.Kept.upto _ _ ?_ (fun _ _ _ => ?_)
    | with_reducible refine State.Kept.fold _ _ ?_ (fun _ _ _ => ?_)
    | with_reducible split
    | with_reducible refine State.Kept.col ?_
    | with_reducible refine State.Kept.lit ?_

theorem State.freeLines_kept {r0 s : State} (h0 : r0.Kept s) (t : Nat) : r0.Kept (State.freeLines s t) := by
  unfold State.freeLines
  iterate 40 all_goals try first
    | with_reducible exact h0
    | with_reducible assumption
    | with_reducible refine State.Kept.ite ?_ ?_
    | with_reducible refine State.countT_kept ?_ ..
    | with_reducible refine State.setTile_kept ?_ ..
    | with_reducible refine State.startRecord_kept ?_ ..
    | with_reducible refine State.Kept.upto _ _ ?_ (fun _ _ _ => ?_)
    | with_reducible refine State.Kept.fold _ _ ?_ (fun _ _ _ => ?_)
    | with_reducible split
    | with_reducible refine State.Kept.col ?_
    | with_reducible refine State.Kept.lit ?_

theorem bundleSplit_kept {r0 s : State} (h0 : r0.Kept s) (t : Nat) : r0.Kept (bundleSplit t s) := by
  unfold bundleSplit
  iterate 40 all_goals try first
    | with_reducible exact h0
    | with_reducible assumption
    | with_reducible refine State.Kept.ite ?_ ?_
    | with_reducible refine State.countT_kept ?_ ..
    | with_reducible refine State.freeLines_kept ?_ ..
    | with_reducible refine State.markLate_kept ?_ ..
    | with_reducible refine State.setTile_kept ?_ ..
    | with_reducible refine State.settleSkip_kept ?_ ..
    | with_reducible refine State.tileFault_kept ?_ ..
    | with_reducible refine State.Kept.upto _ _ ?_ (fun _ _ _ => ?_)
    | with_reducible refine State.Kept.fold _ _ ?_ (fun _ _ _ => ?_)
    | with_reducible refine State.Kept.fold2 _ _ ?_ (fun _ _ _ => ?_)
    | with_reducible refine State.Kept.fold1 _ _ ?_ (fun _ _ _ => ?_)
    | with_reducible refine State.Kept.fold2' (by assumption) ?_ (fun _ _ _ => ?_)
    | with_reducible refine State.Kept.fold1' (by assumption) ?_ (fun _ _ _ => ?_)
    | with_reducible split
    | with_reducible refine State.Kept.col ?_
    | with_reducible refine State.Kept.lit ?_

theorem imldCopy_kept {r0 s : State} (h0 : r0.Kept s) (t : Nat) : r0.Kept (imldCopy t s) := by
  unfold imldCopy
  iterate 40 all_goals try first
    | with_reducible exact h0
    | with_reducible assumption
    | with_reducible refine State.Kept.ite ?_ ?_
    | with_reducible refine State.freeLines_kept ?_ ..
    | with_reducible refine State.markLate_kept ?_ ..
    | with_reducible refine State.setTile_kept ?_ ..
    | with_reducible refine State.tileFault_kept ?_ ..
    | with_reducible refine State.Kept.upto _ _ ?_ (fun _ _ _ => ?_)
    | with_reducible refine State.Kept.fold _ _ ?_ (fun _ _ _ => ?_)
    | with_reducible split
    | with_reducible refine State.Kept.col ?_
    | with_reducible refine State.Kept.lit ?_

theorem imldHoldLimit_kept {r0 s : State} (h0 : r0.Kept s) (t : Nat) : r0.Kept (imldHoldLimit t s) := by
  unfold imldHoldLimit
  iterate 40 all_goals try first
    | with_reducible exact h0
    | with_reducible assumption
    | with_reducible refine State.Kept.ite ?_ ?_
    | with_reducible refine State.emit_kept ?_ ..
    | with_reducible refine State.setTile_kept ?_ ..
    | with_reducible refine State.Kept.upto _ _ ?_ (fun _ _ _ => ?_)
    | with_reducible refine State.Kept.fold _ _ ?_ (fun _ _ _ => ?_)
    | with_reducible split
    | with_reducible refine State.Kept.col ?_
    | with_reducible refine State.Kept.lit ?_

theorem queueBarrier_kept {r0 s : State} (h0 : r0.Kept s) (t : Nat) : r0.Kept (queueBarrier t s) := by
  unfold queueBarrier
  iterate 40 all_goals try first
    | with_reducible exact h0
    | with_reducible assumption
    | with_reducible refine State.Kept.ite ?_ ?_
    | with_reducible refine State.acquire_kept ?_ ..
    | with_reducible refine State.modTile_kept ?_ ..
    | with_reducible refine State.setEngine_kept ?_ ..
    | with_reducible refine State.Kept.upto _ _ ?_ (fun _ _ _ => ?_)
    | with_reducible refine State.Kept.fold _ _ ?_ (fun _ _ _ => ?_)
    | with_reducible refine State.Kept.fold2 _ _ ?_ (fun _ _ _ => ?_)
    | with_reducible refine State.Kept.fold1 _ _ ?_ (fun _ _ _ => ?_)
    | with_reducible refine State.Kept.fold2' (by assumption) ?_ (fun _ _ _ => ?_)
    | with_reducible refine State.Kept.fold1' (by assumption) ?_ (fun _ _ _ => ?_)
    | with_reducible split
    | with_reducible refine State.Kept.col ?_
    | with_reducible refine State.Kept.lit ?_

theorem streamComplete_kept {r0 s : State} (h0 : r0.Kept s) (t : Nat) : r0.Kept (streamComplete t s) := by
  unfold streamComplete
  iterate 40 all_goals try first
    | with_reducible exact h0
    | with_reducible assumption
    | with_reducible refine State.Kept.ite ?_ ?_
    | with_reducible refine State.completeDesc_kept ?_ ..
    | with_reducible refine State.count_kept ?_ ..
    | with_reducible refine State.setTile_kept ?_ ..
    | with_reducible refine State.Kept.upto _ _ ?_ (fun _ _ _ => ?_)
    | with_reducible refine State.Kept.fold _ _ ?_ (fun _ _ _ => ?_)
    | with_reducible split
    | with_reducible refine State.Kept.col ?_
    | with_reducible refine State.Kept.lit ?_

theorem State.endWait_kept {r0 s : State} (h0 : r0.Kept s) (t : Nat) (e : Nat) : r0.Kept (State.endWait s t e) := by
  unfold State.endWait
  iterate 40 all_goals try first
    | with_reducible exact h0
    | with_reducible assumption
    | with_reducible refine State.Kept.ite ?_ ?_
    | with_reducible refine State.modTile_kept ?_ ..
    | with_reducible refine State.setEngine_kept ?_ ..
    | with_reducible refine State.Kept.upto _ _ ?_ (fun _ _ _ => ?_)
    | with_reducible refine State.Kept.fold _ _ ?_ (fun _ _ _ => ?_)
    | with_reducible split
    | with_reducible refine State.Kept.col ?_
    | with_reducible refine State.Kept.lit ?_

theorem State.grant_kept {r0 s : State} (h0 : r0.Kept s) (t : Nat) (e : Nat) : r0.Kept (State.grant s t e) := by
  unfold State.grant
  iterate 40 all_goals try first
    | with_reducible exact h0
    | with_reducible assumption
    | with_reducible refine State.Kept.ite ?_ ?_
    | with_reducible refine State.acquire_kept ?_ ..
    | with_reducible refine State.endWait_kept ?_ ..
    | with_reducible refine State.Kept.upto _ _ ?_ (fun _ _ _ => ?_)
    | with_reducible refine State.Kept.fold _ _ ?_ (fun _ _ _ => ?_)
    | with_reducible split
    | with_reducible refine State.Kept.col ?_
    | with_reducible refine State.Kept.lit ?_

theorem State.startWait_kept {r0 s : State} (h0 : r0.Kept s) (c : OpCtx) (w : WaitFor) : r0.Kept (State.startWait s c w) := by
  unfold State.startWait
  iterate 40 all_goals try first
    | with_reducible exact h0
    | with_reducible assumption
    | with_reducible refine State.Kept.ite ?_ ?_
    | with_reducible refine State.setEngine_kept ?_ ..
    | with_reducible refine State.Kept.upto _ _ ?_ (fun _ _ _ => ?_)
    | with_reducible refine State.Kept.fold _ _ ?_ (fun _ _ _ => ?_)
    | with_reducible split
    | with_reducible refine State.Kept.col ?_
    | with_reducible refine State.Kept.lit ?_

theorem State.setSem_kept {r0 s : State} (h0 : r0.Kept s) (t : Nat) (k : Nat) (v : Nat) : r0.Kept (State.setSem s t k v) := by
  unfold State.setSem
  iterate 40 all_goals try first
    | with_reducible exact h0
    | with_reducible assumption
    | with_reducible refine State.Kept.ite ?_ ?_
    | with_reducible refine State.wr_kept ?_ ..
    | with_reducible refine State.Kept.upto _ _ ?_ (fun _ _ _ => ?_)
    | with_reducible refine State.Kept.fold _ _ ?_ (fun _ _ _ => ?_)
    | with_reducible split
    | with_reducible refine State.Kept.col ?_
    | with_reducible refine State.Kept.lit ?_

theorem semaphoreUpdate_kept {r0 s : State} (h0 : r0.Kept s) (t : Nat) : r0.Kept (semaphoreUpdate t s) := by
  unfold semaphoreUpdate
  iterate 40 all_goals try first
    | with_reducible exact h0
    | with_reducible assumption
    | with_reducible refine State.Kept.ite ?_ ?_
    | with_reducible refine State.emit_kept ?_ ..
    | with_reducible refine State.modTile_kept ?_ ..
    | with_reducible refine State.setSem_kept ?_ ..
    | with_reducible refine State.tileFault_kept ?_ ..
    | with_reducible refine State.wr_kept ?_ ..
    | with_reducible refine State.Kept.upto _ _ ?_ (fun _ _ _ => ?_)
    | with_reducible refine State.Kept.fold _ _ ?_ (fun _ _ _ => ?_)
    | with_reducible split
    | with_reducible refine State.Kept.col ?_
    | with_reducible refine State.Kept.lit ?_

theorem semaphoreGrant_kept {r0 s : State} (h0 : r0.Kept s) (t : Nat) (k : Nat) : r0.Kept (semaphoreGrant t k s) := by
  unfold semaphoreGrant
  iterate 40 all_goals try first
    | with_reducible exact h0
    | with_reducible assumption
    | with_reducible refine State.Kept.ite ?_ ?_
    | with_reducible refine State.grant_kept ?_ ..
    | with_reducible refine State.modTile_kept ?_ ..
    | with_reducible refine State.setSem_kept ?_ ..
    | with_reducible refine State.Kept.upto _ _ ?_ (fun _ _ _ => ?_)
    | with_reducible refine State.Kept.fold _ _ ?_ (fun _ _ _ => ?_)
    | with_reducible split
    | with_reducible refine State.Kept.col ?_
    | with_reducible refine State.Kept.lit ?_

theorem streamCounterSatisfy_kept {r0 s : State} (h0 : r0.Kept s) (t : Nat) : r0.Kept (streamCounterSatisfy t s) := by
  unfold streamCounterSatisfy
  iterate 40 all_goals try first
    | with_reducible exact h0
    | with_reducible assumption
    | with_reducible refine State.Kept.ite ?_ ?_
    | with_reducible refine State.grant_kept ?_ ..
    | with_reducible refine State.Kept.upto _ _ ?_ (fun _ _ _ => ?_)
    | with_reducible refine State.Kept.fold _ _ ?_ (fun _ _ _ => ?_)
    | with_reducible refine State.Kept.fold2 _ _ ?_ (fun _ _ _ => ?_)
    | with_reducible refine State.Kept.fold1 _ _ ?_ (fun _ _ _ => ?_)
    | with_reducible refine State.Kept.fold2' (by assumption) ?_ (fun _ _ _ => ?_)
    | with_reducible refine State.Kept.fold1' (by assumption) ?_ (fun _ _ _ => ?_)
    | with_reducible split
    | with_reducible refine State.Kept.col ?_
    | with_reducible refine State.Kept.lit ?_

theorem State.register_kept {r0 s : State} (h0 : r0.Kept s) (t : Nat) (e : Nat) (g : Nat) : r0.Kept (State.register s t e g) := by
  unfold State.register
  iterate 40 all_goals try first
    | with_reducible exact h0
    | with_reducible assumption
    | with_reducible refine State.Kept.ite ?_ ?_
    | with_reducible refine State.setEngine_kept ?_ ..
    | with_reducible refine State.Kept.upto _ _ ?_ (fun _ _ _ => ?_)
    | with_reducible refine State.Kept.fold _ _ ?_ (fun _ _ _ => ?_)
    | with_reducible split
    | with_reducible refine State.Kept.col ?_
    | with_reducible refine State.Kept.lit ?_

theorem chorusOp_kept {r0 s : State} (h0 : r0.Kept s) (m : Nat) (t : Nat) (e : Nat) (w : OpWord) : r0.Kept (chorusOp m t e w s) := by
  unfold chorusOp
  iterate 40 all_goals try first
    | with_reducible exact h0
    | with_reducible assumption
    | with_reducible refine State.arrive_kept' (by assumption) ?_
    | with_reducible refine State.Kept.ite ?_ ?_
    | with_reducible refine State.acquire_kept ?_ ..
    | with_reducible refine State.arrive_kept ?_ ..
    | with_reducible refine State.hold_kept ?_ ..
    | with_reducible refine State.issueOp_kept ?_ _ _ _ _ _ _ (fun _ _ _ => ?_)
    | with_reducible refine Issued.keeps_done ?_
    | with_reducible exact Issued.keeps_fault _
    | with_reducible exact Issued.keeps_hold
    | with_reducible refine Issued.keeps_ite ?_ ?_
    | with_reducible refine State.register_kept ?_ ..
    | with_reducible refine State.startWait_kept ?_ ..
    | with_reducible refine State.Kept.upto _ _ ?_ (fun _ _ _ => ?_)
    | with_reducible refine State.Kept.fold _ _ ?_ (fun _ _ _ => ?_)
    | with_reducible split
    | with_reducible refine State.Kept.col ?_
    | with_reducible refine State.Kept.lit ?_

theorem State.phaseEngine_kept {r0 s : State} (h0 : r0.Kept s) (g : Nat) (t : Nat) (e : Nat) : r0.Kept (State.phaseEngine s g t e) := by
  unfold State.phaseEngine
  iterate 40 all_goals try first
    | with_reducible exact h0
    | with_reducible assumption
    | with_reducible refine State.arrive_kept' (by assumption) ?_
    | with_reducible refine State.Kept.ite ?_ ?_
    | with_reducible refine State.arrive_kept ?_ ..
    | with_reducible refine State.endWait_kept ?_ ..
    | with_reducible refine State.grant_kept ?_ ..
    | with_reducible refine State.register_kept ?_ ..
    | with_reducible refine State.setEngine_kept ?_ ..
    | with_reducible refine State.Kept.upto _ _ ?_ (fun _ _ _ => ?_)
    | with_reducible refine State.Kept.fold _ _ ?_ (fun _ _ _ => ?_)
    | with_reducible split
    | with_reducible refine State.Kept.col ?_
    | with_reducible refine State.Kept.lit ?_

theorem chorusPhaseComplete_kept {r0 s : State} (h0 : r0.Kept s) (g : Nat) : r0.Kept (chorusPhaseComplete g s) := by
  unfold chorusPhaseComplete
  iterate 40 all_goals try first
    | with_reducible exact h0
    | with_reducible assumption
    | with_reducible refine State.Kept.ite ?_ ?_
    | with_reducible refine State.phaseEngine_kept ?_ ..
    | with_reducible refine State.wr_kept ?_ ..
    | with_reducible refine State.Kept.upto _ _ ?_ (fun _ _ _ => ?_)
    | with_reducible refine State.Kept.fold _ _ ?_ (fun _ _ _ => ?_)
    | with_reducible refine State.Kept.fold2 _ _ ?_ (fun _ _ _ => ?_)
    | with_reducible refine State.Kept.fold1 _ _ ?_ (fun _ _ _ => ?_)
    | with_reducible refine State.Kept.fold2' (by assumption) ?_ (fun _ _ _ => ?_)
    | with_reducible refine State.Kept.fold1' (by assumption) ?_ (fun _ _ _ => ?_)
    | with_reducible split
    | with_reducible refine State.Kept.col ?_
    | with_reducible refine State.Kept.lit ?_

theorem deadlockDetectorFire_kept {r0 s : State} (h0 : r0.Kept s) (t : Nat) : r0.Kept (deadlockDetectorFire t s) := by
  unfold deadlockDetectorFire
  iterate 40 all_goals try first
    | with_reducible exact h0
    | with_reducible assumption
    | with_reducible refine State.Kept.ite ?_ ?_
    | with_reducible refine State.countT_kept ?_ ..
    | with_reducible refine State.emit_kept ?_ ..
    | with_reducible refine State.modTile_kept ?_ ..
    | with_reducible refine State.raise_kept ?_ ..
    | with_reducible refine State.tileFault_kept ?_ ..
    | with_reducible refine State.wr_kept ?_ ..
    | with_reducible refine State.Kept.upto _ _ ?_ (fun _ _ _ => ?_)
    | with_reducible refine State.Kept.fold _ _ ?_ (fun _ _ _ => ?_)
    | with_reducible refine State.Kept.fold2 _ _ ?_ (fun _ _ _ => ?_)
    | with_reducible refine State.Kept.fold1 _ _ ?_ (fun _ _ _ => ?_)
    | with_reducible refine State.Kept.fold2' (by assumption) ?_ (fun _ _ _ => ?_)
    | with_reducible refine State.Kept.fold1' (by assumption) ?_ (fun _ _ _ => ?_)
    | with_reducible split
    | with_reducible refine State.Kept.col ?_
    | with_reducible refine State.Kept.lit ?_

theorem State.nocAccess_kept {r0 s : State} (h0 : r0.Kept s) (src : Nat) (eng : Nat) (dest : Nat) (plane : Nat) (write : Bool) : r0.Kept (State.nocAccess s src eng dest plane write).2 := by
  unfold State.nocAccess
  iterate 40 all_goals try first
    | with_reducible exact h0
    | with_reducible assumption
    | with_reducible refine State.Kept.ite ?_ ?_
    | with_reducible refine State.Kept.ite2 ?_ ?_
    | with_reducible refine State.Kept.ite22 ?_ ?_
    | with_reducible refine State.Kept.ite1 ?_ ?_
    | with_reducible refine State.emit_kept ?_ ..
    | with_reducible refine State.nocError_kept ?_ ..
    | with_reducible refine State.tileNocErr_kept ?_ ..
    | with_reducible refine State.Kept.upto _ _ ?_ (fun _ _ _ => ?_)
    | with_reducible refine State.Kept.fold _ _ ?_ (fun _ _ _ => ?_)
    | with_reducible split
    | dsimp only
    | with_reducible refine State.Kept.col ?_
    | with_reducible refine State.Kept.lit ?_

theorem State.nocAccess_kept' {r0 s s1 : State} {src : Nat} {eng : Nat} {dest : Nat} {plane : Nat} {write : Bool} {x0 : Bool} (e0 : State.nocAccess s src eng dest plane write = (x0, s1)) (h0 : r0.Kept s) : r0.Kept s1 := by
  have g0 := State.nocAccess_kept h0 src eng dest plane write
  rw [e0] at g0
  exact g0

theorem nocPacketDelivery_kept {r0 s : State} (h0 : r0.Kept s) (p : Packet) : r0.Kept (nocPacketDelivery p s) := by
  unfold nocPacketDelivery
  iterate 40 all_goals try first
    | with_reducible exact h0
    | with_reducible assumption
    | with_reducible refine State.nocAccess_kept' (by assumption) ?_
    | with_reducible refine State.Kept.ite ?_ ?_
    | with_reducible refine State.nocAccess_kept ?_ ..
    | with_reducible refine State.nocError_kept ?_ ..
    | with_reducible refine State.send_kept ?_ ..
    | with_reducible refine State.spFill_kept ?_ ..
    | with_reducible refine State.Kept.upto _ _ ?_ (fun _ _ _ => ?_)
    | with_reducible refine State.Kept.fold _ _ ?_ (fun _ _ _ => ?_)
    | with_reducible split
    | with_reducible refine State.Kept.col ?_
    | with_reducible refine State.Kept.lit ?_

theorem mmaArrayStart_kept {r0 s : State} (h0 : r0.Kept s) (t : Nat) : r0.Kept (mmaArrayStart t s) := by
  unfold mmaArrayStart
  iterate 40 all_goals try first
    | with_reducible exact h0
    | with_reducible assumption
    | with_reducible refine State.readCells_kept' (by assumption) ?_
    | with_reducible refine State.Kept.ite ?_ ?_
    | with_reducible refine State.bankUse_kept ?_ ..
    | with_reducible refine State.countT_kept ?_ ..
    | with_reducible refine State.emit_kept ?_ ..
    | with_reducible refine State.emitN_kept ?_ ..
    | with_reducible refine State.faultSettle_kept ?_ ..
    | with_reducible refine State.mxeFlags_kept ?_ ..
    | with_reducible refine State.readCells_kept ?_ ..
    | with_reducible refine State.sat_kept ?_ ..
    | with_reducible refine State.setTile_kept ?_ ..
    | with_reducible refine State.slot_kept ?_ ..
    | with_reducible refine State.Kept.upto _ _ ?_ (fun _ _ _ => ?_)
    | with_reducible refine State.Kept.fold _ _ ?_ (fun _ _ _ => ?_)
    | with_reducible refine State.Kept.fold2 _ _ ?_ (fun _ _ _ => ?_)
    | with_reducible refine State.Kept.fold1 _ _ ?_ (fun _ _ _ => ?_)
    | with_reducible refine State.Kept.fold2' (by assumption) ?_ (fun _ _ _ => ?_)
    | with_reducible refine State.Kept.fold1' (by assumption) ?_ (fun _ _ _ => ?_)
    | with_reducible split
    | with_reducible refine State.Kept.col ?_
    | with_reducible refine State.Kept.lit ?_

theorem fstBankRead_kept {r0 s : State} (h0 : r0.Kept s) (t : Nat) : r0.Kept (fstBankRead t s) := by
  unfold fstBankRead
  iterate 40 all_goals try first
    | with_reducible exact h0
    | with_reducible assumption
    | with_reducible refine State.Kept.ite ?_ ?_
    | with_reducible refine State.bankUse_kept ?_ ..
    | with_reducible refine State.countT_kept ?_ ..
    | with_reducible refine State.emit_kept ?_ ..
    | with_reducible refine State.faultSettle_kept ?_ ..
    | with_reducible refine State.fill_kept ?_ ..
    | with_reducible refine State.mxeFlags_kept ?_ ..
    | with_reducible refine State.setTile_kept ?_ ..
    | with_reducible refine State.slot_kept ?_ ..
    | with_reducible refine State.spPatch_kept ?_ ..
    | with_reducible refine State.Kept.upto _ _ ?_ (fun _ _ _ => ?_)
    | with_reducible refine State.Kept.fold _ _ ?_ (fun _ _ _ => ?_)
    | with_reducible split
    | with_reducible refine State.Kept.col ?_
    | with_reducible refine State.Kept.lit ?_

theorem State.vopGrant_kept {r0 s : State} (h0 : r0.Kept s) (t : Nat) (r : VRun) (cell : Nat) (consume : Bool) : r0.Kept (State.vopGrant s t r cell consume).1 := by
  unfold State.vopGrant
  iterate 40 all_goals try first
    | with_reducible exact h0
    | with_reducible assumption
    | with_reducible refine State.Kept.ite ?_ ?_
    | with_reducible refine State.Kept.ite2 ?_ ?_
    | with_reducible refine State.Kept.ite22 ?_ ?_
    | with_reducible refine State.Kept.ite1 ?_ ?_
    | with_reducible refine State.acquire_kept ?_ ..
    | with_reducible refine State.setFull_kept ?_ ..
    | with_reducible refine State.Kept.upto _ _ ?_ (fun _ _ _ => ?_)
    | with_reducible refine State.Kept.fold _ _ ?_ (fun _ _ _ => ?_)
    | with_reducible split
    | dsimp only
    | with_reducible refine State.Kept.col ?_
    | with_reducible refine State.Kept.lit ?_

theorem State.vopGrant_kept' {r0 s s1 : State} {t : Nat} {r : VRun} {cell : Nat} {consume : Bool} {x1 : VRun} (e0 : State.vopGrant s t r cell consume = (s1, x1)) (h0 : r0.Kept s) : r0.Kept s1 := by
  have g0 := State.vopGrant_kept h0 t r cell consume
  rw [e0] at g0
  exact g0

theorem State.vopWait_kept {r0 s : State} (h0 : r0.Kept s) (t : Nat) (l : List (Nat × Bool)) (r : VRun) : r0.Kept (State.vopWait t l s r).1 := by
  induction l generalizing s r with
  | nil => exact h0
  | cons x l ih =>
    obtain ⟨cell, con⟩ := x
    unfold State.vopWait
    split
    · show r0.Kept (State.vopWait t l (State.vopGrant (s.bankUse t 1 [cell]) t r cell con).1 (State.vopGrant (s.bankUse t 1 [cell]) t r cell con).2).1
      exact ih (State.vopGrant_kept (State.bankUse_kept h0 ..) ..) _
    · exact h0

theorem State.vopWait_kept' {r0 s s1 : State} {t : Nat} {l : List (Nat × Bool)} {r r1 : VRun} {b : Bool}
    (e0 : State.vopWait t l s r = (s1, r1, b)) (h0 : r0.Kept s) : r0.Kept s1 := by
  have g0 := State.vopWait_kept h0 t l r
  rw [e0] at g0
  exact g0

theorem State.vopPos_kept {r0 s : State} (h0 : r0.Kept s) (t : Nat) (r : VRun) : r0.Kept (State.vopPos s t r).1 := by
  unfold State.vopPos
  iterate 40 all_goals try first
    | with_reducible exact h0
    | with_reducible assumption
    | with_reducible refine State.Kept.ite ?_ ?_
    | with_reducible refine State.Kept.ite2 ?_ ?_
    | with_reducible refine State.Kept.ite22 ?_ ?_
    | with_reducible refine State.Kept.ite1 ?_ ?_
    | with_reducible refine State.bankUse_kept ?_ ..
    | with_reducible refine State.countT_kept ?_ ..
    | with_reducible refine State.emitN_kept ?_ ..
    | with_reducible refine State.fill_kept ?_ ..
    | with_reducible refine State.flags_kept ?_ ..
    | with_reducible refine State.slot_kept ?_ ..
    | with_reducible refine State.spPatch_kept ?_ ..
    | with_reducible refine State.Kept.upto _ _ ?_ (fun _ _ _ => ?_)
    | with_reducible refine State.Kept.fold _ _ ?_ (fun _ _ _ => ?_)
    | with_reducible refine State.Kept.fold2 _ _ ?_ (fun _ _ _ => ?_)
    | with_reducible refine State.Kept.fold1 _ _ ?_ (fun _ _ _ => ?_)
    | with_reducible refine State.Kept.fold2' (by assumption) ?_ (fun _ _ _ => ?_)
    | with_reducible refine State.Kept.fold1' (by assumption) ?_ (fun _ _ _ => ?_)
    | with_reducible split
    | dsimp only
    | with_reducible refine State.Kept.col ?_
    | with_reducible refine State.Kept.lit ?_

theorem State.vopPos_kept' {r0 s s1 : State} {t : Nat} {r : VRun} {x1 : VRun} (e0 : State.vopPos s t r = (s1, x1)) (h0 : r0.Kept s) : r0.Kept s1 := by
  have g0 := State.vopPos_kept h0 t r
  rw [e0] at g0
  exact g0

theorem State.vopRun_kept {r0 s : State} (h0 : r0.Kept s) (t n : Nat) (r : VRun) : r0.Kept (State.vopRun t n s r).1 := by
  induction n generalizing s r with
  | zero => exact h0
  | succ n ih =>
    unfold State.vopRun
    split
    · exact h0
    · split
      · next e => exact State.vopWait_kept' e h0
      · next e => exact ih (State.vopPos_kept (State.vopWait_kept' e h0) ..) _

theorem State.vopRun_kept' {r0 s s1 : State} {t n : Nat} {r r1 : VRun}
    (e0 : State.vopRun t n s r = (s1, r1)) (h0 : r0.Kept s) : r0.Kept s1 := by
  have g0 := State.vopRun_kept h0 t n r
  rw [e0] at g0
  exact g0

theorem State.vopEnd_kept {r0 s : State} (h0 : r0.Kept s) (t : Nat) (r : VRun) : r0.Kept (State.vopEnd s t r) := by
  unfold State.vopEnd
  iterate 40 all_goals try first
    | with_reducible exact h0
    | with_reducible assumption
    | with_reducible refine State.Kept.ite ?_ ?_
    | with_reducible refine State.emit_kept ?_ ..
    | with_reducible refine State.faultSettle_kept ?_ ..
    | with_reducible refine State.modTile_kept ?_ ..
    | with_reducible refine State.slot_kept ?_ ..
    | with_reducible refine State.Kept.upto _ _ ?_ (fun _ _ _ => ?_)
    | with_reducible refine State.Kept.fold _ _ ?_ (fun _ _ _ => ?_)
    | with_reducible refine State.Kept.fold2 _ _ ?_ (fun _ _ _ => ?_)
    | with_reducible refine State.Kept.fold1 _ _ ?_ (fun _ _ _ => ?_)
    | with_reducible refine State.Kept.fold2' (by assumption) ?_ (fun _ _ _ => ?_)
    | with_reducible refine State.Kept.fold1' (by assumption) ?_ (fun _ _ _ => ?_)
    | with_reducible split
    | with_reducible refine State.Kept.col ?_
    | with_reducible refine State.Kept.lit ?_

theorem State.vopGo_kept {r0 s : State} (h0 : r0.Kept s) (t : Nat) : r0.Kept (State.vopGo s t) := by
  unfold State.vopGo
  iterate 40 all_goals try first
    | with_reducible exact h0
    | with_reducible assumption
    | with_reducible refine State.vopRun_kept' (by assumption) ?_
    | with_reducible refine State.Kept.ite ?_ ?_
    | with_reducible refine State.modTile_kept ?_ ..
    | with_reducible refine State.vopEnd_kept ?_ ..
    | with_reducible refine State.vopRun_kept ?_ ..
    | with_reducible refine State.Kept.upto _ _ ?_ (fun _ _ _ => ?_)
    | with_reducible refine State.Kept.fold _ _ ?_ (fun _ _ _ => ?_)
    | with_reducible refine State.Kept.pair2 (by assumption) ?_ ?_
    | with_reducible refine State.Kept.pair22 (by assumption) ?_ ?_
    | with_reducible split
    | with_reducible refine State.Kept.col ?_
    | with_reducible refine State.Kept.lit ?_

theorem vopStart_kept {r0 s : State} (h0 : r0.Kept s) (t : Nat) : r0.Kept (vopStart t s) := by
  unfold vopStart
  iterate 40 all_goals try first
    | with_reducible exact h0
    | with_reducible assumption
    | with_reducible refine State.Kept.ite ?_ ?_
    | with_reducible refine State.setTile_kept ?_ ..
    | with_reducible refine State.vopGo_kept ?_ ..
    | with_reducible refine State.Kept.upto _ _ ?_ (fun _ _ _ => ?_)
    | with_reducible refine State.Kept.fold _ _ ?_ (fun _ _ _ => ?_)
    | with_reducible split
    | with_reducible refine State.Kept.col ?_
    | with_reducible refine State.Kept.lit ?_

theorem State.allocate_kept {r0 s : State} (h0 : r0.Kept s) (t : Nat) (line : Nat) (d : Cell64) : r0.Kept (State.allocate s t line d) := by
  unfold State.allocate
  iterate 40 all_goals try first
    | with_reducible exact h0
    | with_reducible assumption
    | with_reducible refine State.fresh_kept' (by assumption) ?_
    | with_reducible refine State.Kept.ite ?_ ?_
    | with_reducible refine State.fresh_kept ?_ ..
    | with_reducible refine State.modTile_kept ?_ ..
    | with_reducible refine State.Kept.upto _ _ ?_ (fun _ _ _ => ?_)
    | with_reducible refine State.Kept.fold _ _ ?_ (fun _ _ _ => ?_)
    | with_reducible refine State.Kept.pair2 (by assumption) ?_ ?_
    | with_reducible refine State.Kept.pair22 (by assumption) ?_ ?_
    | with_reducible split
    | with_reducible refine State.Kept.col ?_
    | with_reducible refine State.Kept.lit ?_

theorem State.takeLanded_kept {r0 s : State} (h0 : r0.Kept s) (t : Nat) (space : Nat) (tile : Nat) (addr : Nat) : r0.Kept (State.takeLanded s t space tile addr).2 := by
  unfold State.takeLanded
  iterate 40 all_goals try first
    | with_reducible exact h0
    | with_reducible assumption
    | with_reducible refine State.Kept.ite ?_ ?_
    | with_reducible refine State.Kept.ite2 ?_ ?_
    | with_reducible refine State.Kept.ite22 ?_ ?_
    | with_reducible refine State.Kept.ite1 ?_ ?_
    | with_reducible refine State.countT_kept ?_ ..
    | with_reducible refine State.setTile_kept ?_ ..
    | with_reducible refine State.Kept.upto _ _ ?_ (fun _ _ _ => ?_)
    | with_reducible refine State.Kept.fold _ _ ?_ (fun _ _ _ => ?_)
    | with_reducible split
    | dsimp only
    | with_reducible refine State.Kept.col ?_
    | with_reducible refine State.Kept.lit ?_

theorem State.takeLanded_kept' {r0 s s1 : State} {t : Nat} {space : Nat} {tile : Nat} {addr : Nat} {x0 : Option Cell64} (e0 : State.takeLanded s t space tile addr = (x0, s1)) (h0 : r0.Kept s) : r0.Kept s1 := by
  have g0 := State.takeLanded_kept h0 t space tile addr
  rw [e0] at g0
  exact g0

theorem State.promote_kept {r0 s : State} (h0 : r0.Kept s) (t : Nat) (key : Nat) : r0.Kept (State.promote s t key) := by
  unfold State.promote
  iterate 40 all_goals try first
    | with_reducible exact h0
    | with_reducible assumption
    | with_reducible refine State.Kept.ite ?_ ?_
    | with_reducible refine State.setCc_kept ?_ ..
    | with_reducible refine State.Kept.upto _ _ ?_ (fun _ _ _ => ?_)
    | with_reducible refine State.Kept.fold _ _ ?_ (fun _ _ _ => ?_)
    | with_reducible split
    | with_reducible refine State.Kept.col ?_
    | with_reducible refine State.Kept.lit ?_

theorem State.takePrefetch_kept {r0 s : State} (h0 : r0.Kept s) (t : Nat) (space : Nat) (tile : Nat) (addr : Nat) : r0.Kept (State.takePrefetch s t space tile addr).2.2 := by
  unfold State.takePrefetch
  iterate 40 all_goals try first
    | with_reducible exact h0
    | with_reducible assumption
    | with_reducible refine State.takeLanded_kept' (by assumption) ?_
    | with_reducible refine State.Kept.ite ?_ ?_
    | with_reducible refine State.Kept.ite2 ?_ ?_
    | with_reducible refine State.Kept.ite22 ?_ ?_
    | with_reducible refine State.Kept.ite1 ?_ ?_
    | with_reducible refine State.countT_kept ?_ ..
    | with_reducible refine State.promote_kept ?_ ..
    | with_reducible refine State.setTile_kept ?_ ..
    | with_reducible refine State.takeLanded_kept ?_ ..
    | with_reducible refine State.Kept.upto _ _ ?_ (fun _ _ _ => ?_)
    | with_reducible refine State.Kept.fold _ _ ?_ (fun _ _ _ => ?_)
    | with_reducible split
    | dsimp only
    | with_reducible refine State.Kept.col ?_
    | with_reducible refine State.Kept.lit ?_

theorem State.takePrefetch_kept' {r0 s s1 : State} {t : Nat} {space : Nat} {tile : Nat} {addr : Nat} {x0 : Option Cell64} {x1 : Bool} (e0 : State.takePrefetch s t space tile addr = (x0, x1, s1)) (h0 : r0.Kept s) : r0.Kept s1 := by
  have g0 := State.takePrefetch_kept h0 t space tile addr
  rw [e0] at g0
  exact g0

theorem State.dropPrefetch_kept {r0 s : State} (h0 : r0.Kept s) (t : Nat) (space : Nat) (tile : Nat) (addr : Nat) : r0.Kept (State.dropPrefetch s t space tile addr) := by
  unfold State.dropPrefetch
  iterate 40 all_goals try first
    | with_reducible exact h0
    | with_reducible assumption
    | with_reducible refine State.Kept.ite ?_ ?_
    | with_reducible refine State.countT_kept ?_ ..
    | with_reducible refine State.setTile_kept ?_ ..
    | with_reducible refine State.Kept.upto _ _ ?_ (fun _ _ _ => ?_)
    | with_reducible refine State.Kept.fold _ _ ?_ (fun _ _ _ => ?_)
    | with_reducible split
    | with_reducible refine State.Kept.col ?_
    | with_reducible refine State.Kept.lit ?_

theorem State.readError_kept {r0 s : State} (h0 : r0.Kept s) (t : Nat) (cause : Nat) (addr : Nat) (off : Nat) : r0.Kept (State.readError s t cause addr off) := by
  unfold State.readError
  iterate 40 all_goals try first
    | with_reducible exact h0
    | with_reducible assumption
    | with_reducible refine State.Kept.ite ?_ ?_
    | with_reducible refine State.countT_kept ?_ ..
    | with_reducible refine State.emit_kept ?_ ..
    | with_reducible refine State.raise_kept ?_ ..
    | with_reducible refine State.Kept.upto _ _ ?_ (fun _ _ _ => ?_)
    | with_reducible refine State.Kept.fold _ _ ?_ (fun _ _ _ => ?_)
    | with_reducible split
    | with_reducible refine State.Kept.col ?_
    | with_reducible refine State.Kept.lit ?_

theorem State.writeError_kept {r0 s : State} (h0 : r0.Kept s) (t : Nat) (cause : Nat) (addr : Nat) (off : Nat) : r0.Kept (State.writeError s t cause addr off) := by
  unfold State.writeError
  iterate 40 all_goals try first
    | with_reducible exact h0
    | with_reducible assumption
    | with_reducible refine State.Kept.ite ?_ ?_
    | with_reducible refine State.countT_kept ?_ ..
    | with_reducible refine State.emit_kept ?_ ..
    | with_reducible refine State.raise_kept ?_ ..
    | with_reducible refine State.Kept.upto _ _ ?_ (fun _ _ _ => ?_)
    | with_reducible refine State.Kept.fold _ _ ?_ (fun _ _ _ => ?_)
    | with_reducible split
    | with_reducible refine State.Kept.col ?_
    | with_reducible refine State.Kept.lit ?_

theorem deviceData_kept {r0 : State} (t key : Nat) (on : Bool) (r : Option (Option Cell64) × State) (h0 : r0.Kept r.2) :
    r0.Kept (deviceData t key on r).2 := by
  obtain ⟨o, s⟩ := r
  cases o with
  | none => exact h0
  | some d => exact State.Kept.ite (State.allocate_kept h0 _ _ _) h0

theorem State.deviceRead_kept {r0 s : State} (h0 : r0.Kept s) (t : Nat) (addr : Nat) (off : Nat) : r0.Kept (State.deviceRead s t addr off).2 := by
  unfold State.deviceRead
  iterate 40 all_goals try first
    | with_reducible exact h0
    | with_reducible assumption
    | with_reducible refine State.fresh_kept' (by assumption) ?_
    | with_reducible refine State.portRead_kept' (by assumption) ?_
    | with_reducible refine State.resolve_kept' (by assumption) ?_
    | with_reducible refine State.takeLanded_kept' (by assumption) ?_
    | with_reducible refine State.takePrefetch_kept' (by assumption) ?_
    | with_reducible refine State.Kept.ite ?_ ?_
    | with_reducible refine State.Kept.ite2 ?_ ?_
    | with_reducible refine State.Kept.ite22 ?_ ?_
    | with_reducible refine State.Kept.ite1 ?_ ?_
    | with_reducible refine State.allocate_kept ?_ ..
    | with_reducible refine State.countT_kept ?_ ..
    | with_reducible refine State.fresh_kept ?_ ..
    | with_reducible refine State.modTile_kept ?_ ..
    | with_reducible refine State.portRead_kept ?_ ..
    | with_reducible refine State.readError_kept ?_ ..
    | with_reducible refine State.resolve_kept ?_ ..
    | with_reducible refine State.takeLanded_kept ?_ ..
    | with_reducible refine State.takePrefetch_kept ?_ ..
    | with_reducible refine deviceData_kept _ _ _ _ ?_
    | with_reducible refine State.Kept.upto _ _ ?_ (fun _ _ _ => ?_)
    | with_reducible refine State.Kept.fold _ _ ?_ (fun _ _ _ => ?_)
    | with_reducible refine State.Kept.pair2 (by assumption) ?_ ?_
    | with_reducible refine State.Kept.pair22 (by assumption) ?_ ?_
    | with_reducible split
    | dsimp only
    | with_reducible refine State.Kept.col ?_
    | with_reducible refine State.Kept.lit ?_

theorem State.deviceRead_kept' {r0 s s1 : State} {t : Nat} {addr : Nat} {off : Nat} {x0 : Option GotCell} (e0 : State.deviceRead s t addr off = (x0, s1)) (h0 : r0.Kept s) : r0.Kept s1 := by
  have g0 := State.deviceRead_kept h0 t addr off
  rw [e0] at g0
  exact g0

theorem State.sourceRead_kept {r0 s : State} (h0 : r0.Kept s) (t : Nat) (j : MoveJob) (cell : Nat) : r0.Kept (State.sourceRead s t j cell).2 := by
  unfold State.sourceRead
  iterate 40 all_goals try first
    | with_reducible exact h0
    | with_reducible assumption
    | with_reducible refine State.deviceRead_kept' (by assumption) ?_
    | with_reducible refine State.nocAccess_kept' (by assumption) ?_
    | with_reducible refine State.takeLanded_kept' (by assumption) ?_
    | with_reducible refine State.takePrefetch_kept' (by assumption) ?_
    | with_reducible refine State.Kept.ite ?_ ?_
    | with_reducible refine State.Kept.ite2 ?_ ?_
    | with_reducible refine State.Kept.ite22 ?_ ?_
    | with_reducible refine State.Kept.ite1 ?_ ?_
    | with_reducible refine State.bankUse_kept ?_ ..
    | with_reducible refine State.deviceRead_kept ?_ ..
    | with_reducible refine State.nocAccess_kept ?_ ..
    | with_reducible refine State.readError_kept ?_ ..
    | with_reducible refine State.takeLanded_kept ?_ ..
    | with_reducible refine State.takePrefetch_kept ?_ ..
    | with_reducible refine State.Kept.upto _ _ ?_ (fun _ _ _ => ?_)
    | with_reducible refine State.Kept.fold _ _ ?_ (fun _ _ _ => ?_)
    | with_reducible refine State.Kept.pair2 (by assumption) ?_ ?_
    | with_reducible refine State.Kept.pair22 (by assumption) ?_ ?_
    | with_reducible split
    | dsimp only
    | with_reducible refine State.Kept.col ?_
    | with_reducible refine State.Kept.lit ?_

theorem State.sourceRead_kept' {r0 s s1 : State} {t : Nat} {j : MoveJob} {cell : Nat} {x0 : Option GotCell} (e0 : State.sourceRead s t j cell = (x0, s1)) (h0 : r0.Kept s) : r0.Kept s1 := by
  have g0 := State.sourceRead_kept h0 t j cell
  rw [e0] at g0
  exact g0

theorem State.destWrite_kept {r0 s : State} (h0 : r0.Kept s) (t : Nat) (j : MoveJob) (cell : Nat) (w : WriteData) : r0.Kept (State.destWrite s t j cell w).2 := by
  unfold State.destWrite
  iterate 40 all_goals try first
    | with_reducible exact h0
    | with_reducible assumption
    | with_reducible refine State.nocAccess_kept' (by assumption) ?_
    | with_reducible refine State.portWrite_kept' (by assumption) ?_
    | with_reducible refine State.resolve_kept' (by assumption) ?_
    | with_reducible refine State.Kept.ite ?_ ?_
    | with_reducible refine State.Kept.ite2 ?_ ?_
    | with_reducible refine State.Kept.ite22 ?_ ?_
    | with_reducible refine State.Kept.ite1 ?_ ?_
    | with_reducible refine State.askSnoop_kept ?_ ..
    | with_reducible refine State.bankUse_kept ?_ ..
    | with_reducible refine State.dropPrefetch_kept ?_ ..
    | with_reducible refine State.fill_kept ?_ ..
    | with_reducible refine State.hostPut_kept ?_ ..
    | with_reducible refine State.modTile_kept ?_ ..
    | with_reducible refine State.nocAccess_kept ?_ ..
    | with_reducible refine State.portWrite_kept ?_ ..
    | with_reducible refine State.resolve_kept ?_ ..
    | with_reducible refine State.spFill_kept ?_ ..
    | with_reducible refine State.spWrite_kept ?_ ..
    | with_reducible refine State.writeError_kept ?_ ..
    | with_reducible refine State.Kept.upto _ _ ?_ (fun _ _ _ => ?_)
    | with_reducible refine State.Kept.fold _ _ ?_ (fun _ _ _ => ?_)
    | with_reducible split
    | dsimp only
    | with_reducible refine State.Kept.col ?_
    | with_reducible refine State.Kept.lit ?_

theorem State.destWrite_kept' {r0 s s1 : State} {t : Nat} {j : MoveJob} {cell : Nat} {w : WriteData} {x0 : Bool} (e0 : State.destWrite s t j cell w = (x0, s1)) (h0 : r0.Kept s) : r0.Kept s1 := by
  have g0 := State.destWrite_kept h0 t j cell w
  rw [e0] at g0
  exact g0

theorem State.mveGrant_kept {r0 s : State} (h0 : r0.Kept s) (t : Nat) (r : MRun) (cell : Nat) (consume : Bool) : r0.Kept (State.mveGrant s t r cell consume).1 := by
  unfold State.mveGrant
  iterate 40 all_goals try first
    | with_reducible exact h0
    | with_reducible assumption
    | with_reducible refine State.Kept.ite ?_ ?_
    | with_reducible refine State.Kept.ite2 ?_ ?_
    | with_reducible refine State.Kept.ite22 ?_ ?_
    | with_reducible refine State.Kept.ite1 ?_ ?_
    | with_reducible refine State.acquire_kept ?_ ..
    | with_reducible refine State.setFull_kept ?_ ..
    | with_reducible refine State.Kept.upto _ _ ?_ (fun _ _ _ => ?_)
    | with_reducible refine State.Kept.fold _ _ ?_ (fun _ _ _ => ?_)
    | with_reducible split
    | dsimp only
    | with_reducible refine State.Kept.col ?_
    | with_reducible refine State.Kept.lit ?_

theorem State.mveGrant_kept' {r0 s s1 : State} {t : Nat} {r : MRun} {cell : Nat} {consume : Bool} {x1 : MRun} (e0 : State.mveGrant s t r cell consume = (s1, x1)) (h0 : r0.Kept s) : r0.Kept s1 := by
  have g0 := State.mveGrant_kept h0 t r cell consume
  rw [e0] at g0
  exact g0

theorem State.mveWait_kept {r0 s : State} (h0 : r0.Kept s) (t : Nat) (l : List (Nat × Bool)) (r : MRun) : r0.Kept (State.mveWait t l s r).1 := by
  induction l generalizing s r with
  | nil => exact h0
  | cons x l ih =>
    obtain ⟨cell, con⟩ := x
    unfold State.mveWait
    split
    · show r0.Kept (State.mveWait t l ((State.mveGrant s t r cell con).1.bankUse t 2 [cell]) (State.mveGrant s t r cell con).2).1
      exact ih (State.bankUse_kept (State.mveGrant_kept h0 ..) _ _ _) _
    · exact h0

theorem State.mveWait_kept' {r0 s s1 : State} {t : Nat} {l : List (Nat × Bool)} {r r1 : MRun} {b : Bool}
    (e0 : State.mveWait t l s r = (s1, r1, b)) (h0 : r0.Kept s) : r0.Kept s1 := by
  have g0 := State.mveWait_kept h0 t l r
  rw [e0] at g0
  exact g0

theorem State.askCells_kept {r0 s : State} (h0 : r0.Kept s) (t : Nat) (cells : List Nat) : r0.Kept (State.askCells s t cells) := by
  unfold State.askCells
  iterate 40 all_goals try first
    | with_reducible exact h0
    | with_reducible assumption
    | with_reducible refine State.Kept.ite ?_ ?_
    | with_reducible refine State.askHost_kept ?_ ..
    | with_reducible refine State.Kept.upto _ _ ?_ (fun _ _ _ => ?_)
    | with_reducible refine State.Kept.fold _ _ ?_ (fun _ _ _ => ?_)
    | with_reducible refine State.Kept.fold2 _ _ ?_ (fun _ _ _ => ?_)
    | with_reducible refine State.Kept.fold1 _ _ ?_ (fun _ _ _ => ?_)
    | with_reducible refine State.Kept.fold2' (by assumption) ?_ (fun _ _ _ => ?_)
    | with_reducible refine State.Kept.fold1' (by assumption) ?_ (fun _ _ _ => ?_)
    | with_reducible split
    | with_reducible refine State.Kept.col ?_
    | with_reducible refine State.Kept.lit ?_

theorem State.readCells_kept {r0 s : State} (h0 : r0.Kept s) (t : Nat) (l : List Nat) (r : MRun) : r0.Kept (State.readCells t l s r).1 := by
  induction l generalizing s r with
  | nil => exact h0
  | cons x l ih =>
    unfold State.readCells
    dsimp only
    split
    · exact ih (State.readError_kept h0 ..) _
    · split
      · next e => exact ih (State.sourceRead_kept' e h0) _
      · next e => exact State.stall_kept (State.sourceRead_kept' e h0) _

theorem State.readCells_kept' {r0 s s1 : State} {t : Nat} {l : List Nat} {r r1 : MRun} {b : Bool}
    (e0 : State.readCells t l s r = (s1, r1, b)) (h0 : r0.Kept s) : r0.Kept s1 := by
  have g0 := State.readCells_kept h0 t l r
  rw [e0] at g0
  exact g0

theorem State.landedCells_kept {r0 s : State} (h0 : r0.Kept s) (t : Nat) (l : List Nat) (r : MRun) : r0.Kept (State.landedCells t l s r).1 := by
  induction l generalizing s r with
  | nil => exact h0
  | cons x l ih =>
    unfold State.landedCells
    split
    · next e => exact ih (State.takeLanded_kept' e h0) _
    · next e => exact ih (State.takeLanded_kept' e h0) _

theorem State.landedCells_kept' {r0 s s1 : State} {t : Nat} {l : List Nat} {r r1 : MRun}
    (e0 : State.landedCells t l s r = (s1, r1)) (h0 : r0.Kept s) : r0.Kept s1 := by
  have g0 := State.landedCells_kept h0 t l r
  rw [e0] at g0
  exact g0

theorem State.mveFetch_kept {r0 s : State} (h0 : r0.Kept s) (t : Nat) (r : MRun) (l : List Point) : r0.Kept (State.mveFetch s t r l).1 := by
  unfold State.mveFetch
  dsimp only
  split
  · next e => exact State.mveWait_kept' e h0
  · next s1 r1 e =>
    have h1 := State.mveWait_kept' e h0
    have h2 : ∀ (a : State) (b : MRun), (if r.job.src.space = 3 then State.landedCells t (r1.left l) s1 r1 else (s1, r1)) = (a, b) → r0.Kept a := by
      intro a b q
      split at q
      · exact State.landedCells_kept' q h1
      · cases q; exact h1
    generalize (if r.job.src.space = 3 then State.landedCells t (r1.left l) s1 r1 else (s1, r1)) = p at h2 ⊢
    obtain ⟨s2, r2⟩ := p
    have h3 := h2 s2 r2 rfl
    dsimp only
    split
    · split
      · exact State.stall_kept h3 _
      · exact State.askCells_kept h3 _ _
    · refine State.Kept.ite1 ?_ ?_
      · exact State.stall_kept h3 _
      · refine State.Kept.ite1 ?_ ?_
        · exact State.Kept.fold _ _ h3 (fun _ _ hx => State.askSnoop_kept hx _ _ _)
        · exact State.readCells_kept h3 _ _ _

theorem State.mveFetch_kept' {r0 s s1 : State} {t : Nat} {r r1 : MRun} {l : List Point} {b : Bool}
    (e0 : State.mveFetch s t r l = (s1, r1, b)) (h0 : r0.Kept s) : r0.Kept s1 := by
  have g0 := State.mveFetch_kept h0 t r l
  rw [e0] at g0
  exact g0

theorem State.mveRead_kept {r0 s : State} (h0 : r0.Kept s) (n t : Nat) (r : MRun) : r0.Kept (State.mveRead n s t r).1 := by
  induction n generalizing s r with
  | zero => exact h0
  | succ n ih =>
    unfold State.mveRead
    dsimp only
    have h1 := State.bankUse_kept h0 t 2 (((r.job.walk (s.tile t).spad r).idx.drop r.idx.length).map (·.1))
    split
    · exact h1
    · split
      · next e => exact ih (State.mveFetch_kept' e h1) _
      · next e => exact State.mveFetch_kept' e h1

theorem State.mveRead_kept' {r0 s s1 : State} {n t : Nat} {r r1 : MRun} {o : Option Walk}
    (e0 : State.mveRead n s t r = (s1, r1, o)) (h0 : r0.Kept s) : r0.Kept s1 := by
  have g0 := State.mveRead_kept h0 n t r
  rw [e0] at g0
  exact g0

theorem State.mveCount_kept {r0 s : State} (h0 : r0.Kept s) (t : Nat) (r : MRun) (l : List Point) (m : Moved) (writes : Nat) : r0.Kept (State.mveCount s t r l m writes) := by
  unfold State.mveCount
  iterate 40 all_goals try first
    | with_reducible exact h0
    | with_reducible assumption
    | with_reducible refine State.Kept.ite ?_ ?_
    | with_reducible refine State.countT_kept ?_ ..
    | with_reducible refine State.emitN_kept ?_ ..
    | with_reducible refine State.raise_kept ?_ ..
    | with_reducible refine State.Kept.upto _ _ ?_ (fun _ _ _ => ?_)
    | with_reducible refine State.Kept.fold _ _ ?_ (fun _ _ _ => ?_)
    | with_reducible split
    | with_reducible refine State.Kept.col ?_
    | with_reducible refine State.Kept.lit ?_

theorem State.writeCells_kept {r0 s : State} (h0 : r0.Kept s) (t : Nat) (j : MoveJob) (l : List (Nat × WriteData)) : r0.Kept (State.writeCells t j l s).1 := by
  induction l generalizing s with
  | nil => exact h0
  | cons x l ih =>
    unfold State.writeCells
    split
    · next e => exact ih (State.destWrite_kept' e h0)
    · next e => exact State.stall_kept (State.destWrite_kept' e h0) _

theorem State.writeCells_kept' {r0 s s1 : State} {t : Nat} {j : MoveJob} {l q : List (Nat × WriteData)}
    (e0 : State.writeCells t j l s = (s1, q)) (h0 : r0.Kept s) : r0.Kept s1 := by
  have g0 := State.writeCells_kept h0 t j l
  rw [e0] at g0
  exact g0

theorem State.mveDrain_kept {r0 s : State} (h0 : r0.Kept s) (t : Nat) (r : MRun) (l : List (Nat × WriteData)) : r0.Kept (State.mveDrain s t r l).1 := by
  exact State.writeCells_kept h0 t r.job l

theorem State.mveDrain_kept' {r0 s s1 : State} {t : Nat} {r r1 : MRun} {l : List (Nat × WriteData)} {b : Bool}
    (e0 : State.mveDrain s t r l = (s1, r1, b)) (h0 : r0.Kept s) : r0.Kept s1 := by
  have g0 := State.mveDrain_kept h0 t r l
  rw [e0] at g0
  exact g0

theorem State.mveChunk_kept {r0 s : State} (h0 : r0.Kept s) (t : Nat) (r : MRun) : r0.Kept (State.mveChunk s t r).1 := by
  unfold State.mveChunk
  split
  · exact State.mveDrain_kept h0 _ _ _
  · split
    · next e => exact State.mveRead_kept' e h0
    · next e =>
      have h1 := State.mveRead_kept' e h0
      dsimp only
      refine State.Kept.ite1 ?_ ?_
      · exact State.stall_kept h1 _
      · refine State.Kept.ite1 ?_ ?_
        · exact State.Kept.fold _ _ h1 (fun _ _ hx => State.askSnoop_kept hx _ _ _)
        · exact State.mveDrain_kept (State.mveCount_kept h1 _ _ _ _ _) _ _ _

theorem State.mveChunk_kept' {r0 s s1 : State} {t : Nat} {r r1 : MRun} {b : Bool}
    (e0 : State.mveChunk s t r = (s1, r1, b)) (h0 : r0.Kept s) : r0.Kept s1 := by
  have g0 := State.mveChunk_kept h0 t r
  rw [e0] at g0
  exact g0

theorem State.mveRun_kept {r0 s : State} (h0 : r0.Kept s) (t n : Nat) (r : MRun) : r0.Kept (State.mveRun t n s r).1 := by
  induction n generalizing s r with
  | zero => exact h0
  | succ n ih =>
    unfold State.mveRun
    split
    · exact h0
    · split
      · next e => exact State.mveChunk_kept' e h0
      · next e => exact ih (State.mveChunk_kept' e h0) _

theorem State.mveRun_kept' {r0 s s1 : State} {t n : Nat} {r r1 : MRun}
    (e0 : State.mveRun t n s r = (s1, r1)) (h0 : r0.Kept s) : r0.Kept s1 := by
  have g0 := State.mveRun_kept h0 t n r
  rw [e0] at g0
  exact g0

theorem State.mveGo_kept {r0 s : State} (h0 : r0.Kept s) (t : Nat) : r0.Kept (State.mveGo s t) := by
  unfold State.mveGo
  iterate 40 all_goals try first
    | with_reducible exact h0
    | with_reducible assumption
    | with_reducible refine State.mveRun_kept' (by assumption) ?_
    | with_reducible refine State.Kept.ite ?_ ?_
    | with_reducible refine State.countT_kept ?_ ..
    | with_reducible refine State.faultSettle_kept ?_ ..
    | with_reducible refine State.modTile_kept ?_ ..
    | with_reducible refine State.mveRun_kept ?_ ..
    | with_reducible refine State.Kept.upto _ _ ?_ (fun _ _ _ => ?_)
    | with_reducible refine State.Kept.fold _ _ ?_ (fun _ _ _ => ?_)
    | with_reducible refine State.Kept.pair2 (by assumption) ?_ ?_
    | with_reducible refine State.Kept.pair22 (by assumption) ?_ ?_
    | with_reducible split
    | with_reducible refine State.Kept.col ?_
    | with_reducible refine State.Kept.lit ?_

theorem moveBegin_kept {r0 s : State} (h0 : r0.Kept s) (t : Nat) : r0.Kept (moveBegin t s) := by
  unfold moveBegin
  iterate 40 all_goals try first
    | with_reducible exact h0
    | with_reducible assumption
    | with_reducible refine State.Kept.ite ?_ ?_
    | with_reducible refine State.effects_kept ?_ ..
    | with_reducible refine State.mveGo_kept ?_ ..
    | with_reducible refine State.setTile_kept ?_ ..
    | with_reducible refine State.Kept.upto _ _ ?_ (fun _ _ _ => ?_)
    | with_reducible refine State.Kept.fold _ _ ?_ (fun _ _ _ => ?_)
    | with_reducible split
    | with_reducible refine State.Kept.col ?_
    | with_reducible refine State.Kept.lit ?_

theorem State.mveDeliver_kept {r0 s : State} (h0 : r0.Kept s) (t : Nat) (cells : List (Nat × GotCell)) : r0.Kept (State.mveDeliver s t cells) := by
  unfold State.mveDeliver
  iterate 40 all_goals try first
    | with_reducible exact h0
    | with_reducible assumption
    | with_reducible refine State.Kept.ite ?_ ?_
    | with_reducible refine State.modTile_kept ?_ ..
    | with_reducible refine State.mveGo_kept ?_ ..
    | with_reducible refine State.readError_kept ?_ ..
    | with_reducible refine State.Kept.upto _ _ ?_ (fun _ _ _ => ?_)
    | with_reducible refine State.Kept.fold _ _ ?_ (fun _ _ _ => ?_)
    | with_reducible refine State.Kept.fold2 _ _ ?_ (fun _ _ _ => ?_)
    | with_reducible refine State.Kept.fold1 _ _ ?_ (fun _ _ _ => ?_)
    | with_reducible refine State.Kept.fold2' (by assumption) ?_ (fun _ _ _ => ?_)
    | with_reducible refine State.Kept.fold1' (by assumption) ?_ (fun _ _ _ => ?_)
    | with_reducible split
    | with_reducible refine State.Kept.col ?_
    | with_reducible refine State.Kept.lit ?_

theorem prefetchIssue_kept {r0 s : State} (h0 : r0.Kept s) (t : Nat) (line : Nat) : r0.Kept (prefetchIssue t line s) := by
  unfold prefetchIssue
  iterate 40 all_goals try first
    | with_reducible exact h0
    | with_reducible assumption
    | with_reducible refine State.Kept.ite ?_ ?_
    | with_reducible refine State.askHost_kept ?_ ..
    | with_reducible refine State.countT_kept ?_ ..
    | with_reducible refine State.modTile_kept ?_ ..
    | with_reducible refine State.Kept.upto _ _ ?_ (fun _ _ _ => ?_)
    | with_reducible refine State.Kept.fold _ _ ?_ (fun _ _ _ => ?_)
    | with_reducible split
    | with_reducible refine State.Kept.col ?_
    | with_reducible refine State.Kept.lit ?_

theorem State.landPrefetch_kept {r0 s : State} (h0 : r0.Kept s) (t : Nat) (p : PfLine) (d : Option (Half × Half)) : r0.Kept (State.landPrefetch s t p d) := by
  unfold State.landPrefetch
  iterate 40 all_goals try first
    | with_reducible exact h0
    | with_reducible assumption
    | with_reducible refine State.Kept.ite ?_ ?_
    | with_reducible refine State.countT_kept ?_ ..
    | with_reducible refine State.modTile_kept ?_ ..
    | with_reducible refine State.Kept.upto _ _ ?_ (fun _ _ _ => ?_)
    | with_reducible refine State.Kept.fold _ _ ?_ (fun _ _ _ => ?_)
    | with_reducible split
    | with_reducible refine State.Kept.col ?_
    | with_reducible refine State.Kept.lit ?_

theorem State.prefetchReach_kept {r0 s : State} (h0 : r0.Kept s) (t : Nat) (p : PfLine) : r0.Kept (State.prefetchReach s t p).2 := by
  unfold State.prefetchReach
  iterate 40 all_goals try first
    | with_reducible exact h0
    | with_reducible assumption
    | with_reducible refine State.portRead_kept' (by assumption) ?_
    | with_reducible refine State.Kept.ite ?_ ?_
    | with_reducible refine State.Kept.ite2 ?_ ?_
    | with_reducible refine State.Kept.ite22 ?_ ?_
    | with_reducible refine State.Kept.ite1 ?_ ?_
    | with_reducible refine State.portRead_kept ?_ ..
    | with_reducible refine State.Kept.upto _ _ ?_ (fun _ _ _ => ?_)
    | with_reducible refine State.Kept.fold _ _ ?_ (fun _ _ _ => ?_)
    | with_reducible split
    | dsimp only
    | with_reducible refine State.Kept.col ?_
    | with_reducible refine State.Kept.lit ?_

theorem State.prefetchReach_kept' {r0 s s1 : State} {t : Nat} {p : PfLine} {x0 : Option (Option (Half × Half))} (e0 : State.prefetchReach s t p = (x0, s1)) (h0 : r0.Kept s) : r0.Kept s1 := by
  have g0 := State.prefetchReach_kept h0 t p
  rw [e0] at g0
  exact g0

theorem prefetchArrive_kept {r0 s : State} (h0 : r0.Kept s) (t : Nat) : r0.Kept (prefetchArrive t s) := by
  unfold prefetchArrive
  iterate 40 all_goals try first
    | with_reducible exact h0
    | with_reducible assumption
    | with_reducible refine State.prefetchReach_kept' (by assumption) ?_
    | with_reducible refine State.Kept.ite ?_ ?_
    | with_reducible refine State.landPrefetch_kept ?_ ..
    | with_reducible refine State.prefetchReach_kept ?_ ..
    | with_reducible refine State.setTile_kept ?_ ..
    | with_reducible refine State.Kept.upto _ _ ?_ (fun _ _ _ => ?_)
    | with_reducible refine State.Kept.fold _ _ ?_ (fun _ _ _ => ?_)
    | with_reducible split
    | with_reducible refine State.Kept.col ?_
    | with_reducible refine State.Kept.lit ?_

theorem State.hostPrefetch_kept {r0 s : State} (h0 : r0.Kept s) (t : Nat) (addr : Nat) (d : GotCell) : r0.Kept (State.hostPrefetch s t addr d) := by
  unfold State.hostPrefetch
  iterate 40 all_goals try first
    | with_reducible exact h0
    | with_reducible assumption
    | with_reducible refine State.Kept.ite ?_ ?_
    | with_reducible refine State.askHost_kept ?_ ..
    | with_reducible refine State.countT_kept ?_ ..
    | with_reducible refine State.landPrefetch_kept ?_ ..
    | with_reducible refine State.mveDeliver_kept ?_ ..
    | with_reducible refine State.setTile_kept ?_ ..
    | with_reducible refine State.Kept.upto _ _ ?_ (fun _ _ _ => ?_)
    | with_reducible refine State.Kept.fold _ _ ?_ (fun _ _ _ => ?_)
    | with_reducible split
    | with_reducible refine State.Kept.col ?_
    | with_reducible refine State.Kept.lit ?_

theorem State.grantWatch_kept {r0 s : State} (h0 : r0.Kept s) (t : Nat) (e : Nat) (cell : Nat) : r0.Kept (State.grantWatch s t e cell) := by
  unfold State.grantWatch
  iterate 40 all_goals try first
    | with_reducible exact h0
    | with_reducible assumption
    | with_reducible refine State.mveGrant_kept' (by assumption) ?_
    | with_reducible refine State.vopGrant_kept' (by assumption) ?_
    | with_reducible refine State.Kept.ite ?_ ?_
    | with_reducible refine State.grant_kept ?_ ..
    | with_reducible refine State.modTile_kept ?_ ..
    | with_reducible refine State.mveGrant_kept ?_ ..
    | with_reducible refine State.setFull_kept ?_ ..
    | with_reducible refine State.vopGrant_kept ?_ ..
    | with_reducible refine State.Kept.upto _ _ ?_ (fun _ _ _ => ?_)
    | with_reducible refine State.Kept.fold _ _ ?_ (fun _ _ _ => ?_)
    | with_reducible refine State.Kept.pair2 (by assumption) ?_ ?_
    | with_reducible refine State.Kept.pair22 (by assumption) ?_ ?_
    | with_reducible split
    | with_reducible refine State.Kept.col ?_
    | with_reducible refine State.Kept.lit ?_

theorem State.grantWatches_kept {r0 s : State} (h0 : r0.Kept s) (t cell n : Nat) : r0.Kept (State.grantWatches t cell n s) := by
  induction n generalizing s  with
  | zero => exact h0
  | succ n ih =>
    unfold State.grantWatches
    iterate 40 all_goals try first
      | with_reducible exact h0
      | with_reducible assumption
      | with_reducible refine ih ?_
      | with_reducible refine State.Kept.ite ?_ ?_
      | with_reducible refine State.bankUse_kept ?_ ..
      | with_reducible refine State.grantWatch_kept ?_ ..
      | with_reducible refine State.Kept.upto _ _ ?_ (fun _ _ _ => ?_)
      | with_reducible refine State.Kept.fold _ _ ?_ (fun _ _ _ => ?_)
      | with_reducible split
      | with_reducible refine State.Kept.col ?_
      | with_reducible refine State.Kept.lit ?_

theorem feWatchGrant_kept {r0 s : State} (h0 : r0.Kept s) (t : Nat) (cell : Nat) : r0.Kept (feWatchGrant t cell s) := by
  unfold feWatchGrant
  iterate 40 all_goals try first
    | with_reducible exact h0
    | with_reducible assumption
    | with_reducible refine State.Kept.ite ?_ ?_
    | with_reducible refine State.grantWatches_kept ?_ ..
    | with_reducible refine State.mveGo_kept ?_ ..
    | with_reducible refine State.vopGo_kept ?_ ..
    | with_reducible refine State.Kept.upto _ _ ?_ (fun _ _ _ => ?_)
    | with_reducible refine State.Kept.fold _ _ ?_ (fun _ _ _ => ?_)
    | with_reducible split
    | with_reducible refine State.Kept.col ?_
    | with_reducible refine State.Kept.lit ?_

theorem State.sramWhere_kept {r0 s : State} (h0 : r0.Kept s) (p : SramPlace) : r0.Kept (s.sramWhere p).2 := by
  cases p <;> first | exact h0 | exact State.fresh_kept h0

theorem State.sramWhere_kept' {r0 s s1 : State} {p : SramPlace} {x : Option (Nat × Nat × Nat)} (e0 : s.sramWhere p = (x, s1)) (h0 : r0.Kept s) :
    r0.Kept s1 := by
  have g0 := State.sramWhere_kept h0 p
  rw [e0] at g0
  exact g0

theorem State.sramSpoil_kept {r0 s : State} (h0 : r0.Kept s) (p : SramPlace) : r0.Kept (State.sramSpoil s p) := by
  unfold State.sramSpoil
  iterate 40 all_goals try first
      | with_reducible exact h0
      | with_reducible assumption
      | with_reducible refine State.Kept.ite ?_ ?_
      | with_reducible refine State.countT_kept ?_ ..
      | with_reducible refine State.modTile_kept ?_ ..
      | with_reducible refine State.setBd_kept ?_ ..
      | with_reducible refine State.setEng_kept ?_ ..
      | with_reducible refine State.setEngine_kept ?_ ..
      | with_reducible refine State.setTile_kept ?_ ..
      | with_reducible refine State.Kept.upto _ _ ?_ (fun _ _ _ => ?_)
      | with_reducible refine State.Kept.fold _ _ ?_ (fun _ _ _ => ?_)
      | with_reducible split
      | with_reducible refine State.Kept.col ?_
      | with_reducible refine State.Kept.lit ?_

theorem State.sramErr_kept {r0 s : State} (h0 : r0.Kept s) (x : SramErr) : r0.Kept (State.sramErr s x) := by
  unfold State.sramErr
  iterate 40 all_goals try first
    | with_reducible exact h0
    | with_reducible assumption
    | with_reducible refine State.sramWhere_kept' (by assumption) ?_
    | with_reducible refine State.Kept.ite ?_ ?_
    | with_reducible refine State.emit_kept ?_ ..
    | with_reducible refine State.sat_kept ?_ ..
    | with_reducible refine State.sramSpoil_kept ?_ ..
    | with_reducible refine State.sramWhere_kept ?_ ..
    | with_reducible refine State.Kept.upto _ _ ?_ (fun _ _ _ => ?_)
    | with_reducible refine State.Kept.fold _ _ ?_ (fun _ _ _ => ?_)
    | with_reducible split
    | with_reducible refine State.Kept.col ?_
    | with_reducible refine State.Kept.lit ?_

theorem State.sramErrs_kept {r0 s : State} (h0 : r0.Kept s) (l : List SramErr) : r0.Kept (State.sramErrs s l) := by
  unfold State.sramErrs
  iterate 40 all_goals try first
    | with_reducible exact h0
    | with_reducible assumption
    | with_reducible refine State.Kept.ite ?_ ?_
    | with_reducible refine State.sramErr_kept ?_ ..
    | with_reducible refine State.Kept.upto _ _ ?_ (fun _ _ _ => ?_)
    | with_reducible refine State.Kept.fold _ _ ?_ (fun _ _ _ => ?_)
    | with_reducible refine State.Kept.fold2 _ _ ?_ (fun _ _ _ => ?_)
    | with_reducible refine State.Kept.fold1 _ _ ?_ (fun _ _ _ => ?_)
    | with_reducible refine State.Kept.fold2' (by assumption) ?_ (fun _ _ _ => ?_)
    | with_reducible refine State.Kept.fold1' (by assumption) ?_ (fun _ _ _ => ?_)
    | with_reducible split
    | with_reducible refine State.Kept.col ?_
    | with_reducible refine State.Kept.lit ?_

end Sys2Proof.Machine
end

