-- ==== Sys2Proof/Laws/KeptCard.lean ====
section
/-! SUPPORT. The operations of the card keep the queue and the canonical forms. -/

set_option linter.unusedTactic false
set_option linter.unreachableTactic false

namespace Sys2Proof.Machine

theorem State.setMsix_kept {r0 s : State} (h0 : r0.Kept s) (f : Nat) (off : Nat) (v : Nat) : r0.Kept (State.setMsix s f off v) := by
  unfold State.setMsix
  iterate 40 all_goals try first
    | with_reducible exact h0
    | with_reducible assumption
    | with_reducible refine State.Kept.ite ?_ ?_
    | with_reducible refine State.msix_kept ?_ ..
    | with_reducible refine State.Kept.upto _ _ ?_ (fun _ _ _ => ?_)
    | with_reducible refine State.Kept.fold _ _ ?_ (fun _ _ _ => ?_)
    | with_reducible split
    | with_reducible refine State.Kept.col ?_
    | with_reducible refine State.Kept.lit ?_

theorem State.setPending_kept {r0 s : State} (h0 : r0.Kept s) (f : Nat) (e : Nat) (v : Bool) : r0.Kept (State.setPending s f e v) := by
  unfold State.setPending
  iterate 40 all_goals try first
    | with_reducible exact h0
    | with_reducible assumption
    | with_reducible refine State.Kept.ite ?_ ?_
    | with_reducible refine State.setMsix_kept ?_ ..
    | with_reducible refine State.Kept.upto _ _ ?_ (fun _ _ _ => ?_)
    | with_reducible refine State.Kept.fold _ _ ?_ (fun _ _ _ => ?_)
    | with_reducible split
    | with_reducible refine State.Kept.col ?_
    | with_reducible refine State.Kept.lit ?_

theorem State.msix_kept {r0 s : State} (h0 : r0.Kept s) (f : Nat) (e : Nat) : r0.Kept (State.msix s f e) := by
  unfold State.msix
  iterate 40 all_goals try first
    | with_reducible exact h0
    | with_reducible assumption
    | with_reducible refine State.Kept.ite ?_ ?_
    | with_reducible refine State.send_kept ?_ ..
    | with_reducible refine State.setPending_kept ?_ ..
    | with_reducible refine State.Kept.upto _ _ ?_ (fun _ _ _ => ?_)
    | with_reducible refine State.Kept.fold _ _ ?_ (fun _ _ _ => ?_)
    | with_reducible split
    | with_reducible refine State.Kept.col ?_
    | with_reducible refine State.Kept.lit ?_

theorem State.msixPending_kept {r0 s : State} (h0 : r0.Kept s) (f : Nat) (e : Nat) : r0.Kept (State.msixPending s f e) := by
  unfold State.msixPending
  iterate 40 all_goals try first
    | with_reducible exact h0
    | with_reducible assumption
    | with_reducible refine State.Kept.ite ?_ ?_
    | with_reducible refine State.msix_kept ?_ ..
    | with_reducible refine State.setPending_kept ?_ ..
    | with_reducible refine State.Kept.upto _ _ ?_ (fun _ _ _ => ?_)
    | with_reducible refine State.Kept.fold _ _ ?_ (fun _ _ _ => ?_)
    | with_reducible split
    | with_reducible refine State.Kept.col ?_
    | with_reducible refine State.Kept.lit ?_

theorem State.ignoreBell_kept {r0 s : State} (h0 : r0.Kept s)  : r0.Kept (State.ignoreBell s) := by
  unfold State.ignoreBell
  iterate 40 all_goals try first
    | with_reducible exact h0
    | with_reducible assumption
    | with_reducible refine State.Kept.ite ?_ ?_
    | with_reducible refine State.countR_kept ?_ ..
    | with_reducible refine State.Kept.upto _ _ ?_ (fun _ _ _ => ?_)
    | with_reducible refine State.Kept.fold _ _ ?_ (fun _ _ _ => ?_)
    | with_reducible split
    | with_reducible refine State.Kept.col ?_
    | with_reducible refine State.Kept.lit ?_

theorem State.doorbell_kept {r0 s : State} (h0 : r0.Kept s) (n : Nat) (tail : Nat) (seq : Nat) : r0.Kept (State.doorbell s n tail seq) := by
  unfold State.doorbell
  iterate 40 all_goals try first
    | with_reducible exact h0
    | with_reducible assumption
    | with_reducible refine State.Kept.ite ?_ ?_
    | with_reducible refine State.emit_kept ?_ ..
    | with_reducible refine State.haltRing_kept ?_ ..
    | with_reducible refine State.ignoreBell_kept ?_ ..
    | with_reducible refine State.raise_kept ?_ ..
    | with_reducible refine State.setRing_kept ?_ ..
    | with_reducible refine State.Kept.upto _ _ ?_ (fun _ _ _ => ?_)
    | with_reducible refine State.Kept.fold _ _ ?_ (fun _ _ _ => ?_)
    | with_reducible split
    | with_reducible refine State.Kept.col ?_
    | with_reducible refine State.Kept.lit ?_

theorem State.submitBell_kept {r0 s : State} (h0 : r0.Kept s) (f : Nat) (page : Nat) (size : Nat) (data : Nat) : r0.Kept (State.submitBell s f page size data) := by
  unfold State.submitBell
  iterate 40 all_goals try first
    | with_reducible exact h0
    | with_reducible assumption
    | with_reducible refine State.Kept.ite ?_ ?_
    | with_reducible refine State.doorbell_kept ?_ ..
    | with_reducible refine State.ignoreBell_kept ?_ ..
    | with_reducible refine State.Kept.upto _ _ ?_ (fun _ _ _ => ?_)
    | with_reducible refine State.Kept.fold _ _ ?_ (fun _ _ _ => ?_)
    | with_reducible split
    | with_reducible refine State.Kept.col ?_
    | with_reducible refine State.Kept.lit ?_

theorem State.hostErr_kept {r0 s : State} (h0 : r0.Kept s) (f : Nat) (status : Nat) : r0.Kept (State.hostErr s f status) := by
  unfold State.hostErr
  iterate 40 all_goals try first
    | with_reducible exact h0
    | with_reducible assumption
    | with_reducible refine State.Kept.ite ?_ ?_
    | with_reducible refine State.emit_kept ?_ ..
    | with_reducible refine State.raise_kept ?_ ..
    | with_reducible refine State.Kept.upto _ _ ?_ (fun _ _ _ => ?_)
    | with_reducible refine State.Kept.fold _ _ ?_ (fun _ _ _ => ?_)
    | with_reducible split
    | with_reducible refine State.Kept.col ?_
    | with_reducible refine State.Kept.lit ?_

theorem State.askDescs_kept {r0 s : State} (h0 : r0.Kept s) (n : Nat) (k : Nat) : r0.Kept (State.askDescs s n k) := by
  unfold State.askDescs
  iterate 40 all_goals try first
    | with_reducible exact h0
    | with_reducible assumption
    | with_reducible refine State.Kept.ite ?_ ?_
    | with_reducible refine State.send_kept ?_ ..
    | with_reducible refine State.Kept.upto _ _ ?_ (fun _ _ _ => ?_)
    | with_reducible refine State.Kept.fold _ _ ?_ (fun _ _ _ => ?_)
    | with_reducible refine State.Kept.fold2 _ _ ?_ (fun _ _ _ => ?_)
    | with_reducible refine State.Kept.fold1 _ _ ?_ (fun _ _ _ => ?_)
    | with_reducible refine State.Kept.fold2' (by assumption) ?_ (fun _ _ _ => ?_)
    | with_reducible refine State.Kept.fold1' (by assumption) ?_ (fun _ _ _ => ?_)
    | with_reducible split
    | with_reducible refine State.Kept.col ?_
    | with_reducible refine State.Kept.lit ?_

theorem State.acceptDescs_kept {r0 s : State} (h0 : r0.Kept s) (n : Nat) (l : List Desc) : r0.Kept (State.acceptDescs n l s) := by
  induction l generalizing s  with
  | nil => exact h0
  | cons x l ih =>
    unfold State.acceptDescs
    iterate 40 all_goals try first
      | with_reducible exact h0
      | with_reducible assumption
      | with_reducible refine ih ?_
      | with_reducible refine State.Kept.ite ?_ ?_
      | with_reducible refine State.setRing_kept ?_ ..
      | with_reducible refine State.Kept.upto _ _ ?_ (fun _ _ _ => ?_)
      | with_reducible refine State.Kept.fold _ _ ?_ (fun _ _ _ => ?_)
      | with_reducible split
      | with_reducible refine State.Kept.col ?_
      | with_reducible refine State.Kept.lit ?_

theorem State.readDescs_kept {r0 s : State} (h0 : r0.Kept s) (n : Nat) (k : Nat) (status : Nat) (data : List Desc) : r0.Kept (State.readDescs s n k status data) := by
  unfold State.readDescs
  iterate 40 all_goals try first
    | with_reducible exact h0
    | with_reducible assumption
    | with_reducible refine State.Kept.ite ?_ ?_
    | with_reducible refine State.acceptDescs_kept ?_ ..
    | with_reducible refine State.askDescs_kept ?_ ..
    | with_reducible refine State.hostErr_kept ?_ ..
    | with_reducible refine State.setRing_kept ?_ ..
    | with_reducible refine State.Kept.upto _ _ ?_ (fun _ _ _ => ?_)
    | with_reducible refine State.Kept.fold _ _ ?_ (fun _ _ _ => ?_)
    | with_reducible split
    | with_reducible refine State.Kept.col ?_
    | with_reducible refine State.Kept.lit ?_

theorem State.startDesc_kept {r0 s : State} (h0 : r0.Kept s) (n ty : Nat) (run : Nat → Desc → State → State) (hrun : ∀ c d x, r0.Kept x → r0.Kept (run c d x)) : r0.Kept (State.startDesc s n ty run) := by
  unfold State.startDesc
  iterate 40 all_goals try first
      | with_reducible exact h0
      | with_reducible assumption
      | with_reducible refine hrun _ _ _ ?_
      | with_reducible refine State.Kept.ite ?_ ?_
      | with_reducible refine State.completeDesc_kept ?_ ..
      | with_reducible refine State.setRing_kept ?_ ..
      | with_reducible refine State.Kept.upto _ _ ?_ (fun _ _ _ => ?_)
      | with_reducible refine State.Kept.fold _ _ ?_ (fun _ _ _ => ?_)
      | with_reducible split
      | with_reducible refine State.Kept.col ?_
      | with_reducible refine State.Kept.lit ?_

theorem State.ringResolve_kept {r0 s : State} (h0 : r0.Kept s) (n : Nat) (a : Nat) : r0.Kept (State.ringResolve s n a).2 := by
  unfold State.ringResolve
  iterate 40 all_goals try first
    | with_reducible exact h0
    | with_reducible assumption
    | with_reducible refine State.fresh_kept' (by assumption) ?_
    | with_reducible refine State.resolve_kept' (by assumption) ?_
    | with_reducible refine State.Kept.ite ?_ ?_
    | with_reducible refine State.Kept.ite2 ?_ ?_
    | with_reducible refine State.Kept.ite22 ?_ ?_
    | with_reducible refine State.Kept.ite1 ?_ ?_
    | with_reducible refine State.emit_kept ?_ ..
    | with_reducible refine State.fresh_kept ?_ ..
    | with_reducible refine State.raise_kept ?_ ..
    | with_reducible refine State.resolve_kept ?_ ..
    | with_reducible refine State.unmappedEvent_kept ?_ ..
    | with_reducible refine State.Kept.upto _ _ ?_ (fun _ _ _ => ?_)
    | with_reducible refine State.Kept.fold _ _ ?_ (fun _ _ _ => ?_)
    | with_reducible refine State.Kept.pair2 (by assumption) ?_ ?_
    | with_reducible refine State.Kept.pair22 (by assumption) ?_ ?_
    | with_reducible split
    | dsimp only
    | with_reducible refine State.Kept.col ?_
    | with_reducible refine State.Kept.lit ?_

theorem State.ringResolve_kept' {r0 s s1 : State} {n : Nat} {a : Nat} {x0 : Except Nat Nat} (e0 : State.ringResolve s n a = (x0, s1)) (h0 : r0.Kept s) : r0.Kept s1 := by
  have g0 := State.ringResolve_kept h0 n a
  rw [e0] at g0
  exact g0

theorem State.setCopy_kept {r0 s : State} (h0 : r0.Kept s) (n : Nat) (c : Nat) (v : Option CopyRun) : r0.Kept (State.setCopy s n c v) := by
  unfold State.setCopy
  iterate 40 all_goals try first
    | with_reducible exact h0
    | with_reducible assumption
    | with_reducible refine State.Kept.ite ?_ ?_
    | with_reducible refine State.count_kept ?_ ..
    | with_reducible refine State.setRing_kept ?_ ..
    | with_reducible refine State.Kept.upto _ _ ?_ (fun _ _ _ => ?_)
    | with_reducible refine State.Kept.fold _ _ ?_ (fun _ _ _ => ?_)
    | with_reducible split
    | with_reducible refine State.Kept.col ?_
    | with_reducible refine State.Kept.lit ?_

theorem State.copyEnd_kept {r0 s : State} (h0 : r0.Kept s) (n : Nat) (c : Nat) (status : Nat) (detail : Nat) : r0.Kept (State.copyEnd s n c status detail) := by
  unfold State.copyEnd
  iterate 40 all_goals try first
    | with_reducible exact h0
    | with_reducible assumption
    | with_reducible refine State.Kept.ite ?_ ?_
    | with_reducible refine State.completeDesc_kept ?_ ..
    | with_reducible refine State.setCopy_kept ?_ ..
    | with_reducible refine State.Kept.upto _ _ ?_ (fun _ _ _ => ?_)
    | with_reducible refine State.Kept.fold _ _ ?_ (fun _ _ _ => ?_)
    | with_reducible split
    | with_reducible refine State.Kept.col ?_
    | with_reducible refine State.Kept.lit ?_

theorem State.copySource_kept {r0 s : State} (h0 : r0.Kept s) (n : Nat) (c : Nat) (d : Desc) (r : CopyRun) : r0.Kept (State.copySource s n c d r).2 := by
  unfold State.copySource
  iterate 40 all_goals try first
    | with_reducible exact h0
    | with_reducible assumption
    | with_reducible refine State.hostPortRead_kept' (by assumption) ?_
    | with_reducible refine State.ringResolve_kept' (by assumption) ?_
    | with_reducible refine State.Kept.ite ?_ ?_
    | with_reducible refine State.Kept.ite2 ?_ ?_
    | with_reducible refine State.Kept.ite22 ?_ ?_
    | with_reducible refine State.Kept.ite1 ?_ ?_
    | with_reducible refine State.askHost_kept ?_ ..
    | with_reducible refine State.askSnoop_kept ?_ ..
    | with_reducible refine State.hostPortRead_kept ?_ ..
    | with_reducible refine State.ringResolve_kept ?_ ..
    | with_reducible refine State.stall_kept ?_ ..
    | with_reducible refine State.Kept.upto _ _ ?_ (fun _ _ _ => ?_)
    | with_reducible refine State.Kept.fold _ _ ?_ (fun _ _ _ => ?_)
    | with_reducible split
    | dsimp only
    | with_reducible refine State.Kept.col ?_
    | with_reducible refine State.Kept.lit ?_

theorem State.copySource_kept' {r0 s s1 : State} {n : Nat} {c : Nat} {d : Desc} {r : CopyRun} {x0 : Sum CopyStep (Cell64 × CopyRun)} (e0 : State.copySource s n c d r = (x0, s1)) (h0 : r0.Kept s) : r0.Kept s1 := by
  have g0 := State.copySource_kept h0 n c d r
  rw [e0] at g0
  exact g0

theorem State.copyDest_kept {r0 s : State} (h0 : r0.Kept s) (n : Nat) (c : Nat) (d : Desc) (r : CopyRun) (v : Cell64) : r0.Kept (State.copyDest s n c d r v).2 := by
  unfold State.copyDest
  iterate 40 all_goals try first
    | with_reducible exact h0
    | with_reducible assumption
    | with_reducible refine State.hostPortWrite_kept' (by assumption) ?_
    | with_reducible refine State.ringResolve_kept' (by assumption) ?_
    | with_reducible refine State.Kept.ite ?_ ?_
    | with_reducible refine State.Kept.ite2 ?_ ?_
    | with_reducible refine State.Kept.ite22 ?_ ?_
    | with_reducible refine State.Kept.ite1 ?_ ?_
    | with_reducible refine State.askSnoop_kept ?_ ..
    | with_reducible refine State.hostPortWrite_kept ?_ ..
    | with_reducible refine State.hostPut_kept ?_ ..
    | with_reducible refine State.ringResolve_kept ?_ ..
    | with_reducible refine State.stall_kept ?_ ..
    | with_reducible refine State.Kept.upto _ _ ?_ (fun _ _ _ => ?_)
    | with_reducible refine State.Kept.fold _ _ ?_ (fun _ _ _ => ?_)
    | with_reducible split
    | dsimp only
    | with_reducible refine State.Kept.col ?_
    | with_reducible refine State.Kept.lit ?_

theorem State.copyDest_kept' {r0 s s1 : State} {n : Nat} {c : Nat} {d : Desc} {r : CopyRun} {v : Cell64} {x0 : CopyStep} (e0 : State.copyDest s n c d r v = (x0, s1)) (h0 : r0.Kept s) : r0.Kept s1 := by
  have g0 := State.copyDest_kept h0 n c d r v
  rw [e0] at g0
  exact g0

theorem State.copyUnit_kept {r0 s : State} (h0 : r0.Kept s) (n : Nat) (c : Nat) (d : Desc) (r : CopyRun) : r0.Kept (State.copyUnit s n c d r).2 := by
  unfold State.copyUnit
  iterate 40 all_goals try first
    | with_reducible exact h0
    | with_reducible assumption
    | with_reducible refine State.copyDest_kept' (by assumption) ?_
    | with_reducible refine State.copySource_kept' (by assumption) ?_
    | with_reducible refine State.Kept.ite ?_ ?_
    | with_reducible refine State.Kept.ite2 ?_ ?_
    | with_reducible refine State.Kept.ite22 ?_ ?_
    | with_reducible refine State.Kept.ite1 ?_ ?_
    | with_reducible refine State.copyDest_kept ?_ ..
    | with_reducible refine State.copySource_kept ?_ ..
    | with_reducible refine State.Kept.upto _ _ ?_ (fun _ _ _ => ?_)
    | with_reducible refine State.Kept.fold _ _ ?_ (fun _ _ _ => ?_)
    | with_reducible split
    | dsimp only
    | with_reducible refine State.Kept.col ?_
    | with_reducible refine State.Kept.lit ?_

theorem State.copyUnit_kept' {r0 s s1 : State} {n : Nat} {c : Nat} {d : Desc} {r : CopyRun} {x0 : CopyStep} (e0 : State.copyUnit s n c d r = (x0, s1)) (h0 : r0.Kept s) : r0.Kept s1 := by
  have g0 := State.copyUnit_kept h0 n c d r
  rw [e0] at g0
  exact g0

theorem State.copyLoop_kept {r0 s : State} (h0 : r0.Kept s) (n c k : Nat) : r0.Kept (State.copyLoop n c k s) := by
  induction k generalizing s  with
  | zero => exact h0
  | succ n ih =>
    unfold State.copyLoop
    iterate 40 all_goals try first
      | with_reducible exact h0
      | with_reducible assumption
      | with_reducible refine ih ?_
      | with_reducible refine State.copyUnit_kept' (by assumption) ?_
      | with_reducible refine State.Kept.ite ?_ ?_
      | with_reducible refine State.copyEnd_kept ?_ ..
      | with_reducible refine State.copyUnit_kept ?_ ..
      | with_reducible refine State.setCopy_kept ?_ ..
      | with_reducible refine State.Kept.upto _ _ ?_ (fun _ _ _ => ?_)
      | with_reducible refine State.Kept.fold _ _ ?_ (fun _ _ _ => ?_)
      | with_reducible split
      | with_reducible refine State.Kept.col ?_
      | with_reducible refine State.Kept.lit ?_

theorem State.copyGo_kept {r0 s : State} (h0 : r0.Kept s) (n : Nat) (c : Nat) : r0.Kept (State.copyGo s n c) := by
  unfold State.copyGo
  iterate 40 all_goals try first
    | with_reducible exact h0
    | with_reducible assumption
    | with_reducible refine State.Kept.ite ?_ ?_
    | with_reducible refine State.copyLoop_kept ?_ ..
    | with_reducible refine State.Kept.upto _ _ ?_ (fun _ _ _ => ?_)
    | with_reducible refine State.Kept.fold _ _ ?_ (fun _ _ _ => ?_)
    | with_reducible split
    | with_reducible refine State.Kept.col ?_
    | with_reducible refine State.Kept.lit ?_

theorem State.copyFail_kept {r0 s : State} (h0 : r0.Kept s) (n : Nat) (c : Nat) (code : Nat) : r0.Kept (State.copyFail s n c code) := by
  unfold State.copyFail
  iterate 40 all_goals try first
    | with_reducible exact h0
    | with_reducible assumption
    | with_reducible refine State.Kept.ite ?_ ?_
    | with_reducible refine State.copyEnd_kept ?_ ..
    | with_reducible refine State.Kept.upto _ _ ?_ (fun _ _ _ => ?_)
    | with_reducible refine State.Kept.fold _ _ ?_ (fun _ _ _ => ?_)
    | with_reducible split
    | with_reducible refine State.Kept.col ?_
    | with_reducible refine State.Kept.lit ?_

theorem State.copyDeliver_kept {r0 s : State} (h0 : r0.Kept s) (n : Nat) (c : Nat) (status : Nat) (cells : List Cell64) : r0.Kept (State.copyDeliver s n c status cells) := by
  unfold State.copyDeliver
  iterate 40 all_goals try first
    | with_reducible exact h0
    | with_reducible assumption
    | with_reducible refine State.Kept.ite ?_ ?_
    | with_reducible refine State.copyFail_kept ?_ ..
    | with_reducible refine State.copyGo_kept ?_ ..
    | with_reducible refine State.setCopy_kept ?_ ..
    | with_reducible refine State.Kept.upto _ _ ?_ (fun _ _ _ => ?_)
    | with_reducible refine State.Kept.fold _ _ ?_ (fun _ _ _ => ?_)
    | with_reducible split
    | with_reducible refine State.Kept.col ?_
    | with_reducible refine State.Kept.lit ?_

theorem State.ringCmd_kept {r0 s s1 : State} {n cmd : Nat} (e0 : s.ringCmd n cmd = some s1) (h0 : r0.Kept s) : r0.Kept s1 := by
  unfold State.ringCmd at e0
  dsimp only at e0
  repeat' split at e0
  all_goals first
    | contradiction
    | (cases e0
       first
         | exact State.emit_kept (State.setRing_kept h0 _ _) _ _ _
         | exact State.setRing_kept h0 _ _
         | exact State.haltRing_kept h0 _ _)

theorem State.ringCmd_getD_kept {r0 s : State} (h0 : r0.Kept s) (n cmd : Nat) : r0.Kept ((s.ringCmd n cmd).getD s) := by
  cases e : s.ringCmd n cmd with
  | none => exact h0
  | some x => exact State.ringCmd_kept e h0

theorem State.takeBack_kept {r0 s : State} (h0 : r0.Kept s) (l : List (Nat × Live)) : r0.Kept (State.takeBack l s) := by
  induction l generalizing s  with
  | nil => exact h0
  | cons x l ih =>
    unfold State.takeBack
    iterate 40 all_goals try first
      | with_reducible exact h0
      | with_reducible assumption
      | with_reducible refine ih ?_
      | with_reducible refine State.Kept.ite2 ?_ ?_
      | with_reducible refine State.Kept.ite22 ?_ ?_
      | with_reducible refine State.Kept.ite1 ?_ ?_
      | with_reducible refine State.Kept.ite ?_ ?_
      | with_reducible refine State.Kept.ite2 ?_ ?_
      | with_reducible refine State.Kept.ite22 ?_ ?_
      | with_reducible refine State.Kept.ite1 ?_ ?_
      | with_reducible refine State.count_kept ?_ ..
      | with_reducible refine State.setRing_kept ?_ ..
      | with_reducible refine State.Kept.upto _ _ ?_ (fun _ _ _ => ?_)
      | with_reducible refine State.Kept.fold _ _ ?_ (fun _ _ _ => ?_)
      | with_reducible split
      | with_reducible refine State.Kept.col ?_
      | with_reducible refine State.Kept.lit ?_

theorem State.ringsLinkDown_kept {r0 s : State} (h0 : r0.Kept s) (unacked : Nat) : r0.Kept (State.ringsLinkDown s unacked) := by
  unfold State.ringsLinkDown
  iterate 40 all_goals try first
    | with_reducible exact h0
    | with_reducible assumption
    | with_reducible refine State.Kept.ite ?_ ?_
    | with_reducible refine State.haltAndCut_kept ?_ ..
    | with_reducible refine State.takeBack_kept ?_ ..
    | with_reducible refine State.Kept.upto _ _ ?_ (fun _ _ _ => ?_)
    | with_reducible refine State.Kept.fold _ _ ?_ (fun _ _ _ => ?_)
    | with_reducible split
    | with_reducible refine State.Kept.col ?_
    | with_reducible refine State.Kept.lit ?_

theorem State.resume_kept {r0 s : State} (h0 : r0.Kept s) (p : ReadUser) : r0.Kept (State.resume s p) := by
  unfold State.resume
  iterate 40 all_goals try first
      | with_reducible exact h0
      | with_reducible assumption
      | with_reducible refine State.Kept.ite ?_ ?_
      | with_reducible refine State.copyGo_kept ?_ ..
      | with_reducible refine State.mveGo_kept ?_ ..
      | with_reducible refine State.Kept.upto _ _ ?_ (fun _ _ _ => ?_)
      | with_reducible refine State.Kept.fold _ _ ?_ (fun _ _ _ => ?_)
      | with_reducible split
      | with_reducible refine State.Kept.col ?_
      | with_reducible refine State.Kept.lit ?_

theorem State.wake_kept {r0 s : State} (h0 : r0.Kept s)  : r0.Kept (State.wake s) := by
  unfold State.wake
  iterate 40 all_goals try first
    | with_reducible exact h0
    | with_reducible assumption
    | with_reducible refine State.Kept.ite ?_ ?_
    | with_reducible refine State.askOwed_kept ?_ ..
    | with_reducible refine State.resume_kept ?_ ..
    | with_reducible refine State.Kept.upto _ _ ?_ (fun _ _ _ => ?_)
    | with_reducible refine State.Kept.fold _ _ ?_ (fun _ _ _ => ?_)
    | with_reducible refine State.Kept.fold2 _ _ ?_ (fun _ _ _ => ?_)
    | with_reducible refine State.Kept.fold1 _ _ ?_ (fun _ _ _ => ?_)
    | with_reducible refine State.Kept.fold2' (by assumption) ?_ (fun _ _ _ => ?_)
    | with_reducible refine State.Kept.fold1' (by assumption) ?_ (fun _ _ _ => ?_)
    | with_reducible split
    | with_reducible refine State.Kept.col ?_
    | with_reducible refine State.Kept.lit ?_

theorem State.abortStreams_kept {r0 s : State} (h0 : r0.Kept s) (t : Nat) (detail : Nat) : r0.Kept (State.abortStreams s t detail) := by
  unfold State.abortStreams
  iterate 40 all_goals try first
    | with_reducible exact h0
    | with_reducible assumption
    | with_reducible refine State.Kept.ite ?_ ?_
    | with_reducible refine State.completeDesc_kept ?_ ..
    | with_reducible refine State.count_kept ?_ ..
    | with_reducible refine State.Kept.upto _ _ ?_ (fun _ _ _ => ?_)
    | with_reducible refine State.Kept.fold _ _ ?_ (fun _ _ _ => ?_)
    | with_reducible refine State.Kept.fold2 _ _ ?_ (fun _ _ _ => ?_)
    | with_reducible refine State.Kept.fold1 _ _ ?_ (fun _ _ _ => ?_)
    | with_reducible refine State.Kept.fold2' (by assumption) ?_ (fun _ _ _ => ?_)
    | with_reducible refine State.Kept.fold1' (by assumption) ?_ (fun _ _ _ => ?_)
    | with_reducible split
    | with_reducible refine State.Kept.col ?_
    | with_reducible refine State.Kept.lit ?_

theorem State.forgetTile_kept {r0 s : State} (h0 : r0.Kept s) (t : Nat) : r0.Kept (State.forgetTile s t) := by
  unfold State.forgetTile
  iterate 40 all_goals try first
    | with_reducible exact h0
    | with_reducible assumption
    | with_reducible refine State.Kept.ite ?_ ?_
    | with_reducible refine State.Kept.upto _ _ ?_ (fun _ _ _ => ?_)
    | with_reducible refine State.Kept.fold _ _ ?_ (fun _ _ _ => ?_)
    | with_reducible split
    | with_reducible refine State.Kept.col ?_
    | with_reducible refine State.Kept.lit ?_

theorem State.dropReads_kept {r0 s : State} (h0 : r0.Kept s) (p : HostRead → Bool) : r0.Kept (State.dropReads s p) := by
  unfold State.dropReads
  iterate 40 all_goals try first
    | with_reducible exact h0
    | with_reducible assumption
    | with_reducible refine State.Kept.ite ?_ ?_
    | with_reducible refine State.Kept.upto _ _ ?_ (fun _ _ _ => ?_)
    | with_reducible refine State.Kept.fold _ _ ?_ (fun _ _ _ => ?_)
    | with_reducible split
    | with_reducible refine State.Kept.col ?_
    | with_reducible refine State.Kept.lit ?_

theorem State.clearSync_kept {r0 s : State} (h0 : r0.Kept s) (t : Nat) : r0.Kept (State.clearSync s t) := by
  unfold State.clearSync
  iterate 40 all_goals try first
    | with_reducible exact h0
    | with_reducible assumption
    | with_reducible refine State.Kept.ite ?_ ?_
    | with_reducible refine State.setSem_kept ?_ ..
    | with_reducible refine State.wr_kept ?_ ..
    | with_reducible refine State.Kept.upto _ _ ?_ (fun _ _ _ => ?_)
    | with_reducible refine State.Kept.fold _ _ ?_ (fun _ _ _ => ?_)
    | with_reducible split
    | with_reducible refine State.Kept.col ?_
    | with_reducible refine State.Kept.lit ?_

theorem State.holdTile_kept {r0 s : State} (h0 : r0.Kept s) (t : Nat) : r0.Kept (State.holdTile s t) := by
  unfold State.holdTile
  iterate 40 all_goals try first
    | with_reducible exact h0
    | with_reducible assumption
    | with_reducible refine State.Kept.ite ?_ ?_
    | with_reducible refine State.modTile_kept ?_ ..
    | with_reducible refine State.Kept.upto _ _ ?_ (fun _ _ _ => ?_)
    | with_reducible refine State.Kept.fold _ _ ?_ (fun _ _ _ => ?_)
    | with_reducible split
    | with_reducible refine State.Kept.col ?_
    | with_reducible refine State.Kept.lit ?_

theorem State.freeTile_kept {r0 s : State} (h0 : r0.Kept s) (t : Nat) : r0.Kept (State.freeTile s t) := by
  unfold State.freeTile
  iterate 40 all_goals try first
    | with_reducible exact h0
    | with_reducible assumption
    | with_reducible refine State.Kept.ite ?_ ?_
    | with_reducible refine State.modTile_kept ?_ ..
    | with_reducible refine State.Kept.upto _ _ ?_ (fun _ _ _ => ?_)
    | with_reducible refine State.Kept.fold _ _ ?_ (fun _ _ _ => ?_)
    | with_reducible split
    | with_reducible refine State.Kept.col ?_
    | with_reducible refine State.Kept.lit ?_

theorem State.resetTile_kept {r0 s : State} (h0 : r0.Kept s) (t : Nat) (reason : Nat) (detail : Nat) : r0.Kept (State.resetTile s t reason detail) := by
  unfold State.resetTile
  iterate 40 all_goals try first
    | with_reducible exact h0
    | with_reducible assumption
    | with_reducible refine State.Kept.ite ?_ ?_
    | with_reducible refine State.abortStreams_kept ?_ ..
    | with_reducible refine State.breakGroups_kept ?_ ..
    | with_reducible refine State.clearSync_kept ?_ ..
    | with_reducible refine State.countT_kept ?_ ..
    | with_reducible refine State.dropReads_kept ?_ ..
    | with_reducible refine State.forgetTile_kept ?_ ..
    | with_reducible refine State.holdTile_kept ?_ ..
    | with_reducible refine State.invalidate_kept ?_ ..
    | with_reducible refine State.modTile_kept ?_ ..
    | with_reducible refine State.orphanReads_kept ?_ ..
    | with_reducible refine State.setWord_kept ?_ ..
    | with_reducible refine State.Kept.upto _ _ ?_ (fun _ _ _ => ?_)
    | with_reducible refine State.Kept.fold _ _ ?_ (fun _ _ _ => ?_)
    | with_reducible split
    | with_reducible refine State.Kept.col ?_
    | with_reducible refine State.Kept.lit ?_

theorem State.resetDone_kept {r0 s : State} (h0 : r0.Kept s) (kind : Nat) (id : Nat) : r0.Kept (State.resetDone s kind id) := by
  unfold State.resetDone
  iterate 40 all_goals try first
    | with_reducible exact h0
    | with_reducible assumption
    | with_reducible refine State.Kept.ite ?_ ?_
    | with_reducible refine State.emit_kept ?_ ..
    | with_reducible refine State.raise_kept ?_ ..
    | with_reducible refine State.Kept.upto _ _ ?_ (fun _ _ _ => ?_)
    | with_reducible refine State.Kept.fold _ _ ?_ (fun _ _ _ => ?_)
    | with_reducible split
    | with_reducible refine State.Kept.col ?_
    | with_reducible refine State.Kept.lit ?_

theorem State.tileResetGo_kept {r0 s : State} (h0 : r0.Kept s) (t : Nat) : r0.Kept (State.tileResetGo s t) := by
  unfold State.tileResetGo
  iterate 40 all_goals try first
    | with_reducible exact h0
    | with_reducible assumption
    | with_reducible refine State.Kept.ite ?_ ?_
    | with_reducible refine State.freeTile_kept ?_ ..
    | with_reducible refine State.haltAndCut_kept ?_ ..
    | with_reducible refine State.holdTile_kept ?_ ..
    | with_reducible refine State.resetDone_kept ?_ ..
    | with_reducible refine State.resetTile_kept ?_ ..
    | with_reducible refine State.Kept.upto _ _ ?_ (fun _ _ _ => ?_)
    | with_reducible refine State.Kept.fold _ _ ?_ (fun _ _ _ => ?_)
    | with_reducible split
    | with_reducible refine State.Kept.col ?_
    | with_reducible refine State.Kept.lit ?_

theorem State.discardPasses_kept {r0 s : State} (h0 : r0.Kept s) (c : Nat) : r0.Kept (State.discardPasses s c) := by
  unfold State.discardPasses
  iterate 40 all_goals try first
    | with_reducible exact h0
    | with_reducible assumption
    | with_reducible refine State.Kept.ite ?_ ?_
    | with_reducible refine State.opExit_kept ?_ ..
    | with_reducible refine State.runRest_kept ?_ ..
    | with_reducible refine State.setCc_kept ?_ ..
    | with_reducible refine State.setTodo_kept ?_ ..
    | with_reducible refine State.standIn_kept ?_ ..
    | with_reducible refine State.trace_kept ?_ ..
    | with_reducible refine State.Kept.upto _ _ ?_ (fun _ _ _ => ?_)
    | with_reducible refine State.Kept.fold _ _ ?_ (fun _ _ _ => ?_)
    | with_reducible refine State.Kept.fold2 _ _ ?_ (fun _ _ _ => ?_)
    | with_reducible refine State.Kept.fold1 _ _ ?_ (fun _ _ _ => ?_)
    | with_reducible refine State.Kept.fold2' (by assumption) ?_ (fun _ _ _ => ?_)
    | with_reducible refine State.Kept.fold1' (by assumption) ?_ (fun _ _ _ => ?_)
    | with_reducible split
    | with_reducible refine State.Kept.col ?_
    | with_reducible refine State.Kept.lit ?_

theorem State.partResetEnd_kept {r0 s : State} (h0 : r0.Kept s) (k : Nat) : r0.Kept (State.partResetEnd s k) := by
  unfold State.partResetEnd
  iterate 40 all_goals try first
    | with_reducible exact h0
    | with_reducible assumption
    | with_reducible refine State.Kept.ite ?_ ?_
    | with_reducible refine State.clear_kept ?_ ..
    | with_reducible refine State.freeTile_kept ?_ ..
    | with_reducible refine State.resetDone_kept ?_ ..
    | with_reducible refine State.Kept.upto _ _ ?_ (fun _ _ _ => ?_)
    | with_reducible refine State.Kept.fold _ _ ?_ (fun _ _ _ => ?_)
    | with_reducible refine State.Kept.fold2 _ _ ?_ (fun _ _ _ => ?_)
    | with_reducible refine State.Kept.fold1 _ _ ?_ (fun _ _ _ => ?_)
    | with_reducible refine State.Kept.fold2' (by assumption) ?_ (fun _ _ _ => ?_)
    | with_reducible refine State.Kept.fold1' (by assumption) ?_ (fun _ _ _ => ?_)
    | with_reducible split
    | with_reducible refine State.Kept.col ?_
    | with_reducible refine State.Kept.lit ?_

theorem State.settleResets_kept {r0 s : State} (h0 : r0.Kept s)  : r0.Kept (State.settleResets s) := by
  unfold State.settleResets
  iterate 40 all_goals try first
    | with_reducible exact h0
    | with_reducible assumption
    | with_reducible refine State.Kept.ite ?_ ?_
    | with_reducible refine State.partResetEnd_kept ?_ ..
    | with_reducible refine State.Kept.upto _ _ ?_ (fun _ _ _ => ?_)
    | with_reducible refine State.Kept.fold _ _ ?_ (fun _ _ _ => ?_)
    | with_reducible refine State.Kept.fold2 _ _ ?_ (fun _ _ _ => ?_)
    | with_reducible refine State.Kept.fold1 _ _ ?_ (fun _ _ _ => ?_)
    | with_reducible refine State.Kept.fold2' (by assumption) ?_ (fun _ _ _ => ?_)
    | with_reducible refine State.Kept.fold1' (by assumption) ?_ (fun _ _ _ => ?_)
    | with_reducible split
    | with_reducible refine State.Kept.col ?_
    | with_reducible refine State.Kept.lit ?_

theorem State.onward_kept {r0 s : State} (h0 : r0.Kept s)  : r0.Kept (State.onward s) := by
  unfold State.onward
  iterate 40 all_goals try first
    | with_reducible exact h0
    | with_reducible assumption
    | with_reducible refine State.Kept.ite ?_ ?_
    | with_reducible refine State.settleResets_kept ?_ ..
    | with_reducible refine State.wake_kept ?_ ..
    | with_reducible refine State.Kept.upto _ _ ?_ (fun _ _ _ => ?_)
    | with_reducible refine State.Kept.fold _ _ ?_ (fun _ _ _ => ?_)
    | with_reducible split
    | with_reducible refine State.Kept.col ?_
    | with_reducible refine State.Kept.lit ?_

theorem State.partResetGo_kept {r0 s : State} (h0 : r0.Kept s) (k : Nat) (cause : Nat) (src : Nat) : r0.Kept (State.partResetGo s k cause src) := by
  unfold State.partResetGo
  iterate 40 all_goals try first
    | with_reducible exact h0
    | with_reducible assumption
    | with_reducible refine State.Kept.ite ?_ ?_
    | with_reducible refine State.discardPasses_kept ?_ ..
    | with_reducible refine State.haltAndCut_kept ?_ ..
    | with_reducible refine State.holdTile_kept ?_ ..
    | with_reducible refine State.raise_kept ?_ ..
    | with_reducible refine State.resetTile_kept ?_ ..
    | with_reducible refine State.settleResets_kept ?_ ..
    | with_reducible refine State.Kept.upto _ _ ?_ (fun _ _ _ => ?_)
    | with_reducible refine State.Kept.fold _ _ ?_ (fun _ _ _ => ?_)
    | with_reducible refine State.Kept.fold2 _ _ ?_ (fun _ _ _ => ?_)
    | with_reducible refine State.Kept.fold1 _ _ ?_ (fun _ _ _ => ?_)
    | with_reducible refine State.Kept.fold2' (by assumption) ?_ (fun _ _ _ => ?_)
    | with_reducible refine State.Kept.fold1' (by assumption) ?_ (fun _ _ _ => ?_)
    | with_reducible split
    | with_reducible refine State.Kept.col ?_
    | with_reducible refine State.Kept.lit ?_

theorem State.resetAll_kept {r0 s : State} (h0 : r0.Kept s) (cause : Nat) (src : Nat) : r0.Kept (State.resetAll s cause src) := by
  unfold State.resetAll
  iterate 40 all_goals try first
    | with_reducible exact h0
    | with_reducible assumption
    | with_reducible refine State.Kept.ite ?_ ?_
    | with_reducible refine State.partResetGo_kept ?_ ..
    | with_reducible refine State.Kept.upto _ _ ?_ (fun _ _ _ => ?_)
    | with_reducible refine State.Kept.fold _ _ ?_ (fun _ _ _ => ?_)
    | with_reducible refine State.Kept.fold2 _ _ ?_ (fun _ _ _ => ?_)
    | with_reducible refine State.Kept.fold1 _ _ ?_ (fun _ _ _ => ?_)
    | with_reducible refine State.Kept.fold2' (by assumption) ?_ (fun _ _ _ => ?_)
    | with_reducible refine State.Kept.fold1' (by assumption) ?_ (fun _ _ _ => ?_)
    | with_reducible split
    | with_reducible refine State.Kept.col ?_
    | with_reducible refine State.Kept.lit ?_

theorem State.cardFault_kept {r0 s : State} (h0 : r0.Kept s)  : r0.Kept (State.cardFault s) := by
  unfold State.cardFault
  iterate 40 all_goals try first
    | with_reducible exact h0
    | with_reducible assumption
    | with_reducible refine State.Kept.ite ?_ ?_
    | with_reducible refine State.emit_kept ?_ ..
    | with_reducible refine State.haltAndCut_kept ?_ ..
    | with_reducible refine State.holdTile_kept ?_ ..
    | with_reducible refine State.raise_kept ?_ ..
    | with_reducible refine State.resetTile_kept ?_ ..
    | with_reducible refine State.Kept.upto _ _ ?_ (fun _ _ _ => ?_)
    | with_reducible refine State.Kept.fold _ _ ?_ (fun _ _ _ => ?_)
    | with_reducible refine State.Kept.fold2 _ _ ?_ (fun _ _ _ => ?_)
    | with_reducible refine State.Kept.fold1 _ _ ?_ (fun _ _ _ => ?_)
    | with_reducible refine State.Kept.fold2' (by assumption) ?_ (fun _ _ _ => ?_)
    | with_reducible refine State.Kept.fold1' (by assumption) ?_ (fun _ _ _ => ?_)
    | with_reducible split
    | with_reducible refine State.Kept.col ?_
    | with_reducible refine State.Kept.lit ?_

theorem State.extendMeas_kept {r0 s : State} (h0 : r0.Kept s) (i : Nat) (d : BitVec 256) : r0.Kept (State.extendMeas s i d) := by
  unfold State.extendMeas
  iterate 40 all_goals try first
    | with_reducible exact h0
    | with_reducible assumption
    | with_reducible refine State.Kept.ite ?_ ?_
    | with_reducible refine State.emit_kept ?_ ..
    | with_reducible refine State.setWord_kept ?_ ..
    | with_reducible refine State.Kept.upto _ _ ?_ (fun _ _ _ => ?_)
    | with_reducible refine State.Kept.fold _ _ ?_ (fun _ _ _ => ?_)
    | with_reducible split
    | with_reducible refine State.Kept.col ?_
    | with_reducible refine State.Kept.lit ?_

theorem State.measureSec_kept {r0 s : State} (h0 : r0.Kept s)  : r0.Kept (State.measureSec s) := by
  unfold State.measureSec
  iterate 40 all_goals try first
    | with_reducible exact h0
    | with_reducible assumption
    | with_reducible refine State.Kept.ite ?_ ?_
    | with_reducible refine State.extendMeas_kept ?_ ..
    | with_reducible refine State.Kept.upto _ _ ?_ (fun _ _ _ => ?_)
    | with_reducible refine State.Kept.fold _ _ ?_ (fun _ _ _ => ?_)
    | with_reducible split
    | with_reducible refine State.Kept.col ?_
    | with_reducible refine State.Kept.lit ?_

theorem State.measureFloor_kept {r0 s : State} (h0 : r0.Kept s)  : r0.Kept (State.measureFloor s) := by
  unfold State.measureFloor
  iterate 40 all_goals try first
    | with_reducible exact h0
    | with_reducible assumption
    | with_reducible refine State.Kept.ite ?_ ?_
    | with_reducible refine State.extendMeas_kept ?_ ..
    | with_reducible refine State.Kept.upto _ _ ?_ (fun _ _ _ => ?_)
    | with_reducible refine State.Kept.fold _ _ ?_ (fun _ _ _ => ?_)
    | with_reducible split
    | with_reducible refine State.Kept.col ?_
    | with_reducible refine State.Kept.lit ?_

theorem State.floorChanged_kept {r0 s : State} (h0 : r0.Kept s)  : r0.Kept (State.floorChanged s) := by
  unfold State.floorChanged
  iterate 40 all_goals try first
    | with_reducible exact h0
    | with_reducible assumption
    | with_reducible refine State.Kept.ite ?_ ?_
    | with_reducible refine State.measureFloor_kept ?_ ..
    | with_reducible refine State.wr_kept ?_ ..
    | with_reducible refine State.Kept.upto _ _ ?_ (fun _ _ _ => ?_)
    | with_reducible refine State.Kept.fold _ _ ?_ (fun _ _ _ => ?_)
    | with_reducible split
    | with_reducible refine State.Kept.col ?_
    | with_reducible refine State.Kept.lit ?_

theorem State.seamPermanent_kept {r0 s : State} (h0 : r0.Kept s)  : r0.Kept (State.seamPermanent s) := by
  unfold State.seamPermanent
  iterate 40 all_goals try first
    | with_reducible exact h0
    | with_reducible assumption
    | with_reducible refine State.Kept.ite ?_ ?_
    | with_reducible refine State.cardFault_kept ?_ ..
    | with_reducible refine State.emit_kept ?_ ..
    | with_reducible refine State.floorChanged_kept ?_ ..
    | with_reducible refine State.raise_kept ?_ ..
    | with_reducible refine State.wr_kept ?_ ..
    | with_reducible refine State.Kept.upto _ _ ?_ (fun _ _ _ => ?_)
    | with_reducible refine State.Kept.fold _ _ ?_ (fun _ _ _ => ?_)
    | with_reducible split
    | with_reducible refine State.Kept.col ?_
    | with_reducible refine State.Kept.lit ?_

theorem State.seamError_kept {r0 s : State} (h0 : r0.Kept s) (weight : Nat) : r0.Kept (State.seamError s weight) := by
  unfold State.seamError
  iterate 40 all_goals try first
    | with_reducible exact h0
    | with_reducible assumption
    | with_reducible refine State.Kept.ite ?_ ?_
    | with_reducible refine State.emit_kept ?_ ..
    | with_reducible refine State.seamPermanent_kept ?_ ..
    | with_reducible refine State.wr_kept ?_ ..
    | with_reducible refine State.Kept.upto _ _ ?_ (fun _ _ _ => ?_)
    | with_reducible refine State.Kept.fold _ _ ?_ (fun _ _ _ => ?_)
    | with_reducible split
    | with_reducible refine State.Kept.col ?_
    | with_reducible refine State.Kept.lit ?_

theorem State.hostError_kept {r0 s : State} (h0 : r0.Kept s) (weight : Nat) : r0.Kept (State.hostError s weight) := by
  unfold State.hostError
  iterate 40 all_goals try first
    | with_reducible exact h0
    | with_reducible assumption
    | with_reducible refine State.Kept.ite ?_ ?_
    | with_reducible refine State.emit_kept ?_ ..
    | with_reducible refine State.raise_kept ?_ ..
    | with_reducible refine State.wr_kept ?_ ..
    | with_reducible refine State.Kept.upto _ _ ?_ (fun _ _ _ => ?_)
    | with_reducible refine State.Kept.fold _ _ ?_ (fun _ _ _ => ?_)
    | with_reducible split
    | with_reducible refine State.Kept.col ?_
    | with_reducible refine State.Kept.lit ?_

theorem State.leak_kept {r0 s : State} (h0 : r0.Kept s) (base : Nat) (f : Fld) : r0.Kept (State.leak s base f) := by
  unfold State.leak
  iterate 40 all_goals try first
    | with_reducible exact h0
    | with_reducible assumption
    | with_reducible refine State.Kept.ite ?_ ?_
    | with_reducible refine State.wr_kept ?_ ..
    | with_reducible refine State.Kept.upto _ _ ?_ (fun _ _ _ => ?_)
    | with_reducible refine State.Kept.fold _ _ ?_ (fun _ _ _ => ?_)
    | with_reducible split
    | with_reducible refine State.Kept.col ?_
    | with_reducible refine State.Kept.lit ?_

theorem State.stopPass_kept {r0 s : State} (h0 : r0.Kept s) (c : Nat) : r0.Kept (State.stopPass s c) := by
  unfold State.stopPass
  iterate 40 all_goals try first
    | with_reducible exact h0
    | with_reducible assumption
    | with_reducible refine State.Kept.ite ?_ ?_
    | with_reducible refine State.panicEnd_kept ?_ ..
    | with_reducible refine State.standIn_kept ?_ ..
    | with_reducible refine State.trace_kept ?_ ..
    | with_reducible refine State.Kept.upto _ _ ?_ (fun _ _ _ => ?_)
    | with_reducible refine State.Kept.fold _ _ ?_ (fun _ _ _ => ?_)
    | with_reducible split
    | with_reducible refine State.Kept.col ?_
    | with_reducible refine State.Kept.lit ?_

theorem State.quiesce_kept {r0 s : State} (h0 : r0.Kept s) (c : Nat) : r0.Kept (State.quiesce s c) := by
  unfold State.quiesce
  iterate 40 all_goals try first
    | with_reducible exact h0
    | with_reducible assumption
    | with_reducible refine State.Kept.ite ?_ ?_
    | with_reducible refine State.emit_kept ?_ ..
    | with_reducible refine State.release_kept ?_ ..
    | with_reducible refine State.setBd_kept ?_ ..
    | with_reducible refine State.setCc_kept ?_ ..
    | with_reducible refine State.setEng_kept ?_ ..
    | with_reducible refine State.standIn_kept ?_ ..
    | with_reducible refine State.stopPass_kept ?_ ..
    | with_reducible refine State.Kept.upto _ _ ?_ (fun _ _ _ => ?_)
    | with_reducible refine State.Kept.fold _ _ ?_ (fun _ _ _ => ?_)
    | with_reducible refine State.Kept.fold2 _ _ ?_ (fun _ _ _ => ?_)
    | with_reducible refine State.Kept.fold1 _ _ ?_ (fun _ _ _ => ?_)
    | with_reducible refine State.Kept.fold2' (by assumption) ?_ (fun _ _ _ => ?_)
    | with_reducible refine State.Kept.fold1' (by assumption) ?_ (fun _ _ _ => ?_)
    | with_reducible split
    | with_reducible refine State.Kept.col ?_
    | with_reducible refine State.Kept.lit ?_

theorem State.retire_kept {r0 s : State} (h0 : r0.Kept s) (c : Nat) : r0.Kept (State.retire s c) := by
  unfold State.retire
  iterate 40 all_goals try first
    | with_reducible exact h0
    | with_reducible assumption
    | with_reducible refine State.Kept.ite ?_ ?_
    | with_reducible refine State.raise_kept ?_ ..
    | with_reducible refine State.setCc_kept ?_ ..
    | with_reducible refine State.wr_kept ?_ ..
    | with_reducible refine refresh_kept ?_ ..
    | with_reducible refine State.Kept.upto _ _ ?_ (fun _ _ _ => ?_)
    | with_reducible refine State.Kept.fold _ _ ?_ (fun _ _ _ => ?_)
    | with_reducible split
    | with_reducible refine State.Kept.col ?_
    | with_reducible refine State.Kept.lit ?_

theorem State.markRetired_kept {r0 s : State} (h0 : r0.Kept s) (c : Nat) : r0.Kept (State.markRetired s c) := by
  unfold State.markRetired
  iterate 40 all_goals try first
    | with_reducible exact h0
    | with_reducible assumption
    | with_reducible refine State.Kept.ite ?_ ?_
    | with_reducible refine State.wr_kept ?_ ..
    | with_reducible refine State.Kept.upto _ _ ?_ (fun _ _ _ => ?_)
    | with_reducible refine State.Kept.fold _ _ ?_ (fun _ _ _ => ?_)
    | with_reducible split
    | with_reducible refine State.Kept.col ?_
    | with_reducible refine State.Kept.lit ?_

theorem State.reportRetired_kept {r0 s : State} (h0 : r0.Kept s) (c : Nat) : r0.Kept (State.reportRetired s c) := by
  unfold State.reportRetired
  iterate 40 all_goals try first
    | with_reducible exact h0
    | with_reducible assumption
    | with_reducible refine State.Kept.ite ?_ ?_
    | with_reducible refine State.emit_kept ?_ ..
    | with_reducible refine State.Kept.upto _ _ ?_ (fun _ _ _ => ?_)
    | with_reducible refine State.Kept.fold _ _ ?_ (fun _ _ _ => ?_)
    | with_reducible split
    | with_reducible refine State.Kept.col ?_
    | with_reducible refine State.Kept.lit ?_

theorem State.askNv_kept {r0 s : State} (h0 : r0.Kept s) (o : NvOp) : r0.Kept (State.askNv s o) := by
  unfold State.askNv
  iterate 40 all_goals try first
    | with_reducible exact h0
    | with_reducible assumption
    | with_reducible refine State.Kept.ite ?_ ?_
    | with_reducible refine State.Kept.upto _ _ ?_ (fun _ _ _ => ?_)
    | with_reducible refine State.Kept.fold _ _ ?_ (fun _ _ _ => ?_)
    | with_reducible split
    | with_reducible refine State.Kept.col ?_
    | with_reducible refine State.Kept.lit ?_

theorem State.dropCaches_kept {r0 s : State} (h0 : r0.Kept s)  : r0.Kept (State.dropCaches s) := by
  unfold State.dropCaches
  iterate 40 all_goals try first
    | with_reducible exact h0
    | with_reducible assumption
    | with_reducible refine State.Kept.ite ?_ ?_
    | with_reducible refine State.invalidate_kept ?_ ..
    | with_reducible refine State.Kept.upto _ _ ?_ (fun _ _ _ => ?_)
    | with_reducible refine State.Kept.fold _ _ ?_ (fun _ _ _ => ?_)
    | with_reducible refine State.Kept.fold2 _ _ ?_ (fun _ _ _ => ?_)
    | with_reducible refine State.Kept.fold1 _ _ ?_ (fun _ _ _ => ?_)
    | with_reducible refine State.Kept.fold2' (by assumption) ?_ (fun _ _ _ => ?_)
    | with_reducible refine State.Kept.fold1' (by assumption) ?_ (fun _ _ _ => ?_)
    | with_reducible split
    | with_reducible refine State.Kept.col ?_
    | with_reducible refine State.Kept.lit ?_

theorem State.moltEnd_kept {r0 s : State} (h0 : r0.Kept s) (c : Nat) : r0.Kept (State.moltEnd s c) := by
  unfold State.moltEnd
  iterate 40 all_goals try first
    | with_reducible exact h0
    | with_reducible assumption
    | with_reducible refine State.Kept.ite ?_ ?_
    | with_reducible refine State.askNv_kept ?_ ..
    | with_reducible refine State.clear_kept ?_ ..
    | with_reducible refine State.dropCaches_kept ?_ ..
    | with_reducible refine State.floorChanged_kept ?_ ..
    | with_reducible refine State.haltAndCut_kept ?_ ..
    | with_reducible refine State.markRetired_kept ?_ ..
    | with_reducible refine State.reportRetired_kept ?_ ..
    | with_reducible refine State.retire_kept ?_ ..
    | with_reducible refine State.wake_kept ?_ ..
    | with_reducible refine State.wr_kept ?_ ..
    | with_reducible refine State.Kept.upto _ _ ?_ (fun _ _ _ => ?_)
    | with_reducible refine State.Kept.fold _ _ ?_ (fun _ _ _ => ?_)
    | with_reducible split
    | with_reducible refine State.Kept.col ?_
    | with_reducible refine State.Kept.lit ?_

theorem State.moltGo_kept {r0 s : State} (h0 : r0.Kept s)  : r0.Kept (State.moltGo s) := by
  unfold State.moltGo
  iterate 40 all_goals try first
    | with_reducible exact h0
    | with_reducible assumption
    | with_reducible refine State.Kept.ite ?_ ?_
    | with_reducible refine State.askSnoop_kept ?_ ..
    | with_reducible refine State.leaveDir_kept ?_ ..
    | with_reducible refine State.moltEnd_kept ?_ ..
    | with_reducible refine State.Kept.upto _ _ ?_ (fun _ _ _ => ?_)
    | with_reducible refine State.Kept.fold _ _ ?_ (fun _ _ _ => ?_)
    | with_reducible refine State.Kept.fold2 _ _ ?_ (fun _ _ _ => ?_)
    | with_reducible refine State.Kept.fold1 _ _ ?_ (fun _ _ _ => ?_)
    | with_reducible refine State.Kept.fold2' (by assumption) ?_ (fun _ _ _ => ?_)
    | with_reducible refine State.Kept.fold1' (by assumption) ?_ (fun _ _ _ => ?_)
    | with_reducible split
    | with_reducible refine State.Kept.col ?_
    | with_reducible refine State.Kept.lit ?_

theorem State.moltAtBirth_kept {r0 s : State} (h0 : r0.Kept s) (c : Nat) (why : Nat) : r0.Kept (State.moltAtBirth s c why) := by
  unfold State.moltAtBirth
  iterate 40 all_goals try first
    | with_reducible exact h0
    | with_reducible assumption
    | with_reducible refine State.Kept.ite ?_ ?_
    | with_reducible refine State.askNv_kept ?_ ..
    | with_reducible refine State.emit_kept ?_ ..
    | with_reducible refine State.markRetired_kept ?_ ..
    | with_reducible refine State.reportRetired_kept ?_ ..
    | with_reducible refine State.retire_kept ?_ ..
    | with_reducible refine State.Kept.upto _ _ ?_ (fun _ _ _ => ?_)
    | with_reducible refine State.Kept.fold _ _ ?_ (fun _ _ _ => ?_)
    | with_reducible split
    | with_reducible refine State.Kept.col ?_
    | with_reducible refine State.Kept.lit ?_

theorem State.commitRetired_kept {r0 s : State} (h0 : r0.Kept s) (c : Nat) (rest : List NvOp) : r0.Kept (State.commitRetired s c rest) := by
  unfold State.commitRetired
  iterate 40 all_goals try first
    | with_reducible exact h0
    | with_reducible assumption
    | with_reducible refine State.Kept.ite ?_ ?_
    | with_reducible refine State.emit_kept ?_ ..
    | with_reducible refine State.wr_kept ?_ ..
    | with_reducible refine State.Kept.upto _ _ ?_ (fun _ _ _ => ?_)
    | with_reducible refine State.Kept.fold _ _ ?_ (fun _ _ _ => ?_)
    | with_reducible split
    | with_reducible refine State.Kept.col ?_
    | with_reducible refine State.Kept.lit ?_

theorem State.setEv_kept {r0 s : State} (h0 : r0.Kept s) (f : Nat) (v : EvSt) : r0.Kept (State.setEv s f v) := by
  unfold State.setEv
  iterate 40 all_goals try first
    | with_reducible exact h0
    | with_reducible assumption
    | with_reducible refine State.Kept.ite ?_ ?_
    | with_reducible refine State.Kept.upto _ _ ?_ (fun _ _ _ => ?_)
    | with_reducible refine State.Kept.fold _ _ ?_ (fun _ _ _ => ?_)
    | with_reducible split
    | with_reducible refine State.Kept.col ?_
    | with_reducible refine State.Kept.lit ?_

theorem State.evWrite_kept {r0 s : State} (h0 : r0.Kept s) (f : Nat) (r : EvRec) : r0.Kept (State.evWrite s f r) := by
  unfold State.evWrite
  iterate 40 all_goals try first
    | with_reducible exact h0
    | with_reducible assumption
    | with_reducible refine State.Kept.ite ?_ ?_
    | with_reducible refine State.count_kept ?_ ..
    | with_reducible refine State.hostBytes_kept ?_ ..
    | with_reducible refine State.msix_kept ?_ ..
    | with_reducible refine State.setEv_kept ?_ ..
    | with_reducible refine State.Kept.upto _ _ ?_ (fun _ _ _ => ?_)
    | with_reducible refine State.Kept.fold _ _ ?_ (fun _ _ _ => ?_)
    | with_reducible split
    | with_reducible refine State.Kept.col ?_
    | with_reducible refine State.Kept.lit ?_

theorem State.evReport_kept {r0 s : State} (h0 : r0.Kept s) (f : Nat) (tsc : Nat) (src : Nat) (code : Nat) (data : Nat) : r0.Kept (State.evReport s f tsc src code data) := by
  unfold State.evReport
  iterate 40 all_goals try first
    | with_reducible exact h0
    | with_reducible assumption
    | with_reducible refine State.Kept.ite ?_ ?_
    | with_reducible refine State.evWrite_kept ?_ ..
    | with_reducible refine State.setEv_kept ?_ ..
    | with_reducible refine State.Kept.upto _ _ ?_ (fun _ _ _ => ?_)
    | with_reducible refine State.Kept.fold _ _ ?_ (fun _ _ _ => ?_)
    | with_reducible split
    | with_reducible refine State.Kept.col ?_
    | with_reducible refine State.Kept.lit ?_

theorem State.writeEntries_kept {r0 s : State} (h0 : r0.Kept s) (f : Nat) (l : List CoalEntry) : r0.Kept (State.writeEntries f l s) := by
  induction l generalizing s  with
  | nil => exact h0
  | cons x l ih =>
    unfold State.writeEntries
    iterate 40 all_goals try first
      | with_reducible exact h0
      | with_reducible assumption
      | with_reducible refine ih ?_
      | with_reducible refine State.Kept.ite ?_ ?_
      | with_reducible refine State.evWrite_kept ?_ ..
      | with_reducible refine State.setEv_kept ?_ ..
      | with_reducible refine State.Kept.upto _ _ ?_ (fun _ _ _ => ?_)
      | with_reducible refine State.Kept.fold _ _ ?_ (fun _ _ _ => ?_)
      | with_reducible split
      | with_reducible refine State.Kept.col ?_
      | with_reducible refine State.Kept.lit ?_

theorem State.cutWritten_kept {r0 s : State} (h0 : r0.Kept s) (c : CutRun) : r0.Kept (State.cutWritten s c) := by
  unfold State.cutWritten
  iterate 40 all_goals try first
    | with_reducible exact h0
    | with_reducible assumption
    | with_reducible refine State.Kept.ite ?_ ?_
    | with_reducible refine State.setRing_kept ?_ ..
    | with_reducible refine State.wr_kept ?_ ..
    | with_reducible refine State.Kept.upto _ _ ?_ (fun _ _ _ => ?_)
    | with_reducible refine State.Kept.fold _ _ ?_ (fun _ _ _ => ?_)
    | with_reducible refine State.Kept.fold2 _ _ ?_ (fun _ _ _ => ?_)
    | with_reducible refine State.Kept.fold1 _ _ ?_ (fun _ _ _ => ?_)
    | with_reducible refine State.Kept.fold2' (by assumption) ?_ (fun _ _ _ => ?_)
    | with_reducible refine State.Kept.fold1' (by assumption) ?_ (fun _ _ _ => ?_)
    | with_reducible split
    | with_reducible refine State.Kept.col ?_
    | with_reducible refine State.Kept.lit ?_

theorem State.writeCuts_kept {r0 s : State} (h0 : r0.Kept s) (f : Nat) (l : List CutRun) : r0.Kept (State.writeCuts f l s) := by
  induction l generalizing s  with
  | nil => exact h0
  | cons x l ih =>
    unfold State.writeCuts
    iterate 40 all_goals try first
      | with_reducible exact h0
      | with_reducible assumption
      | with_reducible refine ih ?_
      | with_reducible refine State.Kept.ite ?_ ?_
      | with_reducible refine State.cutWritten_kept ?_ ..
      | with_reducible refine State.evWrite_kept ?_ ..
      | with_reducible refine State.setEv_kept ?_ ..
      | with_reducible refine State.Kept.upto _ _ ?_ (fun _ _ _ => ?_)
      | with_reducible refine State.Kept.fold _ _ ?_ (fun _ _ _ => ?_)
      | with_reducible refine State.Kept.fold2 _ _ ?_ (fun _ _ _ => ?_)
      | with_reducible refine State.Kept.fold1 _ _ ?_ (fun _ _ _ => ?_)
      | with_reducible refine State.Kept.fold2' (by assumption) ?_ (fun _ _ _ => ?_)
      | with_reducible refine State.Kept.fold1' (by assumption) ?_ (fun _ _ _ => ?_)
      | with_reducible split
      | with_reducible refine State.Kept.col ?_
      | with_reducible refine State.Kept.lit ?_

theorem State.roomAgain_kept {r0 s : State} (h0 : r0.Kept s) (f : Nat) (t : Nat) : r0.Kept (State.roomAgain s f t) := by
  unfold State.roomAgain
  iterate 40 all_goals try first
    | with_reducible exact h0
    | with_reducible assumption
    | with_reducible refine State.Kept.ite ?_ ?_
    | with_reducible refine State.evWrite_kept ?_ ..
    | with_reducible refine State.setEv_kept ?_ ..
    | with_reducible refine State.Kept.upto _ _ ?_ (fun _ _ _ => ?_)
    | with_reducible refine State.Kept.fold _ _ ?_ (fun _ _ _ => ?_)
    | with_reducible split
    | with_reducible refine State.Kept.col ?_
    | with_reducible refine State.Kept.lit ?_

theorem State.lackRoom_kept {r0 s : State} (h0 : r0.Kept s) (f : Nat) : r0.Kept (State.lackRoom s f) := by
  unfold State.lackRoom
  iterate 40 all_goals try first
    | with_reducible exact h0
    | with_reducible assumption
    | with_reducible refine State.Kept.ite ?_ ?_
    | with_reducible refine State.setEv_kept ?_ ..
    | with_reducible refine State.Kept.upto _ _ ?_ (fun _ _ _ => ?_)
    | with_reducible refine State.Kept.fold _ _ ?_ (fun _ _ _ => ?_)
    | with_reducible split
    | with_reducible refine State.Kept.col ?_
    | with_reducible refine State.Kept.lit ?_

theorem State.evFlush_kept {r0 s : State} (h0 : r0.Kept s) (f : Nat) : r0.Kept (State.evFlush s f) := by
  unfold State.evFlush
  iterate 40 all_goals try first
    | with_reducible exact h0
    | with_reducible assumption
    | with_reducible refine State.Kept.ite ?_ ?_
    | with_reducible refine State.lackRoom_kept ?_ ..
    | with_reducible refine State.roomAgain_kept ?_ ..
    | with_reducible refine State.setEv_kept ?_ ..
    | with_reducible refine State.writeCuts_kept ?_ ..
    | with_reducible refine State.writeEntries_kept ?_ ..
    | with_reducible refine State.Kept.upto _ _ ?_ (fun _ _ _ => ?_)
    | with_reducible refine State.Kept.fold _ _ ?_ (fun _ _ _ => ?_)
    | with_reducible split
    | with_reducible refine State.Kept.col ?_
    | with_reducible refine State.Kept.lit ?_

theorem State.logReport_kept {r0 s : State} (h0 : r0.Kept s) (r : Report) : r0.Kept (State.logReport s r) := by
  unfold State.logReport
  iterate 40 all_goals try first
    | with_reducible exact h0
    | with_reducible assumption
    | with_reducible refine State.Kept.ite ?_ ?_
    | with_reducible refine State.clear_kept ?_ ..
    | with_reducible refine State.Kept.upto _ _ ?_ (fun _ _ _ => ?_)
    | with_reducible refine State.Kept.fold _ _ ?_ (fun _ _ _ => ?_)
    | with_reducible split
    | with_reducible refine State.Kept.col ?_
    | with_reducible refine State.Kept.lit ?_

theorem State.deliver_kept {r0 s : State} (h0 : r0.Kept s)  : r0.Kept (State.deliver s) := by
  unfold State.deliver
  iterate 40 all_goals try first
    | with_reducible exact h0
    | with_reducible assumption
    | with_reducible refine State.Kept.ite ?_ ?_
    | with_reducible refine State.evReport_kept ?_ ..
    | with_reducible refine State.logReport_kept ?_ ..
    | with_reducible refine State.Kept.upto _ _ ?_ (fun _ _ _ => ?_)
    | with_reducible refine State.Kept.fold _ _ ?_ (fun _ _ _ => ?_)
    | with_reducible refine State.Kept.fold2 _ _ ?_ (fun _ _ _ => ?_)
    | with_reducible refine State.Kept.fold1 _ _ ?_ (fun _ _ _ => ?_)
    | with_reducible refine State.Kept.fold2' (by assumption) ?_ (fun _ _ _ => ?_)
    | with_reducible refine State.Kept.fold1' (by assumption) ?_ (fun _ _ _ => ?_)
    | with_reducible split
    | with_reducible refine State.Kept.col ?_
    | with_reducible refine State.Kept.lit ?_

theorem State.evEnable_kept {r0 s : State} (h0 : r0.Kept s) (f : Nat) : r0.Kept (State.evEnable s f) := by
  unfold State.evEnable
  iterate 40 all_goals try first
    | with_reducible exact h0
    | with_reducible assumption
    | with_reducible refine State.Kept.ite ?_ ?_
    | with_reducible refine State.count_kept ?_ ..
    | with_reducible refine State.evFlush_kept ?_ ..
    | with_reducible refine State.evReport_kept ?_ ..
    | with_reducible refine State.note_kept ?_ ..
    | with_reducible refine State.raise_kept ?_ ..
    | with_reducible refine State.setEv_kept ?_ ..
    | with_reducible refine State.Kept.upto _ _ ?_ (fun _ _ _ => ?_)
    | with_reducible refine State.Kept.fold _ _ ?_ (fun _ _ _ => ?_)
    | with_reducible refine State.Kept.fold2 _ _ ?_ (fun _ _ _ => ?_)
    | with_reducible refine State.Kept.fold1 _ _ ?_ (fun _ _ _ => ?_)
    | with_reducible refine State.Kept.fold2' (by assumption) ?_ (fun _ _ _ => ?_)
    | with_reducible refine State.Kept.fold1' (by assumption) ?_ (fun _ _ _ => ?_)
    | with_reducible split
    | with_reducible refine State.Kept.col ?_
    | with_reducible refine State.Kept.lit ?_

theorem State.headBell_kept {r0 s : State} (h0 : r0.Kept s) (f : Nat) (size : Nat) (data : Nat) : r0.Kept (State.headBell s f size data) := by
  unfold State.headBell
  iterate 40 all_goals try first
    | with_reducible exact h0
    | with_reducible assumption
    | with_reducible refine State.Kept.ite ?_ ?_
    | with_reducible refine State.evFlush_kept ?_ ..
    | with_reducible refine State.ignoreBell_kept ?_ ..
    | with_reducible refine State.setEv_kept ?_ ..
    | with_reducible refine State.Kept.upto _ _ ?_ (fun _ _ _ => ?_)
    | with_reducible refine State.Kept.fold _ _ ?_ (fun _ _ _ => ?_)
    | with_reducible split
    | with_reducible refine State.Kept.col ?_
    | with_reducible refine State.Kept.lit ?_

theorem State.bar2Write_kept {r0 s : State} (h0 : r0.Kept s) (f : Nat) (page : Nat) (off : Nat) (size : Nat) (data : Nat) : r0.Kept (State.bar2Write s f page off size data) := by
  unfold State.bar2Write
  iterate 40 all_goals try first
    | with_reducible exact h0
    | with_reducible assumption
    | with_reducible refine State.Kept.ite ?_ ?_
    | with_reducible refine State.headBell_kept ?_ ..
    | with_reducible refine State.submitBell_kept ?_ ..
    | with_reducible refine State.Kept.upto _ _ ?_ (fun _ _ _ => ?_)
    | with_reducible refine State.Kept.fold _ _ ?_ (fun _ _ _ => ?_)
    | with_reducible split
    | with_reducible refine State.Kept.col ?_
    | with_reducible refine State.Kept.lit ?_

theorem State.deliverOlder_kept {r0 s : State} (h0 : r0.Kept s)  : r0.Kept (State.deliverOlder s) := by
  unfold State.deliverOlder
  iterate 40 all_goals try first
    | with_reducible exact h0
    | with_reducible assumption
    | with_reducible refine State.Kept.ite ?_ ?_
    | with_reducible refine State.deliver_kept ?_ ..
    | with_reducible refine State.Kept.upto _ _ ?_ (fun _ _ _ => ?_)
    | with_reducible refine State.Kept.fold _ _ ?_ (fun _ _ _ => ?_)
    | with_reducible split
    | with_reducible refine State.Kept.col ?_
    | with_reducible refine State.Kept.lit ?_

theorem State.publish_kept {r0 s : State} (h0 : r0.Kept s) (c : Cut) : r0.Kept (State.publish s c) := by
  unfold State.publish
  iterate 40 all_goals try first
    | with_reducible exact h0
    | with_reducible assumption
    | with_reducible refine State.Kept.ite ?_ ?_
    | with_reducible refine State.deliverOlder_kept ?_ ..
    | with_reducible refine State.evFlush_kept ?_ ..
    | with_reducible refine State.setEv_kept ?_ ..
    | with_reducible refine State.setRing_kept ?_ ..
    | with_reducible refine State.Kept.upto _ _ ?_ (fun _ _ _ => ?_)
    | with_reducible refine State.Kept.fold _ _ ?_ (fun _ _ _ => ?_)
    | with_reducible refine State.Kept.fold2 _ _ ?_ (fun _ _ _ => ?_)
    | with_reducible refine State.Kept.fold1 _ _ ?_ (fun _ _ _ => ?_)
    | with_reducible refine State.Kept.fold2' (by assumption) ?_ (fun _ _ _ => ?_)
    | with_reducible refine State.Kept.fold1' (by assumption) ?_ (fun _ _ _ => ?_)
    | with_reducible split
    | with_reducible refine State.Kept.col ?_
    | with_reducible refine State.Kept.lit ?_

theorem State.failRead_kept {r0 s : State} (h0 : r0.Kept s) (code : Nat) (r : HostRead) : r0.Kept (State.failRead s code r) := by
  unfold State.failRead
  iterate 40 all_goals try first
    | with_reducible exact h0
    | with_reducible assumption
    | with_reducible refine State.Kept.ite ?_ ?_
    | with_reducible refine State.copyFail_kept ?_ ..
    | with_reducible refine State.hostPrefetch_kept ?_ ..
    | with_reducible refine State.mveDeliver_kept ?_ ..
    | with_reducible refine State.Kept.upto _ _ ?_ (fun _ _ _ => ?_)
    | with_reducible refine State.Kept.fold _ _ ?_ (fun _ _ _ => ?_)
    | with_reducible split
    | with_reducible refine State.Kept.col ?_
    | with_reducible refine State.Kept.lit ?_

theorem State.failReads_kept {r0 s : State} (h0 : r0.Kept s) (code : Nat) (p : HostRead → Bool) : r0.Kept (State.failReads s code p) := by
  unfold State.failReads
  iterate 40 all_goals try first
    | with_reducible exact h0
    | with_reducible assumption
    | with_reducible refine State.Kept.ite ?_ ?_
    | with_reducible refine State.failRead_kept ?_ ..
    | with_reducible refine State.Kept.upto _ _ ?_ (fun _ _ _ => ?_)
    | with_reducible refine State.Kept.fold _ _ ?_ (fun _ _ _ => ?_)
    | with_reducible refine State.Kept.fold2 _ _ ?_ (fun _ _ _ => ?_)
    | with_reducible refine State.Kept.fold1 _ _ ?_ (fun _ _ _ => ?_)
    | with_reducible refine State.Kept.fold2' (by assumption) ?_ (fun _ _ _ => ?_)
    | with_reducible refine State.Kept.fold1' (by assumption) ?_ (fun _ _ _ => ?_)
    | with_reducible split
    | with_reducible refine State.Kept.col ?_
    | with_reducible refine State.Kept.lit ?_

theorem State.answerRead_kept {r0 s : State} (h0 : r0.Kept s) (r : HostRead) (status : Nat) (cells : List Cell64) : r0.Kept (State.answerRead s r status cells) := by
  unfold State.answerRead
  iterate 40 all_goals try first
    | with_reducible exact h0
    | with_reducible assumption
    | with_reducible refine State.Kept.ite ?_ ?_
    | with_reducible refine State.copyDeliver_kept ?_ ..
    | with_reducible refine State.hostPrefetch_kept ?_ ..
    | with_reducible refine State.mveDeliver_kept ?_ ..
    | with_reducible refine State.Kept.upto _ _ ?_ (fun _ _ _ => ?_)
    | with_reducible refine State.Kept.fold _ _ ?_ (fun _ _ _ => ?_)
    | with_reducible split
    | with_reducible refine State.Kept.col ?_
    | with_reducible refine State.Kept.lit ?_

theorem State.hostAnswer_kept {r0 s : State} (h0 : r0.Kept s) (tag : Nat) (status : Nat) (data : List Half) : r0.Kept (State.hostAnswer s tag status data) := by
  unfold State.hostAnswer
  iterate 40 all_goals try first
    | with_reducible exact h0
    | with_reducible assumption
    | with_reducible refine State.Kept.ite ?_ ?_
    | with_reducible refine State.answerRead_kept ?_ ..
    | with_reducible refine State.hostErr_kept ?_ ..
    | with_reducible refine State.sendWaiting_kept ?_ ..
    | with_reducible refine State.Kept.upto _ _ ?_ (fun _ _ _ => ?_)
    | with_reducible refine State.Kept.fold _ _ ?_ (fun _ _ _ => ?_)
    | with_reducible split
    | with_reducible refine State.Kept.col ?_
    | with_reducible refine State.Kept.lit ?_

theorem State.aerSet_kept {r0 s : State} (h0 : r0.Kept s) (f : Nat) (b : Nat) : r0.Kept (State.aerSet s f b) := by
  unfold State.aerSet
  iterate 40 all_goals try first
    | with_reducible exact h0
    | with_reducible assumption
    | with_reducible refine State.Kept.ite ?_ ?_
    | with_reducible refine State.Kept.upto _ _ ?_ (fun _ _ _ => ?_)
    | with_reducible refine State.Kept.fold _ _ ?_ (fun _ _ _ => ?_)
    | with_reducible split
    | with_reducible refine State.Kept.col ?_
    | with_reducible refine State.Kept.lit ?_

theorem State.answerUr_kept {r0 s : State} (h0 : r0.Kept s) (f : Nat) : r0.Kept (State.answerUr s f) := by
  unfold State.answerUr
  iterate 40 all_goals try first
    | with_reducible exact h0
    | with_reducible assumption
    | with_reducible refine State.Kept.ite ?_ ?_
    | with_reducible refine State.aerSet_kept ?_ ..
    | with_reducible refine State.send_kept ?_ ..
    | with_reducible refine State.Kept.upto _ _ ?_ (fun _ _ _ => ?_)
    | with_reducible refine State.Kept.fold _ _ ?_ (fun _ _ _ => ?_)
    | with_reducible split
    | with_reducible refine State.Kept.col ?_
    | with_reducible refine State.Kept.lit ?_

theorem State.aerOf_kept {r0 s : State} (h0 : r0.Kept s) (tag : Nat) (status : Nat) : r0.Kept (State.aerOf s tag status) := by
  unfold State.aerOf
  iterate 40 all_goals try first
    | with_reducible exact h0
    | with_reducible assumption
    | with_reducible refine State.Kept.ite ?_ ?_
    | with_reducible refine State.aerSet_kept ?_ ..
    | with_reducible refine State.Kept.upto _ _ ?_ (fun _ _ _ => ?_)
    | with_reducible refine State.Kept.fold _ _ ?_ (fun _ _ _ => ?_)
    | with_reducible split
    | with_reducible refine State.Kept.col ?_
    | with_reducible refine State.Kept.lit ?_

theorem State.setLink_kept {r0 s : State} (h0 : r0.Kept s) (width : Nat) (speed : Nat) (flit : Bool) : r0.Kept (State.setLink s width speed flit) := by
  unfold State.setLink
  iterate 40 all_goals try first
    | with_reducible exact h0
    | with_reducible assumption
    | with_reducible refine State.Kept.ite ?_ ?_
    | with_reducible refine State.wr_kept ?_ ..
    | with_reducible refine State.Kept.upto _ _ ?_ (fun _ _ _ => ?_)
    | with_reducible refine State.Kept.fold _ _ ?_ (fun _ _ _ => ?_)
    | with_reducible split
    | with_reducible refine State.Kept.col ?_
    | with_reducible refine State.Kept.lit ?_

theorem State.reportLink_kept {r0 s : State} (h0 : r0.Kept s) (width : Nat) (speed : Nat) : r0.Kept (State.reportLink s width speed) := by
  unfold State.reportLink
  iterate 40 all_goals try first
    | with_reducible exact h0
    | with_reducible assumption
    | with_reducible refine State.Kept.ite ?_ ?_
    | with_reducible refine State.emit_kept ?_ ..
    | with_reducible refine State.Kept.upto _ _ ?_ (fun _ _ _ => ?_)
    | with_reducible refine State.Kept.fold _ _ ?_ (fun _ _ _ => ?_)
    | with_reducible split
    | with_reducible refine State.Kept.col ?_
    | with_reducible refine State.Kept.lit ?_

theorem State.leaveD3_kept {r0 s : State} (h0 : r0.Kept s)  : r0.Kept (State.leaveD3 s) := by
  unfold State.leaveD3
  iterate 40 all_goals try first
    | with_reducible exact h0
    | with_reducible assumption
    | with_reducible refine State.Kept.ite ?_ ?_
    | with_reducible refine State.freeTile_kept ?_ ..
    | with_reducible refine State.Kept.upto _ _ ?_ (fun _ _ _ => ?_)
    | with_reducible refine State.Kept.fold _ _ ?_ (fun _ _ _ => ?_)
    | with_reducible refine State.Kept.fold2 _ _ ?_ (fun _ _ _ => ?_)
    | with_reducible refine State.Kept.fold1 _ _ ?_ (fun _ _ _ => ?_)
    | with_reducible refine State.Kept.fold2' (by assumption) ?_ (fun _ _ _ => ?_)
    | with_reducible refine State.Kept.fold1' (by assumption) ?_ (fun _ _ _ => ?_)
    | with_reducible split
    | with_reducible refine State.Kept.col ?_
    | with_reducible refine State.Kept.lit ?_

theorem State.resetHostIsland_kept {r0 s : State} (h0 : r0.Kept s)  : r0.Kept (State.resetHostIsland s) := by
  unfold State.resetHostIsland
  iterate 40 all_goals try first
    | with_reducible exact h0
    | with_reducible assumption
    | with_reducible refine State.Kept.ite ?_ ?_
    | with_reducible refine State.leaveD3_kept ?_ ..
    | with_reducible refine State.msix_kept ?_ ..
    | with_reducible refine State.Kept.upto _ _ ?_ (fun _ _ _ => ?_)
    | with_reducible refine State.Kept.fold _ _ ?_ (fun _ _ _ => ?_)
    | with_reducible split
    | with_reducible refine State.Kept.col ?_
    | with_reducible refine State.Kept.lit ?_

theorem State.dropIdeKeys_kept {r0 s : State} (h0 : r0.Kept s)  : r0.Kept (State.dropIdeKeys s) := by
  unfold State.dropIdeKeys
  iterate 40 all_goals try first
    | with_reducible exact h0
    | with_reducible assumption
    | with_reducible refine State.Kept.ite ?_ ?_
    | with_reducible refine State.clear_kept ?_ ..
    | with_reducible refine State.Kept.upto _ _ ?_ (fun _ _ _ => ?_)
    | with_reducible refine State.Kept.fold _ _ ?_ (fun _ _ _ => ?_)
    | with_reducible split
    | with_reducible refine State.Kept.col ?_
    | with_reducible refine State.Kept.lit ?_

theorem State.failLines_kept {r0 s : State} (h0 : r0.Kept s)  : r0.Kept (State.failLines s) := by
  unfold State.failLines
  iterate 40 all_goals try first
    | with_reducible exact h0
    | with_reducible assumption
    | with_reducible refine State.Kept.ite ?_ ?_
    | with_reducible refine streamLineReturn_kept ?_ ..
    | with_reducible refine State.Kept.upto _ _ ?_ (fun _ _ _ => ?_)
    | with_reducible refine State.Kept.fold _ _ ?_ (fun _ _ _ => ?_)
    | with_reducible refine State.Kept.fold2 _ _ ?_ (fun _ _ _ => ?_)
    | with_reducible refine State.Kept.fold1 _ _ ?_ (fun _ _ _ => ?_)
    | with_reducible refine State.Kept.fold2' (by assumption) ?_ (fun _ _ _ => ?_)
    | with_reducible refine State.Kept.fold1' (by assumption) ?_ (fun _ _ _ => ?_)
    | with_reducible split
    | with_reducible refine State.Kept.col ?_
    | with_reducible refine State.Kept.lit ?_

theorem State.linkDownGo_kept {r0 s : State} (h0 : r0.Kept s) (cause : Nat) (unacked : Nat) : r0.Kept (State.linkDownGo s cause unacked) := by
  unfold State.linkDownGo
  iterate 40 all_goals try first
    | with_reducible exact h0
    | with_reducible assumption
    | with_reducible refine State.Kept.ite ?_ ?_
    | with_reducible refine State.dropIdeKeys_kept ?_ ..
    | with_reducible refine State.emit_kept ?_ ..
    | with_reducible refine State.failLines_kept ?_ ..
    | with_reducible refine State.failReads_kept ?_ ..
    | with_reducible refine State.moltGo_kept ?_ ..
    | with_reducible refine State.resetHostIsland_kept ?_ ..
    | with_reducible refine State.resume_kept ?_ ..
    | with_reducible refine State.ringsLinkDown_kept ?_ ..
    | with_reducible refine State.sat_kept ?_ ..
    | with_reducible refine State.setWord_kept ?_ ..
    | with_reducible refine State.wake_kept ?_ ..
    | with_reducible refine State.Kept.upto _ _ ?_ (fun _ _ _ => ?_)
    | with_reducible refine State.Kept.fold _ _ ?_ (fun _ _ _ => ?_)
    | with_reducible refine State.Kept.fold2 _ _ ?_ (fun _ _ _ => ?_)
    | with_reducible refine State.Kept.fold1 _ _ ?_ (fun _ _ _ => ?_)
    | with_reducible refine State.Kept.fold2' (by assumption) ?_ (fun _ _ _ => ?_)
    | with_reducible refine State.Kept.fold1' (by assumption) ?_ (fun _ _ _ => ?_)
    | with_reducible split
    | with_reducible refine State.Kept.col ?_
    | with_reducible refine State.Kept.lit ?_

theorem State.linkLost_kept {r0 s : State} (h0 : r0.Kept s) (cause : Nat) : r0.Kept (State.linkLost s cause) := by
  unfold State.linkLost
  iterate 40 all_goals try first
    | with_reducible exact h0
    | with_reducible assumption
    | with_reducible refine State.fresh_kept' (by assumption) ?_
    | with_reducible refine State.Kept.ite ?_ ?_
    | with_reducible refine State.fresh_kept ?_ ..
    | with_reducible refine State.linkDownGo_kept ?_ ..
    | with_reducible refine State.Kept.upto _ _ ?_ (fun _ _ _ => ?_)
    | with_reducible refine State.Kept.fold _ _ ?_ (fun _ _ _ => ?_)
    | with_reducible refine State.Kept.pair2 (by assumption) ?_ ?_
    | with_reducible refine State.Kept.pair22 (by assumption) ?_ ?_
    | with_reducible split
    | with_reducible refine State.Kept.col ?_
    | with_reducible refine State.Kept.lit ?_

theorem State.setConfig_kept {r0 s : State} (h0 : r0.Kept s) (x : Enabling) : r0.Kept (State.setConfig s x) := by
  unfold State.setConfig
  iterate 40 all_goals try first
    | with_reducible exact h0
    | with_reducible assumption
    | with_reducible refine State.Kept.ite ?_ ?_
    | with_reducible refine State.Kept.upto _ _ ?_ (fun _ _ _ => ?_)
    | with_reducible refine State.Kept.fold _ _ ?_ (fun _ _ _ => ?_)
    | with_reducible split
    | with_reducible refine State.Kept.col ?_
    | with_reducible refine State.Kept.lit ?_

theorem State.hostRefusal_kept {r0 s : State} (h0 : r0.Kept s) (f : Nat) (status : Nat) : r0.Kept (State.hostRefusal s f status) := by
  unfold State.hostRefusal
  iterate 40 all_goals try first
    | with_reducible exact h0
    | with_reducible assumption
    | with_reducible refine State.Kept.ite ?_ ?_
    | with_reducible refine State.emit_kept ?_ ..
    | with_reducible refine State.Kept.upto _ _ ?_ (fun _ _ _ => ?_)
    | with_reducible refine State.Kept.fold _ _ ?_ (fun _ _ _ => ?_)
    | with_reducible split
    | with_reducible refine State.Kept.col ?_
    | with_reducible refine State.Kept.lit ?_

theorem State.unanswer_kept {r0 s : State} (h0 : r0.Kept s) (line : Nat) : r0.Kept (State.unanswer s line) := by
  unfold State.unanswer
  iterate 40 all_goals try first
    | with_reducible exact h0
    | with_reducible assumption
    | with_reducible refine State.Kept.ite ?_ ?_
    | with_reducible refine State.Kept.upto _ _ ?_ (fun _ _ _ => ?_)
    | with_reducible refine State.Kept.fold _ _ ?_ (fun _ _ _ => ?_)
    | with_reducible split
    | with_reducible refine State.Kept.col ?_
    | with_reducible refine State.Kept.lit ?_

theorem State.trackHost_kept {r0 s : State} (h0 : r0.Kept s) (key : Nat) (keeps : Bool) : r0.Kept (State.trackHost s key keeps) := by
  unfold State.trackHost
  iterate 40 all_goals try first
    | with_reducible exact h0
    | with_reducible assumption
    | with_reducible refine State.Kept.ite ?_ ?_
    | with_reducible refine State.enterDir_kept ?_ ..
    | with_reducible refine State.leaveDir_kept ?_ ..
    | with_reducible refine State.unanswer_kept ?_ ..
    | with_reducible refine State.Kept.upto _ _ ?_ (fun _ _ _ => ?_)
    | with_reducible refine State.Kept.fold _ _ ?_ (fun _ _ _ => ?_)
    | with_reducible split
    | with_reducible refine State.Kept.col ?_
    | with_reducible refine State.Kept.lit ?_

theorem State.biasAsk_kept {r0 s : State} (h0 : r0.Kept s)  : r0.Kept (State.biasAsk s) := by
  unfold State.biasAsk
  iterate 40 all_goals try first
    | with_reducible exact h0
    | with_reducible assumption
    | with_reducible refine State.Kept.ite ?_ ?_
    | with_reducible refine State.askSnoop_kept ?_ ..
    | with_reducible refine State.Kept.upto _ _ ?_ (fun _ _ _ => ?_)
    | with_reducible refine State.Kept.fold _ _ ?_ (fun _ _ _ => ?_)
    | with_reducible refine State.Kept.fold2 _ _ ?_ (fun _ _ _ => ?_)
    | with_reducible refine State.Kept.fold1 _ _ ?_ (fun _ _ _ => ?_)
    | with_reducible refine State.Kept.fold2' (by assumption) ?_ (fun _ _ _ => ?_)
    | with_reducible refine State.Kept.fold1' (by assumption) ?_ (fun _ _ _ => ?_)
    | with_reducible split
    | with_reducible refine State.Kept.col ?_
    | with_reducible refine State.Kept.lit ?_

theorem State.biasGo_kept {r0 s : State} (h0 : r0.Kept s) (r : Nat) (shared : Bool) : r0.Kept (State.biasGo s r shared) := by
  unfold State.biasGo
  iterate 40 all_goals try first
    | with_reducible exact h0
    | with_reducible assumption
    | with_reducible refine State.Kept.ite ?_ ?_
    | with_reducible refine State.biasAsk_kept ?_ ..
    | with_reducible refine State.raise_kept ?_ ..
    | with_reducible refine State.Kept.upto _ _ ?_ (fun _ _ _ => ?_)
    | with_reducible refine State.Kept.fold _ _ ?_ (fun _ _ _ => ?_)
    | with_reducible split
    | with_reducible refine State.Kept.col ?_
    | with_reducible refine State.Kept.lit ?_

theorem State.snoopDone_kept {r0 s : State} (h0 : r0.Kept s) (line : Nat) (p : ReadUser) : r0.Kept (State.snoopDone s line p) := by
  unfold State.snoopDone
  iterate 40 all_goals try first
      | with_reducible exact h0
      | with_reducible assumption
      | with_reducible refine State.Kept.ite ?_ ?_
      | with_reducible refine State.modTile_kept ?_ ..
      | with_reducible refine State.setCopy_kept ?_ ..
      | with_reducible refine State.Kept.upto _ _ ?_ (fun _ _ _ => ?_)
      | with_reducible refine State.Kept.fold _ _ ?_ (fun _ _ _ => ?_)
      | with_reducible split
      | with_reducible refine State.Kept.col ?_
      | with_reducible refine State.Kept.lit ?_

theorem State.snoopWrite_kept {r0 s : State} (h0 : r0.Kept s) (key : Nat) (d : Option Cell64) : r0.Kept (State.snoopWrite s key d).2 := by
  unfold State.snoopWrite
  iterate 40 all_goals try first
    | with_reducible exact h0
    | with_reducible assumption
    | with_reducible refine State.hostPortWrite_kept' (by assumption) ?_
    | with_reducible refine State.Kept.ite ?_ ?_
    | with_reducible refine State.Kept.ite2 ?_ ?_
    | with_reducible refine State.Kept.ite22 ?_ ?_
    | with_reducible refine State.Kept.ite1 ?_ ?_
    | with_reducible refine State.hostPortWrite_kept ?_ ..
    | with_reducible refine State.Kept.upto _ _ ?_ (fun _ _ _ => ?_)
    | with_reducible refine State.Kept.fold _ _ ?_ (fun _ _ _ => ?_)
    | with_reducible split
    | dsimp only
    | with_reducible refine State.Kept.col ?_
    | with_reducible refine State.Kept.lit ?_

theorem State.snoopWrite_kept' {r0 s s1 : State} {key : Nat} {d : Option Cell64} {x0 : Bool} (e0 : State.snoopWrite s key d = (x0, s1)) (h0 : r0.Kept s) : r0.Kept s1 := by
  have g0 := State.snoopWrite_kept h0 key d
  rw [e0] at g0
  exact g0

theorem State.countP_kept {r0 s : State} (h0 : r0.Kept s) (f : Fld) (n : Nat) : r0.Kept (State.countP s f n) := by
  unfold State.countP
  iterate 40 all_goals try first
    | with_reducible exact h0
    | with_reducible assumption
    | with_reducible refine State.Kept.ite ?_ ?_
    | with_reducible refine State.count_kept ?_ ..
    | with_reducible refine State.Kept.upto _ _ ?_ (fun _ _ _ => ?_)
    | with_reducible refine State.Kept.fold _ _ ?_ (fun _ _ _ => ?_)
    | with_reducible split
    | with_reducible refine State.Kept.col ?_
    | with_reducible refine State.Kept.lit ?_

theorem State.countTime_kept {r0 s : State} (h0 : r0.Kept s)  : r0.Kept (State.countTime s) := by
  unfold State.countTime
  iterate 40 all_goals try first
    | with_reducible exact h0
    | with_reducible assumption
    | with_reducible refine State.Kept.ite ?_ ?_
    | with_reducible refine State.countP_kept ?_ ..
    | with_reducible refine State.Kept.upto _ _ ?_ (fun _ _ _ => ?_)
    | with_reducible refine State.Kept.fold _ _ ?_ (fun _ _ _ => ?_)
    | with_reducible split
    | with_reducible refine State.Kept.col ?_
    | with_reducible refine State.Kept.lit ?_

theorem State.applyLevels_kept {r0 s : State} (h0 : r0.Kept s)  : r0.Kept (State.applyLevels s) := by
  unfold State.applyLevels
  iterate 40 all_goals try first
    | with_reducible exact h0
    | with_reducible assumption
    | with_reducible refine State.Kept.ite ?_ ?_
    | with_reducible refine State.countTime_kept ?_ ..
    | with_reducible refine State.wr_kept ?_ ..
    | with_reducible refine State.Kept.upto _ _ ?_ (fun _ _ _ => ?_)
    | with_reducible refine State.Kept.fold _ _ ?_ (fun _ _ _ => ?_)
    | with_reducible refine State.Kept.fold2 _ _ ?_ (fun _ _ _ => ?_)
    | with_reducible refine State.Kept.fold1 _ _ ?_ (fun _ _ _ => ?_)
    | with_reducible refine State.Kept.fold2' (by assumption) ?_ (fun _ _ _ => ?_)
    | with_reducible refine State.Kept.fold1' (by assumption) ?_ (fun _ _ _ => ?_)
    | with_reducible split
    | with_reducible refine State.Kept.col ?_
    | with_reducible refine State.Kept.lit ?_

theorem State.setBudget_kept {r0 s : State} (h0 : r0.Kept s) (ladder : Nat) (v : Nat) : r0.Kept (State.setBudget s ladder v) := by
  unfold State.setBudget
  iterate 40 all_goals try first
    | with_reducible exact h0
    | with_reducible assumption
    | with_reducible refine State.Kept.ite ?_ ?_
    | with_reducible refine State.applyLevels_kept ?_ ..
    | with_reducible refine State.emit_kept ?_ ..
    | with_reducible refine State.wr_kept ?_ ..
    | with_reducible refine State.Kept.upto _ _ ?_ (fun _ _ _ => ?_)
    | with_reducible refine State.Kept.fold _ _ ?_ (fun _ _ _ => ?_)
    | with_reducible split
    | with_reducible refine State.Kept.col ?_
    | with_reducible refine State.Kept.lit ?_

theorem State.applyBrake_kept {r0 s : State} (h0 : r0.Kept s)  : r0.Kept (State.applyBrake s) := by
  unfold State.applyBrake
  iterate 40 all_goals try first
    | with_reducible exact h0
    | with_reducible assumption
    | with_reducible refine State.Kept.ite ?_ ?_
    | with_reducible refine State.applyLevels_kept ?_ ..
    | with_reducible refine State.wr_kept ?_ ..
    | with_reducible refine State.Kept.upto _ _ ?_ (fun _ _ _ => ?_)
    | with_reducible refine State.Kept.fold _ _ ?_ (fun _ _ _ => ?_)
    | with_reducible split
    | with_reducible refine State.Kept.col ?_
    | with_reducible refine State.Kept.lit ?_

theorem State.loadFuses_kept {r0 s : State} (h0 : r0.Kept s)  : r0.Kept (State.loadFuses s) := by
  unfold State.loadFuses
  iterate 40 all_goals try first
    | with_reducible exact h0
    | with_reducible assumption
    | with_reducible refine State.Kept.ite ?_ ?_
    | with_reducible refine State.wr_kept ?_ ..
    | with_reducible refine State.Kept.upto _ _ ?_ (fun _ _ _ => ?_)
    | with_reducible refine State.Kept.fold _ _ ?_ (fun _ _ _ => ?_)
    | with_reducible split
    | with_reducible refine State.Kept.col ?_
    | with_reducible refine State.Kept.lit ?_

theorem State.resumeTiles_kept {r0 s : State} (h0 : r0.Kept s)  : r0.Kept (State.resumeTiles s) := by
  unfold State.resumeTiles
  iterate 40 all_goals try first
    | with_reducible exact h0
    | with_reducible assumption
    | with_reducible refine State.Kept.ite ?_ ?_
    | with_reducible refine State.Kept.upto _ _ ?_ (fun _ _ _ => ?_)
    | with_reducible refine State.Kept.fold _ _ ?_ (fun _ _ _ => ?_)
    | with_reducible split
    | with_reducible refine State.Kept.col ?_
    | with_reducible refine State.Kept.lit ?_

theorem State.insecureAll_kept {r0 s : State} (h0 : r0.Kept s)  : r0.Kept (State.insecureAll s) := by
  unfold State.insecureAll
  iterate 40 all_goals try first
    | with_reducible exact h0
    | with_reducible assumption
    | with_reducible refine State.Kept.ite ?_ ?_
    | with_reducible refine State.Kept.upto _ _ ?_ (fun _ _ _ => ?_)
    | with_reducible refine State.Kept.fold _ _ ?_ (fun _ _ _ => ?_)
    | with_reducible refine State.Kept.fold2 _ _ ?_ (fun _ _ _ => ?_)
    | with_reducible refine State.Kept.fold1 _ _ ?_ (fun _ _ _ => ?_)
    | with_reducible refine State.Kept.fold2' (by assumption) ?_ (fun _ _ _ => ?_)
    | with_reducible refine State.Kept.fold1' (by assumption) ?_ (fun _ _ _ => ?_)
    | with_reducible split
    | with_reducible refine State.Kept.col ?_
    | with_reducible refine State.Kept.lit ?_

theorem State.discardKeys_kept {r0 s : State} (h0 : r0.Kept s)  : r0.Kept (State.discardKeys s) := by
  unfold State.discardKeys
  iterate 40 all_goals try first
    | with_reducible exact h0
    | with_reducible assumption
    | with_reducible refine State.Kept.ite ?_ ?_
    | with_reducible refine State.emit_kept ?_ ..
    | with_reducible refine State.insecureAll_kept ?_ ..
    | with_reducible refine State.Kept.upto _ _ ?_ (fun _ _ _ => ?_)
    | with_reducible refine State.Kept.fold _ _ ?_ (fun _ _ _ => ?_)
    | with_reducible refine State.Kept.fold2 _ _ ?_ (fun _ _ _ => ?_)
    | with_reducible refine State.Kept.fold1 _ _ ?_ (fun _ _ _ => ?_)
    | with_reducible refine State.Kept.fold2' (by assumption) ?_ (fun _ _ _ => ?_)
    | with_reducible refine State.Kept.fold1' (by assumption) ?_ (fun _ _ _ => ?_)
    | with_reducible split
    | with_reducible refine State.Kept.col ?_
    | with_reducible refine State.Kept.lit ?_

theorem State.setLevel_kept {r0 s : State} (h0 : r0.Kept s) (new : Nat) (why : Nat) : r0.Kept (State.setLevel s new why) := by
  unfold State.setLevel
  iterate 40 all_goals try first
    | with_reducible exact h0
    | with_reducible assumption
    | with_reducible refine State.Kept.ite ?_ ?_
    | with_reducible refine State.discardKeys_kept ?_ ..
    | with_reducible refine State.emit_kept ?_ ..
    | with_reducible refine State.measureSec_kept ?_ ..
    | with_reducible refine State.raise_kept ?_ ..
    | with_reducible refine State.resumeTiles_kept ?_ ..
    | with_reducible refine State.wr_kept ?_ ..
    | with_reducible refine State.Kept.upto _ _ ?_ (fun _ _ _ => ?_)
    | with_reducible refine State.Kept.fold _ _ ?_ (fun _ _ _ => ?_)
    | with_reducible split
    | with_reducible refine State.Kept.col ?_
    | with_reducible refine State.Kept.lit ?_

theorem State.rollTo_kept {r0 s : State} (h0 : r0.Kept s) (svn : Nat) (cmd : Bool) : r0.Kept (State.rollTo s svn cmd) := by
  unfold State.rollTo
  iterate 40 all_goals try first
    | with_reducible exact h0
    | with_reducible assumption
    | with_reducible refine State.Kept.ite ?_ ?_
    | with_reducible refine State.clear_kept ?_ ..
    | with_reducible refine State.emit_kept ?_ ..
    | with_reducible refine State.measureSec_kept ?_ ..
    | with_reducible refine State.raise_kept ?_ ..
    | with_reducible refine State.wr_kept ?_ ..
    | with_reducible refine State.Kept.upto _ _ ?_ (fun _ _ _ => ?_)
    | with_reducible refine State.Kept.fold _ _ ?_ (fun _ _ _ => ?_)
    | with_reducible split
    | with_reducible refine State.Kept.col ?_
    | with_reducible refine State.Kept.lit ?_

theorem State.saveConfig_kept {r0 s : State} (h0 : r0.Kept s)  : r0.Kept (State.saveConfig s) := by
  unfold State.saveConfig
  iterate 40 all_goals try first
    | with_reducible exact h0
    | with_reducible assumption
    | with_reducible refine State.fresh_kept' (by assumption) ?_
    | with_reducible refine State.Kept.ite ?_ ?_
    | with_reducible refine State.emit_kept ?_ ..
    | with_reducible refine State.fresh_kept ?_ ..
    | with_reducible refine State.Kept.upto _ _ ?_ (fun _ _ _ => ?_)
    | with_reducible refine State.Kept.fold _ _ ?_ (fun _ _ _ => ?_)
    | with_reducible refine State.Kept.pair2 (by assumption) ?_ ?_
    | with_reducible refine State.Kept.pair22 (by assumption) ?_ ?_
    | with_reducible split
    | with_reducible refine State.Kept.col ?_
    | with_reducible refine State.Kept.lit ?_

theorem State.revokeSlot_kept {r0 s : State} (h0 : r0.Kept s) (k : Nat) : r0.Kept (State.revokeSlot s k) := by
  unfold State.revokeSlot
  iterate 40 all_goals try first
    | with_reducible exact h0
    | with_reducible assumption
    | with_reducible refine State.Kept.ite ?_ ?_
    | with_reducible refine State.emit_kept ?_ ..
    | with_reducible refine State.measureSec_kept ?_ ..
    | with_reducible refine State.wr_kept ?_ ..
    | with_reducible refine State.Kept.upto _ _ ?_ (fun _ _ _ => ?_)
    | with_reducible refine State.Kept.fold _ _ ?_ (fun _ _ _ => ?_)
    | with_reducible split
    | with_reducible refine State.Kept.col ?_
    | with_reducible refine State.Kept.lit ?_

theorem State.tellHeld_kept {r0 s : State} (h0 : r0.Kept s)  : r0.Kept (State.tellHeld s) := by
  unfold State.tellHeld
  iterate 40 all_goals try first
    | with_reducible exact h0
    | with_reducible assumption
    | with_reducible refine State.Kept.ite ?_ ?_
    | with_reducible refine State.emit_kept ?_ ..
    | with_reducible refine State.Kept.upto _ _ ?_ (fun _ _ _ => ?_)
    | with_reducible refine State.Kept.fold _ _ ?_ (fun _ _ _ => ?_)
    | with_reducible split
    | with_reducible refine State.Kept.col ?_
    | with_reducible refine State.Kept.lit ?_

theorem State.packageOff_kept {r0 s : State} (h0 : r0.Kept s)  : r0.Kept (State.packageOff s) := by
  unfold State.packageOff
  iterate 40 all_goals try first
    | with_reducible exact h0
    | with_reducible assumption
    | with_reducible refine State.Kept.drop ?_
    | with_reducible refine State.Kept.ite ?_ ?_
    | with_reducible refine State.applyBrake_kept ?_ ..
    | with_reducible refine State.linkDownGo_kept ?_ ..
    | with_reducible refine State.loadFuses_kept ?_ ..
    | with_reducible refine State.raise_kept ?_ ..
    | with_reducible refine State.wr_kept ?_ ..
    | with_reducible refine State.Kept.upto _ _ ?_ (fun _ _ _ => ?_)
    | with_reducible refine State.Kept.fold _ _ ?_ (fun _ _ _ => ?_)
    | with_reducible split
    | with_reducible refine State.Kept.col ?_
    | with_reducible refine State.Kept.lit ?_

theorem State.cardResetGo_kept {r0 s : State} (h0 : r0.Kept s)  : r0.Kept (State.cardResetGo s) := by
  unfold State.cardResetGo
  iterate 40 all_goals try first
    | with_reducible exact h0
    | with_reducible assumption
    | with_reducible refine State.Kept.ite ?_ ?_
    | with_reducible refine State.packageOff_kept ?_ ..
    | with_reducible refine State.wr_kept ?_ ..
    | with_reducible refine State.Kept.upto _ _ ?_ (fun _ _ _ => ?_)
    | with_reducible refine State.Kept.fold _ _ ?_ (fun _ _ _ => ?_)
    | with_reducible split
    | with_reducible refine State.Kept.col ?_
    | with_reducible refine State.Kept.lit ?_

theorem State.enterLc_kept {r0 s : State} (h0 : r0.Kept s) (v : Nat) : r0.Kept (State.enterLc s v) := by
  unfold State.enterLc
  iterate 40 all_goals try first
    | with_reducible exact h0
    | with_reducible assumption
    | with_reducible refine State.Kept.ite ?_ ?_
    | with_reducible refine State.cardResetGo_kept ?_ ..
    | with_reducible refine State.emit_kept ?_ ..
    | with_reducible refine State.Kept.upto _ _ ?_ (fun _ _ _ => ?_)
    | with_reducible refine State.Kept.fold _ _ ?_ (fun _ _ _ => ?_)
    | with_reducible split
    | with_reducible refine State.Kept.col ?_
    | with_reducible refine State.Kept.lit ?_

theorem State.nvRun_kept {r0 s : State} (h0 : r0.Kept s) (n : Nat) : r0.Kept (State.nvRun n s) := by
  induction n generalizing s  with
  | zero => exact h0
  | succ n ih =>
    unfold State.nvRun
    iterate 40 all_goals try first
      | with_reducible exact h0
      | with_reducible assumption
      | with_reducible refine ih ?_
      | with_reducible refine State.Kept.ite ?_ ?_
      | with_reducible refine State.commitRetired_kept ?_ ..
      | with_reducible refine State.enterLc_kept ?_ ..
      | with_reducible refine State.revokeSlot_kept ?_ ..
      | with_reducible refine State.rollTo_kept ?_ ..
      | with_reducible refine State.saveConfig_kept ?_ ..
      | with_reducible refine State.tellHeld_kept ?_ ..
      | with_reducible refine State.Kept.upto _ _ ?_ (fun _ _ _ => ?_)
      | with_reducible refine State.Kept.fold _ _ ?_ (fun _ _ _ => ?_)
      | with_reducible split
      | with_reducible refine State.Kept.col ?_
      | with_reducible refine State.Kept.lit ?_

theorem State.nvGo_kept {r0 s : State} (h0 : r0.Kept s)  : r0.Kept (State.nvGo s) := by
  unfold State.nvGo
  iterate 40 all_goals try first
    | with_reducible exact h0
    | with_reducible assumption
    | with_reducible refine State.Kept.ite ?_ ?_
    | with_reducible refine State.nvRun_kept ?_ ..
    | with_reducible refine State.Kept.upto _ _ ?_ (fun _ _ _ => ?_)
    | with_reducible refine State.Kept.fold _ _ ?_ (fun _ _ _ => ?_)
    | with_reducible split
    | with_reducible refine State.Kept.col ?_
    | with_reducible refine State.Kept.lit ?_

theorem State.askRoll_kept {r0 s : State} (h0 : r0.Kept s) (cmd : Bool) : r0.Kept (State.askRoll s cmd) := by
  unfold State.askRoll
  iterate 40 all_goals try first
    | with_reducible exact h0
    | with_reducible assumption
    | with_reducible refine State.Kept.ite ?_ ?_
    | with_reducible refine State.askNv_kept ?_ ..
    | with_reducible refine State.emit_kept ?_ ..
    | with_reducible refine State.nvGo_kept ?_ ..
    | with_reducible refine State.raise_kept ?_ ..
    | with_reducible refine State.Kept.upto _ _ ?_ (fun _ _ _ => ?_)
    | with_reducible refine State.Kept.fold _ _ ?_ (fun _ _ _ => ?_)
    | with_reducible split
    | with_reducible refine State.Kept.col ?_
    | with_reducible refine State.Kept.lit ?_

theorem State.regulate_kept {r0 s : State} (h0 : r0.Kept s) (dw : Nat) : r0.Kept (State.regulate s dw) := by
  unfold State.regulate
  iterate 40 all_goals try first
    | with_reducible exact h0
    | with_reducible assumption
    | with_reducible refine State.Kept.ite ?_ ?_
    | with_reducible refine State.emit_kept ?_ ..
    | with_reducible refine State.setBudget_kept ?_ ..
    | with_reducible refine State.Kept.upto _ _ ?_ (fun _ _ _ => ?_)
    | with_reducible refine State.Kept.fold _ _ ?_ (fun _ _ _ => ?_)
    | with_reducible split
    | with_reducible refine State.Kept.col ?_
    | with_reducible refine State.Kept.lit ?_

theorem State.seeIn48_kept {r0 s : State} (h0 : r0.Kept s) (mv : Nat) : r0.Kept (State.seeIn48 s mv) := by
  unfold State.seeIn48
  iterate 40 all_goals try first
    | with_reducible exact h0
    | with_reducible assumption
    | with_reducible refine State.Kept.ite ?_ ?_
    | with_reducible refine State.Kept.upto _ _ ?_ (fun _ _ _ => ?_)
    | with_reducible refine State.Kept.fold _ _ ?_ (fun _ _ _ => ?_)
    | with_reducible split
    | with_reducible refine State.Kept.col ?_
    | with_reducible refine State.Kept.lit ?_

theorem State.readMv_kept {r0 s : State} (h0 : r0.Kept s) (r : Nat) (mv : Nat) : r0.Kept (State.readMv s r mv) := by
  unfold State.readMv
  iterate 40 all_goals try first
    | with_reducible exact h0
    | with_reducible assumption
    | with_reducible refine State.Kept.ite ?_ ?_
    | with_reducible refine State.seeIn48_kept ?_ ..
    | with_reducible refine State.wr_kept ?_ ..
    | with_reducible refine State.Kept.upto _ _ ?_ (fun _ _ _ => ?_)
    | with_reducible refine State.Kept.fold _ _ ?_ (fun _ _ _ => ?_)
    | with_reducible split
    | with_reducible refine State.Kept.col ?_
    | with_reducible refine State.Kept.lit ?_

theorem State.readRail_kept {r0 s : State} (h0 : r0.Kept s) (r : Nat) (x : RailSample) : r0.Kept (State.readRail s r x) := by
  unfold State.readRail
  iterate 40 all_goals try first
    | with_reducible exact h0
    | with_reducible assumption
    | with_reducible refine State.Kept.ite ?_ ?_
    | with_reducible refine State.clear_kept ?_ ..
    | with_reducible refine State.readMv_kept ?_ ..
    | with_reducible refine State.wr_kept ?_ ..
    | with_reducible refine State.Kept.upto _ _ ?_ (fun _ _ _ => ?_)
    | with_reducible refine State.Kept.fold _ _ ?_ (fun _ _ _ => ?_)
    | with_reducible split
    | with_reducible refine State.Kept.col ?_
    | with_reducible refine State.Kept.lit ?_

theorem State.atLeast3_kept {r0 s : State} (h0 : r0.Kept s) (l : Nat) : r0.Kept (State.atLeast3 s l) := by
  unfold State.atLeast3
  iterate 40 all_goals try first
    | with_reducible exact h0
    | with_reducible assumption
    | with_reducible refine State.Kept.ite ?_ ?_
    | with_reducible refine State.setBudget_kept ?_ ..
    | with_reducible refine State.Kept.upto _ _ ?_ (fun _ _ _ => ?_)
    | with_reducible refine State.Kept.fold _ _ ?_ (fun _ _ _ => ?_)
    | with_reducible split
    | with_reducible refine State.Kept.col ?_
    | with_reducible refine State.Kept.lit ?_

theorem State.brakeGo_kept {r0 s : State} (h0 : r0.Kept s) (pin : Bool) (on : Bool) : r0.Kept (State.brakeGo s pin on) := by
  unfold State.brakeGo
  iterate 40 all_goals try first
    | with_reducible exact h0
    | with_reducible assumption
    | with_reducible refine State.Kept.ite ?_ ?_
    | with_reducible refine State.applyBrake_kept ?_ ..
    | with_reducible refine State.emit_kept ?_ ..
    | with_reducible refine State.wr_kept ?_ ..
    | with_reducible refine State.Kept.upto _ _ ?_ (fun _ _ _ => ?_)
    | with_reducible refine State.Kept.fold _ _ ?_ (fun _ _ _ => ?_)
    | with_reducible split
    | with_reducible refine State.Kept.col ?_
    | with_reducible refine State.Kept.lit ?_

theorem State.applyAlert_kept {r0 s : State} (h0 : r0.Kept s)  : r0.Kept (State.applyAlert s) := by
  unfold State.applyAlert
  iterate 40 all_goals try first
    | with_reducible exact h0
    | with_reducible assumption
    | with_reducible refine State.Kept.ite ?_ ?_
    | with_reducible refine State.note_kept ?_ ..
    | with_reducible refine State.wr_kept ?_ ..
    | with_reducible refine State.Kept.upto _ _ ?_ (fun _ _ _ => ?_)
    | with_reducible refine State.Kept.fold _ _ ?_ (fun _ _ _ => ?_)
    | with_reducible split
    | with_reducible refine State.Kept.col ?_
    | with_reducible refine State.Kept.lit ?_

theorem State.sense_kept {r0 s : State} (h0 : r0.Kept s) (i : Nat) : r0.Kept (State.sense s i) := by
  unfold State.sense
  iterate 40 all_goals try first
    | with_reducible exact h0
    | with_reducible assumption
    | with_reducible refine State.Kept.ite ?_ ?_
    | with_reducible refine State.emit_kept ?_ ..
    | with_reducible refine State.wr_kept ?_ ..
    | with_reducible refine State.Kept.upto _ _ ?_ (fun _ _ _ => ?_)
    | with_reducible refine State.Kept.fold _ _ ?_ (fun _ _ _ => ?_)
    | with_reducible split
    | with_reducible refine State.Kept.col ?_
    | with_reducible refine State.Kept.lit ?_

theorem State.tripGo_kept {r0 s : State} (h0 : r0.Kept s) (sensor : Nat) (t : Nat) (thermal : Bool) (mv : Nat) : r0.Kept (State.tripGo s sensor t thermal mv) := by
  unfold State.tripGo
  iterate 40 all_goals try first
    | with_reducible exact h0
    | with_reducible assumption
    | with_reducible refine State.Kept.ite ?_ ?_
    | with_reducible refine State.applyAlert_kept ?_ ..
    | with_reducible refine State.note_kept ?_ ..
    | with_reducible refine State.packageOff_kept ?_ ..
    | with_reducible refine State.raise_kept ?_ ..
    | with_reducible refine State.wr_kept ?_ ..
    | with_reducible refine State.Kept.upto _ _ ?_ (fun _ _ _ => ?_)
    | with_reducible refine State.Kept.fold _ _ ?_ (fun _ _ _ => ?_)
    | with_reducible split
    | with_reducible refine State.Kept.col ?_
    | with_reducible refine State.Kept.lit ?_

theorem State.islandOn_kept {r0 s : State} (h0 : r0.Kept s) (p : FactoryParts) : r0.Kept (State.islandOn s p) := by
  unfold State.islandOn
  iterate 40 all_goals try first
    | with_reducible exact h0
    | with_reducible assumption
    | with_reducible refine State.Kept.island h0
    | with_reducible refine State.Kept.ite ?_ ?_
    | with_reducible refine State.loadFuses_kept ?_ ..
    | with_reducible refine State.raise_kept ?_ ..
    | with_reducible refine State.wr_kept ?_ ..
    | with_reducible refine State.Kept.upto _ _ ?_ (fun _ _ _ => ?_)
    | with_reducible refine State.Kept.fold _ _ ?_ (fun _ _ _ => ?_)
    | with_reducible split
    | with_reducible refine State.Kept.col ?_
    | with_reducible refine State.Kept.lit ?_

theorem State.fail_kept {r0 s : State} (h0 : r0.Kept s) (step : Nat) (reason : Nat) : r0.Kept (State.fail s step reason) := by
  unfold State.fail
  iterate 40 all_goals try first
    | with_reducible exact h0
    | with_reducible assumption
    | with_reducible refine State.Kept.ite ?_ ?_
    | with_reducible refine State.emit_kept ?_ ..
    | with_reducible refine State.raise_kept ?_ ..
    | with_reducible refine State.wr_kept ?_ ..
    | with_reducible refine State.Kept.upto _ _ ?_ (fun _ _ _ => ?_)
    | with_reducible refine State.Kept.fold _ _ ?_ (fun _ _ _ => ?_)
    | with_reducible split
    | with_reducible refine State.Kept.col ?_
    | with_reducible refine State.Kept.lit ?_

theorem State.step1_kept {r0 s : State} (h0 : r0.Kept s) (i : Image) : r0.Kept (State.step1 s i) := by
  unfold State.step1
  iterate 40 all_goals try first
    | with_reducible exact h0
    | with_reducible assumption
    | with_reducible refine State.fresh_kept' (by assumption) ?_
    | with_reducible refine State.Kept.ite ?_ ?_
    | with_reducible refine State.emit_kept ?_ ..
    | with_reducible refine State.extendMeas_kept ?_ ..
    | with_reducible refine State.fail_kept ?_ ..
    | with_reducible refine State.fresh_kept ?_ ..
    | with_reducible refine State.grant_kept ?_ ..
    | with_reducible refine State.measureSec_kept ?_ ..
    | with_reducible refine State.raise_kept ?_ ..
    | with_reducible refine State.setLevel_kept ?_ ..
    | with_reducible refine State.unlock_kept ?_ ..
    | with_reducible refine State.wr_kept ?_ ..
    | with_reducible refine State.Kept.upto _ _ ?_ (fun _ _ _ => ?_)
    | with_reducible refine State.Kept.fold _ _ ?_ (fun _ _ _ => ?_)
    | with_reducible refine State.Kept.pair2 (by assumption) ?_ ?_
    | with_reducible refine State.Kept.pair22 (by assumption) ?_ ?_
    | with_reducible split
    | with_reducible refine State.Kept.col ?_
    | with_reducible refine State.Kept.lit ?_

theorem State.step2_kept {r0 s : State} (h0 : r0.Kept s) (c0 : Bool) : r0.Kept (State.step2 s c0) := by
  unfold State.step2
  iterate 40 all_goals try first
    | with_reducible exact h0
    | with_reducible assumption
    | with_reducible refine State.Kept.ite ?_ ?_
    | with_reducible refine State.applyBrake_kept ?_ ..
    | with_reducible refine State.emit_kept ?_ ..
    | with_reducible refine State.Kept.upto _ _ ?_ (fun _ _ _ => ?_)
    | with_reducible refine State.Kept.fold _ _ ?_ (fun _ _ _ => ?_)
    | with_reducible split
    | with_reducible refine State.Kept.col ?_
    | with_reducible refine State.Kept.lit ?_

theorem State.releaseDies_kept {r0 s : State} (h0 : r0.Kept s) (dies : Nat) : r0.Kept (State.releaseDies s dies) := by
  unfold State.releaseDies
  iterate 40 all_goals try first
    | with_reducible exact h0
    | with_reducible assumption
    | with_reducible refine State.Kept.ite ?_ ?_
    | with_reducible refine State.Kept.upto _ _ ?_ (fun _ _ _ => ?_)
    | with_reducible refine State.Kept.fold _ _ ?_ (fun _ _ _ => ?_)
    | with_reducible split
    | with_reducible refine State.Kept.col ?_
    | with_reducible refine State.Kept.lit ?_

theorem State.bootTile_kept {r0 s s1 : State} {ok : Nat → Bool} (e0 : s.bootTile ok = some s1) (h0 : r0.Kept s) : r0.Kept s1 := by
  unfold State.bootTile at e0
  dsimp only at e0
  repeat' split at e0
  all_goals first
    | (cases e0; done)
    | (cases e0
       first
         | exact State.wr_kept h0 _ _ _
         | exact State.emit_kept (State.wr_kept h0 _ _ _) _ _ _
         | (split
            · exact State.wr_kept h0 _ _ _
            · exact State.emit_kept (State.wr_kept h0 _ _ _) _ _ _))

theorem State.step4_kept {r0 s s1 : State} {f : BringUpFacts} (e0 : s.step4 f = some s1) (h0 : r0.Kept s) : r0.Kept s1 := by
  have up : ∀ a : State, r0.Kept a → r0.Kept ((a.raise seamB SEAM_STAT_UP).wr seamB SEAM_TRAIN_TSC_TSC a.tsc) :=
    fun a ha => State.wr_kept (State.raise_kept ha _ _) _ _ _
  unfold State.step4 at e0
  dsimp only at e0
  split at e0
  · cases e0
    exact up _ h0
  · split at e0
    · cases e0
      exact State.emit_kept (up _ (State.raise_kept (State.raise_kept (State.raise_kept h0 _ _) _ _) _ _)) _ _ _
    · cases e0

theorem State.clearRecord_kept {r0 s : State} (h0 : r0.Kept s) (f : BringUpFacts) : r0.Kept (State.clearRecord s f) := by
  unfold State.clearRecord
  iterate 40 all_goals try first
    | with_reducible exact h0
    | with_reducible assumption
    | with_reducible refine State.Kept.ite ?_ ?_
    | with_reducible refine State.Kept.upto _ _ ?_ (fun _ _ _ => ?_)
    | with_reducible refine State.Kept.fold _ _ ?_ (fun _ _ _ => ?_)
    | with_reducible split
    | with_reducible refine State.Kept.col ?_
    | with_reducible refine State.Kept.lit ?_

theorem State.loopbackDone_kept {r0 s : State} (h0 : r0.Kept s) (itf : Nat) (depth : Nat) (chan : Nat) (errors : Nat) : r0.Kept (State.loopbackDone s itf depth chan errors) := by
  unfold State.loopbackDone
  iterate 40 all_goals try first
    | with_reducible exact h0
    | with_reducible assumption
    | with_reducible refine State.Kept.ite ?_ ?_
    | with_reducible refine State.emit_kept ?_ ..
    | with_reducible refine State.raise_kept ?_ ..
    | with_reducible refine State.wr_kept ?_ ..
    | with_reducible refine State.Kept.upto _ _ ?_ (fun _ _ _ => ?_)
    | with_reducible refine State.Kept.fold _ _ ?_ (fun _ _ _ => ?_)
    | with_reducible split
    | with_reducible refine State.Kept.col ?_
    | with_reducible refine State.Kept.lit ?_

theorem State.bornChan_kept {r0 s : State} (h0 : r0.Kept s) (f : BringUpFacts) (c : Nat) : r0.Kept (State.bornChan s f c) := by
  unfold State.bornChan
  iterate 40 all_goals try first
    | with_reducible exact h0
    | with_reducible assumption
    | with_reducible refine State.Kept.ite ?_ ?_
    | with_reducible refine State.loopbackDone_kept ?_ ..
    | with_reducible refine State.moltAtBirth_kept ?_ ..
    | with_reducible refine State.Kept.upto _ _ ?_ (fun _ _ _ => ?_)
    | with_reducible refine State.Kept.fold _ _ ?_ (fun _ _ _ => ?_)
    | with_reducible split
    | with_reducible refine State.Kept.col ?_
    | with_reducible refine State.Kept.lit ?_

theorem State.step6_kept {r0 s : State} (h0 : r0.Kept s) (f : BringUpFacts) : r0.Kept (State.step6 s f) := by
  unfold State.step6
  iterate 40 all_goals try first
    | with_reducible exact h0
    | with_reducible assumption
    | with_reducible refine State.Kept.ite ?_ ?_
    | with_reducible refine State.bornChan_kept ?_ ..
    | with_reducible refine State.clearRecord_kept ?_ ..
    | with_reducible refine State.emit_kept ?_ ..
    | with_reducible refine State.moltAtBirth_kept ?_ ..
    | with_reducible refine State.raise_kept ?_ ..
    | with_reducible refine State.Kept.upto _ _ ?_ (fun _ _ _ => ?_)
    | with_reducible refine State.Kept.fold _ _ ?_ (fun _ _ _ => ?_)
    | with_reducible refine State.Kept.fold2 _ _ ?_ (fun _ _ _ => ?_)
    | with_reducible refine State.Kept.fold1 _ _ ?_ (fun _ _ _ => ?_)
    | with_reducible refine State.Kept.fold2' (by assumption) ?_ (fun _ _ _ => ?_)
    | with_reducible refine State.Kept.fold1' (by assumption) ?_ (fun _ _ _ => ?_)
    | with_reducible split
    | with_reducible refine State.Kept.col ?_
    | with_reducible refine State.Kept.lit ?_

theorem State.step7_kept {r0 s : State} (h0 : r0.Kept s) (f : BringUpFacts) : r0.Kept (State.step7 s f) := by
  unfold State.step7
  iterate 40 all_goals try first
    | with_reducible exact h0
    | with_reducible assumption
    | with_reducible refine State.Kept.cleared ?_
    | with_reducible refine State.Kept.ite ?_ ?_
    | with_reducible refine State.emit_kept ?_ ..
    | with_reducible refine State.setCc_kept ?_ ..
    | with_reducible refine refresh_kept ?_ ..
    | with_reducible refine State.Kept.upto _ _ ?_ (fun _ _ _ => ?_)
    | with_reducible refine State.Kept.fold _ _ ?_ (fun _ _ _ => ?_)
    | with_reducible refine State.Kept.fold2 _ _ ?_ (fun _ _ _ => ?_)
    | with_reducible refine State.Kept.fold1 _ _ ?_ (fun _ _ _ => ?_)
    | with_reducible refine State.Kept.fold2' (by assumption) ?_ (fun _ _ _ => ?_)
    | with_reducible refine State.Kept.fold1' (by assumption) ?_ (fun _ _ _ => ?_)
    | with_reducible split
    | with_reducible refine State.Kept.col ?_
    | with_reducible refine State.Kept.lit ?_

theorem State.openWindow_kept {r0 s : State} (h0 : r0.Kept s) (c : Nat) (wide : Bool) (masks : List Nat) : r0.Kept (State.openWindow s c wide masks) := by
  unfold State.openWindow
  iterate 40 all_goals try first
    | with_reducible exact h0
    | with_reducible assumption
    | with_reducible refine State.Kept.ite ?_ ?_
    | with_reducible refine State.emit_kept ?_ ..
    | with_reducible refine State.raise_kept ?_ ..
    | with_reducible refine State.wr_kept ?_ ..
    | with_reducible refine State.Kept.upto _ _ ?_ (fun _ _ _ => ?_)
    | with_reducible refine State.Kept.fold _ _ ?_ (fun _ _ _ => ?_)
    | with_reducible split
    | with_reducible refine State.Kept.col ?_
    | with_reducible refine State.Kept.lit ?_

theorem State.interleave_kept {r0 s : State} (h0 : r0.Kept s)  : r0.Kept (State.interleave s) := by
  unfold State.interleave
  iterate 40 all_goals try first
    | with_reducible exact h0
    | with_reducible assumption
    | with_reducible refine State.Kept.ite ?_ ?_
    | with_reducible refine State.effects_kept ?_ ..
    | with_reducible refine State.openWindow_kept ?_ ..
    | with_reducible refine State.Kept.upto _ _ ?_ (fun _ _ _ => ?_)
    | with_reducible refine State.Kept.fold _ _ ?_ (fun _ _ _ => ?_)
    | with_reducible refine State.Kept.fold2 _ _ ?_ (fun _ _ _ => ?_)
    | with_reducible refine State.Kept.fold1 _ _ ?_ (fun _ _ _ => ?_)
    | with_reducible refine State.Kept.fold2' (by assumption) ?_ (fun _ _ _ => ?_)
    | with_reducible refine State.Kept.fold1' (by assumption) ?_ (fun _ _ _ => ?_)
    | with_reducible split
    | with_reducible refine State.Kept.col ?_
    | with_reducible refine State.Kept.lit ?_

theorem State.measureIlv_kept {r0 s : State} (h0 : r0.Kept s)  : r0.Kept (State.measureIlv s) := by
  unfold State.measureIlv
  iterate 40 all_goals try first
    | with_reducible exact h0
    | with_reducible assumption
    | with_reducible refine State.Kept.ite ?_ ?_
    | with_reducible refine State.extendMeas_kept ?_ ..
    | with_reducible refine State.Kept.upto _ _ ?_ (fun _ _ _ => ?_)
    | with_reducible refine State.Kept.fold _ _ ?_ (fun _ _ _ => ?_)
    | with_reducible split
    | with_reducible refine State.Kept.col ?_
    | with_reducible refine State.Kept.lit ?_

theorem State.publishFloor_kept {r0 s : State} (h0 : r0.Kept s) (f : BringUpFacts) (good : List Nat) : r0.Kept (State.publishFloor s f good) := by
  unfold State.publishFloor
  iterate 40 all_goals try first
    | with_reducible exact h0
    | with_reducible assumption
    | with_reducible refine State.Kept.ite ?_ ?_
    | with_reducible refine State.wr_kept ?_ ..
    | with_reducible refine State.Kept.upto _ _ ?_ (fun _ _ _ => ?_)
    | with_reducible refine State.Kept.fold _ _ ?_ (fun _ _ _ => ?_)
    | with_reducible refine State.Kept.fold2 _ _ ?_ (fun _ _ _ => ?_)
    | with_reducible refine State.Kept.fold1 _ _ ?_ (fun _ _ _ => ?_)
    | with_reducible refine State.Kept.fold2' (by assumption) ?_ (fun _ _ _ => ?_)
    | with_reducible refine State.Kept.fold1' (by assumption) ?_ (fun _ _ _ => ?_)
    | with_reducible split
    | with_reducible refine State.Kept.col ?_
    | with_reducible refine State.Kept.lit ?_

theorem State.step9_kept {r0 s : State} (h0 : r0.Kept s) (f : BringUpFacts) (good : List Nat) (im : SMap Word) (sp : List Byte) : r0.Kept (State.step9 s f good im sp) := by
  unfold State.step9
  iterate 40 all_goals try first
    | with_reducible exact h0
    | with_reducible assumption
    | with_reducible refine State.Kept.ite ?_ ?_
    | with_reducible refine State.askRoll_kept ?_ ..
    | with_reducible refine State.emit_kept ?_ ..
    | with_reducible refine State.fail_kept ?_ ..
    | with_reducible refine State.interleave_kept ?_ ..
    | with_reducible refine State.measureFloor_kept ?_ ..
    | with_reducible refine State.measureIlv_kept ?_ ..
    | with_reducible refine State.modTile_kept ?_ ..
    | with_reducible refine State.publishFloor_kept ?_ ..
    | with_reducible refine State.raise_kept ?_ ..
    | with_reducible refine State.setTile_kept ?_ ..
    | with_reducible refine State.wr_kept ?_ ..
    | with_reducible refine State.Kept.upto _ _ ?_ (fun _ _ _ => ?_)
    | with_reducible refine State.Kept.fold _ _ ?_ (fun _ _ _ => ?_)
    | with_reducible refine State.Kept.fold2 _ _ ?_ (fun _ _ _ => ?_)
    | with_reducible refine State.Kept.fold1 _ _ ?_ (fun _ _ _ => ?_)
    | with_reducible refine State.Kept.fold2' (by assumption) ?_ (fun _ _ _ => ?_)
    | with_reducible refine State.Kept.fold1' (by assumption) ?_ (fun _ _ _ => ?_)
    | with_reducible split
    | with_reducible refine State.Kept.col ?_
    | with_reducible refine State.Kept.lit ?_

theorem State.atStep_kept {r0 s : State} (h0 : r0.Kept s) (n : Nat) : r0.Kept (State.atStep s n) := by
  unfold State.atStep
  iterate 40 all_goals try first
    | with_reducible exact h0
    | with_reducible assumption
    | with_reducible refine State.Kept.ite ?_ ?_
    | with_reducible refine State.wr_kept ?_ ..
    | with_reducible refine State.Kept.upto _ _ ?_ (fun _ _ _ => ?_)
    | with_reducible refine State.Kept.fold _ _ ?_ (fun _ _ _ => ?_)
    | with_reducible split
    | with_reducible refine State.Kept.col ?_
    | with_reducible refine State.Kept.lit ?_

theorem State.spawnEnd_kept {r0 s : State} (h0 : r0.Kept s) (f : BringUpFacts) (l : List Nat) (i : Image) (run : Nat) : r0.Kept (State.spawnEnd s f l i run) := by
  unfold State.spawnEnd
  iterate 40 all_goals try first
    | with_reducible exact h0
    | with_reducible assumption
    | with_reducible refine State.Kept.ite ?_ ?_
    | with_reducible refine State.atStep_kept ?_ ..
    | with_reducible refine State.emit_kept ?_ ..
    | with_reducible refine State.step9_kept ?_ ..
    | with_reducible refine State.Kept.upto _ _ ?_ (fun _ _ _ => ?_)
    | with_reducible refine State.Kept.fold _ _ ?_ (fun _ _ _ => ?_)
    | with_reducible refine State.Kept.fold2 _ _ ?_ (fun _ _ _ => ?_)
    | with_reducible refine State.Kept.fold1 _ _ ?_ (fun _ _ _ => ?_)
    | with_reducible refine State.Kept.fold2' (by assumption) ?_ (fun _ _ _ => ?_)
    | with_reducible refine State.Kept.fold1' (by assumption) ?_ (fun _ _ _ => ?_)
    | with_reducible split
    | with_reducible refine State.Kept.col ?_
    | with_reducible refine State.Kept.lit ?_

theorem State.spawnStep_kept {r0 s : State} (h0 : r0.Kept s) (f : BringUpFacts) (l : List Nat) (i : Image) (run : Nat) (tried : List Nat) (again : State → State) (ha : ∀ x, r0.Kept x → r0.Kept (again x)) : r0.Kept (s.spawnStep f l i run tried again) := by
  unfold State.spawnStep
  iterate 40 all_goals try first
      | with_reducible exact h0
      | with_reducible assumption
      | with_reducible refine ha _ ?_
      | with_reducible refine State.bootTile_kept (by assumption) ?_
      | with_reducible refine State.Kept.ite ?_ ?_
      | with_reducible refine State.fail_kept ?_ ..
      | with_reducible refine State.spawnEnd_kept ?_ ..
      | with_reducible refine State.Kept.upto _ _ ?_ (fun _ _ _ => ?_)
      | with_reducible refine State.Kept.fold _ _ ?_ (fun _ _ _ => ?_)
      | with_reducible split
      | with_reducible refine State.Kept.col ?_
      | with_reducible refine State.Kept.lit ?_

theorem State.spawnRun_kept {r0 s : State} (h0 : r0.Kept s) (f : BringUpFacts) (l : List Nat) (i : Image) (n run : Nat) (tried : List Nat) :
    r0.Kept (State.spawnRun f l i n run tried s) := by
  induction n generalizing s run tried with
  | zero => exact State.fail_kept h0 _ _
  | succ n ih => exact State.spawnStep_kept h0 _ _ _ _ _ _ (fun x hx => ih hx _ _)

theorem State.spawn_kept {r0 s : State} (h0 : r0.Kept s) (f : BringUpFacts) (l : List Nat) (i : Image) : r0.Kept (State.spawn s f l i) := by
  unfold State.spawn
  iterate 40 all_goals try first
    | with_reducible exact h0
    | with_reducible assumption
    | with_reducible refine State.Kept.option (by assumption) (fun _ _ => ?_) ?_
    | with_reducible refine State.Kept.ite ?_ ?_
    | with_reducible refine State.extendMeas_kept ?_ ..
    | with_reducible refine State.spawnRun_kept ?_ ..
    | with_reducible refine State.Kept.upto _ _ ?_ (fun _ _ _ => ?_)
    | with_reducible refine State.Kept.fold _ _ ?_ (fun _ _ _ => ?_)
    | with_reducible split
    | with_reducible refine State.Kept.col ?_
    | with_reducible refine State.Kept.lit ?_

theorem State.steps89_kept {r0 s : State} (h0 : r0.Kept s) (f : BringUpFacts) (l : List Nat) : r0.Kept (State.steps89 s f l) := by
  unfold State.steps89
  iterate 40 all_goals try first
    | with_reducible exact h0
    | with_reducible assumption
    | with_reducible refine State.Kept.ite ?_ ?_
    | with_reducible refine State.fail_kept ?_ ..
    | with_reducible refine State.spawn_kept ?_ ..
    | with_reducible refine State.Kept.upto _ _ ?_ (fun _ _ _ => ?_)
    | with_reducible refine State.Kept.fold _ _ ?_ (fun _ _ _ => ?_)
    | with_reducible split
    | with_reducible refine State.Kept.col ?_
    | with_reducible refine State.Kept.lit ?_

theorem State.steps69_kept {r0 s : State} (h0 : r0.Kept s) (f : BringUpFacts) (l : List Nat) : r0.Kept (State.steps69 s f l) := by
  unfold State.steps69
  iterate 40 all_goals try first
    | with_reducible exact h0
    | with_reducible assumption
    | with_reducible refine State.Kept.ite ?_ ?_
    | with_reducible refine State.atStep_kept ?_ ..
    | with_reducible refine State.fail_kept ?_ ..
    | with_reducible refine State.step6_kept ?_ ..
    | with_reducible refine State.step7_kept ?_ ..
    | with_reducible refine State.steps89_kept ?_ ..
    | with_reducible refine State.Kept.upto _ _ ?_ (fun _ _ _ => ?_)
    | with_reducible refine State.Kept.fold _ _ ?_ (fun _ _ _ => ?_)
    | with_reducible split
    | with_reducible refine State.Kept.col ?_
    | with_reducible refine State.Kept.lit ?_

theorem State.steps59_kept {r0 s : State} (h0 : r0.Kept s) (f : BringUpFacts) (l : List Nat) : r0.Kept (State.steps59 s f l) := by
  unfold State.steps59
  iterate 40 all_goals try first
    | with_reducible exact h0
    | with_reducible assumption
    | with_reducible refine State.bootTile_kept (by assumption) ?_
    | with_reducible refine State.Kept.ite ?_ ?_
    | with_reducible refine State.atStep_kept ?_ ..
    | with_reducible refine State.fail_kept ?_ ..
    | with_reducible refine State.steps69_kept ?_ ..
    | with_reducible refine State.Kept.upto _ _ ?_ (fun _ _ _ => ?_)
    | with_reducible refine State.Kept.fold _ _ ?_ (fun _ _ _ => ?_)
    | with_reducible split
    | with_reducible refine State.Kept.col ?_
    | with_reducible refine State.Kept.lit ?_

theorem State.step3_kept {r0 s : State} (h0 : r0.Kept s) (f : BringUpFacts) (dies : Nat) : r0.Kept (State.step3 s f dies) := by
  unfold State.step3
  iterate 40 all_goals try first
    | with_reducible exact h0
    | with_reducible assumption
    | with_reducible refine State.Kept.ite ?_ ?_
    | with_reducible refine State.emit_kept ?_ ..
    | with_reducible refine State.releaseDies_kept ?_ ..
    | with_reducible refine State.Kept.upto _ _ ?_ (fun _ _ _ => ?_)
    | with_reducible refine State.Kept.fold _ _ ?_ (fun _ _ _ => ?_)
    | with_reducible refine State.Kept.fold2 _ _ ?_ (fun _ _ _ => ?_)
    | with_reducible refine State.Kept.fold1 _ _ ?_ (fun _ _ _ => ?_)
    | with_reducible refine State.Kept.fold2' (by assumption) ?_ (fun _ _ _ => ?_)
    | with_reducible refine State.Kept.fold1' (by assumption) ?_ (fun _ _ _ => ?_)
    | with_reducible split
    | with_reducible refine State.Kept.col ?_
    | with_reducible refine State.Kept.lit ?_

theorem State.steps39_kept {r0 s : State} (h0 : r0.Kept s) (f : BringUpFacts) : r0.Kept (State.steps39 s f) := by
  unfold State.steps39
  iterate 40 all_goals try first
    | with_reducible exact h0
    | with_reducible assumption
    | with_reducible refine State.step4_kept (by assumption) ?_
    | with_reducible refine State.Kept.ite ?_ ?_
    | with_reducible refine State.atStep_kept ?_ ..
    | with_reducible refine State.fail_kept ?_ ..
    | with_reducible refine State.step3_kept ?_ ..
    | with_reducible refine State.steps59_kept ?_ ..
    | with_reducible refine State.Kept.upto _ _ ?_ (fun _ _ _ => ?_)
    | with_reducible refine State.Kept.fold _ _ ?_ (fun _ _ _ => ?_)
    | with_reducible split
    | with_reducible refine State.Kept.col ?_
    | with_reducible refine State.Kept.lit ?_

theorem State.recoveryRails_kept {r0 s : State} (h0 : r0.Kept s) (f : BringUpFacts) : r0.Kept (State.recoveryRails s f) := by
  unfold State.recoveryRails
  iterate 40 all_goals try first
    | with_reducible exact h0
    | with_reducible assumption
    | with_reducible refine State.Kept.ite ?_ ?_
    | with_reducible refine State.step2_kept ?_ ..
    | with_reducible refine State.step3_kept ?_ ..
    | with_reducible refine State.Kept.upto _ _ ?_ (fun _ _ _ => ?_)
    | with_reducible refine State.Kept.fold _ _ ?_ (fun _ _ _ => ?_)
    | with_reducible split
    | with_reducible refine State.Kept.col ?_
    | with_reducible refine State.Kept.lit ?_

theorem State.findIn48_kept {r0 s : State} (h0 : r0.Kept s) (f : BringUpFacts) : r0.Kept (State.findIn48 s f) := by
  unfold State.findIn48
  iterate 40 all_goals try first
    | with_reducible exact h0
    | with_reducible assumption
    | with_reducible refine State.Kept.ite ?_ ?_
    | with_reducible refine State.Kept.upto _ _ ?_ (fun _ _ _ => ?_)
    | with_reducible refine State.Kept.fold _ _ ?_ (fun _ _ _ => ?_)
    | with_reducible split
    | with_reducible refine State.Kept.col ?_
    | with_reducible refine State.Kept.lit ?_

theorem State.loopbackGo_kept {r0 s : State} (h0 : r0.Kept s)  : r0.Kept (State.loopbackGo s) := by
  unfold State.loopbackGo
  iterate 40 all_goals try first
    | with_reducible exact h0
    | with_reducible assumption
    | with_reducible refine State.Kept.ite ?_ ?_
    | with_reducible refine State.raise_kept ?_ ..
    | with_reducible refine State.Kept.upto _ _ ?_ (fun _ _ _ => ?_)
    | with_reducible refine State.Kept.fold _ _ ?_ (fun _ _ _ => ?_)
    | with_reducible split
    | with_reducible refine State.Kept.col ?_
    | with_reducible refine State.Kept.lit ?_

theorem State.loopbackBy_kept {r0 s : State} (h0 : r0.Kept s) (host : Bool) (w : Nat) : r0.Kept (State.loopbackBy s host w) := by
  unfold State.loopbackBy
  iterate 40 all_goals try first
    | with_reducible exact h0
    | with_reducible assumption
    | with_reducible refine State.Kept.ite ?_ ?_
    | with_reducible refine State.linkLost_kept ?_ ..
    | with_reducible refine State.raise_kept ?_ ..
    | with_reducible refine State.setWord_kept ?_ ..
    | with_reducible refine State.Kept.upto _ _ ?_ (fun _ _ _ => ?_)
    | with_reducible refine State.Kept.fold _ _ ?_ (fun _ _ _ => ?_)
    | with_reducible split
    | with_reducible refine State.Kept.col ?_
    | with_reducible refine State.Kept.lit ?_

theorem State.cardCmd_kept {r0 s : State} (h0 : r0.Kept s) (reset : Bool) (save : Bool) : r0.Kept (State.cardCmd s reset save) := by
  unfold State.cardCmd
  iterate 40 all_goals try first
    | with_reducible exact h0
    | with_reducible assumption
    | with_reducible refine State.Kept.ite ?_ ?_
    | with_reducible refine State.applyAlert_kept ?_ ..
    | with_reducible refine State.askNv_kept ?_ ..
    | with_reducible refine State.cardResetGo_kept ?_ ..
    | with_reducible refine State.nvGo_kept ?_ ..
    | with_reducible refine State.Kept.upto _ _ ?_ (fun _ _ _ => ?_)
    | with_reducible refine State.Kept.fold _ _ ?_ (fun _ _ _ => ?_)
    | with_reducible split
    | with_reducible refine State.Kept.col ?_
    | with_reducible refine State.Kept.lit ?_

theorem State.updateEnd_kept {r0 s : State} (h0 : r0.Kept s) (status : Nat) : r0.Kept (State.updateEnd s status) := by
  unfold State.updateEnd
  iterate 40 all_goals try first
    | with_reducible exact h0
    | with_reducible assumption
    | with_reducible refine State.Kept.ite ?_ ?_
    | with_reducible refine State.clear_kept ?_ ..
    | with_reducible refine State.emit_kept ?_ ..
    | with_reducible refine State.nvGo_kept ?_ ..
    | with_reducible refine State.raise_kept ?_ ..
    | with_reducible refine State.wr_kept ?_ ..
    | with_reducible refine State.Kept.upto _ _ ?_ (fun _ _ _ => ?_)
    | with_reducible refine State.Kept.fold _ _ ?_ (fun _ _ _ => ?_)
    | with_reducible split
    | with_reducible refine State.Kept.col ?_
    | with_reducible refine State.Kept.lit ?_

theorem State.updateGo_kept {r0 s : State} (h0 : r0.Kept s)  : r0.Kept (State.updateGo s) := by
  unfold State.updateGo
  iterate 40 all_goals try first
    | with_reducible exact h0
    | with_reducible assumption
    | with_reducible refine State.Kept.ite ?_ ?_
    | with_reducible refine State.askNv_kept ?_ ..
    | with_reducible refine State.raise_kept ?_ ..
    | with_reducible refine State.updateEnd_kept ?_ ..
    | with_reducible refine State.wr_kept ?_ ..
    | with_reducible refine State.Kept.upto _ _ ?_ (fun _ _ _ => ?_)
    | with_reducible refine State.Kept.fold _ _ ?_ (fun _ _ _ => ?_)
    | with_reducible split
    | with_reducible refine State.Kept.col ?_
    | with_reducible refine State.Kept.lit ?_

theorem State.rollGo_kept {r0 s : State} (h0 : r0.Kept s)  : r0.Kept (State.rollGo s) := by
  unfold State.rollGo
  iterate 40 all_goals try first
    | with_reducible exact h0
    | with_reducible assumption
    | with_reducible refine State.Kept.ite ?_ ?_
    | with_reducible refine State.askRoll_kept ?_ ..
    | with_reducible refine State.raise_kept ?_ ..
    | with_reducible refine State.Kept.upto _ _ ?_ (fun _ _ _ => ?_)
    | with_reducible refine State.Kept.fold _ _ ?_ (fun _ _ _ => ?_)
    | with_reducible split
    | with_reducible refine State.Kept.col ?_
    | with_reducible refine State.Kept.lit ?_

theorem State.flashIs_kept {r0 s : State} (h0 : r0.Kept s) (bytes : List Byte) (bad : Bool) : r0.Kept (State.flashIs s bytes bad) := by
  unfold State.flashIs
  iterate 40 all_goals try first
    | with_reducible exact h0
    | with_reducible assumption
    | with_reducible refine State.Kept.ite ?_ ?_
    | with_reducible refine State.Kept.upto _ _ ?_ (fun _ _ _ => ?_)
    | with_reducible refine State.Kept.fold _ _ ?_ (fun _ _ _ => ?_)
    | with_reducible split
    | with_reducible refine State.Kept.col ?_
    | with_reducible refine State.Kept.lit ?_

theorem State.readImage_kept {r0 s : State} (h0 : r0.Kept s) (at_ : Nat) (n : Nat) : r0.Kept (State.readImage s at_ n) := by
  unfold State.readImage
  iterate 40 all_goals try first
    | with_reducible exact h0
    | with_reducible assumption
    | with_reducible refine State.Kept.ite ?_ ?_
    | with_reducible refine State.send_kept ?_ ..
    | with_reducible refine State.Kept.upto _ _ ?_ (fun _ _ _ => ?_)
    | with_reducible refine State.Kept.fold _ _ ?_ (fun _ _ _ => ?_)
    | with_reducible refine State.Kept.fold2 _ _ ?_ (fun _ _ _ => ?_)
    | with_reducible refine State.Kept.fold1 _ _ ?_ (fun _ _ _ => ?_)
    | with_reducible refine State.Kept.fold2' (by assumption) ?_ (fun _ _ _ => ?_)
    | with_reducible refine State.Kept.fold1' (by assumption) ?_ (fun _ _ _ => ?_)
    | with_reducible split
    | with_reducible refine State.Kept.col ?_
    | with_reducible refine State.Kept.lit ?_

theorem State.updateVerify_kept {r0 s : State} (h0 : r0.Kept s) (bytes : List Byte) (readBackBad : Bool) : r0.Kept (State.updateVerify s bytes readBackBad) := by
  unfold State.updateVerify
  iterate 40 all_goals try first
    | with_reducible exact h0
    | with_reducible assumption
    | with_reducible refine State.Kept.ite ?_ ?_
    | with_reducible refine State.cardResetGo_kept ?_ ..
    | with_reducible refine State.flashIs_kept ?_ ..
    | with_reducible refine State.updateEnd_kept ?_ ..
    | with_reducible refine State.Kept.upto _ _ ?_ (fun _ _ _ => ?_)
    | with_reducible refine State.Kept.fold _ _ ?_ (fun _ _ _ => ?_)
    | with_reducible split
    | with_reducible refine State.Kept.col ?_
    | with_reducible refine State.Kept.lit ?_

theorem State.updatePages_kept {r0 s : State} (h0 : r0.Kept s) (r : UpdateRun) (f : UpdateFacts) : r0.Kept (State.updatePages s r f) := by
  unfold State.updatePages
  iterate 40 all_goals try first
    | with_reducible exact h0
    | with_reducible assumption
    | with_reducible refine State.Kept.ite ?_ ?_
    | with_reducible refine State.flashIs_kept ?_ ..
    | with_reducible refine State.hostErr_kept ?_ ..
    | with_reducible refine State.readImage_kept ?_ ..
    | with_reducible refine State.updateEnd_kept ?_ ..
    | with_reducible refine State.updateVerify_kept ?_ ..
    | with_reducible refine State.wr_kept ?_ ..
    | with_reducible refine State.Kept.upto _ _ ?_ (fun _ _ _ => ?_)
    | with_reducible refine State.Kept.fold _ _ ?_ (fun _ _ _ => ?_)
    | with_reducible split
    | with_reducible refine State.Kept.col ?_
    | with_reducible refine State.Kept.lit ?_

theorem State.updateMore_kept {r0 s : State} (h0 : r0.Kept s) (r : UpdateRun) (f : UpdateFacts) : r0.Kept (State.updateMore s r f) := by
  unfold State.updateMore
  iterate 40 all_goals try first
    | with_reducible exact h0
    | with_reducible assumption
    | with_reducible refine State.Kept.ite ?_ ?_
    | with_reducible refine State.clear_kept ?_ ..
    | with_reducible refine State.emit_kept ?_ ..
    | with_reducible refine State.flashIs_kept ?_ ..
    | with_reducible refine State.raise_kept ?_ ..
    | with_reducible refine State.updateEnd_kept ?_ ..
    | with_reducible refine State.updatePages_kept ?_ ..
    | with_reducible refine State.Kept.upto _ _ ?_ (fun _ _ _ => ?_)
    | with_reducible refine State.Kept.fold _ _ ?_ (fun _ _ _ => ?_)
    | with_reducible split
    | with_reducible refine State.Kept.col ?_
    | with_reducible refine State.Kept.lit ?_

theorem State.updateFirst_kept {r0 s : State} (h0 : r0.Kept s) (f : UpdateFacts) : r0.Kept (State.updateFirst s f) := by
  unfold State.updateFirst
  iterate 40 all_goals try first
    | with_reducible exact h0
    | with_reducible assumption
    | with_reducible refine State.Kept.ite ?_ ?_
    | with_reducible refine State.hostErr_kept ?_ ..
    | with_reducible refine State.readImage_kept ?_ ..
    | with_reducible refine State.updateEnd_kept ?_ ..
    | with_reducible refine State.updatePages_kept ?_ ..
    | with_reducible refine State.Kept.upto _ _ ?_ (fun _ _ _ => ?_)
    | with_reducible refine State.Kept.fold _ _ ?_ (fun _ _ _ => ?_)
    | with_reducible split
    | with_reducible refine State.Kept.col ?_
    | with_reducible refine State.Kept.lit ?_

theorem State.updateRun_kept {r0 s : State} (h0 : r0.Kept s) (f : UpdateFacts) : r0.Kept (State.updateRun s f) := by
  unfold State.updateRun
  iterate 40 all_goals try first
    | with_reducible exact h0
    | with_reducible assumption
    | with_reducible refine State.Kept.ite ?_ ?_
    | with_reducible refine State.nvGo_kept ?_ ..
    | with_reducible refine State.updateFirst_kept ?_ ..
    | with_reducible refine State.updateMore_kept ?_ ..
    | with_reducible refine State.Kept.upto _ _ ?_ (fun _ _ _ => ?_)
    | with_reducible refine State.Kept.fold _ _ ?_ (fun _ _ _ => ?_)
    | with_reducible split
    | with_reducible refine State.Kept.col ?_
    | with_reducible refine State.Kept.lit ?_

theorem State.answer_kept {r0 s : State} (h0 : r0.Kept s) (code : Nat) (status : Nat) (payload : List Byte) : r0.Kept (State.answer s code status payload) := by
  unfold State.answer
  iterate 40 all_goals try first
    | with_reducible exact h0
    | with_reducible assumption
    | with_reducible refine State.Kept.ite ?_ ?_
    | with_reducible refine State.doe_kept ?_ _ (fun _ _ => ?_)
    | with_reducible refine State.send_kept ?_ ..
    | with_reducible refine State.Kept.upto _ _ ?_ (fun _ _ _ => ?_)
    | with_reducible refine State.Kept.fold _ _ ?_ (fun _ _ _ => ?_)
    | with_reducible split
    | with_reducible refine State.Kept.col ?_
    | with_reducible refine State.Kept.lit ?_

theorem State.doe_kept {r0 s : State} (h0 : r0.Kept s) (f : State → State) (hf : ∀ x, r0.Kept x → r0.Kept (f x)) : r0.Kept (s.doe f) := by
  unfold State.doe
  iterate 40 all_goals try first
      | with_reducible exact h0
      | with_reducible assumption
      | with_reducible refine hf _ ?_
      | with_reducible refine State.Kept.ite ?_ ?_
      | with_reducible refine State.Kept.upto _ _ ?_ (fun _ _ _ => ?_)
      | with_reducible refine State.Kept.fold _ _ ?_ (fun _ _ _ => ?_)
      | with_reducible split
      | with_reducible refine State.Kept.col ?_
      | with_reducible refine State.Kept.lit ?_

theorem State.discovery_kept {r0 s : State} (h0 : r0.Kept s) (index : Nat) : r0.Kept (State.discovery s index) := by
  unfold State.discovery
  iterate 40 all_goals try first
    | with_reducible exact h0
    | with_reducible assumption
    | with_reducible refine State.Kept.ite ?_ ?_
    | with_reducible refine State.doe_kept ?_ _ (fun _ _ => ?_)
    | with_reducible refine State.send_kept ?_ ..
    | with_reducible refine State.Kept.upto _ _ ?_ (fun _ _ _ => ?_)
    | with_reducible refine State.Kept.fold _ _ ?_ (fun _ _ _ => ?_)
    | with_reducible split
    | with_reducible refine State.Kept.col ?_
    | with_reducible refine State.Kept.lit ?_

theorem State.getIdentity_kept {r0 s : State} (h0 : r0.Kept s)  : r0.Kept (State.getIdentity s) := by
  unfold State.getIdentity
  iterate 40 all_goals try first
    | with_reducible exact h0
    | with_reducible assumption
    | with_reducible refine State.Kept.ite ?_ ?_
    | with_reducible refine State.answer_kept ?_ ..
    | with_reducible refine State.doe_kept ?_ _ (fun _ _ => ?_)
    | with_reducible refine State.Kept.upto _ _ ?_ (fun _ _ _ => ?_)
    | with_reducible refine State.Kept.fold _ _ ?_ (fun _ _ _ => ?_)
    | with_reducible split
    | with_reducible refine State.Kept.col ?_
    | with_reducible refine State.Kept.lit ?_

theorem State.getMeas_kept {r0 s : State} (h0 : r0.Kept s)  : r0.Kept (State.getMeas s) := by
  unfold State.getMeas
  iterate 40 all_goals try first
    | with_reducible exact h0
    | with_reducible assumption
    | with_reducible refine State.fresh_kept' (by assumption) ?_
    | with_reducible refine State.Kept.ite ?_ ?_
    | with_reducible refine State.answer_kept ?_ ..
    | with_reducible refine State.fresh_kept ?_ ..
    | with_reducible refine State.Kept.upto _ _ ?_ (fun _ _ _ => ?_)
    | with_reducible refine State.Kept.fold _ _ ?_ (fun _ _ _ => ?_)
    | with_reducible refine State.Kept.pair2 (by assumption) ?_ ?_
    | with_reducible refine State.Kept.pair22 (by assumption) ?_ ?_
    | with_reducible split
    | with_reducible refine State.Kept.col ?_
    | with_reducible refine State.Kept.lit ?_

theorem State.quoteGo_kept {r0 s : State} (h0 : r0.Kept s) (nonce : BitVec 256) (session : Bool) : r0.Kept (State.quoteGo s nonce session) := by
  unfold State.quoteGo
  iterate 40 all_goals try first
    | with_reducible exact h0
    | with_reducible assumption
    | with_reducible refine State.fresh_kept' (by assumption) ?_
    | with_reducible refine State.Kept.ite ?_ ?_
    | with_reducible refine State.answer_kept ?_ ..
    | with_reducible refine State.doe_kept ?_ _ (fun _ _ => ?_)
    | with_reducible refine State.fresh_kept ?_ ..
    | with_reducible refine State.Kept.upto _ _ ?_ (fun _ _ _ => ?_)
    | with_reducible refine State.Kept.fold _ _ ?_ (fun _ _ _ => ?_)
    | with_reducible refine State.Kept.pair2 (by assumption) ?_ ?_
    | with_reducible refine State.Kept.pair22 (by assumption) ?_ ?_
    | with_reducible split
    | with_reducible refine State.Kept.col ?_
    | with_reducible refine State.Kept.lit ?_

theorem State.keyExch_kept {r0 s : State} (h0 : r0.Kept s) (ct : List Byte) : r0.Kept (State.keyExch s ct) := by
  unfold State.keyExch
  iterate 40 all_goals try first
    | with_reducible exact h0
    | with_reducible assumption
    | with_reducible refine State.Kept.ite ?_ ?_
    | with_reducible refine State.answer_kept ?_ ..
    | with_reducible refine State.doe_kept ?_ _ (fun _ _ => ?_)
    | with_reducible refine State.Kept.upto _ _ ?_ (fun _ _ _ => ?_)
    | with_reducible refine State.Kept.fold _ _ ?_ (fun _ _ _ => ?_)
    | with_reducible split
    | with_reducible refine State.Kept.col ?_
    | with_reducible refine State.Kept.lit ?_

theorem State.ideKey_kept {r0 s : State} (h0 : r0.Kept s) (kind : Nat) (stream : Nat) (set : Nat) : r0.Kept (State.ideKey s kind stream set) := by
  unfold State.ideKey
  iterate 40 all_goals try first
    | with_reducible exact h0
    | with_reducible assumption
    | with_reducible refine State.Kept.ite ?_ ?_
    | with_reducible refine State.emit_kept ?_ ..
    | with_reducible refine State.Kept.upto _ _ ?_ (fun _ _ _ => ?_)
    | with_reducible refine State.Kept.fold _ _ ?_ (fun _ _ _ => ?_)
    | with_reducible split
    | with_reducible refine State.Kept.col ?_
    | with_reducible refine State.Kept.lit ?_

theorem State.ideKm_kept {r0 s : State} (h0 : r0.Kept s) (iv : Nat) (msg : List Byte) : r0.Kept (State.ideKm s iv msg) := by
  unfold State.ideKm
  iterate 40 all_goals try first
    | with_reducible exact h0
    | with_reducible assumption
    | with_reducible refine State.Kept.ite ?_ ?_
    | with_reducible refine State.answer_kept ?_ ..
    | with_reducible refine State.doe_kept ?_ _ (fun _ _ => ?_)
    | with_reducible refine State.ideKey_kept ?_ ..
    | with_reducible refine State.Kept.upto _ _ ?_ (fun _ _ _ => ?_)
    | with_reducible refine State.Kept.fold _ _ ?_ (fun _ _ _ => ?_)
    | with_reducible refine State.Kept.pair2 (by assumption) ?_ ?_
    | with_reducible refine State.Kept.pair22 (by assumption) ?_ ?_
    | with_reducible split
    | with_reducible refine State.Kept.col ?_
    | with_reducible refine State.Kept.lit ?_

theorem State.getNonce_kept {r0 s : State} (h0 : r0.Kept s)  : r0.Kept (State.getNonce s) := by
  unfold State.getNonce
  iterate 40 all_goals try first
    | with_reducible exact h0
    | with_reducible assumption
    | with_reducible refine State.fresh_kept' (by assumption) ?_
    | with_reducible refine State.Kept.ite ?_ ?_
    | with_reducible refine State.answer_kept ?_ ..
    | with_reducible refine State.doe_kept ?_ _ (fun _ _ => ?_)
    | with_reducible refine State.fresh_kept ?_ ..
    | with_reducible refine State.Kept.upto _ _ ?_ (fun _ _ _ => ?_)
    | with_reducible refine State.Kept.fold _ _ ?_ (fun _ _ _ => ?_)
    | with_reducible refine State.Kept.pair2 (by assumption) ?_ ?_
    | with_reducible refine State.Kept.pair22 (by assumption) ?_ ?_
    | with_reducible split
    | with_reducible refine State.Kept.col ?_
    | with_reducible refine State.Kept.lit ?_

theorem State.refuseCmd_kept {r0 s : State} (h0 : r0.Kept s) (c : SignedCmd) (check : Nat) : r0.Kept (State.refuseCmd s c check) := by
  unfold State.refuseCmd
  iterate 40 all_goals try first
    | with_reducible exact h0
    | with_reducible assumption
    | with_reducible refine State.check_kept' (by assumption) ?_
    | with_reducible refine State.Kept.ite ?_ ?_
    | with_reducible refine State.answer_kept ?_ ..
    | with_reducible refine State.check_kept ?_ ..
    | with_reducible refine State.emit_kept ?_ ..
    | with_reducible refine State.Kept.upto _ _ ?_ (fun _ _ _ => ?_)
    | with_reducible refine State.Kept.fold _ _ ?_ (fun _ _ _ => ?_)
    | with_reducible split
    | with_reducible refine State.Kept.col ?_
    | with_reducible refine State.Kept.lit ?_

theorem State.runCmd_kept {r0 s : State} (h0 : r0.Kept s) (c : SignedCmd) : r0.Kept (State.runCmd s c) := by
  unfold State.runCmd
  iterate 40 all_goals try first
    | with_reducible exact h0
    | with_reducible assumption
    | with_reducible refine State.Kept.ite ?_ ?_
    | with_reducible refine State.answer_kept ?_ ..
    | with_reducible refine State.askNv_kept ?_ ..
    | with_reducible refine State.cardResetGo_kept ?_ ..
    | with_reducible refine State.nvGo_kept ?_ ..
    | with_reducible refine State.setLevel_kept ?_ ..
    | with_reducible refine State.unlock_kept ?_ ..
    | with_reducible refine State.Kept.upto _ _ ?_ (fun _ _ _ => ?_)
    | with_reducible refine State.Kept.fold _ _ ?_ (fun _ _ _ => ?_)
    | with_reducible split
    | with_reducible refine State.Kept.col ?_
    | with_reducible refine State.Kept.lit ?_

theorem State.signedCmd_kept {r0 s : State} (h0 : r0.Kept s) (c : SignedCmd) : r0.Kept (State.signedCmd s c) := by
  unfold State.signedCmd
  iterate 40 all_goals try first
    | with_reducible exact h0
    | with_reducible assumption
    | with_reducible refine State.Kept.ite ?_ ?_
    | with_reducible refine State.doe_kept ?_ _ (fun _ _ => ?_)
    | with_reducible refine State.refuseCmd_kept ?_ ..
    | with_reducible refine State.runCmd_kept ?_ ..
    | with_reducible refine State.Kept.upto _ _ ?_ (fun _ _ _ => ?_)
    | with_reducible refine State.Kept.fold _ _ ?_ (fun _ _ _ => ?_)
    | with_reducible split
    | with_reducible refine State.Kept.col ?_
    | with_reducible refine State.Kept.lit ?_

theorem State.extendGo_kept {r0 s : State} (h0 : r0.Kept s) (i : Nat) (digest : BitVec 256) : r0.Kept (State.extendGo s i digest) := by
  unfold State.extendGo
  iterate 40 all_goals try first
    | with_reducible exact h0
    | with_reducible assumption
    | with_reducible refine State.Kept.ite ?_ ?_
    | with_reducible refine State.answer_kept ?_ ..
    | with_reducible refine State.doe_kept ?_ _ (fun _ _ => ?_)
    | with_reducible refine State.extendMeas_kept ?_ ..
    | with_reducible refine State.Kept.upto _ _ ?_ (fun _ _ _ => ?_)
    | with_reducible refine State.Kept.fold _ _ ?_ (fun _ _ _ => ?_)
    | with_reducible split
    | with_reducible refine State.Kept.col ?_
    | with_reducible refine State.Kept.lit ?_

theorem State.vallothPayload_kept {r0 s : State} (h0 : r0.Kept s) (code : Nat) (p : List Byte) : r0.Kept (State.vallothPayload s code p) := by
  unfold State.vallothPayload
  iterate 40 all_goals try first
    | with_reducible exact h0
    | with_reducible assumption
    | with_reducible refine State.Kept.ite ?_ ?_
    | with_reducible refine State.answer_kept ?_ ..
    | with_reducible refine State.doe_kept ?_ _ (fun _ _ => ?_)
    | with_reducible refine State.extendGo_kept ?_ ..
    | with_reducible refine State.getIdentity_kept ?_ ..
    | with_reducible refine State.getMeas_kept ?_ ..
    | with_reducible refine State.getNonce_kept ?_ ..
    | with_reducible refine State.ideKm_kept ?_ ..
    | with_reducible refine State.keyExch_kept ?_ ..
    | with_reducible refine State.quoteGo_kept ?_ ..
    | with_reducible refine State.signedCmd_kept ?_ ..
    | with_reducible refine State.Kept.upto _ _ ?_ (fun _ _ _ => ?_)
    | with_reducible refine State.Kept.fold _ _ ?_ (fun _ _ _ => ?_)
    | with_reducible split
    | with_reducible refine State.Kept.col ?_
    | with_reducible refine State.Kept.lit ?_

theorem State.valloth_kept {r0 s : State} (h0 : r0.Kept s) (body : List Byte) : r0.Kept (State.valloth s body) := by
  unfold State.valloth
  iterate 40 all_goals try first
    | with_reducible exact h0
    | with_reducible assumption
    | with_reducible refine State.Kept.ite ?_ ?_
    | with_reducible refine State.answer_kept ?_ ..
    | with_reducible refine State.doe_kept ?_ _ (fun _ _ => ?_)
    | with_reducible refine State.vallothPayload_kept ?_ ..
    | with_reducible refine State.Kept.upto _ _ ?_ (fun _ _ _ => ?_)
    | with_reducible refine State.Kept.fold _ _ ?_ (fun _ _ _ => ?_)
    | with_reducible split
    | with_reducible refine State.Kept.col ?_
    | with_reducible refine State.Kept.lit ?_

theorem State.doeObject_kept {r0 s : State} (h0 : r0.Kept s) (x : DoeObject) : r0.Kept (State.doeObject s x) := by
  unfold State.doeObject
  iterate 40 all_goals try first
    | with_reducible exact h0
    | with_reducible assumption
    | with_reducible refine State.Kept.ite ?_ ?_
    | with_reducible refine State.discovery_kept ?_ ..
    | with_reducible refine State.valloth_kept ?_ ..
    | with_reducible refine State.Kept.upto _ _ ?_ (fun _ _ _ => ?_)
    | with_reducible refine State.Kept.fold _ _ ?_ (fun _ _ _ => ?_)
    | with_reducible split
    | with_reducible refine State.Kept.col ?_
    | with_reducible refine State.Kept.lit ?_

theorem State.haltTile_kept {r0 s : State} (h0 : r0.Kept s) (t : Nat) (on : Bool) : r0.Kept (State.haltTile s t on) := by
  unfold State.haltTile
  iterate 40 all_goals try first
    | with_reducible exact h0
    | with_reducible assumption
    | with_reducible refine State.Kept.ite ?_ ?_
    | with_reducible refine State.modTile_kept ?_ ..
    | with_reducible refine State.Kept.upto _ _ ?_ (fun _ _ _ => ?_)
    | with_reducible refine State.Kept.fold _ _ ?_ (fun _ _ _ => ?_)
    | with_reducible split
    | with_reducible refine State.Kept.col ?_
    | with_reducible refine State.Kept.lit ?_

theorem State.logBad_kept {r0 s : State} (h0 : r0.Kept s) (f : Nat) (off : Nat) (kind : Nat) (write : Bool) : r0.Kept (State.logBad s f off kind write) := by
  unfold State.logBad
  iterate 40 all_goals try first
    | with_reducible exact h0
    | with_reducible assumption
    | with_reducible refine State.Kept.ite ?_ ?_
    | with_reducible refine State.setWord_kept ?_ ..
    | with_reducible refine State.Kept.upto _ _ ?_ (fun _ _ _ => ?_)
    | with_reducible refine State.Kept.fold _ _ ?_ (fun _ _ _ => ?_)
    | with_reducible split
    | with_reducible refine State.Kept.col ?_
    | with_reducible refine State.Kept.lit ?_

theorem State.chgRej_kept {r0 s : State} (h0 : r0.Kept s) (p : Place) : r0.Kept (State.chgRej s p) := by
  unfold State.chgRej
  iterate 40 all_goals try first
    | with_reducible exact h0
    | with_reducible assumption
    | with_reducible refine State.Kept.ite ?_ ?_
    | with_reducible refine State.msix_kept ?_ ..
    | with_reducible refine State.raise_kept ?_ ..
    | with_reducible refine State.Kept.upto _ _ ?_ (fun _ _ _ => ?_)
    | with_reducible refine State.Kept.fold _ _ ?_ (fun _ _ _ => ?_)
    | with_reducible split
    | with_reducible refine State.Kept.col ?_
    | with_reducible refine State.Kept.lit ?_

theorem State.takeField_kept {r0 s : State} (h0 : r0.Kept s) (off : Nat) (cur : Nat) (new : Nat) (fl : RegField) : r0.Kept (State.takeField s off cur new fl) := by
  unfold State.takeField
  iterate 40 all_goals try first
    | with_reducible exact h0
    | with_reducible assumption
    | with_reducible refine State.Kept.ite ?_ ?_
    | with_reducible refine State.wr_kept ?_ ..
    | with_reducible refine State.Kept.upto _ _ ?_ (fun _ _ _ => ?_)
    | with_reducible refine State.Kept.fold _ _ ?_ (fun _ _ _ => ?_)
    | with_reducible split
    | with_reducible refine State.Kept.col ?_
    | with_reducible refine State.Kept.lit ?_

theorem State.startsHost_kept {r0 s : State} (h0 : r0.Kept s) (f : Nat) (p : Place) (cur : Nat) (new : Nat) (w : Nat) : r0.Kept (State.startsHost s f p cur new w) := by
  unfold State.startsHost
  iterate 40 all_goals try first
    | with_reducible exact h0
    | with_reducible assumption
    | with_reducible refine State.Kept.ite ?_ ?_
    | with_reducible refine State.biasGo_kept ?_ ..
    | with_reducible refine State.evEnable_kept ?_ ..
    | with_reducible refine State.partResetGo_kept ?_ ..
    | with_reducible refine State.requestMolt_kept ?_ ..
    | with_reducible refine State.ringCmd_getD_kept ?_ ..
    | with_reducible refine State.tileResetGo_kept ?_ ..
    | with_reducible refine State.Kept.upto _ _ ?_ (fun _ _ _ => ?_)
    | with_reducible refine State.Kept.fold _ _ ?_ (fun _ _ _ => ?_)
    | with_reducible split
    | with_reducible refine State.Kept.col ?_
    | with_reducible refine State.Kept.lit ?_

theorem State.startsSec_kept {r0 s : State} (h0 : r0.Kept s) (p : Place) (new : Nat) (w : Nat) : r0.Kept (State.startsSec s p new w) := by
  unfold State.startsSec
  iterate 40 all_goals try first
    | with_reducible exact h0
    | with_reducible assumption
    | with_reducible refine State.Kept.ite ?_ ?_
    | with_reducible refine State.haltTile_kept ?_ ..
    | with_reducible refine State.rollGo_kept ?_ ..
    | with_reducible refine State.setLevel_kept ?_ ..
    | with_reducible refine State.updateGo_kept ?_ ..
    | with_reducible refine State.Kept.upto _ _ ?_ (fun _ _ _ => ?_)
    | with_reducible refine State.Kept.fold _ _ ?_ (fun _ _ _ => ?_)
    | with_reducible split
    | with_reducible refine State.Kept.col ?_
    | with_reducible refine State.Kept.lit ?_

theorem State.starts_kept {r0 s : State} (h0 : r0.Kept s) (f : Nat) (p : Place) (cur : Nat) (new : Nat) (w : Nat) : r0.Kept (State.starts s f p cur new w) := by
  unfold State.starts
  iterate 40 all_goals try first
    | with_reducible exact h0
    | with_reducible assumption
    | with_reducible refine State.Kept.ite ?_ ?_
    | with_reducible refine State.applyLevels_kept ?_ ..
    | with_reducible refine State.brakeGo_kept ?_ ..
    | with_reducible refine State.cardCmd_kept ?_ ..
    | with_reducible refine State.clear_kept ?_ ..
    | with_reducible refine State.loopbackGo_kept ?_ ..
    | with_reducible refine State.setA_kept ?_ ..
    | with_reducible refine State.spWrite_kept ?_ ..
    | with_reducible refine State.startsHost_kept ?_ ..
    | with_reducible refine State.startsSec_kept ?_ ..
    | with_reducible refine State.wr_kept ?_ ..
    | with_reducible refine State.Kept.upto _ _ ?_ (fun _ _ _ => ?_)
    | with_reducible refine State.Kept.fold _ _ ?_ (fun _ _ _ => ?_)
    | with_reducible split
    | with_reducible refine State.Kept.col ?_
    | with_reducible refine State.Kept.lit ?_

theorem State.writeWhole_kept {r0 s : State} (h0 : r0.Kept s) (f : Nat) (p : Place) (r : RegRow) (off : Nat) (new : Nat) : r0.Kept (State.writeWhole s f p r off new) := by
  unfold State.writeWhole
  iterate 40 all_goals try first
    | with_reducible exact h0
    | with_reducible assumption
    | with_reducible refine State.Kept.ite ?_ ?_
    | with_reducible refine State.chgRej_kept ?_ ..
    | with_reducible refine State.starts_kept ?_ ..
    | with_reducible refine State.takeField_kept ?_ ..
    | with_reducible refine State.Kept.upto _ _ ?_ (fun _ _ _ => ?_)
    | with_reducible refine State.Kept.fold _ _ ?_ (fun _ _ _ => ?_)
    | with_reducible refine State.Kept.fold2 _ _ ?_ (fun _ _ _ => ?_)
    | with_reducible refine State.Kept.fold1 _ _ ?_ (fun _ _ _ => ?_)
    | with_reducible refine State.Kept.fold2' (by assumption) ?_ (fun _ _ _ => ?_)
    | with_reducible refine State.Kept.fold1' (by assumption) ?_ (fun _ _ _ => ?_)
    | with_reducible split
    | with_reducible refine State.Kept.col ?_
    | with_reducible refine State.Kept.lit ?_

theorem State.msixWrite_kept {r0 s : State} (h0 : r0.Kept s) (f : Nat) (rel : Nat) (size : Nat) (data : Nat) : r0.Kept (State.msixWrite s f rel size data) := by
  unfold State.msixWrite
  iterate 40 all_goals try first
    | with_reducible exact h0
    | with_reducible assumption
    | with_reducible refine State.Kept.ite ?_ ?_
    | with_reducible refine State.msixPending_kept ?_ ..
    | with_reducible refine State.setMsix_kept ?_ ..
    | with_reducible refine State.Kept.upto _ _ ?_ (fun _ _ _ => ?_)
    | with_reducible refine State.Kept.fold _ _ ?_ (fun _ _ _ => ?_)
    | with_reducible split
    | with_reducible refine State.Kept.col ?_
    | with_reducible refine State.Kept.lit ?_

theorem State.bar0Write_kept {r0 s : State} (h0 : r0.Kept s) (f : Nat) (off : Nat) (size : Nat) (data : Nat) : r0.Kept (State.bar0Write s f off size data) := by
  unfold State.bar0Write
  iterate 40 all_goals try first
    | with_reducible exact h0
    | with_reducible assumption
    | with_reducible refine State.Kept.ite ?_ ?_
    | with_reducible refine State.logBad_kept ?_ ..
    | with_reducible refine State.msix_kept ?_ ..
    | with_reducible refine State.msixWrite_kept ?_ ..
    | with_reducible refine State.writeWhole_kept ?_ ..
    | with_reducible refine State.Kept.upto _ _ ?_ (fun _ _ _ => ?_)
    | with_reducible refine State.Kept.fold _ _ ?_ (fun _ _ _ => ?_)
    | with_reducible split
    | with_reducible refine State.Kept.col ?_
    | with_reducible refine State.Kept.lit ?_

theorem State.ringWrite_kept {r0 s : State} (h0 : r0.Kept s) (f : Nat) (n : Nat) (cmd : Nat) : r0.Kept (State.ringWrite s f n cmd) := by
  unfold State.ringWrite
  iterate 40 all_goals try first
    | with_reducible exact h0
    | with_reducible assumption
    | with_reducible refine State.Kept.ite ?_ ?_
    | with_reducible refine State.bar0Write_kept ?_ ..
    | with_reducible refine State.Kept.upto _ _ ?_ (fun _ _ _ => ?_)
    | with_reducible refine State.Kept.fold _ _ ?_ (fun _ _ _ => ?_)
    | with_reducible split
    | with_reducible refine State.Kept.col ?_
    | with_reducible refine State.Kept.lit ?_

end Sys2Proof.Machine
end

