-- ==== Sys2Proof/WellFormed.lean ====
section
/-! DEFINITION. Which operands of a command can occur: the ranges that the manual gives what arrives from outside. A command outside them is no event of the card. -/

namespace Sys2Proof

open Sys2Proof.Machine (Requester)

/-- A column number DPA[39:5] of the twelve stacks, and an error class of R96. -/
def Strike.wf (k : Strike) : Bool := decide (k.col < 12 * 2 ^ 31 ∧ 1 ≤ k.cls ∧ k.cls ≤ 3)

/-- A value of a bank engine's state. -/
def EngItem.wf : EngItem → Bool
  | .ob g => decide (g < 64)
  | .ss g => decide (g < 128)
  | .acc v => decide (v < 512)
  | .m i | .l i | .s i | .p i => decide (i < 8)

/-- A place in an SRAM of Table 15-1. -/
def SramPlace.wf : SramPlace → Bool
  | .scratchpad _ half => decide (half < 131072)
  | .imem _ word => decide (word < 32768)
  | .streamLine _ | .queue _ _ => true
  | .accumulator _ bank row lane => decide (bank < 2 ∧ row < 128 ∧ lane < 128)
  | .bankState b item => decide (b < 49152) && item.wf
  | .mergeMl _ d unit lane _ => decide (d < 16 ∧ unit < 2048 ∧ lane < 8)
  | .mergeAcc _ d value => decide (d < 16 ∧ value < 32768)
  | .readCache _ line => decide (line < 2 ^ 34)
  | .prefetchLine _ n => decide (n < 512)

def SramErr.wf (x : SramErr) : Bool := x.place.wf

/-- Functions 0-8 use the host port, tiles the tile port. -/
def requesterWf (r : Requester) : Bool :=
  match r.port with
  | .host => decide (r.id < 9)
  | .tile => decide (r.id < 512)

/-- A source number, an engine number and a plane of the NoC (R37, R217), and a cell offset. -/
def Packet.wf (p : Packet) : Bool :=
  decide (p.src < 1024 ∧ p.eng ≤ 4 ∧ p.plane < 6) &&
    (match p.body with | .read off => decide (off < 2 ^ 22 ∧ off % 64 = 0) | .write off _ => decide (off < 2 ^ 22 ∧ off % 64 = 0))

/-- A trained width (Table 13-8). -/
def linkWidth (w : Nat) : Bool := [1, 2, 4, 8, 16].contains w
/-- A rate code: 1 is 2.5 GT/s, 6 is 64 GT/s. -/
def linkSpeed (r : Nat) : Bool := decide (1 ≤ r ∧ r ≤ 6)

/-- Fused and factory items have the sizes of Chapters 17 and 18. -/
def FactoryParts.wf (p : FactoryParts) : Bool :=
  decide (p.stepping < 256 ∧ p.serial < 2 ^ 64 ∧ p.lc < 4 ∧ p.revoked < 16 ∧ p.counter ≤ 64 ∧ p.keyHash.length = 4 ∧ p.rth.length = 12 ∧
    p.tau.length = 12 ∧ p.avs.length = 2 ∧ p.vmin.length = 2 ∧ p.vmax.length = 2) && p.engines.all (fun e => decide (e < 49152)) && p.retired.all (fun c => decide (c < 384))

/-- A BAR4 size: disabled, or 1 GiB to 1 TiB (Table 13-3). -/
def barSize (n : Nat) : Bool := decide (n = 0) || (List.range 11).any (fun i => decide (n = 2 ^ i))
/-- Programmed values that the tables of Chapter 13 allow; PF0 has one link IDE stream, one selective IDE stream and that of CXL.cachemem (R376). -/
def FnConfig.wf (c : FnConfig) : Bool := [128, 256, 512].contains c.mps && decide (c.cplTo < 4) && c.cxlIde.all (fun x => decide (x.1 < 256) && !c.ide.contains x.1) && [64, 128, 256, 512, 1024, 2048, 4096].contains c.mrrs && barSize c.bar4 && barSize c.vfBar4 && decide (c.ide.length ≤ 2) && c.ide.all (fun n => decide (n < 256))

/-- The operands of a command can occur. -/
def Instr.wf : Instr → Bool
  | .registerWrite _ off size _ => decide (off < 2 ^ 26 ∧ (size = 4 ∨ size = 8))
  | .badAccess _ off _ _ => decide (off < 2 ^ 26)
  | .requestAccept who dpa _ => requesterWf who && decide (dpa.toNat % 64 = 0)
  | .requestIssue _ strikes sram => strikes.all Strike.wf && sram.all SramErr.wf
  | .eccWriteBack _ strikes | .patrolScrub _ strikes => strikes.all Strike.wf
  | .crcReplay _ col _ sram => decide (col < 12 * 2 ^ 31) && sram.all SramErr.wf
  | .gemvPass _ _ l | .scorePass _ _ l | .valuePass _ _ l | .copyPass _ _ l => l.all Strike.wf
  | .rowPeriodStart _ split l => split.all (fun n => decide (n < 64)) && l.all Strike.wf
  | .nocPacketDelivery p => p.wf
  | .streamLineReturn _ answer _ => decide (answer.status ≤ 3)
  | .bundleSplit _ sram => sram.all SramErr.wf
  | .linkUp width speed flit _ => linkWidth width && linkSpeed speed && (flit || decide (speed < 6))
  | .busMasterEnableSet x => x.cfg.wf
  | .linkDown cause => decide (1 ≤ cause.val ∧ cause.val ≤ 5)
  | .cxlMemRead hpa _ | .cxlMemWrite hpa _ _ => decide (hpa % 64 = 0)
  | .bar4Read _ off | .bar4Write _ off _ => decide (off % 64 = 0)
  | .hostCompletion _ code _ => decide (code ≤ 4)
  | .biasChange _ region _ => decide (region < 65536)
  | .submissionDoorbell _ place _ _ => decide (place.page < 64 ∧ place.off < 4096)
  | .eventHeadDoorbell _ page _ _ => decide (page < 64)
  | .descriptorFetch _ code l | .descriptorReread _ code l => decide (code ≤ 4 ∧ l.length ≤ 16)
  | .coalesceWindowEnd _ source code => decide (source < 1024 ∧ code < 65536)
  | .seamReplay replay _ sram => decide (1 ≤ replay ∧ replay ≤ 8) && sram.all SramErr.wf
  | .hostLinkReplay _ sram => sram.all SramErr.wf
  | .moltCmd _ chan => decide (chan < 512)
  | .partitionReset _ k => decide (k < 16)
  | .controlPeriod rails => decide (rails.length = 45)
  | .avsUpdate _ _ m => decide (m ≤ 3)
  | .thermalSample diodes power => decide (diodes.length = 14 ∧ power.length = 12)
  | .supplySagLockout rail _ => decide (rail < 45)
  | .firmwareUpdate _ x => decide (x.fail1 ≤ 4 ∧ x.fail2 ≤ 4)
  | .powerOn parts => parts.wf
  | .bringUp f => f.tileFail.all (fun t => decide (t < 512)) && f.absent.all (fun k => decide (k < 12)) && f.loopback.all (fun c => decide (c.1 < 384))
  | .cardReset _ key | .cfgSave _ key => decide (key < 65536)
  | .debugLevelRequest _ req => decide (req < 4)
  | .linkRateChange width speed => linkWidth width && linkSpeed speed
  | .counters x | .tsCfg x | .restart x | .console (.write x) => decide (x.data.length < 256)
  | .debugSpdataRead _ r => decide ((r.len = 8 ∧ r.off = 0) ∨ (r.len = 4 ∧ (r.off = 0 ∨ r.off = 4)))
  | .doeDiscovery x => decide (x.vendor < 65536 ∧ x.type < 256)
  | .debugSpdataWrite .. | .neighbourRefresh .. | .ref .. | .pde .. | .passInstruction .. | .passGroupClaim .. | .exitPass ..
  | .unlockRetry .. | .operandFetchResponse .. | .reservedCommandWord .. | .mergeContribution .. | .mergeTimeout .. | .statusCellWrite ..
  | .resultReturnDropped .. | .feWatchGrant .. | .prefetchIssue .. | .prefetchArrive .. | .streamRecord .. | .streamFetchRequest .. | .imld ..
  | .imldHoldLimit .. | .queueBarrier .. | .streamComplete .. | .nop .. | .seta .. | .setax .. | .adda .. | .suba .. | .addi .. | .shla .. | .shra ..
  | .mula .. | .lda .. | .loop .. | .call .. | .ret .. | .fence .. | .pass .. | .mma .. | .mmaArrayStart .. | .fst .. | .fstBankRead .. | .vop ..
  | .vopStart .. | .dset .. | .move .. | .moveBegin .. | .semsig .. | .semaphoreUpdate .. | .semwait .. | .semaphoreGrant .. | .scupd .. | .scwait ..
  | .streamCounterSatisfy .. | .fewait .. | .chorusArrive .. | .chorusWait .. | .chorusArriveWait .. | .chorusPhaseComplete .. | .deadlockDetectorFire ..
  | .flr .. | .busMasterEnableClear .. | .h2dSnoop .. | .bisnpResponse .. | .completionTimeout .. | .ideIntegrityFailure .. | .biasChangeComplete
  | .descriptorNop .. | .descriptorStream .. | .descriptorCopy .. | .descriptorFill .. | .descriptorSignal .. | .signalValueWrite .. | .descriptorFence ..
  | .fenceComplete .. | .completionRecord .. | .ringStart .. | .ringResume .. | .ringReset .. | .ringHalt .. | .eventRingEnable .. | .eventReport
  | .leakTick | .molt | .moltCommit | .tileReset .. | .consistentCut | .cutWaitExpire | .hostBucketRearm .. | .fastTrip .. | .powerBrakeAssert ..
  | .powerBrakeRelease .. | .droopDetect .. | .thermalFloorStep | .thermalShutdown .. | .thermalRestart | .supplySagRecover | .undervoltageShutdown ..
  | .loopbackRun .. | .loopbackEnd .. | .timeStampPulse .. | .timeStampHoldover | .rollForward .. | .getIdentity
  | .getMeas | .quote .. | .keyExch .. | .ideKm .. | .getNonce | .signedCmd .. | .extend .. | .tileHalt .. | .tileResume .. | .d3hotEntry | .status
  | .trip | .tsStat | .console .read | .perstNAssertion | .perstNDeassertion | .in48Qualified
  | .in12Removal | .d3hotExit | .hdmDecoderCommit .. | .unsupportedRequest .. | .seamRetrainComplete .. | .droopRecover .. | .tapInstruction ..
  | .uartConsoleCommand .. => true

end Sys2Proof
end

