-- ==== Sys2Proof/Tests/Slice0.lean ====
section
/-! SUPPORT. Tests: small states that meet the hypotheses of each statement, ill-formed operands that the checks refuse, and single steps whose results are the manual's worked examples. -/

open Sys2Proof Sys2Proof.Machine

namespace Sys2Proof.Tests

set_option Elab.async false

/-! ### Small states -/

/-- A running card on which nothing has happened: rails on, both C-dies out of reset, tiles 0 and 1 enabled and out of reset, all stacks present, the interleaved window open, the link up with CXL, every function a bus master, debug level invasive, bring-up READY. -/
def card : State :=
  let s : State := { State.reset with
    pwr := { PwrSt.init with rails := true, in48 := .qualified, prsnt := true, switch := true, perst := false }, brup := { BrupSt.init with dies := 2, logging := false },
    tiles := [(0, { Tile.init with inReset := false }), (1, { Tile.init with inReset := false })],
    host := { HostSt.init with bme := [(0, true), (1, true)], cxlHost := true } }
  let s := ((s.wr cardB FP_TILES_TILES 3).wr cardB FP_STACKS_PRESENT 0xFFF).raise (ccB 0) CC_ILV_CTRL_ENABLE
  let s := (((s.raise hostB HOST_LINK_STAT_DL_UP).raise hostB HOST_LINK_STAT_CXL).raise cardB BRUP_STAT_READY).wr secB SEC_DBG_LEVEL 2
  s

/-- The card with a changed CC. -/
def withCc (c : Nat) (k : CcSt) : State := card.setCc c k

/-- A poisoned cell's write under a full mask, and one of zeros. -/
def allZero : WriteData := .whole Cell64.zero

/-- Bank-direct DPA of the first cell of stack 0, channel 0. -/
def dpa0 : Addr := 0x10000000000
/-! ### Witnesses: the hypotheses of each statement hold somewhere, clause by clause -/

/-- RegisterWriteTakesEachField: PF0 writes CC_SCHED_CTRL of CC 0 with ROWHIT_CAP 5; an element of its class D field is PANIC_LWM. -/
theorem wit_registerWrite : let p : Place := ⟨.cc, 0, 0x10⟩
    let off := ccB 0 + 0x10
    let v := setBits (card.readPlace p off) 24 4 5
    ∃ r, Reaches card 0 off p r ∧ commandRegister p = false ∧ card.refuses 0 p (fieldsFor 0 p r) (card.readPlace p off) v = false ∧
      card.refusesAlso 0 p (card.readPlace p off) v (nextWord (fieldsFor 0 p r) (card.readPlace p off) v) = false := by
  refine ⟨(findRow .cc 0x10).get (by decide +kernel), ?_, ?_, ?_, ?_⟩
  · unfold Reaches; decide +kernel
  all_goals decide +kernel

/-- RejectedWriteSetsOnlyItsFlag: a reserved PANIC_LWM, and MODE of a CC that holds a request. -/
theorem wit_rejectedWrite : let p : Place := ⟨.cc, 0, 0x10⟩
    let off := ccB 0 + 0x10
    let busy := withCc 0 { CcSt.init with pool := [⟨⟨.tile, 0⟩, 0, none, 0, .plain⟩] }
    ∃ r, Reaches card 0 off p r ∧ Reaches busy 0 off p r ∧
      (∃ fl ∈ fieldsFor 0 p r, fl.sets = true ∧ bitsOf 0 fl.lo fl.w ≠ bitsOf (card.readPlace p off) fl.lo fl.w ∧
        card.legal 0 p (nextWord (fieldsFor 0 p r) (card.readPlace p off) 0) (bitsOf 0 fl.lo fl.w) fl.legal = false) ∧
      ∃ fl ∈ fieldsFor 0 p r, fl.cls = .S .cc ∧ busy.active p .cc = true ∧ fl.changes (busy.readPlace p off) 1 = true := by
  refine ⟨(findRow .cc 0x10).get (by decide +kernel), ?_, ?_, ⟨⟨8, 6, .RW, 16, .D .endOfPass, .range 1 63⟩, ?_⟩, ⟨⟨0, 1, .RW, 0, .S .cc, .any⟩, ?_⟩⟩
  · unfold Reaches; decide +kernel
  · unfold Reaches; decide +kernel
  all_goals decide +kernel

/-- HalfWriteActsAsWholeWrite: the upper half of CC_SCHED_CTRL. -/
theorem wit_halfWrite : let p : Place := ⟨.cc, 0, 0x10⟩
    let off := ccB 0 + 0x14
    let cur := card.readPlace p (off / 8 * 8)
    let new := BitVec.ofNat 64 (setBits cur 32 32 7)
    ∃ r, off % 4 = 0 ∧ Reaches card 0 (off / 8 * 8) p r ∧ card.badKind 0 off 4 true = 0 ∧
      ∀ i < 64, bit new.toNat i =
        if i / 32 = off % 8 / 4 then bit 7 (i % 32)
        else bit cur i && !(r.fields.any (fun fl => decide ((fl.acc = .W1C ∨ fl.acc = .W1S) ∧ fl.lo ≤ i ∧ i < fl.lo + fl.w))) := by
  refine ⟨(findRow .cc 0x10).get (by decide +kernel), by decide, ?_, by decide +kernel, by decide +kernel⟩
  unfold Reaches; decide +kernel

/-- BadAccessIsRecorded: each kind; kind 4 at a die held in reset. -/
theorem wit_badAccess : (3 ≠ 4 ∧ 3 ≠ 8) ∧ implemented 0x3FFFFF8 = false ∧ placeOf 0 = some ⟨.card, 0, 0⟩ ∧
    card.exposes 1 ⟨.card, 0, 0⟩ true = false ∧ placeOf (ccB 383) = some ⟨.cc, 383, 0⟩ ∧ implemented (ccB 383) = true ∧
    State.reset.answers ⟨.cc, 383, 0⟩ = false ∧ card.host.d3hot = false := by decide +kernel

/-- DebugCellAccess: tile 1, a read of the whole register and of its upper half, and a write. -/
theorem wit_debugCell : DebugReach card 1 0 8 false ∧ DebugReach card 1 4 4 false ∧ DebugReach card 1 56 8 true := by unfold DebugReach; decide +kernel

/-- StepRunsFrontCommand, StepKeepsStorageForm and ExecLeavesQueue: an empty queue, and a step that stores a byte pair answers a next state. -/
theorem wit_step : card.mem.wf = true ∧ card.regsWf = true ∧ step { card with pending := [.timeStampHoldover] } = .next card ∧ card.pending = [] :=
  ⟨by decide +kernel, by decide +kernel, rfl, by decide +kernel⟩

/-- RequestIsAcceptedOrAnswered: no requester; accepted; stalled by the pool, a Molt, a pass packet and the seam; waiting for the host's answer, with a link and without; held by a bias change; cut off by card fault; retired; refused to a partition; unmapped; and closed. -/
theorem wit_requestAccept :
    let full := withCc 0 { CcSt.init with pool := List.replicate 300 ⟨⟨.tile, 0⟩, 0, none, 0, .plain⟩ }
    let gone := card.raise (ccB 0) CC_STATUS_RETIRED
    let part := card.wr hostB (HOST_PART_TILES_TILES.at 0) 1
    let cut := card.raise hostB FLT_CARD_CARD_FAULT
    let far : Requester := ⟨.tile, 256⟩
    let away := card.raise seamB SEAM_STAT_HOLD
    let busy := (card.raise hostB FLT_MOLT_STAT_BUSY).wr hostB FLT_MOLT_STAT_ACTIVE 0
    let bias := { card with host := { card.host with biasJob := some ⟨card.regionOf 0, true⟩ } }
    let asked := { card with host := { card.host with dir := [0], bias := [(card.regionOf 0, true)] } }
    let panics := { withCc 0 { CcSt.init with panic := true } with flight := [(0, ⟨0, 0⟩)] }
    let tile0 : Requester := ⟨.tile, 0⟩
    dpa0.toNat % 64 = 0 ∧ ¬ Asks card ⟨.tile, 511⟩ ∧ Asks card tile0 ∧ Asks card ⟨.host, 0⟩ ∧ ¬ AwaitsHost card tile0 0 ∧ card.mayTake tile0 0 = true ∧ card.dieUp (chanDie 0) = true ∧ AwaitsHost asked tile0 0 ∧ asked.canSnoop = true ∧ asked.host.snoops.length < 256 ∧ panics.passFirst 0 = true ∧ card.decodeDpa dpa0.toNat = .at 0 ∧ card.dpaRefused 0 dpa0.toNat = false ∧ card.biasHeld 0 = false ∧
      card.hostCut 0 = false ∧ card.retired 0 = false ∧ card.molting 0 = false ∧ card.flag (ccB 0) CC_TRACE_CTRL_ENABLE = false ∧ card.seamHeld 0 0 = false ∧
      (card.cc 0).room .tile 0 = true ∧ (full.cc 0).room .tile 0 = false ∧ busy.molting 0 = true ∧ away.seamHeld far.die (chanDie 0) = true ∧ bias.biasHeld 0 = true ∧
      cut.decodeDpa 0x16000000000 = .at 0x6000000000 ∧ cut.hostCut 0x6000000000 = true ∧ gone.retired 0 = true ∧ part.dpaRefused 0 dpa0.toNat = true ∧
      card.decodeDpa (0x1C000000000) = .noCc ∧ (card.wr (ccB 0) CC_ILV_CTRL_ENABLE 0).decodeDpa 0 = .refused 0 := by
  unfold Asks AwaitsHost; decide +kernel

/-- InterleavedDecodeIsInjective: two addresses in range, the last one included. -/
theorem wit_interleaved : (0xBFFFFFFFFF < 0xC000000000) ∧ (interleaved localMasks false 0xBFFFFFFFFF).isSome = true ∧ (interleaved wideMasks true 0).isSome = true := by decide +kernel

/-- Read from the queues whether an escalated refresh waits. -/
theorem unescalated_of {s : State} {c : Nat} (h : ((s.cc c).maint ++ (s.cc c).waiting).all (fun m => match m with | .neighbour _ _ _ _ e => !e | _ => true) = true) :
    Unescalated s c := by
  intro m hm
  have := List.all_eq_true.mp h m hm
  cases m <;> simp_all

/-- RequestIssueServesThePick: one write in the pool. -/
theorem wit_requestIssue :
    let r : Req := ⟨⟨.tile, 0⟩, 64, some allZero, 0, .plain⟩
    let s := withCc 0 { CcSt.init with pool := [r] }
    Unescalated s 0 ∧ Untraced s 0 ∧ (s.cc 0).active = none ∧ (s.cc 0).panic = false ∧ s.flag (ccB 0) CC_SCHED_CTRL_MODE = false ∧ (s.cc 0).ptr < 128 ∧ Kept s r.key true ∧
      (∀ r ∈ (s.cc 0).pool, r.key < 2 ^ 40 ∧ r.key % 64 = 0 ∧ keyChan r.key = 0) ∧ (s.cc 0).pool.Nodup ∧ (s.cc 0).pool ≠ [] ∧ Sound s r.key := by
  refine ⟨unescalated_of (by decide +kernel), ?_⟩
  unfold Untraced Kept Sound; decide +kernel

/-- RefreshAndPowerDown: a slot that clears the tables, a channel that does not refresh, an idle SID, a SID with an open row, and a card on which nothing waits. -/
theorem wit_refresh :
    let s := withCc 0 { CcSt.init with refresh := true }
    let q := s.setCc 0 { s.cc 0 with rows := [(0, some 5)] }
    Untraced s 0 ∧ (s.cc 0).refresh = true ∧ s.retired 0 = false ∧ (s.cc 0).slot % 8192 = 0 ∧ (card.cc 0).refresh = false ∧ MayPowerDown s 0 3 ∧ ¬ MayPowerDown q 0 0 ∧ Settled s := by
  unfold Untraced MayPowerDown Settled; decide +kernel

/-- MaintenanceRunsItsQueue: a neighbour refresh whose entry queues again, a write-back, the scrub of a sound, a corrected and an uncorrectable column, and a scrub that waits. -/
theorem wit_maintenance :
    let m : Maint := .neighbour 0 1 7 0 false
    let s := withCc 0 { CcSt.init with maint := [m], nextId := 1, dist := [(1, [⟨7, 5000, some 0⟩])] }
    let w := withCc 0 { CcSt.init with maint := [.writeBack 2 0 5] }
    let on := (withCc 0 { CcSt.init with refresh := true }).raise (ccB 0) CC_SCRUB_CTRL_ENABLE
    ((on.setCc 0 { on.cc 0 with panic := true }).cc 0).panic = true ∧ Untraced s 0 ∧ s.nextNeighbour 0 = some m ∧ (s.cc 0).waiting = [] ∧ (s.cc 0).maint.Nodup ∧ (s.cc 0).maint.length ≤ 16 ∧
      (look (fun _ => []) (s.cc 0).dist 1).findIdx? (fun y => decide (y.queued = some 0)) = some 0 ∧
      Untraced w 0 ∧ (w.cc 0).panic = false ∧ (w.cc 0).active = none ∧ w.flag (ccB 0) CC_SCHED_CTRL_MODE = false ∧ Kept w 64 true ∧
      (w.cc 0).maint.find? (fun m => match m with | .writeBack .. => true | _ => false) = some (.writeBack 2 0 5) ∧ (w.cc 0).waiting = [] ∧ (w.cc 0).maint.Nodup ∧
      (∀ k ∈ [on, on.strike 0 [⟨1, 1⟩], on.strike 0 [⟨1, 2⟩]], Untraced k 0 ∧ k.flag (ccB 0) CC_SCRUB_CTRL_ENABLE = true ∧ (k.cc 0).refresh = true ∧ k.retired 0 = false ∧
        (k.cc 0).panic = false ∧ (k.cc 0).active = none ∧ (k.cc 0).maint.length < 16 ∧ (k.cc 0).scrub + 1 < 2 ^ 26 ∧ k.mem.err 0 ≤ 2 ∧ Kept k 0 false ∧ Kept k 0 true ∧ k.flag (ccB 0) CC_SCHED_CTRL_MODE = false) ∧
      (on.strike 0 [⟨1, 2⟩]).mem.err 1 = 2 ∧ (card.wr (ccB 0) CC_SCRUB_CTRL_ENABLE 0).flag (ccB 0) CC_SCRUB_CTRL_ENABLE = false := by
  unfold Untraced Kept; decide +kernel
theorem wit_maintenance_calm : let w := withCc 0 { CcSt.init with maint := [.writeBack 2 0 5] }
    let on := (withCc 0 { CcSt.init with refresh := true }).raise (ccB 0) CC_SCRUB_CTRL_ENABLE
    Unescalated w 0 ∧ Unescalated on 0 ∧ Unescalated (on.strike 0 [⟨1, 1⟩]) 0 ∧ Unescalated (on.strike 0 [⟨1, 2⟩]) 0 :=
  ⟨unescalated_of (by decide +kernel), unescalated_of (by decide +kernel), unescalated_of (by decide +kernel), unescalated_of (by decide +kernel)⟩
theorem wit_maintenance_ids : ∀ m ∈ [Maint.neighbour 0 1 7 0 false], ∀ b r w x, m ≠ .neighbour 1 b r w x := by simp

/-- CrcReplayReportsAndFails: a first replay, and the failure after the fourth with and without a waiting request. -/
theorem wit_crcReplay :
    let r : Req := ⟨⟨.tile, 0⟩, 64, none, 0, .plain⟩
    let s := withCc 0 { CcSt.init with pool := [r], replays := [(burstNo 64 false, 4), (burstNo 64 true, 4)] }
    keyChan (32 * 2) = 0 ∧ Untraced card 0 ∧ card.retired 0 = false ∧ look noReplay (card.cc 0).replays (burstNo 64 false) < 4 ∧ s.retired 0 = false ∧
      (∀ w, 4 ≤ look noReplay (s.cc 0).replays (burstNo 64 w)) ∧ s.dieUp (chanDie 0) = true ∧
      (s.cc 0).pool.find? (fun r => decide (r.key = 2 / 2 * 64)) = some r ∧ (card.cc 0).pool.find? (fun r => decide (r.key = 2 / 2 * 64)) = none := by
  unfold Untraced; decide +kernel

/-- Fields of a packet: value, low bit. -/
def packet (l : List (Nat × Nat)) : BitVec 512 := BitVec.ofNat 512 (l.foldl (fun n x => n + x.1 * 2 ^ x.2) 0)

/-- A legal pass instruction of each KIND 1 to 4: one engine, one row, stride 1, MOP 3. -/
def pass1 (kind : Nat) : BitVec 512 :=
  packet ([(kind, 0), (1, 64), (1, 141), (3, 256)] ++
    (match kind with
    | 1 => [(0x09, 5), (0x09, 10), (1, 18)]
    | 2 => [(0x0B, 5), (0x10, 10), (1, 18), (3, 161), (3, 167), (3, 170)]
    | 3 => [(0x0B, 5), (1, 18), (1, 161), (1, 167), (1, 170)]
    | _ => []))

/-- An active pass whose channel is unlocked for it. -/
def running (kind : Nat) : Active := { Active.start ⟨0, pass1 kind⟩ 1 with unlocked := true }
def busyCc (a : Active) : State := withCc 0 { CcSt.init with active := some a, pim := true, retried := true }

/-- Read from the queues whether what the CC has taken is its own. -/
theorem homed_of {s : State} {c : Nat} (h : (s.cc c).pool.all (fun q => decide (q.key < 2 ^ 40 ∧ q.key % 64 = 0 ∧ keyChan q.key = c)) = true)
    (h' : ((s.cc c).maint ++ (s.cc c).waiting).all (fun m => match m with | .writeBack col _ _ => decide (keyChan (32 * col) = c) | _ => true) = true) : Homed s c := by
  refine ⟨fun q hq => by simpa using List.all_eq_true.mp h q hq, fun m hm => ?_⟩
  have := List.all_eq_true.mp h' m hm
  cases m <;> simp_all

/-- PassesAreQueuedBarredAndClaimed: from no site, held by the seam, queued, barred by a partition, at a retired channel; claimed, and held back by the limit of active stacks. -/
theorem wit_passes :
    let r : PassReq := ⟨0, pass1 1⟩
    let part := card.wr hostB (HOST_PART_TILES_TILES.at 0) 1
    let gone := card.raise (ccB 0) CC_STATUS_RETIRED
    let s := withCc 0 { CcSt.init with queue := [r], pool := [⟨⟨.tile, 0⟩, 0, some allZero, 0, .plain⟩] }
    let held := s.wr pwrB PWR_STATUS_ACTIVE_LIM 0
    card.flight.find? (fun q => decide (q.1 = 0 ∧ q.2.tile = 0)) = none ∧ card.tileUp 511 = false ∧ card.tileUp 0 = true ∧ card.dieUp (chanDie 0) = true ∧ (card.raise seamB SEAM_STAT_HOLD).seamHeld 1 0 = true ∧
      card.seamHeld 0 0 = false ∧ card.tileOwner 0 = 0 ∧ card.retired 0 = false ∧ card.molting 0 = false ∧
      part.tileOwner 0 ≠ 0 ∧ part.stackOwner 0 ≠ part.tileOwner 0 ∧ gone.retired 0 = true ∧
      (s.cc 0).queue = [r] ∧ (s.cc 0).active = none ∧ passCheck r.pkt = 0 ∧ s.mayClaim 0 = true ∧ Untraced s 0 ∧ (s.cc 0).pool ≠ [] ∧
      (held.cc 0).queue = [r] ∧ held.mayClaim 0 = false := by
  unfold Untraced; decide +kernel
theorem wit_passes_calm : let s := withCc 0 { CcSt.init with queue := [⟨0, pass1 1⟩], pool := [⟨⟨.tile, 0⟩, 0, some allZero, 0, .plain⟩] }
    Unescalated s 0 ∧ Homed s 0 ∧ ∀ q ∈ (s.cc 0).pool, keyBank q.key / 64 = pG (pass1 1) → Sound s q.key ∧ q.runs s := by
  refine ⟨unescalated_of (by decide +kernel), homed_of (by decide +kernel) (by decide +kernel), fun q hq _ => ?_⟩
  have hp : ((withCc 0 { CcSt.init with queue := [⟨0, pass1 1⟩], pool := [⟨⟨.tile, 0⟩, 0, some allZero, 0, .plain⟩] }).cc 0).pool = [⟨⟨.tile, 0⟩, 0, some allZero, 0, .plain⟩] := by decide +kernel
  rw [hp, List.mem_singleton] at hq
  subst hq
  exact ⟨by unfold Sound; decide +kernel, by unfold Kept; decide +kernel, fun _ => by unfold Kept; decide +kernel⟩

/-- UnlockedPassRunsToItsEnd: a pass of every KIND. -/
theorem wit_pass : ∀ kind ∈ [1, 2, 3, 4], let s := busyCc (running kind)
    (s.cc 0).active = some (running kind) ∧ (running kind).unlocked = true ∧ pKind (running kind).req.pkt = kind ∧ passCheck (running kind).req.pkt = 0 ∧
      (running kind).todo = passPlan (running kind).req.pkt ∧ s.bufferFree 0 = true ∧ Untraced s 0 ∧ (∀ b < 128, (s.eng b).row < 8192) ∧
      s.seamHeld (chanDie 0) (tileDie 0) = false ∧ (running kind).held = false ∧ bitsOf (s.rd pwrB PWR_SLEVEL_LEVEL) (3 * (0 / 32)) 3 = 0 ∧ s.spaced 0 (pG (running kind).req.pkt) = true := by
  unfold Untraced; decide +kernel
theorem wit_pass_calm : ∀ kind ∈ [1, 2, 3, 4], Homed (busyCc (running kind)) 0 ∧ GapIdle (busyCc (running kind)) 0 0 := by
  have h : ∀ kind ∈ [1, 2, 3, 4], ((busyCc (running kind)).cc 0).pool = [] ∧ ((busyCc (running kind)).cc 0).maint = [] ∧ ((busyCc (running kind)).cc 0).waiting = [] := by decide +kernel
  intro kind hk
  obtain ⟨hp, hm, hw⟩ := h kind hk
  simp [Homed, GapIdle, hp, hm, hw]
theorem wit_unlock_calm : Unescalated (busyCc (running 1)) 0 := unescalated_of (by decide +kernel)

/-- RejectedPassesUnlockRetryAndExit: a reserved KIND field with its command, a retry, and an EXIT. -/
theorem wit_reject (c : Chan) (ok : Bool) :
    let r : PassReq := ⟨0, packet [(1, 0)]⟩
    let s := withCc 0 { CcSt.init with queue := [r] }
    let e : Active := { Active.start ⟨0, packet [(5, 0)]⟩ 1 with unlocked := true }
    (1, Instr.gemvPass c ok []) ∈ (5, Instr.exitPass c) :: passCommands c ok ∧ (s.cc 0).active = none ∧ (s.cc 0).queue = [r] ∧ pKind r.pkt = 1 ∧ passCheck r.pkt ≠ 0 ∧
      ((busyCc e).cc 0).active = some e ∧ ((busyCc e).cc 0).retried = true ∧ ((busyCc e).cc 0).panic = false ∧ pKind e.req.pkt = 5 ∧ e.faulted = false ∧ e.gap = false ∧ Untraced (busyCc e) 0 ∧
      ∀ i < 128, (busyCc e).engOff 0 (i / 64) (i % 64) = false → ((busyCc e).eng i).st = .idle ∨ ((busyCc e).eng i).st = .fault := by
  refine ⟨by simp [passCommands], ?_⟩
  unfold Untraced; decide +kernel

/-- OperandFetchDeliversACell: the first operand unit of a GEMV pass, of a tile that answers and of one that does not. -/
theorem wit_operand : ((busyCc (running 1)).cc 0).active = some (running 1) ∧ (running 1).nextFetch = some (0, 0) ∧ (busyCc (running 1)).seamHeld 0 0 = false ∧
    (busyCc (running 1)).nocCause 0 = 0 ∧ ((busyCc (running 1)).setTile 0 Tile.init).nocCause 0 ≠ 0 := by decide +kernel

/-- RowPeriodRunsAndCloses: a COPY period of two writes, whole, split and held; a reserved row opcode and a reserved column opcode. -/
theorem wit_rowPeriod :
    let l := [PCmd.acta 0, .blw 0 1 0 1, .blw 0 2 0 1, .prea]
    let a : Active := { running 4 with todo := l ++ [.exit] }
    let s := (busyCc a).wr (ccB 0) CC_BSEQ_CTRL_SPLIT_MIN 1
    let t := s.setEng (engIdx 0 0 0) { EngSt.blank with st := .ready }
    (s.cc 0).active = some a ∧ a.unlocked = true ∧ nextPeriod a.todo = (l, [.exit]) ∧ PCmd.prea ∈ l ∧
      (∀ m ∈ l.takeWhile (fun m => !m.isActa), a.deferred m = false) ∧ s.rowReady 0 a = true ∧ (l.filter drains).length ≤ 1 ∧ .drn ∉ l ∧ Untraced s 0 ∧
      l.foldl (fun n m => n + m.ops) 0 = 2 ∧ s.rd (ccB 0) CC_BSEQ_CTRL_SPLIT_MIN = 1 ∧ (busyCc a).rd (ccB 0) CC_BSEQ_CTRL_SPLIT_MIN ≠ 0 ∧
      a.seqErr = false ∧ 12 ≤ bitsOf (0xF00000) 20 4 ∧ (3 ≤ bitsOf (31 * 2 ^ 35) 35 5 ∧ (bitsOf (31 * 2 ^ 35) 35 5 < 16 ∨ 26 < bitsOf (31 * 2 ^ 35) 35 5)) ∧
      ((List.range 64).filter (fun q => !t.engOff 0 0 q && decide ((t.eng (engIdx 0 0 q)).st = .ready ∨ (t.eng (engIdx 0 0 q)).st = .opened))).head? = some 0 := by
  unfold Untraced; decide +kernel

/-! ### Merging -/

/-- A contribution of channel 0 to destination 0, with its MOP and MCOUNT. -/
def given (mop mcount : Nat) : Contribution := ⟨0, ⟨mop, 0, mcount, 0, 0⟩, 0, 0, true, []⟩

/-- The card whose merge unit 0 holds `arrived` and destination 0 as `d`. -/
def merging (arrived : List Contribution) (d : Dest) : State := card.setBd 0 ({ BdieSt.init with arrived := arrived }.setDest 0 d)

/-- A destination in state `st` of a use with MOP `mop` and MCOUNT `mcount`. -/
def inUse (st : DestState) (mop mcount : Nat) : Dest := { Dest.init with st := st, key := ⟨mop, 0, mcount, 0, 0⟩ }

/-- MergeUnitCollects and MergeCompletes: no contribution; a first, a further and a last one; a timeout, and none while a claim is held back. -/
theorem wit_merge : let x := given 0 3
    let first := merging [x] Dest.init
    let further := merging [x] (inUse .collecting 0 3)
    let last := merging [given 0 0] (inUse .collecting 0 0)
    (card.bd 0).arrived.find? (fun x => decide (x.chan = 0)) = none ∧ (first.bd 0).arrived.find? (fun x => decide (x.chan = 0)) = some x ∧ ((first.bd 0).dest 0).st = .free ∧ 0 < x.key.mcount ∧
      ((merging [x] (inUse .returning 0 3)).bd 0).arrived.find? (fun x => decide (x.chan = 0)) = some x ∧ ((merging [x] (inUse .returning 0 3)).bd 0).dest 0 = inUse .returning 0 3 ∧
      ((further.bd 0).dest 0).taken.length + 1 < ((further.bd 0).dest 0).key.mcount + 1 ∧ ((further.bd 0).dest 0).st = .collecting ∧
      (last.bd 0).arrived.find? (fun x => decide (x.chan = 0)) = some (given 0 0) ∧ ((last.bd 0).dest 0).taken.length + 1 = ((last.bd 0).dest 0).key.mcount + 1 ∧
      (given 0 0).key = ((last.bd 0).dest 0).key ∧ last.nocCause 0 = 0 ∧ ((last.bd 0).dest 0).spoiled = [] ∧ last.seamHeld (chanDie 0) (tileDie 0) = false ∧
      (∀ i < 32, further.throttled i = false) ∧ (further.setCc 31 { CcSt.init with claimAt := some 1 }).throttled 31 = true := by decide +kernel

/-- ResultReturnEnds: every MOP with both numbers of uses, and a refused unit. -/
theorem wit_return : (∀ mop ∈ [0, 1, 2], ∀ uses ∈ [0, 1], let d := { inUse .returning mop 0 with sent := true, uses := uses }
    ((merging [] d).bd 0).dest 0 = d ∧ d.dropAt = none ∧ (merging [] d).nocCause d.key.resTile = 0 ∧ (merging [] d).seamHeld 0 0 = false) ∧
    let d := { inUse .returning 0 0 with dropAt := some 31 }
    ((merging [] d).bd 0).dest 0 = d := by decide +kernel

/-! ### Scratchpads, the NoC and prefetching -/

/-- Tile `t` of the card as `x`, out of reset. -/
def withTile (t : Nat) (x : Tile) : State := card.setTile t { x with inReset := false }

/-- A move of 128 bytes of tile 1's scratchpad to this tile's. -/
def moving (space : Nat) : MoveJob :=
  let d : TDim := ⟨128, 128, 0, 1⟩
  let e : TDim := ⟨1, 1, 0, 0⟩
  { src := ⟨space, 0, false, 1, 0, 128, 0, 0, 0, [d, e, e, e, e]⟩, dst := ⟨0, 0, false, 0, 4096, 128, 0, 0, 0, [d, e, e, e, e]⟩, de := 1, perm := [0, 1, 2, 3, 4]
    gs := 0, gdim := 0, aix := 0, sync := 0, fill := false, rel := false, soff := 0, doff := 0, loc := ⟨1, 0, 0, 0⟩ }

/-- A move that has begun. -/
def begun (j : MoveJob) : MRun :=
  { job := j, chunk := 0, granted := 0, got := [], idx := [], outs := none, asked := false, wants := [], snooped := [], watch := none, acquired := false }

/-- NocPacketReadsOrFillsOneCell: a packet that the seam link holds, a read, a write to an empty and a full cell, a packet to a tile that is not there, and one across partitions. -/
theorem wit_packet : let apart := (card.wr hostB (HOST_PART_TILES_TILES.at 0) 1).wr hostB (HOST_PART_TILES_TILES.at 0x40) 2
    (card.raise seamB SEAM_STAT_HOLD).nocHeld (srcDie 256) 1 = true ∧ card.nocHeld (srcDie 0) 1 = false ∧ card.nocHeld (srcDie 0) 2 = false ∧ (3 < 2 ^ 22) ∧
      card.nocCause 1 = 0 ∧ card.crossPartition 0 1 = false ∧ card.isFull 1 3 = false ∧ (card.setFull 1 3 true).isFull 1 3 = true ∧ (card.setFull 1 3 true).nocCause 1 = 0 ∧
      (card.setFull 1 3 true).crossPartition 0 1 = false ∧ card.nocCause 2 ≠ 0 ∧ isSite 0 = true ∧ isSite 0x3A1 = false ∧ apart.nocCause 1 = 0 ∧ apart.crossPartition 0 1 = true := by decide +kernel

/-- FullCellGrantsWatches: two engines watch cell 33, which is full, and one of them consumes; and cell 34 is empty. -/
theorem wit_grant : let watch := fun (consume : Bool) => ({ Engine.init with wait := some ⟨.fe 33 consume, ⟨1, 0, 0, 0⟩⟩ } : Engine)
    let s := (withTile 0 (((Tile.init.setEngine 1 (watch true)).setEngine 3 (watch false)))).setFull 0 33 true
    s.tileUp 0 = true ∧ card.tileUp 511 = false ∧ (s.tile 0).vrun = none ∧ (s.tile 0).mrun = none ∧ s.isFull 0 34 = false ∧ s.isFull 0 33 = true ∧ ((s.engine 0 1).feWatch 33) = some true ∧
      (s.engine 0 3).feWatch 33 = some false ∧
      ((List.range 5).map (fun j => (look bankGrantInit (s.tile 0).bankGrant (33 % 32) + 1 + j) % 5)).find? (fun e => ((s.engine 0 e).feWatch 33).isSome) ≠ none := by decide +kernel

/-- FullCellGrantsWatches: a VOP and a MOVE in progress watch cell 33, which is full, and nothing else does. -/
theorem wit_grant_runs : ∀ con : Bool,
    let o : VOperand := ⟨0, 0, 0, 0, 0, 0⟩
    let w : Option Watch := some ⟨33, con⟩
    let r : VRun := { job := ⟨0, false, false, false, 0, 1, 1, o, o, o, o, 0, ⟨1, 0, 0, 0⟩⟩, pos := 0, granted := 0, got := [], acc := [], lanes := [], watch := w, acquired := false, pois := false }
    let m : MRun := { begun (moving 1) with watch := w }
    let v := (withTile 0 { Tile.init with vrun := some r }).setFull 0 33 true
    let g := (withTile 0 { Tile.init with mrun := some m }).setFull 0 33 true
    v.tileUp 0 = true ∧ g.tileUp 0 = true ∧ v.isFull 0 33 = true ∧ g.isFull 0 33 = true ∧ (v.tile 0).vrun = some r ∧ (g.tile 0).mrun = some m ∧
      watchOn r.watch 33 = some con ∧ watchOn m.watch 33 = some con ∧ (∀ e < 5, e ≠ 1 → v.engineWatch 0 e 33 = none) ∧ (∀ e < 5, e ≠ 2 → g.engineWatch 0 e 33 = none) ∧
      (v.engine 0 1).feWatch 33 = none ∧ (g.engine 0 2).feWatch 33 = none := by decide +kernel

/-- PrefetchesStaySilent: the lines ahead of a move from a remote scratchpad, from device memory and from host memory; one beyond the page; arrivals that can and cannot be used, and one that the seam link holds. -/
theorem wit_prefetch : (∀ space ∈ [1, 2, 3], let j := moving space
      let s := ((withTile 0 { Tile.init with mrun := some (begun j) }).raise (tileB 0) TILE_PF_CTRL_ENABLE).wr (tileB 0) TILE_PF_CTRL_DEPTH 4
      let x := s.tile 0
      x.ahead = some (j, [0, 1]) ∧ s.tileUp 0 = true ∧ s.flag (tileB 0) TILE_PF_CTRL_ENABLE = true ∧
        (x.pf ++ x.pfFlight).any (fun p => p.isAt space (if space = 1 then 1 else 0) 64) = false ∧ s.mayPredict j 0 64 = true ∧ s.hostLive (s.tileOwner 0) = true ∧ s.seamHeld (tileDie 0) 0 = false ∧
        1 ∈ [1].take (s.rd (tileB 0) TILE_PF_CTRL_DEPTH) ∧ x.pf.length + x.pfFlight.length < 512 ∧ s.demandWaits 0 = false ∧ s.biasHeld 64 = false ∧
        s.mayPredict j 0 (64 * 64) = false) := by decide +kernel
theorem wit_prefetch_arrive : let p : PfLine := ⟨1, 1, 64, (none, none), false⟩
    let s := withTile 0 { Tile.init with pfFlight := [p] }
    let far : PfLine := ⟨1, 256, 64, (none, none), false⟩
    let near : PfLine := ⟨2, 0, 64, (none, none), false⟩
    let dev := (withTile 0 { Tile.init with pfFlight := [near] }).setCc 0 { CcSt.init with pool := [⟨⟨.tile, 1⟩, 0, none, 0, .plain⟩] }
    (s.tile 0).pfFlight.find? (fun p => decide (p.space ≠ 3)) = some p ∧ s.nocHeld (tileDie 0) p.tile = false ∧ (s.prefetchReach 0 p).1 = some (some (some 0, some 0)) ∧
      ((s.raise seamB SEAM_STAT_HOLD).prefetchReach 0 far).1 = none ∧ s.prefetchData 0 p = some (some 0, some 0) ∧ s.prefetchData 0 { p with tile := 5 } = none ∧
      (dev.prefetchReach 0 near).1 = none ∧ dev.prefetchLost 0 near = false ∧ (dev.cc (keyChan 64)).reading (.prefetch 0) 64 = false ∧ dev.mayTake ⟨.tile, 0⟩ 64 = true := by decide +kernel

/-! ### Instruction streams -/

/-- A stream record of 128 B at host address 0x1000. -/
def record1 : SRec := { serial := 1, haddr := 0x1000, len := 128, ring := 0, count := 0, ident := 1, split := false }

/-- A tile that holds the record, with the first line of its stream holding the 64 B number `v`. -/
def streaming (v : Nat) : Tile := { Tile.init with recs := [record1], serial := 1, lines := [⟨1, 0, some (some ⟨some (BitVec.ofNat 256 v), some (BitVec.ofNat 256 (v / 2 ^ 256))⟩), false⟩] }

/-- StreamRecordsAndLines: a record on its way; a request with prefetching on, with it off, and a prediction; a line that returns. -/
theorem wit_streams :
    let come := { card with recsOut := [(0, record1)] }
    let on := (withTile 0 (streaming 0)).wr (tileB 0) TILE_SF_CTRL_DEPTH 4 |>.raise (tileB 0) TILE_SF_CTRL_ENABLE |>.raise (tileB 0) TILE_SF_CTRL_SPEC
    let off := (withTile 0 { (streaming 0) with lines := [] }).wr (tileB 0) TILE_SF_CTRL_ENABLE 0
    let all := on.setTile 0 { on.tile 0 with lines := [⟨1, 0, none, false⟩, ⟨1, 1, none, false⟩] }
    come.recsOut.find? (fun r => decide (r.1 = 0)) = some (0, record1) ∧ come.tileUp 0 = true ∧ (come.tile 0).recs.length < 8 ∧ (come.tile 0).preds = [] ∧
      on.tileUp 0 = true ∧ (on.tile 0).lineFree = true ∧ on.hostLive (on.ringOwner 0) = true ∧ on.host.waiting = [] ∧ on.seamHeld (tileDie 0) 0 = false ∧ on.mayRead 1 = true ∧ (on.tile 0).nextRequest = some (record1, 1) ∧
      on.flag (tileB 0) TILE_SF_CTRL_ENABLE = true ∧ (on.tile 0).outstanding < on.rd (tileB 0) TILE_SF_CTRL_DEPTH ∧
      off.flag (tileB 0) TILE_SF_CTRL_ENABLE = false ∧ off.mayRead 1 = true ∧ off.hostLive (off.ringOwner 0) = true ∧ (off.tile 0).lineFree = true ∧ (off.tile 0).nextRequest = some (record1, 0) ∧ (off.tile 0).needsLine ≠ none ∧ (off.tile 0).outstanding = 0 ∧
      (all.tile 0).nextRequest = none ∧ (all.tile 0).recs.getLast? = some record1 ∧ all.flag (tileB 0) TILE_SF_CTRL_SPEC = true ∧ (0x1000 + 64 + 64) / 4096 = (0x1000 + 64) / 4096 ∧
      (all.tile 0).lineFree = true ∧ (all.tile 0).outstanding < all.rd (tileB 0) TILE_SF_CTRL_DEPTH := by decide +kernel
theorem wit_lineReturn : let x := { (streaming 0) with reqs := [⟨5, 0, .line 1 0⟩, ⟨6, 0, .pred 0x1080⟩] }
    x.reqOf 5 = some ⟨5, 0, .line 1 0⟩ ∧ x.reqOf 6 = some ⟨6, 0, .pred 0x1080⟩ ∧ (withTile 0 x).host.waiting = [] := by decide +kernel

/-- BundleSplitFillsQueues: a header with a barrier for engines 0 and 1 and one operation for engine 1 (R236: OPCODE 0xB at bits 31:28, slot mask, barrier mask). -/
theorem wit_split : let v := 0xB0001302 + 2 ^ 32 * 0x31
    let s := withTile 0 (streaming v)
    (s.tile 0).current = some record1 ∧ s.maySplit 0 = true ∧ (s.tile 0).parse record1 = .bundle 3 true [(1, ⟨0x31, none⟩)] 12 ∧
      (∀ e < 4, ((s.tile 0).eng e).queue.length + 2 ≤ 512) ∧ ∀ e < 4, ((s.tile 0).eng e).skip = 0 := by decide +kernel

/-- InstructionMemoryLoads: a load whose payload is there, a load held by its page, a token of engines 0 and 1, and a stream that is wholly split. -/
theorem wit_loads :
    let l : Load := ⟨3, 0, 0, 0, 0, false⟩
    let go := withTile 0 { (streaming 7) with load := some l, lines := (streaming 7).lines }
    let held := (withTile 0 { Tile.init with load := some l, inUse := [(3, 1)] }).wr (tileB 0) TILE_IMEM_CTRL_HOLD_LIMIT 5
    let tok := { Engine.init with queue := [.token 1 3 1 0] }
    let bar := withTile 0 ((Tile.init.setEngine 0 tok).setEngine 1 tok)
    let past := withTile 0 { Tile.init with recs := [{ record1 with split := true }] }
    (go.tile 0).load = some l ∧ (go.tile 0).current = some record1 ∧ go.tileUp 0 = true ∧ go.faulted 0 = false ∧ (go.tile 0).halted = false ∧ look noCount (go.tile 0).inUse 3 = 0 ∧
      (go.tile 0).readWords 1 0 16 = .inr 7 ∧ look noCount (held.tile 0).inUse 3 ≠ 0 ∧ held.rd (tileB 0) TILE_IMEM_CTRL_HOLD_LIMIT ≠ 0 ∧
      bar.tileUp 0 = true ∧ bar.faulted 0 = false ∧ (bar.tile 0).halted = false ∧ (bar.engine 0 0).atToken = some (1, 3) ∧ bar.barrierMet 0 1 3 = true ∧
      (∀ e < 4, ∀ p ∈ (bar.engine 0 e).atToken, p = (1, 3)) ∧
      (past.tile 0).recs = [{ record1 with split := true }] ∧ past.tileUp 0 = true ∧ (past.tile 0).holds 1 = false ∧ past.faulted 0 = false := by decide +kernel

/-! ### Operations at issue -/

/-- The place of an operation presented to a tile that runs no stream. -/
def here : Loc := ⟨0, 0, 0, 0⟩

/-- An operation word of fields (value, low bit), without or with an extension word of fields. -/
def opw (l : List (Nat × Nat)) (ext : Option (List (Nat × Nat)) := none) : OpWord :=
  let n := fun (l : List (Nat × Nat)) => BitVec.ofNat 64 (l.foldl (fun n x => n + x.1 * 2 ^ x.2) 0)
  ⟨n l, ext.map n⟩

/-- `w` is the next operation of engine `e` of tile 0. -/
def nextOp (s : State) (e : Nat) (w : OpWord) (loc : Loc) : Bool :=
  let y := (s.tile 0).present e w
  s.canIssue 0 e && decide (y.skipOps (y.eng e).skip e = (y, none)) && decide (y.next e = .op w loc false)

/-- Tile 0 of the card is `x`, and `w` is the next operation of engine `e`. -/
def issuable (x : Tile) (e : Nat) (w : OpWord) (loc : Loc) : Bool := nextOp (withTile 0 x) e w loc

/-- Such a state meets the premise of the operation statements. -/
theorem issuable_issues (x : Tile) (e : Nat) (w : OpWord) (loc : Loc) (h : issuable x e w loc = true) :
    Issues (withTile 0 x) 0 e w (((withTile 0 x).tile 0).present e w) loc := by
  simp only [issuable, nextOp, Bool.and_eq_true, decide_eq_true_eq] at h
  exact ⟨h.1.1, h.1.2, h.2⟩

/-- AddressLoadAndFenceOperationsAct: each operation on each engine, and the places of LDA. -/
theorem wit_address : (∀ w ∈ [opw [], opw [(0x01, 0), (15, 8), (2 ^ 32 - 1, 32)], opw [(0x02, 0), (3, 8)] (some [(2 ^ 41 - 1, 0)]), opw [(0x03, 0), (1, 8), (2, 12), (3, 16)],
      opw [(0x04, 0), (1, 8), (2, 12), (3, 16)], opw [(0x05, 0), (1, 8), (2, 12), (2 ^ 31, 32)], opw [(0x06, 0), (1, 8), (2, 12), (40, 20)], opw [(0x07, 0), (1, 8), (2, 12), (40, 20)],
      opw [(0x08, 0), (1, 8), (2, 12), (0xFFFF, 32)], opw [(0x09, 0), (8, 32)], opw [(0x09, 0), (1, 32)], opw [(0x09, 0), (0x3FFFF8, 32)], opw [(0x0D, 0), (1, 8)], opw [(0x0D, 0), (2, 8)], opw [(0x0D, 0), (3, 8)]],
      ∀ e < 5, issuable Tile.init e w here) ∧
    (withTile 0 Tile.init).mayWrite 0 0 8 8 = false ∧ (withTile 0 Tile.init).spWord 0 8 = some 0 ∧ (withTile 0 { Tile.init with spPois := [(0, true)] }).spWord 0 8 = none ∧
    (withTile 0 Tile.init).released 0 0 = true := by decide +kernel

/-- A FST that waits: it may write the first cells of the scratchpad. -/
def storing : FstJob := ⟨0, 9, false, false, false, false, 0, 0, [⟨false, 0, 6, 1, 0⟩, ⟨true, 0, 7, 64, 0⟩, ⟨false, 0, 0, 0, 0⟩, ⟨false, 0, 0, 0, 0⟩, ⟨false, 0, 0, 0, 0⟩], 0, here⟩

/-- Its write holds an LDA and an FST back, and keeps a FENCE REL. -/
theorem wit_held : let s := withTile 0 { Tile.init with fsts := [storing] }
    issuable { Tile.init with fsts := [storing] } 0 (opw [(0x09, 0), (8, 32)]) here ∧ s.mayWrite 0 0 8 8 = true ∧ s.mayWrite 0 0 0 64 = true ∧ s.released 0 0 = false := by
  decide +kernel

/-- A tile whose engine 0 is at depth `d` of instruction memory page 2, with `loops` open; its next word is `op`. -/
def routine (d : Nat) (loops : List LoopRec) (op : Nat) : Tile :=
  { (Tile.init.setEngine 0 { Engine.init with frames := List.replicate d ⟨2, 0x2000⟩, loops := loops }) with imem := [(0x400, BitVec.ofNat 64 op)], inUse := [(2, 1)] }

/-- LoopsAndCallsSteerTheEngine: a loop opened, skipped, too long and already open; one in a routine; calls at each depth and to another page; returns at depth 0, in an open loop, and one that pops. -/
theorem wit_steer :
    let lp := fun (n count : Nat) => opw [(0x0A, 0), (1, 8), (n, 16), (count, 32)]
    let call := opw [(0x0B, 0), (0x2008, 32)]
    let far := opw [(0x0B, 0), (0x3008, 32)]
    let ret := opw [(0x0C, 0)]
    let opened : Tile := Tile.init.setEngine 0 { Engine.init with loops := [⟨1, 2, 0, 0, 2⟩], buf := [⟨lp 3 1, 0, 0, false⟩] }
    (∀ w ∈ [lp 64 5, lp 64 0, lp 65 5, call, ret], issuable Tile.init 0 w here) ∧
    ((Ended ((((withTile 0 Tile.init).tile 0).present 0 (lp 3 0)).consume 0) 0 { Engine.init with skip := 3 }).skipOps 3 0).2 = none ∧
    issuable opened 0 (lp 3 1) here ∧ (((((withTile 0 opened).tile 0).present 0 (lp 3 1)).consume 0).eng 0).loops = [⟨1, 2, 0, 0, 2⟩] ∧
    (∀ d ∈ [1, 2], ∀ w ∈ [lp 3 5, call, far, ret], issuable (routine d [] w.op.toNat) 0 w ⟨0, 0, d, 0x2000⟩) ∧
    issuable (routine 1 [⟨0, 2, 1, 0x2000, 0x2010⟩] 0x0C) 0 ret ⟨0, 0, 1, 0x2000⟩ ∧
    (let y := ((withTile 0 (routine 1 [] (lp 3 5).op.toNat)).tile 0).consume 0; (y.eng 0).frames = [⟨2, 0x2008⟩] ∧ y.scan 0 3 0x2008 ≤ 0x3000 ∧ (y.eng 0).loops = [] ∧ (y.eng 0).skip = 0) := by
  decide +kernel

/-- IllegalOperationFaultsAndPassSends: an opcode of no engine, the three illegal forms, an engine that may not issue, and a PASS by each of its ends. -/
theorem wit_illegal :
    let p := fun (c reg : Nat) => opw [(0x30, 0), (reg, 8), (c, 32)]
    let x := fun (v : Nat) (pois : SMap Bool) => { (Tile.init.setEngine 3 { Engine.init with a := [(1, BitVec.ofNat 41 v)] }) with spPois := pois }
    (∀ e < 5, issuable Tile.init e (opw [(0xFF, 0)]) here ∧ needsExt e 0xFF = none) ∧
    (∀ w ∈ [opw [(1, 8)], opw [(2, 0)], opw [(2, 0)] (some [(1, 41)]), opw [(0x0D, 0)]], ∀ e < 5, issuable Tile.init e w here) ∧ State.reset.canIssue 0 0 = false ∧
    issuable (x 64 []) 3 (p 383 1) here ∧ issuable (x 8 []) 3 (p 383 1) here ∧ issuable (x 64 []) 3 (p 384 1) here ∧ issuable (x 64 [(2, true)]) 3 (p 0 1) here ∧
    (withTile 0 (x 64 [])).passFull 383 = false ∧
    nextOp ((withTile 0 (x 64 [])).setCc 383 { CcSt.init with queue := List.replicate 8 ⟨0, 0⟩ }) 3 (p 383 1) here ∧
    ((withTile 0 (x 64 [])).setCc 383 { CcSt.init with queue := List.replicate 8 ⟨0, 0⟩ }).passFull 383 = true ∧
    ((withTile 0 (x 64 [])).spCell 0 1).clean = some 0 ∧ ((withTile 0 (x 64 [(2, true)])).spCell 0 1).clean = none := by
  decide +kernel

/-! ### Engines -/

/-- MmaQueuesAndAccumulates: an accumulation of one block of zeros, and with a misplaced operand; types BF16 and a pair that Table 9-3 does not list. -/
theorem wit_mma :
    let w := fun (ta tb imm : Nat) => opw [(0x30, 0), (ta, 24), (tb, 29)] (some [(imm, 0)])
    let j : MmaJob := ⟨0, 0, 0, 0, 9, 9, 0, true, 1, 0, here, none⟩
    let full := { Tile.init with mmas := List.replicate 8 j }
    (∀ v ∈ [w 9 9 0, w 9 8 0, w 9 9 0x7FFF, w 9 9 0xFFFF], issuable Tile.init 0 v here) ∧ issuable full 0 (w 9 9 0) here ∧
    pairOk 9 9 = true ∧ pairOk 9 8 = false ∧ (∀ r ∈ j.reads, r.1 % 64 = 0 ∧ r.1 + r.2 ≤ 2 ^ 22) ∧ (∃ r ∈ ({ j with a := wrapTo 41 (-64) } : MmaJob).reads, r.1 % 64 ≠ 0 ∨ 2 ^ 22 < r.1 + r.2) ∧
    (withTile 0 { Tile.init with mmas := [j] }).tileUp 0 = true ∧ ({ Tile.init with inReset := false, mmas := [j] } : Tile).mmaReady j = true := by
  decide +kernel

/-- The store descriptor of `storing`: digit 0 has the six bits of m, digit 1 the seven of n. -/
def storeWord : Nat := 6 * 16 + 256 + 2 ^ 64 * (1 + 7 * 16 + 64 * 256)

/-- FstQueuesAndStores: a valid and an invalid descriptor, a bad type, a bad address, a span outside, poison, a full queue; the bank read. -/
theorem wit_fst :
    let w := fun (ot imm d : Nat) => opw [(0x31, 0), (ot, 21)] (some [(d, 0), (imm, 44)])
    let x := { Tile.init with sp := (List.range 40).filterMap (fun i => let b := BitVec.ofNat 8 (storeWord / 2 ^ (8 * i)); if b = 0 then none else some (64 + i, b)) }
    let dims := (List.range 5).map (fun i => digitOf (bitsOf storeWord (64 * i) 64))
    (∀ v ∈ [w 9 1 0x1000, w 1 1 0, w 9 0x80000 0, w 9 1 0x200000, w 9 2 0], issuable x 0 v here) ∧
    issuable { x with spPois := [(2, true)] } 0 (w 9 1 0) here ∧ issuable { x with fsts := [storing, storing] } 0 (w 9 1 0) here ∧ ((withTile 0 { x with spPois := [(2, true)] }).spCell 0 1).clean = none ∧
    fstTypeOk false 9 = true ∧ fstTypeOk false 1 = false ∧ (withTile 0 x).mayWrite 0 0 64 64 = false ∧ ((withTile 0 x).spCell 0 1).clean = some storeWord ∧ ((withTile 0 x).spCell 0 2).clean = some 0 ∧
    sdescOk 9 storeWord dims = true ∧ sdescOk 9 0 (List.replicate 5 (digitOf 0)) = false ∧
    spanIn ({ storing with d := 0x1000, dims := dims } : FstJob).span = true ∧ spanIn ({ storing with d := wrapTo 41 (signed 22 0x200000), dims := dims } : FstJob).span = false ∧
    (let h := (withTile 0 { x with mmaLast := [(0, some 0)] }).wr (tileB 0) TILE_HAZ_CTRL_ENABLE 1
     nextOp h 0 (w 9 1 0x1000) here ∧ TooClose h 0 0 (look noSlot (h.tile 0).mmaLast 0) 0 5 = true ∧ TooClose (withTile 0 x) 0 0 (some 0) 0 5 = false) ∧ (withTile 0 { Tile.init with fsts := [storing] }).tileUp 0 = true ∧ Tile.fstReady { Tile.init with inReset := false, fsts := [storing] } storing = true := by
  decide +kernel

/-- A conversion (function 0x08) of `len` BF16 values from cell 16, with an input synchronisation mode, to cell 32. -/
def convert (len sync : Nat) : VopJob :=
  ⟨0x08, false, false, false, 0, len, 1, ⟨1, 9, sync, 0, 1024, 0⟩, ⟨0, 0, 0, 0, 0, 0⟩, ⟨0, 0, 0, 0, 0, 0⟩, ⟨1, 9, 0, 0, 2048, 0⟩, 0, here⟩

/-- The operand descriptor of `convert len sync`, with another output kind and input base where asked. -/
def vopWord (len sync okind base : Nat) : Nat :=
  len + 2 ^ 64 * (1 + 9 * 4 + sync * 128 + base * 2 ^ 16) + 2 ^ 256 * (okind + 9 * 4 + 2048 * 2 ^ 16)

/-- A tile whose cells 1 and 2 hold the number `v`. -/
def holding (v : Nat) : Tile :=
  { Tile.init with sp := (List.range 128).filterMap (fun i => let b := BitVec.ofNat 8 (v / 2 ^ (8 * i)); if b = 0 then none else some (64 + i, b)) }

/-- VopChecksAndRuns at issue: every check in turn, a full queue, and an earlier operation that may still write the descriptor. -/
theorem wit_vopIssue :
    let w := fun (fn imm : Nat) => opw [(0x30, 0), (fn, 28)] (some [(imm, 32)])
    let good := vopWord 1 0 1 1024
    let j := fun (v : Nat) => (⟨0x08, false, false, false, 0, bitsOf v 0 20, bitsOf v 20 6 + 1, operandOf (bitsOf v 64 64) 0, operandOf (bitsOf v 128 64) 0, operandOf (bitsOf v 192 64) 0, operandOf (bitsOf v 256 64) 0, 0, here⟩ : VopJob)
    let writer := { convert 1 0 with o := ⟨1, 9, 0, 0, 64, 0⟩ }
    (∀ v ∈ [w 0x08 1, w 0 1, w 0x08 0x8000], issuable (holding good) 1 v here) ∧ arity 0x08 ≠ none ∧ arity 0 = none ∧ (withTile 0 (holding good)).mayWrite 0 1 64 64 = false ∧
    (withTile 0 { (holding good) with vops := [writer] }).mayWrite 0 1 64 64 = true ∧ ((withTile 0 { (holding good) with spPois := [(3, true)] }).spCell 0 1).clean = none ∧
    ((withTile 0 (holding good)).spCell 0 1).clean = some good ∧
    vdescClear 0 = false ∧ (vdescClear good && (j good).fmtOk && (j good).outKindOk && (j good).syncOk && (j good).placed) = true ∧
    vdescClear (good + 4 * 2 ^ 256 * 0x10) = true ∧ (j (good + 4 * 2 ^ 256 * 0x10)).fmtOk = false ∧ TooClose card 0 1 (some 0) 0 3 = false ∧
    (j (vopWord 1 0 1 1088)).placed = true ∧ (vdescClear (vopWord 1 0 1 0x20FFC0) && (j (vopWord 1 0 1 0x20FFC0)).fmtOk) = true ∧ (j (vopWord 1 0 1 0x20FFC0)).placed = false ∧
    (let v := 2 + 2 ^ 64 * (1 + 9 * 4 + 1024 * 2 ^ 16) + 2 ^ 256 * (2 + 8 * 4); (vdescClear v && (j v).fmtOk) = true ∧ (j v).outKindOk = false) ∧
    issuable { (holding good) with vops := List.replicate 4 (convert 1 0) } 1 (w 0x08 1) here := by
  decide +kernel

/-- VopChecksAndRuns with hazard checking: the input is a stream register written in the slot before. -/
theorem wit_vopClose :
    let v := 1 + 2 ^ 64 * (2 + 8 * 4) + 2 ^ 256 * (1 + 9 * 4 + 2048 * 2 ^ 16)
    let j : VopJob := ⟨0x08, false, false, false, 0, bitsOf v 0 20, bitsOf v 20 6 + 1, operandOf (bitsOf v 64 64) 0, operandOf (bitsOf v 128 64) 0, operandOf (bitsOf v 192 64) 0, operandOf (bitsOf v 256 64) 0, 0, here⟩
    let h := (withTile 0 { (holding v) with vLast := [(0, some 0)] }).wr (tileB 0) TILE_HAZ_CTRL_ENABLE 2
    nextOp h 1 (opw [(0x30, 0), (0x08, 28)] (some [(1, 32)])) here ∧ h.mayWrite 0 1 64 64 = false ∧ (h.spCell 0 1).clean = some v ∧
      (vdescClear v && j.fmtOk && j.outKindOk && j.syncOk && j.placed) = true ∧
      j.inputs.any (fun p => decide (p.2.kind = 2) && TooClose h 0 1 (look noSlot (h.tile 0).vLast p.2.vreg) j.slot 3) = true := by
  decide +kernel

/-- VopChecksAndRuns at the start: one position, several, and a wait on an empty cell. -/
theorem wit_vopStart :
    (withTile 0 { Tile.init with vops := [convert 1 0] }).tileUp 0 = true ∧ (convert 1 0).total = 1 ∧ (convert 1 0).waitsAt 0 0 = [] ∧ 0 < (convert 200 0).total ∧
    (∀ k < (convert 200 0).rows, ∀ i < (convert 200 0).perRow, (convert 200 0).waitsAt k i = []) ∧ (convert 200 0).placed = true ∧ (convert 200 0).fmtOk = true ∧ (convert 200 0).outKindOk = true ∧
    (convert 200 0).mayWrite 64 64 = false ∧ (convert 1 1).waitsAt 0 0 = [(16, false)] ∧ (withTile 0 { Tile.init with vops := [convert 1 1] }).isFull 0 16 = false := by decide +kernel

/-- The number of a descriptor for 64 INT8 elements at `base` of the scratchpad (Table 11-1). -/
def tensorWord (base : Nat) : Nat :=
  base * 2 ^ 64 + 64 * 2 ^ 128 + 64 * 2 ^ 384 + 64 * 2 ^ 416 + 2 ^ 480 +
    ([1, 2, 3, 4].foldl (fun n d => n + 2 ^ (8 * (48 + 16 * d)) + 2 ^ (8 * (52 + 16 * d))) 0)

/-- DsetAndMoveCheckAtIssue: a valid descriptor, each way in which DSET and MOVE stop or hold, and a full queue. -/
theorem wit_move :
    let d := fun (imm : Nat) => opw [(0x32, 0), (3, 12), (imm, 32)]
    let m := fun (src dst off : Nat) (perm : Nat) => opw [(0x31, 0), (src, 8), (dst, 13), (off, 39), (1, 18)] (some [(perm, 0)])
    let ok := 0 + 1 * 8 + 2 * 64 + 3 * 512 + 4 * 4096
    let j := moving 0
    let x := { (Tile.init.setEngine 2 { Engine.init with a := [(1, 0x100000)] }) with tensors := [(0, some j.src), (1, some j.dst)] }
    let good := holding (tensorWord 0)
    (∀ w ∈ [d 64, d 1, d 0x3FFFC0, d 0x3FFF80], issuable good 2 w here) ∧ (withTile 0 good).mayWrite 0 2 64 128 = false ∧ ((withTile 0 good).spCell 0 1).clean ≠ none ∧
    (withTile 0 good).dsetReason 0 (((withTile 0 good).spCell 0 1).clean.getD 0 + ((withTile 0 good).spCell 0 2).clean.getD 0 * 2 ^ 512) = 0 ∧
    (withTile 0 Tile.init).dsetReason 0 0 ≠ 0 ∧ ((withTile 0 { good with spPois := [(3, true)] }).spCell 0 1).clean = none ∧
    issuable { good with moves := [j] } 2 (d 4096) here ∧ (withTile 0 { good with moves := [j] }).mayWrite 0 2 4096 128 = true ∧
    (∀ w ∈ [m 5 1 0 ok, m 0 1 0 0, m 0 1 1 ok, m 0 0 0 ok, m 0 1 0 ok], issuable x 2 w here) ∧ issuable { x with moves := List.replicate 4 j } 2 (m 0 1 0 ok) here ∧
    look noTensor x.tensors 5 = none ∧ j.shapeOk = true ∧ j.rangeOk = true ∧ j.overlaps = false ∧ ({ j with perm := [0, 0, 0, 0, 0] } : MoveJob).shapeOk = false ∧
    ({ j with soff := 0x100000 } : MoveJob).rangeOk = false ∧ ({ j with dst := j.src } : MoveJob).overlaps = true := by decide +kernel

/-- MoveBeginCopiesItsPoints: a move within the scratchpad, one that waits for an empty cell, and one from host memory. -/
theorem wit_moveBegin : let s := fun (j : MoveJob) => withTile 0 { Tile.init with moves := [j] }
    let j := moving 0
    let pts := j.points (Tile.spad Tile.init) 0
    ((s j).tile 0).moves = [j] ∧ ((s j).tile 0).mrun = none ∧ (s j).tileUp 0 = true ∧ j.chunks = 1 ∧ 0 < j.total ∧ j.need pts = 0 :: [1] ∧
    j.gs = 0 ∧ (∀ c ∈ j.need pts, c < 65536) ∧ (pts.foldl (j.movePoint (Tile.spad Tile.init)) ({} : Moved)).patch.cells.all (fun c => decide (c.1 < 65536)) = true ∧
    (s { j with sync := 2 }).isFull 0 0 = false ∧ ((s (moving 3)).hostLive ((s (moving 3)).tileOwner 0) = true) ∧ (moving 3).need ((moving 3).points (Tile.spad Tile.init) 0) ≠ [] ∧ 0 < (moving 3).total ∧ (moving 3).sync = 0 ∧
    (∀ p ∈ Tile.init.pf, p.space ≠ 3) ∧ (s (moving 3)).seamHeld (tileDie 0) 0 = false ∧ Tile.init.pfFlight.length < 2048 := by decide +kernel

/-! ### Synchronization -/

/-- SemaphoresCountAndGrant: a signal sent and one held back, a wait; updates within, above and below the range, at a faulted tile too; a grant and none. -/
theorem wit_semaphore :
    let sig := fun (v : Nat) => opw [(0x20, 0), (31, 8), (v, 16)]
    let up := fun (d : Int) => withTile 0 { Tile.init with signals := [⟨3, 31, d, here⟩] }
    let w := withTile 0 (Tile.init.setEngine 3 { Engine.init with wait := some ⟨.sem 31 2, here⟩ })
    (∀ e < 4, issuable Tile.init e (sig 1) here ∧ issuable Tile.init e (sig 511) here ∧ issuable Tile.init e (opw [(0x21, 0), (31, 8), (255, 16)]) here ∧ (withTile 0 Tile.init).released 0 e = true) ∧
    issuable { Tile.init with fsts := [storing] } 0 (sig 1) here ∧ (withTile 0 { Tile.init with fsts := [storing] }).released 0 0 = false ∧
    (∀ d ∈ [(255 : Int), 256, -1], ((up d).tile 0).signals = [⟨3, 31, d, here⟩] ∧ (up d).tileUp 0 = true ∧ (up d).sem 0 31 = 0 ∧ (up d).faulted 0 = false) ∧
    ((up (-1)).raise (tileB 0) TILE_FAULT_VALID).faulted 0 = true ∧
    (w.setSem 0 31 2).tileUp 0 = true ∧ ((w.tile 0).eng 3).semNeed 31 = some 2 ∧ 2 ≤ (w.setSem 0 31 2).sem 0 31 ∧ w.sem 0 31 = 0 ∧ (∀ e < 3, ((w.tile 0).eng e).semNeed 31 = none) := by decide +kernel

/-- StreamCountersAndFullEmptyWaits: an update that holds, one that fits and one that does not; waits that fit and do not; a condition met and one not met. -/
theorem wit_counter :
    let up := fun (k : Nat) => opw [(0x22, 0), (15, 8), (k, 32)]
    let wt := fun (k : Nat) => opw [(0x23, 0), (15, 8), (k, 32)]
    let fe := fun (a : Nat) => opw [(0x24, 0), (a, 32)]
    let n := fun (s : State) => s.wr (tileB 0) (TILE_SC_N_N.at (16 * 15)) 4
    let met := n (withTile 0 (Tile.init.setEngine 2 { Engine.init with wait := some ⟨.sc 15 true 4, here⟩ }))
    (∀ w ∈ [up 4, up 5, wt 4, wt 5, fe 0x3FFFC0, fe 0x400000, fe 1], issuable Tile.init 2 w here) ∧ (n card).scN 0 15 = 4 ∧ (n card).scP 0 15 = 0 ∧ (n card).scC 0 15 = 0 ∧ occupancy 4 0 ≤ 4 ∧ 4 < occupancy 5 0 ∧
    card.released 0 2 = true ∧ issuable { Tile.init with fsts := [storing] } 0 (up 1) here ∧ (withTile 0 { Tile.init with fsts := [storing] }).released 0 0 = false ∧
    met.tileUp 0 = true ∧ ((met.tile 0).eng 2).wait = some ⟨.sc 15 true 4, here⟩ ∧ 4 + occupancy (met.scP 0 15) (met.scC 0 15) ≤ met.scN 0 15 ∧ ((met.tile 0).eng 1).wait = none := by decide +kernel

/-- Tile 0 in group 7 with engine 1 as an arriver, and that engine as `g`. -/
def inChorus (g : Engine) : State :=
  ((withTile 0 (Tile.init.setEngine 1 g)).wr chorusB (CHORUS_PART_TILES.at (0x40 * 7)) 1).wr (tileB 0) TILE_CHORUS_ENG_ENG (2 ^ 29)

/-- ChorusArrivesWaitsAndCompletes: each mode with each arrival, inside and outside the group, and a broken group; a phase that is complete, with a tile that waits, and one that is not. -/
theorem wit_chorus :
    let w := fun (m : Nat) => opw [(0x25, 0), (7, 8), (m, 11)]
    let arr := fun (a : Arrival) => Engine.init.setArrival 7 a
    let broken := (inChorus (arr .broken)).raise chorusB (CHORUS_CTRL_BROKEN.at 56)
    (∀ m ∈ [1, 2, 3], ∀ a ∈ [Arrival.absent, .registered, .completed, .broken], issuable (Tile.init.setEngine 1 (arr a)) 1 (w m) here ∧ (arr a).arrival 7 = a) ∧
    (inChorus (arr .absent)).inGroup 7 0 = true ∧ (inChorus (arr .absent)).mustArrive 7 0 1 = true ∧ (inChorus (arr .absent)).broken 7 = false ∧ (inChorus (arr .absent)).canIssue 0 1 = true ∧
    card.inGroup 7 0 = false ∧ broken.broken 7 = true ∧ broken.canIssue 0 1 = true ∧ (inChorus (arr .absent)).released 0 1 = true ∧
    ((inChorus (arr .absent)).modTile 0 (fun x => { x with vops := [convert 1 0] })).released 0 1 = false ∧
    (inChorus (arr .absent)).phaseMet 7 = false ∧ card.phaseMet 7 = true ∧
    (let s := inChorus { (arr .registered) with wait := some ⟨.chorus 7 3, here⟩ }
     s.phaseMet 7 = true ∧ s.tileKeys.Nodup ∧ (∀ k ∈ s.tileKeys, isSite k = true) ∧ (s.engine 0 1).wait = some ⟨.chorus 7 3, here⟩) := by decide +kernel

/-- DeadlockDetectorFires: a tile whose engines wait for nothing that comes, for the first time and again, and with ACTION 1; and a tile whose engines have work. -/
theorem wit_deadlock :
    let x := Tile.init.setEngine 3 { Engine.init with wait := some ⟨.sem 0 1, here⟩ }
    let s := (withTile 0 x).raise (tileB 0) TILE_DLD_CTRL_ENABLE |>.wr (tileB 0) TILE_DLD_CTRL_ACTION 0
    let f := s.wr (tileB 0) TILE_DLD_CTRL_ACTION 1
    s.tileUp 0 = true ∧ (s.tile 0).halted = false ∧ (s.tile 0).dldDone = false ∧ s.flag (tileB 0) TILE_DLD_CTRL_ENABLE = true ∧ s.noRequests 0 = true ∧ (∀ e < 4, 2 ≤ s.stuckCause 0 e ∨ (s.engine 0 e).queue = []) ∧
    2 ≤ s.stuckCause 0 3 ∧ (∀ e < 3, s.stuckCause 0 e < 2) ∧ s.flag (tileB 0) TILE_DLD_STAT_FIRED = false ∧ (s.raise (tileB 0) TILE_DLD_STAT_FIRED).flag (tileB 0) TILE_DLD_STAT_FIRED = true ∧
    f.rd (tileB 0) TILE_DLD_CTRL_ACTION = 1 ∧ s.rd (tileB 0) TILE_DLD_CTRL_ACTION ≠ 1 ∧ f.faulted 0 = false ∧ (f.stuckOn 0 3).isSome = true ∧ card.stuckCause 0 3 < 2 := by decide +kernel

/-! ### The host link -/

/-- A card reset and out of it: the link is down and can train. -/
def unlinked : State := card.wr hostB HOST_LINK_STAT_DL_UP 0

/-- HostLinkComesUpAndGoesDown: a link that can train, one that cannot, one that is up with nothing asked, one with a secure stream, and a record transmitted from ring 3. -/
theorem wit_link : unlinked.dlUp = false ∧ unlinked.canTrain = true ∧ State.reset.canTrain = false ∧ card.dlUp = true ∧ NothingAsked card ∧
    (let s := { card with host := { card.host with ide := [(3, ⟨.secure, 1⟩)] } }
     s.dlUp = true ∧ NothingAsked s ∧ (look (fun _ => ⟨.clear, 0⟩) s.host.ide 3).st = .secure) ∧
    (let l : Live := ⟨0, 0, some ⟨0, 0, 0⟩, none, false⟩
     let s := { card with host := { card.host with sent := [(3, l)] } }.setRing 3 { RingSt.init with st := .running, sentAt := 1 }
     s.host.sent = [(3, l)] ∧ (s.ring 3).sentAt = l.count + 1) := by unfold NothingAsked Settled; decide +kernel

/-- The card with event ring `f` enabled, of 256 records, and with 128 of them free. -/
def evReady (f : Nat) (e : EvSt) : State :=
  ((card.wr hostB (EVT_CFG_LOG2SIZE.at (0x20 * f)) 8).wr hostB (EVT_CFG_ENABLE.at (0x20 * f)) 1).setEv f e

/-- BusMasterEnableAndDecoder: every function without and with a waiting record; a pending interrupt; a decoder that is absent, unlocked and locked. -/
theorem wit_busMaster : let c : CoalEntry := ⟨3, 0x0601, 1, 0, 0, 0, false, false⟩
    card.host.waiting = [] ∧ (card.ev 0).waits = false ∧ card.evOn 0 = false ∧ (∀ e < 65, bit (card.msixWord 0 (pendOff e)) (e % 64) = false) ∧
    (∀ f < 9, let s := evReady f { EvSt.init with coal := [c] }
      s.dlUp = true ∧ s.evOn f = true ∧ (s.ev f).cuts = [] ∧ (s.ev f).coal = [c] ∧ c.window = false ∧ 0 < s.evRoom f ∧ (s.ev f).roomOut = none) ∧
    (∀ h, card.host.hdm = some h → h.lock = false) ∧
    (let s := { card with host := { card.host with hdm := some ⟨0, true⟩ } }; ∃ h ∈ s.host.hdm, h.lock = true) ∧ card.canSnoop = true := by
  refine ⟨by decide +kernel, by decide +kernel, by decide +kernel, by decide +kernel, by decide +kernel, ?_, by decide +kernel, by decide +kernel⟩
  intro h e
  rw [show card.host.hdm = none from by decide +kernel] at e
  cases e
theorem wit_msixPending : let s := { card with host := { card.host with msix := [(0x2000 * 1 + pendOff 64, 1), (0x2000 * 1 + 16 * 64 + 8, 7)] } }
    (∀ d < 65, bit (s.msixWord 1 (pendOff d)) (d % 64) = decide (d = 64)) ∧ bit (s.msixWord 1 (16 * 64 + 8)) 32 = false ∧ s.host.waiting = [] ∧ (s.ev 1).waits = false := by
  decide +kernel

/-- The card with CC 0 busy: an escalated refresh goes first; and with its pool full as well. -/
def busyPool (n : Nat) (s : State) : State :=
  s.setCc 0 { CcSt.init with maint := [.neighbour 0 0 0 0 true], pool := List.replicate n ⟨⟨.tile, 0⟩, 0, none, 0, .plain⟩ }

/-- A request whose bursts have not failed runs them. -/
theorem runs_of {s : State} {r : Req} (h : Kept s r.key true ∧ Kept s r.key false) : r.runs s := by
  unfold Req.runs
  cases r.write with
  | none => exact h.2
  | some w => exact ⟨h.1, fun _ => h.2⟩

/-- The card with a committed decoder. -/
def decoding : State := { card with host := { card.host with hdm := some ⟨2 ^ 40, true⟩ } }

/-- HostAccessesReachDeviceMemory: an access inside and outside the decoder and the views, before and after READY, in D3hot, the directory not full; one that its CC cannot serve in this slot, and one that it cannot take. -/
theorem wit_hostAccess :
    let s := decoding
    let r : Req := hostReq s 1 64 none (.bar 1)
    s.canSnoop = true ∧ s.hdmAt (2 ^ 40 + 64) = some 64 ∧ s.ready = true ∧ s.host.d3hot = false ∧ s.decodeDpa 64 = .at 64 ∧ s.host.dir.length < 524288 ∧ s.hdmAt 0 = none ∧
    (s.wr cardB BRUP_STAT_READY 0).ready = false ∧ s.inBar4 0 64 = true ∧ s.inBar4 0 (2 ^ 40) = false ∧ s.bar4At 0 64 = some 64 ∧ s.inBar4 1 0 = true ∧ s.bar4At 1 0 = none ∧
    (s.wr hostB (HOST_PART_STACKS_STACKS.at 0) 1).bar4At 1 64 = some 64 ∧ Later (busyPool 0 s) r ∧
    Served (busyPool 300 s) 64 ∧ (busyPool 300 s).mayTake ⟨.host, 1⟩ 64 = false := by
  unfold Later Served PickedNow Untraced; decide +kernel
theorem wit_hostAccess_once : ∀ w, w = none ∨ w = some allZero → AtOnce decoding (hostReq decoding 0 64 w .mem) := by
  rintro w (rfl | rfl)
  all_goals exact ⟨by unfold Served; decide +kernel, by decide +kernel, by unfold PickedNow; decide +kernel, runs_of (by unfold Kept; decide +kernel), by unfold Untraced; decide +kernel,
    by unfold Sound; decide +kernel⟩

/-- The card with one outstanding host read of 64 B by `u`, tag 5. -/
def asking (u : ReadUser) : State := { card with host := { card.host with reads := [⟨5, u, 0, 64, 64⟩] } }

/-- A COPY descriptor that runs: its live entry on ring 3. -/
def copying : State :=
  (asking (.copy 3 0)).setRing 3 { RingSt.init with st := .running, live := [⟨0, BitVec.ofNat 512 3, none, some ⟨0, 0, [], 1, []⟩, false⟩] }

/-- HostAnswersAndBiasChanges: answers with and without a request, of the right and the wrong length, dropped ones, a COPY's, a move's; responses; a bias change that starts, one refused, one that completes. -/
theorem wit_answers :
    let r := fun (u : ReadUser) => (⟨5, u, 0, 64, 64⟩ : HostRead)
    let mv : MRun := { begun (moving 3) with asked := true, wants := [1, 2] }
    let s := (asking (.move 0)).setTile 0 { Tile.init with inReset := false, mrun := some mv }
    let q : Snoop := ⟨2, true, []⟩
    let ask := { card with host := { card.host with snoops := [q], dir := [2] } }
    let job := fun (sh : Bool) => { card with host := { card.host with biasJob := some ⟨7, sh⟩, bias := if sh then [] else [(7, true)] } }
    let wb : Req := hostReq card 0 (64 * 2) (some (.whole Cell64.zero)) .plain
    card.host.reads.find? (fun r => decide (r.tag = 5)) = none ∧ (asking .dropped).host.reads.find? (fun r => decide (r.tag = 5)) = some (r .dropped) ∧ (asking .dropped).host.waiting = [] ∧
    2 * (r .dropped).units = 2 ∧ copying.host.reads.find? (fun x => decide (x.tag = 5)) = some (r (.copy 3 0)) ∧ (copying.copyRun 3 0).isSome = true ∧
    s.host.reads.find? (fun x => decide (x.tag = 5)) = some (r (.move 0)) ∧ (s.tile 0).mrun = some mv ∧ mv.wants.filter (fun w => !decide (1 = w)) ≠ [] ∧
    card.host.snoops.find? (fun q => decide (q.line = 2)) = none ∧ ask.host.snoops.find? (fun q => decide (q.line = 2)) = some q ∧ q.waiters = [] ∧ Settled ask ∧ ask.flag hostB FLT_MOLT_STAT_BUSY = false ∧ ask.host.biasJob = none ∧
    card.host.cplOff = false ∧ ({ card with host := { card.host with cplOff := true } } : State).host.cplOff = true ∧ card.seamHeld 0 (tileDie 0) = false ∧
    (card.raise seamB SEAM_STAT_HOLD).seamHeld 0 (tileDie 256) = true ∧ ask.molting (keyChan (64 * 2)) = false ∧ ((ask.raise hostB FLT_MOLT_STAT_BUSY).wr hostB FLT_MOLT_STAT_ACTIVE 0).molting (keyChan (64 * 2)) = true ∧
    Later (busyPool 0 ask) wb ∧ Served (busyPool 300 ask) (64 * 2) ∧ (busyPool 300 ask).mayTake ⟨.host, 0⟩ (64 * 2) = false ∧ Writable card (hostB + 0x300) ∧ card.flag hostB HOST_BIAS_STAT_BUSY = false ∧ look noMark card.host.bias 7 = false ∧
    card.windowOpen = true ∧ (card.wr (ccB 0) CC_ILV_CTRL_ENABLE 0).windowOpen = false ∧ (card.regionLines 7 = []) ∧ look noMark { card.host with bias := [(7, true)] }.bias 7 = true ∧
    (job true).regionBusy 7 = false ∧ ((job true).setCc 0 { CcSt.init with pool := [⟨⟨.tile, 0⟩, 0, none, 0, .plain⟩] }).regionBusy 0 = true ∧ (job false).regionLines 7 = [] ∧
    (Settled (job true) ∧ Settled (job false) ∧ (job true).tileKeys.Nodup ∧ (job false).tileKeys.Nodup) := by
  unfold Later Served PickedNow Untraced Writable Settled; decide +kernel
theorem wit_writeBack : AtOnce { card with host := { card.host with snoops := [⟨2, true, []⟩], dir := [2] } } (hostReq card 0 (64 * 2) (some (.whole Cell64.zero)) .plain) :=
  ⟨by unfold Served; decide +kernel, by decide +kernel, by unfold PickedNow; decide +kernel, runs_of (by unfold Kept; decide +kernel), by unfold Untraced; decide +kernel,
    by unfold Sound; decide +kernel⟩

/-! ### Resets and rings -/

/-- ResetsReturnTilesToTheirStart: a tile, every partition and every function with no pass in them; a reset that waits for a pass, and one whose passes have ended; a card in D3hot; a link that is down. -/
theorem wit_resets :
    Writable card (hostB + 0x6030) ∧ card.flag hostB FLT_RST_STAT_BUSY = false ∧ card.latest (hostB + 0x6030) < 2 ^ 32 ∧ card.enabled 1 = true ∧ (∀ k < 9, NoPass card k) ∧ card.dlUp = true ∧
    card.host.reads ++ card.host.waiting = [] ∧ card.host.d3hot = false ∧ card.host.resetting = [] ∧ card.passesEnded 0 = true ∧ (busyCc (running 1)).passesEnded 0 = false ∧ ({ card with host := { card.host with d3hot := true } } : State).dlUp = true ∧ unlinked.dlUp = false := by
  refine ⟨?_, by decide +kernel, by decide +kernel, by decide +kernel, ?_, by decide +kernel, by decide +kernel, by decide +kernel, by decide +kernel, by decide +kernel, by decide +kernel, by decide +kernel, by decide +kernel⟩
  · unfold Writable; decide +kernel
  · intro k _ c _ _
    exact ⟨rfl, rfl, rfl, rfl⟩

/-- Ring 5 of PF0, 16 entries, as `r`. -/
def ring5 (r : RingSt) : State := (card.wr hostB (RING_CFG_LOG2SIZE.at (0x40 * 5)) 4).setRing 5 r

/-- The number of a doorbell: tail and SEQ. -/
def bell (tail seq : Nat) : Word := BitVec.ofNat 64 (tail + seq * 2 ^ 32)

/-- A descriptor with these SEQ and PHASE. -/
def seqDesc (seq phase : Nat) : BitVec 512 := packet [(seq, 32), (phase, 8)]

/-- RingsTakeDoorbellsAndCommands: doorbells that are ignored, taken and inconsistent; each command in each state. -/
theorem wit_rings :
    let run : RingSt := { RingSt.init with st := .running, acc := 2 ^ 32 - 1 }
    let s := ring5 run
    let seq := fun (d : Word) => (bitsOf d.toNat 32 32 + 2 ^ 32 - run.acc) % 2 ^ 32
    (ring5 RingSt.init).isRunning 5 = false ∧ s.isRunning 5 = true ∧ seq (bell 2 1) = 2 ∧ bitsOf (bell 2 1).toNat 0 16 = (run.tail + 2) % s.ringSize 5 ∧
    (run.acc + 2 ^ 32 - s.ringDone 5) % 2 ^ 32 + 2 ≤ s.ringSize 5 ∧ seq (bell 0 (2 ^ 32 - 1)) = 0 ∧ bitsOf (bell 3 1).toNat 0 16 ≠ (run.tail + 2) % s.ringSize 5 ∧ s.ringOwner 5 = 0 ∧
    Writable s (hostB + 0x4020 + 0x40 * 5) ∧ s.ready = true ∧ run.inflight = 0 ∧ run.cutDue = .no ∧ s.hostLive (s.ringOwner 5) = true := by
  unfold Writable; decide +kernel

/-- RingsTakeDoorbellsAndCommands: a read of three descriptors of which two match, one of which the last re-read gives nothing, and a ring with none to read. -/
theorem wit_fetch :
    let s := ring5 { RingSt.init with st := .running, acc := 2, tail := 3 }
    let d := [seqDesc (s.seqOf 5 0) (s.phaseOf 5 0), seqDesc (s.seqOf 5 1) (s.phaseOf 5 1), seqDesc 77 0]
    let again := ring5 { RingSt.init with st := .running, acc := 2, tail := 3, short := 3, rereads := 7 }
    s.mayFetch 5 3 = true ∧ (s.ring 5).short = 0 ∧ s.unread 5 = true ∧ s.readSize 5 = 3 ∧ leading s 5 0 (d.take 3) = 2 ∧ again.mayFetch 5 3 = true ∧ (again.ring 5).short ≠ 0 ∧
    leading again 5 0 [seqDesc 77 0, 0, 0] = 0 ∧ leading again 5 0 d = 2 ∧ (ring5 { RingSt.init with st := .running, acc := 2 ^ 32 - 1 }).unread 5 = false := by decide +kernel

/-- A descriptor of type `ty` with fields (value, low bit). -/
def descOf (ty : Nat) (l : List (Nat × Nat)) : BitVec 512 := packet ((ty, 0) :: l)

/-- Ring 5 running with the one accepted descriptor `d`. -/
def fetchedOn (d : BitVec 512) : State := ring5 { RingSt.init with st := .running, acc := 0, tail := 1, fetched := [(0, d)], fetchAt := 1 }

/-- DescriptorsStart: one of each type; a STREAM for tiles 1 and 2; a FENCE with no entry and with one of its own ring; a reserved type. -/
theorem wit_starts :
    let stream := fun (t : Nat) => descOf 1 [(0x1000, 128), (64, 192), (t, 224)]
    let ok := fun (ty : Nat) (d : BitVec 512) => Starts (fetchedOn d) 5 ty 0 d []
    ok 0 (descOf 0 []) ∧ ok 1 (stream 1) ∧ (fetchedOn (stream 1)).unavailable 5 1 = 0 ∧ ok 1 (stream 2) ∧ (fetchedOn (stream 2)).unavailable 5 2 ≠ 0 ∧ ok 4 (descOf 4 [(8, 128), (7, 192)]) ∧
    ok 5 (descOf 5 []) ∧ (∀ i < 6, (fetchedOn (descOf 5 [])).badEntry 5 (descOf 5 []) i = false) ∧ ok 5 (descOf 5 [(5 + 128, 128 + 320)]) ∧
    (fetchedOn (descOf 5 [])).badEntry 5 (descOf 5 [(5 + 128, 128 + 320)]) 5 = true ∧ (∀ j < 5, (fetchedOn (descOf 5 [])).badEntry 5 (descOf 5 [(5 + 128, 128 + 320)]) j = false) ∧
    (fetchedOn (descOf 6 [])).mayStart 5 (descOf 6 []) = true ∧ invalidAt (descOf 6 []) = some 0 ∧ (card.ring 5).fetched = [] := by
  unfold Starts; decide +kernel

/-- CopyAndFillMoveTheirUnits: two units of stack 0 filled, copied to two others, and copied from the host. -/
theorem wit_copy :
    let fill := descOf 3 [(2 ^ 40, 128), (7, 192), (128, 256)]
    let copy := descOf 2 [(2 ^ 40, 128), (2 ^ 40 + 4096, 192), (128, 256), (3, 288)]
    let host := descOf 2 [(0x1000, 128), (2 ^ 40, 192), (128, 256), (2, 288)]
    Starts (fetchedOn fill) 5 3 0 fill [] ∧ UnitsAt (fetchedOn fill) 5 0 (Desc.at_ fill 16 8) (Desc.len fill) true (fun i => 64 * i) ∧
    Starts (fetchedOn copy) 5 2 0 copy [] ∧ Desc.fromDev copy = true ∧ Desc.toDev copy = true ∧ UnitsAt (fetchedOn copy) 5 0 (Desc.at_ copy 16 8) (Desc.len copy) false (fun i => 64 * i) ∧
    UnitsAt (fetchedOn copy) 5 0 (Desc.at_ copy 24 8) (Desc.len copy) true (fun i => 4096 + 64 * i) ∧ (∀ i < 2, ∀ j < 2, 64 * i ≠ 4096 + 64 * j) ∧
    Starts (fetchedOn host) 5 2 0 host [] ∧ Desc.fromDev host = false ∧ (fetchedOn host).hostLive ((fetchedOn host).ringOwner 5) = true ∧ (fetchedOn host).host.waiting = [] ∧ (fetchedOn host).mayRead 64 = true := by
  refine ⟨?_, ?_, ?_, ?_, ?_, ?_, ?_, ?_, ?_, ?_, ?_, ?_, ?_⟩
  all_goals first | decide +kernel | (unfold Starts; decide +kernel) | (unfold UnitsAt Served Idle Calm Untraced Kept Sound; decide +kernel)

/-- SignalsFencesAndRecordsFollow: a signal due with the host live, with the link down, and with Bus Master Enable 0; a fence that is done, waits, and is orphaned; a record with and without its interrupt, and a link-lost one before and after RESUME. -/
theorem wit_follow :
    let live := fun (d : BitVec 512) (e : Option Completion) => (⟨0, d, e, none, false⟩ : Live)
    let on := fun (l : Live) => ring5 { RingSt.init with st := .running, live := [l] }
    let sig := live (descOf 4 [(8, 128)]) none
    let fence := live (descOf 5 [(128 + 3, 128), (5, 160)]) none
    let quiet := { on sig with host := { (on sig).host with bme := [] } }
    let due := fun (s : State) (i : Nat) => (Desc.entry fence.desc i).1 = true ∧ s.reached (Desc.entry fence.desc i).2.1 (Desc.entry fence.desc i).2.2 = false
    let halted := (on fence).setRing 3 { RingSt.init with st := .halted }
    let rec_ := live (descOf 0 [(1, 9)]) (some ⟨1, 0, 7⟩)
    ((on sig).ring 5).dueSignal = some sig ∧ (on sig).hostLive ((on sig).ringOwner 5) = true ∧ ((on sig).wr hostB HOST_LINK_STAT_DL_UP 0).dlUp = false ∧ quiet.dlUp = true ∧ quiet.bme (quiet.ringOwner 5) = false ∧
    ((on fence).ring 5).live.find? (fun l => l.done.isNone && decide (Desc.ty l.desc = 5)) = some fence ∧ due (on fence) 0 ∧ (∀ i < 6, ¬ due ((on fence).setRing 3 { RingSt.init with sentAt := 6 }) i) ∧
    ((on fence).setRing 3 { RingSt.init with st := .running } |>.ring 3).st ≠ .halted ∧ due halted 0 ∧ (halted.ring 3).st = .halted ∧ (halted.ring 3).inflight = 0 ∧
    ((on rec_).ring 5).live = [rec_] ∧ (on rec_).hostLive ((on rec_).ringOwner 5) = true ∧ Desc.irq rec_.desc = true ∧ Desc.irq (descOf 0 []) = false ∧ (on rec_).ringRd 5 RING_CFG_IRQ_ALL = 0 ∧
    bit (({ on rec_ with host := { (on rec_).host with msix := [(16 * 6 + 8, 0)] } } : State).msixWord 0 (16 * (1 + 5) + 8)) 32 = false ∧
    look noMark ({ on rec_ with host := { (on rec_).host with msixOn := [(0, true)] } } : State).host.msixOn 0 = true ∧
    (((on rec_).wr hostB (RING_CFG_STOP_ON_ERR.at (0x40 * 5)) 1).ringRd 5 RING_CFG_STOP_ON_ERR = 1) ∧ rec_.lost = false ∧
    (let l : Live := { rec_ with lost := true }
     let r : RingSt := { RingSt.init with st := .running, live := [l], flush := true }
     ((ring5 r).ring 5).live = [l] ∧ ((ring5 r).ring 5).flush = true ∧ l.done.isSome = true ∧ (on l).hostLive 0 = true ∧ ((on l).ring 5).flush = false) := by decide +kernel

/-! ### Events, cuts, faults and Molt -/

/-- EventsAndCutsReachTheirRings: a report to a ring that takes it, one that coalesces and one that cannot; the log before and after EV0; a held entry; doorbells; a cut that is ready and one that is not. -/
theorem wit_events :
    let r : Report := ⟨ccSrc 0, 0x0601, [0, 3], 0⟩
    let takes := (evReady 0 EvSt.init).emit (ccSrc 0) 0x0601 [0, 3]
    let soon := (evReady 0 { EvSt.init with recent := [(ccSrc 0, 0x0601, 0)] }).wr hostB FLT_CTRL_COAL_WIN 10
    let sized := card.wr hostB (EVT_CFG_LOG2SIZE.at 0) 8
    let logs := { sized with brup := { sized.brup with logging := true, log := [⟨ccSrc 0, 0x0684, [2], 0⟩] } }
    let held : CoalEntry := ⟨3, 0x0601, 1, 0, 0, 0, false, true⟩
    let win := evReady 8 { EvSt.init with coal := [held] }
    let cut : Cut := ⟨1, 0, 0, [], 0, 0⟩
    card.reports = [] ∧ takes.reports = [r] ∧ Oldest takes r ∧ Takes takes 0 ∧ 0 ∈ takes.evRings r ∧ Takes soon 0 ∧ Soon soon 0 r ∧ ¬ Takes card 0 ∧ card.brup.logging = false ∧ logs.brup.logging = true ∧ logs.brup.log.length < 256 ∧
    (∀ k < 9, Writable card (hostB + 0x5108 + 0x20 * k) ∧ card.evOn k = false ∧ (card.ev k).waits = false) ∧ card.pendMask = [] ∧ card.ready = true ∧ logs.hostLive 0 = true ∧ logs.brup.logCoal = [] ∧
    logs.brup.log.length < logs.evSize 0 ∧ (∀ r ∈ logs.brup.log, coalesces r.code = false) ∧
    (win.ev 8).coal.find? (fun c => decide (c.src = 3 ∧ c.code = 0x0601) && c.window) = some held ∧ ¬ Takes win 1 ∧ win.evSize 8 = 256 ∧
    ({ card with cuts := [cut] } : State).cuts.find? (State.cutReady { card with cuts := [cut] }) = some cut ∧ card.cuts.find? card.cutReady = none := by
  unfold Takes Oldest Soon Writable; decide +kernel

/-- EventsAndCutsReachTheirRings: a log that is full, a ring without room that a doorbell gives some, a cut of a ring that is halted for it, with room for its run and without, and an older run that waits. -/
theorem wit_cuts :
    let full := evReady 0 { EvSt.init with count := 255, roomOut := some 4, coal := [⟨3, 0x0601, 1, 0, 0, 0, false, false⟩] }
    let cut : Cut := ⟨1, 0, 0, [5], 0, 9⟩
    let due := fun (s : State) => { s.setRing 5 { RingSt.init with st := .halted, cutDue := .unpublished } with cuts := [cut] }
    let fit := due (evReady 0 EvSt.init)
    let wait := due (evReady 0 { EvSt.init with cuts := [⟨1, 3, [], []⟩] })
    let log := { card with brup := { card.brup with logging := true, log := List.replicate 256 ⟨ccSrc 0, 0x0684, [2], 0⟩ } }
    256 ≤ log.brup.log.length ∧ full.evRoom 0 = 0 ∧ (full.ev 0).roomOut = some 4 ∧ full.evLive 0 = true ∧ (full.ev 0).waits = true ∧ 7 < full.evSize 0 ∧
      0 < (7 + full.evSize 0 - (full.ev 0).count % full.evSize 0 + full.evSize 0 - 1) % full.evSize 0 ∧
      fit.cuts.find? fit.cutReady = some cut ∧ Takes fit 0 ∧ (fit.ev 0).roomOut = none ∧ (fit.cutFor 0 (fit.cutRecs (fit.cutNo + 1) cut)).length ≤ fit.evRoom 0 ∧
      (fit.ring 5).cutDue = .unpublished ∧ (∀ d ∈ fit.cuts.erase cut, 5 ∉ d.rings) ∧ wait.cuts.find? wait.cutReady = some cut ∧ ¬ Takes wait 0 ∧ (wait.ring 5).cutDue = .unpublished := by
  unfold Takes; decide +kernel

/-- BucketsAndLinksFollowTheirErrors: replays below and at the threshold, an eighth that fails at full and at half width, and a retraining that is due and one that is not; a tile that is up and one that is not. -/
theorem wit_buckets :
    let low := card.wr hostB FLT_BKT_CTRL_TH 1000
    let high := card.wr hostB FLT_BKT_CTRL_TH 1
    let half := card.raise hostB FLT_BKT_SEAM_HALF
    let hold := card.raise seamB SEAM_STAT_HOLD
    (¬ (low.rd hostB FLT_BKT_CTRL_TH ≤ satAdd 16 (low.rd hostB FLT_BKT_HOST_LEVEL) (low.rd hostB FLT_BKT_CTRL_W_RP))) ∧ high.rd hostB FLT_BKT_CTRL_TH ≤ satAdd 16 (high.rd hostB FLT_BKT_HOST_LEVEL) (high.rd hostB FLT_BKT_CTRL_W_RP) ∧
    high.host.hostTrip = false ∧ high.host.seamTrip = false ∧ Writable card (hostB + 0x6018) ∧ max 1 (min 8 8) = 8 ∧ card.flag hostB FLT_BKT_SEAM_HALF = false ∧ half.flag hostB FLT_BKT_SEAM_HALF = true ∧
    half.flag hostB FLT_CARD_CARD_FAULT = false ∧ card.flag seamB SEAM_STAT_HOLD = false ∧ hold.flag seamB SEAM_STAT_HOLD = true ∧ hold.flag hostB FLT_CARD_CARD_FAULT = false ∧ Settled hold ∧
    card.tileUp 0 = true ∧ card.tileUp 2 = false ∧ card.dieUp (chanDie 383) = true ∧ State.reset.dieUp 0 = false := by
  unfold Writable Settled; decide +kernel

/-- MoltRetiresItsChannel: a request taken and one refused; a Molt that runs at once, one that asks for a line first and one that goes on; a commit that is held, stays held, and is written. -/
theorem wit_molt :
    let gone := card.raise (ccB 9) CC_STATUS_RETIRED
    let due := { card with molt := { queue := [⟨9, 2, 0⟩] } }
    let busy := (card.raise hostB FLT_MOLT_STAT_BUSY).wr hostB FLT_MOLT_STAT_ACTIVE 9
    let asks := { due with host := { due.host with dir := [9 * 2 ^ 25] } }
    let nv := { card with brup := { card.brup with nv := [.commit 9 false] } }
    let lock := nv.raise pwrB SUPPLY_STAT_LOCKOUT
    Writable card (hostB + 0x6020) ∧ gone.retired 9 = true ∧ card.retired 9 = false ∧ card.molting 9 = false ∧ card.molt.queue = [] ∧ card.flag hostB FLT_MOLT_STAT_BUSY = false ∧
    due.molt.queue = [⟨9, 2, 0⟩] ∧ due.cc 9 = CcSt.init ∧ CcSt.init.queue = [] ∧ CcSt.init.ingress = [] ∧ CcSt.init.active = none ∧ CcSt.init.pool = [] ∧ due.dirLines 9 = [] ∧
    asks.dirLines 9 ≠ [] ∧ asks.canSnoop = true ∧ asks.host.snoops.length + (asks.dirLines 9).length ≤ 256 ∧ busy.flag hostB FLT_MOLT_STAT_BUSY = true ∧ busy.rd hostB FLT_MOLT_STAT_ACTIVE = 9 ∧ busy.dirLines 9 = [] ∧
    Settled due ∧ Settled busy ∧ nv.brup.nv = [.commit 9 false] ∧ lock.flag pwrB SUPPLY_STAT_LOCKOUT = true ∧ (lock.raise hostB FLT_MOLT_STAT_HELD).flag hostB FLT_MOLT_STAT_HELD = true ∧ lock.flag hostB FLT_MOLT_STAT_HELD = false ∧
    nv.flag pwrB SUPPLY_STAT_LOCKOUT = false ∧ (∀ o ∈ card.brup.nv, o ≠ .commit 9 false) := by
  unfold Writable Settled; decide +kernel

/-! ### Power and temperature -/

/-- Readings of 45 rails: board power `dw` on IN48, in 0.1 W. -/
def readings (dw : Nat) : List RailSample := ⟨48000, dw, 48000⟩ :: ⟨12000, 0, 12000⟩ :: List.replicate 43 ⟨800, 0, 800⟩

/-- PowerFollowsItsLimits: each outcome of a control period; rails that are low and not; a fast trip below the limit, a first one, one within 2 microseconds, one after 2 and one after 3; a brake of each source. -/
theorem wit_power :
    let hot := 10 * (card.limitW - card.rd pwrB PWR_CTRL_GUARD_W) + 1
    let top := (card.wr pwrB PWR_STATUS_CBUD 7).wr pwrB PWR_STATUS_SBUD 7
    let p := fun (s : State) => raiseFirst (s.rd pwrB PWR_CTRL_PRIO) (s.rd pwrB PWR_STATUS_CBUD) (s.rd pwrB PWR_STATUS_SBUD) (s.rd pwrB PWR_CTRL_CMAX) (s.rd pwrB PWR_CTRL_SMAX)
    (60000 < (⟨60001, 0, 48000⟩ : RailSample).mv) ∧ ((readings hot).getD 0 ⟨0, 0, 0⟩).mv ≤ 60000 ∧ ((readings hot).getD 1 ⟨0, 0, 0⟩).mv ≤ 14000 ∧ card.pwr.in12 = true ∧ card.pwr.rails = true ∧ State.reset.pwr.rails = false ∧
    railSum (readings hot) 0 1 = hot ∧ railSum (readings 0) 0 1 = 0 ∧ (p card).isSome = true ∧ p top = none ∧ raiseFirst 0 7 7 7 7 = none ∧
    0 + 10 * card.rd pwrB PWR_CTRL_UP_MARGIN_W ≤ 10 * (card.limitW - card.rd pwrB PWR_CTRL_GUARD_W) ∧ card.pwr.quiet + 1 < card.rd pwrB PWR_CTRL_UP_PERIODS ∧
    card.rd pwrB PWR_CTRL_UP_PERIODS ≤ 60000 + 1 ∧ lowerFirst 0 0 0 = none ∧ (lowerFirst 0 1 0).isSome = true ∧
    0 < card.limitW ∧ card.limitW < card.limitW + 1 ∧ card.pwr.fastAt = none ∧ card.flag pwrB PWR_BRAKE_PIN = false ∧ card.flag pwrB PWR_BRAKE_SW = false ∧
    (card.raise pwrB PWR_BRAKE_PIN).flag pwrB PWR_BRAKE_PIN = true ∧ ({ card with pwr := { card.pwr with in12 := false } } : State).pwr.in12 = false := by decide +kernel
theorem wit_trips :
    (let f := { card with tsc := 5000, pwr := { card.pwr with fastAt := some (2000, true) } }
     (∀ q ∈ f.pwr.fastAt, q.1 + 3000 ≤ f.tsc) ∧ ({ f with tsc := 3999 } : State).tsc < 2000 + 2000 ∧ 2000 + 2000 ≤ ({ f with tsc := 4999 } : State).tsc ∧
     ({ f with tsc := 4999 } : State).tsc < 2000 + 3000) := by
  decide +kernel
theorem wit_low : Low card 0 ⟨45999, 0, 48000⟩ ∧ Low card 1 ⟨10999, 0, 12000⟩ ∧ Low card 43 ⟨759, 0, 800⟩ ∧ ¬ Low card 43 ⟨760, 0, 800⟩ ∧ ¬ Low State.reset 43 ⟨0, 0, 800⟩ ∧ ¬ Low ({ card with pwr := { card.pwr with c0Only := true } } : State) 8 ⟨0, 0, 800⟩ ∧ Low ({ card with pwr := { card.pwr with c0Only := true } } : State) 4 ⟨0, 0, 800⟩ := by
  refine ⟨?_, ?_, ?_, ?_, ?_, ?_, ?_⟩ <;> unfold Low <;> decide +kernel

/-- TemperatureAndDroopAreWatched: rails on and off; a set point that may rise, one at its ceiling; a droop of a tile that is up and of one that is not, below and at 1 microsecond; a sensor that warns, throttles and cools. -/
theorem wit_temperature :
    let one := { card with pwr := { card.pwr with stretch := [(1, (999, 999))] } }
    let max_ := { card with brup := { card.brup with parts := { card.brup.parts with vmin := [700, 700], vmax := [800, 800] } }, pwr := { card.pwr with set := [(0, some 800)] } }
    card.pwr.rails = true ∧ State.reset.pwr.rails = false ∧ card.pwr.c0Only = false ∧ ({ card with pwr := { card.pwr with c0Only := true } } : State).pwr.c0Only = true ∧ card.tileUp 1 = true ∧ card.tileUp 2 = false ∧ (look (fun _ => ((0, 0) : Nat × Nat)) one.pwr.stretch 1).2 < 1000 ∧ 1000 ≤ 999 + 1 ∧
    max_.setPoint 0 0 + 5 > max_.brup.parts.vmax.getD 0 0 ∧ max_.setPoint 0 0 - 5 ≤ max_.brup.parts.vmax.getD 0 0 ∧ card.pwr.in12 = true ∧ card.therm.off = false ∧
    (∀ i < 14, card.sensor i = 0) ∧ (card.wr pwrB THERM_STAT_STATE 2).rd pwrB THERM_STAT_STATE ≠ 0 := by decide +kernel

/-! ### Supplies, bring-up and card reset -/

/-- SuppliesShutDownAndRestart: a sensor above and below its limit, a restart that is and is not allowed, after a thermal and an undervoltage shutdown, a supply that falls and comes back in each state, a sag and a second one. -/
theorem wit_supplies :
    let hot := (card.wr pwrB (THERM_TEMP_C_T.at 0) 920).wr pwrB (THERM_MODEL_T.at (8 * 11)) 840
    let off := ({ card with therm := { card.therm with off := true }, pwr := { card.pwr with rails := false } }).raise pwrB THERM_CTRL_AUTO_RESTART |>.wr pwrB THERM_CTRL_TRIP_MAX 3
    let low := { off with therm := { off.therm with note := some ⟨pwrSrc, 0x0722, [41999], 0⟩ } }
    let dark := { card with pwr := { card.pwr with rails := false } }
    let rec_ := (dark.raise cardB BRUP_STAT_FAILED).raise secB SEC_RECOV_ACTIVE
    let lock := card.raise pwrB SUPPLY_STAT_LOCKOUT
    115 * 8 ≤ hot.reading 0 ∧ 105 * 8 ≤ hot.reading 13 ∧ hot.pwr.rails = true ∧ card.reading 0 < 115 * 8 ∧ off.pwr.in12 = true ∧ off.therm.off = true ∧ off.thermalOff = true ∧ Cooled off ∧
    (off.therm.trips.filter (fun t => decide (off.tsc < t + 3600000000000))).length < off.rd pwrB THERM_CTRL_TRIP_MAX ∧ low.thermalOff = false ∧ low.pwr.in48 = .qualified ∧ Cooled low ∧ low.pwr.rails = false ∧
    (¬ Cooled (low.wr pwrB THERM_CTRL_AUTO_RESTART 0)) ∧ dark.therm.off = false ∧ dark.failed = false ∧ rec_.failed = true ∧ rec_.flag secB SEC_RECOV_ACTIVE = true ∧ rec_.therm.off = false ∧
    lock.lockout = true ∧ lock.pwr.rails = true ∧ card.lockout = false ∧ lock.brup.nv = [] ∧
    (⟨42000, false⟩ : In48Loss).opens = false ∧ 42000 ≤ (⟨42000, false⟩ : In48Loss).mv ∧ (⟨41999, false⟩ : In48Loss).mv < 42000 ∧ (⟨48000, true⟩ : In48Loss).opens = true ∧ card.pwr.in12 = true := by
  unfold Cooled; decide +kernel
theorem wit_sags : Low card 0 ⟨45999, 0, 0⟩ ∧ Low ({ card with pwr := { card.pwr with rails := false } } : State) 1 ⟨10999, 0, 0⟩ ∧ ¬ Low card 2 ⟨800, 0, 800⟩ ∧
    (∃ r, ({ card with brup := { card.brup with nv := [.update, .save] } } : State).brup.nv = .update :: r) := by
  refine ⟨?_, ?_, ?_, ⟨[.save], rfl⟩⟩ <;> unfold Low <;> decide +kernel

theorem leNat_leBytes (k n : Nat) : leNat (leBytes k n) = n % 256 ^ k := by
  induction k generalizing n with
  | zero => simp [leBytes, leNat, Nat.mod_one]
  | succ k ih =>
    have h : leNat (leBytes (k + 1) n) = n % 256 + 256 * leNat (leBytes k (n / 256)) := by simp [leBytes, leNat]
    rw [h, ih, Nat.pow_succ, Nat.mul_comm (256 ^ k), Nat.mod_mul]

/-- A firmware image without contents: MAGIC, HDR_VER 1, slot 0, the digest of no bytes, and zeros. -/
def image0 : Image :=
  ⟨true, leBytes 4 0x64120F1E ++ leBytes 20 1 ++ leBytes 32 (Config.sha3 []).toNat ++ List.replicate 4040 0⟩

/-- Parts with every tile site fused as enabled and the key hash of `image0`. -/
def parts0 : FactoryParts := { FactoryParts.blank with keyHash := [Config.sha3 (List.replicate 1312 0)], tiles := sites }

/-- Power has been applied to `parts0`; 12 V and IN48 as `x` are there. -/
def powered (x : In48) : State :=
  { State.reset with pwr := { PwrSt.init with in48 := x }, brup := { BrupSt.init with parts := parts0, made := true } }

/-- Facts of a bring-up without a fault. -/
def facts0 : BringUpFacts := ⟨image0, true, true, [], true, false, [], false, [], [], []⟩

theorem image0_form : image0.readable = true ∧ image0.wellFormed = true ∧ image0.keySlot = 0 ∧ image0.svn = 0 ∧ image0.rollFwd = false ∧ image0.body = [] ∧ image0.spawnLen = 0 ∧
    image0.pubkey = List.replicate 1312 0 := by
  refine ⟨rfl, ?_, ?_, ?_, ?_, ?_, ?_, ?_⟩ <;> decide +kernel
theorem image0_digest : image0.digest = Config.sha3 [] := by
  have h : (image0.bytes.drop 24).take 32 = leBytes 32 (Config.sha3 []).toNat := rfl
  simp only [Image.digest, Image.at_, h, leNat_leBytes]
  exact BitVec.eq_of_toNat_eq (by simp [Nat.mod_eq_of_lt (Config.sha3 []).isLt])

/-- PowerOnBringUpAndCardReset, the image: it verifies where its signature does (the free value of log 13), and an unreadable one does not. -/
theorem wit_image (h : Config.mldsaVerify image0.pubkey (Config.sha3 image0.header) image0.sig = true) :
    verifyImage parts0 image0 = 0 ∧ verifyImage parts0 { image0 with readable := false } ≠ 0 := by
  obtain ⟨a, b, c, d, -, e, -, g⟩ := image0_form
  rw [g] at h
  constructor
  · simp only [verifyImage, a, b, c, d, e, g, image0_digest, h]
    have k : some (Config.sha3 (List.replicate 1312 (0 : Byte))) = parts0.keyHash[0]? := rfl
    have r : bit parts0.revoked 0 = false := rfl
    have z : ¬ 0 < parts0.counter := by decide
    simp only [k, r, z]
    simp
  · simp [verifyImage]

/-- Its Spawn image passes where the free values of its header do, and fails where they do not. -/
theorem wit_spawn : spawnOk image0 = (decide (Config.spawnLen [] ≤ 327680) && (Config.spawnPages []).all (fun p => decide (p.1 < 64))) := by
  obtain ⟨-, -, -, -, -, e, n, -⟩ := image0_form
  simp [spawnOk, spawnBytes, e, n]

/-- The image that runs at step 2. -/
theorem wit_running : ({ powered .qualified with brup := { (powered .qualified).brup with running := some image0 } } : State).brup.running = some image0 := rfl

/-- Bring-up at steps 1 and 2, power, and recovery mode. -/
theorem wit_bringUp :
    let two := { (powered .qualified).wr cardB BRUP_STAT_STEP 2 with brup := { (powered .qualified).brup with running := some image0 } }
    let rec_ := ((powered .qualified).raise cardB BRUP_STAT_FAILED).raise secB SEC_RECOV_ACTIVE
    Starting (powered .qualified) ∧ (powered .absent).pwr.in48 = .absent ∧ (powered .qualified).rd cardB BRUP_STAT_STEP ≤ 1 ∧ (powered .qualified).brup.flashBad = false ∧
    (powered .qualified).sec.unlock = false ∧ (powered .qualified).pwr.rails = false ∧ facts0.in48Ok = true ∧ facts0.prsnt = true ∧ ({ facts0 with prsnt := false } : BringUpFacts).prsnt = false ∧
    Starting two ∧ two.rd cardB BRUP_STAT_STEP = 2 ∧ facts0.seamFull = true ∧ two.brup.parts.retired = [] ∧ (∀ c < 384, two.retired c = false) ∧
    96 ≤ (two.fused.filter (fun t => decide (t < 256))).length ∧ 96 ≤ (two.fused.filter (fun t => decide (256 ≤ t))).length ∧ ¬ Starting card ∧ Recovering rec_ ∧ ¬ Recovering card := by
  unfold Starting Recovering; decide +kernel

/-- Card reset, a save in each case, loopbacks by each starter, and PERST_N in each state. -/
theorem wit_cardReset :
    let w := 2 ^ 24 + 383 * 16
    let lock := card.raise pwrB SUPPLY_STAT_LOCKOUT
    let nv := fun (s : State) (l : List NvOp) => { s with brup := { s.brup with nv := l } }
    let locked := card.wr secB SEC_DBG_LEVEL 0
    Writable card (cardB + 0x18) ∧ 0xA55A % 65536 = 0xA55A ∧ 0 % 65536 ≠ 0xA55A ∧ card.lockout = false ∧ card.brup.nv = [] ∧ lock.lockout = true ∧ (nv lock [.save]).brup.nv = .save :: [] ∧
    (nv card [.update]).brup.nv = .update :: [] ∧ Writable card (cardB + 0x80) ∧ card.flag cardB TEST_LPBK_STAT_BUSY = false ∧ card.brup.dies ≠ 0 ∧ State.reset.brup.dies = 0 ∧
    bitsOf w 0 2 = 0 ∧ bitsOf w 2 2 ≤ 2 ∧ bitsOf w 4 9 = 383 ∧ bitsOf w 20 2 ≤ 2 ∧ 1 ≤ bitsOf w 24 24 ∧ (card.raise (ccB 383) CC_STATUS_RETIRED).retired 383 = true ∧ card.retired 383 = false ∧
    (card.raise cardB TEST_LPBK_STAT_BUSY).flag cardB TEST_LPBK_STAT_BUSY = true ∧ card.debugLevel = 2 ∧ locked.debugLevel ≠ 2 ∧ bitsOf (2 + 2 * 4) 0 2 = 2 ∧ bitsOf (2 + 2 * 4) 2 2 = 2 ∧ card.dlUp = true ∧
    card.pwr.perst = false ∧ (card.raise cardB BRUP_STAT_FAILED).failed = true ∧ unlinked.dlUp = false ∧ NothingAsked card := by
  unfold Writable NothingAsked Settled; decide +kernel

/-! ### Security, debug and the slow interfaces -/

/-- FirmwareUpdatesAndDebugControl: no update waiting, one that waits, one in step 2, with and without the lockout and recovery mode; levels that move, stay and are refused; halts at each level. -/
theorem wit_firmware :
    let lock := card.raise pwrB SUPPLY_STAT_LOCKOUT
    let recov := card.raise secB SEC_RECOV_ACTIVE
    let waits := { lock with brup := { lock.brup with nv := [.update] } }
    let half := { card with brup := { card.brup with nv := [.update], update := some ⟨[1, 2]⟩ } }
    let lvl := fun (n : Nat) => card.wr secB SEC_DBG_LEVEL n
    Writable card (secB + 0x30) ∧ card.flag secB SEC_FW_STAT_BUSY = false ∧ NvOp.update ∉ card.brup.nv ∧ lock.lockout = true ∧ card.lockout = false ∧ card.brup.nv = [] ∧ card.brup.update = none ∧
    card.hostLive 0 = true ∧ unlinked.hostLive 0 = false ∧ card.flag secB SEC_RECOV_ACTIVE = false ∧ card.flag secB SEC_FW_STAT_HELD = false ∧
    recov.rd secB SEC_RECOV_ACTIVE ≠ 0 ∧ recov.rd secB SEC_FW_CMD_OP ≠ 3 ∧ (recov.wr secB SEC_FW_CMD_OP 3).rd secB SEC_FW_CMD_OP = 3 ∧ waits.brup.nv = [.update] ∧ waits.lockout = true ∧
    half.brup.nv = [.update] ∧ half.brup.update = some ⟨[1, 2]⟩ ∧ half.lockout = false ∧ half.hostLive 0 = true ∧ half.flag secB SEC_FW_STAT_HELD = false ∧
    Writable card (secB + 0x10) ∧ card.debugLevel = 2 ∧ (lvl 0).debugLevel = 0 ∧ card.rd secB SEC_LC_STATE = 1 ∧ (card.wr secB SEC_LC_STATE 3).rd secB SEC_LC_STATE = 3 ∧
    Writable card (secB + 0x48) ∧ (lvl 1).debugLevel < 2 ∧ Writable (lvl 1) (secB + 0x48) ∧ card.enabled 511 = false ∧ card.enabled 0 = true := by
  unfold Writable; decide +kernel
theorem wit_rounds : FelvikReads card ∧ HeadTold card ∧ ¬ FelvikReads { card with host := { card.host with waiting := [⟨0, .copy 3 0, 0, 0, 64⟩] } } ∧
    HeadTold { card with brup := { card.brup with nv := [.update] } } := by
  refine ⟨by unfold FelvikReads; decide +kernel, (by intro o r e; cases e), by unfold FelvikReads; decide +kernel, ?_⟩
  intro o r e v
  cases e
  exact ⟨by simp, by simp⟩

/-- A command to revoke key slot 2, for the serial number 0 and the nonce 7. -/
def revoke : SignedCmd := ⟨leBytes 4 0x641270CE ++ [3, 0, 2, 0] ++ leBytes 8 0 ++ leBytes 32 7 ++ List.replicate 3748 0⟩

theorem revoke_form : cmdFormed revoke = true ∧ revoke.kind = 3 ∧ revoke.keySlot = 0 ∧ revoke.value = 2 ∧ revoke.serial = 0 ∧ revoke.nonce = 7 ∧ revoke.pubkey = List.replicate 1312 0 := by
  refine ⟨?_, ?_, ?_, ?_, ?_, ?_, ?_⟩ <;> decide +kernel

/-- MailboxAnswersAndSignedCommands: the link up and down, recovery mode, a session with and without its key, a command that fails an early check and one that reaches the late ones, and an update that waits. -/
theorem wit_mailbox :
    let x : Session := ⟨1, 0, none, 0, 0⟩
    let keyed := { card with sec := { card.sec with session := some { x with key := some 5 } } }
    let once := { card with sec := { card.sec with nonce := some 7 } }
    card.dlUp = true ∧ unlinked.dlUp = false ∧ card.recovery = false ∧ (card.raise secB SEC_RECOV_ACTIVE).recovery = true ∧ (List.replicate 1088 (0 : Byte)).length = 1088 ∧ card.sec.session = none ∧
    ({ card with sec := { card.sec with session := some x } } : State).sec.session = some x ∧ keyed.sec.session = some { x with key := some 5 } ∧
    cmdFormed ⟨[1]⟩ = false ∧ once.rd cardB ID_SERIAL_SERIAL = 0 ∧ once.sec.nonce = some 7 ∧ card.sec.nonce ≠ some 7 := by decide +kernel

/-- A signed command passes its late checks where its signature verifies (log 13): a revocation, in a card whose first key hash is that of its key. -/
theorem wit_command (h : Config.mldsaVerify revoke.pubkey (Config.sha3 revoke.head) revoke.sig = true) : (powered .qualified).lateCheck revoke = 0 := by
  obtain ⟨-, k, t, v, -, -, p⟩ := revoke_form
  have h2 : (powered .qualified).lockout = false := by decide +kernel
  have h3 : bit (powered .qualified).brup.parts.revoked 0 = false := rfl
  have h4 : some (Config.sha3 (List.replicate 1312 (0 : Byte))) = (powered .qualified).brup.parts.keyHash[0]? := rfl
  have h5 : (List.range 4).all (fun k => decide (k = 2) || (powered .qualified).revoking k) = false := by decide +kernel
  rw [p] at h
  simp only [State.lateCheck, k, t, v, p, h, h2, h3, h4, h5, show (powered .qualified).brup.running = none from rfl]
  simp

/-- SlowInterfacesAnswer: power present and absent; messages that are and are not taken; sensors cool; each debug level; edges that are and are not too soon; TAP codes, in and out of recovery mode. -/
theorem wit_slow :
    let ts := fun (st : Nat) => { card with tsc := 1500000, card := { card.card with ts := { card.card.ts with period := 1000, st := st, last := some 1000000 } } }
    let early := { ts 1 with tsc := 1499999 }
    let cfg := 1 + 1000 * 2 ^ 32 + 999999 * 2 ^ 64
    let signed_ := fun (code : Nat) (l : List Byte) => (⟨l, some (crc8 ([0x94, BitVec.ofNat 8 code, BitVec.ofNat 8 l.length] ++ l))⟩ : SmbusWrite)
    let x := signed_ 4 (leBytes 12 cfg)
    let lvl := fun (n : Nat) => card.wr secB SEC_DBG_LEVEL n
    let cut := { card with pwr := { card.pwr with in12 := false } }
    card.pwr.in12 = true ∧ cut.pwr.in12 = false ∧ x.pecOk 4 true = true ∧ x.data.length = 12 ∧ leNat x.data = cfg ∧ bitsOf cfg 1 31 = 0 ∧ bitsOf cfg 52 12 = 0 ∧ 1000 ≤ bitsOf cfg 32 20 ∧ bitsOf cfg 64 32 < 1000 * bitsOf cfg 32 20 ∧
    (⟨x.data, none⟩ : SmbusWrite).pecOk 4 true = false ∧ (signed_ 0x10 [0x5A, 0xA5]).pecOk 0x10 true = true ∧ (⟨[1], none⟩ : SmbusWrite).pageOk 0x20 = true ∧ (⟨[65], none⟩ : SmbusWrite).pecOk 0x30 false = true ∧
    (⟨[65], some 0⟩ : SmbusWrite).pecOk 0x30 false = false ∧ (∀ i < 14, card.reading i < if i < 2 then 90 * 8 else 80 * 8) ∧ card.pwr.rails = true ∧ (lvl 0).debugLevel = 0 ∧ card.debugLevel = 2 ∧
    (ts 1).card.ts.st ≠ 0 ∧ (ts 1).card.ts.last = some 1000000 ∧ ¬ (2 * (ts 1).tsc < 2 * 1000000 + 1000 * (ts 1).card.ts.period) ∧ 2 * early.tsc < 2 * 1000000 + 1000 * early.card.ts.period ∧
    0 < (ts 1).card.ts.period ∧ card.card.ts.st = 0 ∧ State.reset.pwr.rails = false := by decide +kernel
theorem wit_tap :
    let down := unlinked.setTile 0 Tile.init |>.setTile 1 Tile.init
    let one := { card with pwr := { card.pwr with c0Only := true } }
    down.dlUp = false ∧ (∀ p ∈ down.tiles, p.2.inReset = true) ∧ card.pwr.c0Only = false ∧ one.pwr.c0Only = true ∧ card.host.d3hot = false ∧
    (⟨true, 0, 1, [true], [], [false], []⟩ : TapScan).trst = true ∧ (⟨false, 0, 1, [true], [], [false], []⟩ : TapScan).trst = false ∧
    (card.wr secB SEC_DBG_LEVEL 1).debugLevel = 1 ∧ (card.wr secB SEC_DBG_LEVEL 1).rd secB SEC_LC_STATE = 1 := by decide +kernel

/-! ### Ill-formed operands are refused -/

/-- A strike beyond the last column. -/
def badStrike : Strike := ⟨12 * 2 ^ 31, 1⟩

/-- One place outside each memory of Table 15-1. -/
def badPlaces : List SramPlace := [.scratchpad 0 131072, .imem 0 32768, .accumulator 0 2 0 0, .accumulator 0 0 128 0, .accumulator 0 0 0 128, .bankState 49152 (.acc 0), .bankState 0 (.acc 512), .bankState 0 (.ob 64), .bankState 0 (.ss 128), .bankState 0 (.m 8),
  .mergeMl 0 16 0 0 false, .mergeMl 0 0 2048 0 true, .mergeMl 0 0 0 8 true, .mergeAcc 0 16 0, .mergeAcc 0 0 32768, .readCache 0 (2 ^ 34), .prefetchLine 0 512]

theorem test_wf_sram : badPlaces.all (fun p => !p.wf) = true ∧ SramPlace.wf (.scratchpad 511 131071) = true ∧ SramPlace.wf (.bankState 49151 (.acc 511)) = true := by decide +kernel

theorem test_wf_strike : Strike.wf badStrike = false ∧ Strike.wf ⟨0, 0⟩ = false ∧ Strike.wf ⟨0, 4⟩ = false ∧ Strike.wf ⟨12 * 2 ^ 31 - 1, 3⟩ = true := by decide +kernel

/-- One command outside each check of `Instr.wf`. -/
def badCommands : List Instr :=
  [.registerWrite 0 (2 ^ 26) 8 0, .registerWrite 0 0 2 0, .badAccess 0 (2 ^ 26) 8 true, .requestAccept ⟨.host, 9⟩ 0 none, .requestAccept ⟨.tile, 512⟩ 0 none, .requestAccept ⟨.tile, 0⟩ 32 none,
   .requestIssue 0 [badStrike] [], .requestIssue 0 [] [⟨.imem 0 32768, true⟩], .eccWriteBack 0 [badStrike], .patrolScrub 0 [badStrike], .crcReplay 0 (12 * 2 ^ 31) true [], .gemvPass 0 true [badStrike],
   .scorePass 0 true [badStrike], .valuePass 0 true [badStrike], .copyPass 0 true [badStrike], .rowPeriodStart 0 (some 64) [], .rowPeriodStart 0 none [badStrike], .nocPacketDelivery ⟨1024, 0, 0, 0, .read 0⟩,
   .nocPacketDelivery ⟨0, 5, 0, 0, .read 0⟩, .nocPacketDelivery ⟨0, 0, 0, 6, .read 0⟩, .nocPacketDelivery ⟨0, 0, 0, 0, .read 32⟩, .nocPacketDelivery ⟨0, 0, 0, 0, .write (2 ^ 22) allZero⟩]

theorem test_wf_commands : badCommands.all (fun c => !c.wf) = true := by decide +kernel

def badCommands2 : List Instr :=
  [.streamLineReturn 0 ⟨0, 4⟩ .zero, .bundleSplit 0 [⟨.imem 0 32768, true⟩], .linkUp 3 5 true true, .linkUp 16 7 true true, .linkUp 16 6 false true, .linkDown 0, .linkDown 6, .cxlMemRead 32 true, .cxlMemWrite 32 allZero true, .bar4Read 0 32,
   .bar4Write 0 32 allZero, .hostCompletion 0 5 [], .biasChange 0 65536 true, .submissionDoorbell 0 ⟨64, 0⟩ 8 0, .submissionDoorbell 0 ⟨5, 4096⟩ 8 0, .eventHeadDoorbell 0 64 8 0, .descriptorFetch 0 5 [], .descriptorReread 0 0 (List.replicate 17 0), .coalesceWindowEnd 0 1024 0,
   .coalesceWindowEnd 0 0 65536, .seamReplay 0 true [], .seamReplay 9 true [], .hostLinkReplay true [⟨.imem 0 32768, true⟩], .moltCmd 0 512, .partitionReset 0 16, .controlPeriod [], .avsUpdate 0 0 4, .thermalSample [] [],
   .supplySagLockout 45 ⟨0, 0, 0⟩, .busMasterEnableSet ⟨0, 128, 100, false, false, false, 0, false, 0, 0, false, [], none⟩, .busMasterEnableSet ⟨0, 1024, 128, false, false, false, 0, false, 0, 0, false, [], none⟩, .busMasterEnableSet ⟨0, 128, 128, false, false, false, 4, false, 0, 0, false, [], none⟩, .busMasterEnableSet ⟨0, 128, 128, false, false, false, 0, false, 3, 0, false, [], none⟩,
   .busMasterEnableSet ⟨0, 128, 128, false, false, false, 0, false, 0, 0, false, [1, 2, 3], none⟩, .busMasterEnableSet ⟨0, 128, 128, false, false, false, 0, false, 0, 0, false, [1], some (1, true)⟩, .firmwareUpdate 0 ⟨[], 5, 0, 0, false⟩, .powerOn FactoryParts.blank, .bringUp { facts0 with absent := [12] }, .bringUp { facts0 with tileFail := [512] }, .bringUp { facts0 with loopback := [(384, 0, 0)] }, .cardReset 0 65536, .cfgSave 0 65536,
   .debugLevelRequest 0 4, .linkRateChange 3 5, .linkRateChange 16 0, .counters ⟨List.replicate 256 0, none⟩, .debugSpdataRead 0 ⟨0, 4, 8⟩, .doeDiscovery ⟨65536, 0, []⟩]

theorem test_wf_commands2 : badCommands2.all (fun c => !c.wf) = true := by decide +kernel

theorem test_wf_accepts : ([.registerWrite 8 (2 ^ 26 - 4) 4 0, .requestAccept ⟨.tile, 511⟩ 64 none, .rowPeriodStart 383 (some 63) [], .rowPeriodStart 0 none [], .linkUp 16 6 true true, .linkDown 5, .busMasterEnableSet ⟨8, 512, 4096, true, true, true, 3, true, 1024, 256, true, [1, 2], some (3, true)⟩, .debugSpdataRead 0 ⟨511, 4, 4⟩, .controlPeriod (List.replicate 45 ⟨0, 0, 0⟩), .partitionReset 0 8, .eventReport, .nop 0 0 ⟨0, none⟩] : List Instr).all Instr.wf = true := by
  decide +kernel

/-! ### One step on a small state; the expected values are those of the manual's worked examples -/

/-- `exec` answers a next state that `P` holds of. -/
def after (c : Instr) (s : State) (P : State → Bool) : Bool := match exec c s with | .next u => P u | _ => false

/-- Chapter 3, "one interleaved address": DPA 0x30_088E_A940 card-wide is bank-direct 0x194_B200_2D40, CC 0x329. -/
theorem test_interleaved : interleaved wideMasks true 0x30088EA940 = some 0x94B2002D40 ∧ ccSrc (keyChan 0x94B2002D40) = 0x329 ∧ keyBank 0x94B2002D40 = 32 + 18 ∧ keyRow 0x94B2002D40 = 5 := by decide +kernel

/-- Chapter 13, "the region of one location", and rows 4 and 6 of the same bank. -/
theorem test_region : let s := card.raise (ccB 0) CC_ILV_CTRL_MODE
    s.regionOf 0x94B2002D40 = 12296 ∧ s.regionOf (0x94B2002D40 - 2048) = 12295 ∧ s.regionOf (0x94B2002D40 + 2048) = 12298 := by decide +kernel

/-- Chapter 2, "one MX FP4 block": 13.0, -2.6, 0.7 and 0.2 to the nearest 1/256, in both scale modes. -/
theorem test_mxBlock : let l : List FV := [.fin false 13 0, .fin true 666 (-8), .fin false 179 (-8), .fin false 51 (-8)] ++ List.replicate 28 pzero
    (mxEncode 0x14 false l).scale = 0x80 ∧ (mxEncode 0x14 false l).elems.take 4 = [7, 0xB, 1, 0] ∧ (mxEncode 0x14 true l).scale = 0x81 ∧ (mxEncode 0x14 true l).elems.take 4 = [5, 9, 0, 0] := by decide +kernel

/-- Chapter 12, Table 12-2: pair 3 across the wrap. -/
theorem test_occupancy : occupancy 0xFFFFFFE0 0xFFFFFFB0 = 48 := by decide

/-- Chapter 19, "one channel seen from partition 2": partition 2 owns stack 9, and CC 0x327 runs a pass. -/
def seen : State := (card.setCc 295 { CcSt.init with active := some (running 1) }).wr hostB (HOST_PART_STACKS_STACKS.at 8) 0x200

/-- Steps 1 and 3: the write is pending, and reads back. -/
theorem test_partitionWrite : after (.registerWrite 2 0x2938010 8 0x2044301800) seen (fun u =>
    decide (u.rd (ccB 295) CC_SCHED_CTRL_PANIC_LWM = 16) && decide (u.readPlace ⟨.cc, 295, 0x10⟩ 0x2938010 = 0x2044301800)) = true := by decide +kernel

/-- Steps 2 and 4: the write of CC_RD_CTRL is not exposed, and HOST_BAR0_LOG says so. -/
theorem test_partitionBad : after (.badAccess 2 0x2938050 8 true) seen (fun u => decide (u.word (hostB + 0x320) = 0x800000120E938050)) = true := by decide +kernel

/-- Chapter 14, "an early doorbell": ring 5 of partition 2 takes the doorbell of SEQ 0x2101, TAIL 2. -/
theorem test_doorbell : after (.submissionDoorbell 2 ⟨5, 0⟩ 8 0x210100000002)
    ((((card.wr hostB (RING_CFG_LOG2SIZE.at (0x40 * 5)) 8).wr hostB (RING_CFG_OWNER.at (0x40 * 5)) 2).wr hostB (RING_SEQ0_SEQ0.at (0x40 * 5)) 0x2000).setRing 5
      { RingSt.init with st := .running, acc := 0x20FD, tail := 254, fetchAt := 254, startAt := 254, sentAt := 254 })
    (fun u => decide ((u.ring 5).acc = 0x2101) && decide ((u.ring 5).tail = 2) && decide (u.seqOf 5 256 = 0x2100) && decide (u.phaseOf 5 255 = 1) && decide (u.phaseOf 5 256 = 0)) = true := by decide +kernel

/-- Chapter 15, "a channel's bucket crosses and it molts": an uncorrectable error of the scrub at level 876 makes it 1,132, which is permanent. -/
theorem test_bucket : after (.patrolScrub 295 [⟨295 * 2 ^ 26, 2⟩])
    (((card.setCc 295 { CcSt.init with refresh := true }).raise (ccB 295) CC_SCRUB_CTRL_ENABLE).wr (ccB 295) CC_BKT_LEVEL 876)
    (fun u => decide (u.rd (ccB 295) CC_BKT_LEVEL = 1132) && u.flag (ccB 295) CC_BKT_PERM && decide (u.molt.queue.map (·.chan) = [295]) && u.reports.any (fun r => decide (r.src = 0x327 ∧ r.code = 0x0602))) = true := by decide +kernel

/-- A step takes the front command and keeps the rest. -/
theorem test_step : (match step { card with pending := [.droopRecover 0, .status] } with | .next u => u.pending | _ => []) = [.status] := by decide +kernel

/-- No word of the table gives bits to a command. -/
theorem test_decode : decodeTableWord 64 0 = none ∧ State.reset.withFetchWord 64 0 = State.reset := ⟨rfl, rfl⟩

end Sys2Proof.Tests
end

section
/-! What a whole-register write does: the layout of the register tables, the word that a write leaves, one field at a time, the write of a register that starts nothing, a rejected write, and what registers read at reset (R6, R9, R12-R14). -/

namespace Sys2Proof.Machine

/-! ### The layout of the register tables -/

/-- The bits of two fields of a register do not meet. -/
def RegField.Apart (a b : RegField) : Prop := a.lo + a.w ≤ b.lo ∨ b.lo + b.w ≤ a.lo

theorem RegField.Apart.symm {a b : RegField} (h : a.Apart b) : b.Apart a := Or.symm h

/-- The fields of a register do not meet, lie in its 64 bits, and are each judged with at least their own bits. -/
structure LaidOut (l : List RegField) : Prop where
  apart  : l.Pairwise RegField.Apart
  inWord : ∀ fl ∈ l, fl.lo + fl.w ≤ 64
  judged : ∀ fl ∈ l, bitsOf (pairMask fl) fl.lo fl.w = 2 ^ fl.w - 1

/-- Every register table of the manual is laid out so. -/
theorem rowsOf_laidOut {b : Blk} {r : RegRow} (h : r ∈ rowsOf b) : LaidOut r.fields := by
  have checked : ∀ r ∈ rowsOf b, r.fields.Pairwise (fun a b => a.lo + a.w ≤ b.lo ∨ b.lo + b.w ≤ a.lo) ∧
      (∀ fl ∈ r.fields, fl.lo + fl.w ≤ 64) ∧ ∀ fl ∈ r.fields, bitsOf (pairMask fl) fl.lo fl.w = 2 ^ fl.w - 1 := by
    cases b <;> decide +kernel
  obtain ⟨apart, inWord, judged⟩ := checked r h
  exact ⟨apart, inWord, judged⟩

theorem LaidOut.sublist {l m : List RegField} (h : LaidOut m) (hl : l.Sublist m) : LaidOut l :=
  ⟨h.apart.sublist hl, fun fl hfl => h.inWord fl (hl.subset hfl), fun fl hfl => h.judged fl (hl.subset hfl)⟩

theorem fieldsFor_laidOut {f : Nat} {p : Place} {r : RegRow} (h : findRow p.blk p.rel = some r) : LaidOut (fieldsFor f p r) :=
  (rowsOf_laidOut (List.mem_of_find?_eq_some h)).sublist List.filter_sublist

/-! ### The word that a write leaves -/

/-- Fields of a write that do not meet the bits of `g` leave those bits as they read. -/
theorem bitsOf_nextWord_apart {g : RegField} {l : List RegField} (cur new : Nat) (h : ∀ fl ∈ l, g.Apart fl) :
    bitsOf (nextWord l cur new) g.lo g.w = bitsOf cur g.lo g.w := by
  induction l generalizing cur with
  | nil => rfl
  | cons fl l ih =>
    obtain ⟨hfl, hl⟩ := List.forall_mem_cons.mp h
    rw [nextWord, List.foldl_cons, ← nextWord, ih _ hl]
    split
    · exact bitsOf_setBits_other hfl
    · rfl

/-- A field that a write can set reads, in the word that the write leaves, what was written to it. -/
theorem LaidOut.bitsOf_nextWord {l : List RegField} (hl : LaidOut l) (cur new : Nat) {fl : RegField} (hfl : fl ∈ l) (hs : fl.sets = true) :
    bitsOf (nextWord l cur new) fl.lo fl.w = bitsOf new fl.lo fl.w := by
  have apart := hl.apart
  clear hl
  induction l generalizing cur with
  | nil => cases hfl
  | cons g l ih =>
    obtain ⟨hg, hrest⟩ := List.pairwise_cons.mp apart
    rw [nextWord, List.foldl_cons, ← nextWord]
    rcases List.mem_cons.mp hfl with rfl | hmem
    · rw [bitsOf_nextWord_apart _ _ hg, if_pos hs, bitsOf_setBits_same, Nat.mod_eq_of_lt (bitsOf_lt _ _ _)]
    · exact ih _ hmem hrest

/-- A field that reads differently in two words differs under its pair mask, so its value is judged (R6). -/
theorem xor_and_pairMask_ne_zero {a b : Nat} {fl : RegField} (hm : bitsOf (pairMask fl) fl.lo fl.w = 2 ^ fl.w - 1)
    (h : bitsOf a fl.lo fl.w ≠ bitsOf b fl.lo fl.w) : (a ^^^ b) &&& pairMask fl ≠ 0 := by
  intro hz
  refine h (Nat.eq_of_testBit_eq fun i => ?_)
  rw [testBit_bitsOf, testBit_bitsOf]
  by_cases hi : i < fl.w
  · have hmask := congrArg (Nat.testBit · i) hm
    have hbit := congrArg (Nat.testBit · (fl.lo + i)) hz
    simp only [testBit_bitsOf, Nat.testBit_two_pow_sub_one, hi, decide_true, Bool.true_and] at hmask
    simpa [Nat.testBit_and, Nat.testBit_xor, hmask, hi] using hbit
  · simp [hi]

/-! ### One register and nothing else -/

/-- From `s` to `t` nothing changes but the word at `off` and what is pending for it. -/
def OnlyRegister (s t : State) (off : Nat) : Prop :=
  t = { s with regs := t.regs, pend := t.pend, pendMask := t.pendMask } ∧
  ∀ o, o ≠ off → t.word o = s.word o ∧ look noPend t.pend o = look noPend s.pend o ∧ look noPend t.pendMask o = look noPend s.pendMask o

theorem OnlyRegister.refl (s : State) (off : Nat) : OnlyRegister s s off := ⟨rfl, fun _ _ => ⟨rfl, rfl, rfl⟩⟩

theorem OnlyRegister.trans {s t u : State} {off : Nat} (h : OnlyRegister s t off) (g : OnlyRegister t u off) : OnlyRegister s u off := by
  obtain ⟨ht, hto⟩ := h
  obtain ⟨hu, huo⟩ := g
  refine ⟨?_, fun o ho => ?_⟩
  · calc u = { t with regs := u.regs, pend := u.pend, pendMask := u.pendMask } := hu
      _ = { s with regs := u.regs, pend := u.pend, pendMask := u.pendMask } := by rw [ht]
  · obtain ⟨hw, hp, hm⟩ := hto o ho
    obtain ⟨kw, kp, km⟩ := huo o ho
    exact ⟨kw.trans hw, kp.trans hp, km.trans hm⟩

/-- A field of the register at `off` has the same effective value, pending value and pending mark in both states. -/
structure SameField (s t : State) (off : Nat) (fl : RegField) : Prop where
  now    : bitsOf (t.word off) fl.lo fl.w = bitsOf (s.word off) fl.lo fl.w
  pended : bitsOf (look noPend t.pend off).toNat fl.lo fl.w = bitsOf (look noPend s.pend off).toNat fl.lo fl.w
  marked : bitsOf (look noPend t.pendMask off).toNat fl.lo fl.w = bitsOf (look noPend s.pendMask off).toNat fl.lo fl.w

theorem SameField.refl (s : State) (off : Nat) (fl : RegField) : SameField s s off fl := ⟨rfl, rfl, rfl⟩

theorem SameField.trans {s t u : State} {off : Nat} {fl : RegField} (h : SameField s t off fl) (g : SameField t u off fl) : SameField s u off fl :=
  ⟨g.now.trans h.now, g.pended.trans h.pended, g.marked.trans h.marked⟩

/-- Whether a field took a write depends only on that field before and after. -/
theorem Took.congr {s s' t t' : State} {off cur v : Nat} {fl : RegField} (hs : SameField s s' off fl) (ht : SameField t t' off fl)
    (h : Took s' t off cur fl v) : Took s t' off cur fl v := by
  unfold Took at h ⊢
  simp only [ht.now, ht.pended, ht.marked]
  simpa only [hs.now, hs.marked] using h

/-! ### Taking one field -/

/-- A number that fits a word is stored whole. -/
theorem toNat_ofNat_of_lt {n : Nat} (h : n < 2 ^ 64) : (BitVec.ofNat 64 n).toNat = n := by
  rw [BitVec.toNat_ofNat, Nat.mod_eq_of_lt h]

theorem Fld.testBit_mask (f : Fld) (i : Nat) : f.mask.testBit i = (decide (f.lo ≤ i) && decide (i - f.lo < f.w)) := by
  simp [Fld.mask, Nat.testBit_mul_two_pow, Nat.testBit_two_pow_sub_one]

theorem Fld.mask_lt {f : Fld} (h : f.lo + f.w ≤ 64) : f.mask < 2 ^ 64 := by
  refine Nat.lt_pow_two_of_testBit _ fun i hi => ?_
  rw [Fld.testBit_mask, Bool.and_eq_false_iff]
  simp only [decide_eq_false_iff_not]
  omega

/-- Marking a field pending marks each of its bits … -/
theorem bitsOf_or_mask_same (n : Nat) (f : Fld) : bitsOf (n ||| f.mask) f.lo f.w = 2 ^ f.w - 1 := by
  refine Nat.eq_of_testBit_eq fun i => ?_
  rw [testBit_bitsOf, Nat.testBit_or, Fld.testBit_mask, Nat.testBit_two_pow_sub_one]
  by_cases hi : i < f.w <;> simp [hi]

/-- … and no bit of a field apart from it. -/
theorem bitsOf_or_mask_other (n : Nat) (f : Fld) {lo w : Nat} (h : lo + w ≤ f.lo ∨ f.lo + f.w ≤ lo) : bitsOf (n ||| f.mask) lo w = bitsOf n lo w := by
  refine Nat.eq_of_testBit_eq fun i => ?_
  rw [testBit_bitsOf, testBit_bitsOf, Nat.testBit_or, Fld.testBit_mask]
  by_cases hi : i < w
  · have outside : ¬ (f.lo ≤ lo + i ∧ lo + i - f.lo < f.w) := by omega
    simp [← Bool.decide_and, outside]
  · simp [hi]

/-- Bits cleared where `v` has 1 (W1C, R9). -/
theorem bit_and_complement {n v w i : Nat} (hv : v < 2 ^ w) (hi : i < w) : bit (n &&& (2 ^ w - 1 - v)) i = (bit n i && !bit v i) := by
  have e : 2 ^ w - 1 - v = 2 ^ w - (v + 1) := by omega
  simp only [bit_eq_testBit]
  rw [Nat.testBit_and, e, Nat.testBit_two_pow_sub_succ hv, decide_eq_true hi, Bool.true_and]

/-- The state with the value `v` of the field `f` pending for the register at `off`. -/
def State.pendField (s : State) (off : Nat) (f : Fld) (v : Nat) : State :=
  { s with pend := put noPend s.pend off (BitVec.ofNat 64 (setBits (look noPend s.pend off).toNat f.lo f.w v)),
           pendMask := put noPend s.pendMask off (BitVec.ofNat 64 ((look noPend s.pendMask off).toNat ||| f.mask)) }

/-- The bits of a field as a field of the register at an absolute offset. -/
def RegField.fld (fl : RegField) : Fld := ⟨0, fl.lo, fl.w⟩

/-- What taking a field can do: nothing, a write of its effective value, or a pending value. -/
theorem takeField_cases (s : State) (off cur new : Nat) (fl : RegField) :
    s.takeField off cur new fl = s ∨ (∃ v, s.takeField off cur new fl = s.wr off fl.fld v) ∨ ∃ v, s.takeField off cur new fl = s.pendField off fl.fld v := by
  unfold State.takeField
  dsimp only
  split
  · exact .inl rfl
  · exact .inl rfl
  · exact .inr (.inl ⟨_, rfl⟩)
  · split
    · split
      · exact .inl rfl
      · exact .inr (.inr ⟨_, rfl⟩)
    · exact .inr (.inl ⟨_, rfl⟩)

theorem wr_onlyRegister (s : State) (off v : Nat) (fl : RegField) : OnlyRegister s (s.wr off fl.fld v) off :=
  ⟨rfl, fun _ ho => ⟨State.wr_word_ne _ _ _ _ _ ho, rfl, rfl⟩⟩

theorem pendField_onlyRegister (s : State) (off v : Nat) (f : Fld) : OnlyRegister s (s.pendField off f v) off :=
  ⟨rfl, fun _ ho => ⟨rfl, look_put_ne _ _ _ _ _ ho, look_put_ne _ _ _ _ _ ho⟩⟩

/-- The word of a register after a write of one of its fields. -/
theorem word_wr_fld (s : State) (off v : Nat) {fl : RegField} (hw : fl.lo + fl.w ≤ 64) :
    (s.wr off fl.fld v).word off = setBits (s.word off) fl.lo fl.w v :=
  (State.wr_word s off fl.fld v).trans (Nat.mod_eq_of_lt (setBits_lt (State.word_lt _ _) hw))

theorem pend_pendField (s : State) (off v : Nat) {f : Fld} (hw : f.lo + f.w ≤ 64) :
    (look noPend (s.pendField off f v).pend off).toNat = setBits (look noPend s.pend off).toNat f.lo f.w v := by
  rw [State.pendField, look_put_same, toNat_ofNat_of_lt (setBits_lt (BitVec.isLt _) hw)]

theorem pendMask_pendField (s : State) (off v : Nat) {f : Fld} (hw : f.lo + f.w ≤ 64) :
    (look noPend (s.pendField off f v).pendMask off).toNat = (look noPend s.pendMask off).toNat ||| f.mask := by
  rw [State.pendField, look_put_same, toNat_ofNat_of_lt (Nat.or_lt_two_pow (BitVec.isLt _) (Fld.mask_lt hw))]

theorem wr_sameField (s : State) (off v : Nat) {fl g : RegField} (hw : fl.lo + fl.w ≤ 64) (h : g.Apart fl) : SameField s (s.wr off fl.fld v) off g :=
  ⟨by rw [word_wr_fld s off v hw, bitsOf_setBits_other h], rfl, rfl⟩

theorem pendField_sameField (s : State) (off v : Nat) {fl g : RegField} (hw : fl.lo + fl.w ≤ 64) (h : g.Apart fl) : SameField s (s.pendField off fl.fld v) off g :=
  ⟨rfl, by rw [pend_pendField s off v hw]; exact bitsOf_setBits_other h, by rw [pendMask_pendField s off v hw]; exact bitsOf_or_mask_other _ _ h⟩

theorem takeField_onlyRegister (s : State) (off cur new : Nat) (fl : RegField) : OnlyRegister s (s.takeField off cur new fl) off := by
  obtain h | ⟨v, h⟩ | ⟨v, h⟩ := takeField_cases s off cur new fl <;> rw [h]
  · exact .refl s off
  · exact wr_onlyRegister s off v fl
  · exact pendField_onlyRegister s off v fl.fld

/-- A field that takes a write leaves the fields apart from it alone. -/
theorem takeField_sameField (s : State) (off cur new : Nat) {fl g : RegField} (hw : fl.lo + fl.w ≤ 64) (hg : g.Apart fl) :
    SameField s (s.takeField off cur new fl) off g := by
  obtain h | ⟨v, h⟩ | ⟨v, h⟩ := takeField_cases s off cur new fl <;> rw [h]
  · exact .refl s off g
  · exact wr_sameField s off v hw hg
  · exact pendField_sameField s off v hw hg

/-- A field takes a write under its access code and class (R9, R12). -/
theorem takeField_took (s : State) (off cur new : Nat) {fl : RegField} (hw : fl.lo + fl.w ≤ 64) :
    Took s (s.takeField off cur new fl) off cur fl (bitsOf new fl.lo fl.w) := by
  have hv : bitsOf new fl.lo fl.w < 2 ^ fl.w := bitsOf_lt _ _ _
  have stored (v : Nat) : bitsOf ((s.wr off fl.fld v).word off) fl.lo fl.w = v % 2 ^ fl.w := by
    rw [word_wr_fld s off v hw, bitsOf_setBits_same]
  have pended : bitsOf (look noPend (s.pendField off fl.fld (bitsOf new fl.lo fl.w)).pend off).toNat fl.lo fl.w = bitsOf new fl.lo fl.w := by
    rw [pend_pendField s off _ hw]
    exact (bitsOf_setBits_same _ _ _ _).trans (Nat.mod_eq_of_lt hv)
  have marked (v : Nat) : bitsOf (look noPend (s.pendField off fl.fld v).pendMask off).toNat fl.lo fl.w = 2 ^ fl.w - 1 := by
    rw [pendMask_pendField s off v hw]
    exact bitsOf_or_mask_same _ fl.fld
  have room : 2 ^ fl.w - 1 - bitsOf new fl.lo fl.w < 2 ^ fl.w := by omega
  obtain ⟨lo, w, acc, reset, cls, legal⟩ := fl
  cases acc with
  | RO | W1S => exact ⟨rfl, rfl⟩
  | W1C =>
    refine ⟨fun i hi => ?_, rfl⟩
    rw [← bit_and_complement hv hi, ← Nat.mod_eq_of_lt (Nat.and_lt_two_pow _ room), ← stored]
    rfl
  | RW | RWS =>
    cases cls with
    | L | S _ => exact ⟨(stored _).trans (Nat.mod_eq_of_lt hv), rfl⟩
    | D _ =>
      unfold Took State.takeField
      dsimp only
      split
      · exact ⟨rfl, rfl⟩
      · exact ⟨rfl, marked _, pended⟩

/-! ### Taking a list of fields -/

/-- A register takes a write in these fields, one after the other. -/
def State.takeFields (s : State) (l : List RegField) (off cur new : Nat) : State := l.foldl (fun (a : State) fl => a.takeField off cur new fl) s

theorem takeFields_cons (s : State) (fl : RegField) (l : List RegField) (off cur new : Nat) :
    s.takeFields (fl :: l) off cur new = (s.takeField off cur new fl).takeFields l off cur new := rfl

theorem takeFields_onlyRegister (s : State) (l : List RegField) (off cur new : Nat) : OnlyRegister s (s.takeFields l off cur new) off :=
  foldl_keeps (fun t => OnlyRegister s t off) l _ s (.refl s off) fun t fl h => h.trans (takeField_onlyRegister t off cur new fl)

/-- A field that is apart from all that take the write stays. -/
theorem takeFields_sameField (s : State) {l : List RegField} (off cur new : Nat) (hw : ∀ fl ∈ l, fl.lo + fl.w ≤ 64) {g : RegField}
    (hg : ∀ fl ∈ l, g.Apart fl) : SameField s (s.takeFields l off cur new) off g := by
  induction l generalizing s with
  | nil => exact .refl s off g
  | cons fl l ih =>
    obtain ⟨hwf, hwl⟩ := List.forall_mem_cons.mp hw
    obtain ⟨hgf, hgl⟩ := List.forall_mem_cons.mp hg
    exact (takeField_sameField s off cur new hwf hgf).trans (ih _ hwl hgl)

/-- Fields that do not meet each take the write as if alone. -/
theorem LaidOut.takeFields_took {l : List RegField} (hl : LaidOut l) (s : State) (off cur new : Nat) :
    ∀ fl ∈ l, Took s (s.takeFields l off cur new) off cur fl (bitsOf new fl.lo fl.w) := by
  obtain ⟨apart, inWord, -⟩ := hl
  induction l generalizing s with
  | nil => exact fun _ h => nomatch h
  | cons g l ih =>
    obtain ⟨hg, hrest⟩ := List.pairwise_cons.mp apart
    obtain ⟨hwg, hwl⟩ := List.forall_mem_cons.mp inWord
    refine List.forall_mem_cons.mpr ⟨?_, fun fl hfl => ?_⟩
    · exact (takeField_took s off cur new hwg).congr (.refl s off g) (takeFields_sameField _ off cur new hwl hg)
    · exact (ih _ hrest hwl fl hfl).congr (takeField_sameField s off cur new hwg (hg fl hfl).symm) (.refl _ off fl)

/-! ### The write of a register -/

/-- A register of the host block that is no command register starts nothing. -/
theorem startsHost_of_not_commandRegister (s : State) (f unit : Nat) {rel : Nat} (cur new w : Nat) (h : commandRegister ⟨.host, unit, rel⟩ = false) :
    s.startsHost f ⟨.host, unit, rel⟩ cur new w = s := by
  simp only [commandRegister, decide_eq_false_iff_not, not_or] at h
  obtain ⟨bias, ringCmd, evtCfg, bucket, molt, reset⟩ := h
  unfold State.startsHost
  dsimp only
  rw [if_neg bias, if_neg ringCmd, if_neg evtCfg, if_neg bucket, if_neg molt, if_neg reset]

/-- A register that is no command register starts nothing. -/
theorem starts_of_not_commandRegister (s : State) (f : Nat) {p : Place} (cur new w : Nat) (h : commandRegister p = false) :
    s.starts f p cur new w = s := by
  obtain ⟨blk, unit, rel⟩ := p
  cases blk with
  | host => exact startsHost_of_not_commandRegister s f unit cur new w h
  | card =>
    obtain ⟨cmd, loopback⟩ := not_or.mp (of_decide_eq_false h)
    simp only [State.starts, if_neg cmd, if_neg loopback]
  | pwr =>
    have brake : ¬ rel = 8 := of_decide_eq_false h
    simp only [State.starts, if_neg brake]
  | sec =>
    obtain ⟨level, fw, halt⟩ := (not_or.mp (of_decide_eq_false h)).imp_right not_or.mp
    simp only [State.starts, State.startsSec, if_neg level, if_neg fw, if_neg halt]
  | chorus =>
    have part : ¬ rel < 0x200 := of_decide_eq_false h
    simp only [State.starts, if_neg part]
  | cc =>
    have trace : ¬ rel = 0x200 := of_decide_eq_false h
    simp only [State.starts, trace, false_and, if_false]
  | tile =>
    have debug : ¬ 0x7040 ≤ rel := of_decide_eq_false h
    have cell : ¬ rel = 0x7040 := by omega
    have address : ¬ 0x7100 ≤ rel := by omega
    simp only [State.starts, if_neg cell, if_neg address]
  | seam | msix | bdie => rfl

/-- A register that is no command register keeps every field that it takes. -/
theorem stored_of_not_commandRegister {p : Place} (l : List RegField) (h : commandRegister p = false) : brakeless p (keeps p l) = l := by
  have card : ¬ (p.blk = .card ∧ p.rel = 0x18) := fun ⟨hb, hr⟩ => by simp [commandRegister, hb, hr] at h
  have tile : ¬ (p.blk = .tile ∧ 0x7100 ≤ p.rel) := fun ⟨hb, hr⟩ => by
    simp only [commandRegister, hb, decide_eq_false_iff_not] at h
    omega
  have brake : ¬ (p.blk = .pwr ∧ p.rel = 8) := fun ⟨hb, hr⟩ => by simp [commandRegister, hb, hr] at h
  rw [keeps, if_neg (not_or.mpr ⟨card, tile⟩), brakeless, if_neg brake]

theorem findRow_blk_ne_msix {p : Place} {r : RegRow} (h : findRow p.blk p.rel = some r) : p.blk ≠ .msix := by
  intro hm
  rw [hm] at h
  cases h

theorem Reaches.laidOut {s : State} {f off : Nat} {p : Place} {r : RegRow} (h : Reaches s f off p r) : LaidOut (fieldsFor f p r) := by
  obtain ⟨-, -, hrow, -, -, -⟩ := h
  exact fieldsFor_laidOut hrow

/-- A tile window that a write reaches belongs to a tile that the floor plan lists (R193). -/
theorem Reaches.not_unlisted {s : State} {f off : Nat} {p : Place} {r : RegRow} (h : Reaches s f off p r) :
    ¬ (p.blk = .tile ∧ (!s.enabled p.unit) = true) := by
  obtain ⟨-, -, -, -, -, listed⟩ := h
  rintro ⟨hb, hn⟩
  simp [listed hb] at hn

/-- A write that reaches a register is a write of the whole register. -/
theorem Reaches.bar0Write {s : State} {f off : Nat} {p : Place} {r : RegRow} (h : Reaches s f off p r) (new : Nat) :
    s.bar0Write f off 8 new = s.writeWhole f p r off new := by
  obtain ⟨hoff, hp, hr, hk, hd, -⟩ := h
  have e : off / 8 * 8 = off := by omega
  simp [State.bar0Write, hk, hd, e, hp, hr, findRow_blk_ne_msix hr]

/-- A write that no rule rejects, of a register that starts no command, is taken in each field. -/
theorem Reaches.writeWhole_taken {s : State} {f off : Nat} {p : Place} {r : RegRow} (h : Reaches s f off p r) {new : Nat}
    (hc : commandRegister p = false) (hr : s.refuses f p (fieldsFor f p r) (s.readPlace p off) new = false)
    (ha : s.refusesAlso f p (s.readPlace p off) new (nextWord (fieldsFor f p r) (s.readPlace p off) new) = false) :
    s.writeWhole f p r off new = s.takeFields (fieldsFor f p r) off (s.readPlace p off) new := by
  rw [State.writeWhole, if_neg h.not_unlisted]
  dsimp only
  rw [hr, ha, starts_of_not_commandRegister _ _ _ _ _ hc, stored_of_not_commandRegister _ hc]
  rfl

/-- A write that changes a class S field of an active unit, or a field to a reserved value, only sets the change-reject flag. -/
theorem Reaches.writeWhole_refused {s : State} {f off : Nat} {p : Place} {r : RegRow} (h : Reaches s f off p r) {new : Nat}
    (hr : s.refuses f p (fieldsFor f p r) (s.readPlace p off) new = true) : s.writeWhole f p r off new = s.chgRej p := by
  rw [State.writeWhole, if_neg h.not_unlisted]
  dsimp only
  rw [hr, Bool.true_or, if_pos rfl]

/-- Settles O5: the fields of a register do not meet, so each takes the write as if alone. -/
theorem registerWriteTakesEachField : Obligations.RegisterWriteTakesEachField := by
  unfold Obligations.RegisterWriteTakesEachField
  intro f off data s p r h hc hr ha
  have hx : exec (.registerWrite f off 8 data) s = .next (s.takeFields (fieldsFor f.val p r) off (s.readPlace p off) data.toNat) := by
    rw [← h.writeWhole_taken hc hr ha, ← h.bar0Write]
    rfl
  obtain ⟨rest, others⟩ := takeFields_onlyRegister s (fieldsFor f.val p r) off (s.readPlace p off) data.toNat
  exact ⟨_, hx, rest, others, h.laidOut.takeFields_took s off _ _⟩

/-! ### A rejected write -/

/-- A change that a class S field or a reserved value forbids makes the write be refused (R6, R13). -/
theorem LaidOut.refuses_of_forbidden {s : State} {f : Nat} {p : Place} {l : List RegField} (hl : LaidOut l) {cur new : Nat}
    (h : ∃ fl ∈ l,
      (∃ g, fl.cls = .S g ∧ s.active p g = true ∧ fl.changes cur new = true) ∨
      (fl.sets = true ∧ bitsOf new fl.lo fl.w ≠ bitsOf cur fl.lo fl.w ∧ s.legal f p (nextWord l cur new) (bitsOf new fl.lo fl.w) fl.legal = false)) :
    s.refuses f p l cur new = true := by
  obtain ⟨fl, hfl, h⟩ := h
  refine List.any_eq_true.mpr ⟨fl, hfl, Bool.or_eq_true_iff.mpr ?_⟩
  rcases h with ⟨g, hg, ha, hch⟩ | ⟨hs, hne, hbad⟩
  · left
    simp only [hg, ha, hch, Bool.and_self]
  · right
    have hw := hl.bitsOf_nextWord cur new hfl hs
    have judged := xor_and_pairMask_ne_zero (hl.judged fl hfl) (hw.trans_ne hne)
    simp [hs, hw, hbad, judged]

/-- Setting a bit changes nothing else. -/
theorem raise_onlyBit (s : State) (b : Nat) {f : Fld} (hw : f.w = 1) (hlo : f.lo < 64) :
    (s.raise b f = { s with regs := (s.raise b f).regs }) ∧
      (s.raise b f).word (b + f.off) = setBits (s.word (b + f.off)) f.lo 1 1 ∧ ∀ q, q ≠ b + f.off → (s.raise b f).word q = s.word q := by
  refine ⟨rfl, ?_, fun q hq => State.wr_word_ne s b q f 1 hq⟩
  rw [State.raise, State.wr_word, hw, Nat.mod_eq_of_lt (setBits_lt (State.word_lt _ _) (by omega))]

/-- A rejected write sets the change-reject flag of Table 19-2, and nothing else changes. -/
theorem chgRej_rejected (s : State) (p : Place) : Rejected s (s.chgRej p) p := by
  obtain ⟨blk, unit, rel⟩ := p
  cases blk with
  | card => exact raise_onlyBit s hostB rfl (by decide)
  | host =>
    unfold Rejected rejectFlag State.chgRej
    dsimp only
    split
    · exact raise_onlyBit s hostB rfl (by decide)
    · exact raise_onlyBit s hostB rfl (by decide)
  | pwr => exact raise_onlyBit s pwrB rfl (by decide)
  | sec => exact raise_onlyBit s secB rfl (by decide)
  | chorus => exact raise_onlyBit s chorusB rfl (by decide)
  | tile => exact raise_onlyBit s (tileB unit) rfl (by decide)
  | cc => exact raise_onlyBit s (ccB unit) rfl (by decide)
  | bdie => exact raise_onlyBit s (bdB unit) rfl (by decide)
  | seam | msix => exact ⟨rfl, rfl⟩

/-- Settles O6: such a write is refused, and a refused write only raises the flag of its block. -/
theorem rejectedWriteSetsOnlyItsFlag : Obligations.RejectedWriteSetsOnlyItsFlag := by
  unfold Obligations.RejectedWriteSetsOnlyItsFlag
  intro f off data s p r h forbidden
  have hx : exec (.registerWrite f off 8 data) s = .next (s.chgRej p) := by
    rw [← h.writeWhole_refused (h.laidOut.refuses_of_forbidden forbidden), ← h.bar0Write]
    rfl
  exact ⟨_, hx, chgRej_rejected s p⟩

/-! ### Reset values -/

/-- At reset every register word holds its reset value (R14). -/
theorem reset_word (off : Nat) : State.reset.word off = (regReset off).toNat := rfl

/-- CC_ID of the CC of each channel index lies in that CC's window (R510). -/
theorem placeOf_ccB {c : Nat} (h : c < 384) : placeOf (ccB c) = some ⟨.cc, c, 0⟩ := by
  have index : (0x2000000 + c * 0x8000 - 0x2000000) / 0x8000 = c := by omega
  have base : (0x2000000 + c * 0x8000) % 0x8000 = 0 := by omega
  unfold placeOf ccB
  repeat rw [if_neg (by omega)]
  rw [if_pos (by omega), index, base]

/-- At reset CC_ID of a CC names its source, stack, channel and C-die (R17, Table 3-7). -/
theorem reset_ccId {c : Nat} (h : c < 384) :
    State.reset.word (ccB c) = (0x200 + c) + c / 32 * 2 ^ 16 + c % 32 * 2 ^ 24 + (if c < 192 then 0 else 1) * 2 ^ 32 := by
  have table : findRow .cc 0 = some ((findRow .cc 0).get (by decide)) := (Option.some_get _).symm
  have blank : rowReset ((findRow .cc 0).get (by decide)) = 0 := by decide
  have fits : (0x200 + c) + c / 32 * 2 ^ 16 + c % 32 * 2 ^ 24 + (if c < 192 then 0 else 1) * 2 ^ 32 < 2 ^ 64 := by split <;> omega
  rw [reset_word, regReset, placeOf_ccB h]
  dsimp only
  rw [table]
  dsimp only
  rw [blank, Nat.zero_add]
  exact toNat_ofNat_of_lt fits

/-- At reset the fields of CC_ID read the source, stack and channel of the CC. -/
theorem reset_ccId_fields {c : Nat} (h : c < 384) : State.reset.rd (ccB c) CC_ID_SOURCE = 0x200 + c ∧
    State.reset.rd (ccB c) CC_ID_STACK = c / 32 ∧ State.reset.rd (ccB c) CC_ID_CHANNEL = c % 32 := by
  simp only [State.rd, CC_ID_SOURCE, CC_ID_STACK, CC_ID_CHANNEL, Nat.add_zero, reset_ccId h, bitsOf]
  generalize (if c < 192 then 0 else 1) = die
  have stack : ((0x200 + c) + c / 32 * 2 ^ 16 + c % 32 * 2 ^ 24 + die * 2 ^ 32) / 2 ^ 16 = c / 32 + 2 ^ 8 * (c % 32 + 2 ^ 8 * die) := by omega
  have channel : ((0x200 + c) + c / 32 * 2 ^ 16 + c % 32 * 2 ^ 24 + die * 2 ^ 32) / 2 ^ 24 = c % 32 + 2 ^ 8 * die := by omega
  rw [stack, channel]
  omega

/-- Before bring-up the floor plan lists no tile (R193; log 3). -/
theorem reset_enabled (t : Nat) : State.reset.enabled t = false := by
  by_cases ht : t < 512
  · have unlisted : ∀ i < 8, State.reset.rd cardB (FP_TILES_TILES.at (8 * i)) = 0 := by decide
    rw [State.enabled, unlisted _ (by omega)]
    simp [bit]
  · simp [State.enabled, isSite, ht]

/-- Settles O4, register by register, from the reset values of the tables. -/
theorem resetRegisterValues : Obligations.ResetRegisterValues := by
  unfold Obligations.ResetRegisterValues
  refine ⟨⟨Mem.empty_wf, rfl⟩, ?_, fun c hc => reset_ccId_fields hc, ?_, fun t => ⟨rfl, reset_enabled t⟩⟩
  · decide
  · decide

end Sys2Proof.Machine
end

section
/-! What one step does, by the queue it meets: the command at the front, or the idle tick (R7, R26; log 1). -/

namespace Sys2Proof.Machine

/-- A step takes the command at the front off the queue and runs it. -/
theorem step_of_pending_cons {s : State} {c : Instr} {rest : List Instr} (h : s.pending = c :: rest) :
    step s = exec c { s with pending := rest } := by
  rw [step, h]

/-- With no command waiting, a step is the tick of TSC. -/
theorem step_of_pending_nil {s : State} (h : s.pending = []) : step s = .next s.tick := by
  rw [step, h]

/-- Settles O1, by the two forms of the queue: a command at its front, or none. -/
theorem stepRunsFrontCommand : Obligations.StepRunsFrontCommand := by
  unfold Obligations.StepRunsFrontCommand
  refine ⟨fun c rest s => ?front, fun s idle => ?idle, rfl⟩
  case front => exact step_of_pending_cons rfl
  case idle => exact step_of_pending_nil idle

end Sys2Proof.Machine
end

section
/-! The decode of the interleaved window: what a bank number says of the bits that its masks name, and that no two addresses share a place (R71-R73, Table 3-3). -/

namespace Sys2Proof.Machine

/-! ### Parities of masked bits -/

theorem bit_and (n m i : Nat) : bit (n &&& m) i = (bit n i && bit m i) := by
  simp only [bit_eq_testBit, Nat.testBit_and]

theorem parity_succ (w n : Nat) : parity (w + 1) n = xor (parity w n) (bit n w) := by
  simp only [parity, List.range_succ, List.foldl_append, List.foldl_cons, List.foldl_nil]

/-- Numbers with the same low bits have the same parity. -/
theorem parity_congr {w n m : Nat} (h : ∀ i < w, bit n i = bit m i) : parity w n = parity w m := by
  induction w with
  | zero => rfl
  | succ w ih => rw [parity_succ, parity_succ, ih fun i hi => h i (by omega), h w (by omega)]

/-- Numbers of equal parity that agree in all low bits but one agree in that bit too. -/
theorem bit_eq_of_parity_eq {w n m p : Nat} (hp : p < w) (others : ∀ i < w, i ≠ p → bit n i = bit m i) (h : parity w n = parity w m) :
    bit n p = bit m p := by
  induction w with
  | zero => omega
  | succ w ih =>
    rw [parity_succ, parity_succ] at h
    by_cases hw : p = w
    · subst hw
      rw [parity_congr fun i hi => others i (by omega) (by omega)] at h
      exact Bool.xor_right_inj.mp h
    · rw [others w (by omega) (Ne.symm hw)] at h
      exact ih (by omega) (fun i hi => others i (by omega)) (Bool.xor_left_inj.mp h)

/-! ### The bank number -/

/-- The number whose bit `i` is `p i`, for each `i` below `n`. -/
def sumBits (n : Nat) (p : Nat → Bool) : Nat := (List.range n).foldl (fun a i => a + (if p i then 2 ^ i else 0)) 0

theorem sumBits_succ (n : Nat) (p : Nat → Bool) : sumBits (n + 1) p = sumBits n p + if p n then 2 ^ n else 0 := by
  simp only [sumBits, List.range_succ, List.foldl_append, List.foldl_cons, List.foldl_nil]

theorem sumBits_lt (n : Nat) (p : Nat → Bool) : sumBits n p < 2 ^ n := by
  induction n with
  | zero => exact Nat.one_pos
  | succ n ih =>
    rw [sumBits_succ, Nat.pow_succ]
    split <;> omega

/-- Equal numbers have equal bits. -/
theorem sumBits_inj {n : Nat} {p q : Nat → Bool} (h : sumBits n p = sumBits n q) : ∀ i < n, p i = q i := by
  induction n with
  | zero => exact fun i hi => absurd hi (Nat.not_lt_zero i)
  | succ n ih =>
    rw [sumBits_succ, sumBits_succ] at h
    have hp := sumBits_lt n p
    have hq := sumBits_lt n q
    have top : p n = q n := by
      cases hpn : p n <;> cases hqn : q n <;> simp only [hpn, hqn, if_true, if_false, Bool.false_eq_true] at h ⊢ <;> omega
    rw [top] at h
    intro i hi
    rcases Nat.lt_succ_iff_lt_or_eq.mp hi with hlt | rfl
    · exact ih (Nat.add_right_cancel h) i hlt
    · exact top

/-- The bank that the masks give an address. -/
def maskedBank (masks : List Nat) (a : Nat) : Nat := sumBits 5 (fun i => parity 40 (a &&& masks.getD i 0))

/-- Mask `i` names bit `lo + i` and further bits from `lo + 5` on alone (Table 3-3). -/
def MasksFrom (lo : Nat) (masks : List Nat) : Prop :=
  ∀ i < 5, bit (masks.getD i 0) (lo + i) = true ∧ ∀ j < 40, bit (masks.getD i 0) j = true → j = lo + i ∨ lo + 5 ≤ j

theorem localMasks_from : MasksFrom 17 localMasks := by unfold MasksFrom; decide
theorem wideMasks_from : MasksFrom 18 wideMasks := by unfold MasksFrom; decide

/-- The five bits under the masks are recovered from the bank number and the bits above them. -/
theorem MasksFrom.bitsOf_eq {lo : Nat} {masks : List Nat} (hm : MasksFrom lo masks) (hlo : lo + 5 ≤ 40) {a c : Nat}
    (above : ∀ j, lo + 5 ≤ j → j < 40 → bit a j = bit c j) (bank : maskedBank masks a = maskedBank masks c) : bitsOf a lo 5 = bitsOf c lo 5 := by
  refine Nat.eq_of_testBit_eq fun i => ?_
  rw [testBit_bitsOf, testBit_bitsOf]
  by_cases hi : i < 5
  · obtain ⟨own, only⟩ := hm i hi
    have masked := bit_eq_of_parity_eq (p := lo + i) (by omega) (fun j hj hne => ?_) (sumBits_inj bank i hi)
    · rw [bit_and, bit_and, own, Bool.and_true, Bool.and_true, bit_eq_testBit, bit_eq_testBit] at masked
      rw [masked]
    · rw [bit_and, bit_and]
      cases hj' : bit (masks.getD i 0) j with
      | false => rw [Bool.and_false, Bool.and_false]
      | true => rw [above j ((only j hj hj').resolve_left hne) hj]
  · simp [hi]

/-- Addresses with equal upper parts have equal upper bits. -/
theorem bit_eq_of_div_eq {a c lo j : Nat} (h : a / 2 ^ lo = c / 2 ^ lo) (hj : lo ≤ j) : bit a j = bit c j := by
  obtain ⟨k, rfl⟩ := Nat.exists_eq_add_of_le hj
  unfold bit
  rw [Nat.pow_add, ← Nat.div_div_eq_div_mul, ← Nat.div_div_eq_div_mul, h]

/-! ### The key of a place -/

/-- A key names one channel, bank, row and byte (Table 3-2). -/
theorem mkKey_inj {chan bank row byte chan' bank' row' byte' : Nat} (hb : bank < 128) (hr : row < 2 ^ 13) (hy : byte < 2 ^ 11)
    (hb' : bank' < 128) (hr' : row' < 2 ^ 13) (hy' : byte' < 2 ^ 11) (h : mkKey chan bank row byte = mkKey chan' bank' row' byte') :
    chan = chan' ∧ bank = bank' ∧ row = row' ∧ byte = byte' := by
  unfold mkKey at h
  omega

/-- The place of an address in the card-wide mode. -/
def wideKey (masks : List Nat) (a : Nat) : Nat :=
  let u := bitsOf a 23 17
  mkKey ((u % 3 * 4 + bitsOf a 13 2) * 32 + bitsOf a 8 5) (u / 3 / 2 ^ 13 % 4 * 32 + maskedBank masks a) (u / 3 % 2 ^ 13) (bitsOf a 15 3 * 256 + a % 256)

/-- The place of an address `b` of a die's half of the window, whose masks act on `a`. -/
def localKey (masks : List Nat) (a die b : Nat) : Nat :=
  let u := bitsOf b 22 18
  mkKey ((die * 6 + u % 3 * 2 + bitsOf b 13 1) * 32 + bitsOf b 8 5) (u / 3 / 2 ^ 13 % 4 * 32 + maskedBank masks a) (u / 3 % 2 ^ 13) (bitsOf b 14 3 * 256 + b % 256)

theorem interleaved_wide {masks : List Nat} {a : Nat} (h : a < 0xC000000000) : interleaved masks true a = some (wideKey masks a) := by
  rw [interleaved, if_neg (by omega)]
  rfl

/-- The lower half of the window lies in the stacks of C0, the upper in those of C1 (R72). -/
theorem interleaved_local {masks : List Nat} {a : Nat} (h : a < 0xC000000000) :
    ∃ die b, interleaved masks false a = some (localKey masks a die b) ∧ b < 0x6000000000 ∧ a = die * 0x6000000000 + b := by
  refine ⟨if a < 0x6000000000 then 0 else 1, a - (if a < 0x6000000000 then 0 else 1) * 0x6000000000, ?_, ?_⟩
  · have low : (a - (if a < 0x6000000000 then 0 else 1) * 0x6000000000) % 256 = a % 256 := by split <;> omega
    rw [interleaved, if_neg (by omega), localKey, low]
    rfl
  · split <;> omega

theorem maskedBank_lt (masks : List Nat) (a : Nat) : maskedBank masks a < 32 := sumBits_lt 5 _

/-- Two digits of a mixed radix. -/
theorem radix_inj {r x l x' l' : Nat} (hl : l < r) (hl' : l' < r) (h : x * r + l = x' * r + l') : x = x' ∧ l = l' := by
  have hr : 0 < r := by omega
  have high := congrArg (· / r) h
  simp only [Nat.mul_comm _ r, Nat.mul_add_div hr, Nat.div_eq_of_lt hl, Nat.div_eq_of_lt hl', Nat.add_zero] at high
  exact ⟨high, by rw [high] at h; omega⟩

/-- The granule of a row on three stacks is recovered from its stack, SID and row (R72). -/
theorem granule_inj {u v : Nat} (hu : u < 98304) (hv : v < 98304) (stack : u % 3 = v % 3) (sid : u / 3 / 2 ^ 13 % 4 = v / 3 / 2 ^ 13 % 4)
    (row : u / 3 % 2 ^ 13 = v / 3 % 2 ^ 13) : u = v := by
  have third : u / 3 = v / 3 := by omega
  omega

/-- An address is its parts in the card-wide mode. -/
theorem wide_parts (a : Nat) (h : a < 0xC000000000) :
    a = bitsOf a 23 17 * 2 ^ 23 + bitsOf a 18 5 * 2 ^ 18 + bitsOf a 15 3 * 2 ^ 15 + bitsOf a 13 2 * 2 ^ 13 + bitsOf a 8 5 * 2 ^ 8 + a % 256 := by
  unfold bitsOf; omega

/-- An offset in a die's half is its parts in the die-local mode. -/
theorem local_parts (b : Nat) (h : b < 0x6000000000) :
    b = bitsOf b 22 18 * 2 ^ 22 + bitsOf b 17 5 * 2 ^ 17 + bitsOf b 14 3 * 2 ^ 14 + bitsOf b 13 1 * 2 ^ 13 + bitsOf b 8 5 * 2 ^ 8 + b % 256 := by
  unfold bitsOf; omega

/-- In the card-wide mode the parts of an address above the bank bits are recovered from its place, then those bits, and with them the address. -/
theorem wideKey_inj {a c : Nat} (ha : a < 0xC000000000) (hc : c < 0xC000000000) (h : wideKey wideMasks a = wideKey wideMasks c) : a = c := by
  have fields (lo w : Nat) := And.intro (bitsOf_lt a lo w) (bitsOf_lt c lo w)
  have hu : bitsOf a 23 17 < 98304 ∧ bitsOf c 23 17 < 98304 := by unfold bitsOf; omega
  obtain ⟨⟨ha8, hc8⟩, ⟨ha13, hc13⟩, ⟨ha15, hc15⟩⟩ := And.intro (fields 8 5) (And.intro (fields 13 2) (fields 15 3))
  have hba := maskedBank_lt wideMasks a
  have hbc := maskedBank_lt wideMasks c
  obtain ⟨hchan, hbank, hrow, hbyte⟩ := mkKey_inj (by omega) (by omega) (by omega) (by omega) (by omega) (by omega) h
  obtain ⟨hstack, hch⟩ := radix_inj ha8 hc8 hchan
  obtain ⟨hthird, hpair⟩ := radix_inj ha13 hc13 hstack
  obtain ⟨hsid, hmask⟩ := radix_inj hba hbc hbank
  obtain ⟨hcol, hlow⟩ := radix_inj (by omega) (by omega) hbyte
  have hgran := granule_inj hu.1 hu.2 hthird hsid hrow
  have top : a / 2 ^ 23 = c / 2 ^ 23 := by unfold bitsOf at hgran; omega
  have hmid := wideMasks_from.bitsOf_eq (by decide) (fun j hj _ => bit_eq_of_div_eq top hj) hmask
  rw [wide_parts a ha, wide_parts c hc, hgran, hmid, hcol, hpair, hch, hlow]

/-- In the die-local mode too; the masks do not reach the bits that tell the dies apart. -/
theorem localKey_inj {a c da dc b e : Nat} (hb : b < 0x6000000000) (he : e < 0x6000000000)
    (ha : a = da * 0x6000000000 + b) (hc : c = dc * 0x6000000000 + e) (h : localKey localMasks a da b = localKey localMasks c dc e) : a = c := by
  have fields (lo w : Nat) := And.intro (bitsOf_lt b lo w) (bitsOf_lt e lo w)
  have hu : bitsOf b 22 18 < 98304 ∧ bitsOf e 22 18 < 98304 := by unfold bitsOf; omega
  obtain ⟨⟨hb8, he8⟩, ⟨hb13, he13⟩, ⟨hb14, he14⟩⟩ := And.intro (fields 8 5) (And.intro (fields 13 1) (fields 14 3))
  have hba := maskedBank_lt localMasks a
  have hbc := maskedBank_lt localMasks c
  obtain ⟨hchan, hbank, hrow, hbyte⟩ := mkKey_inj (by omega) (by omega) (by omega) (by omega) (by omega) (by omega) h
  obtain ⟨hstack, hch⟩ := radix_inj hb8 he8 hchan
  obtain ⟨hdies, hpair⟩ := radix_inj (r := 2) hb13 he13 (x := da * 3 + bitsOf b 22 18 % 3) (x' := dc * 3 + bitsOf e 22 18 % 3) (by omega)
  obtain ⟨hdie, hthird⟩ := radix_inj (by omega) (by omega) hdies
  obtain ⟨hsid, hmask⟩ := radix_inj hba hbc hbank
  obtain ⟨hcol, hlow⟩ := radix_inj (by omega) (by omega) hbyte
  have hgran := granule_inj hu.1 hu.2 hthird hsid hrow
  have top : a / 2 ^ 22 = c / 2 ^ 22 := by unfold bitsOf at hgran; omega
  have hmid := localMasks_from.bitsOf_eq (by decide) (fun j hj _ => bit_eq_of_div_eq top hj) hmask
  have lower : bitsOf a 17 5 = bitsOf b 17 5 ∧ bitsOf c 17 5 = bitsOf e 17 5 := by
    unfold bitsOf; omega
  rw [lower.1, lower.2] at hmid
  have same : b = e := by
    rw [local_parts b hb, local_parts e he, hgran, hmid, hcol, hpair, hch, hlow]
  rw [ha, hc, hdie, same]

/-- Settles O11: in each mode the place of an address gives back the address. -/
theorem interleavedDecodeIsInjective : Obligations.InterleavedDecodeIsInjective := by
  unfold Obligations.InterleavedDecodeIsInjective
  intro wide a c ha hc masks h
  cases wide with
  | true =>
    rw [interleaved_wide ha, interleaved_wide hc] at h
    exact wideKey_inj ha hc (Option.some.inj h)
  | false =>
    obtain ⟨da, b, ea, hb, hab⟩ := interleaved_local (masks := masks) ha
    obtain ⟨dc, e, ec, he, hce⟩ := interleaved_local (masks := masks) hc
    rw [ea, ec] at h
    exact localKey_inj hb he hab hce (Option.some.inj h)

end Sys2Proof.Machine
end

section
/-! What the operations of a channel controller change and leave alone: register words, the power-down mask, rows, faults, and the slot of a channel on which nothing has precedence (R77-R103). -/

namespace Sys2Proof.Machine

/-! ### Register words -/

theorem WordsBut.refl (s : State) (l : List Nat) : WordsBut s s l := fun _ _ => rfl

theorem WordsBut.trans {s t u : State} {l : List Nat} (h : WordsBut s t l) (g : WordsBut t u l) : WordsBut s u l :=
  fun o ho => (g o ho).trans (h o ho)

theorem WordsBut.mono {s t : State} {l m : List Nat} (h : WordsBut s t l) (hl : l ⊆ m) : WordsBut s t m :=
  fun o ho => h o fun hm => ho (hl hm)

/-- States with the same registers differ in no word. -/
theorem WordsBut.of_regs {s t : State} (h : t.regs = s.regs) (l : List Nat) : WordsBut s t l := fun o _ => by
  unfold State.word; rw [h]

theorem WordsBut.rd {s t : State} {l : List Nat} (h : WordsBut s t l) {b : Nat} {f : Fld} (hl : b + f.off ∉ l) : t.rd b f = s.rd b f :=
  State.rd_of_word (h _ hl)

theorem WordsBut.flag {s t : State} {l : List Nat} (h : WordsBut s t l) {b : Nat} {f : Fld} (hl : b + f.off ∉ l) : t.flag b f = s.flag b f := by
  unfold State.flag; rw [h.rd hl]

theorem wr_wordsBut (s : State) (b : Nat) (f : Fld) (v : Nat) : WordsBut s (s.wr b f v) [b + f.off] :=
  fun _ ho => State.wr_word_ne s b _ f v (by simpa using ho)

theorem OnlyWords.refl (s : State) (l : List Nat) : OnlyWords s s l := ⟨rfl, .refl s l⟩

theorem OnlyWords.trans {s t u : State} {l : List Nat} (h : OnlyWords s t l) (g : OnlyWords t u l) : OnlyWords s u l := by
  obtain ⟨ht, hw⟩ := h
  obtain ⟨hu, gw⟩ := g
  exact ⟨hu.trans (by rw [ht]), hw.trans gw⟩

theorem wr_onlyWords (s : State) (b : Nat) (f : Fld) (v : Nat) : OnlyWords s (s.wr b f v) [b + f.off] := ⟨rfl, wr_wordsBut s b f v⟩

/-! ### The trace -/

/-- With the trace off a command leaves no record. -/
theorem Untraced.trace {s : State} {c : Nat} (h : Untraced s c) (tag : Option Nat) (row col : Nat) : s.trace c tag row col = s := by
  unfold Untraced at h
  simp [State.trace, h]

theorem Untraced.of_wordsBut {s t : State} {c : Nat} {l : List Nat} (h : Untraced s c) (hw : WordsBut s t l) (hl : ccB c + CC_TRACE_CTRL_ENABLE.off ∉ l) :
    Untraced t c := (hw.flag hl).trans h

theorem Untraced.of_regs {s t : State} {c : Nat} (h : Untraced s c) (hr : t.regs = s.regs) : Untraced t c :=
  h.of_wordsBut (.of_regs hr []) (by simp)

/-! ### Power-down -/

theorem upto_succ {α : Type} (n : Nat) (f : Nat → α → α) (x : α) : upto (n + 1) f x = f n (upto n f x) := by
  simp only [upto, List.range_succ, List.foldl_append, List.foldl_cons, List.foldl_nil]

/-- Clearing a set bit of a mask of four. -/
theorem bit_sub_two_pow : ∀ n < 16, ∀ i < 4, bit n i = true → ∀ j < 4, bit ((n - 2 ^ i) % 2 ^ 4) j = (bit n j && !decide (j = i)) := by decide

/-- Setting a clear bit of a mask of four. -/
theorem bit_add_two_pow : ∀ n < 16, ∀ i < 4, bit n i = false → ∀ j < 4, bit ((n + 2 ^ i) % 2 ^ 4) j = (bit n j || decide (j = i)) := by decide

theorem bit_two_pow : ∀ i < 4, ∀ j < 4, bit (2 ^ i) j = decide (j = i) := by decide

theorem eq_zero_of_bits : ∀ n < 16, (∀ j < 4, bit n j = false) → n = 0 := by decide

theorem sidPd_lt (s : State) (c : Nat) : s.rd (ccB c) CC_STATUS_SID_PD < 16 := bitsOf_lt _ _ _

theorem sidPd_wr (s : State) (c v : Nat) : (s.wr (ccB c) CC_STATUS_SID_PD v).rd (ccB c) CC_STATUS_SID_PD = v % 2 ^ 4 :=
  State.rd_wr_same s _ CC_STATUS_SID_PD v (by decide)

theorem trace_word_ne_status (c : Nat) : ccB c + CC_TRACE_CTRL_ENABLE.off ∉ [ccB c + CC_STATUS_SID_PD.off] := by
  simp [CC_TRACE_CTRL_ENABLE, CC_STATUS_SID_PD]

/-- Leaving power-down clears the bits of the mask and changes nothing else (R95). -/
theorem Untraced.pdx {s : State} {c : Nat} (h : Untraced s c) (mask : Nat) :
    OnlyWords s (s.pdx c mask) [ccB c + CC_STATUS_SID_PD.off] ∧
      ∀ j < 4, bit ((s.pdx c mask).rd (ccB c) CC_STATUS_SID_PD) j = (bit (s.rd (ccB c) CC_STATUS_SID_PD) j && !bit mask j) := by
  have loop : ∀ n ≤ 4, ∃ t, t = upto n (fun sid s =>
      if bit mask sid && bit (s.rd (ccB c) CC_STATUS_SID_PD) sid then
        (s.wr (ccB c) CC_STATUS_SID_PD (s.rd (ccB c) CC_STATUS_SID_PD - 2 ^ sid)).trace c none (rowPdx sid) 0
      else s) s ∧ OnlyWords s t [ccB c + CC_STATUS_SID_PD.off] ∧
        ∀ j < 4, bit (t.rd (ccB c) CC_STATUS_SID_PD) j = (bit (s.rd (ccB c) CC_STATUS_SID_PD) j && !(bit mask j && decide (j < n))) := by
    intro n hn
    induction n with
    | zero => exact ⟨s, rfl, .refl s _, fun j _ => by simp⟩
    | succ n ih =>
      obtain ⟨t, ht, only, bits⟩ := ih (by omega)
      rw [upto_succ, ← ht]
      have below (j : Nat) : decide (j < n + 1) = (decide (j < n) || decide (j = n)) := by
        rw [← Bool.decide_or]; exact decide_eq_decide.mpr (by omega)
      split
      · rename_i hset
        obtain ⟨hmask, hbit⟩ := Bool.and_eq_true_iff.mp hset
        have off : Untraced (t.wr (ccB c) CC_STATUS_SID_PD (t.rd (ccB c) CC_STATUS_SID_PD - 2 ^ n)) c :=
          (h.of_wordsBut only.2 (trace_word_ne_status c)).of_wordsBut (wr_wordsBut _ _ _ _) (trace_word_ne_status c)
        rw [off.trace]
        refine ⟨_, rfl, only.trans (wr_onlyWords _ _ _ _), fun j hj => ?_⟩
        rw [sidPd_wr, bit_sub_two_pow _ (sidPd_lt t c) n (by omega) hbit j hj, bits j hj, below]
        by_cases hjn : j = n
        · subst hjn; simp [hmask]
        · simp [hjn]
      · rename_i hclear
        refine ⟨_, rfl, only, fun j hj => ?_⟩
        rw [bits j hj, below]
        by_cases hjn : j = n
        · subst hjn
          have own := bits j hj
          simp only [Nat.lt_irrefl, decide_false, Bool.and_false, Bool.not_false, Bool.and_true] at own
          rw [own] at hclear
          cases hm : bit mask j <;> cases hb : bit (s.rd (ccB c) CC_STATUS_SID_PD) j <;> simp_all
        · simp [hjn]
  obtain ⟨t, ht, only, bits⟩ := loop 4 (Nat.le_refl 4)
  have e : s.pdx c mask = t := ht.symm
  rw [e]
  exact ⟨only, fun j hj => by rw [bits j hj]; simp [hj]⟩

/-- Leaving power-down in one SID. -/
theorem Untraced.pdx_awake {s : State} {c sid : Nat} (h : Untraced s c) (hs : sid < 4) : Awake s (s.pdx c (2 ^ sid)) c sid := by
  obtain ⟨-, bits⟩ := h.pdx (2 ^ sid)
  refine ⟨?_, fun j hj hne => ?_⟩
  · rw [bits sid hs, bit_two_pow sid hs sid hs]; simp
  · rw [bits j hj, bit_two_pow sid hs j hj]; simp [hne]

theorem Untraced.of_pdx {s : State} {c : Nat} (h : Untraced s c) (mask : Nat) : Untraced (s.pdx c mask) c :=
  h.of_wordsBut (h.pdx mask).1.2 (trace_word_ne_status c)

/-! ### What one controller's operations may change -/

theorem OtherCcs.refl (s : State) (c : Nat) : OtherCcs s s c := fun _ _ => rfl
theorem OtherCcs.trans {s t u : State} {c : Nat} (h : OtherCcs s t c) (g : OtherCcs t u c) : OtherCcs s u c :=
  fun d hd => (g d hd).trans (h d hd)
theorem OtherCcs.setCc (s : State) (c : Nat) (k : CcSt) : OtherCcs s (s.setCc c k) c := fun d hd => State.setCc_cc_ne s c d k hd

/-- From `s` to `t` nothing changes but registers, CC `c`, storage, the Molt queue, reports, what leaves the card and the counter of free values. -/
structure CcFrame (c : Nat) (s t : State) : Prop where
  rest   : t = { s with regs := t.regs, ccs := t.ccs, mem := t.mem, molt := t.molt, reports := t.reports, out := t.out, free := t.free }
  others : OtherCcs s t c

theorem CcFrame.refl (c : Nat) (s : State) : CcFrame c s s := ⟨rfl, .refl s c⟩
theorem CcFrame.trans {c : Nat} {s t u : State} (h : CcFrame c s t) (g : CcFrame c t u) : CcFrame c s u := by
  obtain ⟨ht, ho⟩ := h
  obtain ⟨hu, go⟩ := g
  exact ⟨hu.trans (by rw [ht]), ho.trans go⟩
theorem CcFrame.tsc {c : Nat} {s t : State} (h : CcFrame c s t) : t.tsc = s.tsc := by rw [h.rest]
/-- A frame in which the Molt queue and the counter of free values stay too. -/
theorem CcFrame.narrow {c : Nat} {s t : State} (h : CcFrame c s t) (molt : t.molt = s.molt) (free : t.free = s.free) :
    t = { s with regs := t.regs, ccs := t.ccs, mem := t.mem, reports := t.reports, out := t.out } :=
  h.rest.trans (by rw [molt, free])
theorem CcFrame.setCc (c : Nat) (s : State) (k : CcSt) : CcFrame c s (s.setCc c k) := ⟨rfl, .setCc s c k⟩

/-- Of these, storage, what leaves the card and the counter of free values stay, and reports are added at the end. -/
structure CcWork (c : Nat) (s t : State) : Prop extends CcFrame c s t where
  mem     : t.mem = s.mem
  out     : t.out = s.out
  free    : t.free = s.free
  reports : s.reports <+: t.reports

theorem CcWork.refl (c : Nat) (s : State) : CcWork c s s := ⟨.refl c s, rfl, rfl, rfl, List.prefix_refl _⟩
theorem CcWork.trans {c : Nat} {s t u : State} (h : CcWork c s t) (g : CcWork c t u) : CcWork c s u :=
  ⟨h.toCcFrame.trans g.toCcFrame, g.mem.trans h.mem, g.out.trans h.out, g.free.trans h.free, h.reports.trans g.reports⟩
theorem CcWork.setCc (c : Nat) (s : State) (k : CcSt) : CcWork c s (s.setCc c k) := ⟨.setCc c s k, rfl, rfl, rfl, List.prefix_refl _⟩
theorem CcWork.wr (c : Nat) (s : State) (b : Nat) (f : Fld) (v : Nat) : CcWork c s (s.wr b f v) :=
  ⟨⟨rfl, fun _ _ => rfl⟩, rfl, rfl, rfl, List.prefix_refl _⟩
theorem CcWork.emit (c : Nat) (s : State) (src code : Nat) (data : List Nat) : CcWork c s (s.emit src code data) :=
  ⟨⟨rfl, fun _ _ => rfl⟩, rfl, rfl, rfl, List.prefix_append _ _⟩
/-- A change of registers alone. -/
theorem OnlyWords.ccWork {s t : State} {l : List Nat} (h : OnlyWords s t l) (c : Nat) : CcWork c s t := by
  obtain ⟨ht, -⟩ := h
  rw [ht]
  exact ⟨⟨rfl, fun _ _ => rfl⟩, rfl, rfl, rfl, List.prefix_refl _⟩
theorem OnlyWords.cc {s t : State} {l : List Nat} (h : OnlyWords s t l) (d : Nat) : t.cc d = s.cc d := by
  unfold State.cc; rw [h.1]
theorem OnlyWords.molt {s t : State} {l : List Nat} (h : OnlyWords s t l) : t.molt = s.molt := by rw [h.1]

/-! ### Rows -/

/-- The row of `bank` is closed, and nothing else has changed. -/
structure RowClosed (c bank : Nat) (s t : State) : Prop where
  rest      : t = { s with ccs := t.ccs }
  others    : OtherCcs s t c
  cc        : t.cc c = { s.cc c with rows := (t.cc c).rows }
  openRow   : (t.cc c).openRow bank = none
  otherRows : ∀ b, b ≠ bank → (t.cc c).openRow b = (s.cc c).openRow b

theorem Untraced.closeRow {s : State} {c : Nat} (h : Untraced s c) (bank : Nat) : RowClosed c bank s (s.closeRow c bank) := by
  unfold State.closeRow
  split
  · next shut => exact ⟨rfl, .refl s c, rfl, shut, fun _ _ => rfl⟩
  · have off (k : CcSt) : Untraced (s.setCc c k) c := h.of_regs rfl
    dsimp only
    rw [(off _).trace]
    refine ⟨rfl, .setCc s c _, by rw [State.setCc_cc], ?_, fun b hb => ?_⟩
    · rw [State.setCc_cc]; exact look_put_same noRow _ bank none
    · rw [State.setCc_cc]; exact look_put_ne noRow _ bank b none hb

/-- What a counted activate changes in a CC: its row-disturbance table and its maintenance queues, into which no write-back comes. -/
structure RowCounted (k k' : CcSt) : Prop where
  rest       : k' = { k with dist := k'.dist, maint := k'.maint, waiting := k'.waiting, nextId := k'.nextId }
  writeBacks : ∀ col since d, Maint.writeBack col since d ∈ k'.maint → Maint.writeBack col since d ∈ k.maint

theorem RowCounted.queueNeighbour (k : CcSt) (d : SMap (List RdEntry)) (bank row now : Nat) : RowCounted k (CcSt.queueNeighbour { k with dist := d } bank row now) := by
  unfold CcSt.queueNeighbour
  dsimp only
  split
  · exact ⟨rfl, fun col since d h => by simpa using h⟩
  · exact ⟨rfl, fun _ _ _ h => h⟩

theorem RowCounted.table (k : CcSt) (d : SMap (List RdEntry)) : RowCounted k { k with dist := d } := ⟨rfl, fun _ _ _ h => h⟩

/-- Escalation leaves write-backs as they are. -/
theorem writeBack_mem_map_escalate {l : List Maint} {id col since : Nat} {d : BitVec 256} (h : Maint.writeBack col since d ∈ l.map (Maint.escalate id)) :
    Maint.writeBack col since d ∈ l := by
  obtain ⟨m, hm, e⟩ := List.mem_map.mp h
  cases m with
  | neighbour i b r t x => cases e
  | writeBack a b x => cases e; exact hm

/-- What a counted activate can do: count, or count and report an escalation (R91-R94). -/
theorem activate_cases (s : State) (c bank row : Nat) : ∃ k, RowCounted (s.cc c) k ∧
    (s.activate c bank row = s.setCc c k ∨ ∃ data, s.activate c bank row = ((s.setCc c k).raise (ccB c) CC_ERR_FLAGS_RD_ESC).emit (ccSrc c) 0x0604 data) := by
  unfold State.activate
  dsimp only
  split
  · split
    · exact ⟨_, .queueNeighbour _ _ bank row s.tsc, .inl rfl⟩
    · exact ⟨_, .table _ _, .inl rfl⟩
  · split
    · exact ⟨_, ⟨rfl, fun _ _ _ h => writeBack_mem_map_escalate h⟩, .inr ⟨_, rfl⟩⟩
    · exact ⟨_, .table _ _, .inl rfl⟩

/-- The row of `bank` is open, at the cost of at most a counted activate. -/
structure RowOpened (c bank row : Nat) (s t : State) : Prop extends CcWork c s t where
  molt       : t.molt = s.molt
  words      : WordsBut s t [ccB c + CC_ERR_FLAGS_RD_ESC.off]
  cc         : t.cc c = { s.cc c with
    rows := (t.cc c).rows, dist := (t.cc c).dist, maint := (t.cc c).maint, waiting := (t.cc c).waiting, nextId := (t.cc c).nextId }
  openRow    : (t.cc c).openRow bank = some row
  otherRows  : ∀ b, b ≠ bank → (t.cc c).openRow b = (s.cc c).openRow b
  writeBacks : ∀ col since d, Maint.writeBack col since d ∈ (t.cc c).maint → Maint.writeBack col since d ∈ (s.cc c).maint

/-- A counted activate after a row was recorded as open. -/
theorem activate_opened {s : State} {c bank row : Nat} (h : (s.cc c).openRow bank = some row) : RowOpened c bank row s (s.activate c bank row) := by
  obtain ⟨k, hk, e | ⟨data, e⟩⟩ := activate_cases s c bank row
  all_goals
    have rows : k.rows = (s.cc c).rows := by rw [hk.rest]
    have cc : (s.activate c bank row).cc c = k := by rw [e]; exact State.setCc_cc s c k
  · refine ⟨?_, ?_, ?_, ?_, ?_, ?_, ?_⟩
    · rw [e]; exact .setCc c s k
    · rw [e]; rfl
    · rw [e]; exact .of_regs rfl _
    · rw [cc]; exact hk.rest.trans (by rw [rows])
    · rw [cc, CcSt.openRow, rows]; exact h
    · intro b _; rw [cc, CcSt.openRow, rows]; rfl
    · rw [cc]; exact hk.writeBacks
  · refine ⟨?_, ?_, ?_, ?_, ?_, ?_, ?_⟩
    · rw [e]; exact ((CcWork.setCc c s k).trans (.wr c _ _ _ _)).trans (.emit c _ _ _ _)
    · rw [e]; rfl
    · rw [e]; exact wr_wordsBut (s.setCc c k) _ _ _
    · rw [cc]; exact hk.rest.trans (by rw [rows])
    · rw [cc, CcSt.openRow, rows]; exact h
    · intro b _; rw [cc, CcSt.openRow, rows]; rfl
    · rw [cc]; exact hk.writeBacks

theorem Untraced.of_opened {s t : State} {c bank row : Nat} (h : Untraced s c) (ho : RowOpened c bank row s t) : Untraced t c :=
  h.of_wordsBut ho.words (by simp [CC_TRACE_CTRL_ENABLE, CC_ERR_FLAGS_RD_ESC])

/-- An access finds its row open: it was, or a normal activate opens it (R92). -/
theorem Untraced.openFor {s : State} {c : Nat} (h : Untraced s c) (bank row : Nat) : RowOpened c bank row s (s.openFor c bank row) := by
  unfold State.openFor
  split
  · next hit => exact ⟨.refl c s, rfl, .refl s _, rfl, hit, fun _ _ => rfl, fun _ _ _ h => h⟩
  · obtain ⟨closed, others, cc, -, otherRows⟩ := h.closeRow bank
    generalize s.closeRow c bank = s1 at closed others cc otherRows ⊢
    have regs1 : s1.regs = s.regs := by rw [closed]
    have act := activate_opened (s := s1.setCc c { s1.cc c with rows := put noRow (s1.cc c).rows bank (some row) }) (c := c) (bank := bank) (row := row)
      (by rw [State.setCc_cc]; exact look_put_same noRow _ bank (some row))
    have off : Untraced (s1.setCc c { s1.cc c with rows := put noRow (s1.cc c).rows bank (some row) }) c := h.of_regs regs1
    rw [(off.of_opened act).trace]
    generalize State.activate _ c bank row = t at act ⊢
    obtain ⟨work, molt, words, ccT, openRow, rowsT, writeBacks⟩ := act
    simp only [State.setCc_cc] at ccT rowsT writeBacks
    have first : CcWork c s s1 := by
      refine ⟨⟨?_, others⟩, ?_, ?_, ?_, ?_⟩ <;> rw [closed]
    refine ⟨(first.trans (.setCc c s1 _)).trans work, molt.trans (by rw [closed]; rfl), ?_, ?_, openRow, fun b hb => ?_, fun col since d hm => ?_⟩
    · exact (WordsBut.of_regs regs1 _).trans words
    · rw [ccT, cc]
    · rw [rowsT b hb, ← otherRows b hb]
      exact look_put_ne noRow _ bank b (some row) hb
    · have hm1 := writeBacks col since d hm
      rw [cc] at hm1
      exact hm1

end Sys2Proof.Machine
end

section
/-! Columns of device storage: what a write of a column leaves to be read, the reads and masked writes of sound columns, and the bursts of a request (R96-R103, R406). -/

namespace Sys2Proof.Machine

/-! ### Little-endian bytes -/

theorem byteOf_succ (n i : Nat) : byteOf n (i + 1) = byteOf (n / 256) i := by
  unfold byteOf
  rw [Nat.div_div_eq_div_mul, show (256 : Nat) = 2 ^ 8 from rfl, ← Nat.pow_add, Nat.mul_succ, Nat.add_comm]

/-- The bytes of a number make it up again, cut to their number. -/
theorem leNat_byteOf (k n : Nat) : leNat ((List.range k).map (byteOf n)) = n % 256 ^ k := by
  induction k generalizing n with
  | zero => simp [leNat, Nat.mod_one]
  | succ k ih =>
    have tail : (List.range k).map (byteOf n ∘ Nat.succ) = (List.range k).map (byteOf (n / 256)) :=
      List.map_congr_left fun i _ => byteOf_succ n i
    have head : (byteOf n 0).toNat = n % 256 := by simp [byteOf]
    rw [List.range_succ_eq_map, List.map_cons, List.map_map, leNat, tail, ih, head, Nat.pow_succ, Nat.mul_comm _ 256, Nat.mod_mul]

/-! ### Units -/

/-- A write of a unit leaves every other unit as it reads (R406). -/
theorem Bytes.half_write_ne (b : Bytes) {u w : Nat} (mask : Nat) (v : Half) (h : w ≠ u) : (b.write u mask v).half w = b.half w := by
  have raw : (b.write u mask v).raw w = b.raw w := by
    unfold Bytes.raw
    refine congrArg leNat (List.map_congr_left fun i hi => b.write_look u mask v _ ?_)
    have := List.mem_range.mp hi
    omega
  unfold Bytes.half
  rw [raw, b.write_poison u mask v w h]

/-- The bytes of a unit after a store of all of them. -/
theorem Bytes.look_store_full (b : Bytes) (u v : Nat) : ∀ i < 32, look zeroByte (b.store u (2 ^ 32 - 1) v).bytes (32 * u + i) = byteOf v i := by
  have every : ∀ i < 32, bit (2 ^ 32 - 1) i = true := by decide
  have loop : ∀ n ≤ 32, ∀ i < n,
      look zeroByte (upto n (fun i m => if bit (2 ^ 32 - 1) i then put zeroByte m (32 * u + i) (byteOf v i) else m) b.bytes) (32 * u + i) = byteOf v i := by
    intro n hn
    induction n with
    | zero => exact fun i hi => absurd hi (Nat.not_lt_zero i)
    | succ n ih =>
      intro i hi
      rw [upto_succ, if_pos (every n (by omega)), look_put]
      split
      · next e => rw [Nat.add_left_cancel e]
      · next e => exact ih (by omega) i (by omega)
  exact loop 32 (Nat.le_refl 32)

/-- A unit reads what a write of all its bytes stored, poison included (R405, R406). -/
theorem Bytes.half_write_full (b : Bytes) (u : Nat) (v : Half) : (b.write u (2 ^ 32 - 1) v).half u = v := by
  cases v with
  | none =>
    have mark : look noMark (b.write u (2 ^ 32 - 1) none).poison u = true := look_put_same noMark _ u true
    rw [Bytes.half, if_pos mark]
  | some x =>
    have mark : look noMark (b.write u (2 ^ 32 - 1) (some x)).poison u = false := look_put_same noMark _ u false
    have raw : (b.write u (2 ^ 32 - 1) (some x)).raw u = x.toNat :=
      calc leNat ((List.range 32).map fun i => look zeroByte (b.store u (2 ^ 32 - 1) x.toNat).bytes (32 * u + i))
        _ = leNat ((List.range 32).map (byteOf x.toNat)) :=
          congrArg leNat (List.map_congr_left fun i hi => b.look_store_full u x.toNat i (List.mem_range.mp hi))
        _ = x.toNat := (leNat_byteOf 32 x.toNat).trans (Nat.mod_eq_of_lt x.isLt)
    rw [Bytes.half, mark, raw, if_neg Bool.false_ne_true, BitVec.ofNat_toNat, BitVec.setWidth_eq]

/-! ### Columns -/

@[simp] theorem Mem.half_writeCol_same (m : Mem) (col : Nat) (v : Half) : (m.writeCol col v).store.half col = v := m.store.half_write_full col v

theorem Mem.half_writeCol_ne (m : Mem) {col u : Nat} (v : Half) (h : u ≠ col) : (m.writeCol col v).store.half u = m.store.half u :=
  m.store.half_write_ne _ v h

theorem halfAfter_untouched {mask : Nat} (h : mask % 2 ^ 32 = 0) (old new : Half) : halfAfter old new mask = old := if_pos h

theorem halfAfter_poison {mask : Nat} (h : mask % 2 ^ 32 ≠ 0) (old : Half) : halfAfter old none mask = none := if_neg h

theorem halfAfter_whole {mask : Nat} (h : mask % 2 ^ 32 = 2 ^ 32 - 1) (old new : Half) : halfAfter old new mask = new := by
  have touched : ¬ mask % 2 ^ 32 = 0 := by omega
  cases new with
  | none => exact halfAfter_poison touched old
  | some x => exact (if_neg touched).trans (if_pos h)

theorem halfAfter_part {mask : Nat} (h : mask % 2 ^ 32 ≠ 0) (hp : mask % 2 ^ 32 ≠ 2 ^ 32 - 1) (old : Half) (x : BitVec 256) :
    halfAfter old (some x) mask =
      old.map (fun d => BitVec.ofNat 256 (upto 32 (fun i a => if bit mask i then setBits a (8 * i) 8 (bitsOf x.toNat (8 * i) 8) else a) d.toNat)) :=
  (if_neg h).trans (if_neg hp)

/-- A column after a write under a byte mask, its errors replaced by valid check bits where any byte is written (R99, R406). -/
def Mem.writeMasked (m : Mem) (col mask : Nat) (v : Half) : Mem :=
  if mask % 2 ^ 32 = 0 then m else m.writeCol col (halfAfter (m.store.half col) v mask)

theorem Mem.half_writeMasked_same (m : Mem) (col mask : Nat) (v : Half) : (m.writeMasked col mask v).store.half col = halfAfter (m.store.half col) v mask := by
  unfold Mem.writeMasked
  split
  · next h => rw [halfAfter_untouched h]
  · exact m.half_writeCol_same col _

theorem Mem.half_writeMasked_ne (m : Mem) {col u : Nat} (mask : Nat) (v : Half) (h : u ≠ col) : (m.writeMasked col mask v).store.half u = m.store.half u := by
  unfold Mem.writeMasked
  split
  · rfl
  · exact m.half_writeCol_ne _ h

/-- A write of a sound column changes no standing error. -/
theorem Mem.err_writeMasked {m : Mem} {col : Nat} (h : m.err col = 0) (mask : Nat) (v : Half) (u : Nat) : (m.writeMasked col mask v).err u = m.err u := by
  unfold Mem.writeMasked
  split
  · rfl
  · by_cases hu : u = col
    · rw [hu, Mem.writeCol_err_same, h]
    · exact m.writeCol_err col _ u hu

/-- The check passes a sound column as it stands. -/
theorem readCol_sound {s : State} {col : Nat} (h : s.mem.err col = 0) (c reader : Nat) : s.readCol c col reader = (s.mem.store.half col, false, s) := by
  unfold State.readCol State.check
  simp only [h]
  cases s.mem.store.half col <;> rfl

theorem normalRead_sound {s : State} {col : Nat} (h : s.mem.err col = 0) (c reader : Nat) : s.normalRead c col reader = (s.mem.store.half col, s) := by
  rw [State.normalRead, readCol_sound h]
  cases s.mem.store.half col <;> rfl

/-- A write of part of a sound column. -/
theorem writePart_sound {s : State} {col : Nat} (h : s.mem.err col = 0) (c mask : Nat) (v : Half) :
    s.writePart c col mask v = { s with mem := s.mem.writeMasked col mask v } := by
  unfold State.writePart Mem.writeMasked
  split
  · rfl
  · next touched =>
    split
    · next whole => rw [halfAfter_whole whole]
    · next part =>
      rw [readCol_sound h]
      cases v with
      | none => rw [halfAfter_poison touched]; cases s.mem.store.half col <;> rfl
      | some x => rw [halfAfter_part touched part]; cases s.mem.store.half col <;> rfl

/-! ### Keys and columns -/

theorem keyChan_eq (key : Nat) : keyChan key = key / 2 ^ 36 % 16 * 32 + key / 2 ^ 31 % 32 := rfl

/-- The channel of a key is that of its column pair. -/
theorem keyChan_pair (col : Nat) : keyChan (col / 2 * 64) = keyChan (32 * col) := by
  rw [keyChan_eq, keyChan_eq]
  omega

theorem keyBank_lt (key : Nat) : keyBank key < 128 := by
  have := bitsOf_lt key 29 2
  have := bitsOf_lt key 24 5
  unfold keyBank
  omega

theorem keyBank_sid_lt (key : Nat) : keyBank key / 32 < 4 := by
  have := keyBank_lt key
  omega

/-! ### Bursts -/

/-- The two columns of a line as one cell. -/
theorem cell_of_line {key : Nat} (h : key % 64 = 0) (b : Bytes) : b.cell (key / 64) = ⟨b.half (key / 32), b.half (key / 32 + 1)⟩ := by
  have e : 2 * (key / 64) = key / 32 := by omega
  rw [Bytes.cell, e]

theorem read64_sound {s : State} {key : Nat} (h : Sound s key) (reader : Nat) :
    s.read64 key reader = (⟨s.mem.store.half (key / 32), s.mem.store.half (key / 32 + 1)⟩, s) := by
  obtain ⟨lo, hi⟩ := h
  rw [State.read64]
  dsimp only
  rw [normalRead_sound lo]
  dsimp only
  rw [normalRead_sound hi]

/-- A read burst that is performed delivers what the line holds (R78, R406). -/
theorem readBurst_sound {s : State} {key : Nat} (h : Sound s key) (hk : key % 64 = 0) (kept : Kept s key false) (reader : Nat) :
    s.readBurst key reader = (s.mem.store.cell (key / 64), s.burstEnd key false) := by
  have kept' : s.burstLost key false = false := kept
  rw [State.readBurst]
  rw [read64_sound h, kept', cell_of_line hk]
  rfl

/-- The end of a burst changes nothing but the records of bursts. -/
theorem burstEnd_cc (s : State) (key : Nat) (write : Bool) : (s.burstEnd key write).cc (keyChan key) =
    { s.cc (keyChan key) with
      replays := put noReplay (s.cc (keyChan key)).replays (burstNo key write) 0, lost := put noMark (s.cc (keyChan key)).lost (burstNo key write) false } :=
  State.setCc_cc _ _ _

theorem burstEnd_frame (s : State) {key c : Nat} (hc : keyChan key = c) (write : Bool) : CcFrame c s (s.burstEnd key write) := by
  subst hc
  exact .setCc _ s _

theorem burstEnd_others (s : State) (key : Nat) (write : Bool) : OtherCcs s (s.burstEnd key write) (keyChan key) := .setCc _ _ _

/-- From `s` to `t` only the queues of maintenance of CC `c` change. -/
structure Superseded (c : Nat) (s t : State) : Prop where
  rest   : t = { s with ccs := t.ccs }
  others : OtherCcs s t c
  cc     : t.cc c = { s.cc c with maint := (t.cc c).maint, waiting := (t.cc c).waiting }

theorem supersede_superseded (s : State) (key : Nat) (w : WriteData) : Superseded (keyChan key) s (s.supersede key w) := by
  refine ⟨rfl, .setCc s _ _, ?_⟩
  unfold State.supersede
  dsimp only
  rw [State.setCc_cc]
  split <;> split <;> rfl

theorem WriteData.mask_hi_lt (w : WriteData) : w.mask.toNat / 2 ^ 32 < 2 ^ 32 := by
  have := w.mask.isLt
  omega

theorem WriteData.part_zero (w : WriteData) : w.part 0 = w.mask.toNat % 2 ^ 32 := by simp [WriteData.part]
theorem WriteData.part_one (w : WriteData) : w.part 1 = w.mask.toNat / 2 ^ 32 := by
  rw [WriteData.part, Nat.mul_one, Nat.mod_eq_of_lt w.mask_hi_lt]

/-- Storage after the write of a line. -/
def Mem.writeLine (m : Mem) (key : Nat) (w : WriteData) : Mem :=
  (m.writeMasked (key / 32) (w.part 0) w.data.lo).writeMasked (key / 32 + 1) (w.part 1) w.data.hi

/-- A write burst that is performed writes its line; of its CC only the queues of maintenance and the records of bursts change. -/
theorem writeBurst_sound {s : State} {key : Nat} {w : WriteData} (h : Sound s key) (kept : Kept s key true) (readKept : w.rmw = true → Kept s key false) :
    let t := s.writeBurst key w
    let c := keyChan key
    t = { s with ccs := t.ccs, mem := s.mem.writeLine key w } ∧ OtherCcs s t c ∧
      t.cc c = { s.cc c with maint := (t.cc c).maint, waiting := (t.cc c).waiting, replays := (t.cc c).replays, lost := (t.cc c).lost } := by
  obtain ⟨lo, hi⟩ := h
  have written : s.burstLost key true = false := kept
  have mixed : (w.rmw && s.burstLost key false) = false := by
    cases hw : w.rmw with
    | false => rfl
    | true => exact readKept hw
  obtain ⟨rest, others, cc⟩ := supersede_superseded s key w
  dsimp only
  rw [State.writeBurst, written, if_neg Bool.false_ne_true, mixed, if_neg Bool.false_ne_true, State.write64]
  generalize s.supersede key w = s1 at rest others cc ⊢
  have mem1 : s1.mem = s.mem := by rw [rest]
  have lo1 : s1.mem.err (key / 32) = 0 := by rw [mem1]; exact lo
  have hi1 : (s1.mem.writeMasked (key / 32) (w.part 0) w.data.lo).err (key / 32 + 1) = 0 := by
    rw [Mem.err_writeMasked lo1, mem1]; exact hi
  rw [writePart_sound lo1, writePart_sound hi1]
  refine ⟨?_, ?_, ?_⟩
  · rw [State.burstEnd]
    conv_lhs => rw [rest]
    rfl
  · exact others.trans (burstEnd_others _ _ _)
  · have same (m : Mem) : ({ s1 with mem := m } : State).cc (keyChan key) = s1.cc (keyChan key) := rfl
    rw [burstEnd_cc, same, cc]

end Sys2Proof.Machine
end

section
/-! The slot of a channel on which nothing has precedence: which request it serves, and what serving it does (R78, R80, R81). -/

namespace Sys2Proof.Machine

/-! ### A channel on which nothing has precedence -/

/-- No pass is active, panic is not raised, no escalated refresh waits and the channel is in native mode. -/
structure FreeSlot (s : State) (c : Nat) : Prop where
  active      : (s.cc c).active = none
  panic       : (s.cc c).panic = false
  unescalated : Unescalated s c
  native      : s.flag (ccB c) CC_SCHED_CTRL_MODE = false

section
variable {s : State} {c : Nat} (h : FreeSlot s c)
include h

theorem FreeSlot.computing (bank : Nat) : (s.cc c).computing bank = false := by
  simp [CcSt.computing, CcSt.group, h.active]

theorem FreeSlot.passesPanic (urgency : Nat) : s.passesPanic c urgency = true := by
  simp [State.passesPanic, h.panic]

theorem FreeSlot.mayRun (bank row urgency : Nat) : s.mayRun c bank row urgency = true := by
  simp [State.mayRun, h.computing, h.passesPanic]

theorem FreeSlot.atTop (since : Nat) : s.atTop c since = true := by
  simp [State.atTop, h.native]

theorem FreeSlot.escalated : (s.cc c).escalated = false := by
  unfold CcSt.escalated CcSt.nextEscalated
  rw [Option.isSome_eq_false_iff, Option.isNone_iff_eq_none, List.find?_eq_none]
  intro m hm
  have calm := h.unescalated m hm
  cases m with
  | writeBack => simp
  | neighbour id bank row since e => simp [show e = false from calm]

theorem FreeSlot.charge (bank row : Nat) : (s.cc c).charge bank row = s.cc c := by
  simp [CcSt.charge, h.computing, h.panic]

theorem FreeSlot.candidates : s.candidates c = (s.cc c).pool.filter (fun r => (s.cc c).first r) := by
  simp [State.candidates, h.native, State.servable, State.mayServe, h.mayRun, h.computing]

end

/-! ### The rotating pick -/

/-- Behind the oldest request to each line the pool holds none that a choice by line could fall on first (R78). -/
theorem find?_first (k : CcSt) (p : Nat → Bool) : (k.pool.filter (fun r => k.first r)).find? (fun r => p r.key) = k.pool.find? (fun r => p r.key) := by
  cases hf : k.pool.find? (fun r => p r.key) with
  | none =>
    rw [List.find?_eq_none] at hf ⊢
    exact fun r hr => hf r (List.mem_of_mem_filter hr)
  | some r =>
    obtain ⟨hp, before, after, hpool, hbefore⟩ := List.find?_eq_some_iff_append.mp hf
    have first : k.first r = true := by
      refine decide_eq_true (List.find?_eq_some_iff_append.mpr ⟨by simp, before, after, hpool, fun q hq => ?_⟩)
      have other := hbefore q hq
      have ne : q.key ≠ r.key := fun e => by simp [e, hp] at other
      simp [ne]
    rw [List.find?_filter]
    refine List.find?_eq_some_iff_append.mpr ⟨by simp [first, hp], before, after, hpool, fun q hq => ?_⟩
    simp [hbefore q hq]

/-- The oldest row hit of a bank while ROWHIT_CAP allows, else the bank's oldest request (R81). -/
def State.bankChoice (s : State) (c bank : Nat) : Option Req :=
  let k := s.cc c
  let hit := k.pool.find? (fun q => decide (keyBank q.key = bank) && decide (k.openRow bank = some (keyRow q.key)))
  let old := k.pool.find? (fun q => decide (keyBank q.key = bank))
  if look (fun _ => 0) k.hits bank < s.rd (ccB c) CC_SCHED_CTRL_ROWHIT_CAP ∧ hit.isSome then hit else old

theorem FreeSlot.pickIn {s : State} {c : Nat} (h : FreeSlot s c) (bank : Nat) : s.pickIn c bank (s.candidates c) = s.bankChoice c bank := by
  have hit := find?_first (s.cc c) (fun key => decide (keyBank key = bank) && decide ((s.cc c).openRow bank = some (keyRow key)))
  have old := find?_first (s.cc c) (fun key => decide (keyBank key = bank))
  unfold State.pickIn State.bankChoice
  rw [h.candidates]
  dsimp only
  rw [List.head?_filter, List.find?_filter]
  simp only [Bool.decide_and, Bool.decide_eq_true]
  rw [hit, old]
  split
  · next cap =>
    split
    · next r e => rw [e, if_pos ⟨cap, rfl⟩]
    · next e => rw [e, if_neg (by simp)]
  · next cap => rw [if_neg fun x => cap x.1]

/-- A bank's choice is one of its requests. -/
theorem mem_of_bankChoice {s : State} {c bank : Nat} {r : Req} (h : s.bankChoice c bank = some r) : r ∈ (s.cc c).pool ∧ keyBank r.key = bank := by
  unfold State.bankChoice at h
  dsimp only at h
  split at h
  · have hit := List.find?_some h
    exact ⟨List.mem_of_find?_eq_some h, of_decide_eq_true (Bool.and_eq_true_iff.mp hit).1⟩
  · have old := List.find?_some h
    exact ⟨List.mem_of_find?_eq_some h, of_decide_eq_true old⟩

/-- A bank without a choice has no request. -/
theorem bank_ne_of_bankChoice_none {s : State} {c bank : Nat} (h : s.bankChoice c bank = none) {q : Req} (hq : q ∈ (s.cc c).pool) : keyBank q.key ≠ bank := by
  unfold State.bankChoice at h
  dsimp only at h
  split at h
  · next e => rw [h] at e; exact absurd e.2 Bool.false_ne_true
  · have none := List.find?_eq_none.mp h q hq
    simpa using none

/-- The first of the values below `n` that `f` answers for. -/
theorem findSome?_range_eq_some {β : Type} {n : Nat} {f : Nat → Option β} {x : β} (h : (List.range n).findSome? f = some x) :
    ∃ i < n, f i = some x ∧ ∀ j < i, f j = none := by
  induction n with
  | zero => cases h
  | succ n ih =>
    rw [List.range_succ, List.findSome?_append] at h
    cases hn : (List.range n).findSome? f with
    | some y =>
      rw [hn] at h
      cases h
      obtain ⟨i, hi, rest⟩ := ih hn
      exact ⟨i, by omega, rest⟩
    | none =>
      rw [hn] at h
      refine ⟨n, by omega, by simpa using h, fun j hj => ?_⟩
      exact List.findSome?_eq_none_iff.mp hn j (List.mem_range.mpr hj)

/-- Distance of a bank from the rotating pointer. -/
theorem bank_of_distance {ptr bank : Nat} (hp : ptr < 128) (hb : bank < 128) : (ptr + (bank + 128 - ptr) % 128) % 128 = bank := by omega

/-- While requests wait, the slot's pick is that of the first bank from the pointer on that has one (R81). -/
theorem FreeSlot.pick {s : State} {c : Nat} (h : FreeSlot s c) (hptr : (s.cc c).ptr < 128) (hpool : (s.cc c).pool ≠ []) :
    ∃ r, s.pick c = some r ∧ RotatingPick s c r := by
  have scan : s.pick c = (List.range 128).findSome? (fun i => s.bankChoice c (((s.cc c).ptr + i) % 128)) := by
    have none : (s.candidates c).find? (fun r => (s.cc c).computing (keyBank r.key)) = none :=
      List.find?_eq_none.mpr fun r _ => by simp [h.computing]
    unfold State.pick
    dsimp only
    rw [none]
    simp only [List.findSome?_map, h.pickIn]
    rfl
  cases hp : s.pick c with
  | none =>
    obtain ⟨q, hq⟩ := List.exists_mem_of_ne_nil _ hpool
    rw [scan] at hp
    have empty := List.findSome?_eq_none_iff.mp hp ((keyBank q.key + 128 - (s.cc c).ptr) % 128) (List.mem_range.mpr (Nat.mod_lt _ (by decide)))
    rw [bank_of_distance hptr (keyBank_lt _)] at empty
    exact absurd rfl (bank_ne_of_bankChoice_none empty hq)
  | some r =>
    refine ⟨r, rfl, ?_⟩
    rw [scan] at hp
    obtain ⟨i, hi, hr, hbefore⟩ := findSome?_range_eq_some hp
    obtain ⟨hmem, hbank⟩ := mem_of_bankChoice hr
    refine ⟨hmem, fun q hq => ?_, ?_⟩
    · have reach : (keyBank r.key + 128 - (s.cc c).ptr) % 128 = i := by rw [hbank]; omega
      rw [reach]
      by_contra hlt
      have empty := hbefore _ (Nat.lt_of_not_le hlt)
      rw [bank_of_distance hptr (keyBank_lt _)] at empty
      exact absurd rfl (bank_ne_of_bankChoice_none empty hq)
    · rw [← hbank] at hr
      exact hr.symm

/-! ### Serving a request -/

/-- Who a read reaches depends on what has left the card and on what waits at the CC. -/
theorem Delivered.congr {s s' t : State} {c : Nat} {r : Req} {d : Cell64} (h : Delivered s' t c r d) (out : s'.out = s.out)
    (landed : (s'.cc c).landed = (s.cc c).landed) : Delivered s t c r d := by
  unfold Delivered at h ⊢
  rwa [out, landed] at h

/-- A read's data reach its requester; of the state only what leaves the card and what waits at the CC change. -/
structure ReadAnswered (c : Nat) (r : Req) (d : Cell64) (s t : State) : Prop where
  rest      : t = { s with ccs := t.ccs, out := t.out }
  others    : OtherCcs s t c
  cc        : t.cc c = { s.cc c with landed := (t.cc c).landed }
  delivered : Delivered s t c r d

theorem send_answered {s : State} {c : Nat} {r : Req} {d : Cell64} (o : Out) (h : Delivered s (s.send o) c r d) : ReadAnswered c r d s (s.send o) :=
  ⟨rfl, fun _ _ => rfl, rfl, h⟩

/-- Data that wait for a requester of the card, in any case but that of a dropped read (R416). -/
theorem land_answered {s : State} {c : Nat} {r : Req} (d : Cell64) {u : ReadUser} (hc : keyChan r.key = c) (ha : r.ans = .card u) :
    ReadAnswered c r d s (s.land u r.key (some d)) := by
  subst hc
  unfold State.land
  dsimp only
  by_cases hu : u = .dropped
  · subst hu
    rw [if_pos rfl]
    exact ⟨rfl, .refl _ _, rfl, by unfold Delivered; rw [ha]; exact ⟨rfl, rfl⟩⟩
  · rw [if_neg hu]
    refine ⟨rfl, .setCc _ _ _, by rw [State.setCc_cc], ?_⟩
    unfold Delivered
    rw [ha, State.setCc_cc]
    cases u with
    | dropped => exact absurd rfl hu
    | move | copy | prefetch | request => exact ⟨rfl, rfl⟩

theorem answerReq_answered (s : State) {c : Nat} {r : Req} (d : Cell64) (hc : keyChan r.key = c) : ReadAnswered c r d s (s.answerReq r d) := by
  unfold State.answerReq
  cases ha : r.ans with
  | plain | mem | bar => exact send_answered _ (by unfold Delivered; rw [ha]; exact ⟨rfl, rfl⟩)
  | card u => exact land_answered d hc ha

/-- A pooled read of a sound line delivers what the line holds (R70, R406). -/
theorem answerRead64_sound {s : State} {c : Nat} {r : Req} (hc : keyChan r.key = c) (hk : r.key % 64 = 0) (h : Sound s r.key) (kept : Kept s r.key false) :
    ReadAnswered c r (s.mem.store.cell (r.key / 64)) (s.burstEnd r.key false) (s.answerRead64 r) := by
  have keep : s.keepsLine r.key = true := by
    obtain ⟨lo, hi⟩ := h
    have found : s.burstLost r.key false = false := kept
    simp [State.keepsLine, lo, hi, found]
  rw [State.answerRead64]
  dsimp only
  rw [readBurst_sound h hk kept, keep, if_pos rfl]
  dsimp only
  split
  · next ha => exact land_answered _ hc ha
  · exact answerReq_answered _ _ hc

/-- The slot's request before its column commands: charged, out of the pool, its row open. -/
structure RowReached (c : Nat) (r : Req) (s t : State) : Prop extends CcWork c s t where
  molt      : t.molt = s.molt
  words     : WordsBut s t [ccB c + CC_ERR_FLAGS_RD_ESC.off]
  pool      : (t.cc c).pool = (s.cc c).pool.erase r
  landed    : (t.cc c).landed = (s.cc c).landed
  lost      : (t.cc c).lost = (s.cc c).lost
  ptr       : (t.cc c).ptr = (keyBank r.key + 1) % 128
  openRow   : (t.cc c).openRow (keyBank r.key) = some (keyRow r.key)
  otherRows : ∀ b, b ≠ keyBank r.key → (t.cc c).openRow b = (s.cc c).openRow b

/-- What the slot does with its request: it reaches its row, and its burst runs (R81, R99). -/
theorem FreeSlot.slot {s : State} {c : Nat} (h : FreeSlot s c) (off : Untraced s c) {r : Req} (uncut : r.who.port = .host → s.hostCut r.key = false) :
    ∃ u, RowReached c r s u ∧ (∀ w, r.write = some w → s.slot c r = u.writeBurst r.key w) ∧ (r.write = none → s.slot c r = u.answerRead64 r) := by
  have charged : s.charge c r = s.setCc c { s.cc c with ptr := (keyBank r.key + 1) % 128 } := by
    unfold State.charge
    dsimp only
    rw [h.charge, h.computing, if_neg Bool.false_ne_true]
  rw [State.slot, charged, State.serve]
  dsimp only
  rw [State.setCc_cc]
  generalize hk : CcSt.remove { s.cc c with ptr := (keyBank r.key + 1) % 128 } r = k
  have removed : k = { s.cc c with ptr := (keyBank r.key + 1) % 128, pool := (s.cc c).pool.erase r, hits := k.hits } := by rw [← hk]; rfl
  have served : ¬ (r.who.port = .host ∧ ((s.setCc c { s.cc c with ptr := (keyBank r.key + 1) % 128 }).setCc c k).hostCut r.key = true) :=
    fun ⟨hp, hc⟩ => Bool.false_ne_true ((uncut hp).symm.trans hc)
  rw [if_neg served]
  have off2 : Untraced ((s.setCc c { s.cc c with ptr := (keyBank r.key + 1) % 128 }).setCc c k) c := off
  have opened := off2.openFor (keyBank r.key) (keyRow r.key)
  have off3 := off2.of_opened opened
  rw [off3.trace, ite_self, off3.trace]
  refine ⟨_, ?_, fun w hw => by rw [hw], fun hw => by rw [hw]⟩
  obtain ⟨work, molt, words, cc, openRow, otherRows, -⟩ := opened
  rw [State.setCc_cc] at cc otherRows
  refine ⟨((CcWork.setCc c s _).trans (.setCc c _ k)).trans work, molt, words, ?_, ?_, ?_, ?_, openRow, fun b hb => ?_⟩
  · rw [cc, removed]
  · rw [cc, removed]
  · rw [cc, removed]
  · rw [cc, removed]
  · rw [otherRows b hb, removed]; rfl

/-- Storage after the write of a line, column by column. -/
theorem Mem.writeLine_columns {m : Mem} {key : Nat} (w : WriteData) (lo : m.err (key / 32) = 0) (hi : m.err (key / 32 + 1) = 0) :
    (m.writeLine key w).store.half (key / 32) = halfAfter (m.store.half (key / 32)) w.data.lo (w.mask.toNat % 2 ^ 32) ∧
      (m.writeLine key w).store.half (key / 32 + 1) = halfAfter (m.store.half (key / 32 + 1)) w.data.hi (w.mask.toNat / 2 ^ 32) ∧
      (∀ u, u ≠ key / 32 → u ≠ key / 32 + 1 → (m.writeLine key w).store.half u = m.store.half u) ∧ ∀ u, (m.writeLine key w).err u = m.err u := by
  have hi' : (m.writeMasked (key / 32) (w.part 0) w.data.lo).err (key / 32 + 1) = 0 := by rw [Mem.err_writeMasked lo]; exact hi
  unfold Mem.writeLine
  refine ⟨?_, ?_, fun u h0 h1 => ?_, fun u => ?_⟩
  · rw [Mem.half_writeMasked_ne _ _ _ (by omega), Mem.half_writeMasked_same, w.part_zero]
  · rw [Mem.half_writeMasked_same, Mem.half_writeMasked_ne _ _ _ (by omega), w.part_one]
  · rw [Mem.half_writeMasked_ne _ _ _ h1, Mem.half_writeMasked_ne _ _ _ h0]
  · rw [Mem.err_writeMasked hi', Mem.err_writeMasked lo]

/-- Settles O12: the pick is the rotating one, and the slot reaches its row and runs its burst on sound columns. -/
theorem requestIssueServesThePick : Obligations.RequestIssueServesThePick := by
  unfold Obligations.RequestIssueServesThePick
  intro c s off active panic unescalated native hptr hpool _ hne
  have free : FreeSlot s c := ⟨active, panic, unescalated, native⟩
  obtain ⟨r, hpick, hrot⟩ := free.pick hptr hne
  refine ⟨r, hrot, fun sound runs uncut => ?_⟩
  obtain ⟨-, line, chan⟩ := hpool r hrot.1
  obtain ⟨u, reached, writeSlot, readSlot⟩ := free.slot off uncut
  have issued : requestIssue c [] s = s.slot c r := by
    rw [requestIssue, show s.strike c [] = s from rfl, free.escalated, if_neg Bool.false_ne_true, hpick]
  refine ⟨s.slot c r, by rw [← issued]; rfl, ?_⟩
  obtain ⟨⟨⟨rest, others⟩, mem, out, free', -⟩, molt, words, pool, landed, lost, ptr, openRow, otherRows⟩ := reached
  have keptU (write : Bool) (k : Kept s r.key write) : Kept u r.key write := by
    unfold Kept at k ⊢; rw [chan] at k ⊢; rw [lost]; exact k
  have soundU : Sound u r.key := by unfold Sound; rw [mem]; exact sound
  unfold Req.runs at runs
  cases hw : r.write with
  | none =>
    rw [hw] at runs
    rw [readSlot hw]
    have ended := burstEnd_cc u r.key false
    obtain ⟨restT, othersT, ccT, delivered⟩ := answerRead64_sound chan line soundU (keptU false runs)
    generalize u.answerRead64 r = t at restT othersT ccT delivered ⊢
    rw [chan] at ended
    rw [ended] at ccT
    have memT : t.mem = s.mem := by rw [restT]; exact mem
    have frame : CcFrame c s t :=
      (CcFrame.trans ⟨rest, others⟩ (burstEnd_frame u chan false)).trans ⟨by rw [restT], othersT⟩
    refine ⟨frame.narrow ?_ ?_, frame.others, ?_, ?_, ?_, ?_, fun b hb => ?_, memT, ?_⟩
    · rw [restT]; exact molt
    · rw [restT]; exact free'
    · exact words.trans (.of_regs (by rw [restT]; rfl) _)
    · rw [ccT]; exact pool
    · rw [ccT]; exact ptr
    · rw [ccT]; exact openRow
    · rw [ccT]; exact otherRows b hb
    · rw [← mem]; exact delivered.congr out (by rw [ended]; exact landed)
  | some w =>
    rw [hw] at runs
    rw [writeSlot w hw]
    obtain ⟨writeKept, readKept⟩ := runs
    obtain ⟨restT, othersT, ccT⟩ := writeBurst_sound (w := w) soundU (keptU true writeKept) (fun hr => keptU false (readKept hr))
    generalize u.writeBurst r.key w = t at restT othersT ccT ⊢
    rw [chan] at othersT ccT
    have memT : t.mem = s.mem.writeLine r.key w := by rw [restT, ← mem]
    obtain ⟨lower, upper, rows, errs⟩ := Mem.writeLine_columns (m := s.mem) w sound.1 sound.2
    have frame : CcFrame c s t := CcFrame.trans ⟨rest, others⟩ ⟨by rw [restT], othersT⟩
    refine ⟨frame.narrow ?_ ?_, frame.others, ?_, ?_, ?_, ?_, fun b hb => ?_, ?_, ?_, ?_, ?_, ?_, ?_⟩
    · rw [restT]; exact molt
    · rw [restT]; exact free'
    · exact words.trans (.of_regs (by rw [restT]) _)
    · rw [ccT]; exact pool
    · rw [ccT]; exact ptr
    · rw [ccT]; exact openRow
    · rw [ccT]; exact otherRows b hb
    · rw [restT]; exact out
    · rw [ccT]; exact landed
    · rw [memT]; exact lower
    · rw [memT]; exact upper
    · rw [memT]; exact rows
    · rw [memT]; exact errs

end Sys2Proof.Machine
end

section
/-! Refresh slots and power-down: what REF leaves, when PDE acts, and a card on which nothing waits (R89-R95). -/

namespace Sys2Proof.Machine

/-! ### Pending limits -/

/-- A class D boundary changes its field's register and what is pending, nothing else (R12). -/
theorem effect_rest (s : State) (b : Nat) (f : Fld) :
    s.effect b f = { s with regs := (s.effect b f).regs, pendMask := (s.effect b f).pendMask } ∧ WordsBut s (s.effect b f) [b + f.off] := by
  unfold State.effect
  dsimp only
  split
  · exact ⟨rfl, .refl s _⟩
  · exact ⟨rfl, wr_wordsBut s b f _⟩

/-- A row-disturbance window ends: pending limits of the channel may take effect (R91). -/
theorem limits_effects (s : State) (c : Nat) :
    let t := s.effects (ccB c) [CC_RD_CTRL_THRESHOLD, CC_RD_CTRL_ESCALATE]
    t = { s with regs := t.regs, pendMask := t.pendMask } ∧ WordsBut s t [ccB c + CC_RD_CTRL_THRESHOLD.off] := by
  obtain ⟨first, words⟩ := effect_rest s (ccB c) CC_RD_CTRL_THRESHOLD
  obtain ⟨second, words'⟩ := effect_rest (s.effect (ccB c) CC_RD_CTRL_THRESHOLD) (ccB c) CC_RD_CTRL_ESCALATE
  have steps : s.effects (ccB c) [CC_RD_CTRL_THRESHOLD, CC_RD_CTRL_ESCALATE] =
    (s.effect (ccB c) CC_RD_CTRL_THRESHOLD).effect (ccB c) CC_RD_CTRL_ESCALATE := rfl
  rw [steps]
  generalize s.effect (ccB c) CC_RD_CTRL_THRESHOLD = t at *
  generalize t.effect (ccB c) CC_RD_CTRL_ESCALATE = u at *
  exact ⟨second.trans (by rw [first]), words.trans words'⟩

/-! ### The refresh slot -/

/-- Every row of the channel is closed, with one PREAB where any is open. -/
def State.closeAll (s : State) (c : Nat) : State :=
  if (s.cc c).rows.isEmpty then s else (s.setCc c { s.cc c with rows := [] }).trace c none rowPreab 0

theorem Untraced.closeAll {s : State} {c : Nat} (h : Untraced s c) :
    s.closeAll c = { s with ccs := (s.closeAll c).ccs } ∧ OtherCcs s (s.closeAll c) c ∧ (s.closeAll c).cc c = { s.cc c with rows := [] } := by
  unfold State.closeAll
  split
  · next empty => exact ⟨rfl, .refl s c, by rw [← List.isEmpty_iff.mp empty]⟩
  · have off : Untraced (s.setCc c { s.cc c with rows := [] }) c := h.of_regs rfl
    rw [off.trace]
    exact ⟨rfl, .setCc s c _, State.setCc_cc _ _ _⟩

/-- The slot is counted; where a window of 8,192 slots begins, the row-disturbance tables are cleared and pending limits may take effect (R89, R91). -/
def State.countSlot (s : State) (c : Nat) : State :=
  let k := { s.cc c with active := (s.cc c).active.map (fun (a : Active) => { a with held := false }) }
  if k.slot % 8192 = 0 then
    (s.setCc c { k with dist := [], slot := k.slot + 1 }).effects (ccB c) [CC_RD_CTRL_THRESHOLD, CC_RD_CTRL_ESCALATE]
  else s.setCc c { k with slot := k.slot + 1 }

theorem countSlot_counted (s : State) (c : Nat) :
    let t := s.countSlot c
    let k := s.cc c
    t = { s with regs := t.regs, pendMask := t.pendMask, ccs := t.ccs } ∧ OtherCcs s t c ∧ WordsBut s t [ccB c + CC_RD_CTRL_THRESHOLD.off] ∧
      t.cc c = { k with slot := k.slot + 1, dist := if k.slot % 8192 = 0 then [] else k.dist, active := k.active.map (fun a => { a with held := false }) } ∧
      (k.slot % 8192 ≠ 0 → t.regs = s.regs ∧ t.pendMask = s.pendMask) := by
  unfold State.countSlot
  dsimp only
  by_cases window : (s.cc c).slot % 8192 = 0
  · simp only [if_pos window]
    generalize hu : s.setCc c { s.cc c with
      active := (s.cc c).active.map (fun (a : Active) => { a with held := false }), dist := [], slot := (s.cc c).slot + 1 } = u
    obtain ⟨rest, words⟩ := limits_effects u c
    have cc (d : Nat) : (u.effects (ccB c) [CC_RD_CTRL_THRESHOLD, CC_RD_CTRL_ESCALATE]).cc d = u.cc d := by
      unfold State.cc; rw [rest]
    generalize u.effects (ccB c) [CC_RD_CTRL_THRESHOLD, CC_RD_CTRL_ESCALATE] = v at *
    have ccs : v.ccs = u.ccs := by rw [rest]
    refine ⟨rest.trans ?_, fun d hd => ?_, ?_, ?_, fun none => absurd window none⟩
    · rw [ccs, ← hu]; rfl
    · rw [cc, ← hu]; exact State.setCc_cc_ne _ _ _ _ hd
    · exact (WordsBut.of_regs (by rw [← hu]; rfl) _).trans words
    · rw [cc, ← hu, State.setCc_cc]
  · simp only [if_neg window]
    exact ⟨rfl, .setCc s c _, .of_regs rfl _, State.setCc_cc _ _ _, fun _ => ⟨rfl, rfl⟩⟩

/-- REF at a channel that refreshes, step by step (R89). -/
theorem refresh_steps {s : State} {c : Nat} (off : Untraced s c) (on : (s.cc c).refresh = true) (live : s.retired c = false) :
    refresh c s = (((s.pdx c 15).closeAll c).countSlot c).wr (ccB c) CC_BSEQ_REFSLOT_TSC
      (slotTime (((s.pdx c 15).closeAll c).cc c).epoch c ((((s.pdx c 15).closeAll c).cc c).slot + 1)) := by
  have off1 := off.of_pdx 15
  have off2 : Untraced ((s.pdx c 15).closeAll c) c := off1.of_regs (by rw [off1.closeAll.1])
  have steps : refresh c s = ((((s.pdx c 15).closeAll c).trace c none rowRef 0).countSlot c).wr (ccB c) CC_BSEQ_REFSLOT_TSC
      (slotTime ((((s.pdx c 15).closeAll c).trace c none rowRef 0).cc c).epoch c (((((s.pdx c 15).closeAll c).trace c none rowRef 0).cc c).slot + 1)) := by
    have runs : ¬ ((!(s.cc c).refresh || s.retired c) = true) := by simp [on, live]
    exact if_neg runs
  rw [steps, off2.trace]

/-- A channel that does not refresh ignores REF. -/
theorem refresh_ignored {s : State} {c : Nat} (h : (s.cc c).refresh = false ∨ s.retired c = true) : refresh c s = s := by
  unfold refresh
  rcases h with h | h <;> simp [h]

/-- What REF leaves (R89, R91, R95, R153). -/
theorem refresh_refreshed {s : State} {c : Nat} (off : Untraced s c) (on : (s.cc c).refresh = true) (live : s.retired c = false) :
    let t := refresh c s
    let k := s.cc c
    t = { s with regs := t.regs, pendMask := t.pendMask, ccs := t.ccs } ∧ OtherCcs s t c ∧
      t.cc c = { k with rows := [], slot := k.slot + 1, dist := if k.slot % 8192 = 0 then [] else k.dist, active := k.active.map (fun a => { a with held := false }) } ∧
      t.rd (ccB c) CC_STATUS_SID_PD = 0 ∧
      t.rd (ccB c) CC_BSEQ_REFSLOT_TSC = (k.epoch + (k.slot + 1) * 3900 + c % 4 * 975) % 2 ^ CC_BSEQ_REFSLOT_TSC.w ∧
      WordsBut s t [ccB c + CC_STATUS_SID_PD.off, ccB c + CC_BSEQ_REFSLOT_TSC.off, ccB c + CC_RD_CTRL_THRESHOLD.off] ∧
      (k.slot % 8192 ≠ 0 → t.word (ccB c + CC_RD_CTRL_THRESHOLD.off) = s.word (ccB c + CC_RD_CTRL_THRESHOLD.off) ∧ t.pendMask = s.pendMask) := by
  dsimp only
  rw [refresh_steps off on live]
  have off1 := off.of_pdx 15
  obtain ⟨only, bits⟩ := off.pdx 15
  obtain ⟨closed, closedOthers, closedCc⟩ := off1.closeAll
  obtain ⟨counted, countedOthers, countedWords, countedCc, sameWindow⟩ := countSlot_counted ((s.pdx c 15).closeAll c) c
  have awake : (s.pdx c 15).rd (ccB c) CC_STATUS_SID_PD = 0 := by
    refine eq_zero_of_bits _ (sidPd_lt _ c) fun j hj => ?_
    rw [bits j hj, show bit 15 j = true from by revert j; decide, Bool.not_true, Bool.and_false]
  have pdxWords := only.2
  have pdxCc := only.cc
  replace only := only.1
  generalize s.pdx c 15 = s1 at *
  generalize s1.closeAll c = s2 at *
  generalize s2.countSlot c = s3 at *
  have regs2 : s2.regs = s1.regs := by rw [closed]
  have words23 : WordsBut s1 s3 [ccB c + CC_RD_CTRL_THRESHOLD.off] := (WordsBut.of_regs regs2 _).trans countedWords
  rw [pdxCc] at closedCc
  rw [closedCc] at countedCc sameWindow ⊢
  dsimp only at countedCc sameWindow ⊢
  refine ⟨?_, ?_, countedCc, ?_, ?_, ?_, fun within => ?_⟩
  · conv_lhs => rw [counted, closed, only]
    rfl
  · exact ((show OtherCcs s s1 c from fun d _ => pdxCc d).trans closedOthers).trans countedOthers
  · rw [← awake, ← words23.rd (b := ccB c) (f := CC_STATUS_SID_PD) (by simp [CC_STATUS_SID_PD, CC_RD_CTRL_THRESHOLD])]
    exact (wr_wordsBut s3 _ _ _).rd (by simp [CC_STATUS_SID_PD, CC_BSEQ_REFSLOT_TSC])
  · exact State.rd_wr_same _ _ _ _ (by decide)
  · exact ((pdxWords.mono (by simp)).trans (words23.mono (by simp))).trans ((wr_wordsBut s3 _ _ _).mono (by simp))
  · obtain ⟨regs3, mask3⟩ := sameWindow within
    refine ⟨?_, ?_⟩
    · rw [wr_wordsBut s3 _ _ _ _ (by simp [CC_RD_CTRL_THRESHOLD, CC_BSEQ_REFSLOT_TSC]),
        WordsBut.of_regs (regs3.trans regs2) [] _ (by simp), pdxWords _ (by simp [CC_RD_CTRL_THRESHOLD, CC_STATUS_SID_PD])]
    · exact mask3.trans (by rw [closed, only])

/-! ### Power-down -/

/-- A SID has an open row, a queued request of a port, or a part in the computing group. -/
def CcSt.sidBusy (k : CcSt) (sid : Nat) : Bool :=
  (List.range 32).any (fun b => (k.openRow (32 * sid + b)).isSome)
    || k.pool.any (fun r => decide (keyBank r.key / 32 = sid))
    || (k.maint ++ k.waiting).any (fun m => match m with | .neighbour _ bank _ _ _ => decide (bank / 32 = sid) | .writeBack col _ _ => decide (keyBank (32 * col) / 32 = sid))
    || decide (k.group = some (sid / 2))

theorem powerDown_eq (c sid : Nat) (s : State) : powerDown c sid s =
    if s.rd (ccB c) CC_PD_CTRL_PD_TIMER = 0 ∨ (s.cc c).sidBusy sid = true ∨ s.retired c = true ∨ bit (s.rd (ccB c) CC_STATUS_SID_PD) sid = true then s
    else (s.wr (ccB c) CC_STATUS_SID_PD (s.rd (ccB c) CC_STATUS_SID_PD + 2 ^ sid)).trace c none (rowPde sid) 0 := rfl

theorem sidBusy_eq_false_iff (k : CcSt) (sid : Nat) : k.sidBusy sid = false ↔
    (∀ b < 32, k.openRow (32 * sid + b) = none) ∧ (∀ r ∈ k.pool, keyBank r.key / 32 ≠ sid) ∧ (∀ m ∈ k.maint ++ k.waiting, m.bank / 32 ≠ sid) ∧
      k.group ≠ some (sid / 2) := by
  have item (m : Maint) :
      (match m with | .neighbour _ bank _ _ _ => decide (bank / 32 = sid) | .writeBack col _ _ => decide (keyBank (32 * col) / 32 = sid)) = false ↔
        m.bank / 32 ≠ sid := by
    cases m <;> simp [Maint.bank]
  unfold CcSt.sidBusy
  simp only [Bool.or_eq_false_iff, List.any_eq_false, List.mem_range, decide_eq_true_eq, Bool.not_eq_true, item, and_assoc, Option.isSome_eq_false_iff,
    Option.isNone_iff_eq_none, decide_eq_false_iff_not, ne_eq]

theorem mayPowerDown_iff (s : State) (c sid : Nat) : MayPowerDown s c sid ↔
    ¬ (s.rd (ccB c) CC_PD_CTRL_PD_TIMER = 0 ∨ (s.cc c).sidBusy sid = true ∨ s.retired c = true ∨ bit (s.rd (ccB c) CC_STATUS_SID_PD) sid = true) := by
  simp only [not_or, Bool.not_eq_true, sidBusy_eq_false_iff]
  unfold MayPowerDown
  tauto

/-- PDE sets the bit of a SID that may enter power-down (R95). -/
theorem powerDown_of_may {s : State} {c sid : Nat} (off : Untraced s c) (h : MayPowerDown s c sid) :
    powerDown c sid s = s.wr (ccB c) CC_STATUS_SID_PD (s.rd (ccB c) CC_STATUS_SID_PD + 2 ^ sid) := by
  rw [powerDown_eq, if_neg ((mayPowerDown_iff s c sid).mp h)]
  exact (off.of_wordsBut (wr_wordsBut s _ _ _) (trace_word_ne_status c)).trace _ _ _

theorem powerDown_of_not {s : State} {c sid : Nat} (h : ¬ MayPowerDown s c sid) : powerDown c sid s = s := by
  rw [powerDown_eq, if_pos (not_not.mp fun stays => h ((mayPowerDown_iff s c sid).mpr stays))]

/-! ### Nothing waits -/

/-- Where no access was refused and no partition reset is under way, nothing goes on. -/
theorem Settled.onward {s : State} (h : Settled s) : s.onward = s := by
  obtain ⟨stalled, owed, resetting⟩ := h
  have asked : s.askOwed = s := by simp [State.askOwed, owed]
  have woken : s.wake = s := by
    unfold State.wake
    dsimp only
    rw [asked, stalled]
    conv_rhs => rw [show s = { s with host := { s.host with stalled := s.host.stalled } } from rfl, stalled]
    rfl
  unfold State.onward State.settleResets
  rw [woken, resetting]
  conv_rhs => rw [show s = { s with host := { s.host with resetting := s.host.resetting } } from rfl, resetting]
  rfl

/-- Settles O13: the steps of REF, the condition of PDE, and the empty queues of a settled card. -/
theorem refreshAndPowerDown : Obligations.RefreshAndPowerDown := by
  unfold Obligations.RefreshAndPowerDown
  refine ⟨fun c s off on live => ⟨_, rfl, refresh_refreshed off on live⟩, fun c s idle => ?_, fun c sid s off may => ?_, fun c sid s stays => ?_,
    fun s settled => settled.onward⟩
  · exact congrArg (fun t : State => Host.Outcome.next t.onward) (refresh_ignored idle)
  · have clear : bit (s.rd (ccB c) CC_STATUS_SID_PD) sid.val = false := by
      obtain ⟨-, -, clear, -⟩ := may
      exact clear
    have bits (j : Nat) (hj : j < 4) : bit ((s.wr (ccB c) CC_STATUS_SID_PD (s.rd (ccB c) CC_STATUS_SID_PD + 2 ^ sid.val)).rd (ccB c) CC_STATUS_SID_PD) j =
        (bit (s.rd (ccB c) CC_STATUS_SID_PD) j || decide (j = sid.val)) := by
      rw [sidPd_wr]; exact bit_add_two_pow _ (sidPd_lt s c) _ sid.isLt clear j hj
    refine ⟨_, congrArg Host.Outcome.next (powerDown_of_may off may), wr_onlyWords _ _ _ _, ?_, fun j hj hne => ?_⟩
    · rw [bits _ sid.isLt]; simp
    · rw [bits j hj]; simp [hne]
  · exact congrArg Host.Outcome.next (powerDown_of_not stays)

end Sys2Proof.Machine
end

section
/-! REQUEST_ACCEPT: where an address goes, and what becomes of a request that reaches a CC (R76, R77, R371, R412, R418). -/

namespace Sys2Proof.Machine

/-! ### Counters -/

/-- A wrapping counter changes its register and may report that it wrapped (R225). -/
structure CountedUp (s t : State) (b : Nat) (f : Fld) (n : Nat) : Prop where
  rest    : t = { s with regs := t.regs, reports := t.reports }
  regs    : t.regs = (s.wr b f (s.rd b f + n)).regs
  reports : s.reports <+: t.reports

theorem count_counted (s : State) (b : Nat) (f : Fld) (n src code : Nat) : CountedUp s (s.count b f n src code) b f n := by
  unfold State.count
  dsimp only
  split
  · exact ⟨rfl, rfl, List.prefix_refl _⟩
  · exact ⟨rfl, rfl, List.prefix_append _ _⟩

theorem CountedUp.words {s t : State} {b : Nat} {f : Fld} {n : Nat} (h : CountedUp s t b f n) : WordsBut s t [b + f.off] :=
  (wr_wordsBut s b f _).trans (.of_regs h.regs _)

theorem CountedUp.rd {s t : State} {b : Nat} {f : Fld} {n : Nat} (h : CountedUp s t b f n) (hf : f.lo + f.w ≤ 64) : t.rd b f = (s.rd b f + n) % 2 ^ f.w := by
  rw [State.rd_of_word (WordsBut.of_regs h.regs [] _ (by simp)), State.rd_wr_same _ _ _ _ hf]

/-- What the count and the report of an access to retired storage leave (R412). -/
theorem retiredAccess_counted (s : State) (c port : Nat) (write : Bool) :
    let t := s.retiredAccess c port write
    t = { s with regs := t.regs, reports := t.reports } ∧ WordsBut s t [hostB + FLT_RET_ACC_COUNT.off] ∧
      t.rd hostB FLT_RET_ACC_COUNT = (s.rd hostB FLT_RET_ACC_COUNT + 1) % 2 ^ FLT_RET_ACC_COUNT.w ∧
      s.report (ccSrc c) 0x0688 [port, if write then 1 else 0] ∈ t.reports ∧ s.reports <+: t.reports := by
  have counted := count_counted s hostB FLT_RET_ACC_COUNT 1 ringSrc 0x068F
  have words := counted.words
  have count := counted.rd (by decide)
  obtain ⟨rest, -, reports⟩ := counted
  unfold State.retiredAccess State.countR
  generalize s.count hostB FLT_RET_ACC_COUNT 1 ringSrc 0x068F = u at *
  have tsc : u.tsc = s.tsc := by rw [rest]
  refine ⟨?_, words, count, ?_, reports.trans (List.prefix_append _ _)⟩
  · have reported (l : List Report) : ({ u with reports := l } : State) = { s with regs := u.regs, reports := l } := by rw [rest]
    exact reported _
  · rw [State.emit_reports, tsc]
    exact List.mem_append_right _ (List.mem_singleton_self _)

/-! ### Asking the host -/

theorem stall_stalled (s : State) (u : ReadUser) : s.stall u = { s with host := (s.stall u).host } ∧ u ∈ (s.stall u).host.stalled := by
  unfold State.stall
  split
  · next listed => exact ⟨rfl, by simpa using listed⟩
  · exact ⟨rfl, by simp⟩

/-- The host is asked about a line on behalf of a requester, or the requester stalls behind 256 questions (R371). -/
theorem askSnoop_asked (s : State) (line : Nat) (inv : Bool) (u : ReadUser) :
    let t := s.askSnoop line inv [u]
    t = { s with regs := t.regs, reports := t.reports, out := t.out, host := t.host } ∧
      ((∃ q ∈ t.host.snoops, q.line = line ∧ u ∈ q.waiters) ∨ (256 ≤ s.host.snoops.length ∧ u ∈ t.host.stalled)) := by
  unfold State.askSnoop
  dsimp only
  split
  · next stands =>
    obtain ⟨q, hq, hline⟩ := List.any_eq_true.mp stands
    have hline := of_decide_eq_true hline
    refine ⟨rfl, .inl ⟨{ q with waiters := q.waiters ++ [u].filter (fun u => !q.waiters.contains u) }, List.mem_map.mpr ⟨q, hq, if_pos hline⟩, hline, ?_⟩⟩
    by_cases hu : u ∈ q.waiters
    · exact List.mem_append_left _ hu
    · exact List.mem_append_right _ (by simp [hu])
  · split
    · next full =>
      obtain ⟨rest, stalled⟩ := stall_stalled s u
      refine ⟨?_, .inr ⟨full, stalled⟩⟩
      rw [List.foldl_cons, List.foldl_nil]
      generalize s.stall u = t at *
      rw [rest]
    · generalize hasked : State.send _ _ = a
      obtain ⟨rest, -, -⟩ := count_counted a hostB HOST_BISNP_CNT_COUNT 1 hostSrc 0x010A
      generalize a.count hostB HOST_BISNP_CNT_COUNT 1 hostSrc 0x010A = t at *
      have host : t.host = a.host := by rw [rest]
      have out : t.out = a.out := by rw [rest]
      refine ⟨?_, .inl ⟨⟨line, inv || s.host.owed.contains line, [u]⟩, ?_, rfl, List.mem_singleton_self u⟩⟩
      · rw [host, out]
        exact rest.trans (by rw [← hasked]; rfl)
      · rw [host, ← hasked]
        exact List.mem_append_right _ (List.mem_singleton_self _)

/-! ### Where an address goes -/

theorem resolve_at {s : State} {who : Requester} {a key : Nat} (h : s.decodeDpa a = .at key) (allowed : who.port = .tile → s.dpaRefused who.id a = false) :
    s.resolve who a = (some key, s) := by
  have open_ : ¬ (who.port = .tile ∧ s.dpaRefused who.id a = true) := fun ⟨hp, hr⟩ => by simp [allowed hp] at hr
  rw [State.resolve, h]
  exact if_neg open_

theorem resolve_outside {s : State} {who : Requester} {a key : Nat} (h : s.decodeDpa a = .at key) (tile : who.port = .tile) (refused : s.dpaRefused who.id a = true) :
    s.resolve who a = (none, if !s.dieUp (chanDie (keyChan key)) then s
      else ((s.raise (ccB (keyChan key)) CC_ERR_FLAGS_UNMAPPED).unmappedEvent (ccSrc (keyChan key)) a 2).emit (ccSrc (keyChan key)) 0x0107 [who.id, 1]) := by
  rw [State.resolve, h]
  exact if_pos ⟨tile, refused⟩

theorem resolve_noCc {s : State} {who : Requester} {a : Nat} (h : s.decodeDpa a = .noCc) :
    s.resolve who a = (none, s.unmappedEvent who.source a who.port.code) := by
  rw [State.resolve, h]

theorem resolve_refused {s : State} {who : Requester} {a c : Nat} (h : s.decodeDpa a = .refused c) :
    s.resolve who a = (none, if !s.dieUp (chanDie c) then s else (s.raise (ccB c) CC_ERR_FLAGS_UNMAPPED).unmappedEvent (ccSrc c) a who.port.code) := by
  rw [State.resolve, h]

/-! ### Requests that are mapped -/

/-- What becomes of a request to a location that it may reach. -/
def State.requestAt (s : State) (who : Requester) (key : Nat) (w : Option WriteData) : State :=
  if who.port = .tile ∧ s.biasHeld key then s
  else if who.port = .host ∧ s.hostCut key then s.answerBad who key w.isSome
  else if s.retired (keyChan key) then (s.retiredAccess (keyChan key) who.port.code w.isSome).answerBad who key w.isSome
  else if who.port = .tile ∧ s.needsSnoop key [] ∧ !s.answeredFor who.id (key / 64) then s.requestSnoop who key w.isSome
  else if (s.cc (keyChan key)).pool.length < ((s.accept who key w .plain).cc (keyChan key)).pool.length then
    if w.isSome then ((s.accept who key w .plain).requestMade who (key / 64)).send (.writeDone who key)
    else (s.accept who key w .plain).requestMade who (key / 64)
  else s.accept who key w .plain

/-- A requester that is not there makes no request (R27). -/
theorem asks_iff (s : State) (who : Requester) : Asks s who ↔ ¬ ((if who.port = .tile then !s.tileUp who.id else !s.dieUp 0) = true) := by
  unfold Asks
  split <;> simp

section
variable {s : State} {who : Requester} {dpa : Nat} (w : Option WriteData)

theorem requestAccept_absent (h : ¬ Asks s who) : requestAccept who dpa w s = s := by
  rw [asks_iff, not_not] at h
  exact if_pos h

variable (aligned : dpa % 64 = 0)
include aligned

theorem requestAccept_unmapped {t : State} (h : Asks s who) (hr : s.resolve who dpa = (none, t)) : requestAccept who dpa w s = t.send (.unmapped who dpa) := by
  have whole : dpa / 64 * 64 = dpa := by omega
  rw [requestAccept]
  dsimp only
  rw [whole, if_neg ((asks_iff s who).mp h), hr]

theorem requestAccept_mapped {key : Nat} (h : Asks s who) (hr : s.resolve who dpa = (some key, s)) : requestAccept who dpa w s = s.requestAt who key w := by
  have whole : dpa / 64 * 64 = dpa := by omega
  rw [requestAccept]
  dsimp only
  rw [whole, if_neg ((asks_iff s who).mp h), hr]
  rfl

end

/-- The answer of storage that does not serve a request. -/
theorem answerBad_eq (s : State) (who : Requester) (key : Nat) (w : Option WriteData) :
    s.answerBad who key w.isSome = { s with out := s.out ++ [if w.isSome then .writeDone who key else .readData who key .bad] } := by
  unfold State.answerBad
  split <;> rfl

/-! ### Acceptance -/

/-- A request that the CC takes joins the pool as the youngest and wakes its SID (R77, R95). -/
structure Pooled (who : Requester) (key : Nat) (w : Option WriteData) (ans : Answer) (s t : State) : Prop where
  rest   : t = { s with regs := t.regs, ccs := t.ccs }
  others : OtherCcs s t (keyChan key)
  words  : WordsBut s t [ccB (keyChan key) + CC_STATUS_SID_PD.off]
  cc     : t.cc (keyChan key) = { s.cc (keyChan key) with pool := (s.cc (keyChan key)).pool ++ [⟨who, key, w, s.tsc, ans⟩] }
  awake  : Awake s t (keyChan key) (keyBank key / 32)

theorem accept_pooled {s : State} {who : Requester} {key : Nat} (off : Untraced s (keyChan key)) (room : s.mayTake who key = true) (w : Option WriteData)
    (ans : Answer) : Pooled who key w ans s (s.accept who key w ans) := by
  unfold State.accept
  dsimp only
  rw [if_pos room]
  generalize hu : s.setCc (keyChan key) _ = u
  have offU : Untraced u (keyChan key) := by rw [← hu]; exact off.of_regs rfl
  have awake := offU.pdx_awake (keyBank_sid_lt key)
  obtain ⟨⟨rest, words⟩, -⟩ := offU.pdx (2 ^ (keyBank key / 32))
  generalize u.pdx (keyChan key) (2 ^ (keyBank key / 32)) = t at *
  have cc (d : Nat) : t.cc d = u.cc d := by unfold State.cc; rw [rest]
  have ccs : t.ccs = u.ccs := by rw [rest]
  refine ⟨?_, fun d hd => ?_, ?_, ?_, ?_⟩
  · rw [ccs]; exact rest.trans (by rw [← hu]; rfl)
  · rw [cc, ← hu]; exact State.setCc_cc_ne _ _ _ _ hd
  · exact (WordsBut.of_regs (by rw [← hu]; rfl) _).trans words
  · rw [cc, ← hu, State.setCc_cc]
  · rw [← hu] at awake; exact awake

theorem accept_stalled {s : State} {who : Requester} {key : Nat} (none : s.mayTake who key = false) (w : Option WriteData) (ans : Answer) :
    s.accept who key w ans = s := by
  unfold State.accept
  dsimp only
  rw [none, if_neg Bool.false_ne_true]

/-- A tile's request uses up what the tile waited for; a host's changes nothing more. -/
theorem requestMade_used (s : State) (who : Requester) (line : Nat) :
    s.requestMade who line = { s with host := (s.requestMade who line).host, tiles := (s.requestMade who line).tiles } ∧ AnswerUsed s (s.requestMade who line) who line := by
  unfold State.requestMade AnswerUsed
  split
  · exact ⟨rfl, rfl, State.setTile_tile _ _ _, fun k hk => State.setTile_tile_ne _ _ _ _ hk⟩
  · exact ⟨rfl, rfl, rfl⟩

theorem requestAt_pooled {s : State} {who : Requester} {key : Nat} (w : Option WriteData) (unheld : who.port = .tile → s.biasHeld key = false)
    (uncut : who.port = .host → s.hostCut key = false) (live : s.retired (keyChan key) = false) (free : ¬ AwaitsHost s who key) :
    s.requestAt who key w = if (s.cc (keyChan key)).pool.length < ((s.accept who key w .plain).cc (keyChan key)).pool.length then
      if w.isSome then ((s.accept who key w .plain).requestMade who (key / 64)).send (.writeDone who key)
      else (s.accept who key w .plain).requestMade who (key / 64)
    else s.accept who key w .plain := by
  have bias : ¬ (who.port = .tile ∧ s.biasHeld key = true) := fun ⟨hp, hb⟩ => by simp [unheld hp] at hb
  have cut : ¬ (who.port = .host ∧ s.hostCut key = true) := fun ⟨hp, hc⟩ => by simp [uncut hp] at hc
  have asked : ¬ (who.port = .tile ∧ s.needsSnoop key [] = true ∧ (!s.answeredFor who.id (key / 64)) = true) :=
    fun ⟨hp, hn, ha⟩ => free ⟨hp, hn, by simpa using ha⟩
  rw [State.requestAt, if_neg bias, if_neg cut, live, if_neg Bool.false_ne_true, if_neg asked]

/-- An accepted request: the pool, the power-down of its SID, what its tile waited for, and the completion of a write (R77, R79, R95). -/
theorem requestAt_accepted {s : State} {who : Requester} {key : Nat} (w : Option WriteData) (unheld : who.port = .tile → s.biasHeld key = false)
    (uncut : who.port = .host → s.hostCut key = false) (live : s.retired (keyChan key) = false) (free : ¬ AwaitsHost s who key)
    (off : Untraced s (keyChan key)) (room : s.mayTake who key = true) :
    let t := s.requestAt who key w
    let c := keyChan key
    t = { s with regs := t.regs, ccs := t.ccs, out := t.out, tiles := t.tiles, host := t.host } ∧ OtherCcs s t c ∧ AnswerUsed s t who (key / 64) ∧
      WordsBut s t [ccB c + CC_STATUS_SID_PD.off] ∧ t.cc c = { s.cc c with pool := (s.cc c).pool ++ [⟨who, key, w, s.tsc, .plain⟩] } ∧
      Awake s t c (keyBank key / 32) ∧ t.out = (if w.isSome then s.out ++ [.writeDone who key] else s.out) := by
  obtain ⟨rest, others, words, cc, awake⟩ := accept_pooled off room w .plain
  dsimp only
  rw [requestAt_pooled w unheld uncut live free]
  generalize s.accept who key w .plain = u at *
  have grown : (s.cc (keyChan key)).pool.length < (u.cc (keyChan key)).pool.length := by rw [cc]; simp
  rw [if_pos grown]
  obtain ⟨made, used⟩ := requestMade_used u who (key / 64)
  generalize u.requestMade who (key / 64) = v at *
  have host : u.host = s.host := by rw [rest]
  have tiles : u.tiles = s.tiles := by rw [rest]
  have out : v.out = s.out := by rw [made, rest]
  have same (d : Nat) : v.cc d = u.cc d := by unfold State.cc; rw [made]
  have regs : v.regs = u.regs := by rw [made]
  have used' : AnswerUsed s v who (key / 64) := by
    unfold AnswerUsed State.tile at used ⊢
    rw [host, tiles] at used
    exact used
  have restV : v = { s with regs := v.regs, ccs := v.ccs, tiles := v.tiles, host := v.host } := made.trans (by rw [made, rest])
  have words' : WordsBut s v [ccB (keyChan key) + CC_STATUS_SID_PD.off] := words.trans (.of_regs regs _)
  have awake' : Awake s v (keyChan key) (keyBank key / 32) := by
    unfold Awake State.rd at awake ⊢
    rw [(WordsBut.of_regs regs []) _ (by simp)]
    exact awake
  have cc' : v.cc (keyChan key) = { s.cc (keyChan key) with pool := (s.cc (keyChan key)).pool ++ [⟨who, key, w, s.tsc, .plain⟩] } := (same _).trans cc
  have others' : OtherCcs s v (keyChan key) := fun d hd => (same d).trans (others d hd)
  cases w with
  | some x =>
    have left (l : List Out) : ({ v with out := l } : State) = { s with regs := v.regs, ccs := v.ccs, out := l, tiles := v.tiles, host := v.host } := by
      rw [restV]
    exact ⟨left _, others', used', words', cc', awake', congrArg (· ++ [Out.writeDone who key]) out⟩
  | none =>
    have plain : v = { s with regs := v.regs, ccs := v.ccs, out := v.out, tiles := v.tiles, host := v.host } := by
      rw [out]; exact restV
    exact ⟨plain, others', used', words', cc', awake', out⟩

/-- A request that the CC cannot take now changes nothing. -/
theorem requestAt_stalled {s : State} {who : Requester} {key : Nat} (w : Option WriteData) (unheld : who.port = .tile → s.biasHeld key = false)
    (uncut : who.port = .host → s.hostCut key = false) (live : s.retired (keyChan key) = false) (free : ¬ AwaitsHost s who key)
    (none : s.mayTake who key = false) : s.requestAt who key w = s := by
  rw [requestAt_pooled w unheld uncut live free, accept_stalled none, if_neg (Nat.lt_irrefl _)]

theorem mayTake_false {s : State} {who : Requester} {key : Nat}
    (h : (s.cc (keyChan key)).room who.port (keyBank key) = false ∨ s.molting (keyChan key) = true ∨ s.passFirst (keyChan key) = true ∨
      s.seamHeld who.die (chanDie (keyChan key)) = true) : s.mayTake who key = false := by
  unfold State.mayTake
  rcases h with h | h | h | h <;> simp [h]

/-- An access to retired storage is counted, reported and answered (R412). -/
theorem requestAt_retired {s : State} {who : Requester} {key : Nat} (w : Option WriteData) (unheld : who.port = .tile → s.biasHeld key = false)
    (uncut : who.port = .host → s.hostCut key = false) (gone : s.retired (keyChan key) = true) :
    s.requestAt who key w = (s.retiredAccess (keyChan key) who.port.code w.isSome).answerBad who key w.isSome := by
  have bias : ¬ (who.port = .tile ∧ s.biasHeld key = true) := fun ⟨hp, hb⟩ => by simp [unheld hp] at hb
  have cut : ¬ (who.port = .host ∧ s.hostCut key = true) := fun ⟨hp, hc⟩ => by simp [uncut hp] at hc
  rw [State.requestAt, if_neg bias, if_neg cut, if_pos gone]

/-- A tile's request to a line that the host may hold waits for the host's answer (R371). -/
theorem requestAt_awaiting {s : State} {who : Requester} {key : Nat} (w : Option WriteData) (unheld : who.port = .tile → s.biasHeld key = false)
    (live : s.retired (keyChan key) = false) (awaits : AwaitsHost s who key) : s.requestAt who key w = s.requestSnoop who key w.isSome := by
  obtain ⟨tile, needs, unanswered⟩ := awaits
  have bias : ¬ (who.port = .tile ∧ s.biasHeld key = true) := fun ⟨hp, hb⟩ => by simp [unheld hp] at hb
  have host : ¬ (who.port = .host ∧ s.hostCut key = true) := fun ⟨hp, _⟩ => by simp [tile] at hp
  rw [State.requestAt, if_neg bias, if_neg host, live, if_neg Bool.false_ne_true, if_pos ⟨tile, needs, by simp [unanswered]⟩]

/-- The flag of a CC for unmapped accesses is set, and nothing else changes (R76). -/
theorem unmapped_flagged (s : State) (b : Nat) :
    OnlyWords s (s.raise b CC_ERR_FLAGS_UNMAPPED) [b + CC_ERR_FLAGS_UNMAPPED.off] ∧ (s.raise b CC_ERR_FLAGS_UNMAPPED).flag b CC_ERR_FLAGS_UNMAPPED = true :=
  ⟨wr_onlyWords s b _ 1, wr_flag_same s b CC_ERR_FLAGS_UNMAPPED 1 (by decide)⟩

/-- A change of registers, with reports and an answer after it. -/
theorem OnlyWords.answered {s u : State} {l : List Nat} (h : OnlyWords s u l) (reports : List Report) (o : Out) :
    ({ u with reports := reports, out := u.out ++ [o] } : State) = { s with regs := u.regs, reports := reports, out := s.out ++ [o] } := by rw [h.1]

/-- Settles O10, by where the address goes and, for a location, by what becomes of its request. -/
theorem requestIsAcceptedOrAnswered : Obligations.RequestIsAcceptedOrAnswered := by
  unfold Obligations.RequestIsAcceptedOrAnswered
  intro who dpa w s aligned
  refine ⟨fun absent => congrArg Host.Outcome.next (requestAccept_absent w absent), fun asks => ⟨?mapped, ?outside, ?noCc, ?refused⟩⟩
  case mapped =>
    intro key hat allowed
    have there : exec (.requestAccept who dpa w) s = .next (s.requestAt who key w) :=
      congrArg Host.Outcome.next (requestAccept_mapped w aligned asks (resolve_at hat allowed))
    refine ⟨fun tile held => ?_, fun host cut => ?_, fun unheld uncut => ⟨fun live free off => ⟨fun room => ?_, fun none => ?_⟩, fun live awaits => ?_, fun gone => ?_⟩⟩
    · rw [there, State.requestAt, if_pos ⟨tile, held⟩]
    · have notTile : ¬ (who.port = .tile ∧ s.biasHeld key = true) := fun ⟨hp, _⟩ => by simp [host] at hp
      rw [there, State.requestAt, if_neg notTile, if_pos ⟨host, cut⟩, answerBad_eq]
    · exact ⟨_, there, requestAt_accepted w unheld uncut live free off room⟩
    · rw [there, requestAt_stalled w unheld uncut live free (mayTake_false none)]
    · rw [requestAt_awaiting w unheld live awaits, State.requestSnoop] at there
      split
      · next canSnoop =>
        rw [if_pos canSnoop] at there
        exact ⟨_, there, askSnoop_asked s (key / 64) w.isSome (.request who.id)⟩
      · next cannot =>
        rw [if_neg cannot, answerBad_eq] at there
        exact there
    · rw [requestAt_retired w unheld uncut gone, answerBad_eq] at there
      obtain ⟨rest, words, count, report, reports⟩ := retiredAccess_counted s (keyChan key) who.port.code w.isSome
      generalize s.retiredAccess (keyChan key) who.port.code w.isSome = u at *
      have out : u.out = s.out := by rw [rest]
      have left (l : List Out) : ({ u with out := l } : State) = { s with regs := u.regs, reports := u.reports, out := l } := by rw [rest]
      rw [out] at there
      exact ⟨_, there, left _, words, count, report, reports⟩
  case outside =>
    intro key hat tile refused
    have there := congrArg (Host.Outcome.next (φ := Fault) (ρ := Refusal)) (requestAccept_unmapped w aligned asks (resolve_outside hat tile refused))
    split
    · next up =>
      rw [up, Bool.not_true, if_neg Bool.false_ne_true] at there
      obtain ⟨only, flag⟩ := unmapped_flagged s (ccB (keyChan key))
      have event : s.report (ccSrc (keyChan key)) 0x0603 [dpa.toNat, 2] =
        ⟨ccSrc (keyChan key), 0x0603, [dpa.toNat, 2], (s.raise (ccB (keyChan key)) CC_ERR_FLAGS_UNMAPPED).tsc⟩ := rfl
      have event' : s.report (ccSrc (keyChan key)) 0x0107 [who.id, 1] =
        ⟨ccSrc (keyChan key), 0x0107, [who.id, 1], (s.raise (ccB (keyChan key)) CC_ERR_FLAGS_UNMAPPED).tsc⟩ := rfl
      generalize s.raise (ccB (keyChan key)) CC_ERR_FLAGS_UNMAPPED = u at *
      have reports : u.reports = s.reports := by rw [only.1]
      rw [event, event', ← reports]
      exact ⟨_, there, only.answered _ _, only.2, flag, List.append_assoc _ _ _⟩
    · next down =>
      rw [eq_false_of_ne_true down, Bool.not_false, if_pos rfl] at there
      exact there
  case noCc => exact fun hno => congrArg Host.Outcome.next (requestAccept_unmapped w aligned asks (resolve_noCc hno))
  case refused =>
    intro c hc
    have there := congrArg (Host.Outcome.next (φ := Fault) (ρ := Refusal)) (requestAccept_unmapped w aligned asks (resolve_refused hc))
    split
    · next up =>
      rw [up, Bool.not_true, if_neg Bool.false_ne_true] at there
      obtain ⟨only, flag⟩ := unmapped_flagged s (ccB c)
      have event : s.report (ccSrc c) 0x0603 [dpa.toNat, who.port.code] = ⟨ccSrc c, 0x0603, [dpa.toNat, who.port.code], (s.raise (ccB c) CC_ERR_FLAGS_UNMAPPED).tsc⟩ := rfl
      generalize s.raise (ccB c) CC_ERR_FLAGS_UNMAPPED = u at *
      have reports : u.reports = s.reports := by rw [only.1]
      rw [event, ← reports]
      exact ⟨_, there, only.answered _ _, only.2, flag⟩
    · next down =>
      rw [eq_false_of_ne_true down, Bool.not_false, if_pos rfl] at there
      exact there

end Sys2Proof.Machine
end

section
/-! Column errors and bursts that fail their CRC: what an error counts and reports, the four replays, and how a burst is lost (R97, R98, R103, R407-R410). -/

namespace Sys2Proof.Machine

/-! ### Errors of a channel -/

/-- A channel's error changes of its CC at most whether its bucket has tripped (R407). -/
structure ErrorCounted (c : Nat) (s t : State) : Prop extends CcWork c s t where
  cc : t.cc c = { s.cc c with trip := (t.cc c).trip }

theorem ErrorCounted.trans {c : Nat} {s t u : State} (h : ErrorCounted c s t) (g : ErrorCounted c t u) : ErrorCounted c s u :=
  ⟨h.toCcWork.trans g.toCcWork, g.cc.trans (by rw [h.cc])⟩
theorem ErrorCounted.refl (c : Nat) (s : State) : ErrorCounted c s s := ⟨.refl c s, rfl⟩
theorem ErrorCounted.wr (c : Nat) (s : State) (b : Nat) (f : Fld) (v : Nat) : ErrorCounted c s (s.wr b f v) := ⟨.wr c s b f v, rfl⟩
theorem ErrorCounted.emit (c : Nat) (s : State) (src code : Nat) (data : List Nat) : ErrorCounted c s (s.emit src code data) := ⟨.emit c s src code data, rfl⟩
theorem ErrorCounted.report {c : Nat} {s t : State} (h : ErrorCounted c s t) (src code : Nat) (data : List Nat) : t.report src code data = s.report src code data := by
  unfold State.report
  rw [h.tsc]

theorem raise_rest (s : State) (b : Nat) (f : Fld) : s.raise b f = { s with regs := (s.raise b f).regs, molt := (s.raise b f).molt } := rfl

/-- A Molt is requested, or its request is refused with a flag (R410). -/
theorem requestMolt_rest (s : State) (c cause : Nat) :
    s.requestMolt c cause = { s with regs := (s.requestMolt c cause).regs, molt := (s.requestMolt c cause).molt } ∧
      WordsBut s (s.requestMolt c cause) [hostB + FLT_MOLT_STAT_REFUSED.off] := by
  unfold State.requestMolt
  split
  · exact ⟨raise_rest s _ _, wr_wordsBut s _ _ _⟩
  · exact ⟨rfl, .of_regs rfl _⟩

theorem requestMolt_counted (s : State) (c cause d : Nat) : ErrorCounted d s (s.requestMolt c cause) := by
  obtain ⟨rest, -⟩ := requestMolt_rest s c cause
  generalize s.requestMolt c cause = t at *
  have cc (d : Nat) : t.cc d = s.cc d := by unfold State.cc; rw [rest]
  refine ⟨⟨⟨?_, fun d _ => cc d⟩, ?_, ?_, ?_, ?_⟩, by rw [cc]⟩ <;> rw [rest]

/-- The registers of a channel's bucket, and the flag of a refused Molt. -/
def bucketWords (c : Nat) : List Nat := [ccB c + CC_BKT_LEVEL.off, ccB c + CC_BKT_PERM.off, hostB + FLT_MOLT_STAT_REFUSED.off]

/-- The registers of a CC lie above those of the host block. -/
theorem bucket_ne_moltStat (c : Nat) : ccB c + CC_BKT_LEVEL.off ∉ [hostB + FLT_MOLT_STAT_REFUSED.off] := by
  simp only [List.mem_singleton, ccB, hostB, CC_BKT_LEVEL, FLT_MOLT_STAT_REFUSED]
  omega

/-- An error adds its weight to the channel's bucket, and a crossing requests a Molt (R407, R409). -/
structure BucketFilled (c weight : Nat) (s t : State) : Prop extends ErrorCounted c s t where
  words : WordsBut s t (bucketWords c)
  level : t.rd (ccB c) CC_BKT_LEVEL = min 65535 (s.rd (ccB c) CC_BKT_LEVEL + weight)

theorem chanError_filled (s : State) (c weight : Nat) : BucketFilled c weight s (s.chanError c weight) := by
  have level : (s.wr (ccB c) CC_BKT_LEVEL (satAdd 16 (s.rd (ccB c) CC_BKT_LEVEL) weight)).rd (ccB c) CC_BKT_LEVEL =
      min 65535 (s.rd (ccB c) CC_BKT_LEVEL + weight) := by
    rw [State.rd_wr_same _ _ CC_BKT_LEVEL _ (by decide)]
    unfold satAdd
    exact Nat.mod_eq_of_lt (Nat.lt_of_le_of_lt (Nat.min_le_left _ _) (by decide))
  have first := ErrorCounted.wr c s (ccB c) CC_BKT_LEVEL (satAdd 16 (s.rd (ccB c) CC_BKT_LEVEL) weight)
  have words := (wr_wordsBut s (ccB c) CC_BKT_LEVEL (satAdd 16 (s.rd (ccB c) CC_BKT_LEVEL) weight)).mono (m := bucketWords c) (by simp [bucketWords])
  unfold State.chanError
  dsimp only
  generalize s.wr (ccB c) CC_BKT_LEVEL _ = u at *
  split
  · generalize hv : u.setCc c { u.cc c with trip := true } = v
    have tripped : ErrorCounted c u v := by
      rw [← hv]
      exact ⟨.setCc c u _, by rw [State.setCc_cc]⟩
    have perm := ErrorCounted.wr c v (ccB c) CC_BKT_PERM 1
    have permWords := (wr_wordsBut v (ccB c) CC_BKT_PERM 1).mono (m := bucketWords c) (by simp [bucketWords])
    have permLevel : (v.raise (ccB c) CC_BKT_PERM).rd (ccB c) CC_BKT_LEVEL = v.rd (ccB c) CC_BKT_LEVEL :=
      State.rd_wr_other v _ _ CC_BKT_PERM CC_BKT_LEVEL 1 (by decide) (fun _ => .inl (by decide))
    change ErrorCounted c v (v.raise (ccB c) CC_BKT_PERM) at perm
    change WordsBut v (v.raise (ccB c) CC_BKT_PERM) _ at permWords
    generalize v.raise (ccB c) CC_BKT_PERM = x at *
    generalize hy : x.emit (ccSrc c) 0x0683 _ = y
    have told : ErrorCounted c x y := by rw [← hy]; exact .emit c x _ _ _
    have sameV : WordsBut u v (bucketWords c) := .of_regs (by rw [← hv]; rfl) _
    have sameY : WordsBut x y (bucketWords c) := .of_regs (by rw [← hy]; rfl) _
    obtain ⟨-, moltWords⟩ := requestMolt_rest y c 1
    refine ⟨(((first.trans tripped).trans perm).trans told).trans (requestMolt_counted y c 1 c), ?_, ?_⟩
    · exact (((words.trans sameV).trans permWords).trans sameY).trans (moltWords.mono (by simp [bucketWords]))
    · rw [moltWords.rd (bucket_ne_moltStat c), (WordsBut.of_regs (s := x) (t := y) (by rw [← hy]; rfl) []).rd (by simp), permLevel,
        (WordsBut.of_regs (s := u) (t := v) (by rw [← hv]; rfl) []).rd (by simp), level]
  · exact ⟨first, words, level⟩

/-- The registers that the errors of a channel's columns change. -/
def errorWords (c : Nat) : List Nat :=
  bucketWords c ++ [ccB c + CC_ECC_LOG_DPA.off, ccB c + CC_ECC_LOG_VALID.off, ccB c + CC_ECC_CNT_UNCORRECTED.off, ccB c + CC_ECC_CNT_CORRECTED.off]

/-- The event of a column error, unless its reader is quiet (R208). -/
theorem colEvent_counted (s : State) (c code col reader : Nat) :
    ErrorCounted c s (s.colEvent c code col reader) ∧ WordsBut s (s.colEvent c code col reader) (errorWords c) ∧
      (reader ≠ quietReader → s.report (ccSrc c) code [2 ^ 40 + 32 * col, reader] ∈ (s.colEvent c code col reader).reports) := by
  unfold State.colEvent
  split
  · next quiet => exact ⟨.refl c s, .refl s _, fun loud => absurd quiet loud⟩
  · exact ⟨.emit c s _ _ _, .of_regs rfl _, fun _ => List.mem_append_right _ (List.mem_singleton_self _)⟩

/-- An error of a column is reported with its code and reader, and nothing changes but what errors change. -/
structure ColErrored (c code col reader : Nat) (s t : State) : Prop extends ErrorCounted c s t where
  words    : WordsBut s t (errorWords c)
  reported : reader ≠ quietReader → s.report (ccSrc c) code [2 ^ 40 + 32 * col, reader] ∈ t.reports

/-- An error is counted in its counter and in the channel's bucket. -/
theorem sat_chanError_errored (s : State) (c weight : Nat) {f : Fld} (hf : ccB c + f.off ∈ errorWords c) :
    ErrorCounted c s ((s.sat (ccB c) f 1).chanError c weight) ∧ WordsBut s ((s.sat (ccB c) f 1).chanError c weight) (errorWords c) := by
  have filled := chanError_filled (s.sat (ccB c) f 1) c weight
  have words : WordsBut s (s.sat (ccB c) f 1) (errorWords c) := (wr_wordsBut s (ccB c) f _).mono (by simpa using hf)
  exact ⟨(ErrorCounted.wr c s (ccB c) f _).trans filled.toErrorCounted, words.trans (filled.words.mono (List.subset_append_left _ _))⟩

theorem uncorrectable_errored (s : State) (c col reader : Nat) : ColErrored c 0x0602 col reader s (s.uncorrectable c col reader) := by
  unfold State.uncorrectable
  dsimp only
  have logged := (ErrorCounted.wr c s (ccB c) CC_ECC_LOG_DPA (colDpa col)).trans (.wr c _ (ccB c) CC_ECC_LOG_VALID 1)
  have words : WordsBut s ((s.wr (ccB c) CC_ECC_LOG_DPA (colDpa col)).raise (ccB c) CC_ECC_LOG_VALID) (errorWords c) :=
    ((wr_wordsBut s _ _ _).mono (by simp [errorWords])).trans ((wr_wordsBut _ _ _ _).mono (by simp [errorWords]))
  change ErrorCounted c s ((s.wr (ccB c) CC_ECC_LOG_DPA (colDpa col)).raise (ccB c) CC_ECC_LOG_VALID) at logged
  generalize (s.wr (ccB c) CC_ECC_LOG_DPA (colDpa col)).raise (ccB c) CC_ECC_LOG_VALID = u at *
  obtain ⟨told, same, report⟩ := colEvent_counted u c 0x0602 col reader
  generalize u.colEvent c 0x0602 col reader = v at *
  obtain ⟨filled, filledWords⟩ := sat_chanError_errored v c ((v.sat (ccB c) CC_ECC_CNT_UNCORRECTED 1).rd hostB FLT_BKT_CTRL_W_UE)
    (f := CC_ECC_CNT_UNCORRECTED) (by simp [errorWords])
  refine ⟨(logged.trans told).trans filled, (words.trans same).trans filledWords, fun loud => ?_⟩
  rw [← logged.report]
  exact filled.reports.subset (report loud)

theorem correctedErr_errored (s : State) (c col reader : Nat) : ColErrored c 0x0601 col reader s (s.correctedErr c col reader) := by
  unfold State.correctedErr
  dsimp only
  obtain ⟨told, same, report⟩ := colEvent_counted s c 0x0601 col reader
  generalize s.colEvent c 0x0601 col reader = v at *
  obtain ⟨filled, filledWords⟩ := sat_chanError_errored v c ((v.sat (ccB c) CC_ECC_CNT_CORRECTED 1).rd hostB FLT_BKT_CTRL_W_CE)
    (f := CC_ECC_CNT_CORRECTED) (by simp [errorWords])
  exact ⟨told.trans filled, same.trans filledWords, fun loud => filled.reports.subset (report loud)⟩

/-! ### Storage that a failed burst leaves -/

/-- A column is written when `p` holds. -/
def Mem.writeColIf (m : Mem) (p : Bool) (col : Nat) (v : Half) : Mem := if p then m.writeCol col v else m

theorem Mem.half_writeColIf_same (m : Mem) (p : Bool) (col : Nat) (v : Half) :
    (m.writeColIf p col v).store.half col = if p then v else m.store.half col := by
  unfold Mem.writeColIf
  split
  · exact m.half_writeCol_same col v
  · rfl

theorem Mem.half_writeColIf_ne (m : Mem) (p : Bool) {col u : Nat} (v : Half) (h : u ≠ col) : (m.writeColIf p col v).store.half u = m.store.half u := by
  unfold Mem.writeColIf
  split
  · exact m.half_writeCol_ne v h
  · rfl

/-- Storage after a write burst that failed: the poison code in the columns that it touches (R103). -/
def Mem.loseLine (m : Mem) (key : Nat) (w : WriteData) : Mem :=
  (m.writeColIf (w.touches 0) (key / 32) none).writeColIf (w.touches 1) (key / 32 + 1) none

theorem loseWrite_eq (s : State) (key : Nat) (w : WriteData) : s.loseWrite key w = { s.supersede key w with mem := s.mem.loseLine key w } := rfl

theorem Mem.half_loseLine_ne (m : Mem) {key u : Nat} (w : WriteData) (h0 : u ≠ key / 32) (h1 : u ≠ key / 32 + 1) :
    (m.loseLine key w).store.half u = m.store.half u := by
  rw [Mem.loseLine, Mem.half_writeColIf_ne _ _ _ h1, Mem.half_writeColIf_ne _ _ _ h0]

/-- The columns that the write touches read as poison. -/
theorem Mem.half_loseLine (m : Mem) (key : Nat) (w : WriteData) :
    (w.part 0 ≠ 0 → (m.loseLine key w).store.half (key / 32) = none) ∧ (w.part 1 ≠ 0 → (m.loseLine key w).store.half (key / 32 + 1) = none) := by
  refine ⟨fun lo => ?_, fun hi => ?_⟩
  · have touched : w.touches 0 = true := decide_eq_true lo
    rw [Mem.loseLine, Mem.half_writeColIf_ne _ _ _ (by omega), Mem.half_writeColIf_same, touched, if_pos rfl]
  · have touched : w.touches 1 = true := decide_eq_true hi
    rw [Mem.loseLine, Mem.half_writeColIf_same, touched, if_pos rfl]

/-- Storage after a write whose read-modify-write read failed (R99, R103). -/
def Mem.mixLine (m : Mem) (key : Nat) (w : WriteData) : Mem :=
  (((m.writeColIf (w.mixes 0) (key / 32) none).writeColIf (w.mixes 1) (key / 32 + 1) none).writeColIf (w.touches 0 && !w.mixes 0) (key / 32) w.data.lo).writeColIf
    (w.touches 1 && !w.mixes 1) (key / 32 + 1) w.data.hi

theorem spoilMixed_eq (s : State) (key : Nat) (w : WriteData) : s.spoilMixed key w = { s.supersede key w with mem := s.mem.mixLine key w } := rfl

theorem Mem.half_mixLine_ne (m : Mem) {key u : Nat} (w : WriteData) (h0 : u ≠ key / 32) (h1 : u ≠ key / 32 + 1) :
    (m.mixLine key w).store.half u = m.store.half u := by
  rw [Mem.mixLine, Mem.half_writeColIf_ne _ _ _ h1, Mem.half_writeColIf_ne _ _ _ h0, Mem.half_writeColIf_ne _ _ _ h1, Mem.half_writeColIf_ne _ _ _ h0]

/-- A column covered whole takes its data, one covered in part the poison code, and one not covered stays. -/
theorem mixed_column (w : WriteData) (h : Nat) (old new : Half) :
    (if (w.touches h && !w.mixes h) = true then new else if w.mixes h = true then none else old) =
      if w.part h = 0 then old else if w.part h = 2 ^ 32 - 1 then new else none := by
  unfold WriteData.touches WriteData.mixes
  by_cases h0 : w.part h = 0
  · simp [h0]
  · by_cases h1 : w.part h = 4294967295 <;> simp [h0, h1]

theorem Mem.half_mixLine (m : Mem) (key : Nat) (w : WriteData) : ∀ h < 2, (m.mixLine key w).store.half (key / 32 + h) =
    if w.part h = 0 then m.store.half (key / 32 + h) else if w.part h = 2 ^ 32 - 1 then (if h = 0 then w.data.lo else w.data.hi) else none := by
  have lo (m : Mem) (p : Bool) (v : Half) : (m.writeColIf p (key / 32 + 1) v).store.half (key / 32) = m.store.half (key / 32) :=
    m.half_writeColIf_ne p v (by omega)
  have hi (m : Mem) (p : Bool) (v : Half) : (m.writeColIf p (key / 32) v).store.half (key / 32 + 1) = m.store.half (key / 32 + 1) :=
    m.half_writeColIf_ne p v (by omega)
  intro h two
  unfold Mem.mixLine
  match h, two with
  | 0, _ =>
    change (Mem.store _).half (key / 32) = if w.part 0 = 0 then m.store.half (key / 32) else if w.part 0 = 2 ^ 32 - 1 then w.data.lo else none
    rw [lo, Mem.half_writeColIf_same, lo, Mem.half_writeColIf_same, mixed_column]
  | 1, _ => rw [Mem.half_writeColIf_same, hi, Mem.half_writeColIf_same, hi, mixed_column, if_neg Nat.one_ne_zero]

/-! ### How a burst fails -/

/-- From `s` to `t` a failed burst changes at most its CC, its two columns and what leaves the card; replays stay counted as they were. -/
structure BurstFailed (c key : Nat) (s t : State) : Prop where
  rest    : t = { s with ccs := t.ccs, mem := t.mem, out := t.out }
  others  : OtherCcs s t c
  replays : (t.cc c).replays = (s.cc c).replays
  columns : ∀ x, x ≠ key / 32 → x ≠ key / 32 + 1 → t.mem.store.half x = s.mem.store.half x

/-- A burst that no waiting request runs is recorded as lost; storage, pool and answers stay. -/
structure BurstWaits (c key : Nat) (write : Bool) (s t : State) : Prop extends BurstFailed c key s t where
  mem  : t.mem = s.mem
  out  : t.out = s.out
  pool : (t.cc c).pool = (s.cc c).pool
  lost : look noMark (t.cc c).lost (burstNo key write) = true

theorem markLost_waits (s : State) (c key : Nat) (write : Bool) : BurstWaits c key write s (s.markLost c key write) := by
  have cc : (s.markLost c key write).cc c = { s.cc c with lost := put noMark (s.cc c).lost (burstNo key write) true } := State.setCc_cc _ _ _
  exact ⟨⟨rfl, .setCc s c _, by rw [cc], fun _ _ _ => rfl⟩, rfl, rfl, by rw [cc], by rw [cc]; exact look_put_same noMark _ _ true⟩

/-- A write that is performed with its failed burst leaves the pool, and the columns `m` in storage; nothing leaves the card. -/
structure WriteFailed (c key : Nat) (r : Req) (m : Mem) (s t : State) : Prop extends BurstFailed c key s t where
  mem  : t.mem = m
  out  : t.out = s.out
  pool : (t.cc c).pool = (s.cc c).pool.erase r

theorem writeFailed_of_supersede {s : State} {c key : Nat} (hc : keyChan key = c) (r : Req) (w : WriteData) (m : Mem)
    (columns : ∀ x, x ≠ key / 32 → x ≠ key / 32 + 1 → m.store.half x = s.mem.store.half x) :
    WriteFailed c key r m s { (s.setCc c ((s.cc c).remove r)).supersede key w with mem := m } := by
  subst hc
  generalize hu : s.setCc (keyChan key) ((s.cc (keyChan key)).remove r) = u
  have removed : u.cc (keyChan key) = (s.cc (keyChan key)).remove r := by rw [← hu]; exact State.setCc_cc _ _ _
  have othersU : OtherCcs s u (keyChan key) := by rw [← hu]; exact .setCc _ _ _
  have restU : u = { s with ccs := u.ccs } := by rw [← hu]; rfl
  obtain ⟨rest, others, cc⟩ := supersede_superseded u key w
  generalize u.supersede key w = v at *
  have same : ({ v with mem := m } : State).cc (keyChan key) = v.cc (keyChan key) := rfl
  have out : v.out = s.out := by rw [rest, restU]
  have left : ({ v with mem := m } : State) = { s with ccs := v.ccs, mem := m, out := v.out } := by
    rw [out, rest, restU]
  refine ⟨⟨left, othersU.trans others, ?_, columns⟩, rfl, out, ?_⟩
  · rw [same, cc, removed]; rfl
  · rw [same, cc, removed]; rfl

theorem loseWrite_failed (s : State) {c key : Nat} (hc : keyChan key = c) (r : Req) (w : WriteData) :
    WriteFailed c key r (s.mem.loseLine key w) s ((s.setCc c ((s.cc c).remove r)).loseWrite key w) := by
  rw [loseWrite_eq]
  exact writeFailed_of_supersede hc r w _ fun _ h0 h1 => s.mem.half_loseLine_ne w h0 h1

theorem spoilMixed_failed (s : State) {c key : Nat} (hc : keyChan key = c) (r : Req) (w : WriteData) :
    WriteFailed c key r (s.mem.mixLine key w) s ((s.setCc c ((s.cc c).remove r)).spoilMixed key w) := by
  rw [spoilMixed_eq]
  exact writeFailed_of_supersede hc r w _ fun _ h0 h1 => s.mem.half_mixLine_ne w h0 h1

/-- A read that is performed with its failed burst leaves the pool and is answered with poison. -/
structure ReadFailed (c key : Nat) (r : Req) (s t : State) : Prop extends BurstFailed c key s t where
  mem       : t.mem = s.mem
  pool      : (t.cc c).pool = (s.cc c).pool.erase r
  delivered : Delivered s t c r .bad

theorem answerReq_failed (s : State) {c : Nat} {r : Req} (hc : keyChan r.key = c) : ReadFailed c r.key r s ((s.setCc c ((s.cc c).remove r)).answerReq r .bad) := by
  generalize hu : s.setCc c ((s.cc c).remove r) = u
  have removed : u.cc c = (s.cc c).remove r := by rw [← hu]; exact State.setCc_cc _ _ _
  have othersU : OtherCcs s u c := by rw [← hu]; exact .setCc _ _ _
  have restU : u = { s with ccs := u.ccs } := by rw [← hu]; rfl
  obtain ⟨rest, others, cc, delivered⟩ := answerReq_answered u .bad hc
  generalize u.answerReq r .bad = t at *
  have mem : t.mem = s.mem := by rw [rest, restU]
  refine ⟨⟨?_, othersU.trans others, ?_, fun _ _ _ => by rw [mem]⟩, mem, ?_, delivered.congr (by rw [restU]) (by rw [removed]; rfl)⟩
  · rw [mem]; exact rest.trans (by rw [restU])
  · rw [cc, removed]; rfl
  · rw [cc, removed]; rfl

section
variable (s : State) (c : Nat) {key : Nat}

theorem burstFail_none (write : Bool) (h : (s.cc c).lineHead key = none) : s.burstFail c key write = s.markLost c key write := by
  rw [State.burstFail, h]

variable {r : Req} (h : (s.cc c).lineHead key = some r)
include h

theorem burstFail_read (hw : r.write = none) : s.burstFail c key false = (s.setCc c ((s.cc c).remove r)).answerReq r .bad := by
  rw [State.burstFail, h]
  dsimp only
  rw [hw]

theorem burstFail_readOther (hw : r.write = none) : s.burstFail c key true = s.markLost c key true := by
  rw [State.burstFail, h]
  dsimp only
  rw [hw]

theorem burstFail_write {w : WriteData} (hw : r.write = some w) : s.burstFail c key true = (s.setCc c ((s.cc c).remove r)).loseWrite key w := by
  rw [State.burstFail, h]
  dsimp only
  rw [hw]

theorem burstFail_writeRead {w : WriteData} (hw : r.write = some w) :
    s.burstFail c key false = if w.rmw then (s.setCc c ((s.cc c).remove r)).spoilMixed key w else s.markLost c key false := by
  rw [State.burstFail, h]
  dsimp only
  rw [hw]

end

/-! ### What a failed burst reports -/

/-- The report names a column of the pair. -/
theorem burstCol_pair (s : State) (c col : Nat) (write : Bool) : s.burstCol c col write / 2 = col / 2 := by
  unfold State.burstCol
  dsimp only
  split
  · split
    · split <;> split <;> omega
    · omega
  · split
    · omega
    · split <;> omega

theorem burstReader_write (s : State) (c key : Nat) : s.burstReader c key true = 5 := rfl

theorem burstReader_rmw {s : State} {c key : Nat} {r : Req} {w : WriteData} (h : (s.cc c).lineHead key = some r) (hw : r.write = some w) :
    s.burstReader c key false = 4 := by
  rw [State.burstReader, h]
  simp [hw]

theorem burstReader_read {s : State} {c key : Nat} {r : Req} (h : (s.cc c).lineHead key = some r) (hw : r.write = none) :
    s.burstReader c key false = r.ans.reader := by
  rw [State.burstReader, h]
  simp [hw]

theorem burstReader_congr {s u : State} {c : Nat} (pool : (u.cc c).pool = (s.cc c).pool) (scrub : (u.cc c).scrub = (s.cc c).scrub) (key : Nat) (write : Bool) :
    u.burstReader c key write = s.burstReader c key write := by
  unfold State.burstReader CcSt.lineHead State.scrubCol
  rw [pool, scrub]

/-! ### CRC_REPLAY -/

/-- From `s` to `t` the `n + 1`-th replay of burst `b` is counted and reported, and the channel's bucket takes its weight (R103, R407). -/
structure ReplayCounted (c b n : Nat) (s t : State) : Prop extends CcWork c s t where
  replays  : (t.cc c).replays = put noReplay (s.cc c).replays b (n + 1)
  pool     : (t.cc c).pool = (s.cc c).pool
  reported : s.reports ++ [s.report (ccSrc c) 0x0606 [c % 32, n + 1]] <+: t.reports
  level    : t.rd (ccB c) CC_BKT_LEVEL = min 65535 (s.rd (ccB c) CC_BKT_LEVEL + s.rd hostB FLT_BKT_CTRL_W_RP)
  words    : WordsBut s t (bucketWords c)

/-- A channel of a die in reset, a retired one and one that the column is not of have no burst (R27). -/
theorem crcReplay_idle {s : State} {c col : Nat} (write : Bool) (h : keyChan (32 * col) ≠ c ∨ s.retired c = true ∨ s.dieUp (chanDie c) = false) :
    crcReplay c col write s = s :=
  if_pos (h.imp_right (·.imp_right fun down => by rw [down]; rfl))

section
variable {s : State} {c col : Nat} {write : Bool} (home : keyChan (32 * col) = c) (live : s.retired c = false) (up : s.dieUp (chanDie c) = true)
include home live up

theorem crcReplay_runs : ¬ (keyChan (32 * col) ≠ c ∨ s.retired c = true ∨ (!s.dieUp (chanDie c)) = true) := by
  simp [home, live, up]

/-- A replay is counted for its burst and reported, and its weight is added to the bucket (R103, R407). -/
theorem crcReplay_replayed (off : Untraced s c) (few : look noReplay (s.cc c).replays (burstNo (col / 2 * 64) write) < 4) :
    ∃ v, v = { s with ccs := v.ccs, reports := v.reports } ∧ OtherCcs s v c ∧
      v.cc c = { s.cc c with replays := put noReplay (s.cc c).replays (burstNo (col / 2 * 64) write) (look noReplay (s.cc c).replays (burstNo (col / 2 * 64) write) + 1) } ∧
      v.reports = s.reports ++ [s.report (ccSrc c) 0x0606 [c % 32, look noReplay (s.cc c).replays (burstNo (col / 2 * 64) write) + 1]] ∧
      crcReplay c col write s = v.chanError c (v.rd hostB FLT_BKT_CTRL_W_RP) := by
  generalize hk : put noReplay (s.cc c).replays (burstNo (col / 2 * 64) write) (look noReplay (s.cc c).replays (burstNo (col / 2 * 64) write) + 1) = l
  have offU : Untraced (s.setCc c { s.cc c with replays := l }) c := off.of_regs rfl
  refine ⟨(s.setCc c { s.cc c with replays := l }).emit (ccSrc c) 0x0606 [c % 32, look noReplay (s.cc c).replays (burstNo (col / 2 * 64) write) + 1],
    rfl, .setCc s c _, State.setCc_cc _ _ _, rfl, ?_⟩
  rw [crcReplay, if_neg (crcReplay_runs home live up)]
  dsimp only
  rw [if_pos few, hk, offU.trace]

theorem crcReplay_counted (off : Untraced s c) (few : look noReplay (s.cc c).replays (burstNo (col / 2 * 64) write) < 4) :
    ReplayCounted c (burstNo (col / 2 * 64) write) (look noReplay (s.cc c).replays (burstNo (col / 2 * 64) write)) s (crcReplay c col write s) := by
  obtain ⟨v, rest, others, cc, reports, replayed⟩ := crcReplay_replayed home live up off few
  rw [replayed]
  have same : WordsBut s v [] := .of_regs (by rw [rest]) _
  have filled := chanError_filled v c (v.rd hostB FLT_BKT_CTRL_W_RP)
  generalize v.chanError c (v.rd hostB FLT_BKT_CTRL_W_RP) = t at *
  obtain ⟨errored, words, level⟩ := filled
  have work : CcWork c s v := by
    refine ⟨⟨?_, others⟩, ?_, ?_, ?_, ?_⟩
    · rw [rest]
    · rw [rest]
    · rw [rest]
    · rw [rest]
    · rw [reports]; exact List.prefix_append _ _
  have ccT := errored.cc
  rw [cc] at ccT
  have replays := congrArg CcSt.replays ccT
  dsimp only at replays
  refine ⟨work.trans errored.toCcWork, replays, by rw [ccT], ?_, ?_, (same.mono (by simp)).trans words⟩
  · rw [← reports]; exact errored.reports
  · rw [level, same.rd (by simp), same.rd (by simp)]

/-- The state in which a burst that failed after its last replay is lost: one error of the pair is counted, and its replays are forgotten. -/
structure LossCounted (c key : Nat) (write : Bool) (s v : State) : Prop extends CcWork c s v where
  cc : v.cc c = { s.cc c with replays := put noReplay (s.cc c).replays (burstNo key write) 0, trip := (v.cc c).trip }

/-- The failure after the fourth replay is one uncorrectable error, and the burst fails (R98, R103; log 31). -/
theorem crcReplay_fails (many : 4 ≤ look noReplay (s.cc c).replays (burstNo (col / 2 * 64) write)) :
    ∃ v, LossCounted c (col / 2 * 64) write s v ∧ crcReplay c col write s = v.burstFail c (col / 2 * 64) write ∧
      (s.burstReader c (col / 2 * 64) write ≠ quietReader → PairReported s v c col (s.burstReader c (col / 2 * 64) write)) := by
  generalize hu : s.setCc c { s.cc c with replays := put noReplay (s.cc c).replays (burstNo (col / 2 * 64) write) 0 } = u
  have cc : u.cc c = { s.cc c with replays := put noReplay (s.cc c).replays (burstNo (col / 2 * 64) write) 0 } := by rw [← hu, State.setCc_cc]
  have work : CcWork c s u := by rw [← hu]; exact .setCc c s _
  have reader : u.burstReader c (col / 2 * 64) write = s.burstReader c (col / 2 * 64) write := burstReader_congr (by rw [cc]) (by rw [cc]) _ _
  have event (code : Nat) (data : List Nat) : u.report (ccSrc c) code data = s.report (ccSrc c) code data := by
    unfold State.report; rw [work.tsc]
  obtain ⟨errored, -, reported⟩ := uncorrectable_errored u c (u.burstCol c col write) (u.burstReader c (col / 2 * 64) write)
  refine ⟨_, ⟨work.trans errored.toCcWork, errored.cc.trans (by rw [cc])⟩, ?_, fun loud => ⟨u.burstCol c col write, burstCol_pair u c col write, ?_⟩⟩
  · rw [crcReplay, if_neg (crcReplay_runs home live up)]
    dsimp only
    rw [if_neg (Nat.not_lt.mpr many), hu, crcFail]
  · rw [← event, ← reader]
    exact reported (by rw [reader]; exact loud)

end

/-- A frame in which the counter of free values stays too. -/
theorem CcFrame.keepsFree {c : Nat} {s t : State} (h : CcFrame c s t) (free : t.free = s.free) :
    t = { s with regs := t.regs, ccs := t.ccs, mem := t.mem, reports := t.reports, molt := t.molt, out := t.out } :=
  h.rest.trans (by rw [free])

/-- A frame in which storage, what leaves the card and the counter of free values stay too. -/
theorem CcWork.left {c : Nat} {s t : State} (h : CcWork c s t) : t = { s with regs := t.regs, ccs := t.ccs, reports := t.reports, molt := t.molt } :=
  h.rest.trans (by rw [h.mem, h.out, h.free])

/-- What holds after a burst that failed, whoever it was of. -/
theorem LossCounted.failed {c key : Nat} {write : Bool} {s v t : State} (h : LossCounted c key write s v) (f : BurstFailed c key v t) :
    t = { s with regs := t.regs, ccs := t.ccs, mem := t.mem, reports := t.reports, molt := t.molt, out := t.out } ∧ OtherCcs s t c ∧
      look noReplay (t.cc c).replays (burstNo key write) = 0 ∧ s.reports <+: t.reports ∧
      ∀ x, x ≠ key / 32 → x ≠ key / 32 + 1 → t.mem.store.half x = s.mem.store.half x := by
  obtain ⟨work, cc⟩ := h
  obtain ⟨rest, others, replays, columns⟩ := f
  have frame : CcFrame c s t := work.toCcFrame.trans ⟨by rw [rest], others⟩
  refine ⟨frame.keepsFree (by rw [rest]; exact work.free), frame.others, ?_, ?_, fun x h0 h1 => ?_⟩
  · rw [replays, cc]; exact look_put_same noReplay _ _ 0
  · rw [rest]; exact work.reports
  · rw [columns x h0 h1, work.mem]

/-- A burst that waits leaves storage, pool and answers as they were before its error was counted. -/
theorem BurstWaits.of_lossy {c key : Nat} {write : Bool} {s v t : State} (h : BurstWaits c key write v t) (lossy : LossCounted c key write s v) :
    t.mem = s.mem ∧ t.out = s.out ∧ (t.cc c).pool = (s.cc c).pool ∧ look noMark (t.cc c).lost (burstNo key write) = true :=
  ⟨h.mem.trans lossy.mem, h.out.trans lossy.out, h.pool.trans (by rw [lossy.cc]), h.lost⟩

/-- Every read but a prefetch names the reader of a request. -/
theorem answer_reader_loud {a : Answer} (h : ∀ i, a = .card (.prefetch i) → False) : a.reader = 1 := by
  unfold Answer.reader
  split
  · next i => exact (h i rfl).elim
  · rfl

theorem PairReported.of_reports {s v t : State} {c col reader : Nat} (h : PairReported s v c col reader) (e : t.reports = v.reports) : PairReported s t c col reader := by
  unfold PairReported at h ⊢
  rw [e]; exact h

/-- Settles O15, by the replays already made and, past the fourth, by the oldest request to the line. -/
theorem crcReplayReportsAndFails : Obligations.CrcReplayReportsAndFails := by
  unfold Obligations.CrcReplayReportsAndFails
  refine ⟨fun c col write s off home live up few => ⟨crcReplay c col write s, rfl, ?replayed⟩,
    fun c col write s home live up many => ⟨crcReplay c col write s, rfl, ?failed⟩, fun c col write s idle => ?idle⟩
  case replayed =>
    have counted := crcReplay_counted home live up off few
    generalize crcReplay c col write s = t at counted ⊢
    obtain ⟨work, replays, pool, reported, level, words⟩ := counted
    refine ⟨work.left, work.others, ?_, fun d hd => ?_, pool, reported, level, words⟩
    · rw [replays]; exact look_put_same noReplay _ _ _
    · rw [replays]; exact look_put_ne noReplay _ _ d _ hd
  case failed =>
    obtain ⟨v, lossy, failed, reported⟩ := crcReplay_fails home live up many
    have home' : keyChan (col / 2 * 64) = c := (keyChan_pair col).trans home
    have poolV : (v.cc c).pool = (s.cc c).pool := by rw [lossy.cc]
    have headV : (v.cc c).lineHead (col / 2 * 64) = (s.cc c).lineHead (col / 2 * 64) := by unfold CcSt.lineHead; rw [poolV]
    rw [failed]
    dsimp only
    cases head : (s.cc c).pool.find? (fun r => decide (r.key = col / 2 * 64)) with
    | none =>
      have waits := markLost_waits v c (col / 2 * 64) write
      rw [burstFail_none v c write (headV.trans head)]
      obtain ⟨rest, others, replays, reports, columns⟩ := lossy.failed waits.toBurstFailed
      refine ⟨rest, others, replays, reports, columns, waits.of_lossy lossy, fun writes => ?_⟩
      subst writes
      exact (reported (by rw [burstReader_write]; decide)).of_reports rfl
    | some r =>
      have hkey : r.key = col / 2 * 64 := by
        have found := List.find?_some head
        exact of_decide_eq_true found
      dsimp only
      cases hw : r.write with
      | none =>
        cases write with
        | false =>
          rw [burstFail_read v c (headV.trans head) hw]
          have read : ReadFailed c (col / 2 * 64) r v ((v.setCc c ((v.cc c).remove r)).answerReq r .bad) := hkey ▸ answerReq_failed v (hkey ▸ home')
          generalize (v.setCc c ((v.cc c).remove r)).answerReq r .bad = t at *
          obtain ⟨rest, others, replays, reports, columns⟩ := lossy.failed read.toBurstFailed
          have told : r.ans.reader = 1 → PairReported s t c col 1 := fun one => by
            rw [burstReader_read head hw, one] at reported
            exact (reported (by decide)).of_reports (by rw [read.rest])
          refine ⟨rest, others, replays, reports, columns, read.pool.trans (by rw [poolV]), read.mem.trans lossy.mem,
            read.delivered.congr lossy.out (by rw [lossy.cc]), ?_⟩
          split
          · trivial
          · next loud => exact told (answer_reader_loud loud)
        | true =>
          have waits := markLost_waits v c (col / 2 * 64) true
          rw [burstFail_readOther v c (headV.trans head) hw]
          obtain ⟨rest, others, replays, reports, columns⟩ := lossy.failed waits.toBurstFailed
          exact ⟨rest, others, replays, reports, columns, waits.of_lossy lossy⟩
      | some w =>
        cases write with
        | true =>
          have reader := reported (by rw [burstReader_write]; decide)
          have lost := loseWrite_failed v home' r w
          rw [burstFail_write v c (headV.trans head) hw]
          generalize (v.setCc c ((v.cc c).remove r)).loseWrite (col / 2 * 64) w = t at lost ⊢
          obtain ⟨rest, others, replays, reports, columns⟩ := lossy.failed lost.toBurstFailed
          obtain ⟨lo, hi⟩ := v.mem.half_loseLine (col / 2 * 64) w
          rw [w.part_zero, ← lost.mem] at lo
          rw [w.part_one, ← lost.mem] at hi
          exact ⟨rest, others, replays, reports, columns, lost.pool.trans (by rw [poolV]), lost.out.trans lossy.out,
            reader.of_reports (by rw [lost.rest]), lo, hi⟩
        | false =>
          rw [burstFail_writeRead v c (headV.trans head) hw]
          dsimp only
          by_cases mixed : w.rmw = true
          · rw [if_pos mixed, if_pos mixed]
            rw [burstReader_rmw head hw] at reported
            have reader := reported (by decide)
            have columnsT := v.mem.half_mixLine (col / 2 * 64) w
            have lost := spoilMixed_failed v home' r w
            generalize (v.setCc c ((v.cc c).remove r)).spoilMixed (col / 2 * 64) w = t at lost ⊢
            obtain ⟨rest, others, replays, reports, columns⟩ := lossy.failed lost.toBurstFailed
            rw [← lost.mem, lossy.mem] at columnsT
            exact ⟨rest, others, replays, reports, columns, lost.pool.trans (by rw [poolV]), lost.out.trans lossy.out,
              reader.of_reports (by rw [lost.rest]), columnsT⟩
          · have waits := markLost_waits v c (col / 2 * 64) false
            rw [if_neg mixed, if_neg mixed]
            obtain ⟨rest, others, replays, reports, columns⟩ := lossy.failed waits.toBurstFailed
            exact ⟨rest, others, replays, reports, columns, waits.of_lossy lossy⟩
  case idle => exact congrArg (fun t : State => Host.Outcome.next t.onward) (crcReplay_idle write idle)

end Sys2Proof.Machine
end

section
/-! The maintenance port: neighbour refreshes and the table entries that queue them, ECC write-backs, and the patrol scrub (R91-R100). -/

namespace Sys2Proof.Machine

/-! ### A row for the maintenance port -/

/-- From `s` to `t` the SID of `bank` is awake and `row` is open, at the cost of at most a counted activate; else CC `c` is as in `k`. -/
structure RowAwake (c bank row : Nat) (k : CcSt) (s t : State) : Prop where
  rest       : t = { s with regs := t.regs, ccs := t.ccs, reports := t.reports }
  others     : OtherCcs s t c
  reports    : s.reports <+: t.reports
  words      : WordsBut s t [ccB c + CC_ERR_FLAGS_RD_ESC.off, ccB c + CC_STATUS_SID_PD.off]
  awake      : Awake s t c (bank / 32)
  cc         : t.cc c = { k with
    rows := (t.cc c).rows, dist := (t.cc c).dist, maint := (t.cc c).maint, waiting := (t.cc c).waiting, nextId := (t.cc c).nextId }
  openRow    : (t.cc c).openRow bank = some row
  writeBacks : ∀ col since d, Maint.writeBack col since d ∈ (t.cc c).maint → Maint.writeBack col since d ∈ k.maint

/-- A mask of SIDs in power-down is read as it was before. -/
theorem Awake.congr {s t u : State} {c sid : Nat} (h : Awake s t c sid) (e : u.rd (ccB c) CC_STATUS_SID_PD = t.rd (ccB c) CC_STATUS_SID_PD) : Awake s u c sid := by
  unfold Awake at h ⊢
  rwa [e]

theorem Untraced.reachRow {s : State} {c bank : Nat} (off : Untraced s c) (hb : bank < 128) (row : Nat) (k : CcSt) :
    RowAwake c bank row k s (((s.pdx c (2 ^ (bank / 32))).setCc c k).openFor c bank row) := by
  have awake := off.pdx_awake (sid := bank / 32) (by omega)
  obtain ⟨only, -⟩ := off.pdx (2 ^ (bank / 32))
  have off' : Untraced ((s.pdx c (2 ^ (bank / 32))).setCc c k) c := (off.of_pdx _).of_regs rfl
  generalize s.pdx c (2 ^ (bank / 32)) = v at *
  have work : CcWork c s (v.setCc c k) := (only.ccWork c).trans (.setCc c v k)
  have words : WordsBut s (v.setCc c k) [ccB c + CC_STATUS_SID_PD.off] := only.2.trans (.of_regs rfl _)
  have molt := only.molt
  obtain ⟨opened, moltT, wordsT, cc, openRow, -, writeBacks⟩ := off'.openFor bank row
  rw [State.setCc_cc] at cc writeBacks
  have pd := wordsT.rd (b := ccB c) (f := CC_STATUS_SID_PD) (by simp [CC_STATUS_SID_PD, CC_ERR_FLAGS_RD_ESC])
  generalize (v.setCc c k).openFor c bank row = t at *
  have whole := work.trans opened
  have moltS : t.molt = s.molt := moltT.trans molt
  exact ⟨whole.rest.trans (by rw [whole.mem, whole.out, whole.free, moltS]), whole.others, whole.reports,
    (words.mono (by simp)).trans (wordsT.mono (by simp)), awake.congr pd, cc, openRow, writeBacks⟩

theorem RowAwake.frame {c bank row : Nat} {k : CcSt} {s t : State} (h : RowAwake c bank row k s t) : CcFrame c s t := ⟨by rw [h.rest], h.others⟩
theorem RowAwake.mem {c bank row : Nat} {k : CcSt} {s t : State} (h : RowAwake c bank row k s t) : t.mem = s.mem := by rw [h.rest]

theorem Untraced.of_awake {s t : State} {c bank row : Nat} {k : CcSt} (off : Untraced s c) (h : RowAwake c bank row k s t) : Untraced t c :=
  off.of_wordsBut h.words (by simp [CC_TRACE_CTRL_ENABLE, CC_ERR_FLAGS_RD_ESC, CC_STATUS_SID_PD])

/-! ### Neighbour refresh -/

/-- The refresh that issues next stands in the maintenance queue or waits for it. -/
theorem mem_of_nextNeighbour {s : State} {c : Nat} {m : Maint} (h : s.nextNeighbour c = some m) : m ∈ (s.cc c).maint ++ (s.cc c).waiting := by
  have free {m : Maint} (h : (s.freeRefreshes c).find? (fun m => s.atTop c m.since) = some m) : m ∈ (s.cc c).maint ++ (s.cc c).waiting :=
    List.mem_append_left _ (List.mem_of_mem_filter (List.mem_of_find?_eq_some h))
  unfold State.nextNeighbour at h
  dsimp only at h
  split at h
  · next escalated => cases h; exact List.mem_of_find?_eq_some escalated
  · split at h
    · next group =>
      rcases ite_eq_iff.mp h with ⟨-, own⟩ | ⟨-, other⟩
      · cases own; exact List.mem_append_left _ (List.mem_of_find?_eq_some group)
      · exact free other
    · exact free h

/-- With room in the maintenance queue a neighbour refresh is queued at its end. -/
theorem queueNeighbour_room {k : CcSt} (room : k.maint.length < 16) (bank row now : Nat) :
    k.queueNeighbour bank row now = { k with nextId := k.nextId + 1, maint := k.maint ++ [.neighbour k.nextId bank row now false] } :=
  if_pos room

/-- The table of a bank's counted rows. -/
def CcSt.counts (k : CcSt) (bank : Nat) : List RdEntry := look (fun _ => []) k.dist bank

/-- After a refresh its entry keeps its count, or is queued again with count 0; at most one refresh comes into the queue (R93). -/
structure Rearmed (bank now : Nat) (k k' : CcSt) : Prop where
  rest       : k' = { k with dist := k'.dist, maint := k'.maint, nextId := k'.nextId }
  otherBanks : ∀ b, b ≠ bank → k'.counts b = k.counts b
  maint      : k'.maint = k.maint ∨ ∃ row, k'.maint = k.maint ++ [.neighbour k.nextId bank row now false]

theorem rearm_rearmed {k : CcSt} (room : k.maint.length < 16) (bank id th now : Nat) : Rearmed bank now k (k.rearm bank id th now) := by
  unfold CcSt.rearm
  dsimp only
  split
  · exact ⟨rfl, fun _ _ => rfl, .inl rfl⟩
  · split
    · rw [queueNeighbour_room (by exact room)]
      exact ⟨rfl, fun b hb => look_put_ne _ _ bank b _ hb, .inr ⟨_, rfl⟩⟩
    · exact ⟨rfl, fun b hb => look_put_ne _ _ bank b _ hb, .inl rfl⟩

/-- What becomes of the entry that queued the refresh. -/
theorem rearm_entry {k : CcSt} (room : k.maint.length < 16) {bank id i : Nat} {x : RdEntry} (th now : Nat)
    (found : (k.counts bank).findIdx? (fun y => decide (y.queued = some id)) = some i) (entry : (k.counts bank)[i]? = some x) :
    if th ≤ x.count then
      ((k.rearm bank id th now).counts bank)[i]? = some ⟨x.row, 0, some k.nextId⟩ ∧
        .neighbour k.nextId bank x.row now false ∈ (k.rearm bank id th now).maint
    else ((k.rearm bank id th now).counts bank)[i]? = some ⟨x.row, x.count, none⟩ := by
  unfold CcSt.counts at found entry
  have own : (look (fun _ => []) k.dist bank).getD i ⟨0, 0, none⟩ = x := by rw [List.getD_eq_getElem?_getD, entry]; rfl
  unfold CcSt.rearm CcSt.counts
  dsimp only
  rw [found]
  dsimp only
  rw [own]
  split
  · rw [queueNeighbour_room (by exact room)]
    dsimp only
    rw [look_put_same, List.getElem?_modify, entry]
    exact ⟨by simp, by simp⟩
  · dsimp only
    rw [look_put_same, List.getElem?_modify, entry]
    simp

/-- The CC from whose queue the refresh `m` is taken. -/
def CcSt.taken (k : CcSt) (m : Maint) (e : Bool) : CcSt :=
  { k with maint := k.maint.erase m, yields := if k.panic && !e then 0 else k.yields }

/-- A refresh that was queued is served: it leaves the queue, the other items stay, and its entry keeps its count or queues again (R93). -/
structure RefreshServed (id bank row since : Nat) (e : Bool) (th now : Nat) (k k' : CcSt) : Prop where
  rows       : k'.rows = k.rows
  gone       : .neighbour id bank row since e ∉ k'.maint
  kept       : ∀ m ∈ k.maint, m ≠ .neighbour id bank row since e → m ∈ k'.maint
  otherBanks : ∀ b, b ≠ bank → k'.counts b = k.counts b
  entry      : ∀ i x, (k.counts bank).findIdx? (fun y => decide (y.queued = some id)) = some i → (k.counts bank)[i]? = some x →
    if th ≤ x.count then
      (k'.counts bank)[i]? = some ⟨x.row, 0, some k.nextId⟩ ∧ .neighbour k.nextId bank x.row now false ∈ k'.maint
    else (k'.counts bank)[i]? = some ⟨x.row, x.count, none⟩

theorem refreshServed {k : CcSt} {id bank row since : Nat} {e : Bool} (queued : .neighbour id bank row since e ∈ k.maint) (nodup : k.maint.Nodup)
    (fresh : ∀ m ∈ k.maint, ∀ b r w x, m ≠ .neighbour k.nextId b r w x) (full : k.maint.length ≤ 16) (th now : Nat) :
    RefreshServed id bank row since e th now k ((k.taken (.neighbour id bank row since e) e).rearm bank id th now) := by
  have room : (k.taken (.neighbour id bank row since e) e).maint.length < 16 := by
    have := List.length_pos_of_mem queued
    rw [CcSt.taken, List.length_erase_of_mem queued]
    omega
  obtain ⟨rest, otherBanks, maint⟩ := rearm_rearmed room bank id th now
  refine ⟨by rw [rest]; rfl, fun again => ?_, fun m hm hne => ?_, otherBanks, fun i x found entry => rearm_entry room th now found entry⟩
  · obtain eq | ⟨r, eq⟩ := maint
    · rw [eq] at again
      exact nodup.not_mem_erase again
    · rw [eq, List.mem_append, List.mem_singleton] at again
      exact again.elim nodup.not_mem_erase (fresh _ queued bank r now false)
  · have kept : m ∈ (k.taken (.neighbour id bank row since e) e).maint := (List.mem_erase_of_ne hne).mpr hm
    obtain eq | ⟨r, eq⟩ := maint
    · rw [eq]; exact kept
    · rw [eq]; exact List.mem_append_left _ kept

/-- The refreshed rows leave no record with the trace off. -/
theorem Untraced.traces {s : State} {c : Nat} (off : Untraced s c) (bank : Nat) (rows : List Nat) :
    rows.foldl (fun s r => (s.trace c none (rowAct bank r) 0).trace c none (rowPre bank) 0) s = s := by
  induction rows with
  | nil => rfl
  | cons r rows ih => rw [List.foldl_cons, off.trace, off.trace, ih]

/-- NEIGHBOUR_REFRESH closes the row, and its item is served. -/
theorem Untraced.issueRefresh {s : State} {c : Nat} (off : Untraced s c) (id bank row since : Nat) (e : Bool) (waiting : (s.cc c).waiting = []) :
    ∃ u, RowClosed c bank (s.pdx c (2 ^ (bank / 32))) u ∧
      s.issueRefresh c (.neighbour id bank row since e) =
        u.setCc c (((u.cc c).taken (.neighbour id bank row since e) e).rearm bank id (s.rd (ccB c) CC_RD_CTRL_THRESHOLD) s.tsc) := by
  have off1 := off.of_pdx (2 ^ (bank / 32))
  obtain ⟨only, -⟩ := off.pdx (2 ^ (bank / 32))
  have closed := off1.closeRow bank
  refine ⟨_, closed, ?_⟩
  have cc := only.cc c
  have tsc : (s.pdx c (2 ^ (bank / 32))).tsc = s.tsc := by rw [only.1]
  have threshold := only.2.rd (b := ccB c) (f := CC_RD_CTRL_THRESHOLD) (by simp [CC_STATUS_SID_PD, CC_RD_CTRL_THRESHOLD])
  unfold State.issueRefresh
  dsimp only
  generalize s.pdx c (2 ^ (bank / 32)) = v at *
  have regs : (v.closeRow c bank).regs = v.regs := by rw [closed.rest]
  have tsc' : (v.closeRow c bank).tsc = s.tsc := by rw [closed.rest]; exact tsc
  have threshold' := ((WordsBut.of_regs regs []).rd (b := ccB c) (f := CC_RD_CTRL_THRESHOLD) (by simp)).trans threshold
  have waiting' : ((v.closeRow c bank).cc c).waiting = [] := by rw [closed.cc, cc]; exact waiting
  generalize v.closeRow c bank = u at *
  have refilled : CcSt.refill { u.cc c with
      maint := (u.cc c).maint.erase (.neighbour id bank row since e), waiting := (u.cc c).waiting.erase (.neighbour id bank row since e),
      yields := if (u.cc c).panic && !e then 0 else (u.cc c).yields } = (u.cc c).taken (.neighbour id bank row since e) e := by
    unfold CcSt.refill CcSt.taken
    simp [waiting']
  have offT (k : CcSt) : Untraced (u.setCc c k) c := off1.of_regs regs
  rw [refilled, threshold', tsc', (offT _).traces]

/-! ### ECC write-back -/

/-- The item is a write-back. -/
def Maint.isWriteBack : Maint → Bool
  | .writeBack .. => true
  | _ => false

/-- Where nothing has precedence the oldest write-back runs. -/
theorem FreeSlot.writeBack {s : State} {c : Nat} (h : FreeSlot s c) :
    (s.writeBacks c).find? (fun m => s.atTop c m.since) = (s.cc c).maint.find? Maint.isWriteBack := by
  unfold State.writeBacks
  dsimp only
  rw [List.find?_filter]
  congr 1
  funext m
  cases m with
  | neighbour => rfl
  | writeBack col since d => simp [h.mayRun, h.passesPanic, h.computing, h.atTop, Maint.isWriteBack]

/-- From `s` to `t` a column of channel `c` is stored whole, and of the CC the records of bursts change. -/
structure ColStored (c col : Nat) (v : Half) (s t : State) : Prop where
  rest   : t = { s with ccs := t.ccs, mem := s.mem.writeCol col v }
  others : OtherCcs s t c
  cc     : t.cc c = { s.cc c with replays := (t.cc c).replays, lost := (t.cc c).lost }

theorem colStored {c col : Nat} (hc : keyChan (32 * col) = c) (s : State) (v : Half) :
    ColStored c col v s (({ s with mem := s.mem.writeCol col v } : State).burstEnd (col / 2 * 64) true) := by
  have pair := (keyChan_pair col).trans hc
  have others := burstEnd_others { s with mem := s.mem.writeCol col v } (col / 2 * 64) true
  have cc := burstEnd_cc { s with mem := s.mem.writeCol col v } (col / 2 * 64) true
  rw [pair] at others cc
  exact ⟨rfl, others, by rw [cc]; rfl⟩

/-- The stored column reads back without error, and the others stay. -/
theorem ColStored.columns {c col : Nat} {v : Half} {s t : State} (h : ColStored c col v s t) :
    t.mem.store.half col = v ∧ t.mem.err col = 0 ∧ ∀ u, u ≠ col → t.mem.store.half u = s.mem.store.half u ∧ t.mem.err u = s.mem.err u := by
  have mem : t.mem = s.mem.writeCol col v := by rw [h.rest]
  rw [mem]
  exact ⟨s.mem.half_writeCol_same col v, s.mem.writeCol_err_same col v, fun u hu => ⟨s.mem.half_writeCol_ne v hu, s.mem.writeCol_err col v u hu⟩⟩

/-- A burst that may run is not lost. -/
theorem Kept.burstLost {s : State} {col c : Nat} {write : Bool} (h : Kept s (col / 2 * 64) write) (hc : keyChan (32 * col) = c) {t : State}
    (lost : (t.cc c).lost = (s.cc c).lost) : t.burstLost (col / 2 * 64) write = false := by
  unfold Kept at h
  unfold State.burstLost
  rw [(keyChan_pair col).trans hc] at h ⊢
  rw [lost]
  exact h

theorem FreeSlot.storeBack {s : State} {c : Nat} (free : FreeSlot s c) (off : Untraced s c) {col since : Nat} {d : BitVec 256} (hc : keyChan (32 * col) = c)
    (kept : Kept s (col / 2 * 64) true) (waiting : (s.cc c).waiting = []) :
    ∃ u, RowAwake c (keyBank (32 * col)) (keyRow (32 * col)) { s.cc c with maint := (s.cc c).maint.erase (.writeBack col since d) } s u ∧
      ColStored c col (some d) u (s.storeBack c (.writeBack col since d)) := by
  have reached := off.reachRow (keyBank_lt (32 * col)) (keyRow (32 * col)) { s.cc c with maint := (s.cc c).maint.erase (.writeBack col since d) }
  have same := (off.pdx (2 ^ (keyBank (32 * col) / 32))).1.cc c
  refine ⟨_, reached, ?_⟩
  have refilled : CcSt.refill { s.cc c with maint := (s.cc c).maint.erase (.writeBack col since d) } =
      { s.cc c with maint := (s.cc c).maint.erase (.writeBack col since d) } := by
    unfold CcSt.refill
    simp [waiting]
  unfold State.storeBack
  dsimp only
  rw [same, free.charge, refilled, (off.of_awake reached).trace, kept.burstLost hc (by rw [reached.cc]), if_neg Bool.false_ne_true]
  exact colStored hc _ _

/-! ### Patrol scrub -/

/-- From `s` to `t` the check of a column counts and reports at most an error of channel `c`, or takes a free value. -/
structure ColChecked (c : Nat) (s t : State) : Prop extends CcFrame c s t where
  mem      : t.mem = s.mem
  out      : t.out = s.out
  reports  : s.reports <+: t.reports
  cc       : t.cc c = { s.cc c with trip := (t.cc c).trip }
  untraced : Untraced s c → Untraced t c

theorem ColChecked.refl (c : Nat) (s : State) : ColChecked c s s := ⟨.refl c s, rfl, rfl, List.prefix_refl _, rfl, id⟩

/-- Errors outside the classes of the check take a free value (log 10). -/
theorem fresh_checked (c : Nat) (s : State) : ColChecked c s { s with free := s.free + 1 } :=
  ⟨⟨rfl, fun _ _ => rfl⟩, rfl, rfl, List.prefix_refl _, rfl, fun off => off.of_regs rfl⟩

theorem ColChecked.trans {c : Nat} {s t u : State} (h : ColChecked c s t) (g : ColChecked c t u) : ColChecked c s u :=
  ⟨h.toCcFrame.trans g.toCcFrame, g.mem.trans h.mem, g.out.trans h.out, h.reports.trans g.reports, g.cc.trans (by rw [h.cc]), g.untraced ∘ h.untraced⟩

/-- The registers of errors are not those of the trace. -/
theorem trace_notMem_errorWords (c : Nat) : ccB c + CC_TRACE_CTRL_ENABLE.off ∉ errorWords c := by
  simp only [errorWords, bucketWords, List.mem_append, List.mem_cons, List.not_mem_nil, or_false, ccB, hostB, CC_TRACE_CTRL_ENABLE, CC_BKT_LEVEL,
    CC_BKT_PERM, FLT_MOLT_STAT_REFUSED, CC_ECC_LOG_DPA, CC_ECC_LOG_VALID, CC_ECC_CNT_UNCORRECTED, CC_ECC_CNT_CORRECTED]
  omega

theorem ColErrored.checked {c code col reader : Nat} {s t : State} (h : ColErrored c code col reader s t) : ColChecked c s t :=
  ⟨h.toCcFrame, h.mem, h.out, h.reports, h.cc, fun off => off.of_wordsBut h.words (trace_notMem_errorWords c)⟩

section
variable {s : State} {col : Nat}

theorem check_clean {d : BitVec 256} (h : s.mem.store.half col = some d) (e : s.mem.err col = 0) : s.check col = (.clean d, s) := by
  simp [State.check, h, e]

theorem check_corrected {d : BitVec 256} (h : s.mem.store.half col = some d) (e : s.mem.err col = 1) : s.check col = (.corrected d, s) := by
  simp [State.check, h, e]

theorem check_uncorrectable {d : BitVec 256} (h : s.mem.store.half col = some d) (e : s.mem.err col = 2) : s.check col = (.uncorrectable, s) := by
  simp [State.check, h, e]

/-- A poisoned column is seen as the poison code, or, with wrong bits in the code itself, as uncorrectable (log 10). -/
theorem check_code (c : Nat) (h : s.mem.store.half col = none) :
    ∃ x, ColChecked c s x ∧ (s.check col = (.code, x) ∨ s.check col = (.uncorrectable, x)) := by
  unfold State.check State.fresh
  rw [h]
  dsimp only
  split
  · exact ⟨s, .refl c s, .inl rfl⟩
  · refine ⟨_, fresh_checked c s, ?_⟩
    split
    · exact .inl rfl
    · exact .inr rfl

end

/-- From `s` to `t` the scrub has passed a column: it holds no error, every other column stays, and of the CC the position stays. -/
structure ColScrubbed (c col : Nat) (s t : State) : Prop extends CcFrame c s t where
  out     : t.out = s.out
  reports : s.reports <+: t.reports
  scrub   : (t.cc c).scrub = (s.cc c).scrub
  sound   : t.mem.err col = 0
  columns : ∀ u, u ≠ col → t.mem.store.half u = s.mem.store.half u ∧ t.mem.err u = s.mem.err u

/-- After the check the scrub stores the column again (R100). -/
theorem ColChecked.scrubWrite {c col : Nat} {s x : State} (h : ColChecked c s x) (hc : keyChan (32 * col) = c) (off : Untraced s c)
    (kept : Kept s (col / 2 * 64) true) (v : Half) :
    ColScrubbed c col s (x.scrubWrite c col v) ∧ (x.scrubWrite c col v).mem.store.half col = v ∧ (x.scrubWrite c col v).reports = x.reports := by
  have written : x.scrubWrite c col v = ({ x with mem := x.mem.writeCol col v } : State).burstEnd (col / 2 * 64) true := by
    unfold State.scrubWrite
    dsimp only
    rw [(h.untraced off).trace, kept.burstLost hc (by rw [h.cc]), if_neg Bool.false_ne_true]
  have stored := colStored hc x v
  rw [written]
  obtain ⟨half, err, columns⟩ := stored.columns
  generalize ({ x with mem := x.mem.writeCol col v } : State).burstEnd (col / 2 * 64) true = t at *
  obtain ⟨rest, others, cc⟩ := stored
  have reports : t.reports = x.reports := by rw [rest]
  have frame : CcFrame c x t := ⟨by rw [rest], others⟩
  rw [h.mem] at columns
  refine ⟨⟨h.toCcFrame.trans frame, ?_, ?_, ?_, err, columns⟩, half, reports⟩
  · rw [rest]; exact h.out
  · rw [reports]; exact h.reports
  · rw [cc, h.cc]

/-- What the scrub leaves in a column: poison stays, sound and corrected data too, and an uncorrectable error becomes the poison code; errors of data are reported (R97, R98, R100). -/
def ScrubLeaves (c col : Nat) (s t : State) : Prop :=
  if s.mem.store.half col = none then t.mem.store.half col = none
  else if s.mem.err col = 2 then t.mem.store.half col = none ∧ s.report (ccSrc c) 0x0602 [2 ^ 40 + 32 * col, 3] ∈ t.reports
  else t.mem.store.half col = s.mem.store.half col ∧ (s.mem.err col = 1 → s.report (ccSrc c) 0x0601 [2 ^ 40 + 32 * col, 3] ∈ t.reports)

/-- The scrub's read, once its row is open. -/
theorem FreeSlot.scrubRead {s : State} {c : Nat} (free : FreeSlot s c) (off : Untraced s c) {col : Nat} (hc : keyChan (32 * col) = c)
    (classes : s.mem.err col ≤ 2) (keptRead : Kept s (col / 2 * 64) false) (keptWrite : Kept s (col / 2 * 64) true) :
    ∃ u y, RowAwake c (keyBank (32 * col)) (keyRow (32 * col)) (s.cc c) s u ∧ ColScrubbed c col u y ∧ ScrubLeaves c col u y ∧
      s.scrubRead c col = y.burstEnd (col / 2 * 64) false := by
  have reached := off.reachRow (keyBank_lt (32 * col)) (keyRow (32 * col)) (s.cc c)
  have same := (off.pdx (2 ^ (keyBank (32 * col) / 32))).1.cc c
  unfold State.scrubRead
  dsimp only
  rw [same, free.charge, (off.of_awake reached).trace, keptRead.burstLost hc (by rw [reached.cc]), if_neg Bool.false_ne_true]
  generalize ((s.pdx c (2 ^ (keyBank (32 * col) / 32))).setCc c (s.cc c)).openFor c (keyBank (32 * col)) (keyRow (32 * col)) = u at *
  have offU := off.of_awake reached
  have kept : Kept u (col / 2 * 64) true := keptWrite.burstLost hc (by rw [reached.cc])
  rw [← reached.mem] at classes
  cases held : u.mem.store.half col with
  | none =>
    have leaves (x : State) (h : x.mem.store.half col = none) : ScrubLeaves c col u x := (if_pos held).mpr h
    obtain ⟨x, checked, seen | seen⟩ := check_code c held
    · obtain ⟨scrubbed, half, -⟩ := checked.scrubWrite hc offU kept none
      exact ⟨u, _, reached, scrubbed, leaves _ half, by rw [seen]⟩
    · obtain ⟨scrubbed, half, -⟩ := (checked.trans (uncorrectable_errored x c col 3).checked).scrubWrite hc offU kept none
      exact ⟨u, _, reached, scrubbed, leaves _ half, by rw [seen]⟩
  | some d =>
    have data : ¬ u.mem.store.half col = none := by rw [held]; exact Option.some_ne_none d
    have classes : u.mem.err col = 0 ∨ u.mem.err col = 1 ∨ u.mem.err col = 2 := by omega
    obtain e | e | e := classes
    · exact ⟨u, u, reached, ⟨.refl c u, rfl, List.prefix_refl _, rfl, e, fun _ _ => ⟨rfl, rfl⟩⟩,
        (if_neg data).mpr ((if_neg (by omega)).mpr ⟨rfl, fun one => absurd one (by omega)⟩), by rw [check_clean held e]⟩
    · have errored := correctedErr_errored u c col 3
      obtain ⟨scrubbed, half, reports⟩ := errored.checked.scrubWrite hc offU kept (some d)
      refine ⟨u, _, reached, scrubbed, (if_neg data).mpr ((if_neg (by omega)).mpr ⟨half.trans held.symm, fun _ => ?_⟩), by rw [check_corrected held e]⟩
      rw [reports]
      exact errored.reported (by decide)
    · have errored := uncorrectable_errored u c col 3
      obtain ⟨scrubbed, half, reports⟩ := errored.checked.scrubWrite hc offU kept none
      refine ⟨u, _, reached, scrubbed, (if_neg data).mpr ((if_pos e).mpr ⟨half, ?_⟩), by rw [check_uncorrectable held e]⟩
      rw [reports]
      exact errored.reported (by decide)

/-! ### PATROL_SCRUB -/

/-- A scrub that is off, a channel that does not refresh yet and a retired one have no read. -/
theorem patrolScrub_idle {s : State} {c : Nat} (h : s.flag (ccB c) CC_SCRUB_CTRL_ENABLE = false ∨ (s.cc c).refresh = false ∨ s.retired c = true) :
    patrolScrub c [] s = s := by
  refine if_pos ?_
  change (!s.flag (ccB c) CC_SCRUB_CTRL_ENABLE || !(s.cc c).refresh || s.retired c) = true
  rcases h with h | h | h <;> simp [h]

/-- In panic, in native mode, and behind a full queue the scrub's read may not run. -/
theorem scrubMay_held {s : State} {c : Nat} (held : ((s.cc c).panic = true ∧ s.flag (ccB c) CC_SCHED_CTRL_MODE = false) ∨ 16 ≤ (s.cc c).maint.length) : s.scrubMay c = false := by
  unfold State.scrubMay
  dsimp only
  rcases held with ⟨panic, native⟩ | full
  · simp [State.passesPanic, State.exempt, panic, native]
  · simp [Nat.not_lt.mpr full]

theorem FreeSlot.scrubMay {s : State} {c : Nat} (free : FreeSlot s c) (room : (s.cc c).maint.length < 16) : s.scrubMay c = true := by
  simp [State.scrubMay, room, free.mayRun, free.passesPanic, free.computing]

section
variable {s : State} {c : Nat} (enabled : s.flag (ccB c) CC_SCRUB_CTRL_ENABLE = true) (on : (s.cc c).refresh = true) (live : s.retired c = false)
include enabled on live

theorem patrolScrub_on : ¬ (!s.flag (ccB c) CC_SCRUB_CTRL_ENABLE || !(s.cc c).refresh || s.retired c) = true := by
  simp [enabled, on, live]

theorem patrolScrub_waits (held : s.scrubMay c = false) : patrolScrub c [] s = s.setCc c { s.cc c with scrubAt := some (s.scrubSince c) } := by
  refine (if_neg (patrolScrub_on enabled on live)).trans (if_pos ?_)
  change ((s.cc c).escalated || !s.scrubMay c || !s.atTop c (s.scrubSince c)) = true
  simp [held]

theorem FreeSlot.patrolScrub (free : FreeSlot s c) (room : (s.cc c).maint.length < 16) (more : (s.cc c).scrub + 1 < 2 ^ 26) :
    patrolScrub c [] s =
      (s.scrubRead c (s.scrubCol c)).setCc c { (s.scrubRead c (s.scrubCol c)).cc c with scrub := (s.cc c).scrub + 1, scrubAt := none } := by
  have runs : ¬ ((s.cc c).escalated || !s.scrubMay c || !s.atTop c (s.scrubSince c)) = true := by
    simp [free.escalated, free.scrubMay room, free.atTop]
  have last : ¬ (s.cc c).scrub + 1 = 2 ^ 26 := Nat.ne_of_lt more
  refine ((if_neg (patrolScrub_on enabled on live)).trans (if_neg runs)).trans ((if_neg last).trans ?_)
  rw [show s.strike c [] = s from rfl, Nat.mod_eq_of_lt more]

end

/-- The channel of a column of its own storage. -/
theorem keyChan_ofChan (c : Chan) {pos : Nat} (h : pos < 2 ^ 26) : keyChan (32 * (c * 2 ^ 26 + pos)) = c := by
  have := c.isLt
  rw [keyChan_eq]
  omega

/-- Settles O14, by what each maintenance command takes from its queue or, for the scrub, from its next column. -/
theorem maintenanceRunsItsQueue : Obligations.MaintenanceRunsItsQueue := by
  unfold Obligations.MaintenanceRunsItsQueue
  refine ⟨fun c s id bank row since e off hbank next waiting nodup fresh full => ?neighbour,
    fun c s col since d off hc panic active unescalated native kept next waiting nodup => ?writeBack,
    fun c s off enabled on live panic active unescalated native room more => ?scrub,
    fun c s idle => ?idle, fun c s enabled on live held => ?waits⟩
  case neighbour =>
    refine ⟨neighbourRefresh c s, rfl, ?_⟩
    obtain ⟨u, closed, issued⟩ := off.issueRefresh id bank row since e waiting
    have awake := off.pdx_awake (sid := bank / 32) (by omega)
    obtain ⟨only, -⟩ := off.pdx (2 ^ (bank / 32))
    have same := only.cc
    have queued : Maint.neighbour id bank row since e ∈ (s.cc c).maint := by
      have mem := mem_of_nextNeighbour next
      rwa [waiting, List.append_nil] at mem
    rw [show neighbourRefresh c s = s.issueRefresh c (.neighbour id bank row since e) by rw [neighbourRefresh, next], issued]
    generalize s.pdx c (2 ^ (bank / 32)) = v at *
    obtain ⟨rest, others, cc, openRow, otherRows⟩ := closed
    rw [same] at cc
    have regs : u.regs = v.regs := by rw [rest]
    have served := refreshServed (k := u.cc c) (id := id) (bank := bank) (row := row) (since := since) (e := e)
      (by rw [cc]; exact queued) (by rw [cc]; exact nodup) (by rw [cc]; exact fresh) (by rw [cc]; exact full) (s.rd (ccB c) CC_RD_CTRL_THRESHOLD) s.tsc
    generalize ((u.cc c).taken (.neighbour id bank row since e) e).rearm bank id (s.rd (ccB c) CC_RD_CTRL_THRESHOLD) s.tsc = k at *
    obtain ⟨rows, gone, kept, otherBanks, entry⟩ := served
    rw [cc] at kept otherBanks entry
    rw [State.setCc_cc]
    refine ⟨?_, fun d hd => ?_, ?_, awake.congr ?_, ?_, fun b hb => ?_, gone, kept, otherBanks, entry⟩
    · rw [rest, only.1]; rfl
    · rw [State.setCc_cc_ne _ _ _ _ hd, others d hd, same]
    · exact only.2.trans (.of_regs regs _)
    · exact (WordsBut.of_regs (s := v) (t := u.setCc c k) regs []).rd (by simp)
    · rw [CcSt.openRow, rows]; exact openRow
    · rw [CcSt.openRow, rows, ← same c]; exact otherRows b hb
  case writeBack =>
    refine ⟨eccWriteBack c [] s, rfl, ?_⟩
    have free : FreeSlot s c := ⟨active, panic, unescalated, native⟩
    have head : (s.writeBacks c).find? (fun m => s.atTop c m.since) = some (.writeBack col since d) := free.writeBack.trans next
    have stores : eccWriteBack c [] s = s.storeBack c (.writeBack col since d) := by
      rw [eccWriteBack, show s.strike c [] = s from rfl, free.escalated, if_neg Bool.false_ne_true, head]
    obtain ⟨u, reached, stored⟩ := free.storeBack off (d := d) (since := since) hc kept waiting
    rw [stores]
    obtain ⟨half, err, columns⟩ := stored.columns
    generalize s.storeBack c (.writeBack col since d) = t at *
    obtain ⟨rest, others, cc⟩ := stored
    have regs : t.regs = u.regs := by rw [rest]
    have frame : CcFrame c s t := reached.frame.trans ⟨by rw [rest], others⟩
    have molt : t.molt = s.molt := by rw [rest, reached.rest]
    have held : t.free = s.free := by rw [rest, reached.rest]
    have out : t.out = s.out := by rw [rest, reached.rest]
    rw [reached.mem] at columns
    refine ⟨frame.rest.trans (by rw [molt, held, out]), frame.others, reached.words.trans (.of_regs regs _), reached.awake.congr ?_, fun again => ?_, ?_, half, err, columns⟩
    · exact (WordsBut.of_regs regs []).rd (by simp)
    · rw [cc] at again
      exact nodup.not_mem_erase (reached.writeBacks col since d again)
    · rw [cc]; exact reached.openRow
  case scrub =>
    intro col classes keptRead keptWrite
    refine ⟨patrolScrub c [] s, rfl, ?_⟩
    have free : FreeSlot s c := ⟨active, panic, unescalated, native⟩
    have hc : keyChan (32 * col) = c := keyChan_ofChan c (by omega)
    obtain ⟨u, y, reached, scrubbed, leaves, read⟩ := free.scrubRead off hc classes keptRead keptWrite
    rw [free.patrolScrub enabled on live room more, show s.scrubRead c (s.scrubCol c) = y.burstEnd (col / 2 * 64) false from read]
    have ends := burstEnd_frame y ((keyChan_pair col).trans hc) false
    have mem : (y.burstEnd (col / 2 * 64) false).mem = y.mem := rfl
    have out : (y.burstEnd (col / 2 * 64) false).out = y.out := rfl
    have reports : (y.burstEnd (col / 2 * 64) false).reports = y.reports := rfl
    generalize y.burstEnd (col / 2 * 64) false = z at *
    generalize hk : { z.cc c with scrub := (s.cc c).scrub + 1, scrubAt := none } = k
    have position : k.scrub = (s.cc c).scrub + 1 := by rw [← hk]
    have frame : CcFrame c u (z.setCc c k) := (scrubbed.toCcFrame.trans ends).trans (.setCc c z k)
    have memT : (z.setCc c k).mem = y.mem := mem
    have outT : (z.setCc c k).out = s.out := (out.trans scrubbed.out).trans (by rw [reached.rest])
    have reportsT : (z.setCc c k).reports = y.reports := reports
    rw [← State.setCc_cc z c k] at position
    generalize z.setCc c k = t at *
    have whole : CcFrame c s t := reached.frame.trans frame
    refine ⟨whole.rest.trans (by rw [outT]), whole.others, position, ?_, ?_, ?_, ?_⟩
    · rw [memT]; exact scrubbed.sound
    · rw [memT, ← reached.mem]; exact scrubbed.columns
    · rw [reportsT]; exact reached.reports.trans scrubbed.reports
    · unfold ScrubLeaves at leaves
      have event (code : Nat) (data : List Nat) : u.report (ccSrc c) code data = s.report (ccSrc c) code data := by
        unfold State.report; rw [reached.rest]
      rw [memT, reportsT, ← reached.mem, ← event, ← event]
      exact leaves
  case idle => exact congrArg (fun t : State => Host.Outcome.next t.onward) (patrolScrub_idle idle)
  case waits =>
    refine ⟨patrolScrub c [] s, rfl, ?_⟩
    rw [patrolScrub_waits enabled on live (scrubMay_held held)]
    exact ⟨rfl, .setCc s c _, State.setCc_cc s c _⟩

end Sys2Proof.Machine
end

section
/-! Merge units: what a contribution leaves in its destination, how results are returned, and how a result ends (R140, R160-R167). -/

namespace Sys2Proof.Machine

/-! ### Destinations -/

@[simp] theorem BdieSt.setDest_dest (b : BdieSt) (d : Nat) (v : Dest) : (b.setDest d v).dest d = v := look_put_same _ _ _ _
theorem BdieSt.setDest_dest_ne (b : BdieSt) {d e : Nat} (v : Dest) (h : e ≠ d) : (b.setDest d v).dest e = b.dest e := look_put_ne _ _ _ _ _ h

/-- From `s` to `t` destination `d` of merge unit `k` becomes `v`, `l` waits in the drain buffers, and every other destination and merge unit stays. -/
structure DestSet (k d : Nat) (l : List Contribution) (v : Dest) (s t : State) : Prop where
  only    : OnlyDest s t k d
  dest    : (t.bd k).dest d = v
  arrived : (t.bd k).arrived = l

theorem OnlyDest.trans {k d : Nat} {s t u : State} (h : OnlyDest s t k d) (g : OnlyDest t u k d) : OnlyDest s u k d := by
  obtain ⟨others, dests, since⟩ := h
  obtain ⟨others', dests', since'⟩ := g
  exact ⟨fun j hj => (others' j hj).trans (others j hj), fun e he => (dests' e he).trans (dests e he), since'.trans since⟩

theorem DestSet.then {k d : Nat} {l l' : List Contribution} {v v' : Dest} {s t u : State} (h : DestSet k d l v s t) (g : DestSet k d l' v' t u) :
    DestSet k d l' v' s u := ⟨h.only.trans g.only, g.dest, g.arrived⟩

theorem DestSet.of_bdies {k d : Nat} {l : List Contribution} {v : Dest} {s t u : State} (h : DestSet k d l v s t) (e : u.bdies = t.bdies) : DestSet k d l v s u := by
  have same (j : Nat) : u.bd j = t.bd j := by unfold State.bd; rw [e]
  obtain ⟨⟨others, dests, since⟩, dest, arrived⟩ := h
  refine ⟨⟨fun j hj => (same j).trans (others j hj), fun e he => ?_, ?_⟩, ?_, ?_⟩ <;> rw [same]
  · exact dests e he
  · exact since
  · exact dest
  · exact arrived

theorem DestSet.refl (k d : Nat) (s : State) : DestSet k d (s.bd k).arrived ((s.bd k).dest d) s s := ⟨⟨fun _ _ => rfl, fun _ _ => rfl, rfl⟩, rfl, rfl⟩

theorem setDest_set (s : State) (k d : Nat) (v : Dest) : DestSet k d (s.bd k).arrived v s (s.setBd k ((s.bd k).setDest d v)) := by
  refine ⟨⟨fun j hj => s.setBd_bd_ne k j _ hj, fun e he => ?_, ?_⟩, ?_, ?_⟩ <;> rw [State.setBd_bd]
  · exact BdieSt.setDest_dest_ne _ v he
  · rfl
  · exact BdieSt.setDest_dest _ d v
  · rfl

/-- A contribution leaves its drain buffer. -/
theorem erase_set (s : State) (k d : Nat) (l : List Contribution) : DestSet k d l ((s.bd k).dest d) s (s.setBd k { s.bd k with arrived := l }) := by
  refine ⟨⟨fun j hj => s.setBd_bd_ne k j _ hj, fun e _ => ?_, ?_⟩, ?_, ?_⟩ <;> rw [State.setBd_bd] <;> rfl

/-! ### Taking a contribution in -/

/-- Each drain unit of an SMERGE contribution without an ML entry is reported (R162). -/
theorem missingMl_eq (s : State) (k d : Nat) (x : Contribution) : s.missingMl k d x = { s with reports := s.reports ++ mlGaps s k d x.key.mop x } := by
  unfold State.missingMl mlGaps
  by_cases smerge : x.key.mop = 2
  · rw [if_pos smerge, if_pos smerge]
    have loop (n : Nat) : upto n (fun p s =>
        if ((⟨x, false⟩ : Taken).unit p).absent || (look (fun _ => none) ((s.bd k).dest d).ml (64 * x.chan + p)).isSome then s
        else s.emit (bdSrc k) 0x0551 [d, x.chan, p]) s =
        { s with reports := s.reports ++ ((List.range n).filter (fun p => !((Taken.mk x false).unit p).absent &&
          (look (fun _ => none) ((s.bd k).dest d).ml (64 * x.chan + p)).isNone)).map (fun p => s.report (bdSrc k) 0x0551 [d, x.chan, p]) } := by
      induction n with
      | zero => simp [upto]
      | succ n ih =>
        have same (l : List Report) : ({ s with reports := l } : State).bd k = s.bd k := rfl
        rw [upto_succ, ih, List.range_succ, List.filter_append, List.map_append, same]
        cases gap : ((Taken.mk x false).unit n).absent || (look (fun _ => none) ((s.bd k).dest d).ml (64 * x.chan + n)).isSome with
        | true =>
          rw [if_pos rfl, List.filter_singleton]
          rw [← Option.not_isSome, ← Bool.not_or, gap]
          simp
        | false =>
          rw [if_neg Bool.false_ne_true, List.filter_singleton]
          rw [← Option.not_isSome, ← Bool.not_or, gap]
          simp [State.emit, State.report]
    exact loop 64
  · rw [if_neg smerge, if_neg smerge, List.append_nil]

/-- The gaps of an SMERGE depend on the ML table and on the time. -/
theorem mlGaps_congr {s t : State} {k d mop : Nat} (ml : mop = 2 → ((t.bd k).dest d).ml = ((s.bd k).dest d).ml) (tsc : t.tsc = s.tsc) (x : Contribution) :
    mlGaps t k d mop x = mlGaps s k d mop x := by
  unfold mlGaps State.report
  split
  · next smerge => rw [ml smerge, tsc]
  · rfl

/-- The end of a take: gaps are reported, and the destination becomes `y`. -/
theorem tally_set (v : State) (k d mop : Nat) (x : Contribution) (y : Dest) :
    let u := v.missingMl k d { x with key := { x.key with mop := mop } }
    let t := u.setBd k ((u.bd k).setDest d y)
    t = { v with bdies := t.bdies, reports := v.reports ++ mlGaps v k d mop x } ∧ DestSet k d (v.bd k).arrived y v t := by
  have gaps := missingMl_eq v k d { x with key := { x.key with mop := mop } }
  dsimp only
  generalize v.missingMl k d { x with key := { x.key with mop := mop } } = u at *
  have told : DestSet k d (v.bd k).arrived ((v.bd k).dest d) v u := (DestSet.refl k d v).of_bdies (by rw [gaps])
  have set := setDest_set u k d y
  rw [told.arrived] at set
  exact ⟨by rw [gaps]; rfl, told.then set⟩

theorem effect_bdies (s : State) (b : Nat) (f : Fld) (l : SMap BdieSt) : ({ s with bdies := l } : State).effect b f = { s.effect b f with bdies := l } := by
  unfold State.effect
  dsimp only
  split <;> rfl

theorem mismatch_self (a : MergeKey) : mismatch a a = 0 := by simp [mismatch]

/-- A pending TIMEOUT takes effect as destination `d` leaves FREE (R164). -/
def State.leaveFree (s : State) (k d : Nat) : State := if ((s.bd k).dest d).st = .free then s.effect (bdB k) B_MERGE_CTRL_TIMEOUT else s

theorem leaveFree_words (s : State) (k d : Nat) : WordsBut s (s.leaveFree k d) [bdB k + B_MERGE_CTRL_TIMEOUT.off] := by
  unfold State.leaveFree
  split
  · exact (effect_rest s _ _).2
  · exact .refl s _

theorem leaveFree_holding {s : State} {k d : Nat} (h : ((s.bd k).dest d).st = .holding) : s.leaveFree k d = s := by
  unfold State.leaveFree
  rw [h]
  rfl

/-- The contribution that begins a use makes its destination collect under the TIMEOUT that is now in force (R160, R164). -/
theorem takeIn_first {s : State} {k : Nat} {x : Contribution} (ready : ((s.bd k).dest x.key.mdest).st = .free ∨ ((s.bd k).dest x.key.mdest).st = .holding) :
    let old := (s.bd k).dest x.key.mdest
    let u := s.leaveFree k x.key.mdest
    let t := s.takeIn k x
    t = { s with regs := u.regs, pendMask := u.pendMask, bdies := t.bdies, reports := s.reports ++ mlGaps s k x.key.mdest x.key.mop x } ∧
      DestSet k x.key.mdest ((s.bd k).arrived.erase x)
        { old.begin x s.tsc (u.rd (bdB k) B_MERGE_CTRL_TIMEOUT) with taken := [⟨x, false⟩] } s t := by
  have idle : ¬ ((s.bd k).dest x.key.mdest).st = .collecting := by
    rintro e; rw [e] at ready; simp at ready
  have erased := erase_set s k x.key.mdest ((s.bd k).arrived.erase x)
  unfold State.leaveFree State.takeIn
  dsimp only
  rw [if_neg (show ¬ (BdieSt.dest { s.bd k with arrived := (s.bd k).arrived.erase x } x.key.mdest).st = .collecting from idle)]
  generalize hu : s.setBd k { s.bd k with arrived := (s.bd k).arrived.erase x } = u at *
  have rest : u = { s with bdies := u.bdies } := by rw [← hu]; rfl
  have same : (BdieSt.dest { s.bd k with arrived := (s.bd k).arrived.erase x } x.key.mdest) = (s.bd k).dest x.key.mdest := rfl
  rw [same]
  generalize hold : (s.bd k).dest x.key.mdest = old at *
  generalize hv : (if old.st = .free then u.effect (bdB k) B_MERGE_CTRL_TIMEOUT else u) = v
  generalize hw : (if old.st = .free then s.effect (bdB k) B_MERGE_CTRL_TIMEOUT else s) = w
  have restV : v = { s with regs := w.regs, pendMask := w.pendMask, bdies := u.bdies } := by
    rw [← hv, ← hw, rest]
    split
    · rw [effect_bdies]
      conv_lhs => rw [(effect_rest s (bdB k) B_MERGE_CTRL_TIMEOUT).1]
    · rfl
  have limit : v.rd (bdB k) B_MERGE_CTRL_TIMEOUT = w.rd (bdB k) B_MERGE_CTRL_TIMEOUT := State.rd_of_word (WordsBut.of_regs (by rw [restV]) [] _ (by simp))
  have tsc : v.tsc = s.tsc := by rw [restV]
  rw [limit, tsc]
  have begun := (erased.of_bdies (u := v) (by rw [restV])).then (setDest_set v k x.key.mdest (old.begin x s.tsc (w.rd (bdB k) B_MERGE_CTRL_TIMEOUT)))
  generalize hy : old.begin x s.tsc (w.rd (bdB k) B_MERGE_CTRL_TIMEOUT) = y at *
  generalize hz : v.setBd k ((v.bd k).setDest x.key.mdest y) = z at *
  have restZ : z = { s with regs := w.regs, pendMask := w.pendMask, bdies := z.bdies } := by
    have onlyBdies : z = { v with bdies := z.bdies } := by rw [← hz]; rfl
    exact onlyBdies.trans (by rw [restV])
  have key : y.key = x.key := by rw [← hy]; rfl
  have arrived : (v.bd k).arrived = (s.bd k).arrived.erase x := (erased.of_bdies (u := v) (by rw [restV])).arrived
  have agrees : mismatch y.key x.key = 0 := by rw [key, mismatch_self]
  rw [begun.dest, agrees, if_pos rfl]
  obtain ⟨restT, set⟩ := tally_set z k x.key.mdest y.key.mop x { y with taken := y.taken ++ [⟨x, decide (0 ≠ 0)⟩] }
  rw [begun.arrived, arrived] at set
  refine ⟨restT.trans ?_, begun.then (hy ▸ set)⟩
  rw [key, mlGaps_congr (s := s) (t := z) (fun smerge => ?_) (by rw [restZ]) x, restZ]
  rw [begun.dest, hold, ← hy]
  exact if_pos smerge

/-- A further contribution of a use is counted; one that differs from the use in a merge field is marked and reported (R163). -/
theorem takeIn_further {s : State} {k : Nat} {x : Contribution} (collects : ((s.bd k).dest x.key.mdest).st = .collecting) :
    let old := (s.bd k).dest x.key.mdest
    let m := mismatch old.key x.key
    let t := s.takeIn k x
    t = { s with
      bdies := t.bdies
      reports := (if m = 0 then s.reports else s.reports ++ [s.report (bdSrc k) 0x0550 [x.key.mdest, x.chan, m]]) ++ mlGaps s k x.key.mdest old.key.mop x } ∧
      DestSet k x.key.mdest ((s.bd k).arrived.erase x) { old with taken := old.taken ++ [⟨x, decide (m ≠ 0)⟩] } s t := by
  have erased := erase_set s k x.key.mdest ((s.bd k).arrived.erase x)
  unfold State.takeIn
  dsimp only
  rw [if_pos (show (BdieSt.dest { s.bd k with arrived := (s.bd k).arrived.erase x } x.key.mdest).st = .collecting from collects), erased.dest]
  generalize hu : s.setBd k { s.bd k with arrived := (s.bd k).arrived.erase x } = u at *
  have rest : u = { s with bdies := u.bdies } := by rw [← hu]; rfl
  generalize hold : (s.bd k).dest x.key.mdest = old at *
  generalize mismatch old.key x.key = m
  generalize hv : (if m = 0 then u else u.emit (bdSrc k) 0x0550 [x.key.mdest, x.chan, m]) = v
  have restV : v = { s with bdies := v.bdies, reports := if m = 0 then s.reports else s.reports ++ [s.report (bdSrc k) 0x0550 [x.key.mdest, x.chan, m]] } := by
    rw [← hv, rest]
    split <;> rfl
  have taken : DestSet k x.key.mdest ((s.bd k).arrived.erase x) old s v := erased.of_bdies (by rw [← hv]; split <;> rfl)
  obtain ⟨restT, set⟩ := tally_set v k x.key.mdest old.key.mop x { old with taken := old.taken ++ [⟨x, decide (m ≠ 0)⟩] }
  rw [taken.arrived] at set
  refine ⟨restT.trans ?_, taken.then set⟩
  rw [mlGaps_congr (s := s) (t := v) (fun _ => by rw [taken.dest, hold]) (by rw [restV]) x, restV]

/-! ### MERGE_CONTRIBUTION -/

section
variable {s : State} {k chan : Nat}

theorem mergeContribution_none (h : (s.bd k).arrived.find? (fun x => decide (x.chan = chan)) = none) : mergeContribution k chan s = s := by
  rw [mergeContribution, h]

variable {x : Contribution} (h : (s.bd k).arrived.find? (fun x => decide (x.chan = chan)) = some x)
include h

/-- A destination that returns its result takes nothing (R160). -/
theorem mergeContribution_returning (returning : ((s.bd k).dest x.key.mdest).st = .returning) : mergeContribution k chan s = s := by
  rw [mergeContribution, h]
  exact if_pos returning

theorem mergeContribution_takes (ready : ((s.bd k).dest x.key.mdest).st ≠ .returning) {y : Dest} (taken : ((s.takeIn k x).bd k).dest x.key.mdest = y) :
    mergeContribution k chan s = if y.key.mcount + 1 ≤ y.taken.length then (s.takeIn k x).mergeDone k x.key.mdest false else s.takeIn k x := by
  rw [mergeContribution, h]
  dsimp only
  rw [if_neg ready, taken]

end

/-- Settles O21, by the state of the destination and by whether the contribution begins its use. -/
theorem mergeUnitCollects : Obligations.MergeUnitCollects := by
  unfold Obligations.MergeUnitCollects
  refine ⟨fun k chan s none => ?none, fun k chan s x found => ⟨fun returning => ?returning, fun ready more => ?first, fun collects more => ?further⟩⟩
  case none => exact congrArg (fun t : State => Host.Outcome.next t.onward) (mergeContribution_none none)
  case returning => exact congrArg (fun t : State => Host.Outcome.next t.onward) (mergeContribution_returning found returning)
  case first =>
    obtain ⟨rest, set⟩ := takeIn_first ready
    have idle : ((s.bd k).dest x.key.mdest).st ≠ .returning := by
      intro e; rw [e] at ready; simp at ready
    have goesOn := mergeContribution_takes found idle set.dest
    have open_ : ¬ x.key.mcount + 1 ≤ 1 := by omega
    refine ⟨s.takeIn k x, congrArg (fun t : State => Host.Outcome.next t.onward) (goesOn.trans (if_neg open_)), ?_⟩
    have words := leaveFree_words s k x.key.mdest
    generalize hu : s.leaveFree k x.key.mdest = u at *
    generalize s.takeIn k x = t at *
    have regs : t.regs = u.regs := by rw [rest]
    have mask : t.pendMask = u.pendMask := by rw [rest]
    refine ⟨rest.trans (by rw [regs, mask]), set.only, set.arrived, congrArg Dest.st set.dest, congrArg Dest.key set.dest, congrArg Dest.taken set.dest,
      congrArg Dest.since set.dest, ?_, congrArg Dest.ml set.dest, words.trans (.of_regs regs _), fun holding => ?_⟩
    · rw [set.dest]
      exact State.rd_of_word (WordsBut.of_regs regs.symm [] _ (by simp))
    · rw [regs, mask, ← hu, leaveFree_holding holding]
      exact ⟨rfl, rfl⟩
  case further =>
    obtain ⟨rest, set⟩ := takeIn_further collects
    have idle : ((s.bd k).dest x.key.mdest).st ≠ .returning := by rw [collects]; decide
    have goesOn := mergeContribution_takes found idle set.dest
    rw [if_neg (Nat.not_le.mpr (by rw [List.length_append]; exact more))] at goesOn
    refine ⟨s.takeIn k x, congrArg (fun t : State => Host.Outcome.next t.onward) goesOn, ?_⟩
    generalize s.takeIn k x = t at *
    refine ⟨rest.trans ?_, set.only, set.arrived, set.dest, ?_⟩
    · rw [rest]
    · rw [rest]; rfl

end Sys2Proof.Machine
end

section
/-! Results: how a scratchpad takes the cells of a result, how contributions are merged, and how a result ends (R161, R164, R165, R167, R200). -/

namespace Sys2Proof.Machine

/-! ### Cells of a scratchpad -/

/-- A cell reads what was last written to it whole; every other cell reads as before (R200, R406). -/
theorem Bytes.cell_writeCell_whole (b : Bytes) (i : Nat) (v : Cell64) :
    (b.writeCell i (.whole v)).cell i = v ∧ ∀ j, j ≠ i → (b.writeCell i (.whole v)).cell j = b.cell j := by
  have lo : (WriteData.whole v).mask.toNat % 2 ^ 32 = 2 ^ 32 - 1 := show (BitVec.ofNat 64 (2 ^ 64 - 1)).toNat % 2 ^ 32 = 2 ^ 32 - 1 by decide
  have hi : (WriteData.whole v).mask.toNat / 2 ^ 32 = 2 ^ 32 - 1 := show (BitVec.ofNat 64 (2 ^ 64 - 1)).toNat / 2 ^ 32 = 2 ^ 32 - 1 by decide
  unfold Bytes.writeCell Bytes.cell
  rw [lo, hi]
  refine ⟨?_, fun j hj => ?_⟩
  · rw [Bytes.half_write_ne _ _ _ (by omega), Bytes.half_write_full, Bytes.half_write_full]
    rfl
  · rw [Bytes.half_write_ne _ _ _ (by omega), Bytes.half_write_ne _ _ _ (by omega), Bytes.half_write_ne _ _ _ (by omega), Bytes.half_write_ne _ _ _ (by omega)]

/-- The word in which a tile records overruns. -/
def overrunWords (t : Nat) : List Nat := [tileB t + TILE_FE_STAT_OVERRUN.off]

/-- From `s` to `u` only scratchpad and full/empty bits of tile `t` change, its overrun record and reports. -/
structure TileFilled (t : Nat) (s u : State) : Prop where
  rest    : u = { s with regs := u.regs, tiles := u.tiles, reports := u.reports }
  words   : WordsBut s u (overrunWords t)
  reports : s.reports <+: u.reports
  tiles   : ∀ n, n ≠ t → u.tile n = s.tile n

theorem TileFilled.refl (t : Nat) (s : State) : TileFilled t s s := ⟨rfl, .refl s _, List.prefix_refl _, fun _ _ => rfl⟩
theorem TileFilled.trans {t : Nat} {s u v : State} (h : TileFilled t s u) (g : TileFilled t u v) : TileFilled t s v :=
  ⟨g.rest.trans (by rw [h.rest]), h.words.trans g.words, h.reports.trans g.reports, fun n hn => (g.tiles n hn).trans (h.tiles n hn)⟩

theorem setTile_filled (t : Nat) (s : State) (x : Tile) : TileFilled t s (s.setTile t x) :=
  ⟨rfl, .of_regs rfl _, List.prefix_refl _, fun n hn => s.setTile_tile_ne t n x hn⟩

/-- An overrun is recorded and reported (R201). -/
theorem overrun_filled (t : Nat) (s : State) (i : Nat) (data : List Nat) :
    TileFilled t s (((s.raise (tileB t) TILE_FE_STAT_OVERRUN).wr (tileB t) TILE_FE_STAT_OVR_CELL i).emit t 0x0302 data) :=
  ⟨rfl, (wr_wordsBut s (tileB t) TILE_FE_STAT_OVERRUN 1).trans ((wr_wordsBut _ (tileB t) TILE_FE_STAT_OVR_CELL i).trans (.of_regs rfl _)),
    List.prefix_append _ _, fun _ _ => rfl⟩

/-- A filling write of a whole cell: the cell reads what was written and is full, every other cell stays (R199, R200). -/
theorem spFill_whole (s : State) (t i writer : Nat) (v : Cell64) :
    let u := s.spFill t i writer (.whole v)
    TileFilled t s u ∧ u.spCell t i = v ∧ u.isFull t i = true ∧ ∀ j, j ≠ i → u.spCell t j = s.spCell t j ∧ u.isFull t j = s.isFull t j := by
  dsimp only
  obtain ⟨own, others⟩ := (s.tile t).spad.cell_writeCell_whole i v
  generalize hw : s.spWrite t i (.whole v) = w
  have written : TileFilled t s w := by rw [← hw]; exact setTile_filled t s _
  have cell (j : Nat) : w.spCell t j = ((s.tile t).spad.writeCell i (.whole v)).cell j := by
    rw [← hw, State.spCell, State.spWrite, State.setTile_tile]; rfl
  have full (j : Nat) : w.isFull t j = s.isFull t j := by
    rw [← hw, State.isFull, State.spWrite, State.setTile_tile]; rfl
  rw [State.spFill, hw, State.fill]
  generalize hx : (if w.isFull t i = true then ((w.raise (tileB t) TILE_FE_STAT_OVERRUN).wr (tileB t) TILE_FE_STAT_OVR_CELL i).emit t 0x0302 [i, writer] else w) = x
  have recorded : TileFilled t w x := by
    rw [← hx]
    split
    · exact overrun_filled t w i _
    · exact .refl t w
  have tile : x.tile t = w.tile t := by
    rw [← hx]
    split <;> rfl
  have bits (j : Nat) : (x.setFull t i true).isFull t j = if j = i then true else w.isFull t j := by
    rw [State.isFull, State.setFull, State.setTile_tile, tile]
    exact look_put noMark _ i j true
  have cells (j : Nat) : (x.setFull t i true).spCell t j = w.spCell t j := by
    rw [State.spCell, State.setFull, State.setTile_tile, tile]; rfl
  refine ⟨(written.trans recorded).trans (setTile_filled t x _), ?_, ?_, fun j hj => ⟨?_, ?_⟩⟩
  · rw [cells, cell, own]
  · rw [bits, if_pos rfl]
  · rw [cells, cell, others j hj]; rfl
  · rw [bits, if_neg hj, full]

/-- Cells `l` are written whole and full from cell `first` on, modulo the cells of a scratchpad (log 28). -/
def State.fillCells (s : State) (t first src : Nat) (l : List Cell64) : State :=
  (l.foldl (fun (q : Nat × State) c => (q.1 + 1, q.2.spFill t ((first + q.1) % 65536) src (WriteData.whole c))) (0, s)).2

theorem fillCells_tile (s : State) (t first src : Nat) (l : List Cell64) : TileFilled t s (s.fillCells t first src l) :=
  foldl_keeps (fun q => TileFilled t s q.2) l _ (0, s) (.refl t s) fun q c h => h.trans (spFill_whole q.2 t _ src c).1

/-- Each cell of a run reads what was written to it and is full, and every other cell stays. -/
theorem fillCells_filled (s : State) (t first src : Nat) (l : List Cell64) (fits : l.length ≤ 65536) :
    let u := s.fillCells t first src l
    TileFilled t s u ∧ (∀ i (h : i < l.length), u.spCell t ((first + i) % 65536) = l[i] ∧ u.isFull t ((first + i) % 65536) = true) ∧
      ∀ j, (∀ i < l.length, j ≠ (first + i) % 65536) → u.spCell t j = s.spCell t j := by
  have loop (l : List Cell64) : ∀ (n : Nat) (s : State), l.length ≤ 65536 →
      let u := (l.foldl (fun (q : Nat × State) c => (q.1 + 1, q.2.spFill t ((first + q.1) % 65536) src (WriteData.whole c))) (n, s)).2
      TileFilled t s u ∧ (∀ i (h : i < l.length), u.spCell t ((first + (n + i)) % 65536) = l[i] ∧ u.isFull t ((first + (n + i)) % 65536) = true) ∧
        ∀ j, (∀ i < l.length, j ≠ (first + (n + i)) % 65536) → u.spCell t j = s.spCell t j ∧ u.isFull t j = s.isFull t j := by
    induction l with
    | nil => exact fun n s _ => ⟨.refl t s, fun i h => absurd h (Nat.not_lt_zero i), fun _ _ => ⟨rfl, rfl⟩⟩
    | cons c l ih =>
      intro n s fits
      rw [List.length_cons] at fits
      obtain ⟨filled, cell, full, others⟩ := spFill_whole s t ((first + n) % 65536) src c
      obtain ⟨filled', cells, rest⟩ := ih (n + 1) (s.spFill t ((first + n) % 65536) src (WriteData.whole c)) (by omega)
      rw [List.foldl_cons]
      refine ⟨filled.trans filled', fun i h => ?_, fun j hj => ?_⟩
      · cases i with
        | zero =>
          obtain ⟨sameCell, sameFull⟩ := rest ((first + n) % 65536) (fun i hi => by omega)
          exact ⟨sameCell.trans cell, sameFull.trans full⟩
        | succ i =>
          have e : n + (i + 1) = n + 1 + i := by omega
          rw [e]
          exact cells i (by simpa using h)
      · obtain ⟨sameCell, sameFull⟩ := rest j (fun i hi => by
          have := hj (i + 1) (by simpa using hi)
          rwa [show n + (i + 1) = n + 1 + i by omega] at this)
        obtain ⟨c, f⟩ := others j (by simpa using hj 0 (by simp))
        exact ⟨sameCell.trans c, sameFull.trans f⟩
  obtain ⟨filled, cells, rest⟩ := loop l 0 s fits
  simp only [Nat.zero_add] at cells rest
  exact ⟨filled, cells, fun j hj => (rest j hj).1⟩

/-! ### The return of a result -/

/-- From `s` to `t` only destination `d` of merge unit `k`, scratchpads, registers and reports change. -/
structure ResultMoved (k d : Nat) (s t : State) : Prop where
  rest    : t = { s with regs := t.regs, bdies := t.bdies, tiles := t.tiles, reports := t.reports }
  only    : OnlyDest s t k d
  reports : s.reports <+: t.reports

theorem ResultMoved.trans {k d : Nat} {s t u : State} (h : ResultMoved k d s t) (g : ResultMoved k d t u) : ResultMoved k d s u :=
  ⟨g.rest.trans (by rw [h.rest]), h.only.trans g.only, h.reports.trans g.reports⟩

theorem TileFilled.bdies {t : Nat} {s u : State} (h : TileFilled t s u) : u.bdies = s.bdies := by rw [h.rest]

theorem TileFilled.moved {n : Nat} {s t : State} (h : TileFilled n s t) (k d : Nat) : ResultMoved k d s t :=
  ⟨h.rest.trans (by rw [h.bdies]), ((DestSet.refl k d s).of_bdies h.bdies).only, h.reports⟩

theorem setDest_moved (s : State) (k d : Nat) (v : Dest) : ResultMoved k d s (s.setBd k ((s.bd k).setDest d v)) :=
  ⟨rfl, (setDest_set s k d v).only, List.prefix_refl _⟩

theorem emit_moved (s : State) (k d src code : Nat) (data : List Nat) : ResultMoved k d s (s.emit src code data) :=
  ⟨rfl, ((DestSet.refl k d s).of_bdies rfl).only, List.prefix_append _ _⟩

/-- Data cells that reach their tile are written to it in order (R165). -/
theorem sendResult_delivered {s : State} {k d : Nat} {x : Dest} (dest : (s.bd k).dest d = x) (some_ : x.cells ≠ [])
    (carried : s.nocHeld (chanDie (32 * k)) x.key.resTile = false) (up : s.nocCause x.key.resTile = 0) :
    let u := s.fillCells x.key.resTile (x.key.resAddr / 64) (bdSrc k) x.cells
    s.sendResult k d = u.setBd k ((u.bd k).setDest d { (u.bd k).dest d with sent := true, cells := [] }) := by
  have more : ¬ x.cells.isEmpty = true := by simpa using some_
  unfold State.sendResult
  dsimp only
  rw [dest, if_neg more, carried, if_neg Bool.false_ne_true, if_pos up]
  rfl

/-- Whether its cells are delivered, held or refused, the destination stays as it was merged but for the record of the return. -/
theorem sendResult_moved (s : State) (k d : Nat) :
    let x := (s.bd k).dest d
    ResultMoved k d s (s.sendResult k d) ∧ ∃ sent dropAt cells, ((s.sendResult k d).bd k).dest d = { x with sent := sent, dropAt := dropAt, cells := cells } := by
  unfold State.sendResult
  dsimp only
  split
  · exact ⟨setDest_moved s k d _, _, _, _, (setDest_set s k d _).dest⟩
  · split
    · exact ⟨⟨rfl, (DestSet.refl k d s).only, List.prefix_refl _⟩, _, _, _, rfl⟩
    · split
      · have filled := fillCells_tile s ((s.bd k).dest d).key.resTile (((s.bd k).dest d).key.resAddr / 64) (bdSrc k) ((s.bd k).dest d).cells
        have same : ((State.bd (s.fillCells _ _ (bdSrc k) _) k).dest d) = (s.bd k).dest d := ((DestSet.refl k d s).of_bdies filled.bdies).dest
        refine ⟨(filled.moved k d).trans (setDest_moved _ k d _), true, ((s.bd k).dest d).dropAt, [], (setDest_set _ k d _).dest.trans ?_⟩
        unfold State.fillCells at same
        rw [same]
      · refine ⟨(emit_moved s k d _ _ _).trans (setDest_moved _ k d _), _, _, _, (setDest_set _ k d _).dest⟩

end Sys2Proof.Machine
end

section
/-! How a SUM merges its contributions, and a timeout completes without the missing ones (R161, R164). -/

namespace Sys2Proof.Machine

/-! ### Merging -/

/-- The data cells of a SUM: sixteen values R[lane][p][j] each, summed over the contributions `l` in their order (R161, R165). -/
def sumCells (l : List Taken) (missing : Bool) : List Cell64 :=
  (List.range 2048).map (fun i => packCell ((List.range 16).map (fun j =>
    (sumValue l missing ((16 * i + j) / 4096) ((16 * i + j) / 64 % 64) ((16 * i + j) % 64)).v)))

/-- Values by number, cut into cells of sixteen. -/
theorem cellsOf_range (n : Nat) (f : Nat → PV) :
    cellsOf n ((List.range (16 * n)).map f) = (List.range n).map (fun i => packCell ((List.range 16).map (fun j => f (16 * i + j)))) := by
  induction n generalizing f with
  | zero => rfl
  | succ n ih =>
    have parts : (List.range (16 * (n + 1))).map f = (List.range 16).map f ++ (List.range (16 * n)).map (fun i => f (16 + i)) := by
      rw [show 16 * (n + 1) = 16 + 16 * n by omega, List.range_add, List.map_append, List.map_map]
      rfl
    have sixteen : ((List.range 16).map f).length = 16 := by simp
    rw [cellsOf, parts, List.take_left' sixteen, List.drop_left' sixteen, ih, List.range_succ_eq_map (n := n), List.map_cons, List.map_map]
    refine congrArg₂ List.cons ?_ (List.map_congr_left fun i _ => ?_)
    · simp
    · refine congrArg packCell (List.map_congr_left fun j _ => ?_)
      rw [Nat.succ_eq_add_one, show 16 * (i + 1) + j = 16 + (16 * i + j) by omega]

/-- Destination `y` holds the merged result of the use that `x` collected. -/
structure Merged (now : Nat) (missing : Bool) (x y : Dest) : Prop where
  st      : y.st = .returning
  key     : y.key = x.key
  timeout : y.timeout = missing
  doneAt  : y.doneAt = now
  sums    : x.key.mop = 0 → x.spoiled = [] → y.cells = sumCells (inOrder x.taken) missing

/-- All contributions are there or missing ones are given up: the destination takes its result, poisoned values are reported, and the return begins (R161, R164, R165). -/
theorem mergeDone_merged (s : State) (k d : Nat) (missing : Bool) : ∃ y u, Merged s.tsc missing ((s.bd k).dest d) y ∧
    ResultMoved k d s u ∧ (u.bd k).dest d = y ∧ u = { s with bdies := u.bdies, reports := u.reports } ∧ s.mergeDone k d missing = u.sendResult k d := by
  have told (y : Dest) (n : Nat) (data : List Nat) (merged : Merged s.tsc missing ((s.bd k).dest d) y) : ∃ z u, Merged s.tsc missing ((s.bd k).dest d) z ∧
      ResultMoved k d s u ∧ (u.bd k).dest d = z ∧ u = { s with bdies := u.bdies, reports := u.reports } ∧
      (if n = 0 then s.setBd k ((s.bd k).setDest d y) else (s.setBd k ((s.bd k).setDest d y)).emit (bdSrc k) 0x0553 data).sendResult k d = u.sendResult k d := by
    have set := (setDest_set s k d y).dest
    have moved := setDest_moved s k d y
    refine ⟨y, _, merged, ?_, ?_, ?_, rfl⟩ <;> split
    · exact moved
    · exact moved.trans (emit_moved _ k d _ _ _)
    · exact set
    · exact set
    · rfl
    · rfl
  unfold State.mergeDone
  dsimp only
  split
  · next mlstore => exact told _ _ _ ⟨rfl, rfl, rfl, rfl, fun sum => absurd (mlstore.symm.trans sum) (by decide)⟩
  · next smerge => exact told _ _ _ ⟨rfl, rfl, rfl, rfl, fun sum => absurd (smerge.symm.trans sum) (by decide)⟩
  · refine told _ _ _ ⟨rfl, rfl, rfl, rfl, fun _ clean => ?_⟩
    dsimp only
    rw [Dest.spoil, clean, if_pos List.isEmpty_nil, List.map_map]
    exact cellsOf_range 2048 _

theorem Merged.taken_sums {s : State} {missing : Bool} {x y : Dest} (h : Merged s.tsc missing x y) (sum : x.key.mop = 0) (clean : x.spoiled = []) :
    y.cells.length = 2048 ∧ ∀ i (hi : i < y.cells.length), y.cells[i] = packCell ((List.range 16).map (fun j =>
      (sumValue (inOrder x.taken) missing ((16 * i + j) / 4096) ((16 * i + j) / 64 % 64) ((16 * i + j) % 64)).v)) := by
  rw [h.sums sum clean, sumCells]
  exact ⟨by rw [List.length_map, List.length_range], fun i hi => by rw [List.getElem_map, List.getElem_range]⟩

/-- Destination `d` of merge unit `k` returns the sums of `x`: its tile holds them, full, from RES_ADDR on, and every other cell and tile stays. -/
structure SumsReturned (k d : Nat) (missing : Bool) (x : Dest) (s t : State) : Prop where
  moved   : ResultMoved k d s t
  st      : ((t.bd k).dest d).st = .returning
  sent    : ((t.bd k).dest d).sent = true
  timeout : ((t.bd k).dest d).timeout = missing
  doneAt  : ((t.bd k).dest d).doneAt = s.tsc
  cells   : ∀ i < 2048, t.isFull x.key.resTile ((x.key.resAddr / 64 + i) % 65536) = true ∧
    t.spCell x.key.resTile ((x.key.resAddr / 64 + i) % 65536) = packCell ((List.range 16).map (fun j =>
      (sumValue (inOrder x.taken) missing ((16 * i + j) / 4096) ((16 * i + j) / 64 % 64) ((16 * i + j) % 64)).v))
  others  : ∀ u, (∀ i < 2048, u ≠ (x.key.resAddr / 64 + i) % 65536) → t.spCell x.key.resTile u = s.spCell x.key.resTile u
  tiles   : ∀ u, u ≠ x.key.resTile → t.tile u = s.tile u

/-- A merged SUM whose tile is up and reached is returned to it. -/
theorem mergeDone_sums {s : State} {k d : Nat} {x : Dest} (missing : Bool) (dest : (s.bd k).dest d = x) (sum : x.key.mop = 0) (clean : x.spoiled = [])
    (carried : s.nocHeld (chanDie (32 * k)) x.key.resTile = false) (up : s.nocCause x.key.resTile = 0) : SumsReturned k d missing x s (s.mergeDone k d missing) := by
  obtain ⟨y, u, merged, moved, destU, rest, done⟩ := mergeDone_merged s k d missing
  rw [dest] at merged
  have key : y.key = x.key := merged.key
  obtain ⟨length, cells⟩ := merged.taken_sums sum clean
  have sent := sendResult_delivered destU (List.length_pos_iff.mp (by rw [length]; decide)) (by rw [key, rest]; exact carried) (by rw [key, rest]; exact up)
  obtain ⟨filled, full, others⟩ := fillCells_filled u y.key.resTile (y.key.resAddr / 64) (bdSrc k) y.cells (by rw [length]; decide)
  rw [done, sent]
  rw [length, key] at others
  simp only [key] at filled full ⊢
  generalize u.fillCells x.key.resTile (x.key.resAddr / 64) (bdSrc k) y.cells = w at *
  have kept : (w.bd k).dest d = y := ((DestSet.refl k d u).of_bdies filled.bdies).dest.trans destU
  have tile (n : Nat) : u.tile n = s.tile n := by rw [rest]; rfl
  have cell (n i : Nat) : u.spCell n i = s.spCell n i := by rw [rest]; rfl
  have set := (setDest_set w k d { y with sent := true, cells := [] }).dest
  rw [kept]
  refine ⟨(moved.trans (filled.moved k d)).trans (setDest_moved w k d _), ?_, ?_, ?_, ?_, fun i hi => ?_, fun i hi => (others i hi).trans (cell _ i), fun n hn => (filled.tiles n hn).trans (tile n)⟩
  · rw [set]; exact merged.st
  · rw [set]
  · rw [set]; exact merged.timeout
  · rw [set]; exact merged.doneAt
  · obtain ⟨holds, isFull⟩ := full i (by rw [length]; exact hi)
    exact ⟨isFull, holds.trans (cells i _)⟩

/-- Settles O22: the last contribution is taken in and merged, and the sums are returned (`mergeDone_sums`); a timeout reports and merges what arrived. -/
theorem mergeCompletes : Obligations.MergeCompletes := by
  unfold Obligations.MergeCompletes
  refine ⟨fun k chan s x found => ?last, fun k d s collects live => ?timeout, fun k d s waits => ?waits⟩
  case last =>
    intro d old collects full sum agrees clean up carried
    have same : mismatch old.key x.key = 0 := by rw [agrees, mismatch_self]
    obtain ⟨rest, set⟩ := takeIn_further collects
    rw [same, if_pos rfl] at rest
    rw [same] at set
    have goesOn := mergeContribution_takes found (by rw [collects]; decide) set.dest
    rw [if_pos (by rw [List.length_append]; exact full.ge)] at goesOn
    generalize s.takeIn k x = u at *
    have sums := mergeDone_sums false set.dest sum clean (by rw [rest]; exact Bool.and_eq_false_imp.mpr fun _ => carried) (by rw [rest]; exact up)
    have tsc : u.tsc = s.tsc := by rw [rest]
    obtain ⟨moved, st, sent, timeout, doneAt, cells, others, tiles⟩ := sums
    refine ⟨u.mergeDone k d false, congrArg (fun t : State => Host.Outcome.next t.onward) goesOn, moved.rest.trans (by rw [rest]), set.only.trans moved.only,
      st, sent, timeout, doneAt.trans tsc, cells, fun i hi => (others i hi).trans ?_, fun n hn => (tiles n hn).trans ?_⟩
    · rw [rest]; rfl
    · rw [rest]; rfl
  case timeout =>
    have told : mergeTimeout k d s = (s.emit (bdSrc k) 0x0552 [d.val, ((s.bd k).dest d).taken.length, ((s.bd k).dest d).key.mcount + 1]).mergeDone k d true := by
      refine if_pos ⟨collects, ?_⟩
      rw [Bool.not_eq_true', List.any_eq_false]
      exact fun i hi => by rw [live i (List.mem_range.mp hi)]; decide
    obtain ⟨y, u, merged, moved, dest, _, done⟩ := mergeDone_merged (s.emit (bdSrc k) 0x0552 [d.val, ((s.bd k).dest d).taken.length, ((s.bd k).dest d).key.mcount + 1]) k d true
    obtain ⟨returned, sent, dropAt, cells, final⟩ := sendResult_moved u k d
    have through := moved.trans returned
    rw [dest] at final
    refine ⟨u.sendResult k d, congrArg Host.Outcome.next (told.trans done), ((emit_moved s k d _ _ _).trans through).only, ?_, ?_, ?_, through.reports, ((emit_moved s k d _ _ _).trans through).rest⟩
    all_goals rw [final]
    · exact merged.st
    · exact merged.timeout
    · exact merged.doneAt
  case waits =>
    refine congrArg Host.Outcome.next (if_neg ?_)
    rintro ⟨collects, live⟩
    rcases waits with idle | ⟨i, hi, held⟩
    · exact idle collects
    · rw [Bool.not_eq_true', List.any_eq_false] at live
      exact live i (List.mem_range.mpr hi) held

end Sys2Proof.Machine
end

section
/-! How a result ends: its status cell, and a result that is dropped (R165, R167). -/

namespace Sys2Proof.Machine

/-! ### The end of a result -/

theorem statusIndex_eq (mop : Nat) : statusIndex mop = if mop = 0 then 2048 else if mop = 2 then 33 else 0 := by
  unfold statusIndex
  split <;> simp_all

/-- A tile that takes packets is one of the mesh. -/
theorem isSite_of_nocCause {s : State} {t : Nat} (h : s.nocCause t = 0) : t < 512 := by
  unfold State.nocCause at h
  cases site : isSite t with
  | false => rw [site] at h; simp at h
  | true => exact (of_decide_eq_true site).1

theorem CountedUp.moved {s t : State} {b n : Nat} {f : Fld} (h : CountedUp s t b f n) (k d : Nat) : ResultMoved k d s t :=
  ⟨h.rest.trans (by rw [h.rest]), ((DestSet.refl k d s).of_bdies (by rw [h.rest])).only, h.reports⟩

/-- A delivered result ends with its status cell (R165). -/
theorem statusCellWrite_ends {s : State} {k d : Nat} {x : Dest} (dest : (s.bd k).dest d = x) (returning : x.st = .returning) (sent : x.sent = true) (whole : x.dropAt = none)
    (carried : s.nocHeld (chanDie (32 * k)) x.key.resTile = false) (up : s.nocCause x.key.resTile = 0) :
    let u := s.spFill x.key.resTile ((x.key.resAddr / 64 + statusIndex x.key.mop) % 65536) (bdSrc k) (.whole (statusCell k d x))
    statusCellWrite k d s = (u.setBd k ((u.bd k).setDest d x.next)).countB k B_MERGE_RESULTS_COUNT 1 := by
  unfold statusCellWrite
  dsimp only
  rw [dest, if_neg (by rw [returning, whole]; simp), sent, if_neg (by decide), carried, if_neg (by decide), if_pos up]

theorem resultReturnDropped_drops {s : State} {k d c : Nat} {x : Dest} (dest : (s.bd k).dest d = x) (returning : x.st = .returning) (dropped : x.dropAt = some c) :
    resultReturnDropped k d s =
      (s.setBd k ((s.bd k).setDest d Dest.init)).emit (ccSrc (32 * k + c)) 0x0555 [x.key.resTile, ((inOrder x.taken).head?.map (·.con.tag)).getD 0] := by
  unfold resultReturnDropped
  dsimp only
  rw [dest, returning, dropped]

/-- Settles O23: the status cell is written whole (`spFill_whole`), RESULTS counts, and the destination goes to its next state; a dropped return frees it. -/
theorem resultReturnEnds : Obligations.ResultReturnEnds := by
  unfold Obligations.ResultReturnEnds
  refine ⟨fun k d s => ?ends, fun k d s c => ?drops⟩
  case ends =>
    obtain ⟨x, dest⟩ : ∃ x, (s.bd k).dest d = x := ⟨_, rfl⟩
    rw [dest]
    intro _ returning sent whole up carried
    have ends := statusCellWrite_ends dest returning sent whole (Bool.and_eq_false_imp.mpr fun _ => carried) up
    have tile := isSite_of_nocCause up
    rw [statusIndex_eq] at ends
    dsimp only at ends
    obtain ⟨filled, cell, full, others⟩ := spFill_whole s x.key.resTile ((x.key.resAddr / 64 + (if x.key.mop = 0 then 2048 else if x.key.mop = 2 then 33 else 0)) % 65536) (bdSrc k) (statusCell k d x)
    generalize s.spFill _ _ _ _ = u at *
    have set := (setDest_set u k d x.next).dest
    have moved := (filled.moved k d).trans (setDest_moved u k d x.next)
    have regs : (u.setBd k ((u.bd k).setDest d x.next)).regs = u.regs := rfl
    have tiles : (u.setBd k ((u.bd k).setDest d x.next)).tiles = u.tiles := rfl
    generalize u.setBd k ((u.bd k).setDest d x.next) = v at *
    have counted := count_counted v (bdB k) B_MERGE_RESULTS_COUNT 1 (bdSrc k) 0x0508
    have results : v.rd (bdB k) B_MERGE_RESULTS_COUNT = s.rd (bdB k) B_MERGE_RESULTS_COUNT := by
      refine (filled.words.trans (.of_regs regs _)).rd ?_
      have := k.isLt
      simp [overrunWords, bdB, tileB, B_MERGE_RESULTS_COUNT, TILE_FE_STAT_OVERRUN]
      omega
    have final : ((v.countB k B_MERGE_RESULTS_COUNT 1).bd k).dest d = x.next :=
      ((DestSet.refl k d v).of_bdies (by rw [State.countB, counted.rest])).dest.trans set
    have still : (v.countB k B_MERGE_RESULTS_COUNT 1).tiles = u.tiles := by rw [State.countB, counted.rest, tiles]
    have counts := counted.rd (show B_MERGE_RESULTS_COUNT.lo + B_MERGE_RESULTS_COUNT.w ≤ 64 by decide)
    rw [results] at counts
    have through := moved.trans (counted.moved k d)
    change ResultMoved k d s (v.countB k B_MERGE_RESULTS_COUNT 1) at through
    change (v.countB k B_MERGE_RESULTS_COUNT 1).rd _ _ = _ at counts
    generalize v.countB k B_MERGE_RESULTS_COUNT 1 = t at *
    have tileSame (n : Nat) : t.tile n = u.tile n := by unfold State.tile; rw [still]
    have cellSame (n i : Nat) : t.spCell n i = u.spCell n i := by unfold State.spCell; rw [tileSame]
    have fullSame (n i : Nat) : t.isFull n i = u.isFull n i := by unfold State.isFull; rw [tileSame]
    refine ⟨t, congrArg Host.Outcome.next ends, through.rest, through.only, (cellSame _ _).trans cell, (fullSame _ _).trans full,
      fun i hi => ⟨(cellSame _ i).trans (others i hi).1, (fullSame _ i).trans (others i hi).2⟩, fun n hn => (tileSame n).trans (filled.tiles n hn), counts, ?_⟩
    rw [final]
    refine ⟨fun sum => ?_, fun mlstore => ?_, fun smerge first => ?_, fun smerge second => ?_⟩ <;> unfold Dest.next
    · rw [sum]; rfl
    · rw [mlstore]; exact ⟨rfl, rfl, rfl⟩
    · rw [smerge, first]; exact ⟨rfl, rfl, rfl⟩
    · rw [smerge, second]; rfl
  case drops =>
    obtain ⟨x, dest⟩ : ∃ x, (s.bd k).dest d = x := ⟨_, rfl⟩
    rw [dest]
    intro _ returning dropped
    have drops := resultReturnDropped_drops dest returning dropped
    have freed := setDest_set s k d Dest.init
    exact ⟨_, congrArg Host.Outcome.next drops, rfl, (freed.of_bdies rfl).only, freed.dest⟩

end Sys2Proof.Machine
end

section
/-! Panic, and the operand fetch of a pass (R84, R139, R156, R167). -/

namespace Sys2Proof.Machine

/-! ### Panic -/

/-- From `s` to `t` panic of channel `c` rose or fell, or nothing changed: its time may be counted and reported. -/
structure PanicMoved (c : Nat) (s t : State) : Prop where
  rest    : t = { s with regs := t.regs, ccs := t.ccs, reports := t.reports }
  others  : OtherCcs s t c
  cc      : t.cc c = { s.cc c with panic := (t.cc c).panic, panicAt := (t.cc c).panicAt, yields := (t.cc c).yields }
  words   : WordsBut s t [ccB c + CC_BSEQ_PANIC_NS.off]
  reports : s.reports <+: t.reports

theorem PanicMoved.refl (c : Nat) (s : State) : PanicMoved c s s := ⟨rfl, .refl s c, rfl, .refl s _, List.prefix_refl _⟩

theorem PanicMoved.active {c : Nat} {s t : State} (h : PanicMoved c s t) : (t.cc c).active = (s.cc c).active := by rw [h.cc]

theorem cc_of_ccs {s t : State} (h : t.ccs = s.ccs) (c : Nat) : t.cc c = s.cc c := by unfold State.cc; rw [h]

theorem panicEnd_falls (s : State) (c tag : Nat) : PanicMoved c s (s.panicEnd c tag) ∧ ((s.panicEnd c tag).cc c).panic = false := by
  unfold State.panicEnd
  dsimp only
  generalize hv : s.setCc c { s.cc c with panic := false } = v
  have counted := count_counted v (ccB c) CC_BSEQ_PANIC_NS (s.tsc - (s.cc c).panicAt) (ccSrc c) 0x0548
  have own : v.cc c = { s.cc c with panic := false } := by rw [← hv, State.setCc_cc]
  have set : PanicMoved c s v := ⟨by rw [← hv]; rfl, by rw [← hv]; exact .setCc s c _, by rw [own], .of_regs (by rw [← hv]; rfl) _, by rw [← hv]; exact List.prefix_refl _⟩
  unfold State.countC
  generalize v.count (ccB c) CC_BSEQ_PANIC_NS (s.tsc - (s.cc c).panicAt) (ccSrc c) 0x0548 = u at *
  have cc := cc_of_ccs (show u.ccs = v.ccs by rw [counted.rest])
  have fell : PanicMoved c s u := ⟨counted.rest.trans (by rw [set.rest, counted.rest]), fun d hd => (cc d).trans (set.others d hd), by rw [cc, own],
    set.words.trans counted.words, set.reports.trans counted.reports⟩
  have low : (u.cc c).panic = false := by rw [cc, own]
  split
  · exact ⟨⟨by rw [fell.rest]; rfl, fell.others, fell.cc, fell.words.trans (.of_regs rfl _), fell.reports.trans (List.prefix_append _ _)⟩, low⟩
  · exact ⟨fell, low⟩

/-- Panic falls only where it stood; a channel without it reports and counts nothing. -/
theorem panicCheck_moved (s : State) (c : Nat) : PanicMoved c s (s.panicCheck c) ∧ ((s.cc c).panic = false → (s.panicCheck c).regs = s.regs ∧ (s.panicCheck c).reports = s.reports) := by
  have risen : PanicMoved c s (s.setCc c { s.cc c with panic := true, panicAt := s.tsc, yields := 0 }) :=
    ⟨rfl, .setCc s c _, by rw [State.setCc_cc], .of_regs rfl _, List.prefix_refl _⟩
  unfold State.panicCheck
  dsimp only
  split
  · exact ⟨.refl c s, fun _ => ⟨rfl, rfl⟩⟩
  · split
    · exact ⟨risen, fun _ => ⟨rfl, rfl⟩⟩
    · split
      · next stands =>
        refine ⟨(panicEnd_falls s c _).1, fun calm => ?_⟩
        rw [calm] at stands
        exact absurd stands (by simp)
      · exact ⟨.refl c s, fun _ => ⟨rfl, rfl⟩⟩

/-! ### Operand fetch -/

/-- The pass after unit `unit` of record `rec` has arrived with `d`. -/
def Active.fetch (a : Active) (rec unit : Nat) (d : Cell64) (up : Bool) : Active :=
  { a with
    operands := put (fun _ => Cell64.zero) a.operands (32 * rec + unit) d
    fetched := put noMark a.fetched (32 * rec + unit) true
    fetchErr := a.fetchErr || !up }

theorem Active.fetch_has_same (a : Active) (rec unit : Nat) (d : Cell64) (up : Bool) : (a.fetch rec unit d up).has rec unit = true :=
  look_put_same noMark a.fetched (32 * rec + unit) true
theorem Active.fetch_has_ne (a : Active) {rec unit r u : Nat} (d : Cell64) (up : Bool) (h : 32 * r + u ≠ 32 * rec + unit) : (a.fetch rec unit d up).has r u = a.has r u :=
  look_put_ne noMark a.fetched (32 * rec + unit) (32 * r + u) true h
theorem Active.fetch_operand (a : Active) (rec unit : Nat) (d : Cell64) (up : Bool) : look (fun _ => Cell64.zero) (a.fetch rec unit d up).operands (32 * rec + unit) = d :=
  look_put_same _ _ _ _

/-- The reports of a fetch that found its tile down: the packet's error, and that of the pass unless it was reported before (R167, R222). -/
def State.fetchFails (s : State) (c : Nat) (a : Active) (addr : Nat) : State :=
  let s := s.nocError a.req.tile (ccSrc c) (ccSrc c) 5 false
  if a.fetchErr then s else s.emit (ccSrc c) 0x0544 [pTag a.req.pkt, a.req.tile, addr]

theorem fetchFails_told (s : State) (c : Nat) (a : Active) (addr : Nat) :
    s.fetchFails c a addr = { s with reports := (s.fetchFails c a addr).reports } ∧ s.reports <+: (s.fetchFails c a addr).reports ∧
      (a.fetchErr = false → s.report (ccSrc c) 0x0544 [pTag a.req.pkt, a.req.tile, addr] ∈ (s.fetchFails c a addr).reports) := by
  unfold State.fetchFails
  dsimp only
  cases a.fetchErr with
  | true => exact ⟨rfl, List.prefix_append _ _, fun h => absurd h (by decide)⟩
  | false => exact ⟨rfl, (List.prefix_append _ _).trans (List.prefix_append _ _), fun _ => List.mem_append_right _ (List.mem_singleton.mpr rfl)⟩

/-- The first unit that was asked for arrives: a cell of the tile, or poison when the tile does not answer, which is reported (R139, R167). -/
theorem fetchOne_delivers {s : State} {c : Nat} {a : Active} {rec unit : Nat} (active : (s.cc c).active = some a) (asked : a.nextFetch = some (rec, unit))
    (carried : s.seamHeld (chanDie c) (tileDie a.req.tile) = false) :
    let addr := pOpnd a.req.pkt + rec * pRec a.req.pkt + 64 * unit
    let up := s.nocCause a.req.tile = 0
    ∃ u : State, u = { s with reports := u.reports } ∧ s.reports <+: u.reports ∧ (¬ up → a.fetchErr = false → s.report (ccSrc c) 0x0544 [pTag a.req.pkt, a.req.tile, addr] ∈ u.reports) ∧
      (up → u.reports = s.reports) ∧
      s.fetchOne c = u.setCc c { s.cc c with active := some (a.fetch rec unit (if up then s.spCell a.req.tile (addr / 64) else .bad) (decide up)) } := by
  unfold State.fetchOne
  dsimp only
  rw [active]
  dsimp only
  rw [asked]
  dsimp only
  rw [carried, if_neg (by decide)]
  by_cases up : s.nocCause a.req.tile = 0
  · rw [if_pos up, decide_eq_true up]
    exact ⟨s, rfl, List.prefix_refl _, fun down => absurd up down, fun _ => rfl, rfl⟩
  · rw [if_neg up, decide_eq_false up]
    obtain ⟨rest, reports, told⟩ := fetchFails_told s c a (pOpnd a.req.pkt + rec * pRec a.req.pkt + 64 * unit)
    refine ⟨_, rest, reports, fun _ => told, fun answers => absurd answers up, ?_⟩
    unfold State.fetchFails Active.fetch
    dsimp only
    cases a.fetchErr <;> rfl

/-- Settles O19: the unit arrives (`fetchOne_delivers`), and panic follows the command buffer (`panicCheck_moved`). -/
theorem operandFetchDeliversACell : Obligations.OperandFetchDeliversACell := by
  unfold Obligations.OperandFetchDeliversACell
  intro c s a rec unit active asked carried addr
  obtain ⟨u, restU, told, fails, quiet, fetched⟩ := fetchOne_delivers active asked carried
  refine ⟨(s.fetchOne c).panicCheck c, rfl, ?_⟩
  generalize hx : a.fetch rec unit _ _ = x at fetched
  obtain ⟨moved, calm⟩ := panicCheck_moved (s.fetchOne c) c
  generalize (s.fetchOne c).panicCheck c = t at *
  have rest : t = { s with regs := t.regs, ccs := t.ccs, reports := t.reports } := moved.rest.trans (by rw [fetched, restU]; rfl)
  have set : OtherCcs s (s.fetchOne c) c := by rw [fetched, restU]; exact .setCc s c _
  have own : (s.fetchOne c).cc c = { s.cc c with active := some x } := by rw [fetched, State.setCc_cc]
  have reports : (s.fetchOne c).reports = u.reports := by rw [fetched]; rfl
  have regs : (s.fetchOne c).regs = s.regs := by rw [fetched, restU]; rfl
  have all : u.reports <+: t.reports := reports ▸ moved.reports
  refine ⟨x, rest, set.trans moved.others, by rw [moved.active, own], hx ▸ rfl, hx ▸ rfl, hx ▸ a.fetch_has_same rec unit _ _,
    fun r v hv hunit other => hx ▸ a.fetch_has_ne _ _ fun e => other (Prod.ext (by dsimp only; omega) (by dsimp only; omega)), hx ▸ a.fetch_operand rec unit _ _,
    told.trans all, fun down first => all.subset (fails down first), fun up low => ?_⟩
  obtain ⟨regs', reports'⟩ := calm (by rw [own]; exact low)
  exact ⟨reports'.trans (reports.trans (quiet up)), regs'.trans regs⟩

end Sys2Proof.Machine
end

section
/-! What goes ahead of the commands of a pass, and its end: the slots of the bank port, neighbour refreshes, the engines' common operations (R80, R93, R147, R154, R166). -/

namespace Sys2Proof.Machine

/-! ### Slots of the bank port -/

/-- From `s` to `t` at most the commands toward PANIC_YIELD have been counted. -/
structure Slotted (c : Nat) (s t : State) : Prop where
  rest   : t = { s with ccs := t.ccs }
  others : OtherCcs s t c
  cc     : t.cc c = { s.cc c with yields := (t.cc c).yields }

theorem Untraced.bankCmd {s : State} {c : Nat} (off : Untraced s c) (tag : Option Nat) (row col : Nat) : Slotted c s (s.bankCmd c tag row col) := by
  unfold State.bankCmd
  dsimp only
  rw [off.trace]
  split
  · exact ⟨rfl, .setCc s c _, by rw [State.setCc_cc]⟩
  · exact ⟨rfl, .refl s c, rfl⟩

theorem Untraced.bankCmd_calm {s : State} {c : Nat} (off : Untraced s c) (calm : (s.cc c).panic = false) (tag : Option Nat) (row col : Nat) : s.bankCmd c tag row col = s := by
  unfold State.bankCmd
  dsimp only
  rw [off.trace, calm, if_neg (by decide)]

/-! ### Neighbour refreshes that go first -/

/-- From `k` to `k'` rows, the row-disturbance table and the queues of maintenance change at most, and no write-back is queued. -/
structure CcSt.Tended (k k' : CcSt) : Prop where
  rest       : k' = { k with rows := k'.rows, dist := k'.dist, maint := k'.maint, waiting := k'.waiting, nextId := k'.nextId, yields := k'.yields }
  writeBacks : ∀ col since d, Maint.writeBack col since d ∈ k'.maint ++ k'.waiting → Maint.writeBack col since d ∈ k.maint ++ k.waiting

theorem CcSt.Tended.trans {k l m : CcSt} (h : k.Tended l) (g : l.Tended m) : k.Tended m :=
  ⟨g.rest.trans (by rw [h.rest]), fun col since d x => h.writeBacks col since d (g.writeBacks col since d x)⟩

theorem queueNeighbour_tended (k : CcSt) (d : SMap (List RdEntry)) (bank row now : Nat) : k.Tended (CcSt.queueNeighbour { k with dist := d } bank row now) := by
  unfold CcSt.queueNeighbour
  dsimp only
  split
  · exact ⟨rfl, fun col since d x => by simpa using x⟩
  · exact ⟨rfl, fun col since d x => by simpa using x⟩

theorem refill_tended (k : CcSt) : k.Tended k.refill :=
  ⟨rfl, fun col since d x => by unfold CcSt.refill at x; rwa [List.append_assoc, List.take_append_drop] at x⟩

/-- From `s` to `t` at most SIDs left power-down, and rows and maintenance of CC `c` changed. -/
structure Refreshed (c : Nat) (s t : State) : Prop where
  rest    : t = { s with regs := t.regs, ccs := t.ccs }
  others  : OtherCcs s t c
  cc      : (s.cc c).Tended (t.cc c)
  words   : WordsBut s t [ccB c + CC_STATUS_SID_PD.off]
  retired : t.retired c = s.retired c

theorem Refreshed.refl (c : Nat) (s : State) : Refreshed c s s := ⟨rfl, .refl s c, ⟨rfl, fun _ _ _ x => x⟩, .refl s _, rfl⟩

theorem Refreshed.trans {c : Nat} {s t u : State} (h : Refreshed c s t) (g : Refreshed c t u) : Refreshed c s u :=
  ⟨g.rest.trans (by rw [h.rest]), h.others.trans g.others, h.cc.trans g.cc, h.words.trans g.words, g.retired.trans h.retired⟩

theorem Refreshed.untraced {c : Nat} {s t : State} (h : Refreshed c s t) (off : Untraced s c) : Untraced t c := off.of_wordsBut h.words (trace_word_ne_status c)

theorem Slotted.refreshed {c : Nat} {s t : State} (h : Slotted c s t) : Refreshed c s t := by
  have regs : t.regs = s.regs := by rw [h.rest]
  exact ⟨h.rest.trans (by rw [regs]), h.others, by rw [h.cc]; exact ⟨rfl, fun _ _ _ x => x⟩, .of_regs regs _, by rw [h.rest]; rfl⟩

/-- The bits of power-down lie beside RETIRED in their word. -/
theorem wr_sidPd_refreshed (s : State) (c v : Nat) : Refreshed c s (s.wr (ccB c) CC_STATUS_SID_PD v) := by
  refine ⟨rfl, .refl s c, ⟨rfl, fun _ _ _ x => x⟩, wr_wordsBut s _ _ _, ?_⟩
  unfold State.retired State.flag
  rw [State.rd_wr_other s _ _ _ _ _ (by decide) fun _ => by decide]

theorem Untraced.pdx_refreshed {s : State} {c : Nat} (off : Untraced s c) (mask : Nat) : Refreshed c s (s.pdx c mask) := by
  refine upto_keeps (Refreshed c s) 4 _ s (.refl c s) fun sid u h => ?_
  split
  · have step := h.trans (wr_sidPd_refreshed u c (u.rd (ccB c) CC_STATUS_SID_PD - 2 ^ sid))
    rw [(step.untraced off).trace]
    exact step
  · exact h

theorem RowClosed.refreshed {c bank : Nat} {s t : State} (h : RowClosed c bank s t) : Refreshed c s t := by
  have regs : t.regs = s.regs := by rw [h.rest]
  exact ⟨h.rest.trans (by rw [regs]), h.others, by rw [h.cc]; exact ⟨rfl, fun _ _ _ x => x⟩, .of_regs regs _, by rw [h.rest]; rfl⟩

theorem rearm_tended (k : CcSt) (bank id th now : Nat) : k.Tended (k.rearm bank id th now) := by
  unfold CcSt.rearm
  dsimp only
  split
  · exact ⟨rfl, fun _ _ _ x => x⟩
  · split
    · exact queueNeighbour_tended _ _ _ _ _
    · exact ⟨rfl, fun _ _ _ x => x⟩

theorem Untraced.issueRefresh_refreshed {s : State} {c : Nat} (off : Untraced s c) (m : Maint) : Refreshed c s (s.issueRefresh c m) := by
  cases m with
  | writeBack col since d => exact .refl c s
  | neighbour id bank row since e =>
    have awake := off.pdx_refreshed (2 ^ (bank / 32))
    have shut := awake.trans ((awake.untraced off).closeRow bank).refreshed
    unfold State.issueRefresh
    dsimp only
    generalize (s.pdx c (2 ^ (bank / 32))).closeRow c bank = u at *
    have offT (k : CcSt) : Untraced (u.setCc c k) c := (shut.untraced off).of_regs rfl
    rw [(offT _).traces]
    refine shut.trans ⟨rfl, .setCc u c _, ?_, .of_regs rfl _, rfl⟩
    rw [State.setCc_cc]
    refine (CcSt.Tended.trans ⟨rfl, fun col since d x => ?_⟩ (refill_tended _)).trans (rearm_tended _ bank id _ _)
    rw [List.mem_append] at x ⊢
    exact x.imp List.mem_of_mem_erase List.mem_of_mem_erase

theorem Untraced.gapRefresh {s : State} {c : Nat} (off : Untraced s c) (n : Nat) : Refreshed c s (State.gapRefresh n s c) := by
  induction n generalizing s with
  | zero => exact .refl c s
  | succ n ih =>
    have step (m : Maint) : Refreshed c s (State.gapRefresh n (s.issueRefresh c m) c) :=
      (off.issueRefresh_refreshed m).trans (ih ((off.issueRefresh_refreshed m).untraced off))
    unfold State.gapRefresh
    split
    · exact step _
    · split
      · exact step _
      · exact .refl c s

theorem Untraced.refreshFirst {s : State} {c : Nat} (off : Untraced s c) : Refreshed c s (s.refreshFirst c) := off.gapRefresh _

/-- Nothing goes first where no refresh is escalated and no gap of a pass is open. -/
theorem refreshFirst_none {s : State} {c : Nat} (calm : Unescalated s c) (shut : ∀ a, (s.cc c).active = some a → a.gap = false) : s.refreshFirst c = s := by
  have none : (s.cc c).nextEscalated = none := by
    refine List.find?_eq_none.mpr fun m hm => ?_
    have := calm m hm
    cases m with
    | neighbour i b r t e => simp_all
    | writeBack => simp
  unfold State.refreshFirst
  cases 2 * ((s.cc c).maint.length + (s.cc c).waiting.length) with
  | zero => rfl
  | succ n =>
    unfold State.gapRefresh
    rw [none]
    dsimp only
    cases active : (s.cc c).active with
    | none => rfl
    | some a =>
      have closed : a.inGap = false := Bool.and_eq_false_imp.mpr fun open_ => absurd ((shut a active).symm.trans open_) (by decide)
      simp only [closed]
      rfl

/-! ### Engines -/

/-- Engine `i` becomes `v`, and nothing else changes. -/
structure EngSet (i : Nat) (v : EngSt) (s t : State) : Prop where
  rest   : t = { s with engs := t.engs }
  own    : t.eng i = v
  others : ∀ b, b ≠ i → t.eng b = s.eng b

theorem setEng_set (s : State) (i : Nat) (v : EngSt) : EngSet i v s (s.setEng i v) := ⟨rfl, s.setEng_eng i v, fun b hb => s.setEng_eng_ne i b v hb⟩
theorem EngSet.refl (i : Nat) (s : State) : EngSet i (s.eng i) s s := ⟨rfl, rfl, fun _ _ => rfl⟩

/-- A step for each of `n` engines, which looks at nothing of the other engines. -/
theorem upto_engSet {s : State} {n : Nat} {at_ : Nat → Nat} {v : Nat → EngSt} {g : Nat → State → State} (apart : ∀ i j, at_ i = at_ j → i = j)
    (step : ∀ i < n, ∀ u, u = { s with engs := u.engs } → u.eng (at_ i) = s.eng (at_ i) → EngSet (at_ i) (v i) u (g i u)) :
    let t := upto n g s
    t = { s with engs := t.engs } ∧ (∀ i < n, t.eng (at_ i) = v i) ∧ ∀ b, (∀ i < n, b ≠ at_ i) → t.eng b = s.eng b := by
  dsimp only
  induction n with
  | zero => exact ⟨rfl, fun i hi => absurd hi (Nat.not_lt_zero i), fun _ _ => rfl⟩
  | succ n ih =>
    obtain ⟨rest, done, others⟩ := ih fun i hi => step i (by omega)
    rw [upto_succ]
    generalize upto n g s = u at *
    have set := step n (by omega) u rest (others _ fun i hi e => absurd (apart _ _ e) (by omega))
    refine ⟨set.rest.trans (by rw [rest]), fun i hi => ?_, fun b hb => (set.others b (hb n (by omega))).trans (others b fun i hi => hb i (by omega))⟩
    by_cases e : i = n
    · rw [e, set.own]
    · rw [set.others _ fun h => e (apart _ _ h), done i (by omega)]

end Sys2Proof.Machine
end

section
/-! Unlocking, leaving PIM mode, rejection and the end of a pass (R140, R144-R148, R166). -/

namespace Sys2Proof.Machine

/-! ### Rejection -/

/-- A stand-in reaches the merge unit where one is due (R140). -/
theorem standIn_stands (s : State) (c : Nat) (r : PassReq) : s.standIn c r = { s with bdies := (s.standIn c r).bdies } ∧ StandIn s (s.standIn c r) c r := by
  unfold State.standIn StandIn
  by_cases due : pMop r.pkt ≠ 3 ∧ mergeOk r.pkt
  · rw [if_pos due, if_pos due]
    exact ⟨rfl, fun k hk => State.setBd_bd_ne _ _ _ _ hk, State.setBd_bd _ _ _⟩
  · rw [if_neg due, if_neg due]
    exact ⟨rfl, fun _ _ => rfl, rfl⟩

theorem StandIn.of_bdies {s s' t : State} {c : Nat} {r : PassReq} (h : StandIn s' t c r) (e : s'.bdies = s.bdies) : StandIn s t c r := by
  have same (k : Nat) : s'.bd k = s.bd k := by unfold State.bd; rw [e]
  obtain ⟨others, own⟩ := h
  exact ⟨fun k hk => (others k hk).trans (same k), by rw [own, same]⟩

/-- The instruction `r` is rejected for `reason`. -/
structure PassRejected (c : Nat) (r : PassReq) (reason : Nat) (s t : State) : Prop where
  rest    : t = { s with regs := t.regs, bdies := t.bdies, reports := s.reports ++ [s.report (ccSrc c) 0x0541 [pTag r.pkt, reason]] }
  words   : WordsBut s t [ccB c + CC_BSEQ_REJ_TAG.off]
  tag     : t.rd (ccB c) CC_BSEQ_REJ_TAG = pTag r.pkt
  reason  : t.rd (ccB c) CC_BSEQ_REJ_REASON = reason
  valid   : t.rd (ccB c) CC_BSEQ_REJ_VALID = 1
  standIn : StandIn s t c r

theorem reject_rejected (s : State) (c : Nat) (r : PassReq) {reason : Nat} (named : reason < 16) : PassRejected c r reason s (s.reject c r reason) := by
  unfold State.reject
  dsimp only
  generalize hv : s.emit (ccSrc c) 0x0541 [pTag r.pkt, reason] = v
  have restV : v = { s with reports := s.reports ++ [s.report (ccSrc c) 0x0541 [pTag r.pkt, reason]] } := hv.symm
  have only : OnlyWords v (((v.wr (ccB c) CC_BSEQ_REJ_TAG (pTag r.pkt)).wr (ccB c) CC_BSEQ_REJ_REASON reason).raise (ccB c) CC_BSEQ_REJ_VALID) [ccB c + CC_BSEQ_REJ_TAG.off] :=
    ((wr_onlyWords v _ CC_BSEQ_REJ_TAG _).trans (wr_onlyWords _ _ CC_BSEQ_REJ_REASON _)).trans (wr_onlyWords _ _ CC_BSEQ_REJ_VALID 1)
  generalize hu : ((v.wr (ccB c) CC_BSEQ_REJ_TAG (pTag r.pkt)).wr (ccB c) CC_BSEQ_REJ_REASON reason).raise (ccB c) CC_BSEQ_REJ_VALID = u at *
  obtain ⟨restU, words⟩ := only
  obtain ⟨rest, stands⟩ := standIn_stands u c r
  generalize u.standIn c r = t at *
  have regs : t.regs = u.regs := by rw [rest]
  have kept (f : Fld) : t.rd (ccB c) f = u.rd (ccB c) f := State.rd_of_word (WordsBut.of_regs regs [] _ (by simp))
  have bdies : u.bdies = s.bdies := by rw [restU, restV]
  have tag : pTag r.pkt < 2 ^ 16 := bitsOf_lt _ _ _
  refine ⟨rest.trans (by rw [regs, restU, restV]), ((WordsBut.of_regs (by rw [restV]) _).trans words).trans (.of_regs regs _), ?_, ?_, ?_, stands.of_bdies bdies⟩
  all_goals rw [kept, ← hu, State.raise]
  · rw [State.rd_wr_other _ _ _ CC_BSEQ_REJ_VALID CC_BSEQ_REJ_TAG _ (by decide) fun _ => by decide,
      State.rd_wr_other _ _ _ CC_BSEQ_REJ_REASON CC_BSEQ_REJ_TAG _ (by decide) fun _ => by decide, State.rd_wr_same _ _ _ _ (by decide)]
    exact Nat.mod_eq_of_lt tag
  · rw [State.rd_wr_other _ _ _ CC_BSEQ_REJ_VALID CC_BSEQ_REJ_REASON _ (by decide) fun _ => by decide, State.rd_wr_same _ _ _ _ (by decide)]
    exact Nat.mod_eq_of_lt named
  · rw [State.rd_wr_same _ _ _ _ (by decide)]
    rfl

theorem passCheck_lt (p : Pkt) : passCheck p < 16 := by
  unfold passCheck
  split_ifs <;> decide

theorem CcSt.pull_eq (k : CcSt) : k.pull =
    let n := if k.queue.length < 8 then 1 else 0
    { k with queue := k.queue ++ k.ingress.take n, ingress := k.ingress.drop n } := by
  obtain ⟨⟩ := k
  unfold CcSt.pull
  dsimp only
  split
  · next r rest => split <;> simp
  · simp

/-- A head that failed its checks leaves the queue (R140). -/
theorem rejectHead_rejects {s : State} {c : Nat} {r : PassReq} {rest : List PassReq} (queue : (s.cc c).queue = r :: rest) :
    s.rejectHead c = (s.setCc c (CcSt.pull { s.cc c with queue := rest })).reject c r (passCheck r.pkt) := by
  unfold State.rejectHead
  rw [queue]

theorem passRow_rejects {s : State} {c kind : Nat} {r : PassReq} {rest : List PassReq} (ok : Bool) (idle : (s.cc c).active = none) (queue : (s.cc c).queue = r :: rest)
    (own : pKind r.pkt = kind) (fails : passCheck r.pkt ≠ 0) : passRow kind c ok [] s = s.rejectHead c := by
  have next : (s.cc c).next = some r := by rw [CcSt.next, idle, queue]; rfl
  rw [passRow, next]
  dsimp only
  rw [if_pos (.inl own), if_pos ⟨by rw [idle]; rfl, fails⟩]

theorem exitPass_rejects {s : State} {c : Nat} {r : PassReq} {rest : List PassReq} (idle : (s.cc c).active = none) (queue : (s.cc c).queue = r :: rest)
    (own : pKind r.pkt = 5) (fails : passCheck r.pkt ≠ 0) : exitPass c s = s.rejectHead c := by
  have next : (s.cc c).next = some r := by rw [CcSt.next, idle, queue]; rfl
  rw [exitPass, next]
  dsimp only
  rw [if_pos own, if_pos ⟨by rw [idle]; rfl, fails⟩]

/-- The command of a KIND lets a head of that KIND that failed its checks be rejected. -/
theorem passCommand_rejects {c : Chan} {ok : Bool} {kind : Nat} {cmd : Instr} (listed : (kind, cmd) ∈ (5, .exitPass c) :: passCommands c ok) {s : State} {r : PassReq}
    {rest : List PassReq} (idle : (s.cc c).active = none) (queue : (s.cc c).queue = r :: rest) (own : pKind r.pkt = kind) (fails : passCheck r.pkt ≠ 0) :
    exec cmd s = .next (s.rejectHead c).onward := by
  unfold passCommands at listed
  simp only [List.mem_cons, Prod.mk.injEq, List.not_mem_nil, or_false] at listed
  obtain ⟨hk, rfl⟩ | ⟨hk, rfl⟩ | ⟨hk, rfl⟩ | ⟨hk, rfl⟩ | ⟨hk, rfl⟩ := listed
  · exact congrArg (fun t : State => Host.Outcome.next t.onward) (exitPass_rejects idle queue (own.trans hk) fails)
  all_goals exact congrArg (fun t : State => Host.Outcome.next t.onward) (passRow_rejects ok idle queue (own.trans hk) fails)

/-! ### Operations of all engines -/

/-- A change of every engine of a group that is not OFF. -/
theorem eachEng_each (s : State) (c g : Nat) (f : Nat → EngSt → EngSt) :
    let t := s.eachEng c g f
    t = { s with engs := t.engs } ∧
      (∀ p < 64, t.eng (engIdx c g p) = if s.engOff c g p = true then s.eng (engIdx c g p) else f p (s.eng (engIdx c g p))) ∧
      ∀ b, (∀ p < 64, b ≠ engIdx c g p) → t.eng b = s.eng b := by
  refine upto_engSet (at_ := engIdx c g) (fun i j e => by unfold engIdx at e; omega) fun p hp u rest same => ?_
  have off : u.engOff c g p = s.engOff c g p := by rw [rest]; rfl
  rw [off, same]
  split
  · exact same ▸ .refl _ u
  · exact setEng_set u _ _

/-- Nothing happens where no engine takes a sequence error. -/
theorem seqError_none {s : State} {c g : Nat} {hit : EngSt → Bool} (op : Nat)
    (well : ∀ p < 64, s.engOff c g p = false → (s.eng (engIdx c g p)).st ≠ .fault → hit (s.eng (engIdx c g p)) = false) : s.seqError c g op hit = s := by
  have none : (List.range 64).filter (fun p => !s.engOff c g p && (s.eng (engIdx c g p)).st ≠ .fault && hit (s.eng (engIdx c g p))) = [] := by
    refine List.filter_eq_nil_iff.mpr fun p hp taken => ?_
    simp only [Bool.and_eq_true, Bool.not_eq_true', decide_eq_true_eq] at taken
    obtain ⟨⟨off, fault⟩, hits⟩ := taken
    exact absurd hits (by rw [well p (List.mem_range.mp hp) off fault]; decide)
  unfold State.seqError
  dsimp only
  rw [none]

/-- The state of the engines of channel `c` from their states one by one. -/
theorem eng_by_channel {s t : State} {c : Nat} {P : EngSt → Prop} [DecidablePred P] {f : EngSt → EngSt}
    (own : ∀ i < 128, t.eng (128 * c + i) = if s.engOff c (i / 64) (i % 64) = false ∧ P (s.eng (128 * c + i)) then f (s.eng (128 * c + i)) else s.eng (128 * c + i))
    (others : ∀ b, (∀ i < 128, b ≠ 128 * c + i) → t.eng b = s.eng b) (b : Nat) :
    t.eng b = if b / 128 = c ∧ s.engOff c (b % 128 / 64) (b % 64) = false ∧ P (s.eng b) then f (s.eng b) else s.eng b := by
  by_cases here : b / 128 = c
  · have e : b = 128 * c + b % 128 := by omega
    have place : b % 128 % 64 = b % 64 := by omega
    have step := own (b % 128) (by omega)
    rw [← e, place] at step
    rw [step]
    simp only [here, true_and]
  · rw [others b fun i hi e => here (by omega), if_neg fun h => here h.1]

/-- EXIT discards the state of every engine of the channel that is not OFF, and leaves PIM mode (R147). -/
theorem opExit_exits (s : State) (c : Nat) :
    let t := s.opExit c
    t = { s with ccs := t.ccs, engs := t.engs } ∧ OtherCcs s t c ∧ t.cc c = { s.cc c with pim := false } ∧
      ∀ b, t.eng b = if b / 128 = c ∧ s.engOff c (b % 128 / 64) (b % 64) = false then EngSt.blank else s.eng b := by
  obtain ⟨rest, own, others⟩ := upto_engSet (s := s) (n := 128) (at_ := fun i => 128 * c + i)
    (v := fun i => if s.engOff c (i / 64) (i % 64) = false ∧ True then EngSt.blank else s.eng (128 * c + i))
    (g := fun i s => if s.engOff c (i / 64) (i % 64) then s else s.setEng (128 * c + i) EngSt.blank) (fun i j e => by omega) fun i hi u rest same => by
      have off : u.engOff c (i / 64) (i % 64) = s.engOff c (i / 64) (i % 64) := by rw [rest]; rfl
      rw [off]
      cases s.engOff c (i / 64) (i % 64) with
      | true => exact same ▸ .refl _ u
      | false => exact setEng_set u _ _
  unfold State.opExit
  dsimp only
  generalize upto 128 (fun i (s : State) => if s.engOff c (i / 64) (i % 64) then s else s.setEng (128 * c + i) EngSt.blank) s = u at *
  have cc (d : Nat) : u.cc d = s.cc d := cc_of_ccs (by rw [rest]) d
  have each := eng_by_channel (P := fun _ => True) (f := fun _ => EngSt.blank) own others
  simp only [and_true] at each
  refine ⟨by rw [rest]; rfl, fun d hd => (OtherCcs.setCc u c _ d hd).trans (cc d), ?_, each⟩
  rw [State.setCc_cc, cc]

/-- ENTER makes every engine of the channel in IDLE ready where none of it is READY or OPEN (R145). -/
theorem opEnter_enters {s : State} {c : Nat} (well : ∀ i < 128, s.engOff c (i / 64) (i % 64) = false → (s.eng (128 * c + i)).st = .idle ∨ (s.eng (128 * c + i)).st = .fault) :
    let t := s.opEnter c
    t = { s with ccs := t.ccs, engs := t.engs } ∧ OtherCcs s t c ∧ t.cc c = { s.cc c with pim := true } ∧
      ∀ b, t.eng b = if b / 128 = c ∧ s.engOff c (b % 128 / 64) (b % 64) = false ∧ (s.eng b).st = .idle then (s.eng b).enter else s.eng b := by
  have none (g : Nat) (hg : g < 2) : s.seqError c g 1 (fun e => decide (e.st = .ready ∨ e.st = .opened)) = s := seqError_none 1 fun p hp off _ => by
    have place : 128 * c + (64 * g + p) = engIdx c g p := by unfold engIdx; omega
    have i := well (64 * g + p) (by omega)
    rw [show (64 * g + p) / 64 = g by omega, show (64 * g + p) % 64 = p by omega, place] at i
    obtain idle | fault := i off
    · simp [idle]
    · simp [fault]
  obtain ⟨rest, own, others⟩ := upto_engSet (s := s) (n := 128) (at_ := fun i => 128 * c + i)
    (v := fun i => if s.engOff c (i / 64) (i % 64) = false ∧ (s.eng (128 * c + i)).st = .idle then (s.eng (128 * c + i)).enter else s.eng (128 * c + i))
    (g := fun i s => if s.engOff c (i / 64) (i % 64) || decide ((s.eng (128 * c + i)).st ≠ .idle) then s else s.setEng (128 * c + i) ((s.eng (128 * c + i)).enter))
    (fun i j e => by omega) fun i hi u rest same => by
      have off : u.engOff c (i / 64) (i % 64) = s.engOff c (i / 64) (i % 64) := by rw [rest]; rfl
      rw [off, same]
      by_cases taken : s.engOff c (i / 64) (i % 64) = false ∧ (s.eng (128 * c + i)).st = .idle
      · rw [if_pos taken, if_neg (by simp [taken])]
        exact setEng_set u _ _
      · rw [if_neg taken, if_pos (by simpa [-not_and, not_and_or] using taken)]
        exact same ▸ .refl _ u
  unfold State.opEnter
  dsimp only
  rw [none 0 (by decide), none 1 (by decide)]
  generalize upto 128 (fun i (s : State) => if s.engOff c (i / 64) (i % 64) || decide ((s.eng (128 * c + i)).st ≠ .idle) then s else s.setEng (128 * c + i) ((s.eng (128 * c + i)).enter)) s = u at *
  have cc (d : Nat) : u.cc d = s.cc d := cc_of_ccs (by rw [rest]) d
  refine ⟨by rw [rest]; rfl, fun d hd => (OtherCcs.setCc u c _ d hd).trans (cc d), ?_, eng_by_channel (P := fun e => e.st = .idle) (f := EngSt.enter) own others⟩
  rw [State.setCc_cc, cc]

/-! ### Unlocking -/

/-- The unlock sequence where no refresh goes first: rows are closed, and with a success the engines enter (R144). -/
theorem Untraced.unlock {s : State} {c : Nat} (off : Untraced s c) (calm : (s.cc c).panic = false) (first : s.refreshFirst c = s) (ok : Bool) :
    ∃ u, u = { s with ccs := u.ccs } ∧ OtherCcs s u c ∧ u.cc c = { s.cc c with rows := [] } ∧ s.unlock c ok = if ok then u.opEnter c else u := by
  have slots (u : State) (h : Untraced u c) (hc : (u.cc c).panic = false) (tag : Option Nat) :
      ((u.bankCmd c tag (rowMrw 0x3C 0x6A5) 0).bankCmd c tag (rowMrw 0x3D 0x95A) 0).bankCmd c tag rowEnter 0 = u := by
    rw [h.bankCmd_calm hc, h.bankCmd_calm hc, h.bankCmd_calm hc]
  unfold State.unlock
  dsimp only
  rw [first]
  by_cases shut : (s.cc c).rows.isEmpty = true
  · rw [if_pos shut, slots s off calm]
    exact ⟨s, rfl, .refl s c, by rw [← List.isEmpty_iff.mp shut], rfl⟩
  · have off' : Untraced (s.setCc c { s.cc c with rows := [] }) c := off.of_regs rfl
    have calm' : ((s.setCc c { s.cc c with rows := [] }).cc c).panic = false := by rw [State.setCc_cc]; exact calm
    rw [if_neg shut, off'.bankCmd_calm calm', slots _ off' calm']
    exact ⟨_, rfl, .setCc s c _, State.setCc_cc s c _, rfl⟩

/-! ### The end of a pass -/

/-- The group is released; of merge units only the record of an active stack changes (R441). -/
structure Released (c : Nat) (s t : State) : Prop where
  rest    : t = { s with ccs := t.ccs, bdies := t.bdies }
  others  : OtherCcs s t c
  cc      : t.cc c = { s.cc c with active := none, retried := false }
  bds     : ∀ k, k ≠ c / 32 → t.bd k = s.bd k
  dests   : (t.bd (c / 32)).dests = (s.bd (c / 32)).dests
  arrived : (t.bd (c / 32)).arrived = (s.bd (c / 32)).arrived

theorem release_releases (s : State) (c : Nat) : Released c s (s.release c) := by
  unfold State.release
  dsimp only
  split
  · exact ⟨rfl, .setCc s c _, State.setCc_cc s c _, fun _ _ => rfl, rfl, rfl⟩
  · refine ⟨rfl, .setCc s c _, State.setCc_cc s c _, fun k hk => State.setBd_bd_ne _ _ _ _ hk, ?_, ?_⟩ <;> rw [State.setBd_bd] <;> rfl

/-- The words that the end of a pass may change: its counters, and the registers whose pending values take effect. -/
def endWords (c : Nat) : List Nat := [ccB c + CC_BSEQ_PANIC_NS.off, ccB c + CC_BSEQ_PASSES_COUNT.off, ccB c + CC_SCHED_CTRL_PANIC_LWM.off, ccB c + CC_BSEQ_CTRL_SPLIT_MIN.off]

/-- A pass has ended: it counts, panic has fallen and the group is released (R166). -/
structure PassEnded (c : Nat) (s t : State) : Prop where
  rest    : t = { s with regs := t.regs, pendMask := t.pendMask, ccs := t.ccs, engs := t.engs, bdies := t.bdies, reports := t.reports }
  others  : OtherCcs s t c
  active  : (t.cc c).active = none
  panic   : (t.cc c).panic = false
  pim     : (t.cc c).pim = (s.cc c).pim
  words   : WordsBut s t (endWords c)
  passes  : t.rd (ccB c) CC_BSEQ_PASSES_COUNT = (s.rd (ccB c) CC_BSEQ_PASSES_COUNT + 1) % 2 ^ CC_BSEQ_PASSES_COUNT.w
  engs    : ∀ b, b / 128 ≠ c → t.eng b = s.eng b
  bds     : ∀ k, k ≠ c / 32 → t.bd k = s.bd k
  dests   : (t.bd (c / 32)).dests = (s.bd (c / 32)).dests
  arrived : (t.bd (c / 32)).arrived = (s.bd (c / 32)).arrived

theorem effects_rest (s : State) (b : Nat) (l : List Fld) :
    s.effects b l = { s with regs := (s.effects b l).regs, pendMask := (s.effects b l).pendMask } ∧ WordsBut s (s.effects b l) (l.map (fun f => b + f.off)) := by
  induction l generalizing s with
  | nil => exact ⟨rfl, .refl s _⟩
  | cons f l ih =>
    obtain ⟨rest, words⟩ := effect_rest s b f
    obtain ⟨restL, wordsL⟩ := ih (s.effect b f)
    change State.effects (s.effect b f) b l = { s with regs := (State.effects (s.effect b f) b l).regs, pendMask := (State.effects (s.effect b f) b l).pendMask } ∧
      WordsBut s (State.effects (s.effect b f) b l) _
    generalize s.effect b f = u at *
    generalize u.effects b l = v at *
    refine ⟨restL.trans (by rw [rest]), (words.mono ?_).trans (wordsL.mono ?_)⟩
    · simp
    · exact List.subset_cons_self _ _

/-- From `s` to `t` the engines that the pass faulted are free again (R166). -/
structure Aborted (c : Nat) (s t : State) : Prop where
  rest    : t = { s with ccs := t.ccs, engs := t.engs, reports := t.reports }
  others  : OtherCcs s t c
  cc      : t.cc c = { s.cc c with yields := (t.cc c).yields }
  engs    : ∀ b, b / 128 ≠ c → t.eng b = s.eng b

/-- ABT frees faulted engines at the end of a pass. -/
def State.passAbort (s : State) (c : Nat) (a : Active) : State :=
  if a.faulted then ((s.bankCmd c (some (pTag a.req.pkt)) 0 (colHead 0x1A (pG a.req.pkt))).opAbt c (pG a.req.pkt)).emit (ccSrc c) 0x0543 [pTag a.req.pkt, pG a.req.pkt] else s

theorem pG_lt (p : Pkt) : pG p < 2 := bitsOf_lt _ _ _

theorem Untraced.passAbort {s : State} {c : Nat} (off : Untraced s c) (a : Active) : Aborted c s (s.passAbort c a) := by
  unfold State.passAbort
  split
  · obtain ⟨rest, others, cc⟩ := off.bankCmd (some (pTag a.req.pkt)) 0 (colHead 0x1A (pG a.req.pkt))
    generalize s.bankCmd c _ 0 _ = u at *
    obtain ⟨restE, -, othersE⟩ := eachEng_each u c (pG a.req.pkt) (fun _ e => if e.st = .idle then e else e.abt)
    change u.opAbt c (pG a.req.pkt) = _ at restE
    change ∀ b, _ → (u.opAbt c (pG a.req.pkt)).eng b = _ at othersE
    generalize u.opAbt c (pG a.req.pkt) = v at *
    have ccs : (v.emit (ccSrc c) 0x0543 [pTag a.req.pkt, pG a.req.pkt]).ccs = u.ccs := by rw [restE]; rfl
    have eng (b : Nat) : u.eng b = s.eng b := by rw [rest]; rfl
    refine ⟨by rw [restE, rest]; rfl, fun d hd => (cc_of_ccs ccs d).trans (others d hd), by rw [cc_of_ccs ccs]; exact cc, fun b hb => ?_⟩
    refine (othersE b fun p hp e => hb ?_).trans (eng b)
    have := pG_lt a.req.pkt
    unfold engIdx at e
    omega
  · exact ⟨rfl, .refl s c, rfl, fun _ _ => rfl⟩

/-- Panic falls, the pass counts, and pending values take effect. -/
def State.passCount (s : State) (c tag : Nat) : State :=
  let s := if (s.cc c).panic then s.panicEnd c tag else s
  let s := s.countC c CC_BSEQ_PASSES_COUNT 1
  s.effects (ccB c) [CC_SCHED_CTRL_PANIC_LWM, CC_SCHED_CTRL_PANIC_HWM, CC_BSEQ_CTRL_SPLIT_MIN, CC_BSEQ_CTRL_OPND_AHEAD]

/-- From `s` to `t` panic falls and the pass counts. -/
structure PassCounted (c : Nat) (s t : State) : Prop where
  rest    : t = { s with regs := t.regs, pendMask := t.pendMask, ccs := t.ccs, reports := t.reports }
  others  : OtherCcs s t c
  active  : (t.cc c).active = (s.cc c).active
  panic   : (t.cc c).panic = false
  pim     : (t.cc c).pim = (s.cc c).pim
  words   : WordsBut s t (endWords c)
  passes  : t.rd (ccB c) CC_BSEQ_PASSES_COUNT = (s.rd (ccB c) CC_BSEQ_PASSES_COUNT + 1) % 2 ^ CC_BSEQ_PASSES_COUNT.w

theorem passCount_counted (s : State) (c tag : Nat) : PassCounted c s (s.passCount c tag) := by
  have falls : PanicMoved c s (if (s.cc c).panic then s.panicEnd c tag else s) ∧ ((if (s.cc c).panic then s.panicEnd c tag else s).cc c).panic = false := by
    split
    · exact panicEnd_falls s c tag
    · next calm => exact ⟨.refl c s, Bool.not_eq_true _ ▸ calm⟩
  unfold State.passCount
  dsimp only
  obtain ⟨fell, low⟩ := falls
  generalize (if (s.cc c).panic then s.panicEnd c tag else s) = u at *
  have counted := count_counted u (ccB c) CC_BSEQ_PASSES_COUNT 1 (ccSrc c) 0x0548
  change CountedUp _ (u.countC c CC_BSEQ_PASSES_COUNT 1) _ _ _ at counted
  generalize u.countC c CC_BSEQ_PASSES_COUNT 1 = v at *
  obtain ⟨restT, wordsT⟩ := effects_rest v (ccB c) [CC_SCHED_CTRL_PANIC_LWM, CC_SCHED_CTRL_PANIC_HWM, CC_BSEQ_CTRL_SPLIT_MIN, CC_BSEQ_CTRL_OPND_AHEAD]
  generalize v.effects (ccB c) _ = t at *
  have ccs : t.ccs = u.ccs := by rw [restT, counted.rest]
  have reports : t.reports = v.reports := by rw [restT]
  have cc := cc_of_ccs ccs
  have words : WordsBut s t (endWords c) := by
    refine ((fell.words.mono ?_).trans (counted.words.mono ?_)).trans (wordsT.mono ?_)
    · simp [endWords]
    · simp [endWords]
    · simp [endWords, CC_SCHED_CTRL_PANIC_LWM, CC_SCHED_CTRL_PANIC_HWM, CC_BSEQ_CTRL_SPLIT_MIN, CC_BSEQ_CTRL_OPND_AHEAD]
  have passes : t.rd (ccB c) CC_BSEQ_PASSES_COUNT = v.rd (ccB c) CC_BSEQ_PASSES_COUNT := by
    refine wordsT.rd ?_
    simp [CC_SCHED_CTRL_PANIC_LWM, CC_SCHED_CTRL_PANIC_HWM, CC_BSEQ_CTRL_SPLIT_MIN, CC_BSEQ_CTRL_OPND_AHEAD, CC_BSEQ_PASSES_COUNT]
  have before : u.rd (ccB c) CC_BSEQ_PASSES_COUNT = s.rd (ccB c) CC_BSEQ_PASSES_COUNT := fell.words.rd (by simp [CC_BSEQ_PANIC_NS, CC_BSEQ_PASSES_COUNT])
  refine ⟨?_, fun d hd => (cc d).trans (fell.others d hd), by rw [cc, fell.cc], by rw [cc, low], by rw [cc, fell.cc], words, ?_⟩
  · exact restT.trans (by rw [ccs, reports, counted.rest, fell.rest])
  · rw [passes, counted.rd (by decide), before]

theorem passEnd_ends {s : State} {c : Nat} {a : Active} (off : Untraced s c) (active : (s.cc c).active = some a) :
    PassEnded c s (s.passEnd c) ∧ (a.faulted = false → (s.passEnd c).engs = s.engs) := by
  have steps : s.passEnd c = ((s.passAbort c a).passCount c (pTag a.req.pkt)).release c := by
    unfold State.passEnd
    rw [active]
    rfl
  have abort := off.passAbort a
  have plain : a.faulted = false → s.passAbort c a = s := fun none => if_neg (by rw [none]; decide)
  rw [steps]
  generalize s.passAbort c a = u at *
  have counted := passCount_counted u c (pTag a.req.pkt)
  generalize u.passCount c (pTag a.req.pkt) = v at *
  have released := release_releases v c
  generalize v.release c = t at *
  have regs : t.regs = v.regs := by rw [released.rest]
  have engs : t.engs = u.engs := by rw [released.rest, counted.rest]
  have reports : t.reports = v.reports := by rw [released.rest]
  have mask : t.pendMask = v.pendMask := by rw [released.rest]
  have bdies : v.bdies = s.bdies := by rw [counted.rest, abort.rest]
  have bd (k : Nat) : v.bd k = s.bd k := by unfold State.bd; rw [bdies]
  have eng (b : Nat) : t.eng b = u.eng b := by unfold State.eng; rw [engs]
  have words : WordsBut s t (endWords c) := ((WordsBut.of_regs (by rw [abort.rest]) _).trans counted.words).trans (.of_regs regs _)
  refine ⟨⟨?_, (abort.others.trans counted.others).trans released.others, by rw [released.cc], by rw [released.cc, counted.panic], ?_, words, ?_,
    fun b hb => (eng b).trans (abort.engs b hb), fun k hk => (released.bds k hk).trans (bd k), by rw [released.dests, bd], by rw [released.arrived, bd]⟩,
    fun whole => engs.trans (by rw [plain whole])⟩
  · exact released.rest.trans (by rw [regs, mask, engs, reports, counted.rest, abort.rest])
  · rw [released.cc, counted.pim, abort.cc]
  · rw [State.rd_of_word (WordsBut.of_regs regs [] _ (by simp)), counted.passes]
    exact congrArg (fun n => (n + 1) % _) (State.rd_of_word (WordsBut.of_regs (by rw [abort.rest]) [] _ (by simp)))

end Sys2Proof.Machine
end

section
/-! UNLOCK_RETRY, EXIT_PASS and rejected instructions at their CC (R140, R145, R147, R148). -/

namespace Sys2Proof.Machine

/-! ### UNLOCK_RETRY and EXIT_PASS -/

section
variable {s : State} {c : Nat} {a : Active} (active : (s.cc c).active = some a) (retried : (s.cc c).retried = true)
include active retried

theorem unlockRetry_succeeds : unlockRetry c true s =
    ((s.unlock c true).setCc c { (s.unlock c true).cc c with retried := false, active := some { a with unlocked := true } }).panicCheck c := by
  unfold unlockRetry
  rw [active, retried]
  rfl

theorem unlockRetry_fails (calm : ((s.unlock c false).cc c).panic = false) :
    unlockRetry c false s = (((s.unlock c false).emit (ccSrc c) 0x0542 [pTag a.req.pkt]).release c).reject c a.req 8 := by
  have calm' : (((s.unlock c false).emit (ccSrc c) 0x0542 [pTag a.req.pkt]).cc c).panic = false := calm
  unfold unlockRetry
  dsimp only
  rw [active, retried]
  dsimp only
  rw [calm']
  rfl

end

/-- Panic rises where it did not stand and the command buffer is below PANIC_LWM. -/
theorem panicCheck_rises {s : State} {c : Nat} {a : Active} (active : (s.cc c).active = some a) (calm : (s.cc c).panic = false) :
    s.panicCheck c = if a.buffered < s.rd (ccB c) CC_SCHED_CTRL_PANIC_LWM then s.setCc c { s.cc c with panic := true, panicAt := s.tsc, yields := 0 } else s := by
  unfold State.panicCheck
  dsimp only
  rw [active]
  dsimp only
  rw [calm]
  by_cases low : a.buffered < s.rd (ccB c) CC_SCHED_CTRL_PANIC_LWM
  · rw [if_pos low, if_pos (by simpa using low)]
  · rw [if_neg low, if_neg (by simpa using low), if_neg (by simp)]

/-- The EXIT of EXIT_PASS, where the channel is in PIM mode. -/
def State.passExit (s : State) (c : Nat) (a : Active) : State := if (s.cc c).pim then (s.refreshFirst c).issue c a .exit else s

/-- Refreshes go first, then the engines of the channel lose their state and PIM mode ends (R147). -/
structure PassExited (c : Nat) (s t : State) : Prop where
  rest    : t = { s with regs := t.regs, ccs := t.ccs, engs := t.engs }
  others  : OtherCcs s t c
  active  : (t.cc c).active = (s.cc c).active
  panic   : (t.cc c).panic = (s.cc c).panic
  pim     : (t.cc c).pim = false
  words   : WordsBut s t [ccB c + CC_STATUS_SID_PD.off]
  engs    : ∀ b, t.eng b = if (s.cc c).pim = true ∧ b / 128 = c ∧ s.engOff c (b % 128 / 64) (b % 64) = false then EngSt.blank else s.eng b

theorem Refreshed.engOff {c : Nat} {s t : State} (h : Refreshed c s t) {g : Nat} (hg : g < 2) (p : Nat) : t.engOff c g p = s.engOff c g p := by
  unfold State.engOff
  rw [h.retired, h.words.rd]
  simp only [cardB, ccB, FP_ENGOFF_OFF, CC_STATUS_SID_PD, Fld.at, List.mem_singleton]
  omega

theorem Untraced.passExit {s : State} {c : Nat} (off : Untraced s c) (calm : (s.cc c).panic = false) (a : Active) : PassExited c s (s.passExit c a) := by
  unfold State.passExit
  cases pim : (s.cc c).pim with
  | false => exact ⟨rfl, .refl s c, rfl, rfl, pim, .refl s _, fun b => (if_neg fun h => absurd (pim.symm.trans h.1) (by decide)).symm⟩
  | true =>
    have first := off.refreshFirst
    have exits : (s.refreshFirst c).issue c a .exit = (s.refreshFirst c).opExit c := by
      unfold State.issue
      dsimp only
      rw [(first.untraced off).bankCmd_calm (by rw [first.cc.rest]; exact calm)]
      rfl
    rw [if_pos rfl, exits]
    generalize s.refreshFirst c = u at *
    obtain ⟨rest, others, cc, engs⟩ := opExit_exits u c
    generalize u.opExit c = t at *
    have regs : t.regs = u.regs := by rw [rest]
    have engU (b : Nat) : u.eng b = s.eng b := by rw [first.rest]; rfl
    refine ⟨rest.trans (by rw [regs, first.rest]), first.others.trans others, by rw [cc, first.cc.rest], by rw [cc, first.cc.rest], by rw [cc], first.words.trans (.of_regs regs _), fun b => ?_⟩
    rw [engs, first.engOff (by omega), engU]
    simp only [pim, true_and]

theorem exitPass_exits {s : State} {c : Nat} {a : Active} (active : (s.cc c).active = some a) (own : pKind a.req.pkt = 5) :
    exitPass c s = ((s.passExit c a).setTodo c []).passEnd c := by
  have next : (s.cc c).next = some a.req := by rw [CcSt.next, active]
  unfold exitPass
  rw [next]
  dsimp only
  rw [if_pos own]
  simp only [active, Option.isNone_some, Bool.false_eq_true, false_and, if_false, State.passExit]

/-- Settles O18: a rejection takes the head off the queue (`reject_rejected`), the repeated unlock enters PIM mode or rejects the pass, and EXIT ends it (`opExit_exits`, `passEnd_ends`). -/
theorem rejectedPassesUnlockRetryAndExit : Obligations.RejectedPassesUnlockRetryAndExit := by
  unfold Obligations.RejectedPassesUnlockRetryAndExit
  refine ⟨fun c ok kind cmd s r rest listed idle queue own fails => ?rejects, fun c s a active retried calm off level shut well => ?succeeds,
    fun c s a active retried calm off level shut => ?fails, fun c s a active own calm whole off => ?exits⟩
  case rejects =>
    refine ⟨s.rejectHead c, passCommand_rejects listed idle queue own fails, ?_⟩
    rw [rejectHead_rejects queue]
    have queueK := congrArg CcSt.queue (CcSt.pull_eq { s.cc c with queue := rest })
    have activeK := congrArg CcSt.active (CcSt.pull_eq { s.cc c with queue := rest })
    generalize CcSt.pull { s.cc c with queue := rest } = k at *
    have set := OtherCcs.setCc s c k
    have cc := s.setCc_cc c k
    have restU : s.setCc c k = { s with ccs := (s.setCc c k).ccs } := rfl
    generalize s.setCc c k = u at *
    obtain ⟨restT, words, tag, reason, valid, standIn⟩ := reject_rejected u c r (passCheck_lt r.pkt)
    generalize u.reject c r (passCheck r.pkt) = t at *
    have ccsT : t.ccs = u.ccs := by rw [restT]
    have ccs := cc_of_ccs ccsT
    refine ⟨?_, fun d hd => (ccs d).trans (set d hd), by rw [ccs, cc, activeK]; exact idle, by rw [ccs, cc, queueK], ?_, tag, reason, valid, standIn.of_bdies (by rw [restU])⟩
    · exact restT.trans (by rw [ccsT, restU]; rfl)
    · exact (WordsBut.of_regs (by rw [restU]) _).trans words
  case succeeds =>
    have first := refreshFirst_none level fun b active' => by rw [active] at active'; exact Option.some.inj active' ▸ shut
    obtain ⟨u, restU, othersU, ccU, unlocked⟩ := off.unlock calm first true
    rw [if_pos rfl] at unlocked
    have offU (i : Nat) : u.engOff c (i / 64) (i % 64) = s.engOff c (i / 64) (i % 64) := by rw [restU]; rfl
    have engU (b : Nat) : u.eng b = s.eng b := by rw [restU]; rfl
    have entered := opEnter_enters (s := u) (c := c) fun i hi off' => by rw [engU]; exact well i hi ((offU i).symm.trans off')
    have retry := unlockRetry_succeeds active retried
    rw [unlocked] at retry
    obtain ⟨restV, othersV, ccV, each⟩ := entered
    generalize u.opEnter c = v at *
    have afterU (x : Option Active) : { v.cc c with retried := false, active := x } = { s.cc c with rows := [], pim := true, retried := false, active := x } := by rw [ccV, ccU]
    rw [afterU] at retry
    generalize hw : v.setCc c { s.cc c with rows := [], pim := true, retried := false, active := some { a with unlocked := true } } = w at *
    have restW : w = { s with ccs := w.ccs, engs := w.engs } := by rw [← hw, restV, restU]; rfl
    have othersW : OtherCcs s w c := by rw [← hw]; exact (othersU.trans othersV).trans (.setCc v c _)
    have ccW : w.cc c = { s.cc c with rows := [], pim := true, retried := false, active := some { a with unlocked := true } } := by rw [← hw, State.setCc_cc]
    have engW (b : Nat) : w.eng b = v.eng b := by rw [← hw]; rfl
    have limit : w.rd (ccB c) CC_SCHED_CTRL_PANIC_LWM = s.rd (ccB c) CC_SCHED_CTRL_PANIC_LWM := by rw [restW]; rfl
    have tsc : w.tsc = s.tsc := by rw [restW]
    rw [panicCheck_rises (by rw [ccW]) (by rw [ccW]; exact calm), limit] at retry
    refine ⟨unlockRetry c true s, rfl, ?_⟩
    rw [retry]
    have eng (b : Nat) : w.eng b = if b / 128 = c.val ∧ s.engOff c (b % 128 / 64) (b % 64) = false ∧ (s.eng b).st = .idle then (s.eng b).enter else s.eng b := by
      rw [engW, each, engU, restU]; rfl
    have same : ({ a with unlocked := true } : Active).buffered = a.buffered := rfl
    rw [same]
    by_cases low : a.buffered < s.rd (ccB c) CC_SCHED_CTRL_PANIC_LWM
    · rw [if_pos low, tsc, ccW, decide_eq_true low]
      exact ⟨by rw [restW]; rfl, othersW.trans (.setCc w c _), State.setCc_cc w c _, eng⟩
    · rw [if_neg low, decide_eq_false low]
      exact ⟨restW, othersW, by rw [ccW]; simp [calm], eng⟩
  case fails =>
    have first := refreshFirst_none level fun b active' => by rw [active] at active'; exact Option.some.inj active' ▸ shut
    obtain ⟨u, restU, othersU, ccU, unlocked⟩ := off.unlock calm first false
    rw [if_neg (by decide)] at unlocked
    have retry := unlockRetry_fails active retried (by rw [unlocked, ccU]; exact calm)
    rw [unlocked] at retry
    have released := release_releases (u.emit (ccSrc c) 0x0542 [pTag a.req.pkt]) c
    generalize (u.emit (ccSrc c) 0x0542 [pTag a.req.pkt]).release c = v at *
    have regsV : v.regs = s.regs := by rw [released.rest, restU]; rfl
    have reportsV : v.reports = s.reports ++ [s.report (ccSrc c) 0x0542 [pTag a.req.pkt]] := by rw [released.rest, restU]; rfl
    obtain ⟨restT, words, tag, reason, valid, -⟩ := reject_rejected v c a.req (reason := 8) (by decide)
    refine ⟨unlockRetry c false s, rfl, ?_⟩
    rw [retry]
    generalize v.reject c a.req 8 = t at *
    have ccsT : t.ccs = v.ccs := by rw [restT]
    have othersV : OtherCcs s v c := fun d hd => (released.others d hd).trans (othersU d hd)
    have report : v.report (ccSrc c) 0x0541 [pTag a.req.pkt, 8] = s.report (ccSrc c) 0x0541 [pTag a.req.pkt, 8] := by rw [released.rest, restU]; rfl
    have ccV : v.cc c = { s.cc c with rows := [], active := none, retried := false } := by
      rw [released.cc]
      exact congrArg (fun k : CcSt => { k with active := none, retried := false }) ccU
    refine ⟨?_, fun d hd => (cc_of_ccs ccsT d).trans (othersV d hd), by rw [cc_of_ccs ccsT, ccV], by rw [cc_of_ccs ccsT, ccV], reason, valid, tag,
      (WordsBut.of_regs regsV _).trans words⟩
    exact restT.trans (by rw [ccsT, reportsV, report, List.append_assoc]; rw [released.rest, restU]; rfl)
  case exits =>
    refine ⟨exitPass c s, rfl, ?_⟩
    rw [exitPass_exits active own]
    obtain ⟨rest, others, activeU, panicU, pimU, words, engs⟩ := off.passExit calm a
    have offU : Untraced (s.passExit c a) c := off.of_wordsBut words (trace_word_ne_status c)
    generalize s.passExit c a = u at *
    have set := OtherCcs.setCc u c { u.cc c with active := some { a with todo := [] } }
    have cc := u.setCc_cc c { u.cc c with active := some { a with todo := [] } }
    have restV : u.setTodo c [] = { u with ccs := (u.setTodo c []).ccs } := rfl
    have steps : u.setTodo c [] = u.setCc c { u.cc c with active := some { a with todo := [] } } := by
      unfold State.setTodo
      rw [activeU, active]
      rfl
    rw [← steps] at set cc
    generalize u.setTodo c [] = v at *
    have regsV : v.regs = u.regs := by rw [restV]
    have engV (b : Nat) : v.eng b = u.eng b := by rw [restV]; rfl
    obtain ⟨ended, free⟩ := passEnd_ends (a := { a with todo := [] }) (offU.of_regs regsV) (by rw [cc])
    have final := free whole
    generalize v.passEnd c = t at *
    have eng (b : Nat) : t.eng b = v.eng b := by unfold State.eng; rw [final]
    have passes : v.rd (ccB c) CC_BSEQ_PASSES_COUNT = s.rd (ccB c) CC_BSEQ_PASSES_COUNT :=
      (words.trans (.of_regs regsV _)).rd (by simp [CC_STATUS_SID_PD, CC_BSEQ_PASSES_COUNT])
    exact ⟨ended.rest.trans (by rw [restV, rest]), (others.trans set).trans ended.others, ended.active, by rw [ended.pim, cc]; exact pimU,
      by rw [ended.passes, passes], fun b => by rw [eng, engV, engs]⟩

end Sys2Proof.Machine
end

section
/-! A row period of a CC that has taken a request of another channel. -/

namespace Sys2Proof.Machine

/-- A COPY_PASS of one row and one engine, with MOP 3. -/
def copyPacket : Pkt := BitVec.ofNat 512 (4 + 2 ^ 64 + 2 ^ 141 + 3 * 2 ^ 256)

/-- Its pass, unlocked and in a gap, whose next row period opens row 0 of group 0. -/
def gapPass : Active := { Active.start ⟨0, copyPacket⟩ 0 with unlocked := true, todo := [.acta 0, .prea], gap := true }

/-- A read of a line of channel 1, in a bank of group 0. -/
def strayRead : Req := ⟨⟨.tile, 0⟩, 2 ^ 31, none, 0, .plain⟩

/-- CC 0 holds that read while its pass is in a gap, and CC 1 records a failed burst of the line. -/
def strayed : State :=
  (State.reset.setCc 0 { CcSt.init with active := some gapPass, pim := true, pool := [strayRead] }).setCc 1
    { CcSt.init with lost := [(burstNo strayRead.key false, true)] }

/-- The gap serves the read, and the end of its burst clears the record of CC 1. -/
theorem strayed_clears_lost : ((rowPeriodStart 0 none [] strayed).onward.cc 1).lost ≠ (strayed.cc 1).lost := by decide +kernel

theorem strayed_settled : Settled strayed := by unfold Settled; decide +kernel

theorem strayed_active : (strayed.cc 0).active = some gapPass := by decide +kernel
theorem strayed_ready : strayed.rowReady 0 gapPass = true := by decide +kernel
theorem strayed_untraced : Untraced strayed 0 := by unfold Untraced; decide +kernel

/-- Refutes O20: without `Homed` CC 0 may hold a request of channel 1 in a bank of the computing group; the gap of the row period serves it, and the end of its burst changes CC 1, against the claim that every other CC stays. -/
theorem not_rowPeriodRunsAndCloses : ¬ Obligations.RowPeriodRunsAndCloses := by
  unfold Obligations.RowPeriodRunsAndCloses
  rintro ⟨runs, -⟩
  obtain ⟨whole, -⟩ := runs 0 none strayed gapPass [.acta 0, .prea] [] strayed_active rfl rfl (by decide) (by simp [PCmd.isActa]) strayed_ready (by decide) (by decide) strayed_untraced
  obtain ⟨t, goes, x, ⟨rest, -, others, -⟩, -⟩ := whole fun n split => nomatch split
  have settled : Settled t := by rw [rest]; exact strayed_settled
  rw [settled.onward] at goes
  have ends : (rowPeriodStart 0 none [] strayed).onward = t := Host.Outcome.next.inj goes
  exact strayed_clears_lost (by rw [ends, others 1 (by decide)])

end Sys2Proof.Machine
end

section
/-! Pass instructions at their CC, and the claim of a pass group: accepted writes are performed and rows closed (R82, R138, R140, R441). -/

namespace Sys2Proof.Machine

/-! ### Serving pooled requests on sound lines -/

/-- From `k` to `k'` a CC may have served requests: its pool, the data that wait, its rows, its counts and its maintenance change. -/
def CcSt.Drawn (k k' : CcSt) : Prop :=
  k' = { k with
    pool := k'.pool, landed := k'.landed, rows := k'.rows, hits := k'.hits, dist := k'.dist, maint := k'.maint, waiting := k'.waiting, nextId := k'.nextId
    replays := k'.replays, lost := k'.lost }

theorem CcSt.Drawn.trans {k l m : CcSt} (h : k.Drawn l) (g : l.Drawn m) : k.Drawn m := Eq.trans g (by rw [h])

/-- From `s` to `t` CC `c` has performed the request `r`: it left the pool, its bytes are stored, and no burst failed. -/
structure ReqServed (c : Nat) (r : Req) (s t : State) : Prop extends CcFrame c s t where
  molt      : t.molt = s.molt
  free      : t.free = s.free
  words     : WordsBut s t [ccB c + CC_ERR_FLAGS_RD_ESC.off]
  reports   : s.reports <+: t.reports
  out       : s.out <+: t.out
  cc        : (s.cc c).Drawn (t.cc c)
  pool      : (t.cc c).pool = (s.cc c).pool.erase r
  otherRows : ∀ b, b ≠ keyBank r.key → (t.cc c).openRow b = (s.cc c).openRow b
  lost      : ∀ n, look noMark (s.cc c).lost n = false → look noMark (t.cc c).lost n = false
  halves    : ∀ u, t.mem.store.half u = r.stores s u (s.mem.store.half u)
  errs      : ∀ u, t.mem.err u = s.mem.err u

theorem Delivered.out_grows {s t : State} {c : Nat} {r : Req} {d : Cell64} (h : Delivered s t c r d) : s.out <+: t.out := by
  unfold Delivered at h
  dsimp only at h
  split at h <;> rw [h.1]
  all_goals exact List.prefix_append _ _

/-- The bytes of a request that writes nothing to storage. -/
theorem Req.stores_none {s : State} {r : Req} (h : r.write = none ∨ (r.who.port = .host ∧ s.hostCut r.key = true)) (u : Nat) (old : Half) : r.stores s u old = old := by
  unfold Req.stores
  split
  · rfl
  · next w hw =>
    rcases h with none | cut
    · rw [none] at hw; cases hw
    · exact if_pos cut

theorem Req.stores_some {s : State} {r : Req} {w : WriteData} (h : r.write = some w) (uncut : ¬ (r.who.port = .host ∧ s.hostCut r.key = true)) (u : Nat) (old : Half) :
    r.stores s u old = if u = r.key / 32 then halfAfter old w.data.lo (w.mask.toNat % 2 ^ 32) else if u = r.key / 32 + 1 then halfAfter old w.data.hi (w.mask.toNat / 2 ^ 32) else old := by
  unfold Req.stores
  rw [h]
  exact if_neg uncut

theorem serve_cut {s : State} {c : Nat} {r : Req} (cut : r.who.port = .host ∧ s.hostCut r.key = true) :
    s.serve c r = if r.write.isSome then s.setCc c ((s.cc c).remove r) else (s.setCc c ((s.cc c).remove r)).answerReq r .bad := if_pos cut

/-- A request that reaches its storage opens its row, then runs its burst. -/
theorem Untraced.serve {s : State} {c : Nat} {r : Req} (off : Untraced s c) (uncut : ¬ (r.who.port = .host ∧ s.hostCut r.key = true)) :
    ∃ u, RowOpened c (keyBank r.key) (keyRow r.key) (s.setCc c ((s.cc c).remove r)) u ∧
      (∀ w, r.write = some w → s.serve c r = u.writeBurst r.key w) ∧ (r.write = none → s.serve c r = u.answerRead64 r) := by
  have opened := (show Untraced (s.setCc c ((s.cc c).remove r)) c from off).openFor (keyBank r.key) (keyRow r.key)
  have off' := (show Untraced (s.setCc c ((s.cc c).remove r)) c from off).of_opened opened
  refine ⟨_, opened, ?_⟩
  unfold State.serve
  dsimp only
  rw [if_neg (show ¬ (r.who.port = .host ∧ (s.setCc c ((s.cc c).remove r)).hostCut r.key = true) from uncut), off'.trace, ite_self, off'.trace]
  exact ⟨fun w hw => by rw [hw], fun hw => by rw [hw]⟩

/-- A record of a failed burst is used up. -/
theorem look_lost_cleared {l : SMap Bool} (n m : Nat) (h : look noMark l m = false) : look noMark (put noMark l n false) m = false := by
  rw [look_put]
  split
  · rfl
  · exact h

/-- The bursts of a write that are performed fail no other. -/
theorem writeBurst_lost {s : State} {key : Nat} {w : WriteData} (h : Sound s key) (kept : Kept s key true) (readKept : w.rmw = true → Kept s key false) :
    ∀ n, look noMark (s.cc (keyChan key)).lost n = false → look noMark ((s.writeBurst key w).cc (keyChan key)).lost n = false := by
  have written : s.burstLost key true = false := kept
  have mixed : (w.rmw && s.burstLost key false) = false := by
    cases hw : w.rmw with
    | false => rfl
    | true => exact readKept hw
  intro n hn
  obtain ⟨rest, -, cc⟩ := supersede_superseded s key w
  rw [State.writeBurst, written, if_neg Bool.false_ne_true, mixed, if_neg Bool.false_ne_true, State.write64]
  generalize s.supersede key w = s1 at *
  have mem1 : s1.mem = s.mem := by rw [rest]
  have lo1 : s1.mem.err (key / 32) = 0 := by rw [mem1]; exact h.1
  have hi1 : (s1.mem.writeMasked (key / 32) (w.part 0) w.data.lo).err (key / 32 + 1) = 0 := by rw [Mem.err_writeMasked lo1, mem1]; exact h.2
  rw [writePart_sound lo1, writePart_sound hi1, burstEnd_cc]
  refine look_lost_cleared _ n ?_
  change look noMark (s1.cc (keyChan key)).lost n = false
  rw [cc]
  exact hn

theorem Kept.of_lost {s t : State} {key : Nat} {write : Bool} (h : Kept s key write) (lost : (t.cc (keyChan key)).lost = (s.cc (keyChan key)).lost) : Kept t key write := by
  unfold Kept at h ⊢
  rwa [lost]

section
variable {s u : State} {c : Nat} {r : Req}

/-- A request that leaves the pool without reaching storage. -/
theorem cut_served (cut : r.who.port = .host ∧ s.hostCut r.key = true) (chan : keyChan r.key = c) : ReqServed c r s (s.serve c r) := by
  have halves := Req.stores_none (s := s) (r := r) (.inr cut)
  have set : ReqServed c r s (s.setCc c ((s.cc c).remove r)) :=
    ⟨.setCc c s _, rfl, rfl, .of_regs rfl _, List.prefix_refl _, List.prefix_refl _, by rw [State.setCc_cc]; rfl, by rw [State.setCc_cc]; rfl, fun b _ => by rw [State.setCc_cc]; rfl,
      fun n hn => by rw [State.setCc_cc]; exact hn, fun u => (halves u _).symm, fun _ => rfl⟩
  rw [serve_cut cut]
  split
  · exact set
  · obtain ⟨rest, others, cc, delivered⟩ := answerReq_answered (s.setCc c ((s.cc c).remove r)) .bad chan
    generalize s.setCc c ((s.cc c).remove r) = v at *
    generalize v.answerReq r .bad = t at *
    have mem : t.mem = v.mem := by rw [rest]
    refine ⟨set.toCcFrame.trans ⟨by rw [rest], others⟩, ?_, ?_, set.words.trans (.of_regs (by rw [rest]) _), ?_, set.out.trans delivered.out_grows, set.cc.trans (by rw [cc]; rfl), by rw [cc, set.pool],
      fun b hb => by rw [cc]; exact set.otherRows b hb, fun n hn => by rw [cc]; exact set.lost n hn, fun u => by rw [mem, set.halves], fun u => by rw [mem, set.errs]⟩
    · rw [rest]; exact set.molt
    · rw [rest]; exact set.free
    · rw [rest]; exact set.reports

end

theorem serve_served {s : State} {c : Nat} {r : Req} (off : Untraced s c) (chan : keyChan r.key = c) (line : r.key % 64 = 0) (sound : Sound s r.key) (runs : r.runs s) :
    ReqServed c r s (s.serve c r) := by
  by_cases cut : r.who.port = .host ∧ s.hostCut r.key = true
  · exact cut_served cut chan
  obtain ⟨v, opened, writes, reads⟩ := off.serve cut
  have cc0 := s.setCc_cc c ((s.cc c).remove r)
  have first := CcFrame.setCc c s ((s.cc c).remove r)
  have drawn : (s.cc c).Drawn ((s.cc c).remove r) := rfl
  have pool0 : ((s.cc c).remove r).pool = (s.cc c).pool.erase r := rfl
  have rows0 : ((s.cc c).remove r).rows = (s.cc c).rows := rfl
  have lost0 : ((s.cc c).remove r).lost = (s.cc c).lost := rfl
  have words0 : (s.setCc c ((s.cc c).remove r)).regs = s.regs := rfl
  have same : (s.setCc c ((s.cc c).remove r)).mem = s.mem ∧ (s.setCc c ((s.cc c).remove r)).molt = s.molt ∧ (s.setCc c ((s.cc c).remove r)).free = s.free ∧
    (s.setCc c ((s.cc c).remove r)).out = s.out ∧ (s.setCc c ((s.cc c).remove r)).reports = s.reports := ⟨rfl, rfl, rfl, rfl, rfl⟩
  generalize (s.cc c).remove r = k at *
  generalize s.setCc c k = v0 at *
  obtain ⟨mem0, molt0, free0, out0, reports0⟩ := same
  obtain ⟨work, moltV, wordsV, ccV, -, rowsV, -⟩ := opened
  rw [cc0] at ccV rowsV
  have memV : v.mem = s.mem := work.mem.trans mem0
  have drawnV : (s.cc c).Drawn (v.cc c) := drawn.trans (by rw [ccV]; rfl)
  have poolV : (v.cc c).pool = (s.cc c).pool.erase r := by rw [ccV]; exact pool0
  have lostV : (v.cc c).lost = (s.cc c).lost := by rw [ccV]; exact lost0
  have frameV := first.trans work.toCcFrame
  have soundV : Sound v r.key := by unfold Sound; rw [memV]; exact sound
  have keptV (write : Bool) (kept : Kept s r.key write) : Kept v r.key write := kept.of_lost (by rw [chan]; exact lostV)
  have outV : v.out = s.out := work.out.trans out0
  have reportsV : s.reports <+: v.reports := reports0 ▸ work.reports
  have wordsV' : WordsBut s v [ccB c + CC_ERR_FLAGS_RD_ESC.off] := (WordsBut.of_regs words0 _).trans wordsV
  have rows (b : Nat) (hb : b ≠ keyBank r.key) : (v.cc c).openRow b = (s.cc c).openRow b := by rw [rowsV b hb, CcSt.openRow, rows0]; rfl
  unfold Req.runs at runs
  cases hw : r.write with
  | none =>
    rw [hw] at runs
    rw [reads hw]
    have ended := burstEnd_cc v r.key false
    have endFrame := burstEnd_frame v chan false
    have halves := Req.stores_none (s := s) (r := r) (.inl hw)
    obtain ⟨restT, othersT, ccT, delivered⟩ := answerRead64_sound chan line soundV (keptV false runs)
    generalize v.answerRead64 r = t at *
    rw [chan] at ended
    rw [ended] at ccT
    have memT : t.mem = s.mem := by rw [restT]; exact memV
    refine ⟨(frameV.trans endFrame).trans ⟨by rw [restT], othersT⟩, ?_, ?_, wordsV'.trans (.of_regs (by rw [restT]; rfl) _), ?_, ?_, drawnV.trans (by rw [ccT]; rfl), by rw [ccT]; exact poolV,
      fun b hb => by rw [ccT]; exact rows b hb, fun n hn => ?_, fun u => by rw [memT, halves], fun u => by rw [memT]⟩
    · rw [restT]; exact moltV.trans molt0
    · rw [restT]; exact work.free.trans free0
    · rw [restT]; exact reportsV
    · rw [← outV]; exact delivered.out_grows
    · rw [ccT]; exact look_lost_cleared _ n (by rw [lostV]; exact hn)
  | some w =>
    rw [hw] at runs
    rw [writes w hw]
    obtain ⟨writeKept, readKept⟩ := runs
    obtain ⟨restT, othersT, ccT⟩ := writeBurst_sound (w := w) soundV (keptV true writeKept) fun mixed => keptV false (readKept mixed)
    have lostT := writeBurst_lost soundV (keptV true writeKept) fun mixed => keptV false (readKept mixed)
    generalize v.writeBurst r.key w = t at *
    rw [chan] at othersT ccT lostT
    have memT : t.mem = s.mem.writeLine r.key w := by rw [restT, memV]
    obtain ⟨lower, upper, rest, errs⟩ := Mem.writeLine_columns (m := s.mem) w sound.1 sound.2
    refine ⟨frameV.trans ⟨by rw [restT], othersT⟩, ?_, ?_, wordsV'.trans (.of_regs (by rw [restT]) _), ?_, ?_, drawnV.trans (by rw [ccT]; rfl), by rw [ccT]; exact poolV,
      fun b hb => by rw [ccT]; exact rows b hb, fun n hn => ?_, fun u => ?_, fun u => by rw [memT, errs]⟩
    · rw [restT]; exact moltV.trans molt0
    · rw [restT]; exact work.free.trans free0
    · rw [restT]; exact reportsV
    · rw [restT, outV]
    · exact lostT n (by rw [lostV]; exact hn)
    · rw [memT, Req.stores_some hw cut]
      split
      · next e => rw [e, lower]
      · split
        · next e => rw [e, upper]
        · next h0 h1 => exact rest u h0 h1

/-! ### Flushing a pool -/

theorem ReqServed.hostCut {c : Nat} {r : Req} {s t : State} (h : ReqServed c r s t) (key : Nat) : t.hostCut key = s.hostCut key := by
  unfold State.hostCut
  rw [h.words.flag]
  simp [hostB, FLT_CARD_CARD_FAULT, ccB, CC_ERR_FLAGS_RD_ESC]
  omega

theorem ReqServed.stores {c : Nat} {r q : Req} {s t : State} (h : ReqServed c r s t) (u : Nat) (old : Half) : q.stores t u old = q.stores s u old := by
  unfold Req.stores
  rw [h.hostCut]

theorem ReqServed.kept {c : Nat} {r : Req} {s t : State} (h : ReqServed c r s t) {key : Nat} {write : Bool} (chan : keyChan key = c) (k : Kept s key write) : Kept t key write := by
  unfold Kept at k ⊢
  rw [chan] at k ⊢
  exact h.lost _ k

theorem ReqServed.runs {c : Nat} {r q : Req} {s t : State} (h : ReqServed c r s t) (chan : keyChan q.key = c) (runs : q.runs s) : q.runs t := by
  unfold Req.runs at runs ⊢
  split at runs
  · exact h.kept chan runs
  · exact ⟨h.kept chan runs.1, fun mixed => h.kept chan (runs.2 mixed)⟩

/-- From `s` to `t` CC `c` has performed the requests `l` in order. -/
structure Flushed (c : Nat) (l : List Req) (s t : State) : Prop extends CcFrame c s t where
  molt      : t.molt = s.molt
  free      : t.free = s.free
  words     : WordsBut s t [ccB c + CC_ERR_FLAGS_RD_ESC.off]
  reports   : s.reports <+: t.reports
  out       : s.out <+: t.out
  cc        : (s.cc c).Drawn (t.cc c)
  pool      : (t.cc c).pool = (s.cc c).pool.diff l
  otherRows : ∀ b, (∀ r ∈ l, b ≠ keyBank r.key) → (t.cc c).openRow b = (s.cc c).openRow b
  halves    : ∀ u, t.mem.store.half u = l.foldl (fun h r => r.stores s u h) (s.mem.store.half u)
  errs      : ∀ u, t.mem.err u = s.mem.err u

theorem foldl_serve_flushed {c : Nat} (l : List Req) : ∀ s : State, Untraced s c → (∀ r ∈ l, keyChan r.key = c ∧ r.key % 64 = 0 ∧ Sound s r.key ∧ r.runs s) →
    Flushed c l s (l.foldl (fun s r => s.serve c r) s) := by
  induction l with
  | nil => exact fun s _ _ => ⟨.refl c s, rfl, rfl, .refl s _, List.prefix_refl _, List.prefix_refl _, rfl, rfl, fun _ _ => rfl, fun _ => rfl, fun _ => rfl⟩
  | cons r l ih =>
    intro s off fit
    obtain ⟨chan, line, sound, runs⟩ := fit r List.mem_cons_self
    have first := serve_served off chan line sound runs
    have rest := ih (s.serve c r) (off.of_wordsBut first.words (by simp [CC_TRACE_CTRL_ENABLE, CC_ERR_FLAGS_RD_ESC])) fun q hq => by
      obtain ⟨chanQ, lineQ, soundQ, runsQ⟩ := fit q (List.mem_cons_of_mem r hq)
      exact ⟨chanQ, lineQ, ⟨(first.errs _).trans soundQ.1, (first.errs _).trans soundQ.2⟩, first.runs chanQ runsQ⟩
    rw [List.foldl_cons]
    generalize s.serve c r = u at *
    have stores (q : Req) (w : Nat) (h : Half) := first.stores (q := q) w h
    refine ⟨first.toCcFrame.trans rest.toCcFrame, rest.molt.trans first.molt, rest.free.trans first.free, first.words.trans rest.words, first.reports.trans rest.reports,
      first.out.trans rest.out, first.cc.trans rest.cc, by rw [rest.pool, first.pool, List.diff_cons], fun b hb => ?_, fun w => ?_, fun w => (rest.errs w).trans (first.errs w)⟩
    · rw [rest.otherRows b fun q hq => hb q (List.mem_cons_of_mem r hq), first.otherRows b (hb r List.mem_cons_self)]
    · rw [rest.halves, first.halves, List.foldl_cons]
      simp only [stores]

/-- Requests that store nothing may be left out of a run of stores. -/
theorem foldl_stores_filter {s : State} {u : Nat} (p q : Req → Bool) (sub : ∀ r, p r = true → q r = true) (idle : ∀ r, q r = true → p r = false → r.write = none) (l : List Req) (h : Half) :
    (l.filter p).foldl (fun h r => r.stores s u h) h = (l.filter q).foldl (fun h r => r.stores s u h) h := by
  induction l generalizing h with
  | nil => rfl
  | cons r l ih =>
    cases hp : p r with
    | true => rw [List.filter_cons_of_pos hp, List.filter_cons_of_pos (sub r hp), List.foldl_cons, List.foldl_cons, ih]
    | false =>
      rw [List.filter_cons_of_neg (by rw [hp]; decide), ih]
      cases hq : q r with
      | true => rw [List.filter_cons_of_pos hq, List.foldl_cons, Req.stores_none (.inl (idle r hq hp))]
      | false => rw [List.filter_cons_of_neg (by rw [hq]; decide)]

/-- What is taken from a list by a choice: none of the chosen stays, and every other element does. -/
theorem mem_diff_filter {α : Type} [DecidableEq α] (p : α → Bool) (l : List α) (x : α) : x ∈ l.diff (l.filter p) ↔ x ∈ l ∧ p x = false := by
  rw [← List.count_pos_iff, List.count_diff]
  cases hp : p x with
  | true => rw [List.count_filter hp]; simp
  | false =>
    have none : (l.filter p).count x = 0 := List.count_eq_zero.mpr fun h => by rw [List.mem_filter, hp] at h; exact absurd h.2 (by decide)
    rw [none, Nat.sub_zero, List.count_pos_iff]
    simp

/-! ### The claim -/

/-- Every row of a group is closed, and nothing else has changed. -/
structure GroupClosed (c g : Nat) (s t : State) : Prop where
  rest      : t = { s with ccs := t.ccs }
  others    : OtherCcs s t c
  cc        : t.cc c = { s.cc c with rows := (t.cc c).rows }
  shut      : ∀ b, b / 64 = g → (t.cc c).openRow b = none
  otherRows : ∀ b, b / 64 ≠ g → (t.cc c).openRow b = (s.cc c).openRow b

theorem Untraced.closeGroup {s : State} {c : Nat} (off : Untraced s c) (g : Nat) : GroupClosed c g s (upto 64 (fun i (s : State) => s.closeRow c (64 * g + i)) s) := by
  have loop : ∀ n ≤ 64, ∃ t, t = upto n (fun i (s : State) => s.closeRow c (64 * g + i)) s ∧ t = { s with ccs := t.ccs } ∧ OtherCcs s t c ∧ t.cc c = { s.cc c with rows := (t.cc c).rows } ∧
      (∀ i < n, (t.cc c).openRow (64 * g + i) = none) ∧ ∀ b, b / 64 ≠ g → (t.cc c).openRow b = (s.cc c).openRow b := by
    intro n hn
    induction n with
    | zero => exact ⟨s, rfl, rfl, .refl s c, rfl, fun i hi => absurd hi (Nat.not_lt_zero i), fun _ _ => rfl⟩
    | succ n ih =>
      obtain ⟨u, hu, rest, others, cc, shut, rows⟩ := ih (by omega)
      rw [upto_succ, ← hu]
      have closed := (show Untraced u c from off.of_regs (by rw [rest])).closeRow (64 * g + n)
      generalize u.closeRow c (64 * g + n) = t at *
      refine ⟨t, rfl, closed.rest.trans (by rw [rest]), others.trans closed.others, by rw [closed.cc, cc], fun i hi => ?_, fun b hb => ?_⟩
      · by_cases e : i = n
        · rw [e, closed.openRow]
        · rw [closed.otherRows _ (by omega), shut i (by omega)]
      · rw [closed.otherRows b (by omega), rows b hb]
  obtain ⟨t, ht, rest, others, cc, shut, rows⟩ := loop 64 (Nat.le_refl 64)
  rw [← ht]
  exact ⟨rest, others, cc, fun b hb => by have := shut (b % 64) (Nat.mod_lt _ (by decide)); rwa [show 64 * g + b % 64 = b by omega] at this, rows⟩

/-- The accepted requests that a claim of group `g` performs: writes to its banks, and reads of a written line (R82). -/
def CcSt.flushed (k : CcSt) (g : Nat) (r : Req) : Bool :=
  decide (keyBank r.key / 64 = g) && (r.write.isSome || k.pool.any (fun q => q.write.isSome && decide (q.key = r.key)))

/-- The state in which a claim performs accepted requests: the stack counts as active, and the group's SIDs leave power-down. -/
def State.claiming (s : State) (c g : Nat) : State :=
  let s := s.setBd (c / 32) { s.bd (c / 32) with activeAt := some ((s.bd (c / 32)).activeAt.getD s.tsc) }
  (s.setCc c { s.cc c with claimAt := none }).pdx c (3 * 4 ^ g)

/-- From `s` to `t` the stack of channel `c` counts as active, and SIDs of the channel have left power-down. -/
structure Claiming (c : Nat) (s t : State) : Prop where
  rest   : t = { s with regs := t.regs, ccs := t.ccs, bdies := t.bdies }
  others : OtherCcs s t c
  cc     : t.cc c = { s.cc c with claimAt := none }
  words  : WordsBut s t [ccB c + CC_STATUS_SID_PD.off]
  bds    : ∀ k, k ≠ c / 32 → t.bd k = s.bd k
  bd     : t.bd (c / 32) = { s.bd (c / 32) with activeAt := some ((s.bd (c / 32)).activeAt.getD s.tsc) }

theorem Untraced.claiming {s : State} {c : Nat} (off : Untraced s c) (g : Nat) : Claiming c s (s.claiming c g) := by
  have bdOwn := s.setBd_bd (c / 32) { s.bd (c / 32) with activeAt := some ((s.bd (c / 32)).activeAt.getD s.tsc) }
  have bdOthers (k : Nat) (hk : k ≠ c / 32) := s.setBd_bd_ne (c / 32) k { s.bd (c / 32) with activeAt := some ((s.bd (c / 32)).activeAt.getD s.tsc) } hk
  have set := OtherCcs.setCc s c { s.cc c with claimAt := none }
  unfold State.claiming
  dsimp only
  generalize hu : (s.setBd (c / 32) { s.bd (c / 32) with activeAt := some ((s.bd (c / 32)).activeAt.getD s.tsc) }).setCc c
    { (s.setBd (c / 32) { s.bd (c / 32) with activeAt := some ((s.bd (c / 32)).activeAt.getD s.tsc) }).cc c with claimAt := none } = u
  have restU : u = { s with ccs := u.ccs, bdies := u.bdies } := by rw [← hu]; rfl
  have ccU : u.cc c = { s.cc c with claimAt := none } := by rw [← hu, State.setCc_cc]; rfl
  have othersU : OtherCcs s u c := by rw [← hu]; exact .setCc (s.setBd _ _) c _
  obtain ⟨rest, words⟩ := ((show Untraced u c from off.of_regs (by rw [restU])).pdx (3 * 4 ^ g)).1
  generalize u.pdx c (3 * 4 ^ g) = t at *
  have ccs : t.ccs = u.ccs := by rw [rest]
  have bdies : t.bdies = u.bdies := by rw [rest]
  have bd (k : Nat) : t.bd k = u.bd k := by unfold State.bd; rw [bdies]
  refine ⟨rest.trans (by rw [ccs, bdies, restU]), fun d hd => (cc_of_ccs ccs d).trans (othersU d hd), (cc_of_ccs ccs c).trans ccU, (WordsBut.of_regs (by rw [restU]) _).trans words, fun k hk => ?_, ?_⟩
  · rw [bd, ← hu]; exact bdOthers k hk
  · rw [bd, ← hu]; exact bdOwn

/-- The group is the claim's: its stack is active, its accepted requests are performed and its rows closed. -/
def State.groupCleared (s : State) (c g : Nat) : State :=
  upto 64 (fun i (s : State) => s.closeRow c (64 * g + i)) ((s.claiming c g).flushPool c ((s.cc c).flushed g))

/-- From `s` to `t` a claim of group `g` has performed the accepted requests `l` and closed the group's rows. -/
structure GroupCleared (c g : Nat) (l : List Req) (s t : State) : Prop where
  rest      : t = { s with regs := t.regs, ccs := t.ccs, bdies := t.bdies, mem := t.mem, reports := t.reports, out := t.out }
  halves    : ∀ u, t.mem.store.half u = l.foldl (fun h q => q.stores s u h) (s.mem.store.half u)
  errs      : ∀ u, t.mem.err u = s.mem.err u
  reports   : s.reports <+: t.reports
  out       : s.out <+: t.out
  words     : WordsBut s t [ccB c + CC_ERR_FLAGS_RD_ESC.off, ccB c + CC_STATUS_SID_PD.off]
  others    : OtherCcs s t c
  pool      : (t.cc c).pool = (s.cc c).pool.diff l
  claimAt   : (t.cc c).claimAt = none
  ingress   : (t.cc c).ingress = (s.cc c).ingress
  shut      : ∀ b, b / 64 = g → (t.cc c).openRow b = none
  otherRows : ∀ b, b / 64 ≠ g → (t.cc c).openRow b = (s.cc c).openRow b
  bds       : ∀ k, k ≠ c / 32 → t.bd k = s.bd k
  bd        : t.bd (c / 32) = { s.bd (c / 32) with activeAt := some ((s.bd (c / 32)).activeAt.getD s.tsc) }

theorem Untraced.groupCleared {s : State} {c : Nat} (off : Untraced s c) (g : Nat) (homed : Homed s c)
    (sound : ∀ q ∈ (s.cc c).pool, keyBank q.key / 64 = g → Sound s q.key ∧ q.runs s) : GroupCleared c g ((s.cc c).pool.filter ((s.cc c).flushed g)) s (s.groupCleared c g) := by
  obtain ⟨homed, -⟩ := homed
  have claiming := off.claiming g
  have off1 := off.of_wordsBut claiming.words (trace_word_ne_status c)
  unfold State.groupCleared
  generalize s.claiming c g = v at *
  have poolV : (v.cc c).pool = (s.cc c).pool := by rw [claiming.cc]
  have mem : v.mem = s.mem := by rw [claiming.rest]
  have lostV : (v.cc c).lost = (s.cc c).lost := by rw [claiming.cc]
  have keptV {key : Nat} {write : Bool} (chan : keyChan key = c) (kept : Kept s key write) : Kept v key write := kept.of_lost (by rw [chan]; exact lostV)
  have group (q : Req) (hq : q ∈ (s.cc c).pool.filter ((s.cc c).flushed g)) : q ∈ (s.cc c).pool ∧ keyBank q.key / 64 = g := by
    rw [List.mem_filter] at hq
    exact ⟨hq.1, of_decide_eq_true (Bool.and_eq_true_iff.mp hq.2).1⟩
  have flush : v.flushPool c ((s.cc c).flushed g) = ((s.cc c).pool.filter ((s.cc c).flushed g)).foldl (fun s r => s.serve c r) v := by
    unfold State.flushPool; rw [poolV]
  rw [flush]
  generalize (s.cc c).pool.filter ((s.cc c).flushed g) = l at *
  have flushed := foldl_serve_flushed l v off1 fun q hq => by
    obtain ⟨inPool, own⟩ := group q hq
    obtain ⟨-, line, chan⟩ := homed q inPool
    obtain ⟨⟨lo, hi⟩, runs⟩ := sound q inPool own
    refine ⟨chan, line, ⟨by rw [mem]; exact lo, by rw [mem]; exact hi⟩, ?_⟩
    unfold Req.runs at runs ⊢
    split at runs
    · exact keptV chan runs
    · exact ⟨keptV chan runs.1, fun mixed => keptV chan (runs.2 mixed)⟩
  generalize l.foldl (fun s r => s.serve c r) v = u at *
  have off2 : Untraced u c := off1.of_wordsBut flushed.words (by simp [CC_TRACE_CTRL_ENABLE, CC_ERR_FLAGS_RD_ESC])
  have closed := off2.closeGroup g
  generalize upto 64 (fun i (s : State) => s.closeRow c (64 * g + i)) u = t at *
  have frame := flushed.toCcFrame.narrow flushed.molt flushed.free
  have drawn := flushed.cc
  rw [claiming.cc] at drawn
  have memT : t.mem = u.mem := by rw [closed.rest]
  have outT : t.out = u.out := by rw [closed.rest]
  have reportsT : t.reports = u.reports := by rw [closed.rest]
  have regsT : t.regs = u.regs := by rw [closed.rest]
  have bdies : t.bdies = v.bdies := by rw [closed.rest]; change u.bdies = _; rw [frame]
  have bdT (n : Nat) : t.bd n = v.bd n := by unfold State.bd; rw [bdies]
  have stores (q : Req) (n : Nat) (h : Half) : q.stores v n h = q.stores s n h := by
    unfold Req.stores State.hostCut
    rw [claiming.words.flag (by simp [hostB, FLT_CARD_CARD_FAULT, ccB, CC_STATUS_SID_PD]; omega)]
  refine ⟨?_, fun n => ?_, fun n => by rw [memT, flushed.errs, mem], ?_, ?_, ?_, (claiming.others.trans flushed.others).trans closed.others, by rw [closed.cc, flushed.pool, poolV],
    (congrArg CcSt.claimAt closed.cc).trans (by rw [drawn]), (congrArg CcSt.ingress closed.cc).trans (by rw [drawn]), closed.shut, fun b hb => ?_,
    fun n hn => (bdT n).trans (claiming.bds n hn), (bdT _).trans claiming.bd⟩
  · rw [bdies, memT, outT, reportsT, regsT]
    exact closed.rest.trans (by rw [frame, claiming.rest])
  · rw [memT, flushed.halves, mem]
    simp only [stores]
  · rw [reportsT]
    exact (show v.reports = s.reports by rw [claiming.rest]) ▸ flushed.reports
  · rw [outT]
    exact (show v.out = s.out by rw [claiming.rest]) ▸ flushed.out
  · exact ((claiming.words.mono (by simp)).trans (flushed.words.mono (by simp))).trans (.of_regs regsT _)
  · rw [closed.otherRows b hb, flushed.otherRows b fun q hq e => hb (e ▸ (group q hq).2), CcSt.openRow, claiming.cc]
    rfl

/-- A granted claim clears its group, then takes the head of the queue (R82). -/
theorem claim_grants {s : State} {c : Nat} {r : PassReq} {rest : List PassReq} (queue : (s.cc c).queue = r :: rest) (idle : (s.cc c).active = none) (granted : s.mayClaim c = true)
    (first : s.refreshFirst c = s) :
    let v := s.groupCleared c (pG r.pkt)
    s.claim c = v.setCc c (CcSt.pull { v.cc c with queue := rest, retried := false, active := some (Active.start r (v.rd (ccB c) CC_BSEQ_CTRL_OPND_AHEAD)) }) := by
  unfold State.claim
  dsimp only
  rw [queue]
  dsimp only
  rw [idle, if_neg (by decide), granted, if_neg (by decide), first]
  rfl

/-- A claim that the limit of active stacks holds back. -/
theorem claim_waits {s : State} {c : Nat} {r : PassReq} {rest : List PassReq} (queue : (s.cc c).queue = r :: rest) (idle : (s.cc c).active = none) (held : s.mayClaim c = false) :
    s.claim c = s.setCc c { s.cc c with claimAt := some ((s.cc c).claimAt.getD s.tsc) } := by
  unfold State.claim
  dsimp only
  rw [queue]
  dsimp only
  rw [idle, if_neg (by decide), held, if_pos (by decide)]

theorem passGroupClaim_claims {s : State} {c : Nat} {r : PassReq} {rest : List PassReq} (queue : (s.cc c).queue = r :: rest) (idle : (s.cc c).active = none) (checked : passCheck r.pkt = 0) :
    passGroupClaim c s = (s.claim c).panicCheck c := by
  unfold passGroupClaim
  rw [queue]
  dsimp only
  rw [idle, if_neg (by simp [checked])]

theorem panicCheck_idle {s : State} {c : Nat} (idle : (s.cc c).active = none) : s.panicCheck c = s := by
  unfold State.panicCheck
  dsimp only
  rw [idle]

/-! ### A pass instruction at its CC -/

/-- A stand-in after a report. -/
theorem reported_stands (s : State) (l : List (Nat × PassReq)) (c code : Nat) (data : List Nat) (r : PassReq) :
    let u := (({ s with flight := l } : State).emit (ccSrc c) code data).standIn c r
    u = { s with flight := l, bdies := u.bdies, reports := s.reports ++ [s.report (ccSrc c) code data] } ∧ StandIn s u c r := by
  obtain ⟨rest, stands⟩ := standIn_stands (({ s with flight := l } : State).emit (ccSrc c) code data) c r
  exact ⟨rest, stands.of_bdies rfl⟩

theorem queued_flight (s : State) (l : List (Nat × PassReq)) (c : Nat) (k : CcSt) :
    let u := ({ s with flight := l } : State).setCc c k
    u = { s with flight := l, ccs := u.ccs } ∧ OtherCcs s u c ∧ u.cc c = k := ⟨rfl, .setCc { s with flight := l } c k, State.setCc_cc _ c k⟩

/-- The packets in flight after the oldest one from tile `t` to CC `c` has arrived. -/
def State.flightAfter (s : State) (c t : Nat) : List (Nat × PassReq) :=
  match s.flight.find? (fun q => decide (q.1 = c ∧ q.2.tile = t)) with
  | some q => s.flight.erase q
  | none => s.flight

section
variable {s : State} {c t : Nat} {pkt : Pkt}

theorem passInstruction_held
    (held : s.seamHeld (tileDie t) (chanDie c) = true ∨ s.dieUp (chanDie c) = false ∨ (s.flight.find? (fun q => decide (q.1 = c ∧ q.2.tile = t)) = none ∧ s.tileUp t = false)) :
    passInstruction c t pkt s = s := by
  unfold passInstruction
  rcases held with held | down | ⟨none, low⟩
  · rw [held]; rfl
  · rw [down]; simp
  · rw [none, low]; simp

/-- A packet other than the oldest in flight from its tile does not arrive (R138). -/
theorem passInstruction_other {q : Nat × PassReq} (oldest : s.flight.find? (fun q => decide (q.1 = c ∧ q.2.tile = t)) = some q) (other : q.2.pkt ≠ pkt) :
    passInstruction c t pkt s = s := by
  unfold passInstruction
  rw [oldest]
  simp [other]

theorem passInstruction_arrives (carried : s.seamHeld (tileDie t) (chanDie c) = false) (up : s.dieUp (chanDie c) = true)
    (oldest : s.flight.find? (fun q => decide (q.1 = c ∧ q.2.tile = t)) = none ∨ s.flight.find? (fun q => decide (q.1 = c ∧ q.2.tile = t)) = some (c, ⟨t, pkt⟩))
    (live : s.flight.find? (fun q => decide (q.1 = c ∧ q.2.tile = t)) = none → s.tileUp t = true) :
    passInstruction c t pkt s = ({ s with flight := s.flightAfter c t } : State).passArrive c ⟨t, pkt⟩ := by
  unfold passInstruction State.flightAfter
  rw [carried, up]
  rcases oldest with none | some
  · rw [none, live none]; rfl
  · rw [some]; exact if_pos rfl

end

theorem tileOwner_flight (s : State) (l : List (Nat × PassReq)) (t : Nat) : ({ s with flight := l } : State).tileOwner t = s.tileOwner t := rfl
theorem stackOwner_flight (s : State) (l : List (Nat × PassReq)) (k : Nat) : ({ s with flight := l } : State).stackOwner k = s.stackOwner k := rfl

section
variable {s : State} {c : Nat} {r : PassReq} (l : List (Nat × PassReq))

/-- A stack outside the tile's partition (R365). -/
theorem passArrive_crosses (owned : s.tileOwner r.tile ≠ 0) (other : s.stackOwner (c / 32) ≠ s.tileOwner r.tile) :
    let u := ({ s with flight := l } : State).passArrive c r
    u = { s with flight := l, bdies := u.bdies, reports := s.reports ++ [s.report (ccSrc c) 0x0107 [r.tile, 2]] } ∧ StandIn s u c r := by
  have arrives : ({ s with flight := l } : State).passArrive c r = (({ s with flight := l } : State).emit (ccSrc c) 0x0107 [r.tile, 2]).standIn c r := by
    unfold State.passArrive
    dsimp only
    rw [tileOwner_flight, stackOwner_flight, if_pos ⟨owned, other⟩]
  dsimp only
  rw [arrives]
  exact reported_stands s l c 0x0107 _ r

variable (same : s.tileOwner r.tile = 0 ∨ s.stackOwner (c / 32) = s.tileOwner r.tile)
include same

theorem tile_reaches_stack : ¬ (s.tileOwner r.tile ≠ 0 ∧ s.stackOwner (c / 32) ≠ s.tileOwner r.tile) := fun ⟨owned, other⟩ => same.elim owned other

theorem passArrive_retired (gone : s.retired c = true ∨ s.molting c = true) :
    let u := ({ s with flight := l } : State).passArrive c r
    u = { s with flight := l, bdies := u.bdies, reports := s.reports ++ [s.report (ccSrc c) 0x0546 [pTag r.pkt]] } ∧ StandIn s u c r := by
  have barred : (({ s with flight := l } : State).retired c || ({ s with flight := l } : State).molting c) = true := Bool.or_eq_true_iff.mpr gone
  have arrives : ({ s with flight := l } : State).passArrive c r = (({ s with flight := l } : State).emit (ccSrc c) 0x0546 [pTag r.pkt]).standIn c r := by
    unfold State.passArrive
    dsimp only
    rw [tileOwner_flight, stackOwner_flight, if_neg (tile_reaches_stack same), if_pos barred]
  dsimp only
  rw [arrives]
  exact reported_stands s l c 0x0546 _ r

theorem passArrive_queued (live : s.retired c = false) (calm : s.molting c = false) :
    let u := ({ s with flight := l } : State).passArrive c r
    u = { s with flight := l, ccs := u.ccs } ∧ OtherCcs s u c ∧
      u.cc c = if (s.cc c).queue.length < 8 ∧ (s.cc c).ingress = [] then { s.cc c with queue := (s.cc c).queue ++ [r] } else { s.cc c with ingress := (s.cc c).ingress ++ [r] } := by
  have free : ¬ (({ s with flight := l } : State).retired c || ({ s with flight := l } : State).molting c) = true := by
    change ¬ (s.retired c || s.molting c) = true
    rw [live, calm]
    decide
  have arrives : ({ s with flight := l } : State).passArrive c r = ({ s with flight := l } : State).setCc c
      (if (s.cc c).queue.length < 8 ∧ (s.cc c).ingress = [] then { s.cc c with queue := (s.cc c).queue ++ [r] } else { s.cc c with ingress := (s.cc c).ingress ++ [r] }) := by
    unfold State.passArrive
    dsimp only
    rw [tileOwner_flight, stackOwner_flight, if_neg (tile_reaches_stack same), if_neg free]
    rfl
  dsimp only
  rw [arrives]
  exact queued_flight s l c _

end

/-- Settles O16: a pass packet is queued or answered at its CC, and a claim performs the accepted writes of its group (`foldl_serve_flushed`), closes its rows and takes the head of the queue. -/
theorem passesAreQueuedBarredAndClaimed : Obligations.PassesAreQueuedBarredAndClaimed := by
  unfold Obligations.PassesAreQueuedBarredAndClaimed
  refine ⟨fun c t pkt s => ?arrives, fun c t pkt s q oldest other => congrArg Host.Outcome.next (passInstruction_other oldest other),
    fun c s r rest queue idle checked granted off level homed sound => ?claims, fun c s r rest queue idle checked held => ?waits, fun c s none => ?none⟩
  case arrives =>
    intro r old own oldest left
    refine ⟨fun held => congrArg Host.Outcome.next (passInstruction_held held), fun carried up live => ?_⟩
    have arrives := passInstruction_arrives carried up oldest live
    have after : s.flightAfter c t.toNat = left := rfl
    rw [after] at arrives
    clear_value left
    refine ⟨fun same gone calm => ?_, fun owned other => ?_, fun same gone => ?_⟩ <;> refine ⟨passInstruction c t.toNat pkt s, rfl, ?_⟩ <;> rw [arrives]
    · exact passArrive_queued left same gone calm
    · exact passArrive_crosses left owned other
    · exact passArrive_retired left same gone
  case claims =>
    have first := refreshFirst_none level fun a active => by rw [idle] at active; cases active
    have claims := (passGroupClaim_claims queue idle checked).trans (congrArg (State.panicCheck · c) (claim_grants queue idle granted first))
    dsimp only at claims
    have cleared := off.groupCleared (pG r.pkt) homed sound
    generalize hl : (s.cc c).pool.filter ((s.cc c).flushed (pG r.pkt)) = l at cleared
    generalize s.groupCleared c (pG r.pkt) = w at *
    rw [cleared.words.rd (by simp [CC_ERR_FLAGS_RD_ESC, CC_STATUS_SID_PD, CC_BSEQ_CTRL_OPND_AHEAD])] at claims
    have pull := CcSt.pull_eq { w.cc c with queue := rest, retried := false, active := some (Active.start r (s.rd (ccB c) CC_BSEQ_CTRL_OPND_AHEAD)) }
    generalize CcSt.pull { w.cc c with queue := rest, retried := false, active := some (Active.start r (s.rd (ccB c) CC_BSEQ_CTRL_OPND_AHEAD)) } = k at *
    obtain ⟨moved, -⟩ := panicCheck_moved (w.setCc c k) c
    rw [← claims] at moved
    refine ⟨passGroupClaim c s, rfl, ?_⟩
    generalize passGroupClaim c s = t at *
    have cc := moved.cc
    rw [State.setCc_cc] at cc
    have mem : t.mem = w.mem := by rw [moved.rest]; rfl
    have out : t.out = w.out := by rw [moved.rest]; rfl
    have bdies : t.bdies = w.bdies := by rw [moved.rest]; rfl
    have bd (n : Nat) : t.bd n = w.bd n := by unfold State.bd; rw [bdies]
    have row (b : Nat) : (t.cc c).openRow b = (w.cc c).openRow b := by unfold CcSt.openRow; rw [cc, pull]
    have served (q : Req) : q ∈ (t.cc c).pool ↔ q ∈ (s.cc c).pool ∧ (s.cc c).flushed (pG r.pkt) q = false := by
      rw [cc, pull, ← mem_diff_filter, hl, ← cleared.pool]
    have idleWrites {q : Req} (group : keyBank q.key / 64 = pG r.pkt) (left : (s.cc c).flushed (pG r.pkt) q = false) : q.write = none := by
      unfold CcSt.flushed at left
      rw [decide_eq_true group, Bool.true_and, Bool.or_eq_false_iff] at left
      simpa using left.1
    refine ⟨?_, fun n => ?_, fun n => by rw [mem, cleared.errs], cleared.reports.trans moved.reports, by rw [out]; exact cleared.out,
      (cleared.words.mono (by simp)).trans ((WordsBut.of_regs rfl _).trans (moved.words.mono (by simp))), cleared.others.trans ((OtherCcs.setCc w c k).trans moved.others), by rw [cc, pull],
      by rw [cc, pull]; exact cleared.claimAt, by rw [cc, pull, ← cleared.ingress], by rw [cc, pull, ← cleared.ingress], fun q hq => ?_, fun q hq other => ?_,
      fun b hb => (row b).trans (cleared.shut b hb), fun b hb => (row b).trans (cleared.otherRows b hb), fun n hn => (bd n).trans (cleared.bds n fun e => hn (Fin.ext e)), (bd _).trans cleared.bd⟩
    · rw [mem, out, bdies]
      exact moved.rest.trans (by rw [show w.setCc c k = { w with ccs := (w.setCc c k).ccs } from rfl, cleared.rest])
    · rw [mem, cleared.halves, ← hl]
      exact foldl_stores_filter _ _ (fun q chosen => (Bool.and_eq_true_iff.mp chosen).1) (fun q group left => idleWrites (of_decide_eq_true group) left) _ _
    · obtain ⟨inPool, left⟩ := (served q).mp hq
      exact ⟨inPool, fun group => idleWrites group left⟩
    · refine (served q).mpr ⟨hq, ?_⟩
      unfold CcSt.flushed
      rw [decide_eq_false other, Bool.false_and]
  case waits =>
    have waits := passGroupClaim_claims queue idle checked
    rw [claim_waits queue idle held, panicCheck_idle (by rw [State.setCc_cc]; exact idle)] at waits
    exact ⟨_, congrArg (fun t : State => Host.Outcome.next t.onward) waits, rfl, .setCc s c _, State.setCc_cc s c _⟩
  case none =>
    refine congrArg (fun t : State => Host.Outcome.next t.onward) (?_ : passGroupClaim c s = s)
    unfold passGroupClaim
    split
    · rfl
    · next r rest queue =>
      refine if_pos (none.imp Option.ne_none_iff_isSome.mp fun fails => fails r (by rw [queue]; rfl))

end Sys2Proof.Machine
end

section
/-! What the commands of a pass may change: the frame of one channel's pass, step by step (R18, R82, R83, R96-R98, R123, R435). -/

namespace Sys2Proof.Machine

/-! ### Commands that store nothing -/

/-- The registers that a running pass leaves as they are: the trace's switch, the count of passes, the stack levels and the seam link. -/
def passWords (c : Nat) : List Nat := [ccB c + CC_TRACE_CTRL_ENABLE.off, ccB c + CC_BSEQ_PASSES_COUNT.off, pwrB + PWR_SLEVEL_LEVEL.off, seamB + SEAM_STAT_UP.off]

/-- From `a` to `b` the pass keeps its instruction, the operand units that have arrived (more may arrive), and whether its ACTA is held. -/
structure Active.Runs (a b : Active) : Prop where
  req  : b.req = a.req
  has  : ∀ rec unit, a.has rec unit = true → b.has rec unit = true
  held : b.held = a.held

theorem Active.Runs.refl (a : Active) : a.Runs a := ⟨rfl, fun _ _ h => h, rfl⟩
theorem Active.Runs.trans {a b d : Active} (h : a.Runs b) (g : b.Runs d) : a.Runs d := ⟨g.req.trans h.req, fun rec unit x => g.has rec unit (h.has rec unit x), g.held.trans h.held⟩

/-- From `k` to `k'` a CC keeps its pass, PIM mode, its pool and its write-backs; PREA at `now` may have closed the rows of group `g`. -/
structure CcSt.Passes (now g : Nat) (k k' : CcSt) : Prop where
  pim        : k'.pim = k.pim
  pool       : k'.pool = k.pool
  active     : ∀ a, k.active = some a → ∃ b, k'.active = some b ∧ a.Runs b
  prea       : look noRow k'.preaAt g = look noRow k.preaAt g ∨ look noRow k'.preaAt g = some now
  writeBacks : ∀ col since d, Maint.writeBack col since d ∈ k'.maint ++ k'.waiting → Maint.writeBack col since d ∈ k.maint ++ k.waiting

theorem CcSt.Passes.refl (now g : Nat) (k : CcSt) : k.Passes now g k := ⟨rfl, rfl, fun a h => ⟨a, h, .refl a⟩, .inl rfl, fun _ _ _ h => h⟩

theorem CcSt.Passes.trans {now g : Nat} {k l m : CcSt} (h : k.Passes now g l) (x : l.Passes now g m) : k.Passes now g m := by
  refine ⟨x.pim.trans h.pim, x.pool.trans h.pool, fun a ha => ?_, ?_, fun col since d i => h.writeBacks col since d (x.writeBacks col since d i)⟩
  · obtain ⟨b, hb, ab⟩ := h.active a ha
    obtain ⟨e, he, be⟩ := x.active b hb
    exact ⟨e, he, ab.trans be⟩
  · rcases x.prea with same | now
    · rw [same]; exact h.prea
    · exact .inr now

theorem CcSt.Tended.passes {k k' : CcSt} (h : k.Tended k') (now g : Nat) : k.Passes now g k' := by
  have rest := h.rest
  exact ⟨by rw [rest], by rw [rest], fun a ha => ⟨a, by rw [rest]; exact ha, .refl a⟩, .inl (by rw [rest]), h.writeBacks⟩

/-- Every engine of channel `c` that records a row records one of the bank's. -/
def RowsFit (s : State) (c : Nat) : Prop := ∀ b, b / 128 = c → (s.eng b).row < 8192

/-- From `s` to `t` a command of channel `c` ran that stores nothing, sends nothing and leaves the merge units. -/
structure Quiet (c g : Nat) (s t : State) : Prop where
  rest   : t = { s with regs := t.regs, pendMask := t.pendMask, ccs := t.ccs, engs := t.engs, reports := t.reports, molt := t.molt, free := t.free }
  words  : ∀ o ∈ passWords c, t.word o = s.word o
  others : OtherCcs s t c
  cc     : (s.cc c).Passes s.tsc g (t.cc c)
  engs   : ∀ b, b / 128 ≠ c → t.eng b = s.eng b
  rows   : RowsFit s c → RowsFit t c

section
variable {c g : Nat} {s t u : State}

theorem Quiet.refl (c g : Nat) (s : State) : Quiet c g s s := ⟨rfl, fun _ _ => rfl, .refl s c, .refl _ _ _, fun _ _ => rfl, id⟩

theorem Quiet.trans (h : Quiet c g s t) (x : Quiet c g t u) : Quiet c g s u := by
  have tsc : t.tsc = s.tsc := by rw [h.rest]
  exact ⟨x.rest.trans (by rw [h.rest]), fun o ho => (x.words o ho).trans (h.words o ho), h.others.trans x.others, h.cc.trans (tsc ▸ x.cc),
    fun b hb => (x.engs b hb).trans (h.engs b hb), x.rows ∘ h.rows⟩

/-- A change of registers, reports and pending Molts. -/
theorem Quiet.of_regs (rest : t = { s with regs := t.regs, pendMask := t.pendMask, reports := t.reports, molt := t.molt, free := t.free })
    {l : List Nat} (words : WordsBut s t l) (apart : ∀ o ∈ passWords c, o ∉ l) : Quiet c g s t := by
  have ccs : t.ccs = s.ccs := by rw [rest]
  have engs : t.engs = s.engs := by rw [rest]
  have eng (b : Nat) : t.eng b = s.eng b := by unfold State.eng; rw [engs]
  exact ⟨rest.trans (by rw [ccs, engs]), fun o ho => words o (apart o ho), fun d _ => cc_of_ccs ccs d, by rw [cc_of_ccs ccs]; exact .refl _ _ _, fun b _ => eng b,
    fun fit b hb => by rw [eng]; exact fit b hb⟩

theorem Quiet.emit (c g : Nat) (s : State) (src code : Nat) (data : List Nat) : Quiet c g s (s.emit src code data) :=
  .of_regs rfl (.of_regs rfl []) (fun _ _ => List.not_mem_nil)

theorem Quiet.wr (s : State) (b : Nat) (f : Fld) (v : Nat) (apart : b + f.off ∉ passWords c) : Quiet c g s (s.wr b f v) :=
  .of_regs rfl (wr_wordsBut s b f v) (fun _ ho e => apart (List.mem_singleton.mp e ▸ ho))

theorem Quiet.setCc {k : CcSt} (h : (s.cc c).Passes s.tsc g k) : Quiet c g s (s.setCc c k) :=
  ⟨rfl, fun _ _ => rfl, .setCc s c k, by rw [State.setCc_cc]; exact h, fun _ _ => rfl, id⟩

/-- A change of engines of the channel. -/
theorem Quiet.of_engs (rest : t = { s with engs := t.engs }) (engs : ∀ b, b / 128 ≠ c → t.eng b = s.eng b) (rows : RowsFit s c → RowsFit t c) : Quiet c g s t := by
  have ccs : t.ccs = s.ccs := by rw [rest]
  have regs : t.regs = s.regs := by rw [rest]
  exact ⟨rest.trans (by rw [rest]), fun _ _ => WordsBut.of_regs regs [] _ (List.not_mem_nil), fun d _ => cc_of_ccs ccs d, by rw [cc_of_ccs ccs]; exact .refl _ _ _, engs, rows⟩

theorem Quiet.untraced (h : Quiet c g s t) (off : Untraced s c) : Untraced t c := by
  have word := h.words (ccB c + CC_TRACE_CTRL_ENABLE.off) (by simp [passWords])
  unfold Untraced State.flag at *
  rwa [State.rd_of_word word]

end

/-- The windows of the B-dies lie above all of these registers. -/
theorem bd_notMem_passWords {c : Nat} (hc : c < 384) (k o : Nat) : bdB k + o ∉ passWords c := by
  simp only [passWords, List.mem_cons, List.not_mem_nil, or_false, bdB, ccB, pwrB, seamB, CC_TRACE_CTRL_ENABLE, CC_BSEQ_PASSES_COUNT, PWR_SLEVEL_LEVEL, SEAM_STAT_UP]
  omega

/-- The registers of a CC other than its trace switch and its count of passes. -/
theorem cc_notMem_passWords (c : Nat) {f : Fld} (trace : f.off ≠ CC_TRACE_CTRL_ENABLE.off) (passes : f.off ≠ CC_BSEQ_PASSES_COUNT.off) : ccB c + f.off ∉ passWords c := by
  simp only [passWords, List.mem_cons, List.not_mem_nil, or_false, Nat.add_left_cancel_iff]
  simp only [ccB, pwrB, seamB, PWR_SLEVEL_LEVEL, SEAM_STAT_UP]
  omega

theorem Refreshed.quiet {c : Nat} {s t : State} (h : Refreshed c s t) (g : Nat) : Quiet c g s t := by
  have rest := h.rest
  have mask : t.pendMask = s.pendMask := by rw [rest]
  have engs : t.engs = s.engs := by rw [rest]
  have reports : t.reports = s.reports := by rw [rest]
  have molt : t.molt = s.molt := by rw [rest]
  have free : t.free = s.free := by rw [rest]
  have eng (b : Nat) : t.eng b = s.eng b := by unfold State.eng; rw [engs]
  refine ⟨rest.trans (by rw [mask, engs, reports, molt, free]), fun o ho => h.words o fun e => ?_, h.others, h.cc.passes _ g, fun b _ => eng b, fun fit b hb => by rw [eng]; exact fit b hb⟩
  rw [List.mem_singleton.mp e] at ho
  exact cc_notMem_passWords c (by decide) (by decide) ho

/-! ### Rows and counters -/

/-- A counted activate counts, queues a refresh or escalates one (R91-R94). -/
theorem activate_quiet (s : State) (c g bank row : Nat) : Quiet c g s (s.activate c bank row) := by
  have set {k : CcSt} (h : (s.cc c).Tended k) : Quiet c g s (s.setCc c k) := .setCc (h.passes _ g)
  unfold State.activate
  dsimp only
  split
  · split
    · exact set (queueNeighbour_tended _ _ _ _ _)
    · exact set ⟨rfl, fun _ _ _ h => h⟩
  · split
    · refine ((set ⟨rfl, fun col since d h => ?_⟩).trans (.wr _ _ CC_ERR_FLAGS_RD_ESC 1 (cc_notMem_passWords c (by decide) (by decide)))).trans (.emit c g _ _ _ _)
      dsimp only at h
      rw [List.mem_append] at h ⊢
      exact h.imp writeBack_mem_map_escalate writeBack_mem_map_escalate
    · exact set ⟨rfl, fun _ _ _ h => h⟩

theorem Untraced.closeRow_quiet {s : State} {c : Nat} (off : Untraced s c) (g bank : Nat) : Quiet c g s (s.closeRow c bank) := (off.closeRow bank).refreshed.quiet g

theorem Untraced.openFor_quiet {s : State} {c : Nat} (off : Untraced s c) (g bank row : Nat) : Quiet c g s (s.openFor c bank row) := by
  unfold State.openFor
  split
  · exact .refl c g s
  · have shut := off.closeRow_quiet g bank
    dsimp only
    generalize s.closeRow c bank = u at *
    have rows : (u.cc c).Tended { u.cc c with rows := put noRow (u.cc c).rows bank (some row) } := ⟨rfl, fun _ _ _ h => h⟩
    have set : Quiet c g u (u.setCc c { u.cc c with rows := put noRow (u.cc c).rows bank (some row) }) := .setCc (rows.passes _ g)
    have reached := (shut.trans set).trans (activate_quiet _ c g bank row)
    rw [(reached.untraced off).trace]
    exact reached

theorem Untraced.bankCmd_quiet {s : State} {c : Nat} (off : Untraced s c) (g : Nat) (tag : Option Nat) (row col : Nat) : Quiet c g s (s.bankCmd c tag row col) :=
  (off.bankCmd tag row col).refreshed.quiet g

theorem count_quiet {c b : Nat} {f : Fld} (apart : b + f.off ∉ passWords c) (g : Nat) (s : State) (n src code : Nat) : Quiet c g s (s.count b f n src code) := by
  unfold State.count
  dsimp only
  split
  · exact .wr s b f _ apart
  · exact (Quiet.wr s b f _ apart).trans (.emit c g _ _ _ _)

/-! ### Engines -/

theorem setEng_quiet (s : State) (c g i : Nat) (v : EngSt) (own : i / 128 = c) (row : v.row = (s.eng i).row ∨ v.row < 8192) : Quiet c g s (s.setEng i v) := by
  refine .of_engs rfl (fun b hb => s.setEng_eng_ne i b v fun e => hb (e ▸ own)) fun fit b hb => ?_
  by_cases e : b = i
  · rw [e, State.setEng_eng]
    rcases row with same | small
    · rw [same]; exact fit i own
    · exact small
  · rw [State.setEng_eng_ne _ _ _ _ e]
    exact fit b hb

theorem engIdx_channel (c : Nat) {g p : Nat} (hg : g < 2) (hp : p < 64) : engIdx c g p / 128 = c := by unfold engIdx; omega

section
variable {c g : Nat} (hc : c < 384) (hg : g < 2)
include hg

/-- A change of a group's engines that keeps their rows, or sets rows of the bank. -/
theorem eachEng_quiet (s : State) (f : Nat → EngSt → EngSt) (row : ∀ p e, (f p e).row = e.row ∨ (f p e).row < 8192) : Quiet c g s (s.eachEng c g f) := by
  refine upto_keeps_lt (Quiet c g s) 64 _ s (.refl c g s) fun p hp u h => ?_
  split
  · exact h
  · exact h.trans (setEng_quiet u c g _ _ (engIdx_channel c hg hp) (row p _))

include hc

/-- Engines that take a sequence error enter FAULT, and the pass records it (R123). -/
theorem seqError_quiet (s : State) (op : Nat) (hit : EngSt → Bool) : Quiet c g s (s.seqError c g op hit) := by
  unfold State.seqError
  dsimp only
  split
  · exact .refl c g s
  · next p0 rest taken =>
    have faulted : Quiet c g s ((p0 :: rest).foldl (fun s p => s.setEng (engIdx c g p) (s.eng (engIdx c g p)).toFault) s) :=
      List.foldlRecOn (p0 :: rest) (fun (s : State) p => s.setEng (engIdx c g p) (s.eng (engIdx c g p)).toFault) (.refl c g s) fun u h p hp => by
        rw [← taken, List.mem_filter, List.mem_range] at hp
        exact h.trans (setEng_quiet u c g _ _ (engIdx_channel c hg hp.1) (.inl rfl))
    rw [taken]
    generalize (p0 :: rest).foldl _ s = u at *
    have flagged : Quiet c g s (u.raise (bdB (c / 32)) (B_NEWT_STAT_SEQ_ERR.at (8 * (c % 32)))) := faulted.trans (.wr u _ _ 1 (bd_notMem_passWords hc _ _))
    generalize u.raise (bdB (c / 32)) (B_NEWT_STAT_SEQ_ERR.at (8 * (c % 32))) = v at *
    split
    · next a active =>
      have recorded : Quiet c g s (v.setCc c { v.cc c with active := some { a with seqErr := true, faulted := true } }) :=
        flagged.trans (.setCc ⟨rfl, rfl, fun b hb => ⟨_, rfl, by rw [active] at hb; cases hb; exact ⟨rfl, fun _ _ h => h, rfl⟩⟩, .inl rfl, fun _ _ _ h => h⟩)
      split
      · exact recorded
      · exact recorded.trans (.emit c g _ _ _ _)
    · exact flagged.trans (.emit c g _ _ _ _)

theorem colError_quiet (s : State) (op : Nat) (needsMode : Bool) : Quiet c g s (s.colError c g op needsMode) := seqError_quiet hc hg s op _

/-- The flags of an engine's operation (R55, R132). -/
theorem note_quiet (s : State) {p : Nat} (hp : p < 64) (n : Note) : Quiet c g s (s.note c g p n) := by
  have raise (u : State) (f : Fld) : Quiet c g u (u.raise (bdB (c / 32)) f) := .wr u _ f 1 (bd_notMem_passWords hc _ _)
  unfold State.note
  dsimp only
  have set := setEng_quiet s c g (engIdx c g p) { s.eng (engIdx c g p) with
    inv := (s.eng (engIdx c g p)).inv || n.inv, ovf := (s.eng (engIdx c g p)).ovf || n.ovf, poi := (s.eng (engIdx c g p)).poi || !n.causes.isEmpty } (engIdx_channel c hg hp) (.inl rfl)
  generalize s.setEng _ _ = u at *
  have flagged : Quiet c g s (if n.ovf then (if n.inv then u.raise (bdB (c / 32)) (B_NEWT_STAT_INVALID.at (8 * (c % 32))) else u).raise (bdB (c / 32)) (B_NEWT_STAT_OVERFLOW.at (8 * (c % 32)))
      else if n.inv then u.raise (bdB (c / 32)) (B_NEWT_STAT_INVALID.at (8 * (c % 32))) else u) := by
    split <;> split
    · exact (set.trans (raise u _)).trans (raise _ _)
    · exact set.trans (raise u _)
    · exact set.trans (raise u _)
    · exact set
  exact List.foldlRecOn n.causes _ flagged fun v h x _ => (h.trans (raise v _)).trans (.emit c g _ _ _ _)

end

/-! ### Reads of engines -/

theorem passWords_notMem_errorWords (c : Nat) : ∀ o ∈ passWords c, o ∉ errorWords c := by
  simp only [passWords, errorWords, bucketWords, List.mem_append, List.mem_cons, List.not_mem_nil, or_false, ccB, hostB, pwrB, seamB, CC_TRACE_CTRL_ENABLE, CC_BSEQ_PASSES_COUNT,
    PWR_SLEVEL_LEVEL, SEAM_STAT_UP, CC_BKT_LEVEL, CC_BKT_PERM, FLT_MOLT_STAT_REFUSED, CC_ECC_LOG_DPA, CC_ECC_LOG_VALID, CC_ECC_CNT_UNCORRECTED, CC_ECC_CNT_CORRECTED]
  omega

theorem ColErrored.quiet {c code col reader : Nat} {s t : State} (h : ColErrored c code col reader s t) (g : Nat) : Quiet c g s t := by
  obtain ⟨⟨⟨⟨rest, others⟩, mem, out, -, -⟩, cc⟩, words, -⟩ := h
  have engs : t.engs = s.engs := by rw [rest]
  have mask : t.pendMask = s.pendMask := by rw [rest]
  have eng (b : Nat) : t.eng b = s.eng b := by unfold State.eng; rw [engs]
  exact ⟨rest.trans (by rw [engs, mask, mem, out]), fun o ho => words o (passWords_notMem_errorWords c o ho), others, by rw [cc]; exact ⟨rfl, rfl, fun a ha => ⟨a, ha, .refl a⟩, .inl rfl, fun _ _ _ x => x⟩,
    fun b _ => eng b, fun fit b hb => by rw [eng]; exact fit b hb⟩

theorem fresh_quiet (c g : Nat) (s : State) : Quiet c g s s.fresh.2 := .of_regs rfl (.of_regs rfl []) (fun _ _ => List.not_mem_nil)

theorem check_quiet (s : State) (c g col : Nat) : Quiet c g s (s.check col).2 := by
  unfold State.check
  dsimp only
  split
  · split
    · exact .refl c g s
    · exact fresh_quiet c g s
  · split_ifs
    · exact .refl c g s
    · exact .refl c g s
    · exact .refl c g s
    · exact fresh_quiet c g s
    · exact fresh_quiet c g s
    · exact fresh_quiet c g s

/-- A read of a column with its check counts and reports at most an error (R96-R98). -/
theorem readCol_quiet (s : State) (c g col reader : Nat) : Quiet c g s (s.readCol c col reader).2.2 := by
  have checked := check_quiet s c g col
  unfold State.readCol
  generalize s.check col = x at *
  obtain ⟨seen, u⟩ := x
  cases seen with
  | clean d => exact checked
  | corrected d => exact checked.trans ((correctedErr_errored u c col reader).quiet g)
  | uncorrectable => exact checked.trans ((uncorrectable_errored u c col reader).quiet g)
  | code => exact checked

section
variable {c g : Nat} (hc : c < 384) (hg : g < 2)
include hc

theorem engRead_quiet (s : State) (p row col : Nat) : Quiet c g s (s.engRead c g p row col).2 := by
  have read := readCol_quiet s c g (mkKey c (64 * g + p) row (32 * col) / 32) 2
  unfold State.engRead
  dsimp only
  generalize s.readCol c (mkKey c (64 * g + p) row (32 * col) / 32) 2 = x at *
  obtain ⟨h, corrected, u⟩ := x
  dsimp only at *
  split
  · exact read.trans (.wr u _ _ _ (bd_notMem_passWords hc _ _))
  · exact read

include hg

/-- A column operation that reads: every working engine takes its column, and its flags follow. -/
theorem eachRead_quiet (s : State) (col : Nat) (f : EngSt → Half → EngSt × Note) (row : ∀ e h, (f e h).1.row = e.row) : Quiet c g s (s.eachRead c g col f) := by
  refine upto_keeps_lt (Quiet c g s) 64 _ s (.refl c g s) fun p hp u h => ?_
  dsimp only
  split
  · exact h
  · have read := engRead_quiet hc (g := g) u p (u.eng (engIdx c g p)).row col
    generalize u.engRead c g p (u.eng (engIdx c g p)).row col = x at *
    obtain ⟨d, v⟩ := x
    dsimp only at *
    generalize hr : f (v.eng (engIdx c g p)) d = r
    have set := setEng_quiet v c g (engIdx c g p) r.1 (engIdx_channel c hg hp) (.inl (by rw [← hr]; exact row _ d))
    exact ((h.trans read).trans set).trans (note_quiet hc hg _ hp r.2)

end

end Sys2Proof.Machine
end

section
/-! What a channel's pass and the accesses in its gaps may change, requests, write-backs and merge units included (R83, R97, R99, R103, R157-R159). -/

namespace Sys2Proof.Machine

/-- Column `u` is no column of pass group `g` of channel `c`. -/
def Outside (c g u : Nat) : Prop := keyChan (32 * u) ≠ c ∨ keyBank (32 * u) / 64 ≠ g

/-- The columns outside the group keep their contents and errors. -/
def MemKept (c g : Nat) (m m' : Mem) : Prop := ∀ u, Outside c g u → m'.store.half u = m.store.half u ∧ m'.err u = m.err u

theorem MemKept.refl (c g : Nat) (m : Mem) : MemKept c g m m := fun _ _ => ⟨rfl, rfl⟩
theorem MemKept.trans {c g : Nat} {l m n : Mem} (h : MemKept c g l m) (x : MemKept c g m n) : MemKept c g l n := fun u hu =>
  ⟨(x u hu).1.trans (h u hu).1, (x u hu).2.trans (h u hu).2⟩

section
variable {c g col : Nat} (m : Mem) (inside : ¬ Outside c g col)
include inside

theorem Mem.writeCol_kept (v : Half) : MemKept c g m (m.writeCol col v) := fun u hu =>
  have apart : u ≠ col := fun e => inside (e ▸ hu)
  ⟨m.half_writeCol_ne v apart, m.writeCol_err col v u apart⟩

theorem Mem.writeColIf_kept (p : Bool) (v : Half) : MemKept c g m (m.writeColIf p col v) := by
  unfold Mem.writeColIf
  split
  · exact m.writeCol_kept inside v
  · exact .refl c g m

end

/-- Both columns of a line of the group lie in the group. -/
theorem line_inside {c g key : Nat} (line : key % 64 = 0) (chan : keyChan key = c) (bank : keyBank key / 64 = g) :
    ¬ Outside c g (key / 32) ∧ ¬ Outside c g (key / 32 + 1) := by
  have lower : 32 * (key / 32) = key := by omega
  have upper : keyChan (32 * (key / 32 + 1)) = keyChan key ∧ keyBank (32 * (key / 32 + 1)) = keyBank key := by
    unfold keyChan keyBank bitsOf
    omega
  unfold Outside
  rw [lower, upper.1, upper.2]
  exact ⟨by simp [chan, bank], by simp [chan, bank]⟩

/-- From `k` to `k'` a CC keeps its pass, and gains at most write-backs of its own channel. -/
structure CcSt.Works (c : Nat) (k k' : CcSt) : Prop where
  pim        : k'.pim = k.pim
  active     : ∀ a, k.active = some a → ∃ b, k'.active = some b ∧ a.Runs b
  prea       : k'.preaAt = k.preaAt
  pool       : ∀ q ∈ k'.pool, q ∈ k.pool
  writeBacks : ∀ col since d, Maint.writeBack col since d ∈ k'.maint ++ k'.waiting → Maint.writeBack col since d ∈ k.maint ++ k.waiting ∨ keyChan (32 * col) = c

/-- From `s` to `t` a command of channel `c`'s pass ran, or an access in its gap: the contributions `l` reached the merge unit. -/
structure GroupWork (c g : Nat) (l : List Contribution) (s t : State) : Prop where
  rest    : t = { s with regs := t.regs, pendMask := t.pendMask, ccs := t.ccs, engs := t.engs, bdies := t.bdies, mem := t.mem, reports := t.reports, out := t.out, molt := t.molt, free := t.free }
  words   : ∀ o ∈ passWords c, t.word o = s.word o
  others  : OtherCcs s t c
  pim     : (t.cc c).pim = (s.cc c).pim
  active  : ∀ a, (s.cc c).active = some a → ∃ b, (t.cc c).active = some b ∧ a.Runs b
  prea    : look noRow (t.cc c).preaAt g = look noRow (s.cc c).preaAt g ∨ look noRow (t.cc c).preaAt g = some s.tsc
  engs    : ∀ b, b / 128 ≠ c → t.eng b = s.eng b
  rows    : RowsFit s c → RowsFit t c
  homed   : Homed s c → Homed t c
  out     : s.out <+: t.out
  bds     : ∀ k, k ≠ c / 32 → t.bd k = s.bd k
  bd      : t.bd (c / 32) = { s.bd (c / 32) with arrived := (s.bd (c / 32)).arrived ++ l }
  columns : Homed s c → RowsFit s c → MemKept c g s.mem t.mem

theorem GroupWork.refl (c g : Nat) (s : State) : GroupWork c g [] s s :=
  ⟨rfl, fun _ _ => rfl, .refl s c, rfl, fun a h => ⟨a, h, .refl a⟩, .inl rfl, fun _ _ => rfl, id, id, List.prefix_refl _, fun _ _ => rfl, by rw [List.append_nil], fun _ _ => .refl _ _ _⟩

section
variable {c g : Nat} {l l' : List Contribution} {s t u : State}

theorem GroupWork.trans (h : GroupWork c g l s t) (x : GroupWork c g l' t u) : GroupWork c g (l ++ l') s u := by
  have tsc : t.tsc = s.tsc := by rw [h.rest]
  refine ⟨x.rest.trans (by rw [h.rest]), fun o ho => (x.words o ho).trans (h.words o ho), h.others.trans x.others, x.pim.trans h.pim, fun a ha => ?_, ?_,
    fun b hb => (x.engs b hb).trans (h.engs b hb), x.rows ∘ h.rows, x.homed ∘ h.homed, h.out.trans x.out, fun k hk => (x.bds k hk).trans (h.bds k hk), ?_,
    fun home fit => (h.columns home fit).trans (x.columns (h.homed home) (h.rows fit))⟩
  · obtain ⟨b, hb, ab⟩ := h.active a ha
    obtain ⟨d, hd, bd⟩ := x.active b hb
    exact ⟨d, hd, ab.trans bd⟩
  · rcases x.prea with same | now
    · rw [same]; exact h.prea
    · exact .inr (tsc ▸ now)
  · rw [x.bd, h.bd, List.append_assoc]

theorem GroupWork.untraced (h : GroupWork c g l s t) (off : Untraced s c) : Untraced t c := by
  have word := h.words (ccB c + CC_TRACE_CTRL_ENABLE.off) (by simp [passWords])
  unfold Untraced State.flag at *
  rwa [State.rd_of_word word]

theorem Homed.of_works {k : CcSt} (works : (s.cc c).Works c k) (t : State) (cc : t.cc c = k) (home : Homed s c) : Homed t c := by
  obtain ⟨pool, backs⟩ := home
  unfold Homed
  rw [cc]
  refine ⟨fun q hq => pool q (works.pool q hq), fun m hm => ?_⟩
  cases m with
  | neighbour => trivial
  | writeBack col since d => exact (works.writeBacks col since d hm).elim (backs _) id

theorem Quiet.work (h : Quiet c g s t) : GroupWork c g [] s t := by
  have mem : t.mem = s.mem := by rw [h.rest]
  have bdies : t.bdies = s.bdies := by rw [h.rest]
  have out : t.out = s.out := by rw [h.rest]
  have bd (k : Nat) : t.bd k = s.bd k := by unfold State.bd; rw [bdies]
  refine ⟨h.rest.trans (by rw [mem, bdies, out]), h.words, h.others, h.cc.pim, h.cc.active, h.cc.prea, h.engs, h.rows, fun home => ?_, by rw [out],
    fun k _ => bd k, by rw [bd, List.append_nil], fun _ _ => by rw [mem]; exact .refl _ _ _⟩
  obtain ⟨pool, backs⟩ := home
  unfold Homed
  rw [h.cc.pool]
  refine ⟨pool, fun m hm => ?_⟩
  cases m with
  | neighbour => trivial
  | writeBack col since d => exact backs _ (h.cc.writeBacks col since d hm)

/-- A change of the channel's CC. -/
theorem GroupWork.of_cc (rest : t = { s with ccs := t.ccs }) (others : OtherCcs s t c) (works : (s.cc c).Works c (t.cc c)) : GroupWork c g [] s t := by
  have regs : t.regs = s.regs := by rw [rest]
  have engs : t.engs = s.engs := by rw [rest]
  have mem : t.mem = s.mem := by rw [rest]
  have out : t.out = s.out := by rw [rest]
  have bdies : t.bdies = s.bdies := by rw [rest]
  have eng (b : Nat) : t.eng b = s.eng b := by unfold State.eng; rw [engs]
  have bd (k : Nat) : t.bd k = s.bd k := by unfold State.bd; rw [bdies]
  exact ⟨rest.trans (by rw [rest]), fun _ _ => WordsBut.of_regs regs [] _ (List.not_mem_nil), others, works.pim, works.active, .inl (by rw [works.prea]), fun b _ => eng b,
    fun fit b hb => by rw [eng]; exact fit b hb, Homed.of_works works t rfl, by rw [out], fun x _ => bd x, by rw [bd, List.append_nil], fun _ _ => by rw [mem]; exact .refl _ _ _⟩

theorem GroupWork.setCc {k : CcSt} (works : (s.cc c).Works c k) : GroupWork c g [] s (s.setCc c k) := .of_cc rfl (.setCc s c k) (by rw [State.setCc_cc]; exact works)

/-- A change of storage. -/
theorem GroupWork.mem {m : Mem} (kept : Homed s c → RowsFit s c → MemKept c g s.mem m) : GroupWork c g [] s { s with mem := m } :=
  ⟨rfl, fun _ _ => rfl, .refl s c, rfl, fun a h => ⟨a, h, .refl a⟩, .inl rfl, fun _ _ => rfl, id, id, List.prefix_refl _, fun _ _ => rfl, by rw [List.append_nil]; rfl, kept⟩

theorem GroupWork.send (s : State) (o : Out) : GroupWork c g [] s (s.send o) :=
  ⟨rfl, fun _ _ => rfl, .refl s c, rfl, fun a h => ⟨a, h, .refl a⟩, .inl rfl, fun _ _ => rfl, id, id, List.prefix_append _ _, fun _ _ => rfl, by rw [List.append_nil]; rfl, fun _ _ => .refl _ _ _⟩

/-- A contribution reaches the stack's merge unit. -/
theorem GroupWork.contribute (s : State) (x : Contribution) : GroupWork c g [x] s (s.contribute c x) :=
  ⟨rfl, fun _ _ => rfl, .refl s c, rfl, fun a h => ⟨a, h, .refl a⟩, .inl rfl, fun _ _ => rfl, id, id, List.prefix_refl _, fun _ hk => s.setBd_bd_ne _ _ _ hk, s.setBd_bd _ _, fun _ _ => .refl _ _ _⟩

end

end Sys2Proof.Machine
end

section
/-! Accesses in the gaps of a pass, with any error of a column and any lost burst (R83, R97, R99, R103). -/

namespace Sys2Proof.Machine

section
variable {c g : Nat} {s : State}

/-! ### Bursts -/

theorem CcSt.Works.refl (c : Nat) (k : CcSt) : k.Works c k := ⟨rfl, fun a h => ⟨a, h, .refl a⟩, rfl, fun _ h => h, fun _ _ _ h => .inl h⟩

theorem CcSt.Works.trans {k l m : CcSt} (h : k.Works c l) (x : l.Works c m) : k.Works c m := by
  refine ⟨x.pim.trans h.pim, fun a ha => ?_, x.prea.trans h.prea, fun q hq => h.pool q (x.pool q hq), fun col since d i => (x.writeBacks col since d i).elim (h.writeBacks col since d) .inr⟩
  obtain ⟨b, hb, ab⟩ := h.active a ha
  obtain ⟨e, he, be⟩ := x.active b hb
  exact ⟨e, he, ab.trans be⟩

/-- A change of the queues of maintenance that brings in no write-back. -/
theorem CcSt.Tended.works {k k' : CcSt} (h : k.Tended k') (c : Nat) : k.Works c k' := by
  have rest := h.rest
  exact ⟨by rw [rest], fun a ha => ⟨a, by rw [rest]; exact ha, .refl a⟩, by rw [rest], fun q hq => by rw [rest] at hq; exact hq, fun col since d i => .inl (h.writeBacks col since d i)⟩

theorem CcSt.dropWriteBack_tended (k : CcSt) (col : Nat) : k.Tended (k.dropWriteBack col) := by
  unfold CcSt.dropWriteBack
  refine CcSt.Tended.trans ⟨rfl, fun x since d h => ?_⟩ (refill_tended _)
  dsimp only at h
  rw [List.mem_append] at h ⊢
  exact h.imp_left List.mem_of_mem_filter

theorem burstEnd_work {key : Nat} (chan : keyChan key = c) (s : State) (write : Bool) : GroupWork c g [] s (s.burstEnd key write) := by
  subst chan
  exact .setCc ⟨rfl, fun a h => ⟨a, h, .refl a⟩, rfl, fun _ h => h, fun _ _ _ h => .inl h⟩

theorem queueWriteBack_work {col : Nat} (own : keyChan (32 * col) = c) (s : State) (d : BitVec 256) : GroupWork c g [] s (s.queueWriteBack c col d) := by
  unfold State.queueWriteBack
  dsimp only
  split
  · exact .refl c g s
  · refine .setCc ⟨rfl, fun a h => ⟨a, h, .refl a⟩, rfl, fun _ h => h, fun x since e h => ?_⟩
    simp only [List.mem_append, List.mem_singleton] at h ⊢
    rcases h with (h | h) | h
    · exact .inl (.inl h)
    · cases h; exact .inr own
    · exact .inl (.inr h)

theorem normalRead_work {col : Nat} (own : keyChan (32 * col) = c) (s : State) (reader : Nat) : GroupWork c g [] s (s.normalRead c col reader).2 := by
  have read := (readCol_quiet s c g col reader).work
  unfold State.normalRead
  generalize s.readCol c col reader = x at *
  obtain ⟨h, corrected, u⟩ := x
  cases h with
  | none => exact read
  | some d =>
    cases corrected with
    | false => exact read
    | true => exact read.trans (queueWriteBack_work own u d)

theorem writePart_work (s : State) {col : Nat} (inside : ¬ Outside c g col) (mask : Nat) (v : Half) : GroupWork c g [] s (s.writePart c col mask v) := by
  have read := (readCol_quiet s c g col 4).work
  have store (u : State) (v : Half) : GroupWork c g [] u { u with mem := u.mem.writeCol col v } := .mem fun _ _ => u.mem.writeCol_kept inside v
  unfold State.writePart
  split
  · exact .refl c g s
  · split
    · exact store s v
    · generalize s.readCol c col 4 = x at *
      obtain ⟨h, corrected, u⟩ := x
      dsimp only at *
      split
      · exact read.trans (store u _)
      · exact read.trans (store u _)

/-- Both columns of a line lie in the line's channel. -/
theorem line_chan {key : Nat} (line : key % 64 = 0) (chan : keyChan key = c) : keyChan (32 * (key / 32)) = c ∧ keyChan (32 * (key / 32 + 1)) = c := by
  subst chan
  unfold keyChan bitsOf
  omega

variable {key : Nat} (line : key % 64 = 0) (chan : keyChan key = c)
include line chan

theorem read64_work (s : State) (reader : Nat) : GroupWork c g [] s (s.read64 key reader).2 := by
  obtain ⟨lower, upper⟩ := line_chan line chan
  unfold State.read64
  dsimp only
  rw [chan]
  exact (normalRead_work lower s reader).trans (normalRead_work upper _ reader)

theorem readBurst_work (s : State) (reader : Nat) : GroupWork c g [] s (s.readBurst key reader).2 :=
  (read64_work line chan s reader).trans (burstEnd_work chan _ false)

omit line in
theorem supersede_work (s : State) (w : WriteData) : GroupWork c g [] s (s.supersede key w) := by
  subst chan
  have drop (k : CcSt) (h : Nat) : (k.Works (keyChan key) (if w.touches h then k.dropWriteBack (key / 32 + h) else k)) := by
    split
    · exact (k.dropWriteBack_tended _).works _
    · exact .refl _ k
  exact .setCc ((drop _ 0).trans (drop _ 1))

variable (bank : keyBank key / 64 = g)
include bank

theorem write64_work (s : State) (w : WriteData) : GroupWork c g [] s (s.write64 key w) := by
  obtain ⟨lower, upper⟩ := line_inside line chan bank
  unfold State.write64
  dsimp only
  rw [chan]
  exact ((supersede_work chan s w).trans (writePart_work _ lower _ _)).trans (writePart_work _ upper _ _)

theorem Mem.loseLine_kept (m : Mem) (w : WriteData) : MemKept c g m (m.loseLine key w) := by
  obtain ⟨lower, upper⟩ := line_inside line chan bank
  exact (m.writeColIf_kept lower _ _).trans (Mem.writeColIf_kept _ upper _ _)

theorem Mem.mixLine_kept (m : Mem) (w : WriteData) : MemKept c g m (m.mixLine key w) := by
  obtain ⟨lower, upper⟩ := line_inside line chan bank
  exact (((m.writeColIf_kept lower _ _).trans (Mem.writeColIf_kept _ upper _ _)).trans (Mem.writeColIf_kept _ lower _ _)).trans (Mem.writeColIf_kept _ upper _ _)

/-- A write burst to a line of the group, lost or not, changes no column outside the group. -/
theorem writeBurst_work (s : State) (w : WriteData) : GroupWork c g [] s (s.writeBurst key w) := by
  unfold State.writeBurst
  split
  · rw [loseWrite_eq]
    exact ((supersede_work chan s w).trans (.mem (s := s.supersede key w) fun _ _ => Mem.loseLine_kept line chan bank _ w)).trans (burstEnd_work chan _ true)
  · split
    · rw [spoilMixed_eq]
      exact (((supersede_work chan s w).trans (.mem (s := s.supersede key w) fun _ _ => Mem.mixLine_kept line chan bank _ w)).trans (burstEnd_work chan _ false)).trans (burstEnd_work chan _ true)
    · exact (write64_work line chan bank s w).trans (burstEnd_work chan _ true)

end

/-! ### Requests and write-backs -/

section
variable {c g : Nat} {s : State}

theorem land_work {key : Nat} (chan : keyChan key = c) (s : State) (u : ReadUser) (d : Option Cell64) : GroupWork c g [] s (s.land u key d) := by
  subst chan
  unfold State.land
  dsimp only
  split
  · exact .refl _ g s
  · exact .setCc ⟨rfl, fun a h => ⟨a, h, .refl a⟩, rfl, fun _ h => h, fun _ _ _ h => .inl h⟩

variable {r : Req} (chan : keyChan r.key = c)
include chan

theorem answerReq_work (s : State) (d : Cell64) : GroupWork c g [] s (s.answerReq r d) := by
  unfold State.answerReq
  cases r.ans with
  | plain => exact .send s _
  | mem => exact .send s _
  | bar f => exact .send s _
  | card u => exact land_work chan s u _

theorem answerRead64_work (line : r.key % 64 = 0) (s : State) : GroupWork c g [] s (s.answerRead64 r) := by
  have read := readBurst_work (g := g) line chan s r.ans.reader
  unfold State.answerRead64
  dsimp only
  generalize s.readBurst r.key r.ans.reader = x at *
  obtain ⟨d, u⟩ := x
  dsimp only at *
  split
  · exact read.trans (land_work chan u _ _)
  · exact read.trans (answerReq_work chan u d)

omit chan in
theorem remove_works (k : CcSt) (r : Req) (c : Nat) : k.Works c (k.remove r) :=
  ⟨rfl, fun a h => ⟨a, h, .refl a⟩, rfl, fun _ h => List.mem_of_mem_erase h, fun _ _ _ h => .inl h⟩

omit chan in
theorem charge_works (k : CcSt) (bank row c : Nat) : k.Works c (k.charge bank row) := by
  have yields (n : Nat) : k.Works c { k with yields := n } := ⟨rfl, fun a h => ⟨a, h, .refl a⟩, rfl, fun _ h => h, fun _ _ _ h => .inl h⟩
  have served (k : CcSt) : k.Works c { k with active := k.active.map (fun a => { a with gapServed := a.gapServed + 1 }) } :=
    ⟨rfl, fun a h => ⟨{ a with gapServed := a.gapServed + 1 }, by dsimp only; rw [h]; rfl, ⟨rfl, fun _ _ x => x, rfl⟩⟩, rfl, fun _ h => h, fun _ _ _ h => .inl h⟩
  unfold CcSt.charge
  dsimp only
  split <;> split
  · exact (yields 0).trans (served _)
  · exact yields 0
  · exact served k
  · exact .refl c k

/-- A request to a line of the group is performed, whatever its burst meets. -/
theorem Untraced.serve_work (off : Untraced s c) (line : r.key % 64 = 0) (bank : keyBank r.key / 64 = g) : GroupWork c g [] s (s.serve c r) := by
  have removed : GroupWork c g [] s (s.setCc c ((s.cc c).remove r)) := .setCc (remove_works _ r c)
  unfold State.serve
  dsimp only
  split
  · split
    · exact removed
    · exact removed.trans (answerReq_work chan _ _)
  · have opened := (removed.untraced off).openFor_quiet g (keyBank r.key) (keyRow r.key)
    have off' := opened.untraced (removed.untraced off)
    have reached := removed.trans opened.work
    generalize (s.setCc c ((s.cc c).remove r)).openFor c (keyBank r.key) (keyRow r.key) = u at *
    rw [off'.trace, ite_self, off'.trace]
    split
    · exact reached.trans (writeBurst_work line chan bank u _)
    · exact reached.trans (answerRead64_work chan line u)

theorem Untraced.slot_work (off : Untraced s c) (line : r.key % 64 = 0) (bank : keyBank r.key / 64 = g) : GroupWork c g [] s (s.slot c r) := by
  have charged : GroupWork c g [] s (s.charge c r) := by
    unfold State.charge
    dsimp only
    refine .setCc ((charge_works (s.cc c) (keyBank r.key) (keyRow r.key) c).trans ?_)
    split
    · exact .refl c _
    · exact ⟨rfl, fun a h => ⟨a, h, .refl a⟩, rfl, fun _ h => h, fun _ _ _ h => .inl h⟩
  exact charged.trans ((charged.untraced off).serve_work chan line bank)

omit chan in
/-- A write-back to a column of the group runs, whatever its burst meets. -/
theorem Untraced.storeBack_work (off : Untraced s c) {col since : Nat} {d : BitVec 256} (own : keyChan (32 * col) = c) (bank : keyBank (32 * col) / 64 = g) :
    GroupWork c g [] s (s.storeBack c (.writeBack col since d)) := by
  have awake := off.pdx_refreshed (2 ^ (keyBank (32 * col) / 32))
  have off1 := awake.untraced off
  have woken := (awake.quiet g).work
  unfold State.storeBack
  dsimp only
  generalize s.pdx c (2 ^ (keyBank (32 * col) / 32)) = u at *
  have charged := charge_works (u.cc c) (keyBank (32 * col)) (keyRow (32 * col)) c
  generalize (u.cc c).charge (keyBank (32 * col)) (keyRow (32 * col)) = k at *
  have taken : GroupWork c g [] u (u.setCc c (CcSt.refill { k with maint := k.maint.erase (.writeBack col since d) })) := by
    have erased : k.Works c { k with maint := k.maint.erase (.writeBack col since d) } := by
      refine ⟨rfl, fun a h => ⟨a, h, .refl a⟩, rfl, fun _ h => h, fun x t e h => .inl ?_⟩
      rw [List.mem_append] at h ⊢
      exact h.imp_left List.mem_of_mem_erase
    exact .setCc ((charged.trans erased).trans ((refill_tended _).works c))
  generalize u.setCc c (CcSt.refill { k with maint := k.maint.erase (.writeBack col since d) }) = v at *
  have off2 := taken.untraced off1
  have opened := off2.openFor_quiet g (keyBank (32 * col)) (keyRow (32 * col))
  have off3 := opened.untraced off2
  have reached := (woken.trans taken).trans opened.work
  generalize v.openFor c (keyBank (32 * col)) (keyRow (32 * col)) = x at *
  rw [off3.trace]
  generalize (if x.burstLost (col / 2 * 64) true = true then none else some d) = h
  have inside : ¬ Outside c g col := fun out => out.elim (· own) (· bank)
  have stored : GroupWork c g [] x { x with mem := x.mem.writeCol col h } := .mem fun _ _ => x.mem.writeCol_kept inside h
  exact (reached.trans stored).trans (burstEnd_work ((keyChan_pair col).trans own) _ true)

end

end Sys2Proof.Machine
end

section
/-! The gap before a row period, and the commands of a pass that store (R83, R118, R119, R154). -/

namespace Sys2Proof.Machine

/-- Work of a pass that meets nothing waiting for its group leaves it so: nothing leaves the card, and storage stays unless the pass stores (`w`). -/
structure PassStep (c g : Nat) (w : Bool) (l : List Contribution) (s t : State) : Prop extends GroupWork c g l s t where
  idle : GapIdle s c g → GapIdle t c g ∧ t.out = s.out ∧ (w = false → t.mem = s.mem)

section
variable {c g : Nat} {w : Bool} {l l' : List Contribution} {s t u : State}

theorem PassStep.refl (c g : Nat) (w : Bool) (s : State) : PassStep c g w [] s s := ⟨.refl c g s, fun h => ⟨h, rfl, fun _ => rfl⟩⟩

theorem PassStep.trans (h : PassStep c g w l s t) (x : PassStep c g w l' t u) : PassStep c g w (l ++ l') s u := by
  refine ⟨h.toGroupWork.trans x.toGroupWork, fun none => ?_⟩
  obtain ⟨none', out, mem⟩ := h.idle none
  obtain ⟨none'', out', mem'⟩ := x.idle none'
  exact ⟨none'', out'.trans out, fun reads => (mem' reads).trans (mem reads)⟩

theorem GapIdle.of_cc (pool : ∀ q ∈ (t.cc c).pool, q ∈ (s.cc c).pool)
    (writeBacks : ∀ col since d, Maint.writeBack col since d ∈ (t.cc c).maint ++ (t.cc c).waiting → Maint.writeBack col since d ∈ (s.cc c).maint ++ (s.cc c).waiting)
    (none : GapIdle s c g) : GapIdle t c g := by
  obtain ⟨requests, backs⟩ := none
  refine ⟨fun q hq => requests q (pool q hq), fun m hm => ?_⟩
  cases m with
  | neighbour => trivial
  | writeBack col since d => exact backs _ (writeBacks col since d hm)

theorem Quiet.step (h : Quiet c g s t) (w : Bool) : PassStep c g w [] s t :=
  ⟨h.work, fun none => ⟨none.of_cc (fun q hq => h.cc.pool ▸ hq) h.cc.writeBacks, by rw [h.rest], fun _ => by rw [h.rest]⟩⟩

/-- A change of storage by a pass that stores. -/
theorem PassStep.mem {m : Mem} (kept : Homed s c → RowsFit s c → MemKept c g s.mem m) : PassStep c g true [] s { s with mem := m } :=
  ⟨.mem kept, fun none => ⟨none, rfl, fun no => absurd no (by decide)⟩⟩

theorem PassStep.contribute (s : State) (x : Contribution) : PassStep c g w [x] s (s.contribute c x) :=
  ⟨.contribute s x, fun none => ⟨none, rfl, fun _ => rfl⟩⟩

/-! ### Gaps -/

theorem computing_iff (k : CcSt) (bank : Nat) : k.computing bank = true ↔ ∃ a, k.active = some a ∧ pG a.req.pkt = bank / 64 := by
  unfold CcSt.computing CcSt.group
  cases k.active with
  | none => simp
  | some a => simp [pG, Pkt.f]

/-- What the gap serves is a request or a write-back of the computing group, so the channel was not idle for it. -/
theorem Untraced.gapServe_step (n : Nat) : ∀ (s : State) (a : Active), Untraced s c → Homed s c → (s.cc c).active = some a → pG a.req.pkt = g → PassStep c g w [] s (State.gapServe n s c) := by
  induction n with
  | zero => exact fun s _ _ _ _ _ => .refl c g w s
  | succ n ih =>
    intro s a off home active group
    have next {t : State} (served : GroupWork c g [] s t) (busy : ¬ GapIdle s c g) : PassStep c g w [] s (State.gapServe n t c) := by
      obtain ⟨b, here, runs⟩ := served.active a active
      exact PassStep.trans ⟨served, fun none => absurd none busy⟩ (ih t b (served.untraced off) (served.homed home) here (runs.req ▸ group))
    have bank {key : Nat} (h : (s.cc c).computing (keyBank key) = true) : keyBank key / 64 = g := by
      obtain ⟨b, here, own⟩ := (computing_iff _ _).mp h
      rw [active] at here
      cases here
      rw [← own, group]
    rw [State.gapServe]
    split
    · next r found =>
      have computing : (s.cc c).computing (keyBank r.key) = true := by simpa using List.find?_some found
      have pooled : r ∈ (s.cc c).pool := List.mem_of_mem_filter (List.mem_of_find?_eq_some found)
      obtain ⟨-, line, chan⟩ := home.1 r pooled
      exact next (off.slot_work chan line (bank computing)) fun none => none.1 r pooled (bank computing)
    · split
      · next m found =>
        have queued : m ∈ (s.cc c).maint := List.mem_of_mem_filter (List.mem_of_find?_eq_some found)
        have mine := List.find?_some found
        cases m with
        | neighbour => simp at mine
        | writeBack col since d =>
          have computing : (s.cc c).computing (keyBank (32 * col)) = true := by simpa using mine
          exact next (off.storeBack_work (home.2 _ (List.mem_append_left _ queued)) (bank computing)) fun none => none.2 _ (List.mem_append_left _ queued) (bank computing)
      · exact .refl c g w s

theorem Untraced.endGap_step {a : Active} (off : Untraced s c) (home : Homed s c) (active : (s.cc c).active = some a) (group : pG a.req.pkt = g) : PassStep c g w [] s (s.endGap c g) := by
  have first := (off.refreshFirst.quiet g).step w
  have off1 := first.untraced off
  obtain ⟨b, here, runs⟩ := first.active a active
  have served := off1.gapServe_step (w := w) 16 _ b (first.homed home) here (runs.req ▸ group)
  have off2 := served.untraced off1
  have again := (off2.refreshFirst.quiet g).step w
  have off3 := again.untraced off2
  unfold State.endGap
  dsimp only
  generalize (State.gapServe 16 (s.refreshFirst c) c).refreshFirst c = v at *
  refine ((first.trans served).trans again).trans (l' := []) (upto_keeps (fun x => PassStep c g w [] v x) 64 _ v (.refl c g w v) fun i x h => ?_)
  exact h.trans (((h.untraced off3).closeRow_quiet g _).step w)

/-! ### Stores of a pass -/

/-- A column of an engine's row lies in the engine's group. -/
theorem engine_inside {c g p row col : Nat} (hc : c < 384) (hg : g < 2) (hp : p < 64) (hr : row < 8192) (hcol : col < 64) : ¬ Outside c g (mkKey c (64 * g + p) row (32 * col) / 32) := by
  have chan : keyChan (32 * (mkKey c (64 * g + p) row (32 * col) / 32)) = c := by
    unfold keyChan mkKey bitsOf
    omega
  have bank : keyBank (32 * (mkKey c (64 * g + p) row (32 * col) / 32)) / 64 = g := by
    unfold keyBank mkKey bitsOf
    omega
  exact fun out => out.elim (· chan) (· bank)

/-- Every working engine of the group stores a column of its row. -/
theorem eachWrite_step (hc : c < 384) (hg : g < 2) (s : State) {col : Nat} (hcol : col < 64) (f : EngSt → Half) : PassStep c g true [] s (s.eachWrite c g col f) := by
  refine upto_keeps_lt (PassStep c g true [] s) 64 _ s (.refl c g true s) fun p hp u h => ?_
  dsimp only
  split
  · exact h
  · have dropped := (Quiet.setCc (((u.cc c).dropWriteBack_tended (mkKey c (64 * g + p) (u.eng (engIdx c g p)).row (32 * col) / 32)).passes u.tsc g)).step (g := g) true
    refine (h.trans dropped).trans (l' := []) (.mem fun _ fit => Mem.writeCol_kept _ (engine_inside hc hg hp ?_ hcol) _)
    exact fit (engIdx c g p) (engIdx_channel c hg hp)

end

end Sys2Proof.Machine
end

section
/-! Every command of a pass but EXIT, as one step of its channel (R113-R119, R143, R152, R157, R159). -/

namespace Sys2Proof.Machine

/-! ### An engine's operation keeps the row -/

/-- A fold over an engine and its notes keeps the row when each of its steps does. -/
theorem foldl_row {α : Type} (l : List α) (f : EngSt × Note → α → EngSt × Note) (keep : ∀ r x, (f r x).1.row = r.1.row) (r : EngSt × Note) : (l.foldl f r).1.row = r.1.row := by
  induction l generalizing r with
  | nil => rfl
  | cons x l ih => exact (ih (f r x)).trans (keep r x)

theorem EngSt.cmpGemv_row (e : EngSt) (col : Half) (j h i : Nat) : (e.cmpGemv col j h i).1.row = e.row := by
  refine foldl_row _ _ (fun r l => ?_) _
  generalize e.gemvLane col j h i l = x
  rfl

theorem EngSt.endKey_row (e : EngSt) (n l : Nat) : (e.endKey n l).1.row = e.row := by
  unfold EngSt.endKey
  split
  · rfl
  · dsimp only
    split <;> rfl

theorem EngSt.cmpScore_row (e : EngSt) (col : Half) (d n : Nat) (last : Bool) : (e.cmpScore col d n last).1.row = e.row := by
  refine foldl_row _ _ (fun r l => ?_) _
  dsimp only
  split
  · exact EngSt.endKey_row _ n l
  · rfl

theorem EngSt.newKey_row (e : EngSt) (n l : Nat) : (e.newKey n l).1.row = e.row := by
  unfold EngSt.newKey
  split
  · rfl
  · dsimp only
    split
    · rfl
    · split <;> rfl

theorem EngSt.cmpValue_row (e : EngSt) (col : Half) (x n : Nat) (first : Bool) : (e.cmpValue col x n first).1.row = e.row := by
  unfold EngSt.cmpValue
  dsimp only
  refine (foldl_row _ _ (fun r i => ?_) _).trans ?_
  · generalize r.1.accAt _ = v, r.1.pAt _ = p
    split <;> rfl
  · split
    · refine foldl_row (List.range 8) _ (fun r l => ?_) (e, {})
      exact EngSt.newKey_row r.1 n l
    · rfl

theorem EngSt.clr_row (e : EngSt) (scope : Bool) : (e.clr scope).row = e.row := by
  unfold EngSt.clr
  dsimp only
  split <;> rfl

theorem EngSt.opb_row (e : EngSt) (toSs : Bool) (off : Nat) (d : Cell64) : (e.opb toSs off d).row = e.row := by
  unfold EngSt.opb
  split <;> rfl

/-! ### Commands that store nothing -/

/-- Operations one after another. -/
theorem upto_quiet {c g : Nat} {s : State} (n : Nat) (f : Nat → State → State) (step : ∀ i t, Quiet c g t (f i t)) : Quiet c g s (upto n f s) :=
  upto_keeps (Quiet c g s) n f s (.refl c g s) fun i _ h => h.trans (step i _)

section
variable {c g : Nat} (hc : c < 384) (hg : g < 2)
include hg

/-- A set-up operation that keeps the engines' rows. -/
theorem setUp_quiet (s : State) (f : Nat → EngSt → EngSt) (row : ∀ p e, (f p e).row = e.row) : Quiet c g s (s.setUp c g f) := by
  refine eachEng_quiet hg s _ fun p e => .inl ?_
  split
  · exact row p e
  · rfl

theorem opCfg_quiet (s : State) (mode wt aty mask : Nat) : Quiet c g s (s.opCfg c g mode wt aty mask) := setUp_quiet hg s _ fun _ _ => rfl

theorem opClr_quiet (s : State) (scope : Bool) : Quiet c g s (s.opClr c g scope) := setUp_quiet hg s _ fun _ e => e.clr_row scope

theorem opOpb_quiet (s : State) (toSs : Bool) (off : Nat) (d : Cell64) : Quiet c g s (s.opOpb c g toSs off d) := setUp_quiet hg s _ fun _ e => e.opb_row toSs off d

include hc

theorem opActa_quiet (s : State) {row : Nat} (hr : row < 8192) : Quiet c g s (s.opActa c g row) := by
  unfold State.opActa
  dsimp only
  have acts : Quiet c g s (upto 64 (fun p t => if s.engOpen c g p then t else t.activate c (64 * g + p) row) s) := by
    refine upto_keeps (Quiet c g s) 64 _ s (.refl c g s) fun p u h => ?_
    split
    · exact h
    · exact h.trans (activate_quiet u c g _ row)
  generalize upto 64 _ s = u at *
  refine ((acts.trans (count_quiet (bd_notMem_passWords hc _ _) g u 1 _ _)).trans (seqError_quiet hc hg _ 3 _)).trans (eachEng_quiet hg _ _ fun p e => ?_)
  split
  · exact .inr hr
  · exact .inr hr
  · exact .inl rfl

omit hc in
theorem opPrea_quiet (s : State) : Quiet c g s (s.opPrea c g) := by
  refine eachEng_quiet hg s _ fun p e => .inl ?_
  split <;> rfl

theorem opCmp_quiet (s : State) (b : CmpBurst) (i : Nat) : Quiet c g s (s.opCmp c g b i) := by
  unfold State.opCmp
  dsimp only
  refine (((colError_quiet hc hg s 9 true).trans (count_quiet (bd_notMem_passWords hc _ _) g _ _ _ _)).trans (count_quiet (bd_notMem_passWords hc _ _) g _ _ _ _)).trans
    (eachRead_quiet hc hg _ _ _ fun e h => ?_)
  split
  · exact e.cmpGemv_row _ _ _ _
  · exact e.cmpScore_row _ _ _ _
  · exact e.cmpValue_row _ _ _ _
  · rfl

theorem burstCmp_quiet (s : State) (b : CmpBurst) (i0 k : Nat) : Quiet c g s (s.burstCmp c g b i0 k) := by
  unfold State.burstCmp
  split
  · exact upto_quiet k _ fun i t => opCmp_quiet hc hg t b _
  · exact seqError_quiet hc hg s 9 _

theorem burstScl_quiet (s : State) (c0 n o0 i0 k : Nat) : Quiet c g s (s.burstScl c g c0 n o0 i0 k) := by
  unfold State.burstScl
  split
  · exact upto_quiet k _ fun i t => (colError_quiet hc hg t 8 true).trans (eachRead_quiet hc hg _ _ _ fun _ _ => rfl)
  · exact seqError_quiet hc hg s 8 _

theorem burstSld_quiet (s : State) (c0 n o0 i0 k : Nat) : Quiet c g s (s.burstSld c g c0 n o0 i0 k) := by
  unfold State.burstSld
  split
  · exact upto_quiet k _ fun i t => (colError_quiet hc hg t 10 true).trans (eachRead_quiet hc hg _ _ _ fun _ _ => rfl)
  · exact seqError_quiet hc hg s 10 _

theorem burstRcr_quiet (s : State) (c0 n i0 k : Nat) : Quiet c g s (s.burstRcr c g c0 n i0 k) := by
  unfold State.burstRcr
  split
  · exact upto_quiet k _ fun i t => (colError_quiet hc hg t 12 false).trans (eachRead_quiet hc hg _ _ _ fun _ _ => rfl)
  · exact seqError_quiet hc hg s 12 _

omit hg in
theorem maskHits_quiet (s : State) (mask : Nat) : Quiet c g s (s.maskHits c g mask) := by
  refine upto_quiet 64 _ fun p t => ?_
  split
  · exact (Quiet.wr t _ _ 1 (bd_notMem_passWords hc _ _)).trans (.emit c g _ _ _ _)
  · exact .refl c g t

end

/-! ### Commands that store, and commands that hand over -/

theorem eachWrites_step {c g : Nat} (hc : c < 384) (hg : g < 2) (s : State) {first n : Nat} (op : Nat) (needsMode : Bool) (f : Nat → EngSt → Half) (fits : ∀ i < n, first + i < 64) :
    PassStep c g true [] s (upto n (fun i s => (s.colError c g op needsMode).eachWrite c g (first + i) (f i)) s) :=
  upto_keeps_lt (PassStep c g true [] s) n _ s (.refl c g true s) fun i hi u h =>
    (h.trans ((colError_quiet hc hg u op needsMode).step true)).trans (eachWrite_step hc hg _ (fits i hi) (f i))

theorem burstBlw_step {c g : Nat} (hc : c < 384) (hg : g < 2) (s : State) {c0 n o0 i0 k : Nat} (part : i0 + k = n) : PassStep c g true [] s (s.burstBlw c g c0 n o0 i0 k) := by
  unfold State.burstBlw
  split
  · next within => exact eachWrites_step hc hg s 11 true _ fun i hi => by omega
  · exact (seqError_quiet hc hg s 11 _).step true

theorem burstRcw_step {c g : Nat} (hc : c < 384) (hg : g < 2) (s : State) {c0 n i0 k : Nat} (part : i0 + k = n) : PassStep c g true [] s (s.burstRcw c g c0 n i0 k) := by
  unfold State.burstRcw
  split
  · next within => exact eachWrites_step hc hg s 13 false _ fun i hi => by omega
  · exact (seqError_quiet hc hg s 13 _).step true

/-- What a command of the instruction `r` hands to the merge unit: the 64 drain units where it drains and MOP merges, else nothing (R157, R159). -/
def Hands (c : Nat) (r : PassReq) (due : Bool) (l : List Contribution) : Prop :=
  if due = true ∧ pMop r.pkt ≠ 3 then ∃ units, l = [⟨c % 32, mergeKey r.pkt, pTag r.pkt, r.tile, false, units⟩] ∧ units.length = 64 else l = []

theorem Hands.nothing (c : Nat) (r : PassReq) : Hands c r false [] := by simp [Hands]

theorem drain_step {c : Nat} (hc : c < 384) (w : Bool) (s : State) (r : PassReq) : ∃ l, Hands c r true l ∧ PassStep c (pG r.pkt) w l s (s.drain c r) := by
  have hits := (maskHits_quiet hc (g := pG r.pkt) s (pMask r.pkt)).step w
  unfold State.drain Hands
  dsimp only
  by_cases discards : pMop r.pkt = 3
  · rw [if_pos discards]
    exact ⟨[], by simp [discards], hits⟩
  · rw [if_neg discards]
    exact ⟨_, by rw [if_pos ⟨rfl, discards⟩]; exact ⟨_, rfl, by rw [List.length_map, List.length_range]⟩, hits.trans (.contribute _ _)⟩

/-- A command that a plan holds before its EXIT; only a pass that stores (`w`) writes columns. -/
def PCmd.Fits (w : Bool) : PCmd → Prop
  | .acta row => row < 8192
  | .cmp _ n _ _ i k _ => i + k = n
  | .blw _ n i k => w = true ∧ i + k = n
  | .rcw _ n i k => w = true ∧ i + k = n
  | .exit => False
  | _ => True

theorem acta_quiet {c g : Nat} (hc : c < 384) (hg : g < 2) (s : State) {row : Nat} (hr : row < 8192) :
    Quiet c g s ((s.opActa c g row).setCc c { (s.opActa c g row).cc c with active := ((s.opActa c g row).cc c).active.map (fun a => { a with gap := false }) }) := by
  refine (opActa_quiet hc hg s hr).trans (.setCc ⟨rfl, rfl, fun a h => ⟨{ a with gap := false }, ?_, rfl, fun _ _ x => x, rfl⟩, .inl rfl, fun _ _ _ h => h⟩)
  dsimp only
  rw [h]
  rfl

/-- PREA starts the group's gap, at the present time. -/
def CcSt.afterPrea (k : CcSt) (g now : Nat) : CcSt :=
  { k with preaAt := put noRow k.preaAt g (some now), active := k.active.map (fun a => { a with gapServed := 0, gap := true }) }

theorem CcSt.afterPrea_passes (k : CcSt) (g now : Nat) : k.Passes now g (k.afterPrea g now) := by
  refine ⟨rfl, rfl, fun a h => ⟨{ a with gapServed := 0, gap := true }, ?_, rfl, fun _ _ x => x, rfl⟩, .inr ?_, fun _ _ _ h => h⟩
  · unfold CcSt.afterPrea
    dsimp only
    rw [h]
    rfl
  · exact look_put_same noRow k.preaAt g (some now)

theorem effect_quiet {c b : Nat} {f : Fld} (apart : b + f.off ∉ passWords c) (g : Nat) (s : State) : Quiet c g s (s.effect b f) := by
  obtain ⟨rest, words⟩ := effect_rest s b f
  refine .of_regs (rest.trans (by rw [rest])) words fun o ho e => apart (List.mem_singleton.mp e ▸ ho)

theorem prea_quiet {c : Nat} (s : State) (a : Active) : Quiet c (pG a.req.pkt) s (s.perform c a .prea) := by
  have closed := (opPrea_quiet (c := c) (pG_lt a.req.pkt) s).trans (effect_quiet (cc_notMem_passWords c (f := CC_SCHED_CTRL_GAP_REQS) (by decide) (by decide)) _ _)
  unfold State.perform
  dsimp only
  generalize (s.opPrea c (pG a.req.pkt)).effect (ccB c) CC_SCHED_CTRL_GAP_REQS = u at *
  exact closed.trans (.setCc (CcSt.afterPrea_passes (u.cc c) _ u.tsc))

/-- Every command of a plan but EXIT is a step of its pass, and hands its units over where it drains. -/
theorem perform_step {c : Nat} (hc : c < 384) {w : Bool} (s : State) (a : Active) {m : PCmd} (fits : m.Fits w) :
    ∃ l, Hands c a.req (drains m) l ∧ PassStep c (pG a.req.pkt) w l s (s.perform c a m) := by
  have hg := pG_lt a.req.pkt
  have nothing {t : State} (q : PassStep c (pG a.req.pkt) w [] s t) : ∃ l, Hands c a.req false l ∧ PassStep c (pG a.req.pkt) w l s t := ⟨[], .nothing c a.req, q⟩
  cases m with
  | cfg => exact nothing ((opCfg_quiet hg s _ _ _ _).step w)
  | clr => exact nothing ((opClr_quiet hg s _).step w)
  | opb r u =>
    refine nothing (Quiet.step ?_ w)
    unfold State.perform
    dsimp only
    split
    · exact opOpb_quiet hg s _ _ _
    · split
      · exact opOpb_quiet hg s _ _ _
      · exact opOpb_quiet hg s _ _ _
  | acta row => exact nothing ((acta_quiet hc hg s fits).step w)
  | prea => exact nothing ((prea_quiet s a).step w)
  | scl c0 n i k => exact nothing ((burstScl_quiet hc hg s _ _ _ _ _).step w)
  | cmp c0 n h x i k dl =>
    have burst := (burstCmp_quiet hc hg s (cmpBurst a.req.pkt c0 n h x) i k).step w
    have whole : decide (i + k = n) = true := decide_eq_true fits
    unfold State.perform
    dsimp only
    rw [whole, Bool.and_true]
    cases dl with
    | false => exact nothing burst
    | true =>
      obtain ⟨l, hands, drained⟩ := drain_step hc w (s.burstCmp c (pG a.req.pkt) (cmpBurst a.req.pkt c0 n h x) i k) a.req
      exact ⟨l, hands, burst.trans drained⟩
  | sld c0 n i k => exact nothing ((burstSld_quiet hc hg s _ _ _ _ _).step w)
  | blw c0 n i k =>
    obtain ⟨rfl, part⟩ := fits
    exact nothing (burstBlw_step hc hg s part)
  | rcr c0 n i k => exact nothing ((burstRcr_quiet hc hg s _ _ _ _).step w)
  | rcw c0 n i k =>
    obtain ⟨rfl, part⟩ := fits
    exact nothing (burstRcw_step hc hg s part)
  | drn =>
    have checked := (seqError_quiet hc hg s 14 (fun e => decide ((e.st = .ready ∨ e.st = .opened) ∧ e.mode = 0))).step w
    obtain ⟨l, hands, drained⟩ := drain_step hc w (s.seqError c (pG a.req.pkt) 14 (fun e => decide ((e.st = .ready ∨ e.st = .opened) ∧ e.mode = 0))) a.req
    exact ⟨l, hands, checked.trans drained⟩
  | exit => exact fits.elim

end Sys2Proof.Machine
end

section
/-! An unlocked pass issues its commands one after another (R152-R154, R158, R435). -/

namespace Sys2Proof.Machine

theorem mem_nextPeriod {m : PCmd} : ∀ l : List PCmd, m ∈ (nextPeriod l).1 → m ∈ l
  | [], h => h
  | x :: l, h => by
    unfold nextPeriod at h
    split at h
    · exact absurd h List.not_mem_nil
    · next heq => cases heq; exact List.mem_cons.mpr (.inl (List.mem_singleton.mp h))
    · next heq =>
      cases heq
      exact (List.mem_cons.mp h).elim (fun e => e ▸ List.mem_cons_self) fun later => List.mem_cons_of_mem _ (mem_nextPeriod l later)

section
variable {c : Nat} {w : Bool} {r : PassReq} {l : List Contribution} {s t : State} {a b : Active}

/-- The level of stack `k`. -/
theorem PassStep.spaced {g : Nat} (h : PassStep c g w l s t) (level : bitsOf (s.rd pwrB PWR_SLEVEL_LEVEL) (3 * (c / 32)) 3 = 0) (spaced : s.spaced c g = true) : t.spaced c g = true := by
  have same : t.rd pwrB PWR_SLEVEL_LEVEL = s.rd pwrB PWR_SLEVEL_LEVEL := State.rd_of_word (h.words _ (by simp [passWords]))
  have tsc : t.tsc = s.tsc := by rw [h.rest]
  have none : spacingNs 0 = 0 := by decide
  unfold State.spaced at *
  rw [same, tsc, level, none] at *
  rcases h.prea with kept | now
  · rw [kept]; exact spaced
  · rw [now]; exact decide_eq_true (Nat.le_refl _)

theorem PassStep.bufferFree {g : Nat} (h : PassStep c g w [] s t) : t.bufferFree c = s.bufferFree c := by
  have bd := h.bd
  rw [List.append_nil] at bd
  unfold State.bufferFree
  rw [bd]

/-- The pass `a` of instruction `r` runs at state `s`: the commands `cmds` may issue one after another, and `tail` follows. -/
structure Running (c : Nat) (w : Bool) (r : PassReq) (cmds tail : List PCmd) (s : State) (a : Active) : Prop where
  off    : Untraced s c
  home   : Homed s c
  active : (s.cc c).active = some a
  req    : a.req = r
  todo   : a.todo = cmds ++ tail
  fits   : ∀ m ∈ cmds, m.Fits w
  ends   : ∀ m ∈ tail, m = .exit
  here   : ∀ rec unit, .opb rec unit ∈ cmds → a.has rec unit = true
  once   : (cmds.filter drains).length ≤ 1
  free   : cmds.any drains = true → s.bufferFree c = true
  held   : a.held = false
  level  : bitsOf (s.rd pwrB PWR_SLEVEL_LEVEL) (3 * (c / 32)) 3 = 0
  spaced : s.spaced c (pG r.pkt) = true

variable {m : PCmd} {cmds tail : List PCmd}

/-- The first command may issue. -/
theorem Running.mayIssue (h : Running c w r (m :: cmds) tail s a) : s.mayIssue c a m = true := by
  have drained (x : PCmd) (hx : x ∈ (nextPeriod a.todo).1) (d : drains x = true) : s.bufferFree c = true := by
    have listed := mem_nextPeriod _ hx
    rw [h.todo, List.mem_append] at listed
    refine listed.elim (fun i => h.free (List.any_eq_true.mpr ⟨x, i, d⟩)) fun i => ?_
    rw [h.ends x i] at d
    exact absurd d (by decide)
  have fetched (rec unit : Nat) (hx : .opb rec unit ∈ (nextPeriod a.todo).1) : a.has rec unit = true := by
    have listed := mem_nextPeriod _ hx
    rw [h.todo, List.mem_append] at listed
    exact listed.elim (h.here rec unit) fun i => PCmd.noConfusion (h.ends _ i)
  have rowReady : s.rowReady c a = true := by
    unfold State.rowReady
    rw [h.held, h.req, h.spaced, Bool.not_false, Bool.and_self, Bool.true_and, List.all_eq_true]
    intro x hx
    cases x with
    | cmp c0 n k x i j dl =>
      cases dl with
      | false => rfl
      | true => exact drained _ hx rfl
    | _ => rfl
  unfold State.mayIssue
  cases m with
  | opb rec unit => exact h.here rec unit List.mem_cons_self
  | acta row =>
    dsimp only
    rw [rowReady, Bool.true_and, List.all_eq_true]
    intro x hx
    cases x with
    | opb rec unit => exact fetched rec unit hx
    | _ => rfl
  | drn => exact h.free (List.any_eq_true.mpr ⟨.drn, List.mem_cons_self, rfl⟩)
  | _ => rfl

theorem setTodo_quiet (g : Nat) (s : State) (l : List PCmd) : Quiet c g s (s.setTodo c l) := by
  refine .setCc ⟨rfl, rfl, fun a h => ⟨{ a with todo := l }, ?_, rfl, fun _ _ x => x, rfl⟩, .inl rfl, fun _ _ _ h => h⟩
  dsimp only
  rw [h]
  rfl

theorem Running.issue_step (hc : c < 384) (h : Running c w r (m :: cmds) tail s a) : ∃ l, Hands c r (drains m) l ∧ PassStep c (pG r.pkt) w l s (s.issue c a m) := by
  have req := h.req
  subst req
  have after {u : State} (before : PassStep c (pG a.req.pkt) w [] s u) : ∃ l, Hands c a.req (drains m) l ∧
      PassStep c (pG a.req.pkt) w l s ((u.bankCmd c (some (pTag a.req.pkt)) (cmdWords a.req.pkt m).1 (cmdWords a.req.pkt m).2).perform c a m) := by
    have slot := ((before.untraced h.off).bankCmd_quiet (pG a.req.pkt) (some (pTag a.req.pkt)) (cmdWords a.req.pkt m).1 (cmdWords a.req.pkt m).2).step w
    obtain ⟨l, hands, performed⟩ := perform_step hc (u.bankCmd c (some (pTag a.req.pkt)) (cmdWords a.req.pkt m).1 (cmdWords a.req.pkt m).2) a (h.fits m List.mem_cons_self)
    exact ⟨l, hands, (before.trans slot).trans performed⟩
  cases m with
  | acta row => exact after (h.off.endGap_step h.home h.active rfl)
  | _ => exact after (.refl _ _ _ _)

/-- After a command that drains no other does. -/
theorem Running.drains_once (h : Running c w r (m :: cmds) tail s a) (drained : drains m = true) : cmds.any drains = false := by
  have once := h.once
  rw [List.filter_cons_of_pos drained, List.length_cons] at once
  have none : cmds.filter drains = [] := List.eq_nil_of_length_eq_zero (by omega)
  rw [List.any_eq_false]
  exact fun x hx dx => absurd (List.mem_filter.mpr ⟨hx, dx⟩) (none ▸ List.not_mem_nil)

/-- After the first command the rest runs on. -/
theorem Running.next (h : Running c w r (m :: cmds) tail s a) (hands : Hands c r (drains m) l) (step : PassStep c (pG r.pkt) w l s t) :
    ∃ b, Running c w r cmds tail (t.setTodo c (cmds ++ tail)) b := by
  obtain ⟨b, active, runs⟩ := step.active a h.active
  have set := (setTodo_quiet (c := c) (pG r.pkt) t (cmds ++ tail)).step w
  have both := step.trans set
  have cc : ((t.setTodo c (cmds ++ tail)).cc c).active = some { b with todo := cmds ++ tail } := by
    unfold State.setTodo
    rw [State.setCc_cc]
    dsimp only
    rw [active]
    rfl
  refine ⟨{ b with todo := cmds ++ tail }, both.untraced h.off, both.homed h.home, cc, runs.req.trans h.req, rfl, fun x hx => h.fits x (List.mem_cons_of_mem _ hx), h.ends, fun rec unit hx => runs.has rec unit (h.here rec unit (List.mem_cons_of_mem _ hx)),
    ?_, fun due => ?_, runs.held.trans h.held, ?_, both.spaced h.level h.spaced⟩
  · exact (List.Sublist.length_le ((List.sublist_cons_self m cmds).filter drains)).trans h.once
  · have plain : drains m = false := by
      cases drained : drains m with
      | false => rfl
      | true => rw [h.drains_once drained] at due; exact due.symm
    rw [plain] at hands
    have nothing : l = [] := by simpa [Hands] using hands
    subst nothing
    rw [set.bufferFree, step.bufferFree]
    exact h.free (List.any_eq_true.mpr (by obtain ⟨x, hx, dx⟩ := List.any_eq_true.mp due; exact ⟨x, List.mem_cons_of_mem _ hx, dx⟩))
  · rw [State.rd_of_word (both.words _ (by simp [passWords]))]
    exact h.level

theorem issueAll_issues (h : Running c w r (m :: cmds) tail s a) (n : Nat) : State.issueAll (n + 1) s c = State.issueAll n ((s.issue c a m).setTodo c (cmds ++ tail)) c := by
  rw [State.issueAll]
  rw [h.active]
  dsimp only
  rw [h.todo]
  dsimp only [List.cons_append]
  rw [h.mayIssue, if_pos rfl]

/-- All of `cmds` issues: it hands over exactly where it drains. -/
theorem Running.issueAll (hc : c < 384) (cmds : List PCmd) : ∀ (s : State) (a : Active), Running c w r cmds tail s a → ∀ n,
    ∃ l t b, Hands c r (cmds.any drains) l ∧ PassStep c (pG r.pkt) w l s t ∧ Running c w r [] tail t b ∧ State.issueAll (cmds.length + n) s c = State.issueAll n t c := by
  induction cmds with
  | nil => exact fun s a h n => ⟨[], s, a, .nothing c r, .refl _ _ _ _, h, by rw [List.length_nil, Nat.zero_add]⟩
  | cons m cmds ih =>
    intro s a h n
    obtain ⟨l, hands, step⟩ := h.issue_step hc
    obtain ⟨b, running⟩ := h.next hands step
    have set := (setTodo_quiet (c := c) (pG r.pkt) (s.issue c a m) (cmds ++ tail)).step w
    obtain ⟨l', t, d, hands', rest, done, issued⟩ := ih _ b running n
    have all := (step.trans set).trans rest
    rw [List.append_nil] at all
    refine ⟨l ++ l', t, d, ?_, all, done, ?_⟩
    · rw [List.any_cons]
      cases drained : drains m with
      | false =>
        have nothing : l = [] := by simpa [Hands, drained] using hands
        rw [nothing]
        exact hands'
      | true =>
        rw [h.drains_once drained] at hands'
        have nothing : l' = [] := by simpa [Hands] using hands'
        rw [nothing, List.append_nil]
        rw [drained] at hands
        exact hands
    · rw [List.length_cons, Nat.add_right_comm, issueAll_issues h, issued]

end

end Sys2Proof.Machine
end

section
/-! The operand units of a pass arrive, and its plan (R139, R151, R152). -/

namespace Sys2Proof.Machine

section
variable {c g : Nat} {s t : State} {a b : Active}

/-! ### Fetches -/

theorem Quiet.seamHeld (h : Quiet c g s t) (x y : Nat) : t.seamHeld x y = s.seamHeld x y := by
  have word := h.words (seamB + SEAM_STAT_UP.off) (by simp [passWords])
  have up : t.rd seamB SEAM_STAT_UP = s.rd seamB SEAM_STAT_UP := State.rd_of_word word
  have hold : t.rd seamB SEAM_STAT_HOLD = s.rd seamB SEAM_STAT_HOLD := State.rd_of_word (show t.word (seamB + SEAM_STAT_HOLD.off) = _ from word)
  unfold State.seamHeld State.flag
  rw [up, hold]

/-- A command that needs an operand unit that has not arrived. -/
def Active.missing (a : Active) : PCmd → Bool
  | .opb rec unit => !a.has rec unit
  | _ => false

/-- Commands of the pass that need units that have not arrived. -/
def Active.lacks (a : Active) : Nat := (a.todo.filter a.missing).length

theorem firstUnit_some {asked : Option Nat} {l : List PCmd} {rec unit : Nat} (h : a.firstUnit asked l = some (rec, unit)) : .opb rec unit ∈ l ∧ a.has rec unit = false := by
  obtain ⟨m, hm, found⟩ := List.exists_of_findSome?_eq_some h
  cases m with
  | opb r u =>
    dsimp only at found
    rw [Option.ite_none_left_eq_some] at found
    obtain ⟨here, same⟩ := found
    cases same
    rw [Bool.or_eq_true, not_or] at here
    exact ⟨hm, Bool.eq_false_iff.mpr here.1⟩
  | _ => cases found

/-- The unit that arrives next is one that the pass lacks; none does only where the pass lacks none. -/
theorem nextFetch_some {rec unit : Nat} (h : a.nextFetch = some (rec, unit)) : .opb rec unit ∈ a.todo ∧ a.has rec unit = false := by
  unfold Active.nextFetch at h
  split at h
  · next first =>
    cases h
    obtain ⟨listed, lacks⟩ := firstUnit_some first
    exact ⟨List.mem_of_mem_take listed, lacks⟩
  · exact firstUnit_some h

/-- Every operand unit of the plan is asked of the tile. -/
def Active.Asks (a : Active) : Prop := ∀ rec unit, .opb rec unit ∈ a.todo → pKind a.req.pkt = 1 → rec < a.asked

theorem lacks_of_nextFetch_none (asks : a.Asks) (h : a.nextFetch = none) : a.lacks = 0 := by
  unfold Active.nextFetch at h
  split at h
  · cases h
  · unfold Active.lacks
    rw [List.length_eq_zero_iff, List.filter_eq_nil_iff]
    intro m hm
    cases m with
    | opb rec unit =>
      have found := List.findSome?_eq_none_iff.mp h _ hm
      dsimp only at found
      split at found
      · next here =>
        rw [Bool.or_eq_true] at here
        rcases here with here | unasked
        · simp [Active.missing, here]
        · have gemv := of_decide_eq_true unasked
          exact absurd (asks rec unit hm gemv.1) (by omega)
      · cases found
    | _ => simp [Active.missing]

theorem Active.fetch_lacks {rec unit : Nat} (d : Cell64) (up : Bool) (listed : .opb rec unit ∈ a.todo) (lacked : a.has rec unit = false) : (a.fetch rec unit d up).lacks < a.lacks := by
  have keeps (m : PCmd) (h : (a.fetch rec unit d up).missing m = true) : a.missing m = true := by
    cases m with
    | opb r u =>
      have fetched : (a.fetch rec unit d up).has r u = false := by simpa [Active.missing] using h
      have apart : 32 * r + u ≠ 32 * rec + unit := fun e => by
        have same : (a.fetch rec unit d up).has r u = (a.fetch rec unit d up).has rec unit := by unfold Active.has; rw [e]
        rw [same, a.fetch_has_same] at fetched
        cases fetched
      rw [a.fetch_has_ne d up apart] at fetched
      simpa [Active.missing] using fetched
    | _ => exact absurd h (by simp [Active.missing])
  have sub : (a.fetch rec unit d up).todo.filter (a.fetch rec unit d up).missing = (a.todo.filter a.missing).filter (a.fetch rec unit d up).missing := by
    rw [List.filter_filter]
    refine List.filter_congr fun m _ => ?_
    cases h : (a.fetch rec unit d up).missing m with
    | false => rfl
    | true => rw [keeps m h]; rfl
  unfold Active.lacks
  rw [sub, List.length_filter_lt_length_iff_exists]
  exact ⟨.opb rec unit, List.mem_filter.mpr ⟨listed, by simp [Active.missing, lacked]⟩, by simp [Active.missing, a.fetch_has_same]⟩

theorem Active.fetch_runs (a : Active) (rec unit : Nat) (d : Cell64) (up : Bool) : a.Runs (a.fetch rec unit d up) := by
  refine ⟨rfl, fun r u h => ?_, rfl⟩
  by_cases e : 32 * r + u = 32 * rec + unit
  · have same : (a.fetch rec unit d up).has r u = (a.fetch rec unit d up).has rec unit := by unfold Active.has; rw [e]
    rw [same, a.fetch_has_same]
  · rw [a.fetch_has_ne d up e, h]

/-- After some fetches the pass `b` is `a` with more operand units. -/
structure Fetching (c g : Nat) (s t : State) (a b : Active) : Prop where
  quiet  : Quiet c g s t
  active : (t.cc c).active = some b
  todo   : b.todo = a.todo
  asked  : b.asked = a.asked
  runs   : a.Runs b

theorem Fetching.one (h : Fetching c g s t a b) (carried : s.seamHeld (chanDie c) (tileDie a.req.tile) = false) (asks : a.Asks) :
    ∃ d, Fetching c g s (t.fetchOne c) a d ∧ d.lacks ≤ b.lacks - 1 := by
  obtain ⟨quiet, active, todo, asked, runs⟩ := h
  cases next : b.nextFetch with
  | none =>
    have same : t.fetchOne c = t := by unfold State.fetchOne; rw [active]; dsimp only; rw [next]
    have none : b.lacks = 0 := lacks_of_nextFetch_none (by unfold Active.Asks; rw [todo, runs.req, asked]; exact asks) next
    rw [same]
    exact ⟨b, ⟨quiet, active, todo, asked, runs⟩, by omega⟩
  | some x =>
    obtain ⟨rec, unit⟩ := x
    obtain ⟨u, restU, -, -, -, fetched⟩ := fetchOne_delivers active next (by rw [quiet.seamHeld, runs.req]; exact carried)
    obtain ⟨listed, lacked⟩ := nextFetch_some next
    rw [fetched]
    generalize (if t.nocCause b.req.tile = 0 then t.spCell b.req.tile ((pOpnd b.req.pkt + rec * pRec b.req.pkt + 64 * unit) / 64) else Cell64.bad) = d
    generalize decide (t.nocCause b.req.tile = 0) = up
    have cc : u.cc c = t.cc c := cc_of_ccs (by rw [restU]) c
    have told : Quiet c g t u := .of_regs (restU.trans (by rw [restU])) (.of_regs (by rw [restU]) []) fun _ _ => List.not_mem_nil
    have set : Quiet c g u (u.setCc c { t.cc c with active := some (b.fetch rec unit d up) }) := by
      refine .setCc ⟨by rw [cc], by rw [cc], fun x hx => ⟨_, rfl, ?_⟩, .inl (by rw [cc]), fun _ _ _ h => by rw [cc]; exact h⟩
      rw [cc, active] at hx
      cases hx
      exact b.fetch_runs rec unit d up
    exact ⟨b.fetch rec unit d up, ⟨(quiet.trans told).trans set, by rw [State.setCc_cc], todo, asked, runs.trans (b.fetch_runs rec unit d up)⟩, Nat.le_sub_one_of_lt (b.fetch_lacks d up listed lacked)⟩

/-- All operand units of the plan arrive. -/
theorem fetchAll_fetches (active : (s.cc c).active = some a) (carried : s.seamHeld (chanDie c) (tileDie a.req.tile) = false) (asks : a.Asks) :
    ∃ b, Fetching c g s (s.fetchAll c) a b ∧ ∀ rec unit, .opb rec unit ∈ a.todo → b.has rec unit = true := by
  have loop (n : Nat) : ∃ b, Fetching c g s (upto n (fun _ s => s.fetchOne c) s) a b ∧ b.lacks ≤ a.todo.length - n := by
    induction n with
    | zero => exact ⟨a, ⟨.refl c g s, active, rfl, rfl, .refl a⟩, List.length_filter_le _ _⟩
    | succ n ih =>
      obtain ⟨b, fetching, left⟩ := ih
      obtain ⟨d, fetching', left'⟩ := fetching.one carried asks
      exact ⟨d, by rw [upto_succ]; exact fetching', by omega⟩
  obtain ⟨b, fetching, left⟩ := loop a.todo.length
  have all : s.fetchAll c = upto a.todo.length (fun _ s => s.fetchOne c) s := by unfold State.fetchAll; rw [active]
  rw [all]
  refine ⟨b, fetching, fun rec unit listed => ?_⟩
  have none : b.todo.filter b.missing = [] := List.eq_nil_of_length_eq_zero (by unfold Active.lacks at left; omega)
  have here := List.filter_eq_nil_iff.mp none _ (fetching.todo ▸ listed)
  simpa [Active.missing] using here

end

end Sys2Proof.Machine
end

section
/-! The plan of a checked pass (R151, Table 5-3). -/

namespace Sys2Proof.Machine

/-- The plan but for its EXIT. -/
def passBody (p : Pkt) : List PCmd :=
  [.cfg] ++ (if pClr p then [.clr] else []) ++ (if pKind p = 1 ∨ pKind p = 2 then opbs p 0 else []) ++ (List.range (pRows p)).flatMap (rowCmds p) ++
    (if pDrain p && (decide (pKind p = 2) || decide (pKind p = 3)) then [.drn] else [])

/-- The EXIT of a plan that has one. -/
def passTail (p : Pkt) : List PCmd := if pExit p then [.exit] else []

section
variable {p : Pkt}

theorem passPlan_eq (runs : pKind p ≠ 5) : passPlan p = passBody p ++ passTail p := if_neg runs

/-- A checked pass keeps its rows in the bank, and merges as its KIND does (checks 3 and 7). -/
theorem passCheck_holds (checked : passCheck p = 0) (runs : pKind p ≠ 5) :
    ¬ (8191 < pRow0 p + (pRows p - 1) * pStride p ∨ (pKind p = 4 ∧ 8191 < pDst p + (pRows p - 1) * pStride p)) ∧ mergeOk p = true := by
  unfold passCheck at checked
  rw [if_neg runs] at checked
  by_cases rows : 8191 < pRow0 p + (pRows p - 1) * pStride p ∨ (pKind p = 4 ∧ 8191 < pDst p + (pRows p - 1) * pStride p)
  · rw [if_pos rows] at checked
    split_ifs at checked
  · refine ⟨rows, ?_⟩
    cases merges : mergeOk p with
    | true => rfl
    | false =>
      rw [merges, Bool.not_false, if_pos rfl] at checked
      split_ifs at checked

theorem pRows_pos (p : Pkt) : 0 < pRows p := Nat.succ_pos _

/-- A segment's row is one of the bank's. -/
theorem pSegRow_lt (p : Pkt) (s : Nat) : pSegRow p s < 8192 := bitsOf_lt _ _ _

/-- A row of the pass. -/
theorem row_lt {first stride n k : Nat} (last : ¬ 8191 < first + (n - 1) * stride) (hk : k < n) : first + k * stride < 8192 := by
  have within : k * stride ≤ (n - 1) * stride := Nat.mul_le_mul_right stride (by omega)
  omega

theorem mem_opbs {m : PCmd} {k : Nat} (h : m ∈ opbs p k) : ∃ u, m = .opb k u := by
  obtain ⟨u, -, e⟩ := List.mem_map.mp h
  exact ⟨u, e.symm⟩

theorem opbs_drains (p : Pkt) (k : Nat) : (opbs p k).filter drains = [] := by
  rw [List.filter_eq_nil_iff]
  intro m h
  obtain ⟨u, rfl⟩ := mem_opbs h
  exact Bool.false_ne_true

/-! ### What the commands ask -/

/-- A command that a row of a checked pass may hold. -/
def Listed (p : Pkt) (w : Bool) (m : PCmd) : Prop := m.Fits w ∧ ∀ rec unit, m = .opb rec unit → rec < pRows p

theorem Listed.of_opb {w : Bool} {m : PCmd} {k : Nat} (hk : k < pRows p) (h : m ∈ opbs p k) : Listed p w m := by
  obtain ⟨u, rfl⟩ := mem_opbs h
  exact ⟨trivial, fun rec unit e => by cases e; exact hk⟩

theorem rowCmds_listed {w : Bool} (checked : passCheck p = 0) (runs : pKind p ≠ 5) (stores : pKind p = 2 ∨ pKind p = 4 → w = true) {k : Nat} (hk : k < pRows p)
    {m : PCmd} (h : m ∈ rowCmds p k) : Listed p w m := by
  obtain ⟨rows, -⟩ := passCheck_holds checked runs
  rw [not_or] at rows
  have here : pRow0 p + k * pStride p < 8192 := row_lt rows.1 hk
  have other {m : PCmd} (fits : m.Fits w) (plain : ∀ rec unit, m ≠ .opb rec unit) : Listed p w m := ⟨fits, fun rec unit e => absurd e (plain rec unit)⟩
  unfold rowCmds at h
  dsimp only at h
  split at h
  · simp only [List.mem_append, List.mem_ite_nil_right, List.mem_cons, List.not_mem_nil, or_false] at h
    rcases h with (((⟨-, rfl | rfl | rfl⟩ | rfl | rfl) | ⟨more, units⟩) | rfl)
    · exact other (pSegRow_lt p _) (fun _ _ => PCmd.noConfusion)
    · exact other trivial (fun _ _ => PCmd.noConfusion)
    · exact other trivial (fun _ _ => PCmd.noConfusion)
    · exact other here (fun _ _ => PCmd.noConfusion)
    · exact other (Nat.zero_add _) (fun _ _ => PCmd.noConfusion)
    · exact .of_opb more units
    · exact other trivial (fun _ _ => PCmd.noConfusion)
  · next two =>
    simp only [List.mem_cons, List.not_mem_nil, or_false] at h
    rcases h with rfl | rfl | rfl | rfl
    · exact other here (fun _ _ => PCmd.noConfusion)
    · exact other (Nat.zero_add _) (fun _ _ => PCmd.noConfusion)
    · exact other ⟨stores (.inl two), Nat.zero_add _⟩ (fun _ _ => PCmd.noConfusion)
    · exact other trivial (fun _ _ => PCmd.noConfusion)
  · simp only [List.mem_cons, List.not_mem_nil, or_false] at h
    rcases h with rfl | rfl | rfl | rfl
    · exact other here (fun _ _ => PCmd.noConfusion)
    · exact other trivial (fun _ _ => PCmd.noConfusion)
    · exact other (Nat.zero_add _) (fun _ _ => PCmd.noConfusion)
    · exact other trivial (fun _ _ => PCmd.noConfusion)
  · next four =>
    simp only [List.mem_cons, List.not_mem_nil, or_false] at h
    rcases h with rfl | rfl | rfl | rfl | rfl | rfl
    · exact other here (fun _ _ => PCmd.noConfusion)
    · exact other trivial (fun _ _ => PCmd.noConfusion)
    · exact other trivial (fun _ _ => PCmd.noConfusion)
    · exact other (row_lt (fun far => rows.2 ⟨four, far⟩) hk) (fun _ _ => PCmd.noConfusion)
    · exact other ⟨stores (.inr four), Nat.zero_add _⟩ (fun _ _ => PCmd.noConfusion)
    · exact other trivial (fun _ _ => PCmd.noConfusion)
  · exact absurd h List.not_mem_nil

theorem passBody_listed {w : Bool} (checked : passCheck p = 0) (runs : pKind p ≠ 5) (stores : pKind p = 2 ∨ pKind p = 4 → w = true) {m : PCmd} (h : m ∈ passBody p) : Listed p w m := by
  have plain {m : PCmd} (fits : m.Fits w) (other : ∀ rec unit, m ≠ .opb rec unit) : Listed p w m := ⟨fits, fun rec unit e => absurd e (other rec unit)⟩
  unfold passBody at h
  simp only [List.mem_append, List.mem_ite_nil_right, List.mem_cons, List.not_mem_nil, or_false, List.mem_flatMap, List.mem_range] at h
  rcases h with ((((rfl | ⟨-, rfl⟩) | ⟨-, units⟩) | ⟨k, hk, row⟩) | ⟨-, rfl⟩)
  · exact plain trivial (fun _ _ => PCmd.noConfusion)
  · exact plain trivial (fun _ _ => PCmd.noConfusion)
  · exact .of_opb (pRows_pos p) units
  · exact rowCmds_listed checked runs stores hk row
  · exact plain trivial (fun _ _ => PCmd.noConfusion)

/-! ### Where a plan drains -/

/-- The command of a plan that drains: the last CMP of GEMV, else DRN (R151, R157). -/
def lastDrain (p : Pkt) : PCmd :=
  if pKind p = 1 then .cmp (pC0 p) (pCols p) ((pRows p - 1) % 2) ((pRows p - 1) % segRows (pWt p)) 0 (pCols p) true else .drn

/-- A row drains in GEMV alone, and there in the last row of a pass that drains. -/
theorem rowCmds_drains (p : Pkt) (k : Nat) : (rowCmds p k).filter drains = if pKind p = 1 ∧ pDrain p = true ∧ k + 1 = pRows p then [lastDrain p] else [] := by
  unfold rowCmds
  dsimp only
  split
  · next one =>
    have units : (if k + 1 < pRows p then opbs p (k + 1) else []).filter drains = [] := by
      split
      · exact opbs_drains p _
      · rfl
    have scale : (if mxWeight (pWt p) = true ∧ k % segRows (pWt p) = 0 then
        [.acta (pSegRow p (k / segRows (pWt p))), .scl (pSegCol p (k / segRows (pWt p))) (segLen p (k / segRows (pWt p))) 0 (segLen p (k / segRows (pWt p))), .prea] else []).filter drains = [] := by
      split <;> rfl
    rw [List.filter_append, List.filter_append, List.filter_append, units, scale]
    by_cases last : pDrain p = true ∧ k + 1 = pRows p
    · have e : k = pRows p - 1 := by omega
      have due : (pDrain p && decide (k + 1 = pRows p)) = true := by simp [last]
      rw [if_pos ⟨one, last⟩, due, lastDrain, if_pos one, ← e]
      rfl
    · rw [if_neg fun h => last h.2]
      simp only [not_and] at last
      simp [drains]
      exact last
  · next two => rw [if_neg (by omega)]; rfl
  · next three => rw [if_neg (by omega)]; rfl
  · next four => rw [if_neg (by omega)]; rfl
  · next other _ _ _ => rw [if_neg fun h => other h.1]; rfl

/-- A plan drains once, where the instruction drains and its KIND computes. -/
theorem passBody_drains (p : Pkt) : (passBody p).filter drains = if pDrain p = true ∧ (pKind p = 1 ∨ pKind p = 2 ∨ pKind p = 3) then [lastDrain p] else [] := by
  have units : (if pKind p = 1 ∨ pKind p = 2 then opbs p 0 else []).filter drains = [] := by
    split
    · exact opbs_drains p 0
    · rfl
  have clears : (if pClr p = true then [PCmd.clr] else []).filter drains = [] := by split <;> rfl
  have rows : ((List.range (pRows p)).flatMap (rowCmds p)).filter drains = if pKind p = 1 ∧ pDrain p = true then [lastDrain p] else [] := by
    obtain ⟨n, hn⟩ : ∃ n, pRows p = n + 1 := ⟨pRows p - 1, by have := pRows_pos p; omega⟩
    rw [List.filter_flatMap, hn, List.range_succ, List.flatMap_append]
    have early : (List.range n).flatMap (fun k => (rowCmds p k).filter drains) = [] := by
      rw [List.flatMap_eq_nil_iff]
      intro k hk
      have before := List.mem_range.mp hk
      rw [rowCmds_drains, if_neg (by omega)]
    change (List.range n).flatMap (fun k => (rowCmds p k).filter drains) ++ [n].flatMap (fun k => (rowCmds p k).filter drains) = _
    rw [early, List.nil_append, List.flatMap_singleton, rowCmds_drains, hn]
    simp
  unfold passBody
  rw [List.filter_append, List.filter_append, List.filter_append, List.filter_append, units, clears, rows]
  cases pDrain p with
  | false => simp [drains]
  | true =>
    by_cases one : pKind p = 1
    · simp [drains, one]
    · by_cases computes : pKind p = 2 ∨ pKind p = 3
      · simp [drains, one, computes, lastDrain]
      · simp [drains, one, computes]

end

end Sys2Proof.Machine
end

section
/-! A claimed, unlocked pass runs to its end (O17). -/

namespace Sys2Proof.Machine

section
variable {c : Nat} {s t : State} {a b : Active} {r : PassReq} {w : Bool}

/-! ### The end of a pass -/

/-- From `s` to `t` the last of a pass ran: its EXIT where `exits`, and its end (R147, R166). -/
structure PassClosed (c : Nat) (exits : Bool) (s t : State) : Prop where
  rest    : t = { s with regs := t.regs, pendMask := t.pendMask, ccs := t.ccs, engs := t.engs, bdies := t.bdies, reports := t.reports }
  others  : OtherCcs s t c
  active  : (t.cc c).active = none
  panic   : (t.cc c).panic = false
  pim     : (t.cc c).pim = ((s.cc c).pim && !exits)
  passes  : t.rd (ccB c) CC_BSEQ_PASSES_COUNT = (s.rd (ccB c) CC_BSEQ_PASSES_COUNT + 1) % 2 ^ CC_BSEQ_PASSES_COUNT.w
  engs    : ∀ b, b / 128 ≠ c → t.eng b = s.eng b
  bds     : ∀ k, k ≠ c / 32 → t.bd k = s.bd k
  dests   : (t.bd (c / 32)).dests = (s.bd (c / 32)).dests
  arrived : (t.bd (c / 32)).arrived = (s.bd (c / 32)).arrived

/-- A pass with nothing left ends. -/
theorem endIfDone_ends (off : Untraced s c) (active : (s.cc c).active = some a) (done : a.todo = []) : PassClosed c false s ((s.endIfDone c).panicCheck c) := by
  obtain ⟨ended, -⟩ := passEnd_ends off active
  have ends : s.endIfDone c = s.passEnd c := by unfold State.endIfDone; rw [active]; dsimp only; rw [done]; rfl
  rw [ends, panicCheck_idle ended.active]
  exact ⟨ended.rest, ended.others, ended.active, ended.panic, by rw [ended.pim, Bool.not_false, Bool.and_true], ended.passes, ended.engs, ended.bds, ended.dests, ended.arrived⟩

/-- From `s` to `t` the EXIT of a pass issued. -/
structure Exited (c : Nat) (s t : State) : Prop where
  rest   : t = { s with ccs := t.ccs, engs := t.engs }
  others : OtherCcs s t c
  active : (t.cc c).active = (s.cc c).active
  pim    : (t.cc c).pim = false
  engs   : ∀ b, b / 128 ≠ c → t.eng b = s.eng b

theorem exit_exits (off : Untraced s c) (a : Active) : Exited c s (s.issue c a .exit) := by
  have slotted := off.bankCmd (some (pTag a.req.pkt)) (cmdWords a.req.pkt .exit).1 (cmdWords a.req.pkt .exit).2
  unfold State.issue State.perform
  dsimp only
  generalize s.bankCmd c (some (pTag a.req.pkt)) (cmdWords a.req.pkt .exit).1 (cmdWords a.req.pkt .exit).2 = u at *
  obtain ⟨rest, others, cc, engs⟩ := opExit_exits u c
  generalize u.opExit c = t at *
  have eng (b : Nat) : u.eng b = s.eng b := by rw [slotted.rest]; rfl
  exact ⟨rest.trans (by rw [slotted.rest]), slotted.others.trans others, by rw [cc, slotted.cc], by rw [cc], fun b hb => by rw [engs, if_neg fun h => hb h.1, eng]⟩

/-- The EXIT of a pass that has one is the last of it. -/
theorem tail_closes {p : Pkt} (h : Running c w r [] (passTail p) t b) : PassClosed c (pExit p) t (((State.issueAll (passTail p).length t c).endIfDone c).panicCheck c) := by
  have todo := h.todo
  unfold passTail at *
  cases exits : pExit p with
  | false =>
    rw [exits] at todo
    exact endIfDone_ends h.off h.active todo
  | true =>
    rw [exits] at todo
    have issued : State.issueAll 1 t c = (t.issue c b .exit).setTodo c [] := by
      rw [State.issueAll, h.active]
      dsimp only
      rw [todo]
      rfl
    change PassClosed c true t (((State.issueAll 1 t c).endIfDone c).panicCheck c)
    rw [issued]
    have exited := exit_exits h.off b
    generalize t.issue c b .exit = u at *
    have engU (b : Nat) : (u.setTodo c []).eng b = u.eng b := rfl
    have bdU (k : Nat) : (u.setTodo c []).bd k = t.bd k := by unfold State.setTodo; rw [exited.rest]; rfl
    have set := OtherCcs.setCc u c { u.cc c with active := (u.cc c).active.map (fun a => { a with todo := [] }) }
    have cc := u.setCc_cc c { u.cc c with active := (u.cc c).active.map (fun a => { a with todo := [] }) }
    have restV : u.setTodo c [] = { u with ccs := (u.setTodo c []).ccs } := rfl
    change OtherCcs u (u.setTodo c []) c at set
    change (u.setTodo c []).cc c = _ at cc
    generalize u.setTodo c [] = v at *
    have regs : v.regs = t.regs := by rw [restV, exited.rest]
    have active : (v.cc c).active = some { b with todo := [] } := by rw [cc, exited.active, h.active]; rfl
    have closed := endIfDone_ends (h.off.of_regs regs) active rfl
    have passes : v.rd (ccB c) CC_BSEQ_PASSES_COUNT = t.rd (ccB c) CC_BSEQ_PASSES_COUNT := State.rd_of_word (WordsBut.of_regs regs [] _ List.not_mem_nil)
    exact ⟨closed.rest.trans (by rw [restV, exited.rest]), (exited.others.trans set).trans closed.others, closed.active, closed.panic,
      by rw [closed.pim, cc, exited.pim, Bool.not_true, Bool.and_false, Bool.false_and], by rw [closed.passes, passes], fun b hb => by rw [closed.engs b hb, engU, exited.engs b hb],
      fun k hk => by rw [closed.bds k hk, bdU], by rw [closed.dests, bdU], by rw [closed.arrived, bdU]⟩

/-! ### The run of a pass -/

/-- The pass once its operand units have arrived, behind the neighbour refreshes that go first. -/
def State.passBegins (s : State) (c : Nat) (a : Active) : State :=
  ((s.setCc c { s.cc c with active := some { a with asked := max a.asked (pRows a.req.pkt) } }).refreshFirst c).fetchAll c

theorem runRest_eq (active : (s.cc c).active = some a) (unlocked : a.unlocked = true) :
    s.runRest c = ((State.issueAll a.todo.length (s.passBegins c a) c).endIfDone c).panicCheck c := by
  unfold State.runRest
  rw [active]
  exact if_pos unlocked

/-- The operand units of a pass arrive in its turn. -/
theorem passBegins_fetches (active : (s.cc c).active = some a) (off : Untraced s c) (carried : s.seamHeld (chanDie c) (tileDie a.req.tile) = false)
    (planned : ∀ rec unit, .opb rec unit ∈ a.todo → rec < pRows a.req.pkt) :
    ∃ b, Quiet c (pG a.req.pkt) s (s.passBegins c a) ∧ ((s.passBegins c a).cc c).active = some b ∧ b.todo = a.todo ∧ a.Runs b ∧ ∀ rec unit, .opb rec unit ∈ a.todo → b.has rec unit = true := by
  unfold State.passBegins
  generalize hx : ({ a with asked := max a.asked (pRows a.req.pkt) } : Active) = x
  have runs : a.Runs x := by rw [← hx]; exact ⟨rfl, fun _ _ h => h, rfl⟩
  have todo : x.todo = a.todo := by rw [← hx]
  have asks : x.Asks := fun rec unit h _ => by
    have early := planned rec unit (todo ▸ h)
    rw [← hx]
    exact lt_of_lt_of_le early (Nat.le_max_right _ _)
  have asked : Quiet c (pG a.req.pkt) s (s.setCc c { s.cc c with active := some x }) :=
    .setCc ⟨rfl, rfl, fun y hy => ⟨x, rfl, by rw [active] at hy; cases hy; exact runs⟩, .inl rfl, fun _ _ _ h => h⟩
  have here : ((s.setCc c { s.cc c with active := some x }).cc c).active = some x := by rw [State.setCc_cc]
  generalize s.setCc c { s.cc c with active := some x } = u at *
  have first := (asked.untraced off).refreshFirst
  have quiet := asked.trans (first.quiet _)
  have here' : ((u.refreshFirst c).cc c).active = some x := by rw [first.cc.rest]; exact here
  obtain ⟨b, fetching, fetched⟩ := fetchAll_fetches (g := pG a.req.pkt) here' (by rw [quiet.seamHeld, runs.req]; exact carried) asks
  exact ⟨b, quiet.trans fetching.quiet, fetching.active, fetching.todo.trans todo, runs.trans fetching.runs, fun rec unit h => fetched rec unit (todo ▸ h)⟩

/-- A pass with its whole plan to do and its way open runs all of it. -/
theorem runRest_runs (hc : c < 384) (active : (s.cc c).active = some a) (unlocked : a.unlocked = true) (runs : pKind a.req.pkt ≠ 5) (checked : passCheck a.req.pkt = 0)
    (whole : a.todo = passPlan a.req.pkt) (stores : pKind a.req.pkt = 2 ∨ pKind a.req.pkt = 4 → w = true) (free : s.bufferFree c = true) (off : Untraced s c)
    (carried : s.seamHeld (chanDie c) (tileDie a.req.tile) = false) (held : a.held = false) (level : bitsOf (s.rd pwrB PWR_SLEVEL_LEVEL) (3 * (c / 32)) 3 = 0)
    (spaced : s.spaced c (pG a.req.pkt) = true) (home : Homed s c) :
    ∃ l t, Hands c a.req ((passBody a.req.pkt).any drains) l ∧ PassStep c (pG a.req.pkt) w l s t ∧ PassClosed c (pExit a.req.pkt) t (s.runRest c) := by
  have plan : a.todo = passBody a.req.pkt ++ passTail a.req.pkt := whole.trans (passPlan_eq runs)
  have ends (m : PCmd) (h : m ∈ passTail a.req.pkt) : m = .exit := by
    unfold passTail at h
    rw [List.mem_ite_nil_right] at h
    exact List.mem_singleton.mp h.2
  have listed (m : PCmd) (h : m ∈ passBody a.req.pkt) := passBody_listed checked runs stores h
  have planned (rec unit : Nat) (h : .opb rec unit ∈ a.todo) : rec < pRows a.req.pkt := by
    rw [plan, List.mem_append] at h
    exact h.elim (fun body => (listed _ body).2 rec unit rfl) fun tail => PCmd.noConfusion (ends _ tail)
  have once : ((passBody a.req.pkt).filter drains).length ≤ 1 := by
    rw [passBody_drains]
    split
    · exact Nat.le_refl _
    · exact Nat.zero_le _
  obtain ⟨b, quiet, activeB, todo, runsB, fetched⟩ := passBegins_fetches active off carried planned
  have steps := runRest_eq active unlocked
  have begun := quiet.step w
  generalize s.passBegins c a = y at *
  have level' : bitsOf (y.rd pwrB PWR_SLEVEL_LEVEL) (3 * (c / 32)) 3 = 0 := by
    rw [State.rd_of_word (begun.words _ (by simp [passWords]))]
    exact level
  have running : Running c w a.req (passBody a.req.pkt) (passTail a.req.pkt) y b :=
    ⟨begun.untraced off, begun.homed home, activeB, runsB.req, todo.trans plan, fun m h => (listed m h).1, ends, fun rec unit h => fetched rec unit (plan ▸ List.mem_append_left _ h),
      once, fun _ => begun.bufferFree.trans free, runsB.held.trans held, level', begun.spaced level spaced⟩
  obtain ⟨l, t, d, hands, step, done, issued⟩ := running.issueAll hc (passBody a.req.pkt) y b (passTail a.req.pkt).length
  refine ⟨l, t, hands, begun.trans step, ?_⟩
  rw [steps, plan, List.length_append, issued]
  exact tail_closes done

end

/-- The command of a KIND runs the rest of an active, unlocked pass of that KIND. -/
theorem passCommand_runs {c : Chan} {ok : Bool} {kind : Nat} {cmd : Instr} (listed : (kind, cmd) ∈ passCommands c ok) {s : State} {a : Active} (active : (s.cc c).active = some a)
    (unlocked : a.unlocked = true) (own : pKind a.req.pkt = kind) : exec cmd s = .next (s.runRest c).onward := by
  have row : passRow kind c ok [] s = s.runRest c := by
    have next : (s.cc c).next = some a.req := by unfold CcSt.next; rw [active]
    have entered : s.enterPim c ok = s := by unfold State.enterPim; rw [active]; dsimp only; rw [unlocked, Bool.true_or, if_pos rfl]
    unfold passRow
    rw [next]
    dsimp only
    rw [if_pos (.inl own), active, if_neg fun h => Bool.false_ne_true h.1]
    change ((if (s.cc c).active.isNone = true then s.claim c else s).enterPim c ok).runRest c = s.runRest c
    rw [active, if_neg (show ¬ (some a).isNone = true from Bool.false_ne_true), entered]
  unfold passCommands at listed
  simp only [List.mem_cons, Prod.mk.injEq, List.not_mem_nil, or_false] at listed
  obtain ⟨rfl, rfl⟩ | ⟨rfl, rfl⟩ | ⟨rfl, rfl⟩ | ⟨rfl, rfl⟩ := listed
  all_goals exact congrArg (fun t : State => Host.Outcome.next t.onward) row

/-- A checked pass that merges drains, so it hands its units over where it drains and merges. -/
theorem Hands.merges {c : Nat} {r : PassReq} {l : List Contribution} (checked : passCheck r.pkt = 0) (runs : pKind r.pkt ≠ 5) (hands : Hands c r ((passBody r.pkt).any drains) l) :
    if pDrain r.pkt = true ∧ pMop r.pkt ≠ 3 then ∃ units, l = [⟨c % 32, mergeKey r.pkt, pTag r.pkt, r.tile, false, units⟩] ∧ units.length = 64 else l = [] := by
  by_cases merges : pMop r.pkt = 3
  · simpa [Hands, merges] using hands
  · obtain ⟨-, merge⟩ := passCheck_holds checked runs
    have small : pMop r.pkt < 4 := bitsOf_lt _ _ _
    simp only [mergeOk, merges, decide_false, Bool.false_or, Bool.and_eq_true, decide_eq_true_eq] at merge
    obtain ⟨own, drained⟩ := merge
    have last : lastDrain r.pkt ∈ (passBody r.pkt).filter drains := by
      rw [passBody_drains, if_pos ⟨drained, by omega⟩]
      exact List.mem_singleton.mpr rfl
    have due : (passBody r.pkt).any drains = true := List.any_eq_true.mpr ⟨_, List.mem_filter.mp last⟩
    rw [due] at hands
    simpa [Hands, merges, drained] using hands

/-- Settles O17: every command of the plan is a step of its pass (`perform_step`) and may issue in its turn (`Running.mayIssue`); the one that drains hands its units over, and the pass ends (`tail_closes`). -/
theorem unlockedPassRunsToItsEnd : Obligations.UnlockedPassRunsToItsEnd := by
  unfold Obligations.UnlockedPassRunsToItsEnd
  intro c ok kind cmd s a listed active unlocked own checked whole free off fit carried held level spaced home p
  have kinds : kind = 1 ∨ kind = 2 ∨ kind = 3 ∨ kind = 4 := by
    simp only [passCommands, List.mem_cons, Prod.mk.injEq, List.not_mem_nil, or_false] at listed
    omega
  have runs : pKind a.req.pkt ≠ 5 := by omega
  obtain ⟨l, t, hands, step, closed⟩ := runRest_runs (w := decide (kind = 2 ∨ kind = 4)) c.isLt active unlocked runs checked whole (fun stores => decide_eq_true (own ▸ stores)) free off carried held
    level spaced home
  refine ⟨s.runRest c, passCommand_runs listed active unlocked own, ?_⟩
  have due := hands.merges checked runs
  generalize s.runRest c = u at *
  have mem : u.mem = t.mem := by rw [closed.rest]
  have out : u.out = t.out := by rw [closed.rest]
  have molt : u.molt = t.molt := by rw [closed.rest]
  have values : u.free = t.free := by rw [closed.rest]
  have passes : t.rd (ccB c) CC_BSEQ_PASSES_COUNT = s.rd (ccB c) CC_BSEQ_PASSES_COUNT := State.rd_of_word (step.words _ (by simp [passWords]))
  have arrived : (u.bd (c / 32)).arrived = (s.bd (c / 32)).arrived ++ l := by rw [closed.arrived, step.bd]
  have dests : (u.bd (c / 32)).dests = (s.bd (c / 32)).dests := by rw [closed.dests, step.bd]
  refine ⟨closed.rest.trans (by rw [mem, out, molt, values, step.rest]), by rw [out]; exact step.out, fun idle => by rw [out]; exact (step.idle idle).2.1, step.others.trans closed.others,
    closed.active, closed.panic, by rw [closed.pim, step.pim], by rw [closed.passes, passes], fun b hb => (closed.engs b hb).trans (step.engs b hb), fun k hk => ?_, dests, ?_, fun reads idle => ?_,
    fun x outside => by rw [mem]; exact step.columns home fit x outside⟩
  · have apart : (k : Nat) ≠ (c : Nat) / 32 := fun e => hk (Fin.ext e)
    rw [closed.bds k apart, step.bds k apart]
  · change if pDrain a.req.pkt = true ∧ pMop a.req.pkt ≠ 3 then _ else _
    split at due
    · next merges =>
      obtain ⟨units, e, all⟩ := due
      rw [if_pos merges]
      exact ⟨units, by rw [arrived, e], all⟩
    · next none =>
      rw [if_neg none, arrived, due, List.append_nil]
  · rw [mem]
    exact (step.idle idle).2.2 (decide_eq_false (by omega))

end Sys2Proof.Machine
end

section
/-! Bytes with poison units: what a write under a byte mask leaves of a unit and of a cell (R405, R406). -/

namespace Sys2Proof.Machine

/-! ### Bytes under a mask -/

theorem byteOf_eq (n i : Nat) : byteOf n i = BitVec.ofNat 8 (bitsOf n (8 * i) 8) := by
  unfold byteOf bitsOf
  exact BitVec.eq_of_toNat_eq (by simp)

/-- A number made of bytes has those bytes. -/
theorem byteOf_leNat (k : Nat) : ∀ (f : Nat → BitVec 8), ∀ i < k, byteOf (leNat ((List.range k).map f)) i = f i := by
  induction k with
  | zero => exact fun _ i hi => absurd hi (Nat.not_lt_zero i)
  | succ k ih =>
    intro f i hi
    rw [List.range_succ_eq_map, List.map_cons, List.map_map, leNat]
    have low := (f 0).isLt
    cases i with
    | zero =>
      refine BitVec.eq_of_toNat_eq ?_
      simp only [byteOf, BitVec.toNat_ofNat]
      omega
    | succ i =>
      rw [byteOf_succ, show ((f 0).toNat + 256 * leNat ((List.range k).map (f ∘ Nat.succ))) / 256 = leNat ((List.range k).map (f ∘ Nat.succ)) by omega]
      exact ih (f ∘ Nat.succ) i (by omega)

/-- The number `d` with those of its first `n` bytes that the mask selects taken from `x`. -/
def mixBytes (mask x n d : Nat) : Nat := upto n (fun i a => if bit mask i then setBits a (8 * i) 8 (bitsOf x (8 * i) 8) else a) d

theorem byteOf_setBits (a x i j : Nat) : byteOf (setBits a (8 * i) 8 (bitsOf x (8 * i) 8)) j = if j = i then byteOf x j else byteOf a j := by
  rw [byteOf_eq, byteOf_eq x, byteOf_eq a]
  split
  · next same => rw [same, bitsOf_setBits_same, Nat.mod_eq_of_lt (bitsOf_lt x (8 * i) 8)]
  · next other => rw [bitsOf_setBits_other (by omega)]

theorem byteOf_mixBytes (mask x d j : Nat) : ∀ n, byteOf (mixBytes mask x n d) j = if j < n ∧ bit mask j = true then byteOf x j else byteOf d j := by
  intro n
  induction n with
  | zero => simp [mixBytes, upto]
  | succ n ih =>
    have next : mixBytes mask x (n + 1) d = if bit mask n then setBits (mixBytes mask x n d) (8 * n) 8 (bitsOf x (8 * n) 8) else mixBytes mask x n d := upto_succ ..
    rw [next]
    by_cases last : j = n
    · subst last
      by_cases selected : bit mask j = true
      · simp [selected, byteOf_setBits]
      · simp [selected, ih]
    · rw [if_congr (and_congr_left' (show j < n + 1 ↔ j < n by omega)) rfl rfl, ← ih]
      split
      · rw [byteOf_setBits, if_neg last]
      · rfl

/-- The bytes of a unit after a store under a mask. -/
theorem Bytes.look_store (b : Bytes) (u mask v : Nat) : ∀ i < 32,
    look zeroByte (b.store u mask v).bytes (32 * u + i) = if bit mask i = true then byteOf v i else look zeroByte b.bytes (32 * u + i) := by
  have loop : ∀ n, ∀ i, look zeroByte (upto n (fun i m => if bit mask i then put zeroByte m (32 * u + i) (byteOf v i) else m) b.bytes) (32 * u + i) =
      if i < n ∧ bit mask i = true then byteOf v i else look zeroByte b.bytes (32 * u + i) := by
    intro n
    induction n with
    | zero => simp [upto]
    | succ n ih =>
      intro i
      rw [upto_succ]
      by_cases last : i = n
      · subst last
        by_cases selected : bit mask i = true
        · simp [selected]
        · simp [selected, ih]
      · rw [if_congr (and_congr_left' (show i < n + 1 ↔ i < n by omega)) rfl rfl, ← ih]
        split
        · rw [look_put_ne _ _ _ _ _ (by omega)]
        · rfl
  intro i hi
  rw [Bytes.store, loop 32 i, if_congr (and_iff_right hi) rfl rfl]

/-- A unit that is not poisoned after a store under a mask. -/
theorem Bytes.raw_store (b : Bytes) (u mask v : Nat) : (b.store u mask v).raw u = mixBytes mask v 32 (b.raw u) % 256 ^ 32 := by
  rw [← leNat_byteOf 32, Bytes.raw]
  refine congrArg leNat (List.map_congr_left fun i hi => ?_)
  have inside := List.mem_range.mp hi
  rw [b.look_store u mask v i inside, byteOf_mixBytes, Bytes.raw, byteOf_leNat 32 _ i inside, if_congr (and_iff_right inside) rfl rfl]

theorem leNat_lt : ∀ l : List (BitVec 8), leNat l < 256 ^ l.length
  | [] => by simp [leNat]
  | b :: r => by
    have := leNat_lt r
    have := b.isLt
    rw [leNat, List.length_cons, Nat.pow_succ]
    omega

theorem Bytes.raw_lt (b : Bytes) (u : Nat) : b.raw u < 2 ^ 256 := by
  have := leNat_lt ((List.range 32).map (fun i => look zeroByte b.bytes (32 * u + i)))
  rw [List.length_map, List.length_range] at this
  exact this

/-- A unit after a write under a byte mask (R406). -/
theorem Bytes.half_write_same (b : Bytes) (u mask : Nat) (v : Half) : (b.write u mask v).half u = halfAfter (b.half u) v mask := by
  by_cases untouched : mask % 2 ^ 32 = 0
  · rw [halfAfter_untouched untouched]
    unfold Bytes.write
    rw [if_pos untouched]
  by_cases whole : mask % 2 ^ 32 = 2 ^ 32 - 1
  · have full : b.write u mask v = b.write u (2 ^ 32 - 1) v := by
      unfold Bytes.write
      rw [whole]
      simp
    rw [halfAfter_whole whole, full, b.half_write_full]
  cases v with
  | none =>
    rw [halfAfter_poison untouched, Bytes.write, if_neg untouched]
    exact if_pos (look_put_same noMark _ u true)
  | some x =>
    rw [halfAfter_part untouched whole, Bytes.write, if_neg untouched]
    dsimp only
    rw [if_neg whole]
    by_cases poisoned : look noMark b.poison u = true
    · rw [if_pos poisoned, Bytes.half, if_pos poisoned, Option.map_none]
    · rw [if_neg poisoned, Bytes.half, Bytes.half, Bytes.store_poison, if_neg poisoned, if_neg poisoned, Option.map_some, b.raw_store, BitVec.toNat_ofNat, Nat.mod_eq_of_lt (b.raw_lt u)]
      exact congrArg some (BitVec.eq_of_toNat_eq (Nat.mod_mod _ _))

/-- A cell after a write under a byte mask; every other cell stays (R200, R406). -/
theorem Bytes.cell_writeCell (b : Bytes) (i : Nat) (w : WriteData) :
    (b.writeCell i w).cell i = cellAfter (b.cell i) w ∧ ∀ j, j ≠ i → (b.writeCell i w).cell j = b.cell j := by
  unfold Bytes.writeCell Bytes.cell cellAfter
  refine ⟨?_, fun j hj => ?_⟩
  · rw [Bytes.half_write_ne _ _ _ (by omega), Bytes.half_write_same, Bytes.half_write_same, Bytes.half_write_ne _ _ _ (by omega)]
  · rw [Bytes.half_write_ne _ _ _ (by omega), Bytes.half_write_ne _ _ _ (by omega), Bytes.half_write_ne _ _ _ (by omega), Bytes.half_write_ne _ _ _ (by omega)]

end Sys2Proof.Machine
end

section
/-! Packets to tile ports: a filling write and its overrun, and the error answers (R199-R201, R220, R222, R365). -/

namespace Sys2Proof.Machine

/-! ### A filling write -/

/-- A field that shares no bit with the one written stays. -/
theorem State.rd_wr_apart (s : State) (b : Nat) {f g : Fld} (v : Nat) (fits : f.lo + f.w ≤ 64) (apart : f.off ≠ g.off ∨ g.lo + g.w ≤ f.lo ∨ f.lo + f.w ≤ g.lo) :
    (s.wr b f v).rd b g = s.rd b g :=
  s.rd_wr_other b b f g v fits fun e => apart.resolve_left fun ne => ne (Nat.add_left_cancel e)

/-- What a filling write of cell `i` of tile `t` leaves: the enabled bytes, a full cell, and an overrun where the cell was full already (R199-R201). -/
structure CellFilled (t i writer : Nat) (w : WriteData) (s u : State) : Prop where
  rest    : u = { s with regs := u.regs, tiles := u.tiles, reports := u.reports }
  others  : OtherTiles s u t
  tile    : u.tile t = { s.tile t with sp := (u.tile t).sp, spPois := (u.tile t).spPois, full := (u.tile t).full }
  cell    : u.spCell t i = cellAfter (s.spCell t i) w
  full    : u.isFull t i = true
  cells   : ∀ j, j ≠ i → u.spCell t j = s.spCell t j ∧ u.isFull t j = s.isFull t j
  words   : WordsBut s u (overrunWords t)
  overrun : if s.isFull t i = true then
      u.flag (tileB t) TILE_FE_STAT_OVERRUN = true ∧ u.rd (tileB t) TILE_FE_STAT_OVR_CELL = i % 2 ^ TILE_FE_STAT_OVR_CELL.w ∧ u.reports = s.reports ++ [s.report t 0x0302 [i, writer]]
    else u.regs = s.regs ∧ u.reports = s.reports

/-- The record of an overrun in its register (R201). -/
theorem overrun_recorded (s : State) (b i : Nat) :
    let u := (s.raise b TILE_FE_STAT_OVERRUN).wr b TILE_FE_STAT_OVR_CELL i
    OnlyWords s u [b + TILE_FE_STAT_OVERRUN.off] ∧ u.flag b TILE_FE_STAT_OVERRUN = true ∧ u.rd b TILE_FE_STAT_OVR_CELL = i % 2 ^ TILE_FE_STAT_OVR_CELL.w := by
  refine ⟨(wr_onlyWords s b TILE_FE_STAT_OVERRUN 1).trans (wr_onlyWords _ b TILE_FE_STAT_OVR_CELL i), ?_, State.rd_wr_same _ _ _ _ (by decide)⟩
  rw [State.flag, State.rd_wr_apart _ _ _ (by decide) (by decide)]
  exact wr_flag_same s b TILE_FE_STAT_OVERRUN 1 (by decide)

/-- A cell written and marked full, in a state `x` that differs from `s` in registers and reports alone. -/
theorem spFill_from {s x : State} (rest : x = { s.spWrite t i w with regs := x.regs, reports := x.reports }) :
    let u := x.setFull t i true
    u = { s with regs := u.regs, tiles := u.tiles, reports := u.reports } ∧ OtherTiles s u t ∧
      u.tile t = { s.tile t with sp := (u.tile t).sp, spPois := (u.tile t).spPois, full := (u.tile t).full } ∧
      u.spCell t i = cellAfter (s.spCell t i) w ∧ u.isFull t i = true ∧ ∀ j, j ≠ i → u.spCell t j = s.spCell t j ∧ u.isFull t j = s.isFull t j := by
  dsimp only
  generalize hu : x.setFull t i true = u
  have tile (k : Nat) : x.tile k = (s.spWrite t i w).tile k := by rw [rest]; rfl
  have own : u.tile t = { (s.tile t).setSpad ((s.tile t).spad.writeCell i w) with full := put noMark (s.tile t).full i true } := by
    rw [← hu, State.setFull, State.setTile_tile, tile, State.spWrite, State.setTile_tile]
    rfl
  obtain ⟨cell, cells⟩ := (s.tile t).spad.cell_writeCell i w
  have bit (j : Nat) : u.isFull t j = if j = i then true else s.isFull t j := by
    rw [State.isFull, own]
    exact look_put noMark _ i j true
  have spad (j : Nat) : u.spCell t j = ((s.tile t).spad.writeCell i w).cell j := by rw [State.spCell, own]; rfl
  refine ⟨by rw [← hu, rest]; rfl, fun k hk => ?_, by rw [own]; rfl, by rw [spad, cell]; rfl, by rw [bit, if_pos rfl], fun j hj => ⟨by rw [spad, cells j hj]; rfl, by rw [bit, if_neg hj]⟩⟩
  rw [← hu, State.setFull, State.setTile_tile_ne _ _ _ _ hk, tile, State.spWrite, State.setTile_tile_ne _ _ _ _ hk]

theorem spFill_filled (s : State) (t i writer : Nat) (w : WriteData) : CellFilled t i writer w s (s.spFill t i writer w) := by
  have full : (s.spWrite t i w).isFull t i = s.isFull t i := by rw [State.isFull, State.spWrite, State.setTile_tile]; rfl
  rw [State.spFill, State.fill, full]
  split
  · next was =>
    obtain ⟨⟨only, words⟩, flag, cell⟩ := overrun_recorded (s.spWrite t i w) (tileB t) i
    generalize ((s.spWrite t i w).raise (tileB t) TILE_FE_STAT_OVERRUN).wr (tileB t) TILE_FE_STAT_OVR_CELL i = r at *
    obtain ⟨rest, others, tile, own, marked, cells⟩ := spFill_from (s := s) (x := r.emit t 0x0302 [i, writer]) (t := t) (i := i) (w := w) (by rw [only]; rfl)
    have reports : r.reports = s.reports := by rw [only]; rfl
    have tsc : r.tsc = s.tsc := by rw [only]; rfl
    refine ⟨rest, others, tile, own, marked, cells, words, ?_⟩
    rw [if_pos was]
    exact ⟨flag, cell, by rw [State.setFull_reports, State.emit_reports, reports, tsc]; rfl⟩
  · next was =>
    obtain ⟨rest, others, tile, own, marked, cells⟩ := spFill_from (s := s) (x := s.spWrite t i w) (t := t) (i := i) (w := w) rfl
    exact ⟨rest, others, tile, own, marked, cells, .of_regs rfl _, by rw [if_neg was]; exact ⟨rfl, rfl⟩⟩

/-! ### Error answers -/

/-- The registers in which a requesting tile notes an error answer (Table 7-8). -/
def nocErrWords (t : Nat) : List Nat := [tileB t + TILE_ERR_FLAGS_NOC_ERR.off, tileB t + TILE_NOC_ERRLOG_DEST.off]

theorem tileNocErr_noted (s : State) (t eng plane : Nat) {dest : Nat} (site : dest < 512) :
    let u := s.tileNocErr t eng dest plane
    OnlyWords s u (nocErrWords t) ∧ u.flag (tileB t) TILE_ERR_FLAGS_NOC_ERR = true ∧ u.rd (tileB t) TILE_NOC_ERRLOG_DEST = dest ∧ u.flag (tileB t) TILE_NOC_ERRLOG_VALID = true := by
  have log (s : State) (f : Fld) (v : Nat) (h : f.off = TILE_NOC_ERRLOG_DEST.off) : OnlyWords s (s.wr (tileB t) f v) (nocErrWords t) :=
    ⟨rfl, (wr_wordsBut s (tileB t) f v).mono (by rw [h]; exact List.subset_cons_self ..)⟩
  have err : OnlyWords s (s.raise (tileB t) TILE_ERR_FLAGS_NOC_ERR) (nocErrWords t) :=
    ⟨rfl, (wr_wordsBut s (tileB t) TILE_ERR_FLAGS_NOC_ERR 1).mono (List.cons_subset_cons _ (List.nil_subset _))⟩
  refine ⟨(((err.trans (log _ TILE_NOC_ERRLOG_DEST _ rfl)).trans (log _ TILE_NOC_ERRLOG_PLANE _ rfl)).trans (log _ TILE_NOC_ERRLOG_ENGINE _ rfl)).trans
    (log _ TILE_NOC_ERRLOG_VALID _ rfl), ?_, ?_, wr_flag_same _ _ TILE_NOC_ERRLOG_VALID 1 (by decide)⟩
  · unfold State.tileNocErr State.raise State.flag
    iterate 4 rw [State.rd_wr_apart _ _ _ (by decide) (by decide)]
    exact wr_flag_same s _ TILE_ERR_FLAGS_NOC_ERR 1 (by decide)
  · unfold State.tileNocErr State.raise
    iterate 3 rw [State.rd_wr_apart _ _ _ (by decide) (by decide)]
    rw [State.rd_wr_same _ _ _ _ (by decide)]
    exact Nat.mod_eq_of_lt site

/-- A refused packet is noted in the registers of a requesting tile, and nowhere where the requester is no tile. -/
structure Noted (src dest : Nat) (s u : State) : Prop where
  rest    : u = { s with regs := u.regs, reports := u.reports }
  reports : u.reports = s.reports
  regs    : if isSite src = true then
      WordsBut s u (nocErrWords src) ∧ u.flag (tileB src) TILE_ERR_FLAGS_NOC_ERR = true ∧ u.rd (tileB src) TILE_NOC_ERRLOG_DEST = dest ∧
        u.flag (tileB src) TILE_NOC_ERRLOG_VALID = true
    else u.regs = s.regs

section
variable (s : State) (src eng plane : Nat) (write : Bool) {dest : Nat}

theorem nocAccess_taken (up : s.nocCause dest = 0) (own : s.crossPartition src dest = false) : s.nocAccess src eng dest plane write = (true, s) := by
  simp [State.nocAccess, up, own]

variable (site : dest < 512)
include site

theorem noted_of_failure : Noted src dest s (if isSite src then s.tileNocErr src eng dest plane else s) := by
  split
  · next tile =>
    obtain ⟨⟨rest, words⟩, noted⟩ := tileNocErr_noted s src eng plane site
    have reports : (s.tileNocErr src eng dest plane).reports = s.reports := by rw [rest]
    exact ⟨by rw [reports]; exact rest, reports, by rw [if_pos tile]; exact ⟨words, noted⟩⟩
  · next none => exact ⟨rfl, rfl, by rw [if_neg none]⟩

/-- A packet that its tile cannot take is answered with an error (R222). -/
theorem nocAccess_refused (down : s.nocCause dest ≠ 0) :
    ∃ u, s.nocAccess src eng dest plane write = (false, u) ∧
      Noted src dest (s.emit (if s.nocCause dest = 3 then entrySrc src else dest) 0x0301 [src, dest, plane, if write then 1 else 0, s.nocCause dest]) u := by
  refine ⟨_, ?_, noted_of_failure _ src eng plane site⟩
  rw [State.nocAccess]
  dsimp only
  rw [if_pos down]
  rfl

/-- A packet between tiles of different partitions is answered with an error (R365). -/
theorem nocAccess_crosses (up : s.nocCause dest = 0) (cross : s.crossPartition src dest = true) :
    ∃ u, s.nocAccess src eng dest plane write = (false, u) ∧
      Noted src dest ((s.emit dest 0x0301 [src, dest, plane, if write then 1 else 0, 2]).emit dest 0x0107 [src, 3]) u := by
  refine ⟨_, ?_, noted_of_failure _ src eng plane site⟩
  rw [State.nocAccess]
  dsimp only
  rw [if_neg (not_not.mpr up), if_pos cross]

end

/-! ### NOC_PACKET_DELIVERY -/

/-- The packet asks for a write. -/
def packetWrites (p : Packet) : Bool := match p.body with | .read _ => false | .write _ _ => true

section
variable {p : Packet} {s : State} (carried : s.nocHeld (srcDie p.src) p.dest.toNat = false)
include carried

theorem nocPacketDelivery_read {off : Nat} (body : p.body = .read off) (up : s.nocCause p.dest.toNat = 0) (own : s.crossPartition p.src p.dest.toNat = false) :
    nocPacketDelivery p s = s.send (.nocRead p.src (s.spCell p.dest.toNat (off / 64 % 65536))) := by
  rw [nocPacketDelivery, carried, if_neg Bool.false_ne_true, body]
  dsimp only
  rw [nocAccess_taken s _ _ _ _ up own]

theorem nocPacketDelivery_write {off : Nat} {w : WriteData} (body : p.body = .write off w) (up : s.nocCause p.dest.toNat = 0) (own : s.crossPartition p.src p.dest.toNat = false) :
    nocPacketDelivery p s = (s.spFill p.dest.toNat (off / 64 % 65536) p.src w).send (.nocAck p.src) := by
  rw [nocPacketDelivery, carried, if_neg Bool.false_ne_true, body]
  dsimp only
  rw [nocAccess_taken s _ _ _ _ up own]

theorem nocPacketDelivery_error {u : State} (access : s.nocAccess p.src p.eng p.dest.toNat p.plane (packetWrites p) = (false, u)) :
    nocPacketDelivery p s = u.send (.nocError p.src (packetWrites p)) := by
  obtain ⟨src, eng, dest, plane, body⟩ := p
  rw [nocPacketDelivery]
  dsimp only at carried access ⊢
  rw [carried, if_neg Bool.false_ne_true]
  cases body with
  | read off => rw [show s.nocAccess src eng dest.toNat plane false = (false, u) from access]; rfl
  | write off w => rw [show s.nocAccess src eng dest.toNat plane true = (false, u) from access]; rfl

end

theorem nocPacketDelivery_held {p : Packet} {s : State} (held : s.nocHeld (srcDie p.src) p.dest.toNat = true) : nocPacketDelivery p s = s := if_pos held

/-- Settles O24: a packet that is taken reads its cell or fills it (`spFill_filled`), and one that is refused is reported and noted (`nocAccess_refused`, `nocAccess_crosses`). -/
theorem nocPacketReadsOrFillsOneCell : Obligations.NocPacketReadsOrFillsOneCell := by
  unfold Obligations.NocPacketReadsOrFillsOneCell
  refine ⟨fun p s held => congrArg Host.Outcome.next (nocPacketDelivery_held held), fun p s off inside carried => ?_⟩
  have index : off / 64 % 65536 = off / 64 := Nat.mod_eq_of_lt (by omega)
  refine ⟨fun body up own => ?read, fun w body up own => ?write, fun down => ?refused, fun up cross => ?crosses⟩
  case read => exact congrArg Host.Outcome.next ((nocPacketDelivery_read carried body up own).trans (by rw [index]; rfl))
  case write =>
    refine ⟨_, congrArg Host.Outcome.next (nocPacketDelivery_write carried body up own), ?_⟩
    rw [index]
    have filled := spFill_filled s p.dest.toNat (off / 64) p.src w
    generalize s.spFill p.dest.toNat (off / 64) p.src w = u at *
    obtain ⟨rest, others, tile, cell, full, cells, words, overrun⟩ := filled
    exact ⟨congrArg (State.send · (.nocAck p.src)) rest, others, tile, cell, full, cells, words, overrun⟩
  case refused =>
    obtain ⟨u, access, rest, reports, noted⟩ := nocAccess_refused s p.src p.eng p.plane (packetWrites p) p.dest.isLt down
    exact ⟨_, congrArg Host.Outcome.next (nocPacketDelivery_error carried access), congrArg (State.send · (.nocError p.src (packetWrites p))) rest, reports, noted⟩
  case crosses =>
    obtain ⟨u, access, rest, reports, noted⟩ := nocAccess_crosses s p.src p.eng p.plane (packetWrites p) p.dest.isLt up cross
    have tile : isSite p.src = true := by
      unfold State.crossPartition at cross
      simp only [Bool.and_eq_true] at cross
      tauto
    rw [if_pos tile] at noted
    obtain ⟨-, flag, -⟩ := noted
    exact ⟨_, congrArg Host.Outcome.next (nocPacketDelivery_error carried access), congrArg (State.send · (.nocError p.src (packetWrites p))) rest,
      reports.trans (List.append_assoc ..), flag⟩

end Sys2Proof.Machine
end

section
/-! The MVE prefetcher: lines issued and dropped, and what a prefetched line finds where it is read (R18, R77, R78, R207, R208; log 67). -/

namespace Sys2Proof.Machine

/-! ### A read of a prefetch at its CC -/

/-- The trace changes no CC (R226). -/
theorem trace_ccs (s : State) (c : Nat) (tag : Option Nat) (row col : Nat) : (s.trace c tag row col).ccs = s.ccs := by
  have dropped : (s.countC c CC_TRACE_DROP_COUNT 1).ccs = s.ccs := by
    rw [State.countC, (count_counted s (ccB c) CC_TRACE_DROP_COUNT 1 (ccSrc c) 0x0548).rest]
  unfold State.trace
  dsimp only
  split
  · rfl
  · split
    · rfl
    · split
      · exact dropped
      · generalize stored : ite (s.nocCause _ = 0) _ _ = u
        have same : u.ccs = s.ccs := by rw [← stored]; split <;> rfl
        split
        · rw [State.wr_ccs, same]
        · split
          · rw [State.wr_ccs, State.wr_ccs, same]
          · split
            · rw [State.wr_ccs, State.wr_ccs, same]
            · rw [State.raise_ccs, State.wr_ccs, State.wr_ccs, same]

theorem pdx_ccs (s : State) (c mask : Nat) : (s.pdx c mask).ccs = s.ccs := by
  unfold State.pdx
  refine upto_keeps (fun u => u.ccs = s.ccs) 4 _ s rfl fun sid u same => ?_
  split
  · rw [trace_ccs, State.wr_ccs, same]
  · exact same

/-- A request that the CC takes is the youngest of its pool, with the trace on or off (R77). -/
theorem accept_pool {s : State} {who : Requester} {key : Nat} (room : s.mayTake who key = true) (w : Option WriteData) (ans : Answer) :
    ((s.accept who key w ans).cc (keyChan key)).pool = (s.cc (keyChan key)).pool ++ [⟨who, key, w, s.tsc, ans⟩] := by
  unfold State.accept
  dsimp only
  rw [if_pos room, cc_of_ccs (pdx_ccs _ _ _), State.setCc_cc]

/-- A read of a prefetch that is served leaves its data, or that it has none, at its CC (R208). -/
theorem serve_lands {c t : Nat} {s : State} {r : Req} (tile : r.who.port = .tile) (read : r.write = none) (ans : r.ans = .card (.prefetch t)) :
    ∃ u d, s.serve c r = State.land u (.prefetch t) r.key d := by
  unfold State.serve State.answerRead64
  dsimp only
  rw [if_neg (by simp [tile]), read, ans]
  exact ⟨_, _, rfl⟩

theorem takeRead_none {s r : State} {u : ReadUser} {key : Nat} (waits : s.takeRead u key = (none, r)) : r = s := by
  unfold State.takeRead at waits
  dsimp only at waits
  split at waits
  · cases waits
  · cases waits; rfl

/-- Data that have landed are taken. -/
theorem takeRead_land (s : State) (t key : Nat) (d : Option Cell64) (r : State) : (s.land (.prefetch t) key d).takeRead (.prefetch t) key ≠ (none, r) := by
  have landed : (State.cc (s.land (.prefetch t) key d) (keyChan key)).landed = (s.cc (keyChan key)).landed ++ [(.prefetch t, key, d)] := by
    unfold State.land
    dsimp only
    rw [if_neg (by simp), State.setCc_cc]
  intro waits
  unfold State.takeRead at waits
  dsimp only at waits
  split at waits
  · cases waits
  · next absent =>
    rw [landed, List.find?_eq_none] at absent
    exact absent (.prefetch t, key, d) (by simp) (by simp)

/-- A read of a prefetch that its CC takes and that is not performed at once stands in the pool (R77, R81). -/
theorem arrive_pooled {t : Nat} {s r : State} {who : Requester} {key : Nat} (tile : who.port = .tile) (room : s.mayTake who key = true)
    (waits : (s.arrive who key none (.card (.prefetch t))).2.takeRead (.prefetch t) key = (none, r)) :
    (⟨who, key, none, s.tsc, .card (.prefetch t)⟩ : Req) ∈ (r.cc (keyChan key)).pool := by
  unfold State.arrive at waits
  dsimp only at waits
  rw [if_pos room] at waits
  dsimp only at waits
  split at waits
  · obtain ⟨u, d, served⟩ := serve_lands (c := keyChan key) (s := State.charge (s.accept who key none (.card (.prefetch t))) (keyChan key) ⟨who, key, none, s.tsc, .card (.prefetch t)⟩)
      (r := ⟨who, key, none, s.tsc, .card (.prefetch t)⟩) tile rfl rfl
    rw [State.slot, served] at waits
    exact absurd waits (takeRead_land u t key d r)
  · rw [takeRead_none waits, accept_pool room]
    exact List.mem_append_right _ (List.mem_singleton_self _)

/-! ### Where a prefetch is read -/

section
variable {t : Nat} {s r : State} {p : PfLine}

theorem prefetchReach_remote (remote : p.space ≠ 2) (carried : s.nocHeld (tileDie t) p.tile = false) : s.prefetchReach t p = (some (s.prefetchData t p), s) := by
  rw [State.prefetchReach, if_neg remote, carried, if_neg Bool.false_ne_true]

/-- The seam link holds a prefetch of a remote scratchpad, and nothing changes (R18). -/
theorem prefetchReach_held (remote : p.space ≠ 2) (waits : s.prefetchReach t p = (none, r)) : r = s := by
  rw [State.prefetchReach, if_neg remote] at waits
  split at waits
  · cases waits; rfl
  · cases waits

/-- A device line that its CC takes and does not read at once is pooled there (R77, R78). -/
theorem prefetchReach_pooled (device : p.space = 2) (served : s.prefetchLost t p = false)
    (fresh : (s.cc (keyChan (p.addr / 64 * 64))).reading (.prefetch t) (p.addr / 64 * 64) = false) (room : s.mayTake ⟨.tile, t⟩ (p.addr / 64 * 64) = true)
    (waits : s.prefetchReach t p = (none, r)) :
    (⟨⟨.tile, t⟩, p.addr / 64 * 64, none, s.tsc, .card (.prefetch t)⟩ : Req) ∈ (r.cc (keyChan (p.addr / 64 * 64))).pool := by
  have live : s.retired (keyChan p.addr) = false := by
    unfold State.prefetchLost at served
    exact (Bool.or_eq_false_iff.mp served).2
  rw [State.prefetchReach, if_pos device, served, if_neg Bool.false_ne_true] at waits
  have read : s.portRead (.prefetch t) ⟨.tile, t⟩ p.addr = State.takeRead (s.arrive ⟨.tile, t⟩ (p.addr / 64 * 64) none (.card (.prefetch t))).2 (.prefetch t) (p.addr / 64 * 64) := by
    rw [State.portRead]
    dsimp only
    rw [live, if_neg Bool.false_ne_true, fresh, if_neg Bool.false_ne_true]
  rw [read] at waits
  refine arrive_pooled rfl room ?_
  split at waits
  · cases waits
  · next none => cases waits; exact none

/-! ### PREFETCH_ARRIVE -/

theorem prefetchArrive_waits (oldest : (s.tile t).pfFlight.find? (fun p => decide (p.space ≠ 3)) = some p) (waits : s.prefetchReach t p = (none, r)) : prefetchArrive t s = r := by
  rw [prefetchArrive, oldest]
  dsimp only
  rw [waits]

theorem prefetchArrive_found (oldest : (s.tile t).pfFlight.find? (fun p => decide (p.space ≠ 3)) = some p) {d : Option (Half × Half)} (found : s.prefetchReach t p = (some d, r)) :
    prefetchArrive t s = (r.setTile t { r.tile t with pfFlight := (r.tile t).pfFlight.erase p }).landPrefetch t p d := by
  rw [prefetchArrive, oldest]
  dsimp only
  rw [found]

end

theorem landPrefetch_kept {p : PfLine} (s : State) (t : Nat) (v : Half × Half) (good : p.stale = false) :
    s.landPrefetch t p (some v) = s.modTile t (fun x => { x with pf := x.pf ++ [{ p with data := v }] }) := by
  rw [State.landPrefetch, good, if_neg Bool.false_ne_true]

/-- A line that cannot be read, or has gone stale, is counted as UNUSED. -/
theorem landPrefetch_unused {p : PfLine} {d : Option (Half × Half)} (s : State) (t : Nat) (bad : d = none ∨ p.stale = true) : s.landPrefetch t p d = s.countT t pfmUnused 1 := by
  cases d with
  | none => rfl
  | some v => rw [State.landPrefetch, bad.resolve_left (Option.some_ne_none v), if_pos rfl]

/-- A count adds no report but that of a wrap (R225). -/
theorem countT_reports (s : State) (t : Nat) (f : Fld) (n : Nat) : ∀ e ∈ (s.countT t f n).reports, e ∈ s.reports ∨ e.code = 0x0303 := by
  intro e he
  unfold State.countT State.count at he
  dsimp only at he
  split at he
  · exact .inl he
  · rw [State.emit_reports, State.wr_reports, List.mem_append, List.mem_singleton] at he
    exact he.imp_right fun new => by rw [new]

/-! ### PREFETCH_ISSUE -/

/-- The address that the prefetcher keeps of a predicted line: the key of a device line, the byte address of any other. -/
def State.lineAddr (s : State) (j : MoveJob) (line : Nat) : Nat :=
  if j.src.space = 2 then (match s.decodeDpa (64 * line) with | .at key => key / 64 * 64 | _ => 2 ^ 41 + 64 * line) else 64 * line

/-- The remote tile of a line, 0 for a line of any other space. -/
def MoveJob.lineTile (j : MoveJob) : Nat := if j.src.space = 1 then j.src.tile else 0

/-- The line is in flight, and ISSUED has counted it. -/
def State.lineSent (s : State) (t : Nat) (j : MoveJob) (line : Nat) : State :=
  (s.modTile t (fun x => { x with pfFlight := x.pfFlight ++ [(⟨j.src.space, j.lineTile, s.lineAddr j line, (none, none), false⟩ : PfLine)], dldDone := false })).countT t TILE_PFM_COUNT 1

/-- The prefetcher makes no prediction of the line: it is off, or the line is held or in flight already. -/
def State.linePassed (s : State) (t : Nat) (j : MoveJob) (line : Nat) : Bool :=
  !s.tileUp t || !s.flag (tileB t) TILE_PF_CTRL_ENABLE || decide (j.src.space = 0) ||
    ((s.tile t).pf ++ (s.tile t).pfFlight).any (fun p => p.isAt j.src.space j.lineTile (s.lineAddr j line))

/-- The prediction of the line waits: it lies beyond the depth, or something goes before it. -/
def State.lineWaits (s : State) (t : Nat) (j : MoveJob) (path : List Nat) (line : Nat) : Bool :=
  !(path.take (s.rd (tileB t) TILE_PF_CTRL_DEPTH)).contains line || decide (512 ≤ (s.tile t).pf.length + (s.tile t).pfFlight.length) || s.demandWaits t ||
    (decide (j.src.space = 2) && s.biasHeld (s.lineAddr j line)) || (decide (j.src.space = 3) && s.seamHeld (tileDie t) 0)

theorem prefetchIssue_eq {t line d : Nat} {path : List Nat} {j : MoveJob} {s : State} (ahead : (s.tile t).ahead = some (j, d :: path)) :
    prefetchIssue t line s =
      if s.linePassed t j line then s
      else if !s.mayPredict j (64 * d) (64 * line) then s.countT t pfmDropped 1
      else if j.src.space = 3 ∧ !s.hostLive (s.tileOwner t) then s.countT t pfmDropped 1
      else if s.lineWaits t j path line then s
      else if j.src.space = 3 then (s.lineSent t j line).askHost (.prefetch t) (State.tileOwner (s.lineSent t j line) t) (64 * line) 64 else s.lineSent t j line := by
  rw [prefetchIssue]
  dsimp only
  rw [ahead]
  rfl

/-- A question to the host changes the host port's queues and what leaves the card (R374). -/
theorem askHost_asked (s : State) (u : ReadUser) (f addr bytes : Nat) :
    s.askHost u f addr bytes = { s with host := (s.askHost u f addr bytes).host, out := (s.askHost u f addr bytes).out } := by
  unfold State.askHost
  dsimp only
  split <;> rfl

section
variable {t line d : Nat} {path : List Nat} {j : MoveJob} {s : State}

theorem linePassed_false (up : s.tileUp t = true) (on : s.flag (tileB t) TILE_PF_CTRL_ENABLE = true) (remote : j.src.space ≠ 0)
    (fresh : ((s.tile t).pf ++ (s.tile t).pfFlight).any (fun p => p.isAt j.src.space j.lineTile (s.lineAddr j line)) = false) : s.linePassed t j line = false := by
  simp only [State.linePassed, up, on, remote, fresh, Bool.not_true, decide_false, Bool.or_false]

theorem lineWaits_false (near : line ∈ path.take (s.rd (tileB t) TILE_PF_CTRL_DEPTH)) (room : (s.tile t).pf.length + (s.tile t).pfFlight.length < 512)
    (idle : s.demandWaits t = false) (bias : j.src.space = 2 → s.biasHeld (s.lineAddr j line) = false) (carried : j.src.space = 3 → s.seamHeld (tileDie t) 0 = false) :
    s.lineWaits t j path line = false := by
  have listed : (path.take (s.rd (tileB t) TILE_PF_CTRL_DEPTH)).contains line = true := List.contains_iff_mem.mpr near
  simp only [State.lineWaits, listed, idle, Nat.not_le.mpr room, Bool.not_true, decide_false, Bool.or_false, Bool.or_eq_false_iff, Bool.and_eq_false_imp, decide_eq_true_eq,
    true_and]
  exact ⟨bias, carried⟩

/-- A line that R207 allows is in flight, and is asked of the host where it is a host line. -/
theorem prefetchIssue_sent (ahead : (s.tile t).ahead = some (j, d :: path)) (predicts : s.linePassed t j line = false) (may : s.mayPredict j (64 * d) (64 * line) = true)
    (live : j.src.space = 3 → s.hostLive (s.tileOwner t) = true) (now : s.lineWaits t j path line = false) :
    let u := prefetchIssue t line s
    u = { s.lineSent t j line with host := u.host, out := u.out } ∧ (j.src.space ≠ 3 → u = s.lineSent t j line) := by
  have unasked : ¬ (j.src.space = 3 ∧ (!s.hostLive (s.tileOwner t)) = true) := fun ⟨host, dead⟩ => by simp [live host] at dead
  dsimp only
  rw [prefetchIssue_eq ahead, predicts, if_neg Bool.false_ne_true, may, Bool.not_true, if_neg Bool.false_ne_true, if_neg unasked, now, if_neg Bool.false_ne_true]
  split
  · next host => exact ⟨askHost_asked .., fun other => absurd host other⟩
  · exact ⟨rfl, fun _ => rfl⟩

theorem prefetchIssue_dropped (ahead : (s.tile t).ahead = some (j, d :: path)) (predicts : s.linePassed t j line = false) (may : s.mayPredict j (64 * d) (64 * line) = false) :
    prefetchIssue t line s = s.countT t pfmDropped 1 := by
  rw [prefetchIssue_eq ahead, predicts, if_neg Bool.false_ne_true, may]
  rfl

end

/-- A count of a tile's window leaves the state but for its register and the report of a wrap (R225). -/
theorem countT_counted (s : State) (t : Nat) (f : Fld) (n : Nat) : CountedUp s (s.countT t f n) (tileB t) f n := count_counted s (tileB t) f n t 0x0303

theorem CountedUp.tile {s t : State} {b : Nat} {f : Fld} {n : Nat} (h : CountedUp s t b f n) (k : Nat) : t.tile k = s.tile k := by
  unfold State.tile
  rw [h.rest]

/-- What a count after a change of tile `t` leaves alone. -/
theorem CountedUp.of_setTile {s u : State} {t b n : Nat} {f : Fld} {x : Tile} (h : CountedUp (s.setTile t x) u b f n) :
    u = { s with regs := u.regs, tiles := u.tiles, reports := u.reports } ∧ OtherTiles s u t ∧ u.tile t = x := by
  have tiles : u.tiles = (s.setTile t x).tiles := by rw [h.rest]
  exact ⟨by rw [tiles]; exact h.rest, fun k hk => by rw [h.tile, State.setTile_tile_ne _ _ _ _ hk], by rw [h.tile, State.setTile_tile]⟩

/-- Settles O26: an allowed line is put in flight (`prefetchIssue_sent`), and one that arrives enters the buffer or is counted as UNUSED (`landPrefetch_kept`, `landPrefetch_unused`); a device line whose CC takes its read waits in the pool (`prefetchReach_pooled`). -/
theorem prefetchesStaySilent : Obligations.PrefetchesStaySilent := by
  unfold Obligations.PrefetchesStaySilent
  refine ⟨fun t line s j d path ahead up on remote fresh => ?issue, fun t s p oldest => ⟨fun remote carried => prefetchReach_remote remote carried, fun r waits => ?waits,
    fun d r found => ?lands⟩⟩
  case issue =>
    have predicts : s.linePassed t.toNat j line = false := linePassed_false up on remote fresh
    refine ⟨fun may live near room idle bias carried => ?sent, fun may => ?dropped⟩
    case sent =>
      obtain ⟨rest, card⟩ := prefetchIssue_sent ahead predicts may live (lineWaits_false near room idle bias carried)
      have counted : CountedUp _ (s.lineSent t.toNat j line) (tileB t.toNat) TILE_PFM_COUNT 1 := countT_counted _ t.toNat TILE_PFM_COUNT 1
      have words := counted.words
      have count := counted.rd (by decide)
      obtain ⟨sent, others, own⟩ := counted.of_setTile
      refine ⟨prefetchIssue t.toNat line s, rfl, ?_⟩
      generalize prefetchIssue t.toNat line s = u at *
      generalize s.lineSent t.toNat j line = v at *
      have regs : u.regs = v.regs := by rw [rest]
      have tiles : u.tiles = v.tiles := by rw [rest]
      have reports : u.reports = v.reports := by rw [rest]
      have tile (k : Nat) : u.tile k = v.tile k := by rw [State.tile, tiles]; rfl
      refine ⟨?_, fun k hk => (tile k).trans (others k hk), fun other => ?_, (tile _).trans own, ?_, words.trans (.of_regs regs _)⟩
      · rw [regs, tiles, reports]
        exact rest.trans (by rw [sent])
      · rw [card other, sent]
        exact ⟨rfl, rfl⟩
      · rw [Counted, WordsBut.rd (.of_regs regs []) (List.not_mem_nil)]
        exact count
    case dropped =>
      have counted := countT_counted s t.toNat pfmDropped 1
      exact ⟨_, congrArg Host.Outcome.next (prefetchIssue_dropped ahead predicts may), counted.rest, counted.rd (by decide), counted.words⟩
  case waits =>
    refine ⟨congrArg Host.Outcome.next (prefetchArrive_waits oldest waits), fun remote => prefetchReach_held remote waits, fun device served fresh room => ?_⟩
    exact ⟨_, prefetchReach_pooled device served fresh room waits, rfl, rfl, rfl, rfl⟩
  case lands =>
    refine ⟨fun v got good => ?kept, fun bad => ?unused⟩
    case kept =>
      refine ⟨_, congrArg Host.Outcome.next (prefetchArrive_found oldest found), ?_⟩
      rw [got, landPrefetch_kept _ _ v good]
      refine ⟨rfl, fun k hk => ?_, ?_⟩
      · rw [State.modTile_tile_ne _ _ _ _ hk, State.setTile_tile_ne _ _ _ _ hk]
      · rw [State.modTile_tile, State.setTile_tile]
    case unused =>
      refine ⟨_, congrArg Host.Outcome.next (prefetchArrive_found oldest found), ?_⟩
      rw [landPrefetch_unused _ _ bad]
      have counted := countT_counted (r.setTile t.toNat { r.tile t.toNat with pfFlight := (r.tile t.toNat).pfFlight.erase p }) t.toNat pfmUnused 1
      obtain ⟨rest, others, own⟩ := counted.of_setTile
      exact ⟨rest, others, own, countT_reports _ _ _ _, counted.rd (by decide), counted.words⟩

end Sys2Proof.Machine
end

section
/-! Engines at issue: what taking an operation changes of its tile, the operation as one step with the ends of its loops, and acquires (R206, R209, R211, R242-R254). -/

namespace Sys2Proof.Machine

/-! ### Engines of a tile -/

section
variable {α : Type}

theorem del_del (k : Nat) (m : SMap α) : del k (del k m) = del k m := by
  induction m with
  | nil => rfl
  | cons p r ih =>
    by_cases same : p.1 = k
    · simp [del, same, ih]
    · simp [del, same, ih]

theorem del_ins (k : Nat) (v : α) (m : SMap α) : del k (ins k v m) = del k m := by
  induction m with
  | nil => simp [ins, del]
  | cons p r ih =>
    by_cases below : k < p.1
    · simp [ins, below, del]
    · by_cases same : p.1 = k
      · simp [ins, del, same, ih]
      · simp [ins, below, del, same, ih]

/-- Of two writes of one place the second stands. -/
theorem put_put [DecidableEq α] (d : Nat → α) (m : SMap α) (k : Nat) (v w : α) : put d (put d m k v) k w = put d m k w := by
  have cleared : del k (put d m k v) = del k m := by
    unfold put
    split
    · exact del_del k m
    · rw [del_ins, del_del]
  rw [put, cleared, put]

end

@[simp] theorem Tile.eng_setEngine (x : Tile) (e : Nat) (g : Engine) : (x.setEngine e g).eng e = g := look_put_same _ _ _ _
@[simp] theorem Tile.setEngine_setEngine (x : Tile) (e : Nat) (g h : Engine) : (x.setEngine e g).setEngine e h = x.setEngine e h :=
  congrArg (fun m => ({ x with engs := m } : Tile)) (put_put _ x.engs e g h)

/-- From `x` to `y` only engines and the in-use counts of instruction pages change. -/
def Tile.Steered (x y : Tile) : Prop := y = { x with engs := y.engs, inUse := y.inUse }

namespace Tile.Steered
variable {x y z : Tile}

theorem refl (x : Tile) : x.Steered x := rfl
theorem trans (h : x.Steered y) (g : y.Steered z) : x.Steered z := Eq.trans g (by rw [h])
theorem setEngine (x : Tile) (e : Nat) (g : Engine) : x.Steered (x.setEngine e g) := rfl
theorem recs (h : x.Steered y) : y.recs = x.recs := by rw [h]
theorem spad (h : x.Steered y) : y.spad = x.spad := by rw [h]; rfl
theorem inReset (h : x.Steered y) : y.inReset = x.inReset := by rw [h]

theorem retireCalls (x : Tile) (pages : List Nat) : x.Steered (x.retireCalls pages) :=
  foldl_keeps x.Steered pages _ x (refl x) fun _ _ h => h.trans rfl

theorem present (x : Tile) (e : Nat) (w : OpWord) : x.Steered (x.present e w) := by
  unfold Tile.present
  dsimp only
  split
  · split
    · exact (setEngine x e _).trans rfl
    · exact setEngine x e _
  · exact refl x

theorem skipOps (n : Nat) : ∀ (x : Tile) (e : Nat), x.Steered (x.skipOps n e).1 := by
  induction n with
  | zero => exact fun x _ => refl x
  | succ n ih =>
    intro x e
    have taken (g : Engine) (pages : List Nat) : x.Steered ((x.setEngine e g).retireCalls pages) := (setEngine x e g).trans (retireCalls _ pages)
    unfold Tile.skipOps
    dsimp only
    split
    · exact refl x
    · split
      · exact (taken _ _).trans (ih _ e)
      · split
        · exact refl x
        · exact refl x
        · split
          · exact refl x
          · split
            · exact (taken _ _).trans (ih _ e)
            · exact (taken _ _).trans (ih _ e)

end Tile.Steered

/-- An operation is taken: only its engine changes, and none of its address registers (R243, R246). -/
theorem Tile.consume_taken (x : Tile) (e : Nat) : ∃ g : Engine, x.consume e = x.setEngine e g ∧ g.a = (x.eng e).a := by
  unfold Tile.consume
  dsimp only
  split
  · exact ⟨_, rfl, rfl⟩
  · split
    · exact ⟨_, rfl, rfl⟩
    · split
      · split
        · exact ⟨_, rfl, rfl⟩
        · exact ⟨_, rfl, rfl⟩
      · exact ⟨_, rfl, rfl⟩

theorem Tile.consume_areg (x : Tile) (e r : Nat) : ((x.consume e).eng e).areg r = (x.eng e).areg r := by
  obtain ⟨g, taken, same⟩ := x.consume_taken e
  rw [taken, Tile.eng_setEngine, Engine.areg, same, Engine.areg]

theorem Tile.Steered.consume (x : Tile) (e : Nat) : x.Steered (x.consume e) := by
  obtain ⟨g, taken, -⟩ := x.consume_taken e
  rw [taken]
  exact setEngine x e g

theorem Tile.retireCalls_dldDone (b : Bool) (pages : List Nat) : ∀ x : Tile, ({ x with dldDone := b } : Tile).retireCalls pages = { x.retireCalls pages with dldDone := b } := by
  induction pages with
  | nil => exact fun _ => rfl
  | cons p l ih => exact fun x => ih { x with inUse := put noCount x.inUse p (look noCount x.inUse p - 1) }

@[simp] theorem Ended_setEngine (y : Tile) (e : Nat) (g h : Engine) : Ended (y.setEngine e g) e h = Ended y e h := by
  rw [Ended, Tile.setEngine_setEngine, Ended]

/-! ### The operation as one step -/

/-- Operations of engine `e` have run in tile `t`, which is now `z` but for the mark of its deadlock detector; the words `l` and the engine's count of operations may have changed. -/
structure Ran (s u : State) (t e : Nat) (z : Tile) (l : List Nat) : Prop where
  rest    : u = { s with regs := u.regs, tiles := u.tiles, reports := u.reports }
  others  : OtherTiles s u t
  tile    : u.tile t = { z with dldDone := false }
  counted : Counted s u (tileB t) (TILE_OPS_COUNT.at (8 * e)) 1
  words   : WordsBut s u ((tileB t + (TILE_OPS_COUNT.at (8 * e)).off) :: l)
  reports : s.reports <+: u.reports

/-- The state in which an operation of engine `e` runs: it is taken from tile `x`, and counted. -/
def State.issued (s : State) (t e : Nat) (x : Tile) : State :=
  (s.setTile t { x.consume e with dldDone := false }).countT t (TILE_OPS_COUNT.at (8 * e)) 1

/-- What the answer of an operation makes of the state in which it was presented. -/
def State.outcome (s : State) (t e : Nat) (x : Tile) (loc : Loc) : Issued → State
  | .fault cause => (s.setTile t x).tileFault t e cause loc
  | .hold => s
  | .done u => u.afterOp t e

/-- The next operation of an engine runs when it is this command's, in a form that is legal (R242, R246). -/
theorem Issues.issueOp {s : State} {t e : Nat} {w : OpWord} {x : Tile} {loc : Loc} (h : Issues s t e w x loc) {mine : Nat → Bool} {legal : Nat → Nat → Bool}
    (run : OpCtx → State → Issued) (form : needsExt e (opcodeOf w) = some w.ext.isSome) (own : mine w.op.toNat = true) (ok : legal w.op.toNat (w.ext.getD 0).toNat = true) :
    s.issueOp t e w mine legal run = s.outcome t e x loc (run ⟨t, e, w, loc, (x.eng e).slot⟩ (s.issued t e x)) := by
  obtain ⟨may, skipped, next⟩ := h
  unfold State.issueOp
  rw [may, Bool.not_true, if_neg Bool.false_ne_true]
  dsimp only
  rw [skipped]
  dsimp only
  rw [next]
  dsimp only
  rw [if_neg (not_not.mpr rfl), form]
  dsimp only
  rw [own, ok, if_neg Bool.false_ne_true, Bool.not_true, if_neg Bool.false_ne_true, bne_self_eq_false, Bool.or_self, if_neg Bool.false_ne_true]
  unfold State.issued
  generalize run _ _ = i
  cases i <;> rfl

namespace Ran
variable {s u : State} {t e : Nat} {z : Tile} {l : List Nat}

theorem of_issued (s : State) (t e : Nat) (x : Tile) : Ran s (s.issued t e x) t e (x.consume e) [] := by
  have counted := countT_counted (s.setTile t { x.consume e with dldDone := false }) t (TILE_OPS_COUNT.at (8 * e)) 1
  obtain ⟨rest, others, own⟩ := counted.of_setTile
  exact ⟨rest, others, own, counted.rd (by show 0 + 48 ≤ 64; decide), counted.words, counted.reports⟩

theorem engine (h : Ran s u t e z l) (k : Nat) : u.engine t k = z.eng k := by rw [State.engine, h.tile]; rfl

/-- A change of the tile that does not touch the mark of its deadlock detector. -/
theorem setTile (h : Ran s u t e z l) {y : Tile} : Ran s (u.setTile t { y with dldDone := false }) t e y l :=
  ⟨by rw [h.rest]; rfl, fun k hk => (State.setTile_tile_ne _ _ _ _ hk).trans (h.others k hk), State.setTile_tile _ _ _, h.counted, h.words, h.reports⟩

theorem setEngine (h : Ran s u t e z l) (g : Engine) : Ran s (u.setEngine t e g) t e (z.setEngine e g) l := by
  have set : u.setEngine t e g = u.setTile t { z.setEngine e g with dldDone := false } := by rw [State.setEngine, State.modTile, h.tile]; rfl
  rw [set]
  exact h.setTile

theorem setA (h : Ran s u t e z l) (r v : Nat) : Ran s (u.setA t e r v) t e (z.setEngine e ((z.eng e).setA r v)) l := by
  rw [State.setA, h.engine]
  exact h.setEngine _

theorem bankUse (h : Ran s u t e z l) (cells : List Nat) : Ran s (u.bankUse t e cells) t e (z.bankUse e cells) l := by
  have set : u.bankUse t e cells = u.setTile t { z.bankUse e cells with dldDone := false } := by rw [State.bankUse, h.tile]; rfl
  rw [set]
  exact h.setTile

/-- The loop bodies that end with the operation are repeated or closed (R247, R254). -/
theorem closes (h : Ran s u t e z l) : OneOp s (u.afterOp t e) t e (Ended z e (z.eng e)) l := by
  have after : u.afterOp t e = u.setTile t (Ended z e (z.eng e)) := by
    rw [State.afterOp, h.engine]
    dsimp only
    rw [State.modTile, h.tile]
    exact congrArg (u.setTile t) (Tile.retireCalls_dldDone false _ (z.setEngine e (z.eng e).close.1))
  rw [after]
  exact ⟨by rw [h.rest]; rfl, fun k hk => (State.setTile_tile_ne _ _ _ _ hk).trans (h.others k hk), State.setTile_tile _ _ _, h.counted, h.words, h.reports⟩

end Ran

/-! ### What an operation sees of its tile -/

/-- Presenting a word and skipping operations move engines and in-use counts alone. -/
theorem Issues.steered {s : State} {t e : Nat} {w : OpWord} {x : Tile} {loc : Loc} (h : Issues s t e w x loc) : (s.tile t).Steered x := by
  obtain ⟨-, skipped, -⟩ := h
  have moved := Tile.Steered.skipOps (((s.tile t).present e w).eng e).skip ((s.tile t).present e w) e
  rw [skipped] at moved
  exact (Tile.Steered.present _ e w).trans moved

section
variable {s u : State} {t e : Nat} {z : Tile} {l : List Nat} (ran : Ran s u t e z l) (steered : (s.tile t).Steered z)
include ran steered

theorem Ran.mayWrite (k lo len : Nat) : u.mayWrite t k lo len = s.mayWrite t k lo len := by
  unfold State.mayWrite
  rw [ran.tile, steered]

theorem Ran.released (k : Nat) : u.released t k = s.released t k := by
  unfold State.released
  rw [ran.tile, steered]

theorem Ran.spWord (off : Nat) : u.spWord t off = s.spWord t off := by
  unfold State.spWord
  rw [ran.tile, steered]
  rfl

end

/-! ### Acquires (R206, R209, R211) -/

/-- A tile whose read cache and prefetch buffer are empty, and whose prefetches in flight are stale (R206, R209). -/
def Tile.emptied (x : Tile) : Tile := { x with rc := [], rcKeep := false, pf := [], pfFlight := x.pfFlight.map (fun p => { p with stale := true }) }

/-- The words that an acquire counts in. -/
def acquireWords (t : Nat) : List Nat := [tileB t + TILE_ACQUIRES_COUNT.off, tileB t + pfmUnused.off]

/-- From `s` to `u` tile `t` becomes `x`, and of the registers only the words `l` change. -/
structure TileStep (t : Nat) (x : Tile) (l : List Nat) (s u : State) : Prop where
  rest    : u = { s with regs := u.regs, tiles := u.tiles, reports := u.reports }
  others  : OtherTiles s u t
  tile    : u.tile t = x
  words   : WordsBut s u l
  reports : s.reports <+: u.reports

theorem TileStep.setTile (s : State) (t : Nat) (x : Tile) (l : List Nat) : TileStep t x l s (s.setTile t x) :=
  ⟨rfl, fun _ hk => State.setTile_tile_ne _ _ _ _ hk, State.setTile_tile _ _ _, .of_regs rfl l, List.prefix_refl _⟩

theorem TileStep.mono {s u : State} {t : Nat} {x : Tile} {l m : List Nat} (h : TileStep t x l s u) (hl : l ⊆ m) : TileStep t x m s u :=
  ⟨h.rest, h.others, h.tile, h.words.mono hl, h.reports⟩

theorem TileStep.countT {s u : State} {t : Nat} {x : Tile} {l : List Nat} (h : TileStep t x l s u) (f : Fld) (n : Nat) (listed : tileB t + f.off ∈ l) : TileStep t x l s (u.countT t f n) := by
  have counted := countT_counted u t f n
  have tiles : (u.countT t f n).tiles = u.tiles := by rw [counted.rest]
  refine ⟨counted.rest.trans (by rw [tiles, h.rest]), fun k hk => (counted.tile k).trans (h.others k hk), (counted.tile t).trans h.tile,
    h.words.trans (counted.words.mono ?_), h.reports.trans counted.reports⟩
  exact List.cons_subset.mpr ⟨listed, List.nil_subset _⟩

theorem countT_counts (s : State) (t : Nat) {f : Fld} (n : Nat) (fits : f.lo + f.w ≤ 64) : Counted s (s.countT t f n) (tileB t) f n := (countT_counted s t f n).rd fits

theorem Counted.zero {s u : State} {b : Nat} {f : Fld} (same : u.rd b f = s.rd b f) : Counted s u b f 0 :=
  same.trans (Nat.mod_eq_of_lt (bitsOf_lt _ _ _)).symm

theorem invalidate_emptied (s : State) (t : Nat) :
    TileStep t (s.tile t).emptied [tileB t + pfmUnused.off] s (s.invalidate t) ∧ Counted s (s.invalidate t) (tileB t) pfmUnused (s.tile t).pf.length := by
  have emptied : TileStep t (s.tile t).emptied [tileB t + pfmUnused.off] s (s.setTile t (s.tile t).emptied) := .setTile s t _ _
  unfold State.invalidate
  dsimp only
  split
  · next none => rw [none]; exact ⟨emptied, .zero rfl⟩
  · exact ⟨emptied.countT pfmUnused _ (List.mem_singleton_self _), countT_counts (s.setTile t (s.tile t).emptied) t _ (by decide)⟩

/-- An acquire empties the read cache and the prefetch buffer, and is counted. -/
theorem acquire_acquires (s : State) (t : Nat) :
    TileStep t (s.tile t).emptied (acquireWords t) s (s.acquire t) ∧ Counted s (s.acquire t) (tileB t) TILE_ACQUIRES_COUNT 1 ∧
      Counted s (s.acquire t) (tileB t) pfmUnused (s.tile t).pf.length := by
  obtain ⟨step, unused⟩ := invalidate_emptied s t
  have apart : tileB t + TILE_ACQUIRES_COUNT.off ≠ tileB t + pfmUnused.off := by simp [TILE_ACQUIRES_COUNT, pfmUnused, TILE_PFM_COUNT, Fld.at]
  have words := (countT_counted (s.invalidate t) t TILE_ACQUIRES_COUNT 1).words
  refine ⟨(step.mono (List.subset_cons_self _ _)).countT TILE_ACQUIRES_COUNT 1 (List.mem_cons_self ..), ?_, ?_⟩
  · rw [Counted, ← step.words.rd (by simpa using apart)]
    exact countT_counts (s.invalidate t) t 1 (by decide)
  · exact (words.rd (by simpa using apart.symm)).trans unused

theorem Ran.acquire {s u : State} {t e : Nat} {z : Tile} (h : Ran s u t e z []) (engine : e < 4) :
    Ran s (u.acquire t) t e z.emptied (acquireWords t) ∧ Counted s (u.acquire t) (tileB t) TILE_ACQUIRES_COUNT 1 ∧
      Counted s (u.acquire t) (tileB t) pfmUnused z.pf.length := by
  obtain ⟨step, acquires, unused⟩ := acquire_acquires u t
  have apart (o : Nat) (listed : o ∈ acquireWords t) : o ∉ [tileB t + (TILE_OPS_COUNT.at (8 * e)).off] := by
    simp only [acquireWords, List.mem_cons, List.not_mem_nil, or_false] at listed ⊢
    have : (TILE_OPS_COUNT.at (8 * e)).off = 0x858 + 8 * e := rfl
    have : TILE_ACQUIRES_COUNT.off = 0x490 := rfl
    have : pfmUnused.off = 0x418 := rfl
    omega
  have kept : tileB t + (TILE_OPS_COUNT.at (8 * e)).off ∉ acquireWords t := fun listed => apart _ listed (List.mem_singleton_self _)
  rw [h.tile] at unused step
  refine ⟨⟨step.rest.trans (by rw [h.rest]), fun k hk => (step.others k hk).trans (h.others k hk), step.tile, (step.words.rd kept).trans h.counted,
    (h.words.mono (List.cons_subset_cons _ (List.nil_subset _))).trans (step.words.mono (List.subset_cons_self _ _)), h.reports.trans step.reports⟩, ?_, ?_⟩
  · rw [Counted, ← h.words.rd (apart _ (by simp [acquireWords]))]
    exact acquires
  · rw [Counted, ← h.words.rd (apart _ (by simp [acquireWords]))]
    exact unused

end Sys2Proof.Machine
end

section
/-! A tile fault: its registers, its event, the halt of the rings that feed the tile, and what the groups that it breaks may change (R263, R352, R394, R419). -/

namespace Sys2Proof.Machine

/-! ### Rings -/

theorem State.setRing_isRunning (s : State) (n m : Nat) (r : RingSt) : (s.setRing n r).isRunning m = if m = n then decide (r.st = .running) else s.isRunning m := by
  unfold State.isRunning
  split
  · next same => rw [same, State.setRing_ring]
  · next other => rw [State.setRing_ring_ne _ _ _ _ other]

/-- From `s` to `u` rings may halt and cuts may wait, reports are added, and nothing else changes. -/
structure Halts (s u : State) : Prop where
  rest    : u = { s with rings := u.rings, cuts := u.cuts, reports := u.reports }
  reports : s.reports <+: u.reports
  halted  : ∀ n, s.isRunning n = false → u.isRunning n = false

theorem Halts.refl (s : State) : Halts s s := ⟨rfl, List.prefix_refl _, fun _ h => h⟩
theorem Halts.trans {s t u : State} (h : Halts s t) (g : Halts t u) : Halts s u :=
  ⟨g.rest.trans (by rw [h.rest]), h.reports.trans g.reports, fun n stopped => g.halted n (h.halted n stopped)⟩

/-- A ring's state changes, and it does not begin to run. -/
theorem Halts.setRing {s : State} {n : Nat} {r : RingSt} (idle : s.isRunning n = false → r.st ≠ .running) : Halts s (s.setRing n r) := by
  refine ⟨rfl, List.prefix_refl _, fun m stopped => ?_⟩
  rw [State.setRing_isRunning]
  split
  · next same => exact decide_eq_false (idle (same ▸ stopped))
  · exact stopped

theorem Halts.emit (s : State) (src code : Nat) (data : List Nat) : Halts s (s.emit src code data) := ⟨rfl, List.prefix_append _ _, fun _ h => h⟩

theorem haltRing_halts (s : State) (n cause : Nat) : Halts s (s.haltRing n cause) ∧ (s.haltRing n cause).isRunning n = false := by
  unfold State.haltRing
  dsimp only
  split
  · generalize hr : (if cause = 2 then ({ s.ring n with st := .halted, cause := cause, short := 0, rereads := 0 } : RingSt) else _) = r
    have stopped : r.st ≠ .running := by
      rw [← hr]
      split <;> simp
    refine ⟨(Halts.setRing fun _ => stopped).trans (.emit _ _ _ _), ?_⟩
    exact (State.setRing_isRunning s n n r).trans ((if_pos rfl).trans (decide_eq_false stopped))
  · next other => exact ⟨.refl s, decide_eq_false other⟩

/-- Halting rings for a cut leaves none of them running (R419). -/
theorem haltAndCut_halts (s : State) (trigger source cause : Nat) (l : List Nat) :
    Halts s (s.haltAndCut trigger source cause l) ∧ ∀ n < 64, n ∈ l → (s.haltAndCut trigger source cause l).isRunning n = false := by
  have loop (q : List Nat) : ∀ s : State,
      let u := q.foldl (fun (a : State) n => (a.haltRing n cause).setRing n { (a.haltRing n cause).ring n with cutDue := .unpublished }) s
      Halts s u ∧ ∀ n ∈ q, u.isRunning n = false := by
    induction q with
    | nil => exact fun s => ⟨.refl s, fun _ h => absurd h List.not_mem_nil⟩
    | cons n q ih =>
      intro s
      obtain ⟨halts, stopped⟩ := haltRing_halts s n cause
      have ring : ((s.haltRing n cause).ring n).st ≠ .running := of_decide_eq_false stopped
      have due : Halts (s.haltRing n cause) ((s.haltRing n cause).setRing n { (s.haltRing n cause).ring n with cutDue := .unpublished }) := .setRing fun _ => ring
      obtain ⟨rest, all⟩ := ih ((s.haltRing n cause).setRing n { (s.haltRing n cause).ring n with cutDue := .unpublished })
      refine ⟨(halts.trans due).trans rest, fun m hm => ?_⟩
      rcases List.mem_cons.mp hm with same | later
      · exact rest.halted m (due.halted m (same ▸ stopped))
      · exact all m later
  unfold State.haltAndCut
  dsimp only
  obtain ⟨halts, stopped⟩ := loop ((List.range 64).filter (fun n => l.contains n && s.isRunning n)) s
  dsimp only at halts stopped
  generalize List.foldl _ s _ = v at *
  have cut (c : List Cut) : Halts v { v with cuts := c } := ⟨rfl, List.prefix_refl _, fun _ h => h⟩
  refine ⟨halts.trans (cut _), fun n small listed => ?_⟩
  refine (cut _).halted n ?_
  by_cases running : s.isRunning n = true
  · exact stopped n (List.mem_filter.mpr ⟨List.mem_range.mpr small, by simp [listed, running]⟩)
  · exact halts.halted n (by simpa using running)

/-- A descriptor becomes complete: no ring starts to run (R394). -/
theorem completeDesc_halts (s : State) (n c status detail : Nat) : Halts s (s.completeDesc n c status detail) := by
  unfold State.completeDesc
  dsimp only
  split
  · have set (live : List Live) : Halts s (s.setRing n { s.ring n with live := live }) := .setRing fun stopped => of_decide_eq_false stopped
    split
    · exact set _
    · exact (set _).trans (.emit _ _ _ _)
  · exact .refl s

/-! ### What follows a fault -/

/-- The words of a tile's fault registers that a statement reads: the cause with its engine, and the place. -/
def faultWords (t : Nat) : List Nat := [tileB t + TILE_FAULT_CAUSE.off, tileB t + TILE_FAULT_LOC_STREAM_OFF.off]

/-- What may follow the record of a fault of tile `t`: its registers stay, reports are added, no ring begins to run, no storage and no scratchpad changes. -/
structure Aftermath (t : Nat) (s u : State) : Prop where
  words   : ∀ o ∈ faultWords t, u.word o = s.word o
  reports : s.reports <+: u.reports
  halted  : ∀ n, s.isRunning n = false → u.isRunning n = false
  mem     : u.mem = s.mem
  spads   : ∀ k, (u.tile k).spad = (s.tile k).spad

namespace Aftermath
variable {t : Nat} {s u v : State}

theorem refl (t : Nat) (s : State) : Aftermath t s s := ⟨fun _ _ => rfl, List.prefix_refl _, fun _ h => h, rfl, fun _ => rfl⟩
theorem trans (h : Aftermath t s u) (g : Aftermath t u v) : Aftermath t s v :=
  ⟨fun o ho => (g.words o ho).trans (h.words o ho), h.reports.trans g.reports, fun n stopped => g.halted n (h.halted n stopped), g.mem.trans h.mem,
    fun k => (g.spads k).trans (h.spads k)⟩

theorem rd (h : Aftermath t s u) {f : Fld} (listed : tileB t + f.off ∈ faultWords t) : u.rd (tileB t) f = s.rd (tileB t) f := State.rd_of_word (h.words _ listed)

theorem faulted (h : Aftermath t s u) : u.faulted t = s.faulted t := by
  unfold State.faulted State.flag
  rw [h.rd (f := TILE_FAULT_VALID) (List.mem_cons_self ..)]

theorem of_halts (h : Halts s u) : Aftermath t s u := by
  have regs : u.regs = s.regs := by rw [h.rest]
  have tiles : u.tiles = s.tiles := by rw [h.rest]
  refine ⟨fun o _ => WordsBut.of_regs regs [] o List.not_mem_nil, h.reports, h.halted, by rw [h.rest], fun k => ?_⟩
  rw [State.tile, tiles]
  rfl

theorem emit (t : Nat) (s : State) (src code : Nat) (data : List Nat) : Aftermath t s (s.emit src code data) := of_halts (.emit s src code data)

theorem wr (s : State) (b : Nat) (f : Fld) (v : Nat) (apart : b + f.off ∉ faultWords t) : Aftermath t s (s.wr b f v) :=
  ⟨fun _ ho => State.wr_word_ne s b _ f v fun e => apart (e ▸ ho), List.prefix_refl _, fun _ h => h, rfl, fun _ => rfl⟩

theorem modTile (t : Nat) (s : State) (k : Nat) (f : Tile → Tile) (spad : ∀ x, (f x).spad = x.spad) : Aftermath t s (s.modTile k f) := by
  refine ⟨fun _ _ => rfl, List.prefix_refl _, fun _ h => h, rfl, fun n => ?_⟩
  by_cases same : n = k
  · rw [same, State.modTile_tile, spad]
  · rw [State.modTile_tile_ne _ _ _ _ same]

/-- A change of every tile that leaves the scratchpads. -/
theorem mapTiles (t : Nat) (s : State) (f : Tile → Tile) (spad : ∀ x, (f x).spad = x.spad) : Aftermath t s { s with tiles := s.tiles.map (fun (p : Nat × Tile) => (p.1, f p.2)) } := by
  refine ⟨fun _ _ => rfl, List.prefix_refl _, fun _ h => h, rfl, fun k => ?_⟩
  have loop (m : SMap Tile) : (look (fun _ => Tile.init) (m.map (fun (p : Nat × Tile) => (p.1, f p.2))) k).spad = (look (fun _ => Tile.init) m k).spad := by
    induction m with
    | nil => rfl
    | cons p r ih =>
      rw [List.map_cons, look, look]
      split
      · exact spad p.2
      · exact ih
  exact loop s.tiles

end Aftermath

theorem Tile.mapEngines_spad (x : Tile) (f : Engine → Engine) : (x.mapEngines f).spad = x.spad :=
  upto_keeps (fun y : Tile => y.spad = x.spad) 4 _ x rfl fun _ _ same => same

/-- Windows of tiles do not meet, and the registers of the other blocks lie below them. -/
theorem other_notMem_faultWords {t k : Nat} (other : k ≠ t) {f : Fld} (window : f.off < 0x8000) : tileB k + f.off ∉ faultWords t := by
  simp only [faultWords, List.mem_cons, List.not_mem_nil, or_false, tileB, TILE_FAULT_CAUSE, TILE_FAULT_LOC_STREAM_OFF]
  omega

theorem chorus_notMem_faultWords (t : Nat) {g : Nat} (group : g < 8) : chorusB + (CHORUS_CTRL_BROKEN.at (8 * g)).off ∉ faultWords t := by
  have off : (CHORUS_CTRL_BROKEN.at (8 * g)).off = 0x200 + 8 * g := rfl
  simp only [off, faultWords, List.mem_cons, List.not_mem_nil, or_false, tileB, chorusB]
  omega

/-! ### The record of a fault -/

/-- The writes of a tile's fault registers (R263). -/
def State.faultRegs (s : State) (t e cause : Nat) (loc : Loc) (ident : Nat) : State :=
  ((((((s.wr (tileB t) TILE_FAULT_CAUSE cause).wr (tileB t) TILE_FAULT_ENGINE e).wr (tileB t) TILE_FAULT_DEPTH loc.depth).raise (tileB t) TILE_FAULT_VALID).wr
    (tileB t) TILE_FAULT_LOC_STREAM_OFF loc.off).wr (tileB t) TILE_FAULT_LOC_PC (if loc.depth = 0 then 0 else loc.pc)).wr (tileB t) TILE_FAULT_STREAM_ID ident

/-- The event of a fault (R263). -/
def faultData (e cause : Nat) (loc : Loc) : List Nat := [cause, e, loc.depth, loc.off, if loc.depth = 0 then 0 else loc.pc]

/-- The record is the registers, the stream that carried the operation, the event, and the halt of the rings that feed the tile. -/
theorem recordFault_eq (s : State) (t e cause : Nat) (loc : Loc) : ∃ ident stream, s.recordFault t e cause loc =
    let v := ((s.faultRegs t e cause loc ident).modTile t (fun x => { x with faultRec := stream })).emit t 0x0320 (faultData e cause loc)
    v.haltAndCut 1 t 7 (v.tileRings t) := ⟨_, _, rfl⟩

theorem faultRegs_recorded (s : State) (t : Nat) {e cause : Nat} (loc : Loc) (ident : Nat) (code : cause < 256) (engine : e < 8) :
    let u := s.faultRegs t e cause loc ident
    u.faulted t = true ∧ u.rd (tileB t) TILE_FAULT_CAUSE = cause ∧ u.rd (tileB t) TILE_FAULT_ENGINE = e ∧
      u.rd (tileB t) TILE_FAULT_LOC_STREAM_OFF = loc.off % 2 ^ TILE_FAULT_LOC_STREAM_OFF.w ∧
      u.rd (tileB t) TILE_FAULT_LOC_PC = (if loc.depth = 0 then 0 else loc.pc) % 2 ^ TILE_FAULT_LOC_PC.w := by
  unfold State.faultRegs State.raise State.faulted State.flag
  refine ⟨decide_eq_true ?_, ?_, ?_, ?_, ?_⟩
  · iterate 3 rw [State.rd_wr_apart _ _ _ (by decide) (by decide)]
    exact State.rd_wr_same _ _ _ _ (by decide)
  · iterate 6 rw [State.rd_wr_apart _ _ _ (by decide) (by decide)]
    exact (State.rd_wr_same _ _ _ _ (by decide)).trans (Nat.mod_eq_of_lt code)
  · iterate 5 rw [State.rd_wr_apart _ _ _ (by decide) (by decide)]
    exact (State.rd_wr_same _ _ _ _ (by decide)).trans (Nat.mod_eq_of_lt engine)
  · iterate 2 rw [State.rd_wr_apart _ _ _ (by decide) (by decide)]
    exact State.rd_wr_same _ _ _ _ (by decide)
  · rw [State.rd_wr_apart _ _ _ (by decide) (by decide)]
    exact State.rd_wr_same _ _ _ _ (by decide)

/-- The registers of a fault are written, and nothing else. -/
theorem faultRegs_only (s : State) (t e cause : Nat) (loc : Loc) (ident : Nat) : ∃ regs, s.faultRegs t e cause loc ident = { s with regs := regs } := by
  have write (u : State) (f : Fld) (v : Nat) (h : ∃ regs, u = { s with regs := regs }) : ∃ regs, u.wr (tileB t) f v = { s with regs := regs } := by
    obtain ⟨regs, rfl⟩ := h
    exact ⟨_, rfl⟩
  exact write _ _ _ (write _ _ _ (write _ _ _ (write _ _ _ (write _ _ _ (write _ _ _ (write s _ _ ⟨s.regs, rfl⟩))))))

/-- A fault of another tile follows one of tile `t`. -/
theorem recordFault_aftermath {t k : Nat} (other : k ≠ t) (s : State) (e cause : Nat) (loc : Loc) : Aftermath t s (s.recordFault k e cause loc) := by
  obtain ⟨ident, stream, record⟩ := recordFault_eq s k e cause loc
  have write (u : State) (f : Fld) (v : Nat) (window : f.off < 0x8000) : Aftermath t u (u.wr (tileB k) f v) := .wr u (tileB k) f v (other_notMem_faultWords other window)
  have regs : Aftermath t s (s.faultRegs k e cause loc ident) :=
    ((((((write s TILE_FAULT_CAUSE _ (by decide)).trans (write _ TILE_FAULT_ENGINE _ (by decide))).trans (write _ TILE_FAULT_DEPTH _ (by decide))).trans
      (write _ TILE_FAULT_VALID 1 (by decide))).trans (write _ TILE_FAULT_LOC_STREAM_OFF _ (by decide))).trans (write _ TILE_FAULT_LOC_PC _ (by decide))).trans
      (write _ TILE_FAULT_STREAM_ID _ (by decide))
  rw [record]
  exact ((regs.trans (.modTile t _ k (fun x => { x with faultRec := stream }) fun _ => rfl)).trans (.emit t _ k 0x0320 (faultData e cause loc))).trans (.of_halts (haltAndCut_halts ..).1)

theorem faultSettle_aftermath (t : Nat) (s : State) (k : Nat) : Aftermath t s (s.faultSettle k) := by
  unfold State.faultSettle
  split
  · split
    · exact (Aftermath.of_halts (completeDesc_halts ..)).trans (.modTile t _ k (fun x => { x with faultRec := none }) fun _ => rfl)
    · exact .refl t s
  · exact .refl t s

/-- One group of a tile that faults breaks, and with it the waits on it fault (R352). -/
def State.breakGroup (fuel t g : Nat) (a : State) : State :=
  if a.inGroup g t && !a.broken g then
    let a := (a.raise chorusB (CHORUS_CTRL_BROKEN.at (8 * g))).emit t 0x0352 [g, 3]
    let a := { a with tiles := a.tiles.map (fun (p : Nat × Tile) => (p.1, p.2.mapEngines (fun x => x.moveArrival g .broken))) }
    a.tileKeys.foldl (fun (a : State) u =>
      match a.brokenWait g u with
      | some (k, loc) => State.faultWith fuel (a.dropWaits g u) u k 30 loc
      | none => a) a
  else a

theorem faultWith_succ (fuel : Nat) (s : State) (t e cause : Nat) (loc : Loc) : State.faultWith (fuel + 1) s t e cause loc =
    if s.faulted t || !s.tileUp t then s else (upto 8 (State.breakGroup fuel t) (s.recordFault t e cause loc)).faultSettle t := rfl

/-- The groups that break after a fault of tile `t`, when the faults of their waits follow it. -/
theorem breakGroup_aftermath {t fuel : Nat} (follows : ∀ (s : State) (k e cause : Nat) (loc : Loc), s.faulted t = true → Aftermath t s (State.faultWith fuel s k e cause loc))
    {s : State} (recorded : s.faulted t = true) (k : Nat) {g : Nat} (group : g < 8) : Aftermath t s (s.breakGroup fuel k g) := by
  unfold State.breakGroup
  dsimp only
  split
  · have broken : Aftermath t s ((s.raise chorusB (CHORUS_CTRL_BROKEN.at (8 * g))).emit k 0x0352 [g, 3]) :=
      (Aftermath.wr s chorusB (CHORUS_CTRL_BROKEN.at (8 * g)) 1 (chorus_notMem_faultWords t group)).trans (.emit t _ k 0x0352 [g, 3])
    refine foldl_keeps (Aftermath t s) _ _ _ (broken.trans (.mapTiles t _ (fun x => x.mapEngines (fun x => x.moveArrival g .broken)) fun x => x.mapEngines_spad _)) fun a n h => ?_
    split
    · have dropped : Aftermath t s (a.dropWaits g n) := h.trans (.modTile t a n _ fun x => x.mapEngines_spad _)
      exact dropped.trans (follows _ _ _ _ _ (dropped.faulted.trans recorded))
    · exact h
  · exact .refl t s

theorem faultWith_aftermath (t fuel : Nat) : ∀ (s : State) (k e cause : Nat) (loc : Loc), s.faulted t = true → Aftermath t s (State.faultWith fuel s k e cause loc) := by
  induction fuel with
  | zero => exact fun s _ _ _ _ _ => .refl t s
  | succ fuel ih =>
    intro s k e cause loc recorded
    rw [faultWith_succ]
    split
    · exact .refl t s
    · next well =>
      have other : k ≠ t := fun same => well (by rw [same, recorded, Bool.true_or])
      refine (upto_keeps_lt (Aftermath t s) 8 _ _ (recordFault_aftermath other s e cause loc) fun g group a h => ?_).trans (faultSettle_aftermath t _ k)
      exact h.trans (breakGroup_aftermath ih (h.faulted.trans recorded) k group)

/-- A fault of a tile that runs is recorded (R263). -/
theorem tileFault_faulted {s : State} {t e cause : Nat} (loc : Loc) (up : s.tileUp t = true) (well : s.faulted t = false) (code : cause < 256) (engine : e < 8) :
    Faulted s (s.tileFault t e cause loc) t e cause loc := by
  obtain ⟨ident, stream, record⟩ := recordFault_eq s t e cause loc
  obtain ⟨valid, causeIs, engineIs, offset, pc⟩ := faultRegs_recorded s t loc ident code engine
  obtain ⟨written, only⟩ := faultRegs_only s t e cause loc ident
  generalize hv : ((s.faultRegs t e cause loc ident).modTile t (fun x => { x with faultRec := stream })).emit t 0x0320 (faultData e cause loc) = v at record
  obtain ⟨halts, stopped⟩ := haltAndCut_halts v 1 t 7 (v.tileRings t)
  dsimp only at record
  rw [← record] at halts stopped
  have moved : Aftermath t (s.faultRegs t e cause loc ident) v := by
    rw [← hv]
    exact (Aftermath.modTile t _ t (fun x => { x with faultRec := stream }) fun _ => rfl).trans (.emit t _ t 0x0320 (faultData e cause loc))
  have regs : Aftermath t (s.faultRegs t e cause loc ident) (s.recordFault t e cause loc) := moved.trans (.of_halts halts)
  have recorded : (s.recordFault t e cause loc).faulted t = true := regs.faulted.trans valid
  have after : Aftermath t (s.recordFault t e cause loc) (s.tileFault t e cause loc) := by
    unfold State.tileFault
    rw [faultWith_succ, well, up, Bool.not_true, Bool.or_self, if_neg Bool.false_ne_true]
    refine (upto_keeps_lt (Aftermath t _) 8 _ _ (.refl t _) fun g group a h => ?_).trans (faultSettle_aftermath t _ t)
    exact h.trans (breakGroup_aftermath (faultWith_aftermath t 9) (h.faulted.trans recorded) t group)
  have whole := regs.trans after
  have event : v.reports = s.reports ++ [s.report t 0x0320 (faultData e cause loc)] := by rw [← hv, only]; rfl
  have added := halts.reports.trans after.reports
  have rings : v.tileRings t = s.tileRings t := by
    have own : v.tile t = { s.tile t with faultRec := stream } := by
      rw [← hv, only]
      exact State.setTile_tile { s with regs := written } t { s.tile t with faultRec := stream }
    have outside : v.recsOut = s.recsOut := by rw [← hv, only]; rfl
    rw [State.tileRings, own, outside, State.tileRings]
  have reported : s.report t 0x0320 (faultData e cause loc) ∈ v.reports := by simp [event]
  have before : s.reports <+: v.reports := by rw [event]; exact List.prefix_append _ _
  have unwritten : (s.faultRegs t e cause loc ident).mem = s.mem ∧ (s.faultRegs t e cause loc ident).tiles = s.tiles := by rw [only]; exact ⟨rfl, rfl⟩
  obtain ⟨mem, tiles⟩ := unwritten
  refine ⟨whole.faulted.trans valid, (whole.rd (List.mem_cons_self ..)).trans causeIs, (whole.rd (f := TILE_FAULT_ENGINE) (List.mem_cons_self ..)).trans engineIs,
    (whole.rd (List.mem_cons_of_mem _ (List.mem_singleton_self _))).trans offset, (whole.rd (f := TILE_FAULT_LOC_PC) (List.mem_cons_of_mem _ (List.mem_singleton_self _))).trans pc,
    added.subset reported, before.trans added, fun n small feeds => ?_, whole.mem.trans mem, fun k => (whole.spads k).trans ?_⟩
  · exact after.halted n (stopped n small (rings ▸ feeds))
  · rw [State.tile, tiles]
    rfl

/-- What a fault of the state in which its operation stands next says of the state before: presenting the operation moved no scratchpad and no record. -/
theorem Faulted.of_setTile {s u : State} {t e cause : Nat} {x : Tile} {loc : Loc} (h : Faulted (s.setTile t x) u t e cause loc) (steered : (s.tile t).Steered x) : Faulted s u t e cause loc := by
  obtain ⟨valid, causeIs, engineIs, offset, pc, event, reports, rings, mem, spads⟩ := h
  have feeds : (s.setTile t x).tileRings t = s.tileRings t := by
    unfold State.tileRings
    rw [State.setTile_tile, steered.recs, State.setTile_recsOut]
  refine ⟨valid, causeIs, engineIs, offset, pc, event, reports, fun n small listed => rings n small (feeds ▸ listed), mem, fun k => (spads k).trans ?_⟩
  by_cases own : k = t
  · rw [own, State.setTile_tile, steered.spad]
  · rw [State.setTile_tile_ne _ _ _ _ own]

/-- An operation that faults at issue (R263). -/
theorem Issues.faults {s : State} {t e : Nat} {w : OpWord} {x : Tile} {loc : Loc} (issues : Issues s t e w x loc) {cause : Nat} (code : cause < 256) (engine : e < 8) :
    Faulted s (s.outcome t e x loc (.fault cause)) t e cause loc := by
  have steered := issues.steered
  obtain ⟨may, -, -⟩ := issues
  unfold State.canIssue at may
  simp only [Bool.and_eq_true, Bool.not_eq_true'] at may
  obtain ⟨⟨⟨up, well⟩, -⟩, -⟩ := may
  have stands : (s.setTile t x).tileUp t = true := by
    rw [State.tileUp, State.setTile_tile, steered.inReset]
    exact up
  exact Faulted.of_setTile (tileFault_faulted (s := s.setTile t x) loc stands well code engine) steered

end Sys2Proof.Machine
end

section
/-! The operations that every engine has: NOP, the address operations, LDA and FENCE (R197, R211, R243-R245, Tables 8-2 and 8-3). -/

namespace Sys2Proof.Machine

/-! ### Operation words -/

/-- Two neighbouring fields are one. -/
theorem setBits_joined (v lo a b : Nat) : setBits (setBits v lo a 0) (lo + a) b 0 = setBits v lo (a + b) 0 := by
  refine Nat.eq_of_testBit_eq fun i => ?_
  simp only [testBit_setBits, Nat.zero_testBit]
  by_cases upper : lo + a ≤ i ∧ i < lo + a + b
  · rw [if_pos upper, if_pos (by omega)]
  · rw [if_neg upper]
    by_cases lower : lo ≤ i ∧ i < lo + a
    · rw [if_pos lower, if_pos (by omega)]
    · rw [if_neg lower, if_neg (by omega)]

theorem onlyBits_joined (v lo a b : Nat) (l : List (Nat × Nat)) : onlyBits v ((lo, a) :: (lo + a, b) :: l) = onlyBits v ((lo, a + b) :: l) := by
  unfold onlyBits
  rw [List.foldl_cons, List.foldl_cons, List.foldl_cons, setBits_joined]

/-- An opcode of Table 8-2 takes an extension word where it is SETAX (R242). -/
theorem needsExt_common (e : Nat) {code : Nat} (common : code ≤ 0x0D) : needsExt e code = some (decide (code = 2)) := if_pos common

/-! ### Address operations -/

theorem ofNat_wrapTo (n : Nat) : BitVec.ofNat 41 (wrapTo 41 (n : Int)) = BitVec.ofNat 41 n := by
  have cut : wrapTo 41 (n : Int) = n % 2 ^ 41 := by
    unfold wrapTo
    omega
  rw [cut]
  exact BitVec.eq_of_toNat_eq (by simp)

/-- An address operation in its legal form sets Ad to its value, modulo 2^41 (R243). -/
theorem setsAd_of {cmd : TileId → EngId → OpWord → Instr} {code : Nat} {ok legal : Nat → Nat → Bool} {ext : Bool} {v : (Nat → Nat) → Nat → Nat → Int} {val : OpCtx → State → Nat}
    (meaning : ∀ t e w s, exec (cmd t e w) s = .next (s.issueOp t.toNat e.val w (opIs code) legal (fun c s => .done (s.setA c.t c.e c.d (val c s)))))
    (common : code ≤ 0x0D) (extends_ : decide (code = 2) = ext) (form : ∀ op a, ok op a = true → legal op a = true)
    (value : ∀ c s r, s.areg c = r → BitVec.ofNat 41 (val c s) = BitVec.ofNat 41 (wrapTo 41 (v r c.op c.ext))) : SetsAd cmd code ok ext v := by
  intro t e w s x loc issues op a opcode fields extension
  have own : opIs code w.op.toNat = true := decide_eq_true opcode
  have needs : needsExt e (opcodeOf w) = some w.ext.isSome := by rw [opcodeOf, opcode, needsExt_common e common, extends_, extension]
  have ran := Ran.of_issued s t.toNat e x
  have regs : (s.issued t.toNat e x).areg ⟨t.toNat, e, w, loc, (x.eng e).slot⟩ = (x.eng e).areg := by
    funext r
    rw [State.areg, ran.engine, x.consume_areg]
  have set := (ran.setA (bitsOf op 8 4) (val ⟨t.toNat, e, w, loc, (x.eng e).slot⟩ (s.issued t.toNat e x))).closes
  refine ⟨_, (meaning t e w s).trans (congrArg Host.Outcome.next (issues.issueOp _ needs own (form op a fields))), ?_⟩
  rw [Ended_setEngine, Tile.eng_setEngine, Engine.setA, value _ _ _ regs] at set
  exact set

/-- The opcode with the fields d, s and t that follow it. -/
theorem onlyBits_d (op : Nat) (l : List (Nat × Nat)) : onlyBits op ((0, 8) :: (8, 4) :: l) = onlyBits op ((0, 12) :: l) := onlyBits_joined op 0 8 4 l
theorem onlyBits_ds (op : Nat) (l : List (Nat × Nat)) : onlyBits op ((0, 8) :: (8, 4) :: (12, 4) :: l) = onlyBits op ((0, 16) :: l) :=
  (onlyBits_d op _).trans (onlyBits_joined op 0 12 4 l)
theorem onlyBits_dst (op : Nat) (l : List (Nat × Nat)) : onlyBits op ((0, 8) :: (8, 4) :: (12, 4) :: (16, 4) :: l) = onlyBits op ((0, 20) :: l) :=
  (onlyBits_ds op _).trans (onlyBits_joined op 0 16 4 l)

theorem seta_setsAd : SetsAd .seta 0x01 (fun op _ => onlyBits op [(0, 12), (32, 32)]) false (fun _ op _ => signed 32 (bitsOf op 32 32)) :=
  setsAd_of (fun _ _ _ _ => rfl) (by decide) rfl (fun op _ fields => (onlyBits_d op _).trans fields) fun _ _ _ _ => rfl

theorem setax_setsAd : SetsAd .setax 0x02 (fun op a => onlyBits op [(0, 12)] && decide (a < 2 ^ 41)) true (fun _ _ a => a) :=
  setsAd_of (fun _ _ _ _ => rfl) (by decide) rfl (fun op _ fields => by rw [onlyBits_d]; exact fields) fun c _ _ _ => (ofNat_wrapTo c.ext).symm

theorem adda_setsAd : SetsAd .adda 0x03 (fun op _ => onlyBits op [(0, 20)]) false (fun r op _ => (r (bitsOf op 12 4) : Int) + r (bitsOf op 16 4)) :=
  setsAd_of (fun _ _ _ _ => rfl) (by decide) rfl (fun op _ fields => (onlyBits_dst op _).trans fields) fun _ _ _ regs => by rw [← regs]; rfl

theorem suba_setsAd : SetsAd .suba 0x04 (fun op _ => onlyBits op [(0, 20)]) false (fun r op _ => (r (bitsOf op 12 4) : Int) - r (bitsOf op 16 4)) :=
  setsAd_of (fun _ _ _ _ => rfl) (by decide) rfl (fun op _ fields => (onlyBits_dst op _).trans fields) fun _ _ _ regs => by rw [← regs]; rfl

theorem addi_setsAd : SetsAd .addi 0x05 (fun op _ => onlyBits op [(0, 16), (32, 32)]) false (fun r op _ => (r (bitsOf op 12 4) : Int) + signed 32 (bitsOf op 32 32)) :=
  setsAd_of (fun _ _ _ _ => rfl) (by decide) rfl (fun op _ fields => (onlyBits_ds op _).trans fields) fun _ _ _ regs => by rw [← regs]; rfl

/-- The form of a shift. -/
theorem shiftLegal_eq (op : Nat) : shiftLegal op = (onlyBits op [(0, 16), (20, 6)] && decide (bitsOf op 20 6 ≤ 40)) := by rw [shiftLegal, onlyBits_ds]

theorem shla_setsAd : SetsAd .shla 0x06 (fun op _ => onlyBits op [(0, 16), (20, 6)] && decide (bitsOf op 20 6 ≤ 40)) false
    (fun r op _ => (r (bitsOf op 12 4) : Int) * (2 ^ bitsOf op 20 6 : Nat)) :=
  setsAd_of (fun _ _ _ _ => rfl) (by decide) rfl (fun op _ fields => (shiftLegal_eq op).trans fields) fun c s _ regs => by
    rw [← regs, ← Int.natCast_mul, ofNat_wrapTo]
    rfl

theorem shra_setsAd : SetsAd .shra 0x07 (fun op _ => onlyBits op [(0, 16), (20, 6)] && decide (bitsOf op 20 6 ≤ 40)) false
    (fun r op _ => ((r (bitsOf op 12 4) / 2 ^ bitsOf op 20 6 : Nat) : Int)) :=
  setsAd_of (fun _ _ _ _ => rfl) (by decide) rfl (fun op _ fields => (shiftLegal_eq op).trans fields) fun c s _ regs => by
    rw [← regs, ofNat_wrapTo]
    rfl

theorem mula_setsAd : SetsAd .mula 0x08 (fun op _ => onlyBits op [(0, 16), (32, 16)]) false (fun r op _ => (r (bitsOf op 12 4) : Int) * (bitsOf op 32 16 : Nat)) :=
  setsAd_of (fun _ _ _ _ => rfl) (by decide) rfl (fun op _ fields => (onlyBits_ds op _).trans fields) fun _ _ _ regs => by rw [← regs]; rfl

/-- The offset that an LDA reads (R244). -/
def ldaOffset (x : Tile) (e : Nat) (op : Nat) : Nat := wrapTo 41 (((x.eng e).areg (bitsOf op 12 4) : Int) + signed 32 (bitsOf op 32 32))

section
variable {t : TileId} {e : EngId} {w : OpWord} {s : State} {x : Tile} {loc : Loc} (issues : Issues s t.toNat e w x loc)
include issues

/-! ### NOP -/

theorem nop_issues (op : w.op = 0) (ext : w.ext = none) : Goes (.nop t e w) s (fun u => OneOp s u t.toNat e (Ended (x.consume e) e ((x.consume e).eng e)) []) := by
  have form : needsExt e (opcodeOf w) = some w.ext.isSome := by
    rw [opcodeOf, op, ext]
    exact needsExt_common e (by decide)
  have outcome := issues.issueOp (fun _ u => .done u) (mine := opIs 0x00) (legal := fun op _ => onlyBits op [(0, 8)]) form (by rw [op]; decide) (by rw [op]; decide)
  exact ⟨_, congrArg Host.Outcome.next outcome, (Ran.of_issued s t.toNat e x).closes⟩

/-! ### LDA -/

section
variable (opcode : w.op.toNat % 256 = 0x09) (fields : onlyBits w.op.toNat [(0, 16), (32, 32)] = true) (ext : w.ext = none)
include opcode fields ext

/-- What becomes of an LDA, by its offset, the writes that may still reach it, and its data. -/
theorem lda_outcome :
    let a := ldaOffset x e w.op.toNat
    exec (.lda t e w) s = .next (s.outcome t.toNat e x loc
      (if a % 8 ≠ 0 ∨ 0x3FFFF8 < a then .fault 12
      else if s.mayWrite t.toNat e a 8 then .hold
      else (s.spWord t.toNat a).elim (.fault 32) fun v => .done (((s.issued t.toNat e x).bankUse t.toNat e [a / 64]).setA t.toNat e (bitsOf w.op.toNat 8 4) v))) := by
  have form : needsExt e (opcodeOf w) = some w.ext.isSome := by rw [opcodeOf, opcode, ext, needsExt_common e (by decide)]; rfl
  have ran := Ran.of_issued s t.toNat e x
  have steered := issues.steered.trans (.consume x e)
  intro a
  refine congrArg Host.Outcome.next ((issues.issueOp _ form (decide_eq_true opcode) ((onlyBits_ds _ _).trans fields)).trans (congrArg (s.outcome t.toNat e x loc) ?_))
  have base : (s.issued t.toNat e x).areg ⟨t.toNat, e, w, loc, (x.eng e).slot⟩ (bitsOf w.op.toNat 12 4) = (x.eng e).areg (bitsOf w.op.toNat 12 4) := by
    rw [State.areg, ran.engine, x.consume_areg]
  have offset : addA ((s.issued t.toNat e x).areg ⟨t.toNat, e, w, loc, (x.eng e).slot⟩ (bitsOf w.op.toNat 12 4)) (signed 32 (bitsOf w.op.toNat 32 32)) = a := by rw [base]; rfl
  dsimp only [OpCtx.s, OpCtx.imm32, OpCtx.op]
  rw [offset, ran.mayWrite steered, ran.spWord steered]
  cases s.spWord t.toNat a <;> rfl

/-- An LDA of a bad offset faults with ADDR (R244). -/
theorem lda_misplaced (misplaced : ldaOffset x e w.op.toNat % 8 ≠ 0 ∨ 0x3FFFF8 < ldaOffset x e w.op.toNat) : Goes (.lda t e w) s (fun u => Faulted s u t.toNat e 12 loc) := by
  have outcome := lda_outcome issues opcode fields ext
  dsimp only at outcome
  rw [if_pos misplaced] at outcome
  exact ⟨_, outcome, issues.faults (by decide) (by omega)⟩

variable (aligned : ldaOffset x e w.op.toNat % 8 = 0) (inside : ldaOffset x e w.op.toNat ≤ 0x3FFFF8)
include aligned inside

/-- An LDA waits while an earlier operation of its engine may still write what it reads (R197). -/
theorem lda_waits (writes : s.mayWrite t.toNat e (ldaOffset x e w.op.toNat) 8 = true) : exec (.lda t e w) s = .next s := by
  have outcome := lda_outcome issues opcode fields ext
  dsimp only at outcome
  rw [if_neg (by omega), writes, if_pos rfl] at outcome
  exact outcome

variable (complete : s.mayWrite t.toNat e (ldaOffset x e w.op.toNat) 8 = false)
include complete

theorem lda_reads {v : Nat} (word : s.spWord t.toNat (ldaOffset x e w.op.toNat) = some v) :
    let y := (x.consume e).bankUse e [ldaOffset x e w.op.toNat / 64]
    Goes (.lda t e w) s (fun u => OneOp s u t.toNat e (Ended y e ((y.eng e).setA (bitsOf w.op.toNat 8 4) v)) []) := by
  have outcome := lda_outcome issues opcode fields ext
  dsimp only at outcome
  rw [if_neg (by omega), complete, if_neg Bool.false_ne_true, word] at outcome
  have done := (((Ran.of_issued s t.toNat e x).bankUse [ldaOffset x e w.op.toNat / 64]).setA (bitsOf w.op.toNat 8 4) v).closes
  rw [Ended_setEngine, Tile.eng_setEngine] at done
  exact ⟨_, outcome, done⟩

/-- An LDA of a poisoned unit faults with CTL_POISON (R244). -/
theorem lda_poisoned (poison : s.spWord t.toNat (ldaOffset x e w.op.toNat) = none) : Goes (.lda t e w) s (fun u => Faulted s u t.toNat e 32 loc) := by
  have outcome := lda_outcome issues opcode fields ext
  dsimp only at outcome
  rw [if_neg (by omega), complete, if_neg Bool.false_ne_true, poison] at outcome
  exact ⟨_, outcome, issues.faults (by decide) (by omega)⟩

end

/-! ### FENCE -/

section
variable (opcode : w.op.toNat % 256 = 0x0D) (fields : onlyBits w.op.toNat [(0, 10)] = true) (asks : bitsOf w.op.toNat 8 2 ≠ 0) (ext : w.ext = none)
include opcode fields asks ext

/-- A FENCE waits for a release, or goes on with its acquire (R211, R245). -/
theorem fence_outcome :
    exec (.fence t e w) s = .next (s.outcome t.toNat e x loc
      (if bit w.op.toNat 8 && !s.released t.toNat e then .hold
      else .done (if bit w.op.toNat 9 then (s.issued t.toNat e x).acquire t.toNat else s.issued t.toNat e x))) := by
  have form : needsExt e (opcodeOf w) = some w.ext.isSome := by rw [opcodeOf, opcode, ext, needsExt_common e (by decide)]; rfl
  have legal : (onlyBits w.op.toNat [(0, 8), (8, 2)] && decide (bitsOf w.op.toNat 8 2 ≠ 0)) = true := by
    rw [Bool.and_eq_true]
    exact ⟨(onlyBits_joined w.op.toNat 0 8 2 []).trans fields, decide_eq_true asks⟩
  have ran := Ran.of_issued s t.toNat e x
  refine congrArg Host.Outcome.next ((issues.issueOp _ form (decide_eq_true opcode) legal).trans (congrArg (s.outcome t.toNat e x loc) ?_))
  exact congrArg (fun done : Bool => if bit w.op.toNat 8 && !done then Issued.hold
    else .done (if bit w.op.toNat 9 then (s.issued t.toNat e x).acquire t.toNat else s.issued t.toNat e x)) (ran.released (issues.steered.trans (.consume x e)) e)

/-- A FENCE with REL stays while a write of its engine is not complete (R211, R245). -/
theorem fence_waits (rel : bit w.op.toNat 8 = true) (writing : s.released t.toNat e = false) : exec (.fence t e w) s = .next s := by
  rw [fence_outcome issues opcode fields asks ext, rel, writing]
  rfl

/-- A FENCE whose release is complete, or that asks for none. -/
theorem fence_goes (complete : bit w.op.toNat 8 = false ∨ s.released t.toNat e = true) :
    exec (.fence t e w) s = .next ((if bit w.op.toNat 9 then (s.issued t.toNat e x).acquire t.toNat else s.issued t.toNat e x).afterOp t.toNat e) := by
  have goes : ¬ (bit w.op.toNat 8 && !s.released t.toNat e) = true := by
    rcases complete with none | done
    · simp [none]
    · simp [done]
  rw [fence_outcome issues opcode fields asks ext, if_neg goes]
  rfl

end

end

/-- Settles O30: each operation is taken as one step (`Issues.issueOp`, `Ran.closes`), an address operation sets its register (`setsAd_of`), an LDA reads, waits or faults by its offset (`lda_outcome`), and a FENCE waits or acquires (`fence_outcome`, `Ran.acquire`). -/
theorem addressLoadAndFenceOperationsAct : Obligations.AddressLoadAndFenceOperationsAct := by
  unfold Obligations.AddressLoadAndFenceOperationsAct
  refine ⟨fun t e w s x loc issues => nop_issues issues, seta_setsAd, setax_setsAd, adda_setsAd, suba_setsAd, addi_setsAd, shla_setsAd, shra_setsAd, mula_setsAd,
    fun t e w s x loc issues opcode fields ext => ⟨lda_misplaced issues opcode fields ext, fun aligned inside complete =>
      ⟨fun v word => lda_reads issues opcode fields ext aligned inside complete word, lda_poisoned issues opcode fields ext aligned inside complete⟩,
      lda_waits issues opcode fields ext⟩,
    fun t e w s x loc issues opcode fields asks ext => ⟨fence_waits issues opcode fields asks ext, fun complete => ⟨fun plain => ?release, fun acquires => ?acquire⟩⟩⟩
  case release =>
    refine ⟨_, fence_goes issues opcode fields asks ext complete, ?_⟩
    rw [plain, if_neg Bool.false_ne_true]
    exact (Ran.of_issued s t.toNat e x).closes
  case acquire =>
    refine ⟨_, fence_goes issues opcode fields asks ext complete, ?_⟩
    rw [acquires, if_pos rfl]
    obtain ⟨ran, counted, unused⟩ := (Ran.of_issued s t.toNat e x).acquire e.isLt
    have buffer : (x.consume e).pf = (s.tile t.toNat).pf := by rw [issues.steered.trans (.consume x e)]
    exact ⟨ran.closes, counted, buffer ▸ unused⟩

end Sys2Proof.Machine
end

section
/-! The stream buffer: how a record takes its predictions, what the boundary of a record may change, and line requests with their answers (R230-R234, R375). -/

namespace Sys2Proof.Machine

/-! ### One tile and its registers -/

/-- From `s` to `u` tile `t` becomes `x`; of the registers only the words `l` change, and pending values may have become effective. -/
structure StreamStep (t : Nat) (x : Tile) (l : List Nat) (s u : State) : Prop where
  rest   : u = { s with regs := u.regs, pendMask := u.pendMask, tiles := u.tiles, reports := u.reports }
  others : OtherTiles s u t
  tile   : u.tile t = x
  words  : WordsBut s u l

namespace StreamStep
variable {t : Nat} {x y : Tile} {l : List Nat} {s u v : State}

theorem trans (h : StreamStep t x l s u) (g : StreamStep t y l u v) : StreamStep t y l s v :=
  ⟨g.rest.trans (by rw [h.rest]), fun k hk => (g.others k hk).trans (h.others k hk), g.tile, h.words.trans g.words⟩

theorem mono {m : List Nat} (h : StreamStep t x l s u) (hl : l ⊆ m) : StreamStep t x m s u := ⟨h.rest, h.others, h.tile, h.words.mono hl⟩

theorem of_tileStep (h : TileStep t x l s u) : StreamStep t x l s u :=
  ⟨by rw [h.rest], h.others, h.tile, h.words⟩

theorem refl (l : List Nat) (own : s.tile t = x) : StreamStep t x l s s := ⟨rfl, fun _ _ => rfl, own, .refl s l⟩

theorem setTile (h : StreamStep t x l s u) (y : Tile) : StreamStep t y l s (u.setTile t y) := h.trans (.of_tileStep (.setTile u t y l))

theorem countT (h : StreamStep t x l s u) (f : Fld) (n : Nat) (listed : tileB t + f.off ∈ l) : StreamStep t x l s (u.countT t f n) := by
  have stays : TileStep t x l u u := ⟨rfl, fun _ _ => rfl, h.tile, .refl u l, List.prefix_refl _⟩
  exact h.trans (.of_tileStep (stays.countT f n listed))

/-- A pending value becomes effective (R12). -/
theorem effect (h : StreamStep t x l s u) (f : Fld) (listed : tileB t + f.off ∈ l) : StreamStep t x l s (u.effect (tileB t) f) := by
  unfold State.effect
  dsimp only
  split
  · exact h
  · have written : WordsBut u (u.wr (tileB t) f (bitsOf (look noPend u.pend (tileB t + f.off)).toNat f.lo f.w)) l :=
      (wr_wordsBut u (tileB t) f _).mono (List.cons_subset.mpr ⟨listed, List.nil_subset _⟩)
    exact h.trans ⟨rfl, fun _ _ => rfl, h.tile, written.trans (.of_regs rfl l)⟩

/-- The boundary "start of next stream record" (Table 8-10). -/
theorem startRecord (h : StreamStep t x l s u) (listed : tileB t + TILE_SF_CTRL_ENABLE.off ∈ l) : StreamStep t x l s (u.startRecord t) :=
  ((h.effect TILE_SF_CTRL_ENABLE listed).effect TILE_SF_CTRL_SPEC listed).effect TILE_SF_CTRL_DEPTH listed

end StreamStep

/-! ### Predictions (R233) -/

/-- From `x` to `y` lines join the stream buffer, and requests are renamed or discarded. -/
structure Tile.LinesJoin (x y : Tile) : Prop where
  rest  : y = { x with lines := y.lines, reqs := y.reqs }
  lines : x.lines <+: y.lines

theorem Tile.LinesJoin.trans {x y z : Tile} (h : x.LinesJoin y) (g : y.LinesJoin z) : x.LinesJoin z :=
  ⟨g.rest.trans (by rw [h.rest]), h.lines.trans g.lines⟩

theorem Tile.discard_linesJoin (x : Tile) (l : List PLine) : x.LinesJoin (x.discard l).1 := ⟨rfl, List.prefix_refl _⟩

theorem Tile.usePredictions_linesJoin (r : SRec) (l : List PLine) : ∀ (x : Tile) (i : Nat), x.LinesJoin (x.usePredictions r i l).1 := by
  induction l with
  | nil => exact fun x _ => ⟨rfl, List.prefix_refl _⟩
  | cons p l ih =>
    intro x i
    unfold Tile.usePredictions
    split
    · split
      · exact ih x (i + 1)
      · exact Tile.LinesJoin.trans ⟨rfl, List.prefix_append _ _⟩ (ih _ (i + 1))
    · exact x.discard_linesJoin (p :: l)

/-- A new record takes its predicted lines, and no prediction is left. -/
theorem Tile.takePredictions_linesJoin (x : Tile) (r : SRec) : ({ x with preds := [] } : Tile).LinesJoin (x.takePredictions r).1 :=
  (Tile.discard_linesJoin _ _).trans (Tile.usePredictions_linesJoin r _ _ 0)

theorem Tile.takePredictions_none {x : Tile} (none : x.preds = []) (r : SRec) : x.takePredictions r = (x, 0) := by
  have nothing (y : Tile) : y.discard [] = (y, 0) := by simp [Tile.discard]
  obtain ⟨⟩ := x
  cases none
  exact congrArg (fun p : Tile × Nat => (p.1, p.2 + 0)) (nothing _)

/-! ### STREAM_RECORD (R230) -/

/-- The words that the arrival of a record may change. -/
def recordWords (t : Nat) : List Nat := [tileB t + (TILE_PFS_COUNT.at 0x18).off, tileB t + TILE_SF_CTRL_ENABLE.off]

/-- A record with the next serial number of its tile. -/
def Tile.numbered (x : Tile) (r : SRec) : SRec := { r with serial := x.serial + 1 }

/-- A tile with a further record, before predictions are used. -/
def Tile.received (x : Tile) (r : SRec) : Tile := { x with serial := x.serial + 1, recs := x.recs ++ [x.numbered r] }

/-- The oldest record on its way takes a free slot under the next serial number. -/
theorem streamRecord_takes {t : Nat} {s : State} {q : Nat × SRec} (oldest : s.recsOut.find? (fun r => decide (r.1 = t)) = some q) (up : s.tileUp t = true)
    (room : (s.tile t).recs.length < 8) :
    let taken := ((s.tile t).received q.2).takePredictions ((s.tile t).numbered q.2)
    StreamStep t taken.1 (recordWords t) { s with recsOut := s.recsOut.eraseP (fun r => decide (r.1 = t)) } (streamRecord t s) := by
  intro taken
  have start := (StreamStep.refl (s := { s with recsOut := s.recsOut.eraseP (fun r => decide (r.1 = t)) }) (recordWords t) (t := t) rfl).setTile taken.1
  unfold streamRecord
  rw [oldest]
  dsimp only
  rw [up, decide_eq_false (Nat.not_le.mpr room), Bool.not_true, Bool.or_self, if_neg Bool.false_ne_true]
  generalize hv : (if _ = 0 then _ else State.countT _ _ _ _ : State) = v
  have counted : StreamStep t taken.1 (recordWords t) { s with recsOut := s.recsOut.eraseP (fun r => decide (r.1 = t)) } v := by
    rw [← hv]
    split
    · exact start
    · exact start.countT _ _ (List.mem_cons_self ..)
  split
  · exact counted.startRecord (List.mem_cons_of_mem _ (List.mem_singleton_self _))
  · exact counted

/-! ### Line requests (R233, R382) -/

/-- The state in which a line request of tile `t` has left the card. -/
def State.lineAsked (s : State) (t n addr : Nat) (what : SReq) (f : Tile → Tile) : State :=
  (s.modTile t (fun x => { f x with reqs := x.reqs ++ [⟨s.freeTag, s.ringOwner n, what⟩], dldDone := false })).send (.hostRead (s.ringOwner n) s.freeTag addr 64)

section
variable {t : Nat} {s : State} {n : Nat} (live : s.hostLive (s.ringOwner n) = true) (first : s.host.waiting = []) (may : s.mayRead 1 = true) (carried : s.seamHeld (tileDie t) 0 = false)
include live first may carried

/-- A line request that its function may send. -/
theorem sendLine_eq (addr : Nat) (what : SReq) (f : Tile → Tile) :
    s.sendLine t n addr what f = if s.flag (tileB t) TILE_SF_CTRL_ENABLE then (s.lineAsked t n addr what f).countT t TILE_PFS_COUNT 1 else s.lineAsked t n addr what f := by
  unfold State.sendLine
  rw [live, first, may, carried, if_neg (by decide)]
  rfl

end

/-- What a counted line request changes. -/
theorem lineAsked_counted (s : State) (t n addr : Nat) (what : SReq) (f : Tile → Tile) :
    let u := (s.lineAsked t n addr what f).countT t TILE_PFS_COUNT 1
    (u = { s with regs := u.regs, tiles := u.tiles, reports := u.reports, out := s.out ++ [.hostRead (s.ringOwner n) s.freeTag addr 64] } ∧ OtherTiles s u t ∧
      u.tile t = { f (s.tile t) with reqs := (s.tile t).reqs ++ [⟨s.freeTag, s.ringOwner n, what⟩], dldDone := false }) ∧
      Counted s u (tileB t) TILE_PFS_COUNT 1 ∧ WordsBut s u [tileB t + TILE_PFS_COUNT.off] := by
  have counted := countT_counted (s.lineAsked t n addr what f) t TILE_PFS_COUNT 1
  have own : (s.lineAsked t n addr what f).tile t = { f (s.tile t) with reqs := (s.tile t).reqs ++ [⟨s.freeTag, s.ringOwner n, what⟩], dldDone := false } := look_put_same ..
  have others : OtherTiles s (s.lineAsked t n addr what f) t := fun k hk => look_put_ne _ _ _ _ _ hk
  refine ⟨⟨?_, fun k hk => (counted.tile k).trans (others k hk), (counted.tile t).trans own⟩, counted.rd (by decide), counted.words⟩
  have tiles : ((s.lineAsked t n addr what f).countT t TILE_PFS_COUNT 1).tiles = (s.lineAsked t n addr what f).tiles := by rw [counted.rest]
  rw [tiles]
  exact counted.rest

section
variable {t : Nat} {s : State} (up : s.tileUp t = true) (free : (s.tile t).lineFree = true)
include up free

/-- With prefetching on, the next line of the queued records is asked for. -/
theorem streamFetchRequest_next {r : SRec} {i : Nat} (on : s.flag (tileB t) TILE_SF_CTRL_ENABLE = true) (few : (s.tile t).outstanding < s.rd (tileB t) TILE_SF_CTRL_DEPTH)
    (next : (s.tile t).nextRequest = some (r, i)) : streamFetchRequest t s = s.requestLine t r i := by
  unfold streamFetchRequest
  dsimp only
  rw [up, free, if_neg (by decide), on, if_pos rfl, if_neg (Nat.not_le.mpr few), next]

/-- With prefetching off, only the line that the Tadpole waits for is asked for. -/
theorem streamFetchRequest_needed {r : SRec} {i : Nat} (off : s.flag (tileB t) TILE_SF_CTRL_ENABLE = false) (needs : (s.tile t).needsLine ≠ none) (idle : (s.tile t).outstanding = 0)
    (next : (s.tile t).nextRequest = some (r, i)) : streamFetchRequest t s = s.requestLine t r i := by
  obtain ⟨line, waits⟩ := Option.ne_none_iff_exists'.mp needs
  unfold streamFetchRequest
  dsimp only
  rw [up, free, if_neg (by decide), off, if_neg Bool.false_ne_true, waits, next]
  exact if_pos idle

/-- After the last record the next line of its page is predicted. -/
theorem streamFetchRequest_predicts {r : SRec} (on : s.flag (tileB t) TILE_SF_CTRL_ENABLE = true) (few : (s.tile t).outstanding < s.rd (tileB t) TILE_SF_CTRL_DEPTH)
    (none : (s.tile t).nextRequest = none) (last : (s.tile t).recs.getLast? = some r) (spec : s.flag (tileB t) TILE_SF_CTRL_SPEC = true) {a : Nat}
    (after : a = r.haddr + 64 * (r.lineCount - 1) + 64 * ((s.tile t).preds.length + 1)) (page : a / 4096 = (r.haddr + 64 * (r.lineCount - 1)) / 4096) :
    streamFetchRequest t s = s.sendLine t r.ring a (.pred a) (fun x => { x with preds := x.preds ++ [⟨a, .none, false⟩] }) := by
  unfold streamFetchRequest
  dsimp only
  rw [up, free, if_neg (by decide), on, if_pos rfl, if_neg (Nat.not_le.mpr few), none]
  dsimp only
  rw [last]
  dsimp only
  rw [spec, if_neg (by decide), ← after, if_pos page]

end

/-! ### Answers (R232, R234, R375) -/

/-- The request of a tag ends, and its line holds `d`, or is unreadable where there is none. -/
def Tile.lineAnswered (x : Tile) (tag st i : Nat) (d : Option Cell64) : Tile :=
  { x with reqs := x.reqs.eraseP (fun q => decide (q.tag = tag)), lines := x.lines.map (fun l => if l.stream = st ∧ l.idx = i then { l with data := some d } else l) }

/-- The request of a tag ends, and the prediction of address `a` has failed. -/
def Tile.predictionLost (x : Tile) (tag a : Nat) : Tile :=
  { x with reqs := x.reqs.eraseP (fun q => decide (q.tag = tag)), preds := x.preds.map (fun p => if p.addr = a then { p with lost := true } else p) }

section
variable {t tag : Nat} {s : State} {q : SRead} (holds : (s.tile t).reqOf tag = some q)
include holds

/-- The line of a record takes what its answer brings. -/
theorem streamLineReturn_line {st i : Nat} (line : q.what = .line st i) (data : Option Cell64) :
    streamLineReturn t tag data s = s.setTile t ((s.tile t).lineAnswered tag st i (cleanLine data)) := by
  obtain ⟨n, f, what⟩ := q
  cases line
  unfold streamLineReturn
  dsimp only
  rw [holds]
  rfl

/-- A prediction without data is discarded, and counted as UNUSED (R234). -/
theorem streamLineReturn_failed {a : Nat} (pred : q.what = .pred a) :
    streamLineReturn t tag none s = (s.setTile t ((s.tile t).predictionLost tag a)).countT t (TILE_PFS_COUNT.at 0x18) 1 := by
  obtain ⟨n, f, what⟩ := q
  cases pred
  unfold streamLineReturn
  dsimp only
  rw [holds]
  rfl

end

/-- The line that a clean cell leaves, and that one with a poisoned unit leaves unreadable (R234). -/
theorem cleanLine_some (c : Cell64) : cleanLine (some c) = if c.lo.isSome ∧ c.hi.isSome then some c else none := by
  unfold cleanLine
  dsimp only
  simp only [Bool.and_eq_true]

/-- A completion error sets its flag and is reported for the function (R375). -/
theorem hostErr_eq (s : State) (f : Nat) {status : Nat} (low : 1 ≤ status) (high : status ≤ 3) :
    s.hostErr f status = (s.raise hostB HOST_ERR_FLAGS_CPL_ERR).emit hostSrc 0x0106 [f, status] := if_pos ⟨low, high⟩

theorem hostErr_host (s : State) (f status : Nat) : (s.hostErr f status).host = s.host := by
  unfold State.hostErr
  split <;> rfl

theorem streamLineReturn_host (t tag : Nat) (data : Option Cell64) (s : State) : (streamLineReturn t tag data s).host = s.host := by
  have counted (u : State) : (u.countT t (TILE_PFS_COUNT.at 0x18) 1).host = u.host := by rw [(countT_counted u t _ 1).rest]
  unfold streamLineReturn
  dsimp only
  split
  · rfl
  · exact counted _
  · split
    · rfl
    · exact counted _
  · rfl

section
variable {t : TileId} {s : State} {tag status : Nat} {q : SRead} {data : Cell64} (holds : (s.tile t.toNat).reqOf tag = some q) (idle : s.host.waiting = [])
include holds idle

/-- An answer of a line of a record: a completion error is recorded, and nothing waits to be sent (R374, R375). -/
theorem execStreamLineReturn_line {st i : Nat} (line : q.what = .line st i) :
    exec (.streamLineReturn t ⟨tag, status⟩ data) s = .next (streamLineReturn t.toNat tag (if status = 0 then some data else none) (s.hostErr q.fn status)) := by
  have sent (u : State) (same : u.host = s.host) : u.sendWaiting u.host.waiting.length = u := by rw [same, idle]; rfl
  obtain ⟨n, f, what⟩ := q
  cases line
  refine Eq.trans ?_ (congrArg Host.Outcome.next (sent _ ((streamLineReturn_host ..).trans (hostErr_host ..))))
  show execStreamLineReturn t ⟨tag, status⟩ data s = _
  unfold execStreamLineReturn
  dsimp only
  rw [holds]

/-- An answer of a prediction records nothing (R234). -/
theorem execStreamLineReturn_pred {a : Nat} (pred : q.what = .pred a) :
    exec (.streamLineReturn t ⟨tag, status⟩ data) s = .next (streamLineReturn t.toNat tag (if status = 0 then some data else none) s) := by
  have sent (u : State) (same : u.host = s.host) : u.sendWaiting u.host.waiting.length = u := by rw [same, idle]; rfl
  obtain ⟨n, f, what⟩ := q
  cases pred
  refine Eq.trans ?_ (congrArg Host.Outcome.next (sent _ (streamLineReturn_host ..)))
  show execStreamLineReturn t ⟨tag, status⟩ data s = _
  unfold execStreamLineReturn
  dsimp only
  rw [holds]

end

/-- Settles O27: the oldest record takes its slot and its predicted lines (`streamRecord_takes`, `takePredictions_linesJoin`), a request that may be sent leaves the card (`sendLine_eq`, `lineAsked_counted`), and an answer ends its request (`execStreamLineReturn_line`, `execStreamLineReturn_pred`). -/
theorem streamRecordsAndLines : Obligations.StreamRecordsAndLines := by
  unfold Obligations.StreamRecordsAndLines
  refine ⟨fun t s q oldest up room => ?record, fun t s r i up free live first may carried next => ⟨fun on few => ?request, fun off needs idle => ?needed⟩,
    fun t s r up free live first may carried none last on spec few page => ?predict, fun t s tag q data holds idle => ⟨fun st i line => ⟨?line, fun status low high => ?error⟩,
      fun a status pred failed => ?failed⟩⟩
  case record =>
    have step := streamRecord_takes oldest up room
    have joined := Tile.takePredictions_linesJoin ((s.tile t.toNat).received q.2) ((s.tile t.toNat).numbered q.2)
    have unpredicted (none : (s.tile t.toNat).preds = []) := Tile.takePredictions_none (x := (s.tile t.toNat).received q.2) none ((s.tile t.toNat).numbered q.2)
    dsimp only at step
    generalize Tile.takePredictions _ _ = taken at *
    obtain ⟨rest, others, tile, -⟩ := step
    obtain ⟨same, lines⟩ := joined
    refine ⟨streamRecord t.toNat s, rfl, rest, others, ?_⟩
    dsimp only
    rw [tile]
    refine ⟨congrArg Tile.recs same, congrArg Tile.serial same, congrArg Tile.preds same, lines, same.trans (by rw [same]; rfl), fun none => ?_⟩
    rw [unpredicted none]
    exact ⟨rfl, rfl⟩
  case request =>
    have sent := (streamFetchRequest_next up free on few next).trans (sendLine_eq live first may carried ..)
    rw [on, if_pos rfl] at sent
    obtain ⟨⟨rest, others, tile⟩, counted, words⟩ := lineAsked_counted s t.toNat r.ring (r.haddr + 64 * i) (.line r.serial i) (fun x => { x with lines := x.lines ++ [⟨r.serial, i, none, false⟩] })
    exact ⟨_, congrArg Host.Outcome.next sent, rest, others, tile, counted, words⟩
  case needed =>
    have sent := (streamFetchRequest_needed up free off needs idle next).trans (sendLine_eq live first may carried ..)
    rw [off, if_neg Bool.false_ne_true] at sent
    exact ⟨_, congrArg Host.Outcome.next sent, rfl, fun k hk => look_put_ne _ _ _ _ _ hk, look_put_same ..⟩
  case predict =>
    have sent := (streamFetchRequest_predicts up free on few none last spec rfl page).trans (sendLine_eq live first may carried ..)
    rw [on, if_pos rfl] at sent
    obtain ⟨asked, -⟩ := lineAsked_counted s t.toNat r.ring _ (.pred _) (fun x => { x with preds := x.preds ++ [⟨_, .none, false⟩] })
    exact ⟨_, congrArg Host.Outcome.next sent, asked⟩
  case line =>
    refine ⟨_, (execStreamLineReturn_line holds idle line).trans (congrArg Host.Outcome.next (streamLineReturn_line holds line _)), rfl, fun k hk => State.setTile_tile_ne _ _ _ _ hk, ?_⟩
    rw [if_pos rfl, cleanLine_some, State.setTile_tile]
    rfl
  case error =>
    have answered := execStreamLineReturn_line (status := status) (data := data) holds idle line
    rw [hostErr_eq s q.fn low high, if_neg (by omega), streamLineReturn_line (s := (s.raise hostB HOST_ERR_FLAGS_CPL_ERR).emit hostSrc 0x0106 [q.fn, status]) holds line] at answered
    exact ⟨_, answered, rfl, fun k hk => State.setTile_tile_ne _ _ _ _ hk, wr_flag_same s hostB HOST_ERR_FLAGS_CPL_ERR 1 (by decide), wr_wordsBut s hostB HOST_ERR_FLAGS_CPL_ERR 1,
      State.setTile_tile ..⟩
  case failed =>
    have answered := execStreamLineReturn_pred (status := status) (data := data) holds idle pred
    rw [if_neg failed, streamLineReturn_failed holds pred] at answered
    have counted := countT_counted (s.setTile t.toNat ((s.tile t.toNat).predictionLost tag a)) t.toNat (TILE_PFS_COUNT.at 0x18) 1
    obtain ⟨rest, others, own⟩ := counted.of_setTile
    exact ⟨_, answered, rest, others, countT_reports _ _ _ _, own, counted.rd (by decide), counted.words⟩

end Sys2Proof.Machine
end

section
/-! The Tadpole's split: what a bundle puts into the queues, the lines and records that it has done with, and operations that a count of 0 skips (R232, R235, R239-R241, R247). -/

namespace Sys2Proof.Machine

theorem Tile.eng_setEngine_ne (x : Tile) {e k : Nat} (g : Engine) (other : k ≠ e) : (x.setEngine e g).eng k = x.eng k := look_put_ne _ _ _ _ _ other

/-! ### Lines that have been read (R232, R235) -/

/-- The line lies before the Tadpole's position in the record, or the record is done with. -/
def Tile.hasRead (x : Tile) (r : SRec) (l : SLine) : Bool := decide (l.stream = r.serial) && (decide (r.len ≤ x.pos) || decide (l.idx < x.pos / 64))

/-- A tile whose current record is `r`, once the lines that it has read are free and the record is split where its end is reached. -/
def Tile.freed (x : Tile) (r : SRec) : Tile :=
  { x with
    lines := x.lines.filter (fun l => !x.hasRead r l)
    pos := if r.len ≤ x.pos then 0 else x.pos
    recs := if r.len ≤ x.pos then x.recs.map (fun q => if q.serial = r.serial then { q with split := true } else q) else x.recs }

/-- The words that freeing lines may change: USEFUL, and the pending fields of the stream fetcher. -/
def freeWords (t : Nat) : List Nat := [tileB t + (TILE_PFS_COUNT.at 8).off, tileB t + TILE_SF_CTRL_ENABLE.off]

/-- Lines read before they were late. -/
def Tile.usefulLines (x : Tile) (r : SRec) : Nat := (x.lines.filter (fun l => x.hasRead r l && !l.late)).length

/-- Lines are counted while prefetching is on (R224). -/
def State.countLines (s : State) (t : Nat) (f : Fld) (n : Nat) : State := if n ≠ 0 ∧ s.flag (tileB t) TILE_SF_CTRL_ENABLE then s.countT t f n else s

theorem StreamStep.countLines {t : Nat} {x : Tile} {l : List Nat} {s u : State} (h : StreamStep t x l s u) (f : Fld) (n : Nat) (listed : tileB t + f.off ∈ l) :
    StreamStep t x l s (u.countLines t f n) := by
  unfold State.countLines
  split
  · exact h.countT f n listed
  · exact h

theorem freeLines_eq {s : State} {t : Nat} {r : SRec} (current : (s.tile t).current = some r) :
    s.freeLines t =
      let u := (s.setTile t ((s.tile t).freed r)).countLines t (TILE_PFS_COUNT.at 8) ((s.tile t).usefulLines r)
      if decide (r.len ≤ (s.tile t).pos) && (u.tile t).current.isSome then u.startRecord t else u := by
  have read (x : Tile) : (if decide (r.len ≤ (s.tile t).pos) then { x with pos := 0, recs := x.recs.map (fun q => if q.serial = r.serial then { q with split := true } else q) } else x) =
      { x with
        pos := if r.len ≤ (s.tile t).pos then 0 else x.pos
        recs := if r.len ≤ (s.tile t).pos then x.recs.map (fun q => if q.serial = r.serial then { q with split := true } else q) else x.recs } := by
    by_cases done : r.len ≤ (s.tile t).pos
    · simp only [done, decide_true, if_true]
    · simp only [done, decide_false, if_false, Bool.false_eq_true]
  have freed := read { s.tile t with lines := (s.tile t).lines.filter (fun l => !(s.tile t).hasRead r l) }
  unfold State.freeLines
  dsimp only
  rw [current]
  exact congrArg (fun y : Tile =>
    let u := (s.setTile t y).countLines t (TILE_PFS_COUNT.at 8) ((s.tile t).usefulLines r)
    if decide (r.len ≤ (s.tile t).pos) && (u.tile t).current.isSome then u.startRecord t else u) freed

/-- The lines before the Tadpole's position become free, and the record is split where its end is reached. -/
theorem freeLines_frees {s : State} {t : Nat} {r : SRec} (current : (s.tile t).current = some r) : StreamStep t ((s.tile t).freed r) (freeWords t) s (s.freeLines t) := by
  have start := (StreamStep.refl (s := s) (freeWords t) (t := t) rfl).setTile ((s.tile t).freed r)
  have counted := start.countLines (TILE_PFS_COUNT.at 8) ((s.tile t).usefulLines r) (List.mem_cons_self ..)
  rw [freeLines_eq current]
  dsimp only
  split
  · exact counted.startRecord (List.mem_cons_of_mem _ (List.mem_singleton_self _))
  · exact counted

/-! ### Skipped operations (R247) -/

/-- An engine with nothing to skip settles nothing. -/
theorem settleSkip_idle {s : State} {t e : Nat} (idle : (s.engine t e).skip = 0) (l : List Nat) : StreamStep t (s.tile t) l s (s.settleSkip t e) := by
  unfold State.settleSkip
  dsimp only
  split
  · exact .refl l rfl
  · rw [show ((s.tile t).eng e).skip = 0 from idle]
    exact (StreamStep.refl l rfl).setTile (s.tile t)

/-! ### What a bundle puts into the queues (R239, R240) -/

/-- The entries of a bundle for engine `e`: its barrier token, and then its operation. -/
def bundleEntries (id serial off mask : Nat) (barrier : Bool) (ops : List (Nat × OpWord)) (e : Nat) : List QEntry :=
  (if barrier && bit mask e then [.token id mask serial off] else []) ++
    (match ops.find? (fun o => decide (o.1 = e)) with | some o => [.op o.2 serial off false] | none => [])

/-- Engine `e` takes its entries of a bundle. -/
def Tile.pushTo (x : Tile) (id serial off mask : Nat) (barrier : Bool) (ops : List (Nat × OpWord)) (e : Nat) : Tile :=
  let g := x.eng e
  let g := if barrier && bit mask e then { g with queue := g.queue ++ [.token id mask serial off] } else g
  match ops.find? (fun o => decide (o.1 = e)) with
  | some (_, w) =>
    let x := x.setEngine e { g with queue := g.queue ++ [.op w serial off false] }
    if isCall w then { x with inUse := put noCount x.inUse (callPage w) (look noCount x.inUse (callPage w) + 1) } else x
  | none => x.setEngine e g

theorem Tile.pushBundle_eq (x : Tile) (serial off mask : Nat) (barrier : Bool) (ops : List (Nat × OpWord)) :
    x.pushBundle serial off mask barrier ops =
      upto 4 (fun e y => y.pushTo (x.tokens + 1) serial off mask barrier ops e) (if barrier then { x with tokens := x.tokens + 1 } else x) := rfl

section
variable (id serial off mask : Nat) (barrier : Bool) (ops : List (Nat × OpWord))

theorem Tile.pushTo_steered (x : Tile) (e : Nat) :
    x.Steered (x.pushTo id serial off mask barrier ops e) ∧
      (x.pushTo id serial off mask barrier ops e).eng e = { x.eng e with queue := (x.eng e).queue ++ bundleEntries id serial off mask barrier ops e } ∧
      ∀ k, k ≠ e → (x.pushTo id serial off mask barrier ops e).eng k = x.eng k := by
  have queued : (if barrier && bit mask e then { x.eng e with queue := (x.eng e).queue ++ [.token id mask serial off] } else x.eng e) =
      { x.eng e with queue := (x.eng e).queue ++ (if barrier && bit mask e then [.token id mask serial off] else []) } := by
    split
    · rfl
    · rw [List.append_nil]
  unfold Tile.pushTo bundleEntries
  dsimp only
  rw [queued]
  cases ops.find? (fun o => decide (o.1 = e)) with
  | none => exact ⟨.setEngine x e _, (Tile.eng_setEngine ..).trans (by rw [List.append_nil]), fun k other => Tile.eng_setEngine_ne x _ other⟩
  | some o =>
    dsimp only
    have taken (y : Tile) (same : y.engs = (x.setEngine e { x.eng e with queue := (x.eng e).queue ++ (if barrier && bit mask e then [.token id mask serial off] else []) ++ [.op o.2 serial off false] }).engs) (k : Nat) :
        y.eng k = if k = e then { x.eng e with queue := (x.eng e).queue ++ ((if barrier && bit mask e then [.token id mask serial off] else []) ++ [.op o.2 serial off false]) } else x.eng k := by
      unfold Tile.eng
      rw [same, ← List.append_assoc]
      exact look_put ..
    split
    · exact ⟨(Tile.Steered.setEngine x e _).trans rfl, (taken _ rfl e).trans (if_pos rfl), fun k other => (taken _ rfl k).trans (if_neg other)⟩
    · exact ⟨.setEngine x e _, (taken _ rfl e).trans (if_pos rfl), fun k other => (taken _ rfl k).trans (if_neg other)⟩

/-- The engines below `n` take their entries, in order. -/
theorem Tile.pushTo_upto (x : Tile) (n : Nat) :
    let y := upto n (fun e z => z.pushTo id serial off mask barrier ops e) x
    x.Steered y ∧ ∀ k, y.eng k = if k < n then { x.eng k with queue := (x.eng k).queue ++ bundleEntries id serial off mask barrier ops k } else x.eng k := by
  induction n with
  | zero => exact ⟨.refl x, fun k => (if_neg (Nat.not_lt_zero k)).symm⟩
  | succ n ih =>
    obtain ⟨steered, before⟩ := ih
    dsimp only at steered before ⊢
    rw [upto_succ]
    generalize upto n _ x = z at *
    obtain ⟨step, own, others⟩ := z.pushTo_steered id serial off mask barrier ops n
    refine ⟨steered.trans step, fun k => ?_⟩
    rcases Nat.lt_trichotomy k n with low | rfl | high
    · rw [others k (by omega), before k, if_pos low, if_pos (by omega)]
    · rw [own, before k, if_neg (Nat.lt_irrefl k), if_pos (Nat.lt_succ_self k)]
    · rw [others k (by omega), before k, if_neg (by omega), if_neg (by omega)]

end

/-! ### BUNDLE_SPLIT (R239) -/

/-- A whole bundle with room in every queue is split. -/
theorem bundleSplit_splits {t : Nat} {s : State} {r : SRec} {mask fin : Nat} {barrier : Bool} {ops : List (Nat × OpWord)} (current : (s.tile t).current = some r) (may : s.maySplit t = true)
    (whole : (s.tile t).parse r = .bundle mask barrier ops fin) (room : ∀ e < 4, ((s.tile t).eng e).queue.length + entriesFor mask barrier ops e ≤ 512) :
    bundleSplit t s =
      let y := (s.tile t).pushBundle r.serial (s.tile t).pos mask barrier ops
      upto 4 (fun e (a : State) => a.settleSkip t e) (((s.setTile t { y with pos := fin, dldDone := false }).countT t TILE_BUNDLES_COUNT 1).freeLines t) := by
  have fits : (List.range 4).any (fun e => decide (512 < ((s.tile t).eng e).queue.length + entriesFor mask barrier ops e)) = false := by
    rw [List.any_eq_false]
    exact fun e small => by simpa using room e (List.mem_range.mp small)
  unfold bundleSplit
  dsimp only
  rw [current]
  dsimp only
  rw [may, Bool.not_true, if_neg Bool.false_ne_true, whole]
  dsimp only
  rw [fits, if_neg Bool.false_ne_true]
  rfl

/-- A barrier takes the next number. -/
theorem Tile.tokens_counted (x : Tile) (barrier : Bool) : (if barrier then { x with tokens := x.tokens + 1 } else x) = { x with tokens := if barrier then x.tokens + 1 else x.tokens } := by
  cases barrier <;> rfl

/-- What a bundle leaves of its tile: entries in the queues, the in-use counts, and the number of barriers. -/
theorem Tile.pushBundle_pushes (x : Tile) (serial off mask : Nat) (barrier : Bool) (ops : List (Nat × OpWord)) :
    let y := x.pushBundle serial off mask barrier ops
    y = { x with tokens := if barrier then x.tokens + 1 else x.tokens, engs := y.engs, inUse := y.inUse } ∧
      ∀ e < 4, y.eng e = { x.eng e with queue := (x.eng e).queue ++ bundleEntries (x.tokens + 1) serial off mask barrier ops e } := by
  obtain ⟨steered, entries⟩ := Tile.pushTo_upto (x.tokens + 1) serial off mask barrier ops { x with tokens := if barrier then x.tokens + 1 else x.tokens } 4
  dsimp only
  rw [Tile.pushBundle_eq, Tile.tokens_counted]
  exact ⟨steered, fun e small => (entries e).trans (if_pos small)⟩

/-- A split bundle: the lines read are free, the bundle is counted, and engines with nothing to skip settle nothing. -/
theorem bundleSplit_step {s : State} {t : Nat} {r : SRec} {z : Tile} (current : z.current = some r) (idle : ∀ e < 4, (z.eng e).skip = 0) :
    let u := upto 4 (fun e (a : State) => a.settleSkip t e) (((s.setTile t z).countT t TILE_BUNDLES_COUNT 1).freeLines t)
    StreamStep t (z.freed r) ((tileB t + TILE_BUNDLES_COUNT.off) :: freeWords t) s u ∧ Counted s u (tileB t) TILE_BUNDLES_COUNT 1 := by
  intro u
  have counted := ((StreamStep.refl (s := s) [tileB t + TILE_BUNDLES_COUNT.off] (t := t) rfl).setTile z).countT TILE_BUNDLES_COUNT 1 (List.mem_singleton_self _)
  have counts : Counted s ((s.setTile t z).countT t TILE_BUNDLES_COUNT 1) (tileB t) TILE_BUNDLES_COUNT 1 := countT_counts (s.setTile t z) t 1 (by decide)
  generalize hv : (s.setTile t z).countT t TILE_BUNDLES_COUNT 1 = v at *
  have own := counted.tile
  have freed : StreamStep t (z.freed r) (freeWords t) v u := by
    have first : StreamStep t (z.freed r) (freeWords t) v (v.freeLines t) := own ▸ freeLines_frees (own ▸ current)
    show StreamStep t (z.freed r) (freeWords t) v (upto 4 (fun e (a : State) => a.settleSkip t e) ((s.setTile t z).countT t TILE_BUNDLES_COUNT 1 |>.freeLines t))
    rw [hv]
    refine upto_keeps_lt (StreamStep t (z.freed r) (freeWords t) v) 4 _ _ first fun e small a h => ?_
    have skip : (a.engine t e).skip = 0 := by rw [State.engine, h.tile]; exact idle e small
    have settled := settleSkip_idle skip (freeWords t)
    rw [h.tile] at settled
    exact h.trans settled
  refine ⟨(counted.mono (List.cons_subset_cons _ (List.nil_subset _))).trans (freed.mono (List.subset_cons_self _ _)), ?_⟩
  have apart : tileB t + TILE_BUNDLES_COUNT.off ∉ freeWords t := by simp [freeWords, TILE_BUNDLES_COUNT, TILE_PFS_COUNT, TILE_SF_CTRL_ENABLE, Fld.at]
  exact (freed.words.rd apart).trans counts

/-- Settles O28: the bundle's entries join the queues (`pushBundle_pushes`), and the lines and the record that it ends are done with (`bundleSplit_step`). -/
theorem bundleSplitFillsQueues : Obligations.BundleSplitFillsQueues := by
  unfold Obligations.BundleSplitFillsQueues
  dsimp only
  intro t s r mask fin barrier ops current may whole room idle
  have fits (e : Nat) (small : e < 4) : ((s.tile t.toNat).eng e).queue.length + entriesFor mask barrier ops e ≤ 512 := by
    rw [entriesFor, ← Nat.add_assoc]
    exact room e small
  have splits := bundleSplit_splits current may whole fits
  obtain ⟨pushed, entries⟩ := (s.tile t.toNat).pushBundle_pushes r.serial (s.tile t.toNat).pos mask barrier ops
  dsimp only at splits
  generalize (s.tile t.toNat).pushBundle r.serial (s.tile t.toNat).pos mask barrier ops = p at *
  have recs : p.recs = (s.tile t.toNat).recs := by rw [pushed]
  have still (e : Nat) (small : e < 4) : (p.eng e).skip = 0 := by
    rw [entries e small]
    exact idle e small
  have stands : ({ p with pos := fin, dldDone := false } : Tile).current = some r := by
    unfold Tile.current
    rw [recs]
    exact current
  obtain ⟨⟨rest, others, tile, -⟩, counted⟩ := bundleSplit_step (s := s) (t := t.toNat) stands still
  refine ⟨_, congrArg Host.Outcome.next splits, ?_⟩
  dsimp only
  rw [tile]
  refine ⟨rest, others, fun e small => (entries e small).trans ?_, rfl, ?_, ?_, ?_, counted, ?_⟩
  · exact congrArg (fun q => ({ (s.tile t.toNat).eng e with queue := q } : Engine)) (List.append_assoc ..).symm
  · rw [pushed]; rfl
  · rw [← recs]; rfl
  · rw [pushed]; rfl
  · rw [pushed]; rfl

end Sys2Proof.Machine
end

section
/-! Instruction-memory loads, queue barriers and the end of a stream (R230, R235, R255-R257). -/

namespace Sys2Proof.Machine

/-! ### Instruction memory (R255) -/

/-- The words of a payload stand in order from word `a` on, and no other word is written. -/
theorem Tile.storeWords_stores (n : Nat) : ∀ (x : Tile) (a v : Nat),
    let y := x.storeWords a n v
    y = { x with imem := y.imem, imemBad := y.imemBad } ∧
      (∀ j < n, look zeroWord y.imem (a + j) = BitVec.ofNat 64 (v / 2 ^ (64 * j)) ∧ look noMark y.imemBad (a + j) = false) ∧
      ∀ w, w < a ∨ a + n ≤ w → look zeroWord y.imem w = look zeroWord x.imem w ∧ look noMark y.imemBad w = look noMark x.imemBad w := by
  induction n with
  | zero => exact fun x a v => ⟨rfl, fun j none => absurd none (Nat.not_lt_zero j), fun _ _ => ⟨rfl, rfl⟩⟩
  | succ n ih =>
    intro x a v
    obtain ⟨rest, stored, kept⟩ := ih { x with imem := put zeroWord x.imem a (BitVec.ofNat 64 v), imemBad := put noMark x.imemBad a false } (a + 1) (v / 2 ^ 64)
    refine ⟨rest, fun j small => ?_, fun w outside => ?_⟩
    · rcases j with _ | j
      · obtain ⟨word, bad⟩ := kept a (.inl (Nat.lt_succ_self a))
        rw [Nat.mul_zero, Nat.pow_zero, Nat.div_one]
        exact ⟨word.trans (look_put_same ..), bad.trans (look_put_same noMark x.imemBad a false)⟩
      · obtain ⟨word, bad⟩ := stored j (Nat.lt_of_succ_lt_succ small)
        have place : a + 1 + j = a + (j + 1) := by omega
        have part : v / 2 ^ 64 / 2 ^ (64 * j) = v / 2 ^ (64 * (j + 1)) := by rw [Nat.div_div_eq_div_mul, ← Nat.pow_add, Nat.add_comm 64, Nat.mul_succ]
        rw [place] at word bad
        exact ⟨word.trans (by rw [part]), bad⟩
    · obtain ⟨word, bad⟩ := kept w (by omega)
      have other : w ≠ a := by omega
      exact ⟨word.trans (look_put_ne _ _ _ _ _ other), bad.trans (look_put_ne noMark x.imemBad a w false other)⟩

/-- A load whose page is free and whose payload is there copies it. -/
theorem imldCopy_copies {t : Nat} {s : State} {l : Load} {r : SRec} {v : Nat} (load : (s.tile t).load = some l) (current : (s.tile t).current = some r) (up : s.tileUp t = true)
    (well : s.faulted t = false) (runs : (s.tile t).halted = false) (free : look noCount (s.tile t).inUse l.page = 0)
    (payload : (s.tile t).readWords r.serial l.fromPos (16 * (l.lines + 1)) = .inr v) :
    imldCopy t s = (s.setTile t { (s.tile t).storeWords (l.page * 512 + l.first * 8) (8 * (l.lines + 1)) v with
      load := none, pos := l.fromPos + 64 * (l.lines + 1), dldDone := false }).freeLines t := by
  unfold imldCopy
  dsimp only
  rw [load, current]
  dsimp only
  rw [up, well, runs, free, if_neg (by decide), payload]

/-! ### Barriers (R257) -/

theorem Counted.trans {s u v : State} {b : Nat} {f : Fld} {n m : Nat} (h : Counted s u b f n) (g : Counted u v b f m) : Counted s v b f (n + m) := by
  unfold Counted at *
  rw [g, h, Nat.mod_add_mod, Nat.add_assoc]

/-- An engine leaves a barrier: it takes its token off, as an acquire. -/
def State.leaveBarrier (s : State) (t mask e : Nat) : State :=
  if bit mask e then
    ((s.setEngine t e { s.engine t e with queue := (s.engine t e).queue.drop 1 }).modTile t (fun x => { x with dldDone := false })).acquire t
  else s

/-- What a tile is once its engines below `n` have left a barrier. -/
structure BarrierLeft (t mask n : Nat) (s u : State) : Prop where
  rest    : u = { s with regs := u.regs, tiles := u.tiles, reports := u.reports }
  others  : OtherTiles s u t
  engines : ∀ e, (u.tile t).eng e = if e < n ∧ bit mask e = true then { (s.tile t).eng e with queue := ((s.tile t).eng e).queue.drop 1 } else (s.tile t).eng e
  emptied : ∀ e < n, bit mask e = true → (u.tile t).rc = [] ∧ (u.tile t).pf = []
  tile    : u.tile t = { s.tile t with engs := (u.tile t).engs, rc := (u.tile t).rc, rcKeep := (u.tile t).rcKeep, pf := (u.tile t).pf, pfFlight := (u.tile t).pfFlight, dldDone := (u.tile t).dldDone }
  counted : Counted s u (tileB t) TILE_ACQUIRES_COUNT ((List.range n).filter (bit mask)).length

/-- Of two changes of a tile the second stands. -/
theorem State.setTile_setTile (s : State) (t : Nat) (x y : Tile) : (s.setTile t x).setTile t y = s.setTile t y :=
  congrArg (fun m => ({ s with tiles := m } : State)) (put_put _ s.tiles t x y)

/-- A tile whose engine `e` has taken its token off. -/
def Tile.tokenOff (x : Tile) (e : Nat) : Tile := { x.setEngine e { x.eng e with queue := (x.eng e).queue.drop 1 } with dldDone := false }

theorem leaveBarrier_named (s : State) (t : Nat) {mask e : Nat} (named : bit mask e = true) :
    let u := s.leaveBarrier t mask e
    TileStep t ((s.tile t).tokenOff e).emptied (acquireWords t) s u ∧ Counted s u (tileB t) TILE_ACQUIRES_COUNT 1 := by
  have leaves : s.leaveBarrier t mask e = (s.setTile t ((s.tile t).tokenOff e)).acquire t := by
    unfold State.leaveBarrier State.setEngine State.modTile
    rw [if_pos named, State.setTile_tile, State.setTile_setTile]
    rfl
  obtain ⟨⟨rest, others, tile, words, reports⟩, counted, -⟩ := acquire_acquires (s.setTile t ((s.tile t).tokenOff e)) t
  dsimp only
  rw [leaves]
  refine ⟨⟨rest, fun k hk => (others k hk).trans (State.setTile_tile_ne _ _ _ _ hk), ?_, words, reports⟩, counted⟩
  rw [tile, State.setTile_tile]

theorem upto_leaveBarrier (s : State) (t mask n : Nat) : BarrierLeft t mask n s (upto n (fun e (a : State) => a.leaveBarrier t mask e) s) := by
  induction n with
  | zero => exact ⟨rfl, fun _ _ => rfl, fun e => (if_neg fun below => Nat.not_lt_zero e below.1).symm, fun e below => absurd below (Nat.not_lt_zero e), rfl, .zero rfl⟩
  | succ n ih =>
    rw [upto_succ]
    generalize upto n _ s = u at *
    obtain ⟨rest, others, engines, emptied, tile, counted⟩ := ih
    have length : ((List.range (n + 1)).filter (bit mask)).length = ((List.range n).filter (bit mask)).length + if bit mask n then 1 else 0 := by
      rw [List.range_succ, List.filter_append, List.length_append, List.filter_cons]
      split <;> rfl
    by_cases named : bit mask n = true
    · obtain ⟨step, counts⟩ := leaveBarrier_named u t named
      obtain ⟨after, untouched, left, -, -⟩ := step
      generalize u.leaveBarrier t mask n = v at *
      refine ⟨after.trans (by rw [rest]), fun k hk => (untouched k hk).trans (others k hk), fun e => ?_, fun _ _ _ => by rw [left]; exact ⟨rfl, rfl⟩, ?_, ?_⟩
      · rw [left]
        show ((u.tile t).setEngine n _).eng e = _
        rcases Nat.lt_trichotomy e n with low | rfl | high
        · rw [Tile.eng_setEngine_ne _ _ (by omega), engines]
          exact if_congr (and_congr_left' ⟨fun _ => by omega, fun _ => low⟩) rfl rfl
        · rw [Tile.eng_setEngine, engines, if_neg fun below => Nat.lt_irrefl e below.1, if_pos ⟨Nat.lt_succ_self e, named⟩]
        · rw [Tile.eng_setEngine_ne _ _ (by omega), engines, if_neg (by omega), if_neg (by omega)]
      · rw [left]
        exact (congrArg (fun z : Tile => (z.tokenOff n).emptied) tile).trans rfl
      · rw [length, if_pos named]
        exact counted.trans counts
    · have stays : u.leaveBarrier t mask n = u := if_neg named
      rw [stays]
      have unnamed (e : Nat) (below : e < n + 1) (other : bit mask e = true) : e < n :=
        Nat.lt_of_le_of_ne (Nat.lt_succ_iff.mp below) fun same => named (same ▸ other)
      refine ⟨rest, others, fun e => ?_, fun e below other => emptied e (unnamed e below other) other, tile, ?_⟩
      · rw [engines]
        exact if_congr ⟨fun ⟨below, other⟩ => ⟨by omega, other⟩, fun ⟨below, other⟩ => ⟨unnamed e below other, other⟩⟩ rfl rfl
      · rw [length, if_neg named]
        exact counted

/-! ### The commands (R255-R257, R235) -/

/-- A payload whose page is free goes into the page's lines, and the lines it came from are free. -/
theorem imld_loads {t : Nat} {s : State} {l : Load} {r : SRec} {v : Nat} (load : (s.tile t).load = some l) (current : (s.tile t).current = some r) (up : s.tileUp t = true)
    (well : s.faulted t = false) (runs : (s.tile t).halted = false) (free : look noCount (s.tile t).inUse l.page = 0)
    (payload : (s.tile t).readWords r.serial l.fromPos (16 * (l.lines + 1)) = .inr v) :
    StreamStep t
      (({ (s.tile t).storeWords (l.page * 512 + l.first * 8) (8 * (l.lines + 1)) v with load := none, pos := l.fromPos + 64 * (l.lines + 1), dldDone := false } : Tile).freed r)
      (freeWords t) s (imldCopy t s) := by
  rw [imldCopy_copies load current up well runs free payload]
  obtain ⟨rest, -⟩ := (s.tile t).storeWords_stores (8 * (l.lines + 1)) (l.page * 512 + l.first * 8) v
  have recs := congrArg Tile.recs rest
  generalize (s.tile t).storeWords (l.page * 512 + l.first * 8) (8 * (l.lines + 1)) v = z at *
  have started := (StreamStep.refl (s := s) (freeWords t) (t := t) rfl).setTile { z with load := none, pos := l.fromPos + 64 * (l.lines + 1), dldDone := false }
  have stands : ((s.setTile t { z with load := none, pos := l.fromPos + 64 * (l.lines + 1), dldDone := false }).tile t).current = some r := by
    rw [State.setTile_tile]
    unfold Tile.current
    rw [show ({ z with load := none, pos := l.fromPos + 64 * (l.lines + 1), dldDone := false } : Tile).recs = (s.tile t).recs from recs]
    exact current
  have freed := freeLines_frees stands
  rw [State.setTile_tile] at freed
  exact started.trans freed

/-- A held load that has not been told of is reported once. -/
theorem imldHoldLimit_reports {t : Nat} {s : State} {l : Load} (load : (s.tile t).load = some l) (used : look noCount (s.tile t).inUse l.page ≠ 0) (untold : l.told = false)
    (limit : s.rd (tileB t) TILE_IMEM_CTRL_HOLD_LIMIT ≠ 0) :
    imldHoldLimit t s = (s.setTile t { s.tile t with load := some { l with told := true } }).emit t 0x0321 [l.page, look noCount (s.tile t).inUse l.page] := by
  unfold imldHoldLimit
  dsimp only
  rw [load]
  dsimp only
  rw [if_neg]
  rintro (none | told | off)
  · exact used none
  · exact absurd (untold.symm.trans told) (by decide)
  · exact limit off

/-- Where one mask alone has its barrier met, its engines leave. -/
theorem queueBarrier_leaves {t e0 id mask : Nat} {s : State} (small : e0 < 4) (up : s.tileUp t = true) (well : s.faulted t = false) (runs : (s.tile t).halted = false)
    (stands : (s.engine t e0).atToken = some (id, mask)) (met : s.barrierMet t id mask = true)
    (alone : ∀ e < 4, ∀ i m, (s.engine t e).atToken = some (i, m) → s.barrierMet t i m = true → m = mask) :
    queueBarrier t s = upto 4 (fun e (a : State) => a.leaveBarrier t mask e) s := by
  let ready (e : Nat) : Option Nat :=
    match (s.engine t e).atToken with
    | some (i, m) => if s.barrierMet t i m then some m else none
    | none => none
  have first : (List.range 4).findSome? ready = some mask := by
    cases found : (List.range 4).findSome? ready with
    | none =>
      have unready := List.findSome?_eq_none_iff.mp found e0 (List.mem_range.mpr small)
      simp only [ready, stands, met, if_true, reduceCtorEq] at unready
    | some m =>
      obtain ⟨e, listed, its⟩ := List.exists_of_findSome?_eq_some found
      simp only [ready] at its
      split at its
      next i n token =>
        split at its
        next done =>
          rw [← Option.some.inj its, alone e (List.mem_range.mp listed) i n token done]
        next => cases its
      next => cases its
  unfold queueBarrier
  rw [up, well, runs, if_neg (by decide)]
  show (match (List.range 4).findSome? ready with | none => s | some m => upto 4 (fun e (a : State) => a.leaveBarrier t m e) s) = _
  rw [first]

/-- A stream wholly split with no operation left gives its slot back, and its descriptor completes. -/
theorem streamComplete_completes {t : Nat} {s : State} {r : SRec} {rest : List SRec} (oldest : (s.tile t).recs = r :: rest) (up : s.tileUp t = true) (split : r.split = true)
    (done : (s.tile t).holds r.serial = false) (well : s.faulted t = true → s.rd (tileB t) TILE_FAULT_STREAM_ID ≠ r.ident) :
    streamComplete t s = (s.setTile t { s.tile t with recs := rest }).completeDesc r.ring r.count 0 0 := by
  have unfaulted : (s.faulted t && decide (s.rd (tileB t) TILE_FAULT_STREAM_ID = r.ident)) = false := by
    rw [Bool.and_eq_false_imp]
    exact fun faulted => decide_eq_false (well faulted)
  unfold streamComplete
  dsimp only
  rw [oldest]
  dsimp only
  rw [up, split, done, unfaulted, if_neg (by decide)]

/-- A descriptor completes with status OK: its ring's entry alone changes. -/
theorem completeDesc_ok (s : State) (n c : Nat) :
    let u := s.completeDesc n c 0 0
    u = { s with rings := u.rings } ∧ (∀ m, m ≠ n → u.ring m = s.ring m) ∧
      u.ring n = if (s.ring n).live.any (fun l => decide (l.count = c) && l.done.isNone) then
          { s.ring n with live := (s.ring n).live.map (fun l => if l.count = c then { l with done := some ⟨0, 0, s.tsc⟩ } else l) }
        else s.ring n := by
  unfold State.completeDesc
  dsimp only
  split
  · rw [if_pos rfl]
    exact ⟨rfl, fun m other => State.setRing_ring_ne _ _ _ _ other, State.setRing_ring ..⟩
  · exact ⟨rfl, fun _ _ => rfl, rfl⟩

/-- Settles O29: each command by its own lemma above. -/
theorem instructionMemoryLoads : Obligations.InstructionMemoryLoads := by
  unfold Obligations.InstructionMemoryLoads
  dsimp only
  refine ⟨fun t s l r v load current up well runs free payload => ?_, fun t s l load used untold limit => ?_,
    fun t s e0 id mask small up well runs stands met alone => ?_, fun t s r rest oldest up split done well => ?_⟩
  · obtain ⟨after, others, tile, -⟩ := imld_loads load current up well runs free payload
    obtain ⟨stores, stored, kept⟩ := (s.tile t.toNat).storeWords_stores (8 * (l.lines + 1)) (l.page * 512 + l.first * 8) v
    refine ⟨_, rfl, ?_⟩
    dsimp only
    rw [tile]
    have word (x : Tile) (w : Nat) : x.imemWord (8 * w) = look zeroWord x.imem w := by
      unfold Tile.imemWord
      rw [Nat.mul_div_cancel_left w (by decide)]
    refine ⟨after, others, rfl, fun j below => ?_, fun w outside => ?_, ?_⟩
    · obtain ⟨data, good⟩ := stored j below
      exact ⟨(word ..).trans data, good⟩
    · rw [word, word]
      exact (kept w outside).1
    · rw [stores]
      rfl
  · exact ⟨_, congrArg Host.Outcome.next (imldHoldLimit_reports load used untold limit), rfl, fun k other => State.setTile_tile_ne _ _ _ _ other, State.setTile_tile ..⟩
  · obtain ⟨after, others, engines, emptied, tile, counted⟩ := upto_leaveBarrier s t.toNat mask 4
    refine ⟨_, congrArg Host.Outcome.next (queueBarrier_leaves small up well runs stands met alone), after, others, fun e below => ?_, emptied e0 small, tile, counted⟩
    rw [engines e]
    exact if_congr (and_iff_right below) rfl rfl
  · obtain ⟨after, ringsKept, ring⟩ := completeDesc_ok (s.setTile t.toNat { s.tile t.toNat with recs := rest }) r.ring r.count
    have tiles := congrArg State.tiles after
    refine ⟨_, congrArg Host.Outcome.next (streamComplete_completes oldest up split done well), after.trans (by rw [tiles]; rfl), fun k other => ?_, ?_, ringsKept, ring⟩
    · rw [after]
      exact State.setTile_tile_ne _ _ _ _ other
    · rw [after]
      exact State.setTile_tile ..

end Sys2Proof.Machine
end

section
/-! LOOP, CALL and RET (R247-R254, Table 8-2). -/

namespace Sys2Proof.Machine

/-! ### Operation words -/

theorem onlyBits_cons (v lo a : Nat) (l : List (Nat × Nat)) : onlyBits v ((lo, a) :: l) = onlyBits (setBits v lo a 0) l := by
  unfold onlyBits
  rw [List.foldl_cons]

/-- The fields of a LOOP. -/
theorem onlyBits_loop (op : Nat) : onlyBits op [(0, 8), (8, 2), (10, 1), (12, 4), (16, 12), (32, 32)] = onlyBits op [(0, 11), (12, 16), (32, 32)] :=
  calc
    _ = onlyBits op [(0, 10), (10, 1), (12, 4), (16, 12), (32, 32)] := onlyBits_joined op 0 8 2 _
    _ = onlyBits op [(0, 11), (12, 4), (16, 12), (32, 32)] := onlyBits_joined op 0 10 1 _
    _ = onlyBits (setBits op 0 11 0) [(12, 4), (16, 12), (32, 32)] := onlyBits_cons ..
    _ = onlyBits (setBits op 0 11 0) [(12, 16), (32, 32)] := onlyBits_joined _ 12 4 12 _
    _ = onlyBits op [(0, 11), (12, 16), (32, 32)] := (onlyBits_cons ..).symm

/-! ### Operations that a count of 0 skips (R247) -/

theorem Engine.close_skip (g : Engine) : g.close.1.skip = g.skip := by
  unfold Engine.close
  split
  · rfl
  · split
    · rfl
    · dsimp only
      split <;> rfl

theorem Tile.retireCalls_eng (x : Tile) (pages : List Nat) (k : Nat) : (x.retireCalls pages).eng k = x.eng k :=
  foldl_keeps (fun y : Tile => y.eng k = x.eng k) pages _ x rfl fun _ _ h => h

theorem Tile.consume_skip (x : Tile) (e : Nat) : ((x.consume e).eng e).skip = (x.eng e).skip := by
  unfold Tile.consume
  dsimp only
  split
  · rw [Tile.eng_setEngine]
  · split
    · rw [Tile.eng_setEngine]
    · split
      · split <;> rw [Tile.eng_setEngine]
      · rw [Tile.eng_setEngine]

/-- Taking an operation does not end or begin a CALL. -/
theorem Tile.consume_outside (x : Tile) (e : Nat) (outside : ((x.consume e).eng e).frames = []) : (x.eng e).frames = [] := by
  unfold Tile.consume at outside
  dsimp only at outside
  split at outside
  · rw [Tile.eng_setEngine] at outside
    exact absurd outside (List.cons_ne_nil _ _)
  · assumption

/-- Outside a CALL an engine with an empty queue, and with no operation left in its loop buffer, has nothing next. -/
theorem Tile.next_nothing {x : Tile} {e : Nat} (outside : (x.eng e).frames = []) (buffer : ¬ (!(x.eng e).loops.isEmpty && decide ((x.eng e).ip < (x.eng e).buf.length)) = true)
    (queue : (x.eng e).queue = []) : x.next e = .nothing := by
  have past : (if (x.eng e).loops.isEmpty then none else (x.eng e).buf[(x.eng e).ip]?) = none := by
    split
    · rfl
    · next opened =>
      rw [List.getElem?_eq_none]
      simpa [opened] using buffer
  unfold Tile.next
  dsimp only
  rw [outside]
  dsimp only
  rw [past, queue]

/-- Once an operation outside a CALL is next, its engine has none left to skip. -/
theorem Tile.skipOps_ends {e : Nat} {w : OpWord} {loc : Loc} {y : Tile} (n : Nat) : ∀ x : Tile, x.skipOps n e = (y, none) → (x.eng e).skip ≤ n → (y.eng e).frames = [] →
    y.next e = .op w loc false → (y.eng e).skip = 0 := by
  induction n with
  | zero =>
    intro x skips few _ _
    cases skips
    exact Nat.le_zero.mp few
  | succ n ih =>
    intro x skips few outside next
    have step (g : Engine) (pages : List Nat) (same : g.skip = (x.eng e).skip)
        (skips : ((x.setEngine e (if g.skip - 1 = 0 then ({ g with skip := g.skip - 1 } : Engine).close else ({ g with skip := g.skip - 1 }, [])).1).retireCalls pages).skipOps n e = (y, none)) :
        (y.eng e).skip = 0 := by
      refine ih _ skips ?_ outside next
      have less : (if g.skip - 1 = 0 then ({ g with skip := g.skip - 1 } : Engine).close else ({ g with skip := g.skip - 1 }, [])).1.skip = g.skip - 1 := by
        split
        · exact Engine.close_skip _
        · rfl
      rw [Tile.retireCalls_eng, Tile.eng_setEngine, less]
      omega
    unfold Tile.skipOps at skips
    dsimp only at skips
    split at skips
    · next none =>
      cases skips
      exact none
    · split at skips
      · exact step { x.eng e with ip := (x.eng e).ip + 1 } _ rfl skips
      · next buffer =>
        split at skips
        · next empty =>
          cases skips
          rw [Tile.next_nothing outside buffer empty] at next
          cases next
        · cases skips
        · next w st off bad r queue =>
          split at skips
          · cases skips
          · split at skips
            · exact step { x.eng e with queue := r } _ rfl skips
            · exact step { x.eng e with queue := r, buf := (x.eng e).buf ++ [⟨w, st, off, bad⟩], ip := (x.eng e).ip + 1 } _ rfl skips

/-- An operation that issues outside a CALL leaves its engine none to skip. -/
theorem Issues.skipped {s : State} {t e : Nat} {w : OpWord} {x : Tile} {loc : Loc} (h : Issues s t e w x loc) (outside : ((x.consume e).eng e).frames = []) : ((x.consume e).eng e).skip = 0 := by
  obtain ⟨-, skips, next⟩ := h
  rw [Tile.consume_skip]
  exact Tile.skipOps_ends _ _ skips (Nat.le_refl _) (x.consume_outside e outside) next

/-! ### Settling after a LOOP -/

theorem settleSkip_faulted {s : State} {t : Nat} (e : Nat) (faulted : s.faulted t = true) : s.settleSkip t e = s := if_pos faulted

/-- After an operation of a tile that runs, the operations that its engine is to skip are taken as far as they are there. -/
theorem OneOp.settles {s u : State} {t e : Nat} {y z : Tile} (h : OneOp s u t e y []) (engine : e < 4) (well : s.faulted t = false) (skips : y.skipOps (y.eng e).skip e = (z, none)) :
    OneOp s (u.settleSkip t e) t e z [] := by
  obtain ⟨rest, others, tile, counted, words, reports⟩ := h
  have apart : tileB t + TILE_FAULT_VALID.off ∉ [tileB t + (TILE_OPS_COUNT.at (8 * e)).off] := by
    have count : (TILE_OPS_COUNT.at (8 * e)).off = 0x858 + 8 * e := rfl
    have valid : TILE_FAULT_VALID.off = 0x838 := rfl
    rw [List.mem_singleton]
    omega
  have stays : u.faulted t = false := (words.flag apart).trans well
  have settled : u.settleSkip t e = u.setTile t z := by
    unfold State.settleSkip
    dsimp only
    rw [stays, if_neg Bool.false_ne_true, tile, skips]
  rw [settled]
  exact ⟨by rw [rest]; rfl, fun k hk => (State.setTile_tile_ne _ _ _ _ hk).trans (others k hk), State.setTile_tile _ _ _, counted, words, reports⟩

theorem Ended_skip (y : Tile) (e : Nat) (g : Engine) : ((Ended y e g).eng e).skip = g.skip := by
  have own : (Ended y e g).eng e = g.close.1 := (Tile.retireCalls_eng (y.setEngine e g.close.1) g.close.2 e).trans (Tile.eng_setEngine ..)
  rw [own, Engine.close_skip]

/-- Where a body ends is read in instruction memory alone. -/
theorem Tile.scan_imem {x y : Tile} (same : y.imem = x.imem) (e n : Nat) : ∀ pc, y.scan e n pc = x.scan e n pc := by
  induction n with
  | zero => exact fun _ => rfl
  | succ n ih =>
    intro pc
    have size : y.opSize e pc = x.opSize e pc := by
      unfold Tile.opSize Tile.imemWord
      rw [same]
    rw [Tile.scan, Tile.scan, ih, size]

/-! ### The effect of a LOOP (R247-R250) -/

/-- The count of a LOOP: its immediate, or the low 32 bits of a register. -/
def loopCount (c : OpCtx) (s : State) : Nat := if bit c.op 10 then s.areg c c.s % 2 ^ 32 else bitsOf c.op 32 32

/-- The engine once an outermost LOOP of stream mode opens or skips its body. -/
def Engine.outerLoop (g : Engine) (c : OpCtx) (count : Nat) : Engine :=
  let h : Engine := { g with bodyOf := (c.loc.stream, c.loc.off), buf := [], ip := 0 }
  if count = 0 then { h with skip := bitsOf c.op 16 12 } else { h with loops := [⟨bitsOf c.op 8 2, count, 0, 0, bitsOf c.op 16 12⟩] }

section
variable {c : OpCtx} {s : State} {g : Engine} (own : (s.tile c.t).eng c.e = g)
include own

/-- A counter that is open already is a fault (R248). -/
theorem runLoop_reopens {l : LoopRec} (opened : l ∈ g.loops) (same : l.k = bitsOf c.op 8 2) : runLoop c s = .fault 7 := by
  have any : ((s.tile c.t).eng c.e).loops.any (fun l => decide (l.k = bitsOf c.op 8 2)) = true := by
    rw [own, List.any_eq_true]
    exact ⟨l, opened, decide_eq_true same⟩
  exact if_pos any

section
variable (outside : g.frames = []) (loops : g.loops = [])
include outside loops

/-- A body of stream mode of more than 64 operations is a fault (R249). -/
theorem runLoop_long (long : 64 < bitsOf c.op 16 12) : runLoop c s = .fault 6 := by
  unfold runLoop
  dsimp only
  rw [own, outside, loops]
  dsimp only
  rw [decide_eq_true long]
  rfl

/-- An outermost LOOP of stream mode opens its body, or skips it (R247, R249). -/
theorem runLoop_outermost (short : bitsOf c.op 16 12 ≤ 64) : runLoop c s = .done (s.setEngine c.t c.e (g.outerLoop c (loopCount c s))) := by
  obtain ⟨⟩ := g
  cases outside
  cases loops
  unfold runLoop
  dsimp only
  rw [own]
  dsimp only
  rw [decide_eq_false (Nat.not_lt.mpr short)]
  exact (apply_ite (fun h => Issued.done (s.setEngine c.t c.e h)) (loopCount c s = 0) _ _).symm

end

/-- A LOOP within a CALL opens its body, or goes past it (R250). -/
theorem runLoop_called {f : Frame} {r : List Frame} (frames : g.frames = f :: r) (new : ∀ l ∈ g.loops, l.k ≠ bitsOf c.op 8 2) {fin : Nat}
    (ends : fin = (s.tile c.t).scan c.e (bitsOf c.op 16 12) f.pc) (inPage : fin ≤ (f.page + 1) * 4096) (inBody : ∀ l ∈ g.loops.head?, l.depth = g.frames.length → fin ≤ l.fin) :
    runLoop c s = .done (s.setEngine c.t c.e (if loopCount c s = 0 then { g with frames := { f with pc := fin } :: r }
      else { g with loops := ⟨bitsOf c.op 8 2, loopCount c s, g.frames.length, f.pc, fin⟩ :: g.loops })) := by
  have unopened : ¬ g.loops.any (fun l => decide (l.k = bitsOf c.op 8 2)) = true := by
    rw [List.any_eq_true]
    rintro ⟨l, opened, same⟩
    exact new l opened (of_decide_eq_true same)
  have within : ¬ (decide ((f.page + 1) * 4096 < fin) || (match g.loops with | l :: _ => decide (l.depth = g.frames.length ∧ l.fin < fin) | [] => false)) = true := by
    rw [decide_eq_false (Nat.not_lt.mpr inPage), Bool.false_or]
    cases its : g.loops with
    | nil => exact Bool.false_ne_true
    | cons l _ =>
      rw [decide_eq_true_eq]
      refine fun ⟨depth, less⟩ => Nat.not_lt.mpr (inBody l ?_ depth) less
      rw [its]
      rfl
  unfold runLoop
  dsimp only
  rw [own, if_neg unopened]
  obtain ⟨⟩ := g
  cases frames
  dsimp only at within ⊢
  rw [← ends]
  refine (if_neg within).trans ?_
  exact (apply_ite (fun h => Issued.done (s.setEngine c.t c.e h)) (loopCount c s = 0) _ _).symm

end

/-! ### The commands -/

/-- An operation that issues may: its tile has no fault. -/
theorem Issues.unfaulted {s : State} {t e : Nat} {w : OpWord} {x : Tile} {loc : Loc} (h : Issues s t e w x loc) : s.faulted t = false := by
  obtain ⟨may, -, -⟩ := h
  unfold State.canIssue at may
  simp only [Bool.and_eq_true, Bool.not_eq_true'] at may
  obtain ⟨⟨⟨-, well⟩, -⟩, -⟩ := may
  exact well

/-- A common operation without extension word has its form. -/
theorem needsExt_none (e : Nat) {w : OpWord} {code : Nat} (opcode : w.op.toNat % 256 = code) (common : code ≤ 0x0D) (other : code ≠ 2) (ext : w.ext = none) :
    needsExt e (opcodeOf w) = some w.ext.isSome := by
  rw [opcodeOf, opcode, needsExt_common e common, decide_eq_false other, ext]
  rfl

section
variable {t : TileId} {e : EngId} {w : OpWord} {s : State} {x : Tile} {loc : Loc}

/-- The operation as it is at issue. -/
def OpCtx.at (t : TileId) (e : EngId) (w : OpWord) (loc : Loc) (x : Tile) : OpCtx := ⟨t.toNat, e, w, loc, (x.eng e).slot⟩

/-- An operation that sets its engine ends with that engine. -/
theorem setEngine_ends (s : State) (t : TileId) (e : EngId) (x : Tile) (g : Engine) :
    OneOp s (((s.issued t.toNat e x).setEngine t.toNat e g).afterOp t.toNat e) t.toNat e (Ended (x.consume e) e g) [] := by
  have done := ((Ran.of_issued s t.toNat e x).setEngine g).closes
  rw [Ended_setEngine, Tile.eng_setEngine] at done
  exact done

theorem issued_eng (s : State) (t : TileId) (e : EngId) (x : Tile) : ((s.issued t.toNat e x).tile t.toNat).eng e = (x.consume e).eng e := (Ran.of_issued s t.toNat e x).engine e

section
variable (issues : Issues s t.toNat e w x loc)
include issues

/-! #### LOOP -/

section
variable (opcode : w.op.toNat % 256 = 0x0A) (fields : onlyBits w.op.toNat [(0, 11), (12, 16), (32, 32)] = true) (length : bitsOf w.op.toNat 16 12 ≠ 0) (ext : w.ext = none)
include opcode fields length ext

theorem loop_outcome : exec (.loop t e w) s = .next ((s.outcome t.toNat e x loc (runLoop (.at t e w loc x) (s.issued t.toNat e x))).settleSkip t.toNat e) := by
  have legal : (onlyBits w.op.toNat [(0, 8), (8, 2), (10, 1), (12, 4), (16, 12), (32, 32)] && decide (bitsOf w.op.toNat 16 12 ≠ 0)) = true := by
    rw [Bool.and_eq_true, onlyBits_loop]
    exact ⟨fields, decide_eq_true length⟩
  have outcome := issues.issueOp runLoop (needsExt_none e opcode (by decide) (by decide) ext) (mine := opIs 0x0A) (decide_eq_true opcode)
    (legal := fun op _ => onlyBits op [(0, 8), (8, 2), (10, 1), (12, 4), (16, 12), (32, 32)] && decide (bitsOf op 16 12 ≠ 0)) legal
  exact congrArg (fun u : State => Host.Outcome.next (u.settleSkip t.toNat e)) outcome

/-- A LOOP that faults settles nothing. -/
theorem loop_faults {cause : Nat} (code : cause < 256) (run : runLoop (.at t e w loc x) (s.issued t.toNat e x) = .fault cause) : Goes (.loop t e w) s (fun u => Faulted s u t.toNat e cause loc) := by
  have faults := issues.faults code (by omega : e.val < 8)
  have settled := settleSkip_faulted e.val faults.1
  refine ⟨_, loop_outcome issues opcode fields length ext, ?_⟩
  rw [run, settled]
  exact faults

/-- A LOOP that sets its engine: the operations that it skips are taken as far as they are there. -/
theorem loop_ends {h : Engine} {z : Tile} (run : runLoop (.at t e w loc x) (s.issued t.toNat e x) = .done ((s.issued t.toNat e x).setEngine t.toNat e h))
    (skips : (Ended (x.consume e) e h).skipOps h.skip e = (z, none)) : Goes (.loop t e w) s (fun u => OneOp s u t.toNat e z []) := by
  refine ⟨_, loop_outcome issues opcode fields length ext, ?_⟩
  rw [run]
  exact (setEngine_ends s t e x h).settles e.isLt issues.unfaulted (by rw [Ended_skip]; exact skips)

end

/-! #### CALL -/

section
variable (opcode : w.op.toNat % 256 = 0x0B) (fields : onlyBits w.op.toNat [(0, 8), (35, 15)] = true) (ext : w.ext = none)
include opcode fields ext

/-- What becomes of a CALL, by the frames of its engine (R252, R253). -/
theorem call_outcome :
    let g := (x.consume e).eng e
    let target := bitsOf w.op.toNat 32 18
    exec (.call t e w) s = .next (s.outcome t.toNat e x loc
      (match g.frames with
      | [] => .done ((s.issued t.toNat e x).setEngine t.toNat e { g with frames := [⟨target / 4096, target⟩], root := (loc.stream, loc.off) })
      | [f] => if target / 4096 ≠ f.page then .fault 9 else .done ((s.issued t.toNat e x).setEngine t.toNat e { g with frames := [⟨f.page, target⟩, f] })
      | _ => .fault 8)) := by
  intro g target
  refine congrArg Host.Outcome.next ((issues.issueOp _ (needsExt_none e opcode (by decide) (by decide) ext) (decide_eq_true opcode) fields).trans (congrArg (s.outcome t.toNat e x loc) ?_))
  dsimp only
  rw [show (s.issued t.toNat e x).engine t.toNat e = g from issued_eng s t e x] <;> rfl

theorem call_outside (outside : ((x.consume e).eng e).frames = []) :
    Goes (.call t e w) s (fun u => OneOp s u t.toNat e (Ended (x.consume e) e
      { (x.consume e).eng e with frames := [⟨bitsOf w.op.toNat 32 18 / 4096, bitsOf w.op.toNat 32 18⟩], root := (loc.stream, loc.off) }) []) := by
  have outcome := call_outcome issues opcode fields ext
  dsimp only at outcome
  rw [outside] at outcome
  exact ⟨_, outcome, setEngine_ends s t e x _⟩

theorem call_within {f : Frame} (once : ((x.consume e).eng e).frames = [f]) (page : bitsOf w.op.toNat 32 18 / 4096 = f.page) :
    Goes (.call t e w) s (fun u => OneOp s u t.toNat e (Ended (x.consume e) e { (x.consume e).eng e with frames := [⟨f.page, bitsOf w.op.toNat 32 18⟩, f] }) []) := by
  have outcome := call_outcome issues opcode fields ext
  dsimp only at outcome
  rw [once] at outcome
  dsimp only at outcome
  rw [if_neg (not_not.mpr page)] at outcome
  exact ⟨_, outcome, setEngine_ends s t e x _⟩

/-- A nested CALL of another page is a fault (R253). -/
theorem call_elsewhere {f : Frame} (once : ((x.consume e).eng e).frames = [f]) (page : bitsOf w.op.toNat 32 18 / 4096 ≠ f.page) : Goes (.call t e w) s (fun u => Faulted s u t.toNat e 9 loc) := by
  have outcome := call_outcome issues opcode fields ext
  dsimp only at outcome
  rw [once] at outcome
  dsimp only at outcome
  rw [if_pos page] at outcome
  exact ⟨_, outcome, issues.faults (by decide) (by omega)⟩

/-- A third level of CALL is a fault (R252). -/
theorem call_deep (deep : 2 ≤ ((x.consume e).eng e).frames.length) : Goes (.call t e w) s (fun u => Faulted s u t.toNat e 8 loc) := by
  obtain ⟨f, f', r, frames⟩ : ∃ f f' r, ((x.consume e).eng e).frames = f :: f' :: r := by
    match ((x.consume e).eng e).frames, deep with
    | f :: f' :: r, _ => exact ⟨f, f', r, rfl⟩
  have outcome := call_outcome issues opcode fields ext
  dsimp only at outcome
  rw [frames] at outcome
  exact ⟨_, outcome, issues.faults (by decide) (by omega)⟩

end

/-! #### RET -/

section
variable (word : w.op.toNat = 0x0C) (ext : w.ext = none)
include word ext

/-- What becomes of a RET, by the frames and loops of its engine (R252, R254). -/
theorem ret_outcome :
    let g := (x.consume e).eng e
    let u := s.issued t.toNat e x
    exec (.ret t e w) s = .next (s.outcome t.toNat e x loc
      (match g.frames with
      | [] => .fault 10
      | f :: r =>
        if g.loops.any (fun l => decide (l.depth = g.frames.length)) then .fault 10
        else .done (u.setTile t.toNat (if r.isEmpty && g.loops.isEmpty then ((u.tile t.toNat).setEngine e { g with frames := r }).retireCalls [f.page] else (u.tile t.toNat).setEngine e { g with frames := r })))) := by
  intro g u
  have opcode : w.op.toNat % 256 = 0x0C := by rw [word]
  have fields : onlyBits w.op.toNat [(0, 8)] = true := by rw [word]; decide
  refine congrArg Host.Outcome.next ((issues.issueOp _ (needsExt_none e opcode (by decide) (by decide) ext) (decide_eq_true opcode) fields).trans (congrArg (s.outcome t.toNat e x loc) ?_))
  dsimp only
  rw [show ((s.issued t.toNat e x).tile t.toNat).eng e = g from issued_eng s t e x] <;> rfl

/-- A RET at depth 0, or within a loop of its depth, is a fault (R252). -/
theorem ret_misplaced (misplaced : ((x.consume e).eng e).frames = [] ∨ ∃ l ∈ ((x.consume e).eng e).loops, l.depth = ((x.consume e).eng e).frames.length) :
    Goes (.ret t e w) s (fun u => Faulted s u t.toNat e 10 loc) := by
  have outcome := ret_outcome issues word ext
  dsimp only at outcome
  cases frames : ((x.consume e).eng e).frames with
  | nil =>
    rw [frames] at outcome
    exact ⟨_, outcome, issues.faults (by decide) (by omega)⟩
  | cons f r =>
    obtain ⟨l, opened, depth⟩ := misplaced.resolve_left (by rw [frames]; exact List.cons_ne_nil f r)
    have open_ : ((x.consume e).eng e).loops.any (fun l => decide (l.depth = (f :: r).length)) = true := List.any_eq_true.mpr ⟨l, opened, decide_eq_true (frames ▸ depth)⟩
    rw [frames] at outcome
    dsimp only at outcome
    rw [if_pos open_] at outcome
    exact ⟨_, outcome, issues.faults (by decide) (by omega)⟩

/-- A RET pops its frame, and a CALL outside a body retires (R252, R254). -/
theorem ret_returns {f : Frame} {r : List Frame} (frames : ((x.consume e).eng e).frames = f :: r) (closed : ∀ l ∈ ((x.consume e).eng e).loops, l.depth ≠ ((x.consume e).eng e).frames.length) :
    let y := x.consume e
    Goes (.ret t e w) s (fun u => OneOp s u t.toNat e (Ended (if r = [] ∧ (y.eng e).loops = [] then y.retireCalls [f.page] else y) e { y.eng e with frames := r }) []) := by
  intro y
  have none : ¬ (y.eng e).loops.any (fun l => decide (l.depth = (f :: r).length)) = true := by
    rw [List.any_eq_true]
    rintro ⟨l, opened, depth⟩
    exact closed l opened ((of_decide_eq_true depth).trans (by rw [frames]))
  have ran := Ran.of_issued s t.toNat e x
  have outcome := ret_outcome issues word ext
  dsimp only at outcome
  rw [frames] at outcome
  dsimp only at outcome
  rw [if_neg none, ran.tile] at outcome
  refine ⟨_, outcome, ?_⟩
  by_cases retires : r = [] ∧ (y.eng e).loops = []
  · have done := (ran.setTile (y := (y.retireCalls [f.page]).setEngine e { y.eng e with frames := r })).closes
    rw [Ended_setEngine, Tile.eng_setEngine] at done
    rw [if_pos retires, if_pos (by simpa using retires)]
    exact done
  · have done := (ran.setTile (y := y.setEngine e { y.eng e with frames := r })).closes
    rw [Ended_setEngine, Tile.eng_setEngine] at done
    rw [if_neg retires, if_neg (by simpa using retires)]
    exact done

end

end
end

/-- Settles O31: LOOP by `runLoop_reopens`, `runLoop_long`, `runLoop_outermost` and `runLoop_called`, with what it skips taken at once (`OneOp.settles`), CALL by `call_outcome` and RET by `ret_outcome`. -/
theorem loopsAndCallsSteerTheEngine : Obligations.LoopsAndCallsSteerTheEngine := by
  unfold Obligations.LoopsAndCallsSteerTheEngine
  dsimp only
  refine ⟨fun t e w s x loc issues opcode fields length ext => ?loop,
    fun t e w s x loc issues opcode fields ext => ⟨call_outside issues opcode fields ext, fun f => call_within issues opcode fields ext, fun f => call_elsewhere issues opcode fields ext, call_deep issues opcode fields ext⟩,
    fun t e w s x loc issues word ext => ⟨ret_misplaced issues word ext, fun f r => ret_returns issues word ext⟩⟩
  case loop =>
    have own := issued_eng s t e x
    have regs : loopCount (.at t e w loc x) (s.issued t.toNat e x) = if bit w.op.toNat 10 then (x.eng e).areg (bitsOf w.op.toNat 12 4) % 2 ^ 32 else bitsOf w.op.toNat 32 32 := by
      rw [← x.consume_areg, ← own]
      rfl
    refine ⟨fun ⟨l, opened, same⟩ => loop_faults issues opcode fields length ext (by decide) (runLoop_reopens own opened same),
      fun _ outside loops long => loop_faults issues opcode fields length ext (by decide) (runLoop_long own outside loops long),
      fun outside loops short => ?outermost, fun f r frames idle new inPage inBody => ?called⟩
    case outermost =>
      have run := runLoop_outermost (c := .at t e w loc x) own outside loops short
      rw [regs] at run
      unfold Engine.outerLoop at run
      refine ⟨fun counts => ?_, fun zero z skips => ?_⟩
      · rw [if_neg counts] at run
        refine loop_ends issues opcode fields length ext run ?_
        rw [show ((x.consume e).eng e).skip = 0 from issues.skipped outside]
        rfl
      · rw [if_pos zero] at run
        exact loop_ends issues opcode fields length ext run skips
    case called =>
      have imem : ((s.issued t.toNat e x).tile t.toNat).imem = (x.consume e).imem := by rw [(Ran.of_issued s t.toNat e x).tile]
      have ends := Tile.scan_imem imem e (bitsOf w.op.toNat 16 12) f.pc
      have run := runLoop_called (c := .at t e w loc x) own frames new ends.symm inPage inBody
      rw [regs] at run
      refine loop_ends issues opcode fields length ext run ?_
      have still (h : Engine) (same : h.skip = ((x.consume e).eng e).skip) : (Ended (x.consume e) e h).skipOps h.skip e = (Ended (x.consume e) e h, Option.none) := by
        rw [same, idle]
        rfl
      exact still _ ((apply_ite Engine.skip _ _ _).trans (ite_self _))

end Sys2Proof.Machine
end

section
/-! LOOP at an engine that may not issue: its settling still takes operations that a count of 0 skips (R247, R263). -/

namespace Sys2Proof.Machine

/-- A tile in reset whose engine 0 has one operation left to skip, and that operation in its queue. -/
def skippingTile : Tile := Tile.init.setEngine 0 { Engine.init with skip := 1, queue := [.op ⟨0, none⟩ 0 0 false] }

/-- The card at reset, but for that tile 0. -/
def skippingCard : State := State.reset.setTile 0 skippingTile

/-- A LOOP of two operations. -/
def loopWord : OpWord := ⟨0x2000A, none⟩

theorem skippingCard_mayNotIssue : skippingCard.canIssue 0 0 = false := by decide +kernel

/-- LOOP leaves the engine's queue empty: it settles the skipped operations of any tile without a fault. -/
theorem loop_takes_skipped : ∃ u, exec (.loop 0 0 loopWord) skippingCard = .next u ∧ (u.engine 0 0).queue = [] := ⟨_, rfl, by decide +kernel⟩

/-- Refutes O32: in a tile that may not issue, here one in reset, a LOOP presented to an engine that has an operation left to skip takes that operation out of its queue, against the claim that it changes nothing. -/
theorem not_illegalOperationFaultsAndPassSends : ¬ Obligations.IllegalOperationFaultsAndPassSends := by
  unfold Obligations.IllegalOperationFaultsAndPassSends
  intro ⟨_, _, held, _, _⟩
  obtain ⟨u, runs, emptied⟩ := loop_takes_skipped
  have stays := held 0 0 loopWord skippingCard skippingCard_mayNotIssue Instr.loop (by simp)
  have same : u = skippingCard := Host.Outcome.next.inj (runs.symm.trans stays)
  rw [same] at emptied
  exact absurd emptied (by decide +kernel)

end Sys2Proof.Machine
end

section
/-! What the work of a channel leaves: rings, the host interface, and the registers of the low blocks. Channel controllers, banks and merge units have no access to them (R77-R169). -/

namespace Sys2Proof.Machine

/-- A register of the blocks below the Chorus unit, other than the record of a refused Molt. -/
def lowWord (o : Nat) : Bool := decide (o < chorusB ∧ o ≠ hostB + FLT_MOLT_STAT_REFUSED.off)

/-- The part of the card that a channel does not reach: rings, host interface, and low registers. -/
def State.low (s : State) : SMap RingSt × HostSt × (Nat → Nat) := (s.rings, s.host, fun o => if lowWord o then s.word o else 0)

section
variable (s : State)

theorem low_of_regs {s u : State} (rings : u.rings = s.rings) (host : u.host = s.host) (words : ∀ o, lowWord o = true → u.word o = s.word o) : u.low = s.low := by
  have low : (fun o => if lowWord o then u.word o else 0) = fun o => if lowWord o then s.word o else 0 := by
    funext o
    split
    · next l => exact words o l
    · rfl
  rw [State.low, State.low, rings, host, low]

theorem wr_low {b : Nat} {f : Fld} (high : lowWord (b + f.off) = false) (v : Nat) : (s.wr b f v).low = s.low :=
  low_of_regs rfl rfl fun o l => State.wr_word_ne s b o f v fun same => by rw [same, high] at l; cases l

theorem ccB_high (c o : Nat) : lowWord (ccB c + o) = false := decide_eq_false fun ⟨below, _⟩ => by unfold ccB chorusB at below; omega
theorem bdB_high (k o : Nat) : lowWord (bdB k + o) = false := decide_eq_false fun ⟨below, _⟩ => by unfold bdB chorusB at below; omega

@[simp] theorem low_wrC (c : Nat) (f : Fld) (v : Nat) : (s.wr (ccB c) f v).low = s.low := wr_low s (ccB_high c _) v
@[simp] theorem low_wrB (k : Nat) (f : Fld) (v : Nat) : (s.wr (bdB k) f v).low = s.low := wr_low s (bdB_high k _) v
@[simp] theorem low_raiseC (c : Nat) (f : Fld) : (s.raise (ccB c) f).low = s.low := low_wrC s c f 1
@[simp] theorem low_raiseB (k : Nat) (f : Fld) : (s.raise (bdB k) f).low = s.low := low_wrB s k f 1
@[simp] theorem low_satC (c : Nat) (f : Fld) (n : Nat) : (s.sat (ccB c) f n).low = s.low := low_wrC ..
@[simp] theorem low_satB (k : Nat) (f : Fld) (n : Nat) : (s.sat (bdB k) f n).low = s.low := low_wrB ..
@[simp] theorem low_emit (src code : Nat) (data : List Nat) : (s.emit src code data).low = s.low := rfl
@[simp] theorem low_send (o : Out) : (s.send o).low = s.low := rfl
@[simp] theorem low_setCc (c : Nat) (k : CcSt) : (s.setCc c k).low = s.low := rfl
@[simp] theorem low_setEng (b : Nat) (e : EngSt) : (s.setEng b e).low = s.low := rfl
@[simp] theorem low_setBd (k : Nat) (b : BdieSt) : (s.setBd k b).low = s.low := rfl
@[simp] theorem low_setTile (t : Nat) (x : Tile) : (s.setTile t x).low = s.low := rfl
@[simp] theorem low_fresh : s.fresh.2.low = s.low := rfl
@[simp] theorem low_mem (m : Mem) : ({ s with mem := m } : State).low = s.low := rfl

@[simp] theorem low_countC (c : Nat) (f : Fld) (n : Nat) : (s.countC c f n).low = s.low := by
  unfold State.countC State.count
  dsimp only
  split <;> simp
@[simp] theorem low_countB (k : Nat) (f : Fld) (n : Nat) : (s.countB k f n).low = s.low := by
  unfold State.countB State.count
  dsimp only
  split <;> simp
@[simp] theorem low_effectC (c : Nat) (f : Fld) : (s.effect (ccB c) f).low = s.low := by
  unfold State.effect
  dsimp only
  split
  · rfl
  · exact low_wrC s c f _

/-- Steps that leave the low part do so one after another. -/
theorem low_foldl {α : Type} (l : List α) {f : State → α → State} (step : ∀ a x, (f a x).low = a.low) : (l.foldl f s).low = s.low :=
  foldl_keeps (fun a : State => a.low = s.low) l f s rfl fun a x h => (step a x).trans h

theorem low_upto (n : Nat) {f : Nat → State → State} (step : ∀ i a, (f i a).low = a.low) : (upto n f s).low = s.low :=
  upto_keeps (fun a : State => a.low = s.low) n f s rfl fun i a h => (step i a).trans h

@[simp] theorem low_effectsC (c : Nat) (l : List Fld) : (s.effects (ccB c) l).low = s.low := low_foldl s l fun a f => low_effectC a c f

/-! ### Errors and columns (R96-R103, R407-R410) -/

@[simp] theorem low_nocError (t src entry plane : Nat) (write : Bool) : (s.nocError t src entry plane write).low = s.low := rfl
@[simp] theorem low_spWrite (t i : Nat) (w : WriteData) : (s.spWrite t i w).low = s.low := rfl
@[simp] theorem low_requestMolt (c cause : Nat) : (s.requestMolt c cause).low = s.low := by
  unfold State.requestMolt
  split
  · exact wr_low s (by decide) 1
  · rfl
@[simp] theorem low_chanError (c weight : Nat) : (s.chanError c weight).low = s.low := by
  unfold State.chanError
  dsimp only
  split <;> simp
@[simp] theorem low_check (col : Nat) : (s.check col).2.low = s.low := by
  unfold State.check
  dsimp only
  split
  · split <;> simp
  · split_ifs <;> simp
@[simp] theorem low_colEvent (c code col reader : Nat) : (s.colEvent c code col reader).low = s.low := by
  unfold State.colEvent
  split <;> simp
@[simp] theorem low_uncorrectable (c col reader : Nat) : (s.uncorrectable c col reader).low = s.low := by simp [State.uncorrectable]
@[simp] theorem low_correctedErr (c col reader : Nat) : (s.correctedErr c col reader).low = s.low := by simp [State.correctedErr]
@[simp] theorem low_readCol (c col reader : Nat) : (s.readCol c col reader).2.2.low = s.low := by
  have checked := low_check s col
  unfold State.readCol
  generalize s.check col = p at *
  obtain ⟨seen, u⟩ := p
  cases seen <;> simp_all
@[simp] theorem low_writePart (c col mask : Nat) (v : Half) : (s.writePart c col mask v).low = s.low := by
  have read := low_readCol s c col 4
  unfold State.writePart
  generalize s.readCol c col 4 = p at *
  obtain ⟨old, fixed, u⟩ := p
  dsimp only at read ⊢
  split_ifs
  · rfl
  · simp
  · split <;> simp [read]

/-! ### Rows and the trace (R91-R94, R226) -/

@[simp] theorem low_activate (c bank row : Nat) : (s.activate c bank row).low = s.low := by
  unfold State.activate
  dsimp only
  split
  · split <;> simp
  · split <;> simp
@[simp] theorem low_trace (c : Nat) (tag : Option Nat) (row col : Nat) : (s.trace c tag row col).low = s.low := by
  unfold State.trace
  dsimp only
  split_ifs <;> simp
@[simp] theorem low_bankCmd (c : Nat) (tag : Option Nat) (row col : Nat) : (s.bankCmd c tag row col).low = s.low := by
  unfold State.bankCmd
  dsimp only
  split <;> simp
@[simp] theorem low_closeRow (c bank : Nat) : (s.closeRow c bank).low = s.low := by
  unfold State.closeRow
  split <;> simp
@[simp] theorem low_openFor (c bank row : Nat) : (s.openFor c bank row).low = s.low := by
  unfold State.openFor
  dsimp only
  split <;> simp
@[simp] theorem low_pdx (c mask : Nat) : (s.pdx c mask).low = s.low :=
  low_upto s 4 fun i a => by split <;> simp

/-! ### Bursts and requests (R77-R103) -/

@[simp] theorem low_queueWriteBack (c col : Nat) (d : BitVec 256) : (s.queueWriteBack c col d).low = s.low := by
  unfold State.queueWriteBack
  dsimp only
  split <;> simp
@[simp] theorem low_normalRead (c col reader : Nat) : (s.normalRead c col reader).2.low = s.low := by
  have read := low_readCol s c col reader
  unfold State.normalRead
  generalize s.readCol c col reader = p at *
  split
  · rw [low_queueWriteBack]; exact read
  · exact read
@[simp] theorem low_read64 (key reader : Nat) : (s.read64 key reader).2.low = s.low := by simp [State.read64]
@[simp] theorem low_supersede (key : Nat) (w : WriteData) : (s.supersede key w).low = s.low := by simp [State.supersede]
@[simp] theorem low_write64 (key : Nat) (w : WriteData) : (s.write64 key w).low = s.low := by simp [State.write64]
@[simp] theorem low_burstEnd (key : Nat) (write : Bool) : (s.burstEnd key write).low = s.low := rfl
@[simp] theorem low_loseWrite (key : Nat) (w : WriteData) : (s.loseWrite key w).low = s.low := (low_mem ..).trans (low_supersede ..)
@[simp] theorem low_spoilMixed (key : Nat) (w : WriteData) : (s.spoilMixed key w).low = s.low := (low_mem ..).trans (low_supersede ..)
@[simp] theorem low_readBurst (key reader : Nat) : (s.readBurst key reader).2.low = s.low := by simp [State.readBurst]
@[simp] theorem low_writeBurst (key : Nat) (w : WriteData) : (s.writeBurst key w).low = s.low := by
  unfold State.writeBurst
  split_ifs <;> simp
@[simp] theorem low_land (u : ReadUser) (key : Nat) (d : Option Cell64) : (s.land u key d).low = s.low := by
  unfold State.land
  dsimp only
  split <;> simp
@[simp] theorem low_answerReq (r : Req) (d : Cell64) : (s.answerReq r d).low = s.low := by
  unfold State.answerReq
  split <;> simp
@[simp] theorem low_answerRead64 (r : Req) : (s.answerRead64 r).low = s.low := by
  unfold State.answerRead64
  dsimp only
  split <;> simp
@[simp] theorem low_serve (c : Nat) (r : Req) : (s.serve c r).low = s.low := by
  unfold State.serve
  dsimp only
  split
  · split <;> simp
  · have reads (u : State) (p : Bool) (row col : Nat) : (if p then u.trace c none row col else u).low = u.low := by split <;> simp
    split <;> simp [reads]
@[simp] theorem low_charge (c : Nat) (r : Req) : (s.charge c r).low = s.low := rfl
@[simp] theorem low_slot (c : Nat) (r : Req) : (s.slot c r).low = s.low := by simp [State.slot]
@[simp] theorem low_issueRefresh (c : Nat) (m : Maint) : (s.issueRefresh c m).low = s.low := by
  unfold State.issueRefresh
  split
  · dsimp only
    rw [low_foldl]
    · simp
    · simp
  · rfl
@[simp] theorem low_storeBack (c : Nat) (m : Maint) : (s.storeBack c m).low = s.low := by
  unfold State.storeBack
  split
  · simp
  · rfl
theorem low_gapServe (c n : Nat) : ∀ s : State, (State.gapServe n s c).low = s.low := by
  induction n with
  | zero => exact fun _ => rfl
  | succ n ih =>
    intro s
    unfold State.gapServe
    split
    · rw [ih, low_slot]
    · split
      · rw [ih, low_storeBack]
      · rfl

/-! ### Banks and merge units (R113-R159) -/

@[simp] theorem low_note (c g p : Nat) (n : Note) : (s.note c g p n).low = s.low := by
  unfold State.note
  dsimp only
  rw [low_foldl]
  · split <;> split <;> simp
  · simp
@[simp] theorem low_eachEng (c g : Nat) (f : Nat → EngSt → EngSt) : (s.eachEng c g f).low = s.low :=
  low_upto s 64 fun p a => by split <;> simp
@[simp] theorem low_seqError (c g op : Nat) (hit : EngSt → Bool) : (s.seqError c g op hit).low = s.low := by
  have faulted (l : List Nat) : (l.foldl (fun (a : State) p => a.setEng (engIdx c g p) (a.eng (engIdx c g p)).toFault) s).low = s.low := low_foldl s l fun _ _ => rfl
  unfold State.seqError
  dsimp only
  split
  · rfl
  · split
    · split <;> simp [faulted]
    · simp [faulted]
@[simp] theorem low_engRead (c g p row col : Nat) : (s.engRead c g p row col).2.low = s.low := by
  unfold State.engRead
  dsimp only
  split <;> simp
@[simp] theorem low_eachRead (c g col : Nat) (f : EngSt → Half → EngSt × Note) : (s.eachRead c g col f).low = s.low :=
  low_upto s 64 fun p a => by
    dsimp only
    split <;> simp
@[simp] theorem low_eachWrite (c g col : Nat) (f : EngSt → Half) : (s.eachWrite c g col f).low = s.low :=
  low_upto s 64 fun p a => by
    dsimp only
    split
    · rfl
    · exact (low_mem ..).trans (low_setCc ..)
@[simp] theorem low_setUp (c g : Nat) (f : Nat → EngSt → EngSt) : (s.setUp c g f).low = s.low := low_eachEng ..
@[simp] theorem low_opActa (c g row : Nat) : (s.opActa c g row).low = s.low := by
  unfold State.opActa
  dsimp only
  rw [low_eachEng, low_seqError, low_countB]
  refine low_upto s 64 fun p a => ?_
  split <;> simp
@[simp] theorem low_opCmp (c g : Nat) (b : CmpBurst) (i : Nat) : (s.opCmp c g b i).low = s.low := by simp [State.opCmp, State.colError]
@[simp] theorem low_burst (p : Prop) [Decidable p] (n c g op : Nat) (hit : EngSt → Bool) {f : Nat → State → State} (step : ∀ i a, (f i a).low = a.low) :
    (if p then upto n f s else s.seqError c g op hit).low = s.low := by
  split
  · exact low_upto s n step
  · simp
@[simp] theorem low_burstCmp (c g : Nat) (b : CmpBurst) (i0 k : Nat) : (s.burstCmp c g b i0 k).low = s.low := low_burst s _ k c g 9 _ fun _ a => low_opCmp a c g b _
@[simp] theorem low_burstScl (c g c0 n o0 i0 k : Nat) : (s.burstScl c g c0 n o0 i0 k).low = s.low := low_burst s _ k c g 8 _ fun i a => by simp [State.colError]
@[simp] theorem low_burstSld (c g c0 n o0 i0 k : Nat) : (s.burstSld c g c0 n o0 i0 k).low = s.low := low_burst s _ k c g 10 _ fun i a => by simp [State.colError]
@[simp] theorem low_burstBlw (c g c0 n o0 i0 k : Nat) : (s.burstBlw c g c0 n o0 i0 k).low = s.low := low_burst s _ k c g 11 _ fun i a => by simp [State.colError]
@[simp] theorem low_burstRcr (c g c0 n i0 k : Nat) : (s.burstRcr c g c0 n i0 k).low = s.low := low_burst s _ k c g 12 _ fun i a => by simp [State.colError]
@[simp] theorem low_burstRcw (c g c0 n i0 k : Nat) : (s.burstRcw c g c0 n i0 k).low = s.low := low_burst s _ k c g 13 _ fun i a => by simp [State.colError]
@[simp] theorem low_opExit (c : Nat) : (s.opExit c).low = s.low := by
  unfold State.opExit
  rw [low_setCc]
  refine low_upto s 128 fun i a => ?_
  split <;> simp
@[simp] theorem low_maskHits (c g mask : Nat) : (s.maskHits c g mask).low = s.low :=
  low_upto s 64 fun p a => by split <;> simp
@[simp] theorem low_standIn (c : Nat) (r : PassReq) : (s.standIn c r).low = s.low := by
  unfold State.standIn State.contribute
  split <;> simp
@[simp] theorem low_drain (c : Nat) (r : PassReq) : (s.drain c r).low = s.low := by
  unfold State.drain State.contribute
  dsimp only
  split <;> simp

/-! ### Passes (R139-R167) -/

@[simp] theorem low_panicEnd (c tag : Nat) : (s.panicEnd c tag).low = s.low := by
  unfold State.panicEnd
  dsimp only
  split <;> simp
@[simp] theorem low_panicCheck (c : Nat) : (s.panicCheck c).low = s.low := by
  unfold State.panicCheck
  dsimp only
  split
  · rfl
  · split_ifs <;> simp
@[simp] theorem low_perform (c : Nat) (a : Active) (m : PCmd) : (s.perform c a m).low = s.low := by
  cases m with
  | opb r u =>
    unfold State.perform State.opOpb
    dsimp only
    split_ifs <;> simp
  | cmp c0 n h x i k dl =>
    unfold State.perform
    dsimp only
    split <;> simp
  | _ => simp [State.perform, State.opCfg, State.opClr, State.opPrea]
theorem low_gapRefresh (c n : Nat) : ∀ s : State, (State.gapRefresh n s c).low = s.low := by
  induction n with
  | zero => exact fun _ => rfl
  | succ n ih =>
    intro s
    unfold State.gapRefresh
    split
    · rw [ih, low_issueRefresh]
    · split
      · rw [ih, low_issueRefresh]
      · rfl
@[simp] theorem low_refreshFirst (c : Nat) : (s.refreshFirst c).low = s.low := low_gapRefresh ..
@[simp] theorem low_endGap (c g : Nat) : (s.endGap c g).low = s.low := by
  unfold State.endGap
  rw [low_upto _ 64 fun i a => low_closeRow a c _, low_refreshFirst, low_gapServe, low_refreshFirst]
@[simp] theorem low_issue (c : Nat) (a : Active) (m : PCmd) : (s.issue c a m).low = s.low := by
  unfold State.issue
  dsimp only
  split <;> simp
@[simp] theorem low_setTodo (c : Nat) (l : List PCmd) : (s.setTodo c l).low = s.low := rfl
theorem low_issueAll (c n : Nat) : ∀ s : State, (State.issueAll n s c).low = s.low := by
  induction n with
  | zero => exact fun _ => rfl
  | succ n ih =>
    intro s
    unfold State.issueAll
    split
    · rfl
    · split
      · rfl
      · split
        · rw [ih, low_setTodo, low_issue]
        · rfl
@[simp] theorem low_fetchOne (c : Nat) : (s.fetchOne c).low = s.low := by
  unfold State.fetchOne
  dsimp only
  split
  · rfl
  · split
    · rfl
    · split_ifs <;> simp
@[simp] theorem low_fetchAll (c : Nat) : (s.fetchAll c).low = s.low := by
  unfold State.fetchAll
  split
  · rfl
  · exact low_upto s _ fun _ a => low_fetchOne a c
@[simp] theorem low_release (c : Nat) : (s.release c).low = s.low := by
  unfold State.release
  dsimp only
  split <;> simp
@[simp] theorem low_passEnd (c : Nat) : (s.passEnd c).low = s.low := by
  unfold State.passEnd
  dsimp only
  split
  · rfl
  · split_ifs <;> simp [State.opAbt]
@[simp] theorem low_endIfDone (c : Nat) : (s.endIfDone c).low = s.low := by
  unfold State.endIfDone
  split
  · split <;> simp
  · rfl
@[simp] theorem low_runRest (c : Nat) : (s.runRest c).low = s.low := by
  unfold State.runRest
  dsimp only
  split
  · rfl
  · split <;> simp [low_issueAll]

/-- The passes of a channel are discarded. -/
theorem low_discardPasses (c : Nat) : (s.discardPasses c).low = s.low := by
  have stood (l : List PassReq) (u : State) (same : u.low = s.low) : (l.foldl (fun (a : State) r => a.standIn c r) u).low = s.low :=
    (low_foldl u l fun a r => low_standIn a c r).trans same
  unfold State.discardPasses
  dsimp only
  have left := stood ((s.cc c).queue ++ (s.cc c).ingress) _ (low_setCc s c { s.cc c with queue := [], ingress := [], claimAt := none })
  generalize List.foldl _ _ _ = u at *
  split
  · split <;> simp [left]
  · split <;> simp [left]

end

end Sys2Proof.Machine
end

section
/-! What the faults that follow a broken Chorus group leave: storage, what a reset keeps of each tile, the low registers, and tiles whose engines hold nothing (R263, R264, R352, R419). -/

namespace Sys2Proof.Machine

/-- From `s` to `u` tiles may have faulted. Tiles whose engines hold nothing, other than those that `p` exempts, stay with their registers. -/
structure Shaken (p : Nat → Prop) (s u : State) : Prop where
  rest    : u = { s with regs := u.regs, tiles := u.tiles, rings := u.rings, cuts := u.cuts, reports := u.reports }
  reports : s.reports <+: u.reports
  halted  : ∀ n, s.isRunning n = false → u.isRunning n = false
  words   : ∀ o < chorusB, u.word o = s.word o
  kept    : ∀ k, (u.tile k).afterReset = (s.tile k).afterReset
  idle    : ∀ k, ¬ p k → (s.tile k).engs = [] → u.tile k = s.tile k ∧ ∀ o < 0x8000, u.word (tileB k + o) = s.word (tileB k + o)

namespace Shaken
variable {p q : Nat → Prop} {s u v : State}

theorem refl (p : Nat → Prop) (s : State) : Shaken p s s := ⟨rfl, List.prefix_refl _, fun _ h => h, fun _ _ => rfl, fun _ => rfl, fun _ _ _ => ⟨rfl, fun _ _ => rfl⟩⟩

theorem trans (h : Shaken p s u) (g : Shaken p u v) : Shaken p s v := by
  refine ⟨g.rest.trans (by rw [h.rest]), h.reports.trans g.reports, fun n stopped => g.halted n (h.halted n stopped), fun o low => (g.words o low).trans (h.words o low),
    fun k => (g.kept k).trans (h.kept k), fun k other empty => ?_⟩
  obtain ⟨tile, words⟩ := h.idle k other empty
  obtain ⟨tile', words'⟩ := g.idle k other (tile ▸ empty)
  exact ⟨tile'.trans tile, fun o window => (words' o window).trans (words o window)⟩

/-- An exemption matters only for a tile whose engines hold nothing. -/
theorem exempt (h : Shaken p s u) (busy : ∀ k, p k → ¬ q k → (s.tile k).engs ≠ []) : Shaken q s u :=
  ⟨h.rest, h.reports, h.halted, h.words, h.kept, fun k other empty => h.idle k (fun mine => busy k mine other empty) empty⟩

theorem of_halts (h : Halts s u) : Shaken p s u := by
  have regs : u.regs = s.regs := by rw [h.rest]
  have tiles : u.tiles = s.tiles := by rw [h.rest]
  have tile (k : Nat) : u.tile k = s.tile k := by rw [State.tile, tiles, State.tile]
  have word (o : Nat) : u.word o = s.word o := by rw [State.word, regs, State.word]
  exact ⟨h.rest.trans (by rw [regs, tiles]), h.reports, h.halted, fun o _ => word o, fun k => by rw [tile], fun k _ _ => ⟨tile k, fun o _ => word _⟩⟩

theorem emit (s : State) (src code : Nat) (data : List Nat) : Shaken p s (s.emit src code data) := of_halts (.emit s src code data)

/-- A register of a tile that is exempt. -/
theorem wrT {k : Nat} (exempt : p k) (f : Fld) (v : Nat) (window : f.off < 0x8000) : Shaken p s (s.wr (tileB k) f v) := by
  refine ⟨rfl, List.prefix_refl _, fun _ h => h, fun o low => State.wr_word_ne s _ o f v fun same => ?_, fun _ => rfl,
    fun n other _ => ⟨rfl, fun o inside => State.wr_word_ne s _ _ f v fun same => other ?_⟩⟩
  · unfold tileB at same
    unfold chorusB at low
    omega
  · have : n = k := by
      unfold tileB at same
      omega
    exact this ▸ exempt

/-- A register of the Chorus unit. -/
theorem wrChorus (f : Fld) (v : Nat) (window : f.off < 0x8000) : Shaken p s (s.wr chorusB f v) := by
  refine ⟨rfl, List.prefix_refl _, fun _ h => h, fun o low => State.wr_word_ne s _ o f v fun same => ?_, fun _ => rfl,
    fun n _ _ => ⟨rfl, fun o _ => State.wr_word_ne s _ _ f v fun same => ?_⟩⟩
  · omega
  · unfold tileB chorusB at same
    omega

/-- A tile that is exempt changes, but for what a reset keeps. -/
theorem modTile {k : Nat} (exempt : p k) (f : Tile → Tile) (kept : ∀ x, (f x).afterReset = x.afterReset) : Shaken p s (s.modTile k f) := by
  refine ⟨rfl, List.prefix_refl _, fun _ h => h, fun _ _ => rfl, fun n => ?_, fun n other _ => ⟨State.modTile_tile_ne _ _ _ _ fun same => other (same ▸ exempt), fun _ _ => rfl⟩⟩
  by_cases same : n = k
  · rw [same, State.modTile_tile, kept]
  · rw [State.modTile_tile_ne _ _ _ _ same]

/-- Every tile changes, but for what a reset keeps, and for tiles whose engines hold nothing. -/
theorem mapTiles (f : Tile → Tile) (kept : ∀ x, (f x).afterReset = x.afterReset) (idle : ∀ x : Tile, x.engs = [] → f x = x) :
    Shaken p s { s with tiles := s.tiles.map (fun (q : Nat × Tile) => (q.1, f q.2)) } := by
  have listed (m : SMap Tile) (k : Nat) : look (fun _ => Tile.init) (m.map (fun (q : Nat × Tile) => (q.1, f q.2))) k = f (look (fun _ => Tile.init) m k) := by
    induction m with
    | nil => exact (idle Tile.init rfl).symm
    | cons q r ih =>
      rw [List.map_cons, look, look]
      split
      · rfl
      · exact ih
  have tile (k : Nat) : ({ s with tiles := s.tiles.map (fun (q : Nat × Tile) => (q.1, f q.2)) } : State).tile k = f (s.tile k) := listed s.tiles k
  exact ⟨rfl, List.prefix_refl _, fun _ h => h, fun _ _ => rfl, fun k => by rw [tile, kept], fun k _ empty => ⟨by rw [tile, idle _ empty], fun _ _ => rfl⟩⟩

end Shaken

/-! ### Engines that hold nothing -/

theorem Tile.eng_idle {x : Tile} (empty : x.engs = []) (e : Nat) : x.eng e = Engine.init := by
  unfold Tile.eng
  rw [empty]
  rfl

theorem Tile.mapEngines_afterReset (x : Tile) (f : Engine → Engine) : (x.mapEngines f).afterReset = x.afterReset :=
  upto_keeps (fun y : Tile => y.afterReset = x.afterReset) 4 _ x rfl fun _ _ same => same

theorem Tile.mapEngines_idle {x : Tile} (empty : x.engs = []) {f : Engine → Engine} (still : f Engine.init = Engine.init) : x.mapEngines f = x := by
  refine upto_keeps (fun y : Tile => y = x) 4 _ x rfl fun e y same => ?_
  rw [same, Tile.eng_idle empty, still]
  have cleared : put (fun _ => Engine.init) x.engs e Engine.init = x.engs := by
    rw [empty]
    exact if_pos rfl
  exact congrArg (fun m => ({ x with engs := m } : Tile)) cleared

theorem brokenWait_busy {s : State} {g t : Nat} {w : Nat × Loc} (waits : s.brokenWait g t = some w) : (s.tile t).engs ≠ [] := by
  intro empty
  obtain ⟨e, -, its⟩ := List.exists_of_findSome?_eq_some waits
  rw [State.engine, Tile.eng_idle empty] at its
  cases its

/-! ### Faults and broken groups -/

/-- One group of a tile breaks for a reason, and with it the waits on it fault (R352). -/
def State.groupBreaks (fuel reason t g : Nat) (a : State) : State :=
  if a.inGroup g t && !a.broken g then
    let a := (a.raise chorusB (CHORUS_CTRL_BROKEN.at (8 * g))).emit t 0x0352 [g, reason]
    let a := { a with tiles := a.tiles.map (fun (p : Nat × Tile) => (p.1, p.2.mapEngines (fun x => x.moveArrival g .broken))) }
    a.tileKeys.foldl (fun (a : State) u =>
      match a.brokenWait g u with
      | some (k, loc) => State.faultWith fuel (a.dropWaits g u) u k 30 loc
      | none => a) a
  else a

theorem groupBreaks_shaken {fuel : Nat} (follows : ∀ (s : State) (k e cause : Nat) (loc : Loc), Shaken (· = k) s (State.faultWith fuel s k e cause loc)) (p : Nat → Prop)
    (reason t : Nat) {g : Nat} (group : g < 8) (s : State) : Shaken p s (s.groupBreaks fuel reason t g) := by
  unfold State.groupBreaks
  dsimp only
  split
  · have broken : Shaken p s ((s.raise chorusB (CHORUS_CTRL_BROKEN.at (8 * g))).emit t 0x0352 [g, reason]) :=
      (Shaken.wrChorus _ 1 (by show 0x200 + 8 * g < 0x8000; omega)).trans (.emit ..)
    refine foldl_keeps (Shaken p s) _ _ _ (broken.trans (.mapTiles (fun x => x.mapEngines (fun x => x.moveArrival g .broken)) (fun x => x.mapEngines_afterReset _) fun x empty => x.mapEngines_idle empty rfl)) fun a n h => ?_
    split
    · next waits =>
      have dropped : Shaken (· = n) a (a.dropWaits g n) := .modTile (p := (· = n)) rfl _ fun x => x.mapEngines_afterReset _
      exact h.trans ((dropped.trans (follows _ _ _ _ _)).exempt fun k own _ => own ▸ brokenWait_busy waits)
    · exact h
  · exact .refl p s

theorem recordFault_shaken (s : State) (k e cause : Nat) (loc : Loc) : Shaken (· = k) s (s.recordFault k e cause loc) := by
  obtain ⟨ident, stream, record⟩ := recordFault_eq s k e cause loc
  have write (u : State) (f : Fld) (v : Nat) (window : f.off < 0x8000) : Shaken (· = k) u (u.wr (tileB k) f v) := .wrT (p := (· = k)) rfl f v window
  have regs : Shaken (· = k) s (s.faultRegs k e cause loc ident) :=
    ((((((write s TILE_FAULT_CAUSE _ (by decide)).trans (write _ TILE_FAULT_ENGINE _ (by decide))).trans (write _ TILE_FAULT_DEPTH _ (by decide))).trans
      (write _ TILE_FAULT_VALID 1 (by decide))).trans (write _ TILE_FAULT_LOC_STREAM_OFF _ (by decide))).trans (write _ TILE_FAULT_LOC_PC _ (by decide))).trans
      (write _ TILE_FAULT_STREAM_ID _ (by decide))
  rw [record]
  exact ((regs.trans (.modTile (p := (· = k)) rfl (fun x => { x with faultRec := stream }) fun _ => rfl)).trans (.emit ..)).trans (.of_halts (haltAndCut_halts ..).1)

theorem faultSettle_shaken (s : State) (k : Nat) : Shaken (· = k) s (s.faultSettle k) := by
  unfold State.faultSettle
  split
  · split
    · exact (Shaken.of_halts (completeDesc_halts ..)).trans (.modTile (p := (· = k)) rfl (fun x => { x with faultRec := none }) fun _ => rfl)
    · exact .refl _ s
  · exact .refl _ s

/-- A fault shakes no tile but its own whose engines hold nothing. -/
theorem faultWith_shaken (fuel : Nat) : ∀ (s : State) (k e cause : Nat) (loc : Loc), Shaken (· = k) s (State.faultWith fuel s k e cause loc) := by
  induction fuel with
  | zero => exact fun s k _ _ _ => .refl _ s
  | succ fuel ih =>
    intro s k e cause loc
    rw [faultWith_succ]
    split
    · exact .refl _ s
    · refine (upto_keeps_lt (Shaken (· = k) s) 8 _ _ (recordFault_shaken s k e cause loc) fun g group a h => ?_).trans (faultSettle_shaken _ k)
      exact h.trans (groupBreaks_shaken ih _ 3 k group a)

/-- The groups of a tile that enters reset break (R352). -/
theorem breakGroups_shaken (s : State) (t reason : Nat) : Shaken (fun _ => False) s (s.breakGroups t reason) :=
  upto_keeps_lt (Shaken (fun _ => False) s) 8 (State.groupBreaks 10 reason t) s (.refl _ s) fun _ group a h => h.trans (groupBreaks_shaken (faultWith_shaken 10) _ reason t group a)

end Sys2Proof.Machine
end

section
/-! The reset of a tile, and of several: what they keep of the tiles, and what they leave of the rest of the card (R264, R416, Table 7-1). -/

namespace Sys2Proof.Machine

/-- What a reset leaves of the pass instructions at a CC. -/
def CcSt.passState (k : CcSt) : List PassReq × List PassReq × Option Active × Bool := (k.queue, k.ingress, k.active, k.pim)

/-- The status of resets; the other registers of the low blocks are no affair of a reset. -/
def rstWord : Nat := hostB + FLT_RST_STAT_DONE.off

/-- From `s` to `u` tiles that `p` names are reset, or on the way there: what a reset leaves of the rest of the card. -/
structure Undisturbed (p : Nat → Prop) (s u : State) : Prop where
  mem     : u.mem = s.mem
  reports : s.reports <+: u.reports
  halted  : ∀ n, s.isRunning n = false → u.isRunning n = false
  words   : ∀ o < chorusB, o ≠ rstWord → u.word o = s.word o
  host    : u.host = { s.host with reads := u.host.reads, waiting := u.host.waiting, stalled := u.host.stalled, snoops := u.host.snoops, answered := u.host.answered }
  passes  : ∀ c, (u.cc c).passState = (s.cc c).passState
  recsOut : ∀ r ∈ u.recsOut, r ∈ s.recsOut
  tsc     : u.tsc = s.tsc
  kept    : ∀ k, ¬ p k → (u.tile k).afterReset = (s.tile k).afterReset
  idle    : ∀ k, ¬ p k → (s.tile k).engs = [] → u.tile k = s.tile k ∧ ∀ o < 0x8000, u.word (tileB k + o) = s.word (tileB k + o)

namespace Undisturbed
variable {p q : Nat → Prop} {s u v : State}

theorem refl (p : Nat → Prop) (s : State) : Undisturbed p s s :=
  ⟨rfl, List.prefix_refl _, fun _ h => h, fun _ _ _ => rfl, rfl, fun _ => rfl, fun _ h => h, rfl, fun _ _ => rfl, fun _ _ _ => ⟨rfl, fun _ _ => rfl⟩⟩

theorem trans (h : Undisturbed p s u) (g : Undisturbed p u v) : Undisturbed p s v := by
  refine ⟨g.mem.trans h.mem, h.reports.trans g.reports, fun n stopped => g.halted n (h.halted n stopped), fun o low other => (g.words o low other).trans (h.words o low other),
    g.host.trans (by rw [h.host]), fun c => (g.passes c).trans (h.passes c), fun r listed => h.recsOut r (g.recsOut r listed), g.tsc.trans h.tsc, fun k other => (g.kept k other).trans (h.kept k other), fun k other empty => ?_⟩
  obtain ⟨tile, words⟩ := h.idle k other empty
  obtain ⟨tile', words'⟩ := g.idle k other (tile ▸ empty)
  exact ⟨tile'.trans tile, fun o window => (words' o window).trans (words o window)⟩

theorem mono (h : Undisturbed p s u) (more : ∀ k, p k → q k) : Undisturbed q s u :=
  ⟨h.mem, h.reports, h.halted, h.words, h.host, h.passes, h.recsOut, h.tsc, fun k other => h.kept k fun mine => other (more k mine), fun k other => h.idle k fun mine => other (more k mine)⟩

theorem of_shaken (h : Shaken (fun _ => False) s u) : Undisturbed p s u := by
  have rest := h.rest
  have ccs : u.ccs = s.ccs := by rw [rest]
  have cc (c : Nat) : u.cc c = s.cc c := by rw [State.cc, ccs, State.cc]
  exact ⟨by rw [rest], h.reports, h.halted, fun o low _ => h.words o low, by rw [rest], fun c => by rw [cc], by rw [rest]; exact fun _ h => h, by rw [rest], fun k _ => h.kept k, fun k _ => h.idle k not_false⟩

theorem of_halts (h : Halts s u) : Undisturbed p s u := of_shaken (.of_halts h)

/-- A change of registers of tiles that are reset. -/
theorem of_window {t : Nat} (mine : p t) (rest : u = { s with regs := u.regs, reports := u.reports }) (reports : s.reports <+: u.reports) (words : ∀ o, (∀ w < 0x8000, o ≠ tileB t + w) → u.word o = s.word o) :
    Undisturbed p s u := by
  have tiles : u.tiles = s.tiles := by rw [rest]
  have tile (k : Nat) : u.tile k = s.tile k := by rw [State.tile, tiles, State.tile]
  have rings : u.rings = s.rings := by rw [rest]
  have ccs : u.ccs = s.ccs := by rw [rest]
  refine ⟨by rw [rest], reports, fun n stopped => ?_, fun o low _ => words o fun w _ same => ?_, by rw [rest], fun c => ?_, by rw [rest]; exact fun _ h => h, by rw [rest], fun k _ => by rw [tile],
    fun k other _ => ⟨tile k, fun o window => words _ fun w window' same => other ?_⟩⟩
  · rw [State.isRunning, State.ring, rings]
    exact stopped
  · unfold tileB at same
    unfold chorusB at low
    omega
  · rw [State.cc, ccs]
    rfl
  · have : k = t := by
      unfold tileB at same
      omega
    exact this ▸ mine

theorem countT {t : Nat} (mine : p t) (s : State) (f : Fld) (n : Nat) (window : f.off < 0x8000) : Undisturbed p s (s.countT t f n) := by
  have counted := countT_counted s t f n
  exact of_window mine counted.rest counted.reports fun o apart => counted.words o fun listed => apart f.off window (List.mem_singleton.mp listed)

theorem countLines {t : Nat} (mine : p t) (s : State) (f : Fld) (n : Nat) (window : f.off < 0x8000) : Undisturbed p s (s.countLines t f n) := by
  unfold State.countLines
  split
  · exact countT mine s f n window
  · exact .refl p s

/-- A tile that is reset changes. -/
theorem modTile {t : Nat} (mine : p t) (s : State) (f : Tile → Tile) : Undisturbed p s (s.modTile t f) := by
  have other {k : Nat} (h : ¬ p k) : (s.modTile t f).tile k = s.tile k := State.modTile_tile_ne _ _ _ _ fun same => h (same ▸ mine)
  exact ⟨rfl, List.prefix_refl _, fun _ h => h, fun _ _ _ => rfl, rfl, fun _ => rfl, fun _ h => h, rfl, fun k h => by rw [other h], fun k h _ => ⟨other h, fun _ _ => rfl⟩⟩

/-- The host interface forgets requests. -/
theorem hostForgets {h : HostSt} (rest : h = { s.host with reads := h.reads, waiting := h.waiting, stalled := h.stalled, snoops := h.snoops, answered := h.answered }) : Undisturbed p s { s with host := h } :=
  ⟨rfl, List.prefix_refl _, fun _ h => h, fun _ _ _ => rfl, rest, fun _ => rfl, fun _ h => h, rfl, fun _ _ => rfl, fun _ _ _ => ⟨rfl, fun _ _ => rfl⟩⟩

/-- A CC keeps its pass instructions. -/
theorem setCc {c : Nat} {k : CcSt} (same : k.passState = (s.cc c).passState) : Undisturbed p s (s.setCc c k) := by
  refine ⟨rfl, List.prefix_refl _, fun _ h => h, fun _ _ _ => rfl, rfl, fun d => ?_, fun _ h => h, rfl, fun _ _ => rfl, fun _ _ _ => ⟨rfl, fun _ _ => rfl⟩⟩
  by_cases own : d = c
  · rw [own, State.setCc_cc, same]
  · rw [State.setCc_cc_ne _ _ _ _ own]

/-- Stream records on their way are lost. -/
theorem loseRecords {l : List (Nat × SRec)} (fewer : ∀ r ∈ l, r ∈ s.recsOut) : Undisturbed p s { s with recsOut := l } :=
  ⟨rfl, List.prefix_refl _, fun _ h => h, fun _ _ _ => rfl, rfl, fun _ => rfl, fewer, rfl, fun _ _ => rfl, fun _ _ _ => ⟨rfl, fun _ _ => rfl⟩⟩

/-- The status of resets changes. -/
theorem wrStatus (s : State) (f : Fld) (v : Nat) (status : f.off = FLT_RST_STAT_DONE.off) : Undisturbed p s (s.wr hostB f v) := by
  refine ⟨rfl, List.prefix_refl _, fun _ h => h, fun o _ other => State.wr_word_ne s _ o f v fun same => other ?_, rfl, fun _ => rfl, fun _ h => h, rfl, fun _ _ => rfl,
    fun k _ _ => ⟨rfl, fun o _ => State.wr_word_ne s _ _ f v fun same => ?_⟩⟩
  · rw [same, status, rstWord]
  · have off : FLT_RST_STAT_DONE.off = 0x6038 := rfl
    rw [status, off] at same
    unfold tileB hostB at same
    omega

theorem emit (s : State) (src code : Nat) (data : List Nat) : Undisturbed p s (s.emit src code data) := of_halts (.emit s src code data)

theorem rd (h : Undisturbed p s u) {b : Nat} {f : Fld} (low : b + f.off < chorusB) (other : b + f.off ≠ rstWord) : u.rd b f = s.rd b f := State.rd_of_word (h.words _ low other)

end Undisturbed

/-! ### Semaphores, stream counters and the fault (R263, R341, R344) -/

/-- The semaphores and stream counters of tile `t` are 0, and it has no fault. -/
def State.Synced (s : State) (t : Nat) : Prop := (∀ k < 32, s.sem t k = 0) ∧ (∀ i < 16, s.scP t i = 0 ∧ s.scC t i = 0) ∧ s.faulted t = false

theorem State.Synced.of_words {s u : State} {t : Nat} (h : s.Synced t) (same : ∀ o < 0x8000, u.word (tileB t + o) = s.word (tileB t + o)) : u.Synced t := by
  obtain ⟨sems, counters, well⟩ := h
  have rd (f : Fld) (window : f.off < 0x8000) : u.rd (tileB t) f = s.rd (tileB t) f := State.rd_of_word (same _ window)
  refine ⟨fun k small => (rd _ ?_).trans (sems k small), fun i small => ⟨(rd _ ?_).trans (counters i small).1, (rd _ ?_).trans (counters i small).2⟩, ?_⟩
  · show 0xC00 + 8 * k < 0x8000
    omega
  · show 0xE00 + 16 * i < 0x8000
    omega
  · show 0xE00 + 16 * i < 0x8000
    omega
  · unfold State.faulted State.flag at well ⊢
    rw [rd TILE_FAULT_VALID (by decide)]
    exact well

/-- From `s` to `u` registers of tile `t` change alone. -/
structure InWindow (t : Nat) (s u : State) : Prop where
  rest  : u = { s with regs := u.regs }
  words : ∀ o, (∀ w < 0x8000, o ≠ tileB t + w) → u.word o = s.word o

theorem InWindow.refl (t : Nat) (s : State) : InWindow t s s := ⟨rfl, fun _ _ => rfl⟩
theorem InWindow.trans {t : Nat} {s u v : State} (h : InWindow t s u) (g : InWindow t u v) : InWindow t s v := ⟨g.rest.trans (by rw [h.rest]), fun o apart => (g.words o apart).trans (h.words o apart)⟩
theorem InWindow.setWord (t : Nat) (s : State) {o : Nat} (v : Nat) (window : o < 0x8000) : InWindow t s (s.setWord (tileB t + o) v) := ⟨rfl, fun k apart => State.setWord_word_ne s _ k v (apart o window)⟩
theorem InWindow.wr (t : Nat) (s : State) (f : Fld) (v : Nat) (window : f.off < 0x8000) : InWindow t s (s.wr (tileB t) f v) := ⟨rfl, fun o apart => State.wr_word_ne s _ o f v (apart f.off window)⟩

/-- Semaphores below `n` return to 0. -/
theorem upto_setSem (s : State) (t n : Nat) (few : n ≤ 32) :
    let u := upto n (fun k (a : State) => a.setSem t k 0) s
    InWindow t s u ∧ ∀ k < n, u.sem t k = 0 := by
  induction n with
  | zero => exact ⟨.refl t s, fun k none => absurd none (Nat.not_lt_zero k)⟩
  | succ n ih =>
    obtain ⟨inside, cleared⟩ := ih (Nat.le_of_succ_le few)
    dsimp only
    rw [upto_succ]
    generalize upto n _ s = u at *
    refine ⟨inside.trans (.wr t u _ 0 (by show 0xC00 + 8 * n < 0x8000; omega)), fun k small => ?_⟩
    by_cases last : k = n
    · rw [last]
      exact State.rd_wr_same u _ _ 0 (by decide : 0 + 8 ≤ 64)
    · refine (State.rd_wr_apart u (tileB t) 0 (by decide : 0 + 8 ≤ 64) (.inl ?_)).trans (cleared k (by omega))
      show 0xC00 + 8 * n ≠ 0xC00 + 8 * k
      omega

/-- Stream counters below `n` return to 0. -/
theorem upto_clearCounter (s : State) (t n : Nat) (few : n ≤ 16) :
    let u := upto n (fun i (a : State) => (a.wr (tileB t) (TILE_SC_PC_P.at (16 * i)) 0).wr (tileB t) (TILE_SC_PC_C.at (16 * i)) 0) s
    InWindow t s u ∧ (∀ i < n, u.scP t i = 0 ∧ u.scC t i = 0) ∧ ∀ k < 32, u.sem t k = s.sem t k := by
  induction n with
  | zero => exact ⟨.refl t s, fun i none => absurd none (Nat.not_lt_zero i), fun _ _ => rfl⟩
  | succ n ih =>
    obtain ⟨inside, cleared, sems⟩ := ih (Nat.le_of_succ_le few)
    dsimp only
    rw [upto_succ]
    generalize upto n _ s = u at *
    have window : 0xE00 + 16 * n < 0x8000 := by omega
    have fits : (TILE_SC_PC_P.at (16 * n)).lo + (TILE_SC_PC_P.at (16 * n)).w ≤ 64 := by show 0 + 32 ≤ 64; decide
    have fits' : (TILE_SC_PC_C.at (16 * n)).lo + (TILE_SC_PC_C.at (16 * n)).w ≤ 64 := by show 32 + 32 ≤ 64; decide
    have elsewhere (g : Fld) (apart : 0xE00 + 16 * n ≠ g.off) : ((u.wr (tileB t) (TILE_SC_PC_P.at (16 * n)) 0).wr (tileB t) (TILE_SC_PC_C.at (16 * n)) 0).rd (tileB t) g = u.rd (tileB t) g :=
      (State.rd_wr_apart _ _ _ fits' (.inl apart)).trans (State.rd_wr_apart _ _ _ fits (.inl apart))
    refine ⟨(inside.trans (.wr t u (TILE_SC_PC_P.at (16 * n)) 0 window)).trans (.wr t _ (TILE_SC_PC_C.at (16 * n)) 0 window), fun i small => ?_, fun k small => ?_⟩
    · by_cases last : i = n
      · rw [last]
        refine ⟨(State.rd_wr_apart _ _ _ fits' (.inr (.inl ?_))).trans (State.rd_wr_same u _ _ 0 fits), State.rd_wr_same _ _ _ 0 fits'⟩
        show 0 + 32 ≤ 32
        decide
      · have apart : 0xE00 + 16 * n ≠ 0xE00 + 16 * i := by omega
        obtain ⟨p, c⟩ := cleared i (by omega)
        exact ⟨(elsewhere (TILE_SC_PC_P.at (16 * i)) apart).trans p, (elsewhere (TILE_SC_PC_C.at (16 * i)) apart).trans c⟩
    · have apart : 0xE00 + 16 * n ≠ 0xC00 + 8 * k := by omega
      exact (elsewhere (TILE_SEM_COUNT.at (8 * k)) apart).trans (sems k small)

/-- Semaphores, stream counters and the fault of a tile are cleared. -/
theorem clearSync_syncs (s : State) (t : Nat) :
    let u := (s.clearSync t).setWord (tileB t + TILE_FAULT_VALID.off) 0
    InWindow t s u ∧ u.Synced t := by
  obtain ⟨inside, sems⟩ := upto_setSem s t 32 (by decide)
  obtain ⟨inside', counters, sems'⟩ := upto_clearCounter (upto 32 (fun k (a : State) => a.setSem t k 0) s) t 16 (by decide)
  unfold State.clearSync
  dsimp only at *
  generalize upto 32 _ s = u at *
  generalize upto 16 _ u = v at *
  have other (o : Nat) (apart : o ≠ TILE_FAULT_VALID.off) : (v.setWord (tileB t + TILE_FAULT_VALID.off) 0).word (tileB t + o) = v.word (tileB t + o) := State.setWord_word_ne v _ _ 0 fun same => apart (Nat.add_left_cancel same)
  have last : InWindow t v (v.setWord (tileB t + TILE_FAULT_VALID.off) 0) := .setWord t v 0 (by decide)
  refine ⟨(inside.trans inside').trans last, fun k small => ?_, fun i small => ?_, ?_⟩
  · refine (State.rd_of_word (other _ ?_)).trans ((sems' k small).trans (sems k small))
    show 0xC00 + 8 * k ≠ 0x838
    omega
  · have apart : (TILE_SC_PC_P.at (16 * i)).off ≠ TILE_FAULT_VALID.off := by
      show 0xE00 + 16 * i ≠ 0x838
      omega
    exact ⟨(State.rd_of_word (other _ apart)).trans (counters i small).1, (State.rd_of_word (f := TILE_SC_PC_C.at (16 * i)) (other _ apart)).trans (counters i small).2⟩
  · unfold State.faulted State.flag State.rd
    rw [State.setWord_word]
    rfl

/-! ### The reset of a tile (R264) -/

/-- STREAMs on a tile and on their way to it complete with ABORTED. -/
theorem abortStreams_aborts (s : State) (t detail : Nat) : Halts { s with recsOut := s.recsOut.filter (fun r => decide (r.1 ≠ t)) } (s.abortStreams t detail) := by
  unfold State.abortStreams
  dsimp only
  exact foldl_keeps (Halts _) _ _ _ (.refl _) fun a r h => h.trans (completeDesc_halts ..)

/-- Reads whose data are discarded leave the pass instructions. -/
theorem orphanReads_passes (s : State) (q : ReadUser → Bool) : s.orphanReads q = { s with ccs := (s.orphanReads q).ccs } ∧ ∀ c, ((s.orphanReads q).cc c).passState = (s.cc c).passState := by
  refine foldl_keeps (fun u : State => u = { s with ccs := u.ccs } ∧ ∀ c, (u.cc c).passState = (s.cc c).passState) _ _ s ⟨rfl, fun _ => rfl⟩ fun u c ⟨rest, same⟩ => ⟨by rw [rest]; rfl, fun d => ?_⟩
  by_cases own : d = c
  · rw [own, State.setCc_cc]
    exact same c
  · rw [State.setCc_cc_ne _ _ _ _ own]
    exact same d

theorem Tile.afterReset_emptied (x : Tile) : x.emptied.afterReset = x.afterReset := by
  unfold Tile.emptied Tile.afterReset
  rw [List.map_map]
  rfl

/-- A tile that is held in reset, in its reset state. -/
def Tile.cleared (x : Tile) (held : Bool) : Tile := { x.afterReset with inReset := held }

/-- From `s` to `u` the tiles of `l` are reset, and held in reset or not. -/
structure Cleared (held : Bool) (l : List Nat) (s u : State) : Prop where
  rest    : Undisturbed (· ∈ l) s u
  own     : ∀ t ∈ l, u.tile t = (s.tile t).cleared held ∧ u.Synced t
  recsOut : ∀ r ∈ u.recsOut, r.1 ∉ l

/-- A further reset leaves tiles that have been reset. -/
theorem Cleared.append {held : Bool} {l m : List Nat} {s u v : State} (h : Cleared held l s u) (g : Cleared held m u v) (apart : ∀ t ∈ l, t ∉ m) : Cleared held (l ++ m) s v := by
  refine ⟨(h.rest.mono fun k => List.mem_append_left m).trans (g.rest.mono fun k => List.mem_append_right l), fun t listed => ?_, fun r listed => ?_⟩
  · by_cases first : t ∈ l
    · obtain ⟨tile, synced⟩ := h.own t first
      obtain ⟨tile', words⟩ := g.rest.idle t (apart t first) (by rw [tile]; rfl)
      exact ⟨tile'.trans tile, synced.of_words words⟩
    · obtain ⟨tile, synced⟩ := g.own t ((List.mem_append.mp listed).resolve_left first)
      refine ⟨tile.trans ?_, synced⟩
      rw [Tile.cleared, h.rest.kept t first, Tile.cleared]
  · rw [List.mem_append, not_or]
    exact ⟨h.recsOut r (g.rest.recsOut r listed), g.recsOut r listed⟩

theorem countLines_tile (s : State) (t : Nat) (f : Fld) (n k : Nat) : (s.countLines t f n).tile k = s.tile k := by
  unfold State.countLines
  split
  · exact (countT_counted s t f n).tile k
  · rfl

/-- The tile forgets its lines, and its counters say what they were worth (R224). -/
def State.forgetLines (s : State) (t : Nat) : State :=
  (((s.invalidate t).modTile t Tile.afterReset).countLines t (TILE_PFS_COUNT.at 0x18) (s.tile t).wasted).countLines t (TILE_PFS_COUNT.at 8) (s.tile t).usedLines

theorem forgetLines_forgets {p : Nat → Prop} (s : State) {t : Nat} (mine : p t) : Undisturbed p s (s.forgetLines t) ∧ (s.forgetLines t).tile t = (s.tile t).afterReset := by
  obtain ⟨step, -⟩ := invalidate_emptied s t
  have tile := step.tile
  have emptied : Undisturbed p s (s.invalidate t) := by
    unfold State.invalidate
    dsimp only
    split
    · exact .modTile mine s _
    · exact (Undisturbed.modTile mine s _).trans (.countT mine _ (TILE_PFM_COUNT.at 0x18) _ (by decide))
  refine ⟨((emptied.trans (.modTile mine _ Tile.afterReset)).trans (.countLines mine _ _ _ (by decide))).trans (.countLines mine _ _ _ (by decide)), ?_⟩
  unfold State.forgetLines
  rw [countLines_tile, countLines_tile, State.modTile_tile, tile, Tile.afterReset_emptied]

/-- No unit waits for an answer to the tile any more. -/
def State.forgetRequests (s : State) (t : Nat) : State := ((s.dropReads (fun r => r.user.ofTile t)).forgetTile t).orphanReads (ReadUser.ofTile t)

theorem forgetRequests_undisturbed (p : Nat → Prop) (s : State) (t : Nat) : Undisturbed p s (s.forgetRequests t) ∧ (s.forgetRequests t).tiles = s.tiles := by
  have forgets : Undisturbed p s ((s.dropReads (fun r => r.user.ofTile t)).forgetTile t) := .hostForgets rfl
  have tiles : ((s.dropReads (fun r => r.user.ofTile t)).forgetTile t).tiles = s.tiles := rfl
  unfold State.forgetRequests
  generalize (s.dropReads (fun r => r.user.ofTile t)).forgetTile t = u at *
  obtain ⟨rest, passes⟩ := orphanReads_passes u (ReadUser.ofTile t)
  refine ⟨forgets.trans ?_, (congrArg State.tiles rest).trans tiles⟩
  have tile (k : Nat) : (u.orphanReads (ReadUser.ofTile t)).tile k = u.tile k := by rw [rest]; rfl
  have word (o : Nat) : (u.orphanReads (ReadUser.ofTile t)).word o = u.word o := by rw [rest]; rfl
  exact ⟨by rw [rest], by rw [rest], fun n stopped => by rw [rest]; exact stopped, fun o _ _ => word o, by rw [rest], passes, fun r listed => by rw [rest] at listed; exact listed, by rw [rest],
    fun k _ => by rw [tile], fun k _ _ => ⟨tile k, fun o _ => word _⟩⟩

theorem resetTile_eq (s : State) (t reason detail : Nat) :
    s.resetTile t reason detail = ((((((s.holdTile t).breakGroups t reason).abortStreams t detail).forgetLines t).forgetRequests t).clearSync t).setWord (tileB t + TILE_FAULT_VALID.off) 0 := rfl

theorem resetTile_clears (s : State) (t reason detail : Nat) : Cleared true [t] s (s.resetTile t reason detail) := by
  have mine : t ∈ [t] := List.mem_singleton_self t
  have held : Undisturbed (· ∈ [t]) s (s.holdTile t) := .modTile mine s _
  have heldTile : (s.holdTile t).tile t = { s.tile t with inReset := true } := State.modTile_tile ..
  rw [resetTile_eq]
  have broken := breakGroups_shaken (s.holdTile t) t reason
  generalize (s.holdTile t).breakGroups t reason = b at *
  have aborted := abortStreams_aborts b t detail
  have gone : Undisturbed (· ∈ [t]) b { b with recsOut := b.recsOut.filter (fun r => decide (r.1 ≠ t)) } := .loseRecords fun r listed => (List.mem_filter.mp listed).1
  generalize b.abortStreams t detail = c at *
  have abortedTile : c.tile t = b.tile t := by rw [aborted.rest]; rfl
  have abortedRecs : c.recsOut = b.recsOut.filter (fun r => decide (r.1 ≠ t)) := by rw [aborted.rest]
  obtain ⟨forgets, forgetTile⟩ := forgetLines_forgets (p := (· ∈ [t])) c mine
  generalize c.forgetLines t = d at *
  obtain ⟨asks, asksTiles⟩ := forgetRequests_undisturbed (· ∈ [t]) d t
  generalize d.forgetRequests t = f at *
  obtain ⟨inside, synced⟩ := clearSync_syncs f t
  generalize (f.clearSync t).setWord (tileB t + TILE_FAULT_VALID.off) 0 = g at *
  have tiles : g.tiles = f.tiles := by rw [inside.rest]
  have reports : g.reports = f.reports := by rw [inside.rest]
  have cleared : Undisturbed (· ∈ [t]) f g := .of_window mine (inside.rest.trans (by rw [reports])) (by rw [reports]) inside.words
  have after : Undisturbed (· ∈ [t]) c g := (forgets.trans asks).trans cleared
  refine ⟨(((held.trans (.of_shaken broken)).trans gone).trans (.of_halts aborted)).trans after, fun k listed => ?_, fun r listed => ?_⟩
  · rw [List.mem_singleton.mp listed]
    refine ⟨?_, synced⟩
    rw [State.tile, tiles, asksTiles]
    refine forgetTile.trans ?_
    rw [abortedTile, broken.kept t, heldTile]
    rfl
  · have left := after.recsOut r listed
    rw [abortedRecs] at left
    rw [List.mem_singleton]
    exact of_decide_eq_true (List.mem_filter.mp left).2

/-- Several tiles are reset one after another. -/
theorem foldl_resetTile_clears (reason detail : Nat) (l : List Nat) (once : l.Nodup) : ∀ s : State, Cleared true l s (l.foldl (fun (a : State) t => a.resetTile t reason detail) s) := by
  induction l with
  | nil => exact fun s => ⟨.refl _ s, fun _ none => absurd none List.not_mem_nil, fun _ _ => List.not_mem_nil⟩
  | cons t l ih =>
    obtain ⟨new, once⟩ := List.nodup_cons.mp once
    intro s
    have first := resetTile_clears s t reason detail
    rw [List.foldl_cons, ← List.singleton_append]
    generalize s.resetTile t reason detail = u at *
    exact first.append (ih once u) fun k own => by rw [List.mem_singleton.mp own]; exact new

end Sys2Proof.Machine
end

section
/-! Resets of a tile and of a partition, from the halt of their rings to the last step (R416). -/

namespace Sys2Proof.Machine

/-! ### What a reset reads of the floor plan and the partitions -/

/-- The registers of floor plan, partitions and rings read the same. -/
def SamePlan (s u : State) : Prop := ∀ o < hostB + 0x6000, u.word o = s.word o

namespace SamePlan
variable {s u : State} (h : SamePlan s u)
include h

theorem rd {b : Nat} {f : Fld} (plan : b + f.off < hostB + 0x6000) : u.rd b f = s.rd b f := State.rd_of_word (h _ plan)

theorem enabled (t : Nat) : u.enabled t = s.enabled t := by
  unfold State.enabled
  by_cases site : isSite t = true
  · have small := (of_decide_eq_true site).1
    have off : (FP_TILES_TILES.at (8 * (t / 64))).off = 0x100 + 8 * (t / 64) := rfl
    rw [h.rd (by unfold cardB hostB; omega)]
  · rw [Bool.eq_false_of_not_eq_true site, Bool.false_and, Bool.false_and]

theorem tileOwner {t : Nat} (small : t < 512) : u.tileOwner t = s.tileOwner t := by
  have same (k : Nat) (few : k ∈ List.range 8) : u.partHasTile k t = s.partHasTile k t := by
    have below := List.mem_range.mp few
    have off : (HOST_PART_TILES_TILES.at (0x40 * k + 8 * (t / 64))).off = 0x100 + (0x40 * k + 8 * (t / 64)) := rfl
    unfold State.partHasTile
    rw [h.rd (by omega)]
  unfold State.tileOwner
  rw [List.find?_congr same]

theorem stackOwner (i : Nat) : u.stackOwner i = s.stackOwner i := by
  have same (k : Nat) (few : k ∈ List.range 8) : u.partHasStack k i = s.partHasStack k i := by
    have below := List.mem_range.mp few
    have off : (HOST_PART_STACKS_STACKS.at (8 * k)).off = 0x70 + 8 * k := rfl
    unfold State.partHasStack
    rw [h.rd (by omega)]
  unfold State.stackOwner
  rw [List.find?_congr same]

theorem ringOwner {n : Nat} (small : n < 64) : u.ringOwner n = s.ringOwner n := by
  have off : (RING_CFG_OWNER.at (0x40 * n)).off = 0x4010 + 0x40 * n := rfl
  exact h.rd (by omega)

theorem partTiles (k : Nat) : u.partTiles k = s.partTiles k := by
  refine List.filter_congr fun t listed => ?_
  have small : t < 512 := List.mem_range.mp (List.mem_filter.mp listed).1
  rw [h.enabled, h.tileOwner small]

theorem partChans (k : Nat) : u.partChans k = s.partChans k :=
  List.filter_congr fun c _ => by rw [h.stackOwner]

end SamePlan

theorem Undisturbed.plan {p : Nat → Prop} {s u : State} (h : Undisturbed p s u) : SamePlan s u := fun o below => by
  have status : rstWord = 0x106038 := rfl
  exact h.words o (by unfold chorusB; unfold hostB at below; omega) (by unfold hostB at below; omega)

theorem Undisturbed.holdsTiles {p : Nat → Prop} {s u : State} (h : Undisturbed p s u) : u.holdsTiles = s.holdsTiles := by
  unfold State.holdsTiles State.flag
  rw [h.rd (by decide) (by decide), h.host]

theorem partTiles_nodup (s : State) (k : Nat) : (s.partTiles k).Nodup := (List.nodup_range.filter _).filter _

theorem mem_partTiles (s : State) (k t : Nat) : t ∈ s.partTiles k ↔ s.enabled t = true ∧ s.tileOwner t = k := by
  have site (enabled : s.enabled t = true) : t ∈ sites := by
    unfold State.enabled at enabled
    rw [Bool.and_eq_true] at enabled
    exact List.mem_filter.mpr ⟨List.mem_range.mpr (of_decide_eq_true enabled.1).1, enabled.1⟩
  unfold State.partTiles
  rw [List.mem_filter, Bool.and_eq_true, decide_eq_true_eq]
  exact ⟨fun ⟨_, own⟩ => own, fun own => ⟨site own.1, own⟩⟩

/-! ### Tiles enter and leave reset -/

/-- From `s` to `u` the tiles of `l` become what `f` makes of them, and nothing else changes. -/
structure TilesSet (l : List Nat) (f : Tile → Tile) (s u : State) : Prop where
  rest   : u = { s with tiles := u.tiles }
  own    : ∀ t ∈ l, u.tile t = f (s.tile t)
  others : ∀ t ∉ l, u.tile t = s.tile t

theorem TilesSet.undisturbed {p : Nat → Prop} {l : List Nat} {f : Tile → Tile} {s u : State} (h : TilesSet l f s u) (mine : ∀ t ∈ l, p t) : Undisturbed p s u := by
  have rest := h.rest
  have other {k : Nat} (out : ¬ p k) : u.tile k = s.tile k := h.others k fun listed => out (mine k listed)
  have word (o : Nat) : u.word o = s.word o := by rw [rest]; rfl
  exact ⟨by rw [rest], by rw [rest], fun n stopped => by rw [rest]; exact stopped, fun o _ _ => word o, by rw [rest], fun c => by rw [rest]; rfl, fun r listed => by rw [rest] at listed; exact listed, by rw [rest],
    fun k out => by rw [other out], fun k out _ => ⟨other out, fun o _ => word _⟩⟩

/-- Tiles one after another, once each. -/
theorem foldl_modTile_sets (f : Tile → Tile) (l : List Nat) (once : l.Nodup) : ∀ s : State, TilesSet l f s (l.foldl (fun (a : State) t => a.modTile t f) s) := by
  induction l with
  | nil => exact fun s => ⟨rfl, fun _ none => absurd none List.not_mem_nil, fun _ _ => rfl⟩
  | cons t l ih =>
    obtain ⟨new, once⟩ := List.nodup_cons.mp once
    intro s
    rw [List.foldl_cons]
    obtain ⟨rest, own, others⟩ := ih once (s.modTile t f)
    refine ⟨rest.trans rfl, fun k listed => ?_, fun k out => ?_⟩
    · rcases List.mem_cons.mp listed with same | later
      · rw [same, others t new, State.modTile_tile]
      · have apart : k ≠ t := fun same => new (same ▸ later)
        rw [own k later, State.modTile_tile_ne _ _ _ _ apart]
    · rw [List.mem_cons, not_or] at out
      rw [others k out.2, State.modTile_tile_ne _ _ _ _ out.1]

/-- A tile in reset. -/
def Tile.enter (x : Tile) : Tile := { x with inReset := true }
/-- A tile out of reset. -/
def Tile.leave (x : Tile) : Tile := { x with inReset := false }

/-- Enabled tiles leave reset unless something holds every tile there. -/
theorem foldl_freeTile (l : List Nat) : ∀ s : State, (∀ t ∈ l, s.enabled t = true) →
    l.foldl State.freeTile s = if s.holdsTiles then s else l.foldl (fun (a : State) t => a.modTile t Tile.leave) s := by
  induction l with
  | nil => exact fun s _ => (ite_self s).symm
  | cons t l ih =>
    intro s enabled
    have first : s.freeTile t = if s.holdsTiles then s else s.modTile t Tile.leave := by
      unfold State.freeTile
      rw [enabled t (List.mem_cons_self ..)]
      cases s.holdsTiles <;> rfl
    have later (u : State) (same : ∀ k, u.enabled k = s.enabled k) : ∀ k ∈ l, u.enabled k = true := fun k listed => (same k).trans (enabled k (List.mem_cons_of_mem _ listed))
    rw [List.foldl_cons, List.foldl_cons, first]
    cases held : s.holdsTiles with
    | true =>
      have rest := ih s (later s fun _ => rfl)
      rw [held] at rest
      exact rest
    | false =>
      have stays : (s.modTile t Tile.leave).holdsTiles = false := held
      have rest := ih (s.modTile t Tile.leave) (later _ fun _ => rfl)
      rw [stays] at rest
      exact rest

/-- Tiles that have been reset leave reset. -/
theorem Cleared.frees {l : List Nat} {s u : State} (h : Cleared true l s u) (once : l.Nodup) (enabled : ∀ t ∈ l, s.enabled t = true) : Cleared s.holdsTiles l s (l.foldl State.freeTile u) := by
  obtain ⟨rest, own, recsOut⟩ := h
  rw [foldl_freeTile l u fun t listed => (rest.plan.enabled t).trans (enabled t listed), rest.holdsTiles]
  cases s.holdsTiles with
  | true => exact ⟨rest, own, recsOut⟩
  | false =>
    have set := foldl_modTile_sets Tile.leave l once u
    have word (o : Nat) : (l.foldl (fun (a : State) t => a.modTile t Tile.leave) u).word o = u.word o := by rw [set.rest]; rfl
    have recs : (l.foldl (fun (a : State) t => a.modTile t Tile.leave) u).recsOut = u.recsOut := by rw [set.rest]
    refine ⟨rest.trans (set.undisturbed fun _ listed => listed), fun t listed => ?_, fun r listed => recsOut r (recs ▸ listed)⟩
    obtain ⟨tile, synced⟩ := own t listed
    exact ⟨(set.own t listed).trans (by rw [tile]; rfl), synced.of_words fun o _ => word _⟩

/-- What follows the resets of tiles, and leaves the tiles, leaves them reset. -/
theorem Cleared.trans {held : Bool} {l : List Nat} {s u v : State} (h : Cleared held l s u) (g : Undisturbed (fun _ => False) u v) : Cleared held l s v := by
  refine ⟨h.rest.trans (g.mono fun _ => False.elim), fun t listed => ?_, fun r listed => h.recsOut r (g.recsOut r listed)⟩
  obtain ⟨tile, synced⟩ := h.own t listed
  obtain ⟨same, words⟩ := g.idle t not_false (by rw [tile]; rfl)
  exact ⟨same.trans tile, synced.of_words words⟩

/-- What precedes the resets of tiles, but for their entry into reset, leaves what they keep. -/
theorem Cleared.after {held : Bool} {l : List Nat} {s u v : State} (g : Undisturbed (· ∈ l) s u) (kept : ∀ t ∈ l, (u.tile t).cleared held = (s.tile t).cleared held) (h : Cleared held l u v) : Cleared held l s v :=
  ⟨g.trans h.rest, fun t listed => ⟨(h.own t listed).1.trans (kept t listed), (h.own t listed).2⟩, h.recsOut⟩

/-! ### Rings halt, and then tiles are reset -/

/-- Tiles enter reset, rings halt for a cut, and the tiles are reset. -/
def State.haltAndReset (s : State) (l rings : List Nat) (trigger src cause reason detail : Nat) : State :=
  l.foldl (fun (a : State) t => a.resetTile t reason detail) ((l.foldl State.holdTile s).haltAndCut trigger src cause rings)

theorem haltAndReset_clears (s : State) {l : List Nat} (once : l.Nodup) (rings : List Nat) (trigger src cause reason detail : Nat) :
    let u := s.haltAndReset l rings trigger src cause reason detail
    Cleared true l s u ∧ ∀ n < 64, n ∈ rings → u.isRunning n = false := by
  have held := foldl_modTile_sets Tile.enter l once s
  obtain ⟨halts, stopped⟩ := haltAndCut_halts (l.foldl State.holdTile s) trigger src cause rings
  unfold State.haltAndReset
  dsimp only
  change TilesSet l _ s (l.foldl State.holdTile s) at held
  generalize l.foldl State.holdTile s = u at *
  generalize u.haltAndCut trigger src cause rings = v at *
  have cleared := foldl_resetTile_clears reason detail l once v
  refine ⟨.after ((held.undisturbed fun _ listed => listed).trans (.of_halts halts)) (fun t listed => ?_) cleared, fun n small listed => cleared.rest.halted n (stopped n small listed)⟩
  have same : v.tile t = u.tile t := by rw [halts.rest]; rfl
  rw [same, held.own t listed]
  rfl

end Sys2Proof.Machine
end

section
/-! Tile and partition resets as a whole (R416), in any state and where no pass runs. -/

namespace Sys2Proof.Machine

/-- A reset ends with its status and event. -/
theorem resetDone_says (p : Nat → Prop) (s : State) (kind id : Nat) :
    let u := s.resetDone kind id
    Undisturbed p s u ∧ s.report ringSrc 0x068C [kind, id] ∈ u.reports ∧ u.flag hostB FLT_RST_STAT_DONE = true := by
  refine ⟨(Undisturbed.wrStatus s FLT_RST_STAT_DONE 1 rfl).trans (.emit ..), List.mem_append_right _ (List.mem_singleton_self _), ?_⟩
  exact decide_eq_true (State.rd_wr_same s hostB FLT_RST_STAT_DONE 1 (by decide))

theorem Undisturbed.report {p : Nat → Prop} {s u : State} (h : Undisturbed p s u) (src code : Nat) (data : List Nat) : u.report src code data = s.report src code data := by
  unfold State.report
  rw [h.tsc]

/-! ### Partitions, in any state -/

/-- From `s` to `u` no ring begins to run, and the low registers and Bus Master Enable stay. -/
structure Stops (s u : State) : Prop where
  halted : ∀ n, s.isRunning n = false → u.isRunning n = false
  bme    : u.host.bme = s.host.bme
  words  : ∀ o, lowWord o = true → o ≠ rstWord → u.word o = s.word o

namespace Stops
variable {s u v : State}

theorem trans (h : Stops s u) (g : Stops u v) : Stops s v :=
  ⟨fun n stopped => g.halted n (h.halted n stopped), g.bme.trans h.bme, fun o low other => (g.words o low other).trans (h.words o low other)⟩

theorem of_undisturbed {p : Nat → Prop} (h : Undisturbed p s u) : Stops s u :=
  ⟨h.halted, by rw [h.host], fun o low other => h.words o (of_decide_eq_true low).1 other⟩

theorem of_low (h : u.low = s.low) : Stops s u := by
  have rings : u.rings = s.rings := congrArg (·.1) h
  have host : u.host = s.host := congrArg (·.2.1) h
  refine ⟨fun n stopped => ?_, by rw [host], fun o low _ => ?_⟩
  · rw [State.isRunning, State.ring, rings]
    exact stopped
  · have word := congrFun (congrArg (·.2.2) h) o
    simpa only [State.low, low, if_true] using word

theorem plan (h : Stops s u) : SamePlan s u := fun o below => by
  have status : rstWord = 0x106038 := rfl
  have molt : hostB + FLT_MOLT_STAT_REFUSED.off = 0x106028 := rfl
  unfold hostB at below
  exact h.words o (decide_eq_true ⟨by unfold chorusB; omega, by omega⟩) (by omega)

end Stops

/-- The rings of partition `k`. -/
def State.partRings (s : State) (k : Nat) : List Nat := (List.range 64).filter (fun n => decide (s.ringOwner n = k))

theorem mem_partRings (s : State) (k n : Nat) : n ∈ s.partRings k ↔ n < 64 ∧ s.ringOwner n = k := by
  unfold State.partRings
  rw [List.mem_filter, List.mem_range, decide_eq_true_eq]

/-- A partition reset up to the discard of its passes. -/
def State.partHalted (s : State) (k cause src : Nat) : State := s.haltAndReset (s.partTiles k) (s.partRings k) 4 src cause 2 2

/-- A partition reset up to its last step. -/
def State.partWaits (s : State) (k : Nat) : State := ((s.partChans k).foldl State.discardPasses s).raise hostB FLT_RST_STAT_BUSY

theorem partResetGo_eq (s : State) (k cause src : Nat) :
    let v := (s.partHalted k cause src).partWaits k
    s.partResetGo k cause src = ({ v with host := { v.host with resetting := v.host.resetting.filter (fun j => decide (j ≠ k)) ++ [k] } } : State).settleResets := by
  have held := (foldl_modTile_sets Tile.enter (s.partTiles k) (partTiles_nodup s k) s).undisturbed (p := (· ∈ s.partTiles k)) fun _ listed => listed
  have rings : ((s.partTiles k).foldl State.holdTile s).partRings k = s.partRings k :=
    List.filter_congr fun n small => by rw [← held.plan.ringOwner (List.mem_range.mp small)]; rfl
  unfold State.partHalted State.haltAndReset
  rw [← rings]
  rfl

theorem partHalted_halts (s : State) (k cause src : Nat) :
    let u := s.partHalted k cause src
    Cleared true (s.partTiles k) s u ∧ ∀ n < 64, s.ringOwner n = k → u.isRunning n = false := by
  obtain ⟨cleared, stopped⟩ := haltAndReset_clears s (partTiles_nodup s k) (s.partRings k) 4 src cause 2 2
  exact ⟨cleared, fun n small owner => stopped n small ((mem_partRings s k n).mpr ⟨small, owner⟩)⟩

theorem partWaits_stops (s : State) (k : Nat) : Stops s (s.partWaits k) :=
  (Stops.of_low (low_foldl s _ low_discardPasses)).trans (.of_undisturbed (p := fun _ => False) (.wrStatus _ _ 1 rfl))

theorem foldl_freeTile_stops (l : List Nat) (s : State) : Stops s (l.foldl State.freeTile s) := by
  refine foldl_keeps (Stops s) l _ s ⟨fun _ h => h, rfl, fun _ _ _ => rfl⟩ fun u t h => ?_
  unfold State.freeTile
  split
  · exact h.trans (.of_low rfl)
  · exact h

theorem partResetEnd_stops (s : State) (k : Nat) : Stops s (s.partResetEnd k) := by
  have freed := foldl_freeTile_stops (s.partTiles k) s
  unfold State.partResetEnd
  dsimp only
  generalize (s.partTiles k).foldl State.freeTile s = u at *
  have done := freed.trans (.of_undisturbed (resetDone_says (fun _ => False) u 2 k).1)
  split
  · exact done.trans (.of_undisturbed (p := fun _ => False) (.wrStatus _ _ 0 rfl))
  · exact done

theorem settleResets_stops (s : State) : Stops s s.settleResets := by
  unfold State.settleResets
  exact foldl_keeps (Stops s) _ _ _ ⟨fun _ h => h, rfl, fun _ _ _ => rfl⟩ fun u k h => h.trans (partResetEnd_stops u k)

/-- A partition reset halts the partition's rings, in any state. -/
theorem partResetGo_stops (s : State) (k cause src : Nat) : Stops s (s.partResetGo k cause src) ∧ ∀ n < 64, s.ringOwner n = k → (s.partResetGo k cause src).isRunning n = false := by
  have eq := partResetGo_eq s k cause src
  obtain ⟨cleared, stopped⟩ := partHalted_halts s k cause src
  dsimp only at eq stopped cleared
  rw [eq]
  generalize s.partHalted k cause src = u at *
  have waits := partWaits_stops u k
  generalize u.partWaits k = v at *
  have asked : Stops v { v with host := { v.host with resetting := v.host.resetting.filter (fun j => decide (j ≠ k)) ++ [k] } } := ⟨fun _ h => h, rfl, fun _ _ _ => rfl⟩
  have rest := (waits.trans asked).trans (settleResets_stops _)
  exact ⟨(Stops.of_undisturbed cleared.rest).trans rest, fun n small owner => rest.halted n (stopped n small owner)⟩

/-! ### TILE_RESET -/

theorem tileResetGo_eq (s : State) (t : Nat) : s.tileResetGo t = ([t].foldl State.freeTile (s.haltAndReset [t] (s.tileRings t) 3 t 7 1 1)).resetDone 1 t := rfl

theorem tileResetGo_resets {s : State} {t : Nat} (enabled : s.enabled t = true) :
    let u := s.tileResetGo t
    Cleared s.holdsTiles [t] s u ∧ (∀ n < 64, n ∈ s.tileRings t → u.isRunning n = false) ∧ s.report ringSrc 0x068C [1, t] ∈ u.reports ∧ u.flag hostB FLT_RST_STAT_DONE = true := by
  have once : [t].Nodup := List.nodup_singleton t
  have mine : ∀ k ∈ [t], s.enabled k = true := fun k listed => List.mem_singleton.mp listed ▸ enabled
  obtain ⟨cleared, stopped⟩ := haltAndReset_clears s once (s.tileRings t) 3 t 7 1 1
  rw [tileResetGo_eq]
  dsimp only at *
  generalize s.haltAndReset [t] (s.tileRings t) 3 t 7 1 1 = u at *
  have freed := cleared.frees once mine
  have running := (foldl_freeTile_stops [t] u).halted
  generalize [t].foldl State.freeTile u = v at *
  obtain ⟨done, event, status⟩ := resetDone_says (fun _ => False) v 1 t
  generalize v.resetDone 1 t = w at *
  rw [freed.rest.report] at event
  exact ⟨freed.trans done, fun n small listed => done.halted n (running n (stopped n small listed)), event, status⟩

/-! ### The last step of a partition reset -/

section
variable {s : State} {k : Nat} (waits : s.host.resetting = [k])
include waits

/-- A partition whose passes run still waits. -/
theorem settleResets_waits (runs : s.passesEnded k = false) : s.settleResets = s := by
  have none : [k].filter s.passesEnded = [] := List.filter_cons_of_neg (by rw [runs]; exact Bool.false_ne_true)
  have all : [k].filter (fun j => !([] : List Nat).contains j) = [k] := rfl
  unfold State.settleResets
  rw [waits, none]
  dsimp only
  rw [all, ← waits]
  rfl

/-- A partition whose passes have ended takes its last step. -/
theorem settleResets_ends (ended : s.passesEnded k = true) : s.settleResets = { s with host := { s.host with resetting := [] } }.partResetEnd k := by
  have one : [k].filter s.passesEnded = [k] := List.filter_cons_of_pos ended
  have left : [k].filter (fun j => !([k] : List Nat).contains j) = [] := List.filter_cons_of_neg (by simp)
  unfold State.settleResets
  rw [waits, one]
  dsimp only
  rw [left, List.foldl_cons, List.foldl_nil]

end

/-- The last step frees the tiles, and says so. -/
theorem partResetEnd_ends {s v : State} {k : Nat} (cleared : Cleared true (s.partTiles k) s v) (alone : v.host.resetting = []) :
    let u := v.partResetEnd k
    Cleared s.holdsTiles (s.partTiles k) s u ∧ Undisturbed (· ∈ s.partTiles k) v u ∧ s.report ringSrc 0x068C [2, k] ∈ u.reports ∧ u.flag hostB FLT_RST_STAT_DONE = true ∧ u.flag hostB FLT_RST_STAT_BUSY = false := by
  have enabled (t : Nat) (listed : t ∈ s.partTiles k) : s.enabled t = true := ((mem_partTiles s k t).mp listed).1
  have freed := cleared.frees (partTiles_nodup s k) enabled
  have frees : Undisturbed (· ∈ s.partTiles k) v ((s.partTiles k).foldl State.freeTile v) := by
    rw [foldl_freeTile _ v fun t listed => (cleared.rest.plan.enabled t).trans (enabled t listed)]
    split
    · exact .refl _ v
    · exact (foldl_modTile_sets Tile.leave _ (partTiles_nodup s k) v).undisturbed fun _ listed => listed
  unfold State.partResetEnd
  dsimp only
  rw [cleared.rest.plan.partTiles]
  generalize (s.partTiles k).foldl State.freeTile v = w at *
  obtain ⟨done, event, status⟩ := resetDone_says (fun _ => False) w 2 k
  have none : (w.resetDone 2 k).host.resetting.isEmpty = true := by rw [done.host, frees.host, alone]; rfl
  rw [freed.rest.report] at event
  generalize w.resetDone 2 k = x at *
  have idle : Undisturbed (fun _ => False) x (x.clear hostB FLT_RST_STAT_BUSY) := .wrStatus x FLT_RST_STAT_BUSY 0 rfl
  rw [none, if_pos rfl]
  refine ⟨(freed.trans done).trans idle, (frees.trans (done.mono fun _ => False.elim)).trans (idle.mono fun _ => False.elim), idle.reports.subset event, ?_, ?_⟩
  · unfold State.flag State.clear
    rw [State.rd_wr_apart x hostB 0 (by decide) (by decide)]
    exact status
  · unfold State.flag State.clear
    rw [State.rd_wr_same x hostB FLT_RST_STAT_BUSY 0 (by decide)]
    rfl

/-! ### Partitions where no pass runs -/

/-- A channel without pass instructions has nothing to discard. -/
theorem discardPasses_calm (p : Nat → Prop) {s : State} {c : Nat} (calm : (s.cc c).passState = ([], [], none, false)) : Undisturbed p s (s.discardPasses c) := by
  obtain ⟨queue, ingress, active, pim⟩ : (s.cc c).queue = [] ∧ (s.cc c).ingress = [] ∧ (s.cc c).active = none ∧ (s.cc c).pim = false := by
    unfold CcSt.passState at calm
    simpa only [Prod.mk.injEq] using calm
  have same : s.discardPasses c = s.setCc c { s.cc c with queue := [], ingress := [], claimAt := none } := by
    unfold State.discardPasses
    dsimp only
    rw [active, queue, ingress, pim]
    rfl
  rw [same]
  refine .setCc ?_
  unfold CcSt.passState
  rw [queue, ingress]

theorem NoPass.calm {s : State} {k : Nat} (none : NoPass s k) {c : Nat} (listed : c ∈ s.partChans k) : (s.cc c).passState = ([], [], Option.none, false) := by
  obtain ⟨small, owner⟩ := List.mem_filter.mp listed
  obtain ⟨queue, ingress, active, pim⟩ := none c (List.mem_range.mp small) (of_decide_eq_true owner)
  unfold CcSt.passState
  rw [queue, ingress, active, pim]

theorem foldl_discardPasses_calm (p : Nat → Prop) (l : List Nat) : ∀ s : State, (∀ c ∈ l, (s.cc c).passState = ([], [], none, false)) → Undisturbed p s (l.foldl State.discardPasses s) := by
  induction l with
  | nil => exact fun s _ => .refl p s
  | cons c l ih =>
    intro s calm
    have first := discardPasses_calm p (calm c (List.mem_cons_self ..))
    rw [List.foldl_cons]
    generalize s.discardPasses c = u at *
    exact first.trans (ih u fun d listed => (first.passes d).trans (calm d (List.mem_cons_of_mem _ listed)))

/-- A partition reset where no pass runs takes its last step at once. -/
theorem partResetGo_resets {s : State} {k : Nat} (alone : s.host.resetting = []) (none : NoPass s k) (cause src : Nat) :
    let u := s.partResetGo k cause src
    Cleared s.holdsTiles (s.partTiles k) s u ∧ u.host.resetting = [] ∧ s.report ringSrc 0x068C [2, k] ∈ u.reports ∧ u.flag hostB FLT_RST_STAT_DONE = true ∧ u.flag hostB FLT_RST_STAT_BUSY = false := by
  obtain ⟨cleared, -⟩ := partHalted_halts s k cause src
  have eq := partResetGo_eq s k cause src
  dsimp only at eq cleared
  rw [eq]
  generalize s.partHalted k cause src = u at *
  have calm (c : Nat) (listed : c ∈ u.partChans k) : (u.cc c).passState = ([], [], Option.none, false) := (cleared.rest.passes c).trans (none.calm (cleared.rest.plan.partChans k ▸ listed))
  have waits : Undisturbed (fun _ => False) u (u.partWaits k) := (foldl_discardPasses_calm _ _ u calm).trans (.wrStatus _ _ 1 rfl)
  generalize u.partWaits k = v at *
  have empty : v.host.resetting = [] := by rw [waits.host, cleared.rest.host, alone]
  have ended : v.passesEnded k = true := by
    unfold State.passesEnded
    rw [List.all_eq_true, waits.plan.partChans]
    intro c listed
    have state := (waits.passes c).trans (calm c listed)
    unfold CcSt.passState at state
    simp only [Prod.mk.injEq] at state
    rw [state.2.2.1]
    rfl
  have host : { v.host with resetting := [] } = v.host := by rw [← empty]
  have queued : v.host.resetting.filter (fun j => decide (j ≠ k)) ++ [k] = [k] := by rw [empty]; rfl
  have settled : ({ v with host := { v.host with resetting := [k] } } : State).settleResets = v.partResetEnd k :=
    (settleResets_ends (s := { v with host := { v.host with resetting := [k] } }) rfl ended).trans (congrArg (fun h => ({ v with host := h } : State).partResetEnd k) host)
  rw [queued, settled]
  obtain ⟨resets, last, event, done, idle⟩ := partResetEnd_ends (cleared.trans waits) empty
  exact ⟨resets, by rw [last.host, empty], event, done, idle⟩

end Sys2Proof.Machine
end

section
/-! The register of the reset commands, FLT_RST_CMD: what its write stores and starts (R416, R417). -/

namespace Sys2Proof.Machine

/-! ### Bits of the word written -/

/-- A bit above a field leaves the field. -/
theorem bitsOf_add_two_pow (n : Nat) {lo w k : Nat} (below : lo + w ≤ k) : bitsOf (n + 2 ^ k) lo w = bitsOf n lo w := by
  refine Nat.eq_of_testBit_eq fun i => ?_
  rw [testBit_bitsOf, testBit_bitsOf]
  by_cases small : i < w
  · rw [Nat.add_comm n, Nat.testBit_two_pow_add_gt (by omega)]
  · rw [decide_eq_false small, Bool.false_and, Bool.false_and]

/-- A number below a bit, with that bit. -/
theorem bit_add_two_pow_above {n k : Nat} (small : n < 2 ^ k) : bit (n + 2 ^ k) k = true ∧ ∀ j, k < j → bit (n + 2 ^ k) j = false := by
  refine ⟨?_, fun j above => ?_⟩
  · rw [bit_eq_testBit, Nat.add_comm, Nat.testBit_two_pow_add_eq, Nat.testBit_lt_two_pow small]
    rfl
  · rw [bit_eq_testBit]
    have double : 2 ^ (k + 1) ≤ 2 ^ j := Nat.pow_le_pow_right (by decide) above
    rw [Nat.pow_succ] at double
    exact Nat.testBit_lt_two_pow (by omega)

theorem bit_add_two_pow_below {n j k : Nat} (below : j < k) : bit (n + 2 ^ k) j = bit n j := by
  rw [bit_eq_testBit, Nat.add_comm, Nat.testBit_two_pow_add_gt below, bit_eq_testBit]

/-- A field that reads the same in two words does not differ under its mask. -/
theorem xor_and_mask_eq_zero {a b lo w : Nat} (same : bitsOf a lo w = bitsOf b lo w) : (a ^^^ b) &&& (2 ^ w - 1) * 2 ^ lo = 0 := by
  refine Nat.eq_of_testBit_eq fun i => ?_
  rw [Nat.testBit_and, Nat.testBit_xor, Nat.testBit_mul_two_pow, Nat.testBit_two_pow_sub_one, Nat.zero_testBit]
  by_cases inside : lo ≤ i ∧ i - lo < w
  · obtain ⟨from_lo, small⟩ := inside
    have bits := congrArg (Nat.testBit · (i - lo)) same
    simp only [testBit_bitsOf, small, decide_true, Bool.true_and, Nat.add_sub_cancel' from_lo] at bits
    rw [bits, Bool.xor_self, Bool.false_and]
  · rw [not_and_or] at inside
    rcases inside with out | out <;> simp [out]

/-! ### The register -/

/-- FLT_RST_CMD. -/
def rstCmd : Nat := hostB + 0x6030
def rstPlace : Place := ⟨.host, 0, 0x6030⟩
def rstTile : RegField := ⟨0, 9, .RW, 0, .S .reset, .tile⟩
def rstPart : RegField := ⟨16, 4, .RW, 0, .S .reset, .part⟩
def rstTileGo : RegField := ⟨32, 1, .W1S, 0, .S .reset, .any⟩
def rstPartGo : RegField := ⟨33, 1, .W1S, 0, .S .reset, .any⟩
def rstRow : RegRow := ⟨0x6030, [], [rstTile, rstPart, rstTileGo, rstPartGo]⟩

theorem findRow_rstCmd : findRow rstPlace.blk rstPlace.rel = some rstRow := by decide +kernel

theorem rstCmd_reaches {s : State} (writable : Writable s rstCmd) : Reaches s 0 rstCmd rstPlace rstRow := by
  obtain ⟨good, awake⟩ := writable
  exact ⟨rfl, rfl, findRow_rstCmd, good, awake, fun tile => nomatch tile⟩

/-- Offsets of the fields that the host block shows. -/
theorem showHost_offsets (s : State) : s.showHost.map (fun (x : Shown) => x.1.off) =
    [HOST_TAG_STAT_TAGS, HOST_TAG_STAT_UNITS, HOST_DIR_STAT_ENTRIES, HOST_DIR_STAT_BISNP, HOST_BIAS_STAT_SHARED, RING_ENG_STAT_INFLIGHT, FLT_MOLT_STAT_QUEUED, FLT_CUT_STAT_PENDING].map (·.off) ++
      (List.range 9).flatMap (fun f => [EVT_STAT_HEAD, EVT_STAT_TAIL, EVT_STAT_FULL].map (fun g => (g.at (0x20 * f)).off)) := rfl

/-- FLT_RST_CMD shows what it holds. -/
theorem readPlace_rstCmd (s : State) : s.readPlace rstPlace rstCmd = s.latest rstCmd := by
  have other : 0x6030 ∉ s.showHost.map (fun (x : Shown) => x.1.off) := by
    rw [showHost_offsets]
    decide
  have none : (s.shown rstPlace).filter (fun (x : Shown) => decide (x.1.off = rstPlace.rel)) = [] :=
    List.filter_eq_nil_iff.mpr fun x listed same => other (List.mem_map.mpr ⟨x, listed, of_decide_eq_true same⟩)
  unfold State.readPlace
  rw [none]
  rfl

/-- The reset commands that a write of FLT_RST_CMD starts. -/
def State.resetsGo (s : State) (new : Nat) : State :=
  let t := bitsOf new 0 9
  let k := bitsOf new 16 4
  let s := if bit new 32 && s.namesTile 0 t then s.tileResetGo t else s
  if bit new 33 && s.namesPart 0 k then s.partResetGo k 7 ringSrc else s

theorem rstRow_fields : fieldsFor 0 rstPlace rstRow = rstRow.fields := rfl

/-- FLT_RST_CMD holds the tile and partition that were written. -/
theorem nextWord_rstRow (cur new : Nat) : bitsOf (nextWord rstRow.fields cur new) 0 9 = bitsOf new 0 9 ∧ bitsOf (nextWord rstRow.fields cur new) 16 4 = bitsOf new 16 4 := by
  have laid : LaidOut rstRow.fields := fieldsFor_laidOut (f := 0) (p := rstPlace) findRow_rstCmd
  exact ⟨laid.bitsOf_nextWord cur new (fl := rstTile) (by decide) rfl, laid.bitsOf_nextWord cur new (fl := rstPart) (by decide) rfl⟩

/-- A field that a write leaves as it was, or to which it gives a legal value, is no ground to refuse the write while the unit is idle. -/
theorem field_not_refused {s : State} {p : Place} {g : Governor} (idle : s.active p g = false) {fl : RegField} (cls : fl.cls = .S g) (mask : pairMask fl = (2 ^ fl.w - 1) * 2 ^ fl.lo)
    {w cur new : Nat} (took : fl.sets = true → bitsOf w fl.lo fl.w = bitsOf new fl.lo fl.w)
    (ok : bitsOf new fl.lo fl.w = bitsOf cur fl.lo fl.w ∨ s.legal 0 p w (bitsOf new fl.lo fl.w) fl.legal = true) :
    ((fl.changes cur new && (match fl.cls with | .S g => s.active p g | _ => false)) ||
      (fl.sets && decide ((w ^^^ cur) &&& pairMask fl ≠ 0) && !s.legal 0 p w (bitsOf w fl.lo fl.w) fl.legal)) = false := by
  rw [cls]
  dsimp only
  rw [idle, Bool.and_false, Bool.false_or]
  by_cases sets : fl.sets = true
  · rcases ok with same | ok
    · rw [mask, decide_eq_false (not_not.mpr (xor_and_mask_eq_zero ((took sets).trans same))), Bool.and_false, Bool.false_and]
    · rw [took sets, ok, Bool.not_true, Bool.and_false]
  · rw [Bool.eq_false_of_not_eq_true sets, Bool.false_and, Bool.false_and]

/-- The word of FLT_RST_CMD starts the resets of what it names. -/
theorem starts_rstCmd (s : State) (cur : Nat) {new w : Nat} (tile : bitsOf w 0 9 = bitsOf new 0 9) (part : bitsOf w 16 4 = bitsOf new 16 4) :
    s.starts 0 rstPlace cur new w = s.resetsGo new := by
  have host : s.starts 0 rstPlace cur new w = s.startsHost 0 rstPlace cur new w := rfl
  rw [host, State.startsHost, if_neg (by decide), if_neg (by decide), if_neg (by decide), if_neg (by decide), if_neg (by decide), if_pos (by decide), tile, part, State.resetsGo]

section
variable {s : State} {new : Nat} (idle : s.flag hostB FLT_RST_STAT_BUSY = false)
  (tile : bitsOf new 0 9 = bitsOf (s.latest rstCmd) 0 9 ∨ s.namesTile 0 (bitsOf new 0 9) = true)
  (part : bitsOf new 16 4 = bitsOf (s.latest rstCmd) 16 4 ∨ s.namesPart 0 (bitsOf new 16 4) = true)
include idle tile part

/-- A write of FLT_RST_CMD is not refused where no reset is busy and what it names anew may be named. -/
theorem rstCmd_not_refused : s.refuses 0 rstPlace rstRow.fields (s.latest rstCmd) new = false := by
  obtain ⟨wTile, wPart⟩ := nextWord_rstRow (s.latest rstCmd) new
  have still : s.active rstPlace .reset = false := idle
  unfold State.refuses
  dsimp only
  generalize nextWord rstRow.fields (s.latest rstCmd) new = w at *
  have tileLegal : s.legal 0 rstPlace w (bitsOf new rstTile.lo rstTile.w) rstTile.legal = s.namesTile 0 (bitsOf new 0 9) := rfl
  have partLegal : s.legal 0 rstPlace w (bitsOf new rstPart.lo rstPart.w) rstPart.legal = s.namesPart 0 (bitsOf new 16 4) := rfl
  refine List.any_eq_false.mpr fun fl listed => Bool.not_eq_true _ ▸ ?_
  rw [rstRow] at listed
  simp only [List.mem_cons, List.not_mem_nil, or_false] at listed
  rcases listed with rfl | rfl | rfl | rfl
  · exact field_not_refused still rfl rfl (fun _ => wTile) (tile.imp_right tileLegal.trans)
  · exact field_not_refused still rfl rfl (fun _ => wPart) (part.imp_right partLegal.trans)
  · exact field_not_refused still rfl rfl (fun sets => nomatch sets) (.inr rfl)
  · exact field_not_refused still rfl rfl (fun sets => nomatch sets) (.inr rfl)

/-- A write of FLT_RST_CMD that is taken stores the tile and the partition, and starts the resets. -/
theorem bar0Write_rstCmd (writable : Writable s rstCmd) :
    ∃ u, s.bar0Write 0 rstCmd 8 new = u.resetsGo new ∧ OnlyRegister s u rstCmd ∧ u.rd hostB FLT_RST_CMD_TILE = bitsOf new 0 9 ∧ u.rd hostB FLT_RST_CMD_PART = bitsOf new 16 4 := by
  have reaches := rstCmd_reaches writable
  have laid := reaches.laidOut
  have took := laid.takeFields_took s rstCmd (s.latest rstCmd) new
  obtain ⟨wTile, wPart⟩ := nextWord_rstRow (s.latest rstCmd) new
  refine ⟨s.takeFields rstRow.fields rstCmd (s.latest rstCmd) new, ?_, takeFields_onlyRegister .., (took rstTile (by decide)).1, (took rstPart (by decide)).1⟩
  rw [reaches.bar0Write, State.writeWhole, if_neg reaches.not_unlisted]
  dsimp only
  rw [readPlace_rstCmd, rstRow_fields, rstCmd_not_refused idle tile part]
  have also : s.refusesAlso 0 rstPlace (s.latest rstCmd) new (nextWord rstRow.fields (s.latest rstCmd) new) = false := rfl
  have kept : brakeless rstPlace (keeps rstPlace rstRow.fields) = rstRow.fields := rfl
  rw [also, Bool.or_self, if_neg Bool.false_ne_true, kept, ← State.takeFields]
  exact starts_rstCmd _ _ wTile wPart

end

end Sys2Proof.Machine
end

section
/-! Resets from the state in which their trigger puts the card: a register write, an FLR, or D3hot (R377, R416, R506). -/

namespace Sys2Proof.Machine

/-! ### What the trigger of a reset leaves -/

/-- From `s` to `u` the trigger of a reset did its work: registers of commands and the host interface's own state apart, the card is as it was. -/
structure Prepared (s u : State) : Prop where
  mem       : u.mem = s.mem
  reports   : s.reports <+: u.reports
  tsc       : u.tsc = s.tsc
  tiles     : u.tiles = s.tiles
  ccs       : u.ccs = s.ccs
  resetting : u.host.resetting = s.host.resetting
  plan      : SamePlan s u

namespace Prepared
variable {s u v : State}

theorem trans (h : Prepared s u) (g : Prepared u v) : Prepared s v :=
  ⟨g.mem.trans h.mem, h.reports.trans g.reports, g.tsc.trans h.tsc, g.tiles.trans h.tiles, g.ccs.trans h.ccs, g.resetting.trans h.resetting, fun o below => (g.plan o below).trans (h.plan o below)⟩

theorem of_halts (h : Halts s u) : Prepared s u := by
  have rest := h.rest
  exact ⟨by rw [rest], h.reports, by rw [rest], by rw [rest], by rw [rest], by rw [rest], fun o _ => by rw [rest]; rfl⟩

/-- The host interface changes. -/
theorem host {h : HostSt} (resetting : h.resetting = s.host.resetting) : Prepared s { s with host := h } :=
  ⟨rfl, List.prefix_refl _, rfl, rfl, rfl, resetting, fun _ _ => rfl⟩

theorem of_rstCmd (h : OnlyRegister s u rstCmd) : Prepared s u := by
  obtain ⟨rest, others⟩ := h
  refine ⟨by rw [rest], by rw [rest], by rw [rest], by rw [rest], by rw [rest], by rw [rest], fun o below => (others o ?_).1⟩
  have cmd : rstCmd = hostB + 0x6030 := rfl
  omega

section
variable (h : Prepared s u)
include h

theorem tile (t : Nat) : u.tile t = s.tile t := by rw [State.tile, h.tiles, State.tile]
theorem cc (c : Nat) : u.cc c = s.cc c := by rw [State.cc, h.ccs, State.cc]
theorem report (src code : Nat) (data : List Nat) : u.report src code data = s.report src code data := by
  unfold State.report
  rw [h.tsc]

theorem noPass {k : Nat} (none : NoPass s k) : NoPass u k := fun c small owner => by
  rw [h.cc]
  exact none c small ((h.plan.stackOwner _).symm.trans owner)

end

end Prepared

/-! ### What a reset tile is -/

theorem Tile.spad_afterReset (x : Tile) : x.afterReset.spad = x.spad := rfl
theorem Tile.inReset_afterReset (x : Tile) : x.afterReset.inReset = x.inReset := rfl

/-- What a reset leaves of the other tiles is also what the statements speak of. -/
theorem Undisturbed.stays {p : Nat → Prop} {s u : State} (h : Undisturbed p s u) {t : Nat} (other : ¬ p t) : (u.tile t).spad = (s.tile t).spad ∧ (u.tile t).inReset = (s.tile t).inReset := by
  have kept := h.kept t other
  constructor
  · rw [← Tile.spad_afterReset, kept, Tile.spad_afterReset]
  · rw [← Tile.inReset_afterReset, kept, Tile.inReset_afterReset]

theorem Prepared.wasReset {s v u : State} (h : Prepared s v) {held : Bool} {l : List Nat} (g : Cleared held l v u) {t : Nat} (listed : t ∈ l) : WasReset s u t held := by
  obtain ⟨tile, sems, counters, well⟩ := g.own t listed
  rw [h.tile] at tile
  exact ⟨tile, sems, counters, well⟩

/-! ### TILE_RESET -/

/-- The word of TILE_RESET: TILE, and its GO bit. -/
theorem tileWord {cur t : Nat} (small : cur < 2 ^ 32) (tile : t < 2 ^ 9) :
    let new := setBits cur 0 9 t + 2 ^ 32
    bitsOf new 0 9 = t ∧ bitsOf new 16 4 = bitsOf cur 16 4 ∧ bit new 32 = true ∧ bit new 33 = false := by
  have below := setBits_lt (lo := 0) (w := 9) (v := t) small (by decide)
  obtain ⟨go, above⟩ := bit_add_two_pow_above below
  refine ⟨?_, ?_, go, above 33 (by decide)⟩
  · rw [bitsOf_add_two_pow _ (by decide), bitsOf_setBits_same, Nat.mod_eq_of_lt tile]
  · rw [bitsOf_add_two_pow _ (by decide), bitsOf_setBits_other (.inr (by decide))]

/-- The word of PARTITION_RESET: PART, and its GO bit. -/
theorem partWord {cur k : Nat} (small : cur < 2 ^ 32) (part : k < 2 ^ 4) :
    let new := setBits cur 16 4 k + 2 ^ 33
    bitsOf new 0 9 = bitsOf cur 0 9 ∧ bitsOf new 16 4 = k ∧ bit new 32 = false ∧ bit new 33 = true := by
  have below := setBits_lt (lo := 16) (w := 4) (v := k) small (by decide)
  obtain ⟨go, -⟩ := bit_add_two_pow_above (n := setBits cur 16 4 k) (k := 33) (below.trans (by decide))
  refine ⟨?_, ?_, ?_, go⟩
  · rw [bitsOf_add_two_pow _ (by decide), bitsOf_setBits_other (.inl (by decide))]
  · rw [bitsOf_add_two_pow _ (by decide), bitsOf_setBits_same, Nat.mod_eq_of_lt part]
  · rw [bit_add_two_pow_below (by decide), bit_eq_testBit, Nat.testBit_lt_two_pow below]

section
variable {s : State} (writable : Writable s rstCmd) (idle : s.flag hostB FLT_RST_STAT_BUSY = false) (small : s.latest rstCmd < 2 ^ 32)
include writable idle small

/-- TILE_RESET of an enabled tile starts its reset. -/
theorem tileReset_goes {t : TileId} (enabled : s.enabled t.toNat = true) :
    ∃ v, exec (.tileReset 0 t) s = .next (v.tileResetGo t.toNat) ∧ OnlyRegister s v rstCmd ∧ v.rd hostB FLT_RST_CMD_TILE = t.toNat := by
  obtain ⟨tile, part, go, noGo⟩ := tileWord small t.isLt
  have named (v : State) (same : v.enabled t.toNat = s.enabled t.toNat) : v.namesTile 0 t.toNat = true := by
    unfold State.namesTile
    rw [same, enabled]
    rfl
  obtain ⟨v, write, only, holds, -⟩ := bar0Write_rstCmd idle (.inr (by rw [tile]; exact named s rfl)) (.inl part) writable
  refine ⟨v, ?_, only, holds.trans tile⟩
  have goes : exec (.tileReset 0 t) s = .next (s.bar0Write 0 rstCmd 8 (setBits (s.latest rstCmd) 0 9 t.toNat + 2 ^ 32)) := rfl
  rw [goes, write, State.resetsGo, tile, go, noGo, named v ((Prepared.of_rstCmd only).plan.enabled _)]
  rfl

/-- PARTITION_RESET starts the reset of its partition. -/
theorem partitionReset_goes {k : Nat} (low : 1 ≤ k) (high : k ≤ 8) :
    ∃ v, exec (.partitionReset 0 k) s = .next (v.partResetGo k 7 ringSrc) ∧ OnlyRegister s v rstCmd ∧ v.rd hostB FLT_RST_CMD_PART = k := by
  obtain ⟨tile, part, noGo, go⟩ := partWord (k := k) small (by omega)
  have named (v : State) : v.namesPart 0 k = true := by
    unfold State.namesPart
    rw [decide_eq_true (And.intro low high)]
    rfl
  obtain ⟨v, write, only, -, holds⟩ := bar0Write_rstCmd idle (.inl tile) (.inr (by rw [part]; exact named s)) writable
  refine ⟨v, ?_, only, holds.trans part⟩
  have goes : exec (.partitionReset 0 k) s = .next (s.bar0Write 0 rstCmd 8 (setBits (s.latest rstCmd) 16 4 k + 2 ^ 33)) := rfl
  rw [goes, write, State.resetsGo, part, go, noGo, named]
  rfl

end

/-! ### One partition and several -/

theorem Prepared.partResets {s v : State} (h : Prepared s v) {k : Nat} (alone : s.host.resetting = []) (none : NoPass s k) (cause src : Nat) :
    let u := v.partResetGo k cause src
    PartWasReset s u k v.holdsTiles ∧ Undisturbed (· ∈ v.partTiles k) v u := by
  obtain ⟨cleared, ended, event, done, calm⟩ := partResetGo_resets (h.resetting.trans alone) (h.noPass none) cause src
  obtain ⟨-, stopped⟩ := partResetGo_stops v k cause src
  dsimp only
  generalize v.partResetGo k cause src = u at *
  rw [h.report] at event
  refine ⟨⟨ended, calm, fun t enabled owner => h.wasReset cleared ?_, fun n few owner => stopped n few ((h.plan.ringOwner few).trans owner), cleared.rest.mem.trans h.mem, fun t other => ?_, event,
    h.reports.trans cleared.rest.reports, done⟩, cleared.rest⟩
  · rw [h.plan.partTiles, mem_partTiles]
    exact ⟨enabled, owner⟩
  · have out : t ∉ v.partTiles k := by
      rw [h.plan.partTiles, mem_partTiles, not_and_or, Bool.not_eq_true]
      exact other
    have stays := cleared.rest.stays out
    rw [h.tile] at stays
    exact stays

/-- Partitions reset one after another where no pass runs. -/
theorem foldl_partResetGo_resets (cause src : Nat) (l : List Nat) (once : l.Nodup) : ∀ s : State, s.host.resetting = [] → (∀ k ∈ l, NoPass s k) →
    let u := l.foldl (fun (a : State) k => a.partResetGo k cause src) s
    Cleared s.holdsTiles (l.flatMap s.partTiles) s u := by
  induction l with
  | nil => exact fun s _ _ => ⟨.refl _ s, fun _ none => absurd none List.not_mem_nil, fun _ _ => List.not_mem_nil⟩
  | cons k l ih =>
    intro s alone calm
    obtain ⟨new, once⟩ := List.nodup_cons.mp once
    obtain ⟨first, ended, -⟩ := partResetGo_resets alone (calm k (List.mem_cons_self ..)) cause src
    rw [List.foldl_cons, List.flatMap_cons]
    generalize s.partResetGo k cause src = u at *
    have later := ih once u ended fun j listed c small owner => by
      obtain ⟨queue, ingress, active, pim⟩ := calm j (List.mem_cons_of_mem _ listed) c small ((first.rest.plan.stackOwner _).symm.trans owner)
      have passes := first.rest.passes c
      unfold CcSt.passState at passes
      simp only [Prod.mk.injEq, queue, ingress, active, pim] at passes
      exact passes
    have tiles : l.flatMap u.partTiles = l.flatMap s.partTiles := by rw [funext first.rest.plan.partTiles]
    rw [first.rest.holdsTiles, tiles] at later
    refine first.append later fun t listed again => ?_
    obtain ⟨j, other, its⟩ := List.mem_flatMap.mp again
    have same : k = j := ((mem_partTiles s k t).mp listed).2.symm.trans ((mem_partTiles s j t).mp its).2
    exact new (same ▸ other)

/-- Partitions reset one after another halt their rings, in any state. -/
theorem foldl_partResetGo_stops (cause src : Nat) (l : List Nat) : ∀ s : State,
    let u := l.foldl (fun (a : State) k => a.partResetGo k cause src) s
    Stops s u ∧ ∀ n < 64, s.ringOwner n ∈ l → u.isRunning n = false := by
  induction l with
  | nil => exact fun s => ⟨⟨fun _ h => h, rfl, fun _ _ _ => rfl⟩, fun _ _ none => absurd none List.not_mem_nil⟩
  | cons k l ih =>
    intro s
    obtain ⟨first, mine⟩ := partResetGo_stops s k cause src
    rw [List.foldl_cons]
    generalize s.partResetGo k cause src = u at *
    obtain ⟨rest, others⟩ := ih u
    refine ⟨first.trans rest, fun n few listed => ?_⟩
    rcases List.mem_cons.mp listed with owner | later
    · exact rest.halted n (mine n few owner)
    · exact others n few ((first.plan.ringOwner few) ▸ later)

theorem mem_partitions (s : State) (t : Nat) (enabled : s.enabled t = true) : t ∈ s.partitions.flatMap s.partTiles := by
  have owner : s.tileOwner t < 9 := by
    unfold State.tileOwner
    cases found : (List.range 8).find? (fun k => s.partHasTile k t) with
    | none => decide
    | some k =>
      have small := List.mem_range.mp (List.mem_of_find?_eq_some found)
      show k + 1 < 9
      omega
  have mine := (mem_partTiles s _ t).mpr ⟨enabled, rfl⟩
  have site : t ∈ sites := (List.mem_filter.mp mine).1
  refine List.mem_flatMap.mpr ⟨s.tileOwner t, List.mem_filter.mpr ⟨List.mem_range.mpr owner, ?_⟩, mine⟩
  have some : sites.any (fun j => decide (s.tileOwner j = s.tileOwner t)) = true := List.any_eq_true.mpr ⟨t, site, decide_eq_true rfl⟩
  rw [some, Bool.or_true, Bool.true_or, Bool.true_or]

/-- A reset of every partition where no pass runs. -/
theorem Prepared.resetsAll {s v : State} (h : Prepared s v) (alone : s.host.resetting = []) (none : ∀ k < 9, NoPass s k) (cause src : Nat) :
    let u := v.resetAll cause src
    (∀ t, s.enabled t = true → WasReset s u t v.holdsTiles) ∧ u.mem = s.mem ∧ (∀ r ∈ v.reports, r ∈ u.reports) ∧
      u.host = { v.host with reads := u.host.reads, waiting := u.host.waiting, stalled := u.host.stalled, snoops := u.host.snoops, answered := u.host.answered } := by
  have once : v.partitions.Nodup := List.nodup_range.filter _
  have cleared := foldl_partResetGo_resets cause src v.partitions once v (h.resetting.trans alone) fun k listed => h.noPass (none k (List.mem_range.mp (List.mem_filter.mp listed).1))
  unfold State.resetAll
  generalize List.foldl _ v _ = u at *
  refine ⟨fun t enabled => h.wasReset cleared (mem_partitions v t ((h.plan.enabled t).trans enabled)), cleared.rest.mem.trans h.mem, fun r listed => cleared.rest.reports.subset listed, cleared.rest.host⟩

/-! ### FLR -/

/-- COPYs whose host reads fail end. -/
theorem copyFail_halts (s : State) (n c code : Nat) : Halts s (s.copyFail n c code) := by
  unfold State.copyFail
  split
  · exact .refl s
  · have cleared : Halts s (s.setCopy n c none) := .setRing fun stopped => of_decide_eq_false stopped
    exact cleared.trans (completeDesc_halts ..)

/-- The host reads of COPYs that a reset fails. -/
theorem failReads_halts (s : State) (code : Nat) {p : HostRead → Bool} (copies : ∀ r, p r = true → ∃ n c, r.user = .copy n c) :
    Halts { s with host := { s.host with reads := s.host.reads.filter (fun r => !p r), waiting := s.host.waiting.filter (fun r => !p r) } } (s.failReads code p) := by
  unfold State.failReads
  dsimp only
  generalize hl : (s.host.reads ++ s.host.waiting).filter p = l
  have all (r : HostRead) (listed : r ∈ l) : ∃ n c, r.user = .copy n c := copies r (List.mem_filter.mp (hl ▸ listed)).2
  clear hl
  generalize ({ s with host := _ } : State) = u
  induction l generalizing u with
  | nil => exact .refl u
  | cons r l ih =>
    obtain ⟨copy, all⟩ := List.forall_mem_cons.mp all
    obtain ⟨n, c, user⟩ := copy
    have first : Halts u (u.failRead code r) := by
      unfold State.failRead
      rw [user]
      exact copyFail_halts ..
    exact first.trans (ih all _)

end Sys2Proof.Machine
end

section
/-! Resets return tiles to their reset state: the reset commands, FLR, and D3hot (R264, R377, R416, R506). -/

namespace Sys2Proof.Machine

/-! ### FLR of a VF -/

/-- The read is one of a COPY. -/
def HostRead.isCopy (r : HostRead) : Bool := match r.user with | .copy _ _ => true | _ => false

theorem HostRead.user_of_isCopy {r : HostRead} (copy : r.isCopy = true) : ∃ n c, r.user = .copy n c := by
  unfold HostRead.isCopy at copy
  split at copy
  · next n c user => exact ⟨n, c, user⟩
  · cases copy

/-- The host interface after an FLR of function `f`. -/
def HostSt.flr (h : HostSt) (f : Nat) : HostSt :=
  { h with bme := put noMark h.bme f false, msix := h.msix.filter (fun (p : Nat × Word) => decide (p.1 / 0x2000 ≠ f)), msixOn := put noMark h.msixOn f false, aer := put noAer h.aer f 0 }

/-- An FLR of a VF up to the reset of its partition. -/
def State.flrVf (s : State) (f : Nat) : State :=
  ({ s.emit hostSrc 0x0108 [f] with host := s.host.flr f } : State).failReads 4 (fun r => decide (r.fn = f) && r.isCopy)

/-- The host interface but for its reads. -/
def HostSt.SameButReads (h g : HostSt) : Prop := g = { h with reads := g.reads, waiting := g.waiting }

/-- Reads of COPYs that fail leave the rest of the host interface. -/
theorem failReads_prepared (s : State) (code : Nat) {p : HostRead → Bool} (copies : ∀ r, p r = true → r.isCopy = true) :
    let u := s.failReads code p
    Prepared s u ∧ (∀ o, u.word o = s.word o) ∧ s.host.SameButReads u.host := by
  have fails := failReads_halts s code fun r chosen => HostRead.user_of_isCopy (copies r chosen)
  dsimp only
  generalize s.failReads code p = u at *
  have rest := fails.rest
  have asks : Prepared s { s with host := { s.host with reads := s.host.reads.filter (fun r => !p r), waiting := s.host.waiting.filter (fun r => !p r) } } := .host rfl
  refine ⟨asks.trans (.of_halts fails), fun o => ?_, ?_⟩
  · rw [rest]
    rfl
  · rw [HostSt.SameButReads, rest]

theorem flrVf_prepared (s : State) (f : Nat) :
    let u := s.flrVf f
    Prepared s u ∧ s.report hostSrc 0x0108 [f] ∈ u.reports ∧ (s.host.flr f).SameButReads u.host ∧ u.holdsTiles = s.holdsTiles := by
  have event : Prepared s (s.emit hostSrc 0x0108 [f]) := .of_halts (.emit ..)
  have reported : s.report hostSrc 0x0108 [f] ∈ (s.emit hostSrc 0x0108 [f]).reports := List.mem_append_right _ (List.mem_singleton_self _)
  have island : Prepared (s.emit hostSrc 0x0108 [f]) { s.emit hostSrc 0x0108 [f] with host := s.host.flr f } := .host rfl
  obtain ⟨fails, words, host⟩ := failReads_prepared { s.emit hostSrc 0x0108 [f] with host := s.host.flr f } 4 (p := fun r => decide (r.fn = f) && r.isCopy)
    fun r chosen => (Bool.and_eq_true_iff.mp chosen).2
  unfold State.flrVf
  dsimp only at *
  generalize State.failReads _ _ _ = u at *
  refine ⟨(event.trans island).trans fails, fails.reports.subset reported, host, ?_⟩
  unfold State.holdsTiles State.flag
  rw [State.rd_of_word (words _), host]
  rfl

/-! ### FLR of PF0 -/

/-- The host interface after its reset. -/
def HostSt.island (h : HostSt) : HostSt :=
  { h with bme := [], bar4 := 1024, vfBar4 := 1024, mps := 128, mrrs := 512, extTag := true, tag10 := false, tag14 := false,
           cplTo := 0, cplOff := false, aer := [], ideIds := [], cxlIde := none, msix := [], msixOn := [] }

/-- An FLR of PF0 up to the reset of the partitions. -/
def State.flrPf (s : State) : State := (s.emit hostSrc 0x0108 [0]).resetHostIsland.dropIdeKeys.failReads 4 HostRead.isCopy

/-- PF0 in D0. -/
def State.inD0 (s : State) : State := { s with host := { s.host with d3hot := false } }

theorem leaveD3_frees (s : State) : s.leaveD3 = if s.host.d3hot then (sites.filter s.enabled).foldl State.freeTile s.inD0 else s := rfl

theorem resetHostIsland_eq (s : State) : s.resetHostIsland = ({ s with host := s.host.island } : State).leaveD3 := rfl

/-- Leaving D3hot changes no register and no Bus Master Enable. -/
theorem leaveD3_keeps (s : State) : SamePlan s s.leaveD3 ∧ s.leaveD3.host.bme = s.host.bme := by
  rw [leaveD3_frees]
  split
  · have frees := foldl_freeTile_stops (sites.filter s.enabled) s.inD0
    generalize (sites.filter s.enabled).foldl State.freeTile _ = u at *
    exact ⟨frees.plan, frees.bme⟩
  · exact ⟨fun _ _ => rfl, rfl⟩

theorem flrPf_keeps (s : State) : SamePlan s s.flrPf ∧ s.flrPf.host.bme = [] := by
  obtain ⟨plan, bme⟩ := leaveD3_keeps { s.emit hostSrc 0x0108 [0] with host := s.host.island }
  obtain ⟨fails, -, host⟩ := failReads_prepared ({ s.emit hostSrc 0x0108 [0] with host := s.host.island } : State).leaveD3.dropIdeKeys 4 (p := HostRead.isCopy) fun _ h => h
  have eq : s.flrPf = ({ s.emit hostSrc 0x0108 [0] with host := s.host.island } : State).leaveD3.dropIdeKeys.failReads 4 HostRead.isCopy := rfl
  rw [eq]
  dsimp only at fails host
  generalize State.failReads _ _ _ = u at *
  generalize ({ s.emit hostSrc 0x0108 [0] with host := s.host.island } : State).leaveD3 = v at *
  refine ⟨fun o below => (fails.plan o below).trans (plan o below), ?_⟩
  rw [host]
  exact bme

/-- The host interface after an FLR of PF0 in D0, but for its reads. -/
theorem flrPf_prepared {s : State} (awake : s.host.d3hot = false) :
    let u := s.flrPf
    Prepared s u ∧ s.report hostSrc 0x0108 [0] ∈ u.reports ∧ (u.host.bme = [] ∧ u.host.msix = [] ∧ u.host.msixOn = [] ∧ u.host.hdm = s.host.hdm) ∧ u.holdsTiles = s.holdsTiles := by
  have stays : s.flrPf = ({ s.emit hostSrc 0x0108 [0] with host := s.host.island } : State).dropIdeKeys.failReads 4 HostRead.isCopy := by
    unfold State.flrPf
    rw [resetHostIsland_eq, leaveD3_frees, if_neg (by rw [Bool.not_eq_true]; exact awake)]
    rfl
  have event : Prepared s (s.emit hostSrc 0x0108 [0]) := .of_halts (.emit ..)
  have reported : s.report hostSrc 0x0108 [0] ∈ (s.emit hostSrc 0x0108 [0]).reports := List.mem_append_right _ (List.mem_singleton_self _)
  have island : Prepared (s.emit hostSrc 0x0108 [0]) ({ s.emit hostSrc 0x0108 [0] with host := s.host.island } : State).dropIdeKeys := .host rfl
  obtain ⟨fails, words, host⟩ := failReads_prepared ({ s.emit hostSrc 0x0108 [0] with host := s.host.island } : State).dropIdeKeys 4 (p := HostRead.isCopy) fun _ h => h
  rw [stays]
  dsimp only at *
  generalize State.failReads _ _ _ = u at *
  refine ⟨(event.trans island).trans fails, fails.reports.subset reported, ⟨?_, ?_, ?_, ?_⟩, ?_⟩
  · rw [host]; rfl
  · rw [host]; rfl
  · rw [host]; rfl
  · rw [host]; rfl
  · unfold State.holdsTiles State.flag
    rw [State.rd_of_word (words _), host]
    rfl

/-! ### The command -/

theorem flr_goes {s : State} (up : s.dlUp = true) (f : FnId) :
    exec (.flr f) s = .next (if f.val = 0 then s.flrPf.resetAll 6 hostSrc else (s.flrVf f.val).partResetGo f.val 6 hostSrc) := by
  have goes : exec (.flr f) s = .next (if !s.dlUp then s else if f.val = 0 then
    (s.emit hostSrc 0x0108 [f.val]).resetHostIsland.dropIdeKeys.failReads 4 HostRead.isCopy |>.resetAll 6 hostSrc else (s.flrVf f.val).partResetGo f.val 6 hostSrc) := rfl
  rw [goes, up, Bool.not_true, if_neg Bool.false_ne_true]
  by_cases zero : f.val = 0
  · rw [if_pos zero, if_pos zero, zero]
    rfl
  · rw [if_neg zero, if_neg zero]

/-- After an FLR the function's Bus Master Enable is 0 and its rings have stopped, in any state. -/
theorem flr_stops {s : State} (up : s.dlUp = true) (f : FnId) : ∃ u, exec (.flr f) s = .next u ∧ u.bme f = false ∧ ∀ n < 64, s.ringOwner n = f.val → u.isRunning n = false := by
  refine ⟨_, flr_goes up f, ?_⟩
  split
  · next zero =>
    obtain ⟨plan, none⟩ := flrPf_keeps s
    generalize s.flrPf = v at *
    obtain ⟨stops, halted⟩ := foldl_partResetGo_stops 6 hostSrc v.partitions v
    have first : 0 ∈ v.partitions := List.mem_filter.mpr ⟨by decide, rfl⟩
    refine ⟨?_, fun n few owner => halted n few ?_⟩
    · unfold State.bme State.resetAll
      rw [stops.bme, none]
      rfl
    · rw [plan.ringOwner few, owner, zero]
      exact first
  · obtain ⟨prepared, -, host, -⟩ := flrVf_prepared s f.val
    generalize s.flrVf f.val = v at *
    obtain ⟨stops, halted⟩ := partResetGo_stops v f.val 6 hostSrc
    refine ⟨?_, fun n few owner => halted n few ((prepared.plan.ringOwner few).trans owner)⟩
    unfold State.bme
    rw [stops.bme, host]
    exact look_put_same noMark s.host.bme f.val false

/-- The MSI-X block of a function after its FLR. -/
theorem msix_flr (h : HostSt) (f o : Nat) (inside : o < 0x2000) : look msixInit (h.flr f).msix (0x2000 * f + o) = msixInit (0x2000 * f + o) := by
  refine look_none _ _ _ fun q listed same => ?_
  have other := of_decide_eq_true (List.mem_filter.mp listed).2
  rw [same] at other
  omega

/-! ### The reset commands -/

section
variable {s : State} (writable : Writable s rstCmd) (idle : s.flag hostB FLT_RST_STAT_BUSY = false) (small : s.latest rstCmd < 2 ^ 32)
include writable idle small

/-- TILE_RESET. -/
theorem tileReset_resets (t : TileId) (enabled : s.enabled t.toNat = true) :
    Goes (.tileReset 0 t) s (fun u => WasReset s u t.toNat s.holdsTiles ∧ (∀ n < 64, n ∈ s.tileRings t.toNat → u.isRunning n = false) ∧ (∀ r ∈ u.recsOut, r.1 ≠ t.toNat) ∧ u.mem = s.mem ∧
      (∀ k, k ≠ t.toNat → (u.tile k).spad = (s.tile k).spad ∧ (u.tile k).inReset = (s.tile k).inReset) ∧
      s.report ringSrc 0x068C [1, t.toNat] ∈ u.reports ∧ s.reports <+: u.reports ∧ u.flag hostB FLT_RST_STAT_DONE = true ∧ u.rd hostB FLT_RST_CMD_TILE = t.toNat) := by
  obtain ⟨v, goes, only, holds⟩ := tileReset_goes writable idle small enabled
  have prepared := Prepared.of_rstCmd only
  obtain ⟨cleared, stopped, event, done⟩ := tileResetGo_resets ((prepared.plan.enabled _).trans enabled)
  have held : v.holdsTiles = s.holdsTiles := by
    unfold State.holdsTiles State.flag
    rw [State.rd_of_word (only.2 _ (by decide)).1, only.1]
  have rings : v.tileRings t.toNat = s.tileRings t.toNat := by
    have recs : v.recsOut = s.recsOut := by rw [only.1]
    unfold State.tileRings
    rw [prepared.tile, recs]
  refine ⟨_, goes, ?_⟩
  generalize v.tileResetGo t.toNat = u at *
  rw [held] at cleared
  rw [rings] at stopped
  rw [prepared.report] at event
  have mine : t.toNat ∈ [t.toNat] := List.mem_singleton_self _
  refine ⟨prepared.wasReset cleared mine, stopped, fun r listed same => cleared.recsOut r listed (List.mem_singleton.mpr same), cleared.rest.mem.trans prepared.mem, fun k other => ?_, event,
    prepared.reports.trans cleared.rest.reports, done, (cleared.rest.rd (by decide) (by decide)).trans holds⟩
  have stays := cleared.rest.stays fun listed => other (List.mem_singleton.mp listed)
  rw [prepared.tile] at stays
  exact stays

/-- PARTITION_RESET. -/
theorem partitionReset_resets {k : Nat} (low : 1 ≤ k) (high : k ≤ 8) :
    (∃ u, exec (.partitionReset 0 k) s = .next u ∧ (∀ n < 64, s.ringOwner n = k → u.isRunning n = false) ∧ u.rd hostB FLT_RST_CMD_PART = k) ∧
    (s.host.resetting = [] → NoPass s k → Goes (.partitionReset 0 k) s (fun u => PartWasReset s u k s.holdsTiles)) := by
  obtain ⟨v, goes, only, holds⟩ := partitionReset_goes writable idle small low high
  have prepared := Prepared.of_rstCmd only
  have held : v.holdsTiles = s.holdsTiles := by
    unfold State.holdsTiles State.flag
    rw [State.rd_of_word (only.2 _ (by decide)).1, only.1]
  obtain ⟨stops, halted⟩ := partResetGo_stops v k 7 ringSrc
  refine ⟨⟨_, goes, fun n few owner => halted n few ((prepared.plan.ringOwner few).trans owner), ?_⟩, fun alone none => ⟨_, goes, held ▸ (prepared.partResets alone none 7 ringSrc).1⟩⟩
  exact (State.rd_of_word (stops.words _ (by decide) (by decide))).trans holds

end

/-! ### FLR where no pass runs -/

/-- FLR of a VF. -/
theorem flr_resets_partition {s : State} (up : s.dlUp = true) {f : FnId} (vf : f.val ≠ 0) (alone : s.host.resetting = []) (none : NoPass s f) :
    Goes (.flr f) s (fun u => PartWasReset s u f s.holdsTiles ∧ s.report hostSrc 0x0108 [f.val] ∈ u.reports ∧ u.bme f = false ∧ (∀ g, g ≠ f.val → u.bme g = s.bme g) ∧ look noMark u.host.msixOn f = false ∧
      (∀ o < 0x2000, u.msixWord f o = (msixInit (0x2000 * f.val + o)).toNat) ∧ u.host.hdm = s.host.hdm) := by
  refine ⟨_, (flr_goes up f).trans (by rw [if_neg vf]), ?_⟩
  obtain ⟨prepared, reported, host, held⟩ := flrVf_prepared s f.val
  generalize s.flrVf f.val = v at *
  obtain ⟨reset, rest⟩ := prepared.partResets alone none 6 hostSrc
  generalize v.partResetGo f.val 6 hostSrc = u at *
  rw [held] at reset
  have flr : u.host.bme = (s.host.flr f.val).bme ∧ u.host.msixOn = (s.host.flr f.val).msixOn ∧ u.host.msix = (s.host.flr f.val).msix ∧ u.host.hdm = s.host.hdm := by
    rw [rest.host, host]
    exact ⟨rfl, rfl, rfl, rfl⟩
  obtain ⟨bme, msixOn, msix, hdm⟩ := flr
  refine ⟨reset, rest.reports.subset reported, ?_, fun g other => ?_, ?_, fun o inside => ?_, hdm⟩
  · rw [State.bme, bme]
    exact look_put_same noMark s.host.bme f.val false
  · rw [State.bme, bme]
    exact look_put_ne noMark s.host.bme f.val g false other
  · rw [msixOn]
    exact look_put_same noMark s.host.msixOn f.val false
  · rw [State.msixWord, msix, msix_flr _ _ _ inside]

/-- FLR of PF0. -/
theorem flr_resets_all {s : State} (up : s.dlUp = true) (awake : s.host.d3hot = false) (alone : s.host.resetting = []) (none : ∀ k < 9, NoPass s k) :
    Goes (.flr 0) s (fun u => (∀ t, s.enabled t = true → WasReset s u t s.holdsTiles) ∧ (∀ g, u.bme g = false) ∧ u.host.msix = [] ∧ u.host.msixOn = [] ∧ u.host.hdm = s.host.hdm ∧ u.mem = s.mem ∧
      s.report hostSrc 0x0108 [0] ∈ u.reports) := by
  refine ⟨_, flr_goes up 0, ?_⟩
  rw [if_pos (Fin.val_zero 9)]
  obtain ⟨prepared, reported, ⟨bme, msix, msixOn, hdm⟩, held⟩ := flrPf_prepared awake
  generalize s.flrPf = v at *
  obtain ⟨reset, mem, reports, host⟩ := prepared.resetsAll alone none 6 hostSrc
  generalize v.resetAll 6 hostSrc = u at *
  rw [held] at reset
  have kept : u.host.bme = v.host.bme ∧ u.host.msix = v.host.msix ∧ u.host.msixOn = v.host.msixOn ∧ u.host.hdm = v.host.hdm := by
    rw [host]
    exact ⟨rfl, rfl, rfl, rfl⟩
  obtain ⟨sameBme, sameMsix, sameMsixOn, sameHdm⟩ := kept
  refine ⟨reset, fun g => ?_, sameMsix.trans msix, sameMsixOn.trans msixOn, sameHdm.trans hdm, mem, reports _ reported⟩
  rw [State.bme, sameBme, bme]
  rfl

/-! ### D3hot -/

/-- D3HOT_ENTRY where no pass runs. -/
theorem d3hotEntry_resets {s : State} (up : s.dlUp = true) (awake : s.host.d3hot = false) (alone : s.host.resetting = []) (none : ∀ k < 9, NoPass s k) :
    Goes .d3hotEntry s (fun u => (∀ t, s.enabled t = true → WasReset s u t true) ∧ u.host.d3hot = true ∧ u.mem = s.mem) := by
  have asleep : Prepared s { s with host := { s.host with d3hot := true } } := .host rfl
  have goes : exec .d3hotEntry s = .next (if !s.dlUp || s.host.d3hot then s else ({ s with host := { s.host with d3hot := true } } : State).resetAll 7 hostSrc) := rfl
  have held : ({ s with host := { s.host with d3hot := true } } : State).holdsTiles = true := Bool.or_true _
  have deep : ({ s with host := { s.host with d3hot := true } } : State).host.d3hot = true := rfl
  rw [up, awake] at goes
  refine ⟨_, goes, ?_⟩
  rw [if_neg (by decide)]
  generalize ({ s with host := { s.host with d3hot := true } } : State) = v at *
  obtain ⟨reset, mem, -, host⟩ := asleep.resetsAll alone none 7 hostSrc
  rw [held] at reset
  exact ⟨reset, by rw [host]; exact deep, mem⟩

/-- D3HOT_EXIT. -/
theorem d3hotExit_frees {s : State} (up : s.dlUp = true) (asleep : s.host.d3hot = true) :
    Goes .d3hotExit s (fun u => u = { s with tiles := u.tiles, host := { s.host with d3hot := false } } ∧
      ∀ t, u.tile t = if s.enabled t = true ∧ s.flag hostB FLT_CARD_CARD_FAULT = false then { s.tile t with inReset := false } else s.tile t) := by
  have goes : exec .d3hotExit s = .next (if s.dlUp then s.leaveD3 else s) := rfl
  rw [up, if_pos rfl, leaveD3_frees, asleep, if_pos rfl] at goes
  refine ⟨_, goes, ?_⟩
  have site (t : Nat) : t ∈ sites.filter s.enabled ↔ s.enabled t = true := by
    refine ⟨fun listed => (List.mem_filter.mp listed).2, fun enabled => List.mem_filter.mpr ⟨?_, enabled⟩⟩
    exact (List.mem_filter.mp ((mem_partTiles s _ t).mpr ⟨enabled, rfl⟩)).1
  have once : (sites.filter s.enabled).Nodup := (List.nodup_range.filter _).filter _
  have held : s.inD0.holdsTiles = s.flag hostB FLT_CARD_CARD_FAULT := Bool.or_false _
  rw [foldl_freeTile (sites.filter s.enabled) s.inD0 fun t listed => (site t).mp listed, held]
  obtain ⟨rest, own, others⟩ := foldl_modTile_sets Tile.leave (sites.filter s.enabled) once s.inD0
  cases fault : s.flag hostB FLT_CARD_CARD_FAULT with
  | true => exact ⟨rfl, fun t => (if_neg fun both => nomatch both.2).symm⟩
  | false =>
    rw [if_neg Bool.false_ne_true]
    generalize List.foldl _ _ _ = u at *
    refine ⟨rest, fun t => ?_⟩
    by_cases enabled : s.enabled t = true
    · rw [if_pos ⟨enabled, rfl⟩]
      exact own t ((site t).mpr enabled)
    · rw [if_neg fun both => enabled both.1]
      exact others t fun listed => enabled ((site t).mp listed)

/-- With the data link down nothing is reset. -/
theorem resets_need_link {s : State} (down : s.dlUp = false) (f : FnId) : exec (.flr f) s = .next s ∧ exec .d3hotEntry s = .next s ∧ exec .d3hotExit s = .next s := by
  refine ⟨congrArg Host.Outcome.next (if_pos ?_), congrArg Host.Outcome.next (if_pos ?_), congrArg Host.Outcome.next (if_neg ?_)⟩ <;> rw [down]
  · rfl
  · rfl
  · exact Bool.false_ne_true

/-- Settles O46: each trigger leaves tiles, channels and owners as they are, rings halt and tiles take their reset state, and partitions whose channels have no pass take their last step at once. -/
theorem resetsReturnTilesToTheirStart : Obligations.ResetsReturnTilesToTheirStart := by
  unfold Obligations.ResetsReturnTilesToTheirStart
  refine ⟨?_, ?_, ?_, ?_, ?_, ?_, ?_, ?_, ?_⟩
  · exact fun t s writable idle small enabled => tileReset_resets writable idle small t enabled
  · exact fun k s writable idle small low high => partitionReset_resets writable idle small low high
  · exact fun k s waits => ⟨settleResets_waits waits, settleResets_ends waits⟩
  · exact fun f s up => flr_stops up f
  · exact fun f s up vf alone none _ => flr_resets_partition up vf alone none
  · exact fun s up awake alone none _ => flr_resets_all up awake alone none
  · exact fun s up awake alone none => d3hotEntry_resets up awake alone none
  · exact fun s up asleep => d3hotExit_frees up asleep
  · exact fun f s down => resets_need_link down f

end Sys2Proof.Machine
end
